-- ==== Sys2Proof/Word.lean ====
section
/-!
DEFINITION. Words of the SU5128 and their plainest arithmetic.
-/

namespace Sys2Proof

/-- A byte. -/
abbrev Byte := BitVec 8

/-- A general register of an engine, 64 bits (R164). -/
abbrev Word := BitVec 64

end Sys2Proof
end

