-- ==== Sys2Proof/Syntax.lean ====
section
/-!
DEFINITION. The commands of the SU5128: one constructor of `Instr` per row of spec/opcode_table.json, with the operands
the row's text gives it, and the types of those operands (R14 numbers the units).
-/

namespace Sys2Proof

/-! ## Numbers of units (R14) -/

/-- Acxa engine E000 to E127. -/
abbrev EngId := Fin 128
/-- Pin channel. -/
abbrev ChId := Fin 512
/-- Quad. -/
abbrev QuadId := Fin 128
/-- Pin domain. -/
abbrev PdId := Fin 16
/-- Cluster. -/
abbrev CluId := Fin 8
/-- Follower. -/
abbrev FtId := Fin 8
/-- Tie group. -/
abbrev GrpId := Fin 64
/-- Acquisition unit. -/
abbrev AcqId := Fin 16
/-- Condition slot of an acquisition unit. -/
abbrev SlotId := Fin 8
/-- Receive chain. -/
abbrev DdcId := Fin 8
/-- Waveform generator. -/
abbrev AwgId := Fin 8
/-- Converter link: 0 to 3 receive, 4 to 7 transmit. -/
abbrev LinkId := Fin 8
/-- Serial lane (R336). -/
abbrev LaneId := Fin 34
/-- Seam port. -/
abbrev PortId := Fin 4
/-- DRAM port: 0 is A, 1 is B. -/
abbrev DramId := Fin 2
/-- Power domain (R387). -/
abbrev DomId := Fin 32
/-- Sew group. -/
abbrev SgId := Fin 16
/-- DMA channel. -/
abbrev DmaId := Fin 8
/-- Entry of an AWG sequence table. -/
abbrev EntryId := Fin 4096

/-! ## Operand types -/

/-- Causes of a follower's loss (R104). -/
inductive FtCause where
  | noEdge
  | frequency
  | phase
  deriving DecidableEq, Repr

/-- The cause's code in FT_LOSS_TS (R104). -/
def FtCause.code : FtCause → Nat
  | .noEdge => 0
  | .frequency => 1
  | .phase => 2

/-- One link lane's multiblock: whether its sync headers mark the boundary in phase, whether its CRC-12 is right, and
its octets (R283). -/
structure LaneMb where
  inPhase : Bool
  crcOk : Bool
  octets : List Byte
  deriving DecidableEq, Repr

/-- What a received PTP message carries in its header (R313): the Ethernet port, domain, sender's clock identity,
sequence number, and the correction in 1/65,536 ns. -/
structure PtpHead where
  port   : Bool
  domain : Byte
  src    : BitVec 64
  seq    : BitVec 16
  corr   : Int
  deriving DecidableEq, Repr

/-- The data set of an Announce message, in the order in which the best master clock algorithm compares it (R313). -/
structure PtpAnnounce where
  prio1    : Byte
  cls      : Byte
  accuracy : Byte
  variance : BitVec 16
  prio2    : Byte
  gm       : BitVec 64
  steps    : BitVec 16
  deriving DecidableEq, Repr

/-- The messages a clock sends of itself (R313). -/
inductive PtpSend where
  | sync
  | delayReq
  | pdelayReq
  | announce
  deriving DecidableEq, Repr

/-- Sources of requests to a DRAM port (R374). -/
inductive DramSrc where
  | bobbin (c : CluId)
  | awg
  | acq
  | prog (c : CluId)
  | failSpill
  | host
  | dma (ch : DmaId)
  | block (e : EngId)
  | telemetry
  | sealer
  deriving DecidableEq, Repr

/-- A source's number in the model's records: a cluster's bobbin refill by its cluster. -/
def DramSrc.code : DramSrc → Nat
  | .bobbin c => c
  | .awg => 8
  | .acq => 9
  | .prog c => 16 + c
  | .failSpill => 10
  | .host => 11
  | .dma ch => 24 + ch
  | .block e => 128 + e
  | .telemetry => 12
  | .sealer => 13

/-- Background actions that wait at level 7 and can be promoted (R371). -/
inductive DramBg where
  | tracking
  | zq
  | temp
  deriving DecidableEq, Repr

/-- Boundary-test instructions (R492). -/
inductive BoundaryTest where
  | extest
  | clamp
  | highz
  | extestPulse
  | extestTrain
  deriving DecidableEq, Repr

/-- The delay sweep of one strobe group (R367, R368): which read and write delays pass, and the VrefDQ code. -/
structure Sweep where
  rd   : BitVec 512
  wr   : BitVec 512
  vref : BitVec 7
  deriving DecidableEq, Repr

/-- What a received Seam message carries in its header (R349): the port it arrives on, its origin's position, its
hops. -/
structure SeamHead where
  port : PortId
  pos  : Fin 16
  hops : Fin 5
  deriving DecidableEq, Repr

/-- Kinds of tie event (R352). -/
inductive TieKind where
  | start
  | stall (cycles : BitVec 7)
  | finish (reason : Byte)
  | host
  | trigIn
  | sew
  deriving DecidableEq, Repr

/-- A kind's number in the model's records. -/
def TieKind.code : TieKind → Nat
  | .start => 0
  | .stall _ => 1
  | .finish _ => 2
  | .host => 3
  | .trigIn => 4
  | .sew => 5

/-- What a kind carries: cycles of a stall, REASON of an end. -/
def TieKind.arg : TieKind → Nat
  | .stall n => n.toNat
  | .finish r => r.toNat
  | _ => 0

/-- What CALIBRATE measures on one channel (R433): `path` 0 CMH and 1 CML on the reference edge (step 2), 2 DRV (step 3),
3 DEN (step 4); shots with an edge, their range, and their mean: for step 2 the time found, for steps 3 and 4 how late
the edge came, in ticks, without deskew. -/
structure CalMeas where
  ch    : ChId
  path  : Fin 4
  edges : Nat
  range : Nat
  mean  : Int
  deriving DecidableEq, Repr

/-- A frame of the sequence of CALIBRATE: its step (from 0), pin domain and bits (R50, R433). -/
structure CalFrame where
  step  : Fin 5
  pd    : PdId
  frame : BitVec 32
  deriving DecidableEq, Repr

/-- What a running command meets at its end (R485 to R487): measurements of CALIBRATE, pin domains whose record does not
read back, whether an NVM record does. -/
structure CmdEnd where
  meas     : List CalMeas
  bad      : List PdId
  readBack : Bool
  deriving DecidableEq, Repr

/-- Host writes that bear on MSI-X masks (R477): a vector's mask bit, or enable and function mask. -/
inductive MsixOp where
  | vector (v : Fin 256) (mask : Bool)
  | function (enable mask : Bool)
  deriving DecidableEq, Repr

/-- The memories whose words take the (144,128) code (R23, R24). -/
inductive CodedMem where
  | prog (c : CluId)
  | bobbin (e : EngId)
  | queue (e : EngId)
  | edge (ch : ChId)
  | period (e : EngId)
  | failBuf (e : EngId)
  | acqMem (u : AcqId)
  | awgBuf (g : AwgId)
  | awgSeq (g : AwgId)
  | dram
  deriving DecidableEq, Repr

/-- What a DMA descriptor moves besides memory (R479, R480): the bytes the host's completions bring and which 16-byte words
of them are poisoned, and after how many lines a completion error or timeout comes, if one does. -/
structure DmaData where
  data : List Byte
  bad  : List Bool
  err  : Option Nat
  deriving DecidableEq, Repr

/-! ## The commands -/

/-- The commands the block takes, one for each row of the opcode table. An operand that has a default value says what a
command need not bring: how many further issue cycles or pieces it covers (log 34), a disagreement of two compared copies
(log 70), groups that ask for a tracking step (log 59), the groups tied at a neighbour (log 22). -/
inductive Instr where
  /-- REGISTER_WRITE (R9) -/
  | registerWrite (addr : BitVec 26) (bytes : List Byte) (ep : Bool) (dup : Bool := false)
  /-- READ_CLEAR (R9) -/
  | readClear (a : BitVec 26) (n : BitVec 10)
  /-- BASTED_WRITE (R324) -/
  | bastedWrite (addr : BitVec 26) (bytes : List Byte)
  /-- REFCLK_LOST (R21) -/
  | refclkLost (dt : Nat)
  /-- REFCLK_RESTORED (R22) -/
  | refclkRestored
  /-- PLL_RETURN_COMPLETE (R22) -/
  | pllReturnComplete
  /-- REFCLK_QUALIFY_TIMEOUT (R413) -/
  | refclkQualifyTimeout
  /-- SRAM_SCRUB_VISIT (R32) -/
  | sramScrubVisit (m : CodedMem) (word : BitVec 16)
  /-- COMPARATOR_INPUT_CHANGE (R41) -/
  | comparatorInputChange (c : ChId) (cmh : Bool) (cml : Bool) (dt : Nat)
  /-- FEB_FRAME_START (R49) -/
  | febFrameStart (pd : PdId)
  /-- FEB_FRAME_COMPLETE (R47) -/
  | febFrameComplete (pd : PdId) (di : BitVec 17)
  /-- FEB_HCMD (R54) -/
  | febHcmd (pd : PdId) (frame : BitVec 32)
  /-- FEB_FLUSH (R54) -/
  | febFlush (pd : PdId)
  /-- FEB_ENGINE_FRAME_QUEUE (R51) -/
  | febEngineFrameQueue (e : EngId)
  /-- QUAD_OWNERSHIP_APPLY (R58) -/
  | quadOwnershipApply (q : QuadId)
  /-- TIE_MEMBERSHIP_APPLY (R64) -/
  | tieMembershipApply (e : EngId)
  /-- CMP_MASK_APPLY (R139) -/
  | cmpMaskApply (e : EngId)
  /-- ENTRY_APPLY (R173) -/
  | entryApply (e : EngId)
  /-- SEWSTART_APPLY (R326) -/
  | sewstartApply (e : EngId)
  /-- MODE_APPLY (R419) -/
  | modeApply (e : EngId)
  /-- ENG_START (R174) -/
  | engStart (e : EngId)
  /-- TIE_START_ARRIVAL (R66) -/
  | tieStartArrival (e : EngId)
  /-- TIE_END_ARRIVAL (R38) -/
  | tieEndArrival (e : EngId)
  /-- TIE_STALL_ARRIVAL (R38) -/
  | tieStallArrival (e : EngId)
  /-- TIE_BEAT (R68) -/
  | tieBeat (g : GrpId)
  /-- ROW_PIN_START (R73) -/
  | rowPinStart (e : EngId)
  /-- EDGE_FIRE (R88) -/
  | edgeFire (c : ChId)
  /-- STROBE_CLOSE (R140) -/
  | strobeClose (c : ChId)
  /-- FLAG_VISIBLE (R141) -/
  | flagVisible (e : EngId)
  /-- FT_FREQUENCY_MEASURED (R101) -/
  | ftFrequencyMeasured (f : FtId) (period : Nat)
  /-- FT_LOCK (R101) -/
  | ftLock (f : FtId) (phErr : Nat)
  /-- FT_LOSS (R105) -/
  | ftLoss (f : FtId) (cause : FtCause) (period : Nat) (phErr : Nat := 0)
  /-- HEM_STATE_APPLY (R130) -/
  | hemStateApply (e : EngId)
  /-- RESULT_POST (R144) -/
  | resultPost (e : EngId)
  /-- EMISSION_DEADLINE_MISS (R128) -/
  | emissionDeadlineMiss (e : EngId)
  /-- STREAM_REGISTER_WRITE (R122) -/
  | streamRegisterWrite (e : EngId) (off : Nat) (size : Nat) (data : Nat)
  /-- BOBBIN_LOAD (R121) -/
  | bobbinLoad (e : EngId) (ctrl : BitVec 32)
  /-- BOBBIN_HOSTFILL (R121) -/
  | bobbinHostfill (e : EngId) (ctrl : BitVec 32)
  /-- BOBBIN_WINDOW_WRITE (R123) -/
  | bobbinWindowWrite (e : EngId) (off : Nat) (bytes : List Byte) (ep : Bool) (dup : Bool := false)
  /-- BOBBIN_REFILL_REQUEST (R126) -/
  | bobbinRefillRequest (c : CluId)
  /-- BOBBIN_LINE_ARRIVAL (R124) -/
  | bobbinLineArrival (e : EngId)
  /-- FAIL_SPILL_LINE (R157) -/
  | failSpillLine (e : EngId)
  /-- PIN_EM_CLR (R162) -/
  | pinEmClr (c : ChId)
  /-- ENG_HALT (R187) -/
  | engHalt (e : EngId)
  /-- ENG_RESET (R189) -/
  | engReset (e : EngId) (key : BitVec 8)
  /-- EV_SET_HOST (R182) -/
  | evSetHost (e : EngId)
  /-- EVENT_TAKEN (R184) -/
  | eventTaken (e : EngId)
  /-- BRANCH_DECISION (R179) -/
  | branchDecision (e : EngId)
  /-- PIN_ALIGNED_ACTION (R198) -/
  | pinAlignedAction (e : EngId)
  /-- NOP (R200) -/
  | nop (e : EngId)
  /-- BRR (R202) -/
  | brr (e : EngId)
  /-- CALL (R201) -/
  | call (e : EngId)
  /-- BR (R202) -/
  | br (e : EngId)
  /-- RET (R202) -/
  | ret (e : EngId)
  /-- LOOP (R203) -/
  | loopI (e : EngId)
  /-- END (R177) -/
  | endI (e : EngId)
  /-- ERET (R185) -/
  | eret (e : EngId)
  /-- VEC (R204) -/
  | vec (e : EngId) (n : Nat := 0)
  /-- VRPT (R204) -/
  | vrpt (e : EngId) (n : Nat := 0)
  /-- VPAD (R205) -/
  | vpad (e : EngId) (n : Nat := 0)
  /-- VPSET (R116) -/
  | vpset (e : EngId)
  /-- VPADD (R116) -/
  | vpadd (e : EngId)
  /-- SLOOP (R206) -/
  | sloop (e : EngId)
  /-- SLEND (R125) -/
  | slend (e : EngId)
  /-- TAGSET (R200) -/
  | tagset (e : EngId)
  /-- TSET (R207) -/
  | tset (e : EngId)
  /-- TSETR (R207) -/
  | tsetr (e : EngId)
  /-- LVLI (R208) -/
  | lvli (e : EngId)
  /-- LVL (R208) -/
  | lvl (e : EngId)
  /-- DMASK (R209) -/
  | dmask (e : EngId)
  /-- FLOG (R209) -/
  | flog (e : EngId)
  /-- FCLR (R210) -/
  | fclr (e : EngId)
  /-- SFAIL (R211) -/
  | sfail (e : EngId)
  /-- MWAIT (R212) -/
  | mwait (e : EngId) (n : Nat := 0)
  /-- MWAIT_DECISION (R212) -/
  | mwaitDecision (e : EngId)
  /-- AVEC (R215) -/
  | avec (e : EngId) (n : Nat := 0)
  /-- MARCH (R216) -/
  | march (e : EngId) (n : Nat := 0)
  /-- LDI (R217) -/
  | ldi (e : EngId)
  /-- LDHI (R217) -/
  | ldhi (e : EngId)
  /-- CPY (R217) -/
  | cpy (e : EngId)
  /-- ADD (R217) -/
  | add (e : EngId)
  /-- ADDI (R217) -/
  | addi (e : EngId)
  /-- SUB (R217) -/
  | sub (e : EngId)
  /-- AND (R217) -/
  | andI (e : EngId)
  /-- OR (R217) -/
  | orI (e : EngId)
  /-- XOR (R217) -/
  | xorI (e : EngId)
  /-- NOT (R217) -/
  | notI (e : EngId)
  /-- SHL (R217) -/
  | shl (e : EngId)
  /-- SHR (R217) -/
  | shr (e : EngId)
  /-- CMP (R217) -/
  | cmp (e : EngId)
  /-- CMPI (R217) -/
  | cmpi (e : EngId)
  /-- CRCW (R219) -/
  | crcw (e : EngId)
  /-- CRC (R220) -/
  | crc (e : EngId) (n : Nat := 0)
  /-- FILL (R220) -/
  | fill (e : EngId) (n : Nat := 0)
  /-- MOV (R220) -/
  | movI (e : EngId) (n : Nat := 0)
  /-- BLKCMP (R222) -/
  | blkcmp (e : EngId) (n : Nat := 0)
  /-- FENCE (R223) -/
  | fence (e : EngId)
  /-- FENCE_COMPLETE (R223) -/
  | fenceComplete (e : EngId)
  /-- TRD (R200) -/
  | trd (e : EngId)
  /-- TWAIT (R225) -/
  | twait (e : EngId) (n : Nat := 0)
  /-- SWAIT (R225) -/
  | swait (e : EngId) (n : Nat := 0)
  /-- WAIT_END (R224) -/
  | waitEnd (e : EngId)
  /-- TACK (R226) -/
  | tack (e : EngId)
  /-- TRIG (R228) -/
  | trig (e : EngId)
  /-- TRGW (R228) -/
  | trgw (e : EngId) (n : Nat := 0)
  /-- ACQARM (R228) -/
  | acqarm (e : EngId)
  /-- AWGS (R229) -/
  | awgs (e : EngId)
  /-- AWGP (R229) -/
  | awgp (e : EngId)
  /-- AWGJ (R229) -/
  | awgj (e : EngId)
  /-- DDCF (R229) -/
  | ddcf (e : EngId)
  /-- EI (R230) -/
  | ei (e : EngId)
  /-- DI (R230) -/
  | diI (e : EngId)
  /-- EVCLR (R230) -/
  | evclr (e : EngId)
  /-- EVEN (R200) -/
  | even (e : EngId)
  /-- EVWAIT (R230) -/
  | evwait (e : EngId) (n : Nat := 0)
  /-- RECOVERY_END (R245) -/
  | recoveryEnd (e : EngId)
  /-- CONTROL_STORE_SCAN (R249) -/
  | controlStoreScan (e : EngId)
  /-- CLRLIST (R251) -/
  | clrlist (e : EngId)
  /-- ACQ_ARM (R256) -/
  | acqArm (u : AcqId)
  /-- ACQ_DISARM (R271) -/
  | acqDisarm (u : AcqId)
  /-- ACQ_FORCE (R260) -/
  | acqForce (u : AcqId)
  /-- ACQ_RELEASE (R258) -/
  | acqRelease (u : AcqId)
  /-- ACQ_GRAIN_DECIDE (R267) -/
  | acqGrainDecide (u : AcqId)
  /-- ACQ_POST_COMPLETE (R268) -/
  | acqPostComplete (u : AcqId)
  /-- ACQ_HOLDOFF_END (R269) -/
  | acqHoldoffEnd (u : AcqId)
  /-- ACQ_REARM (R258) -/
  | acqRearm (u : AcqId)
  /-- ACQ_SPILL_LINE (R259) -/
  | acqSpillLine (u : AcqId)
  /-- ACQ_RECORD_COMPLETE (R274) -/
  | acqRecordComplete (u : AcqId)
  /-- ACQ_TIME_CONDITION (R265) -/
  | acqTimeCondition (u : AcqId) (slot : SlotId)
  /-- JESD_LINK_ENABLE (R282) -/
  | jesdLinkEnable (r : LinkId)
  /-- SYSREF_EDGE (R280) -/
  | sysrefEdge (dt : Nat)
  /-- JESD_MULTIBLOCK_RECEIVE (R283) -/
  | jesdMultiblockReceive (r : LinkId) (rateBad : Bool) (lanes : List LaneMb)
  /-- DDC_ENABLE (R293) -/
  | ddcEnable (c : DdcId)
  /-- DDC_FTW_WRITE (R287) -/
  | ddcFtwWrite (c : DdcId) (ftw : BitVec 48)
  /-- DDC_OUTPUT_SAMPLE (R290) -/
  | ddcOutputSample (c : DdcId)
  /-- AWG_START (R300) -/
  | awgStart (g : AwgId) (e : EntryId)
  /-- AWG_STOP (R301) -/
  | awgStop (g : AwgId)
  /-- AWG_PRIME (R300) -/
  | awgPrime (g : AwgId) (e : EntryId)
  /-- AWG_FLUSH (R300) -/
  | awgFlush (g : AwgId)
  /-- AWG_JUMP (R301) -/
  | awgJump (g : AwgId) (e : EntryId) (granule : Bool)
  /-- AWG_JUMP_EFFECT (R301) -/
  | awgJumpEffect (g : AwgId)
  /-- AWG_PRIME_COMPLETE (R300) -/
  | awgPrimeComplete (g : AwgId)
  /-- AWG_PLAYBACK_START (R300) -/
  | awgPlaybackStart (g : AwgId)
  /-- AWG_REFILL_LINE (R303) -/
  | awgRefillLine (g : AwgId)
  /-- AWG_PLAY_END (R298) -/
  | awgPlayEnd (g : AwgId)
  /-- AWG_SAMPLE_UNDERRUN (R303) -/
  | awgSampleUnderrun (g : AwgId)
  /-- AWG_SEQ_ENTRY_WRITE (R299) -/
  | awgSeqEntryWrite (g : AwgId) (e : EntryId) (off : Fin 16) (bytes : List Byte) (ep : Bool) (dup : Bool := false)
  /-- TIME_NOW_READ (R310) -/
  | timeNowRead
  /-- TIME_DEVNUM_WRITE (R307) -/
  | timeDevnumWrite (num : BitVec 10)
  /-- TIME_SOURCE_SELECT (R312) -/
  | timeSourceSelect (src : BitVec 2)
  /-- TICKSYNC_EDGE (R316) -/
  | ticksyncEdge (dt : Nat)
  /-- PTP_SYNC (R315) -/
  | ptpSync (h : PtpHead) (twoStep : Bool) (origin : BitVec 80)
  /-- PTP_FOLLOW_UP (R313) -/
  | ptpFollowUp (h : PtpHead) (origin : BitVec 80)
  /-- PTP_DELAY_REQ (R313) -/
  | ptpDelayReq (h : PtpHead)
  /-- PTP_DELAY_RESP (R313) -/
  | ptpDelayResp (h : PtpHead) (receipt : BitVec 80)
  /-- PTP_PDELAY_REQ (R313) -/
  | ptpPdelayReq (h : PtpHead)
  /-- PTP_PDELAY_RESP (R313) -/
  | ptpPdelayResp (h : PtpHead) (twoStep : Bool) (receipt : BitVec 80)
  /-- PTP_PDELAY_RESP_FOLLOW_UP (R313) -/
  | ptpPdelayRespFollowUp (h : PtpHead) (left : BitVec 80)
  /-- PTP_ANNOUNCE (R313) -/
  | ptpAnnounce (h : PtpHead) (a : PtpAnnounce)
  /-- PTP_OTHER_MESSAGE (R313) -/
  | ptpOtherMessage (h : PtpHead)
  /-- PTP_MESSAGE_SEND (R313) -/
  | ptpMessageSend (k : PtpSend)
  /-- PTP_SOURCE_TIMEOUT (R315) -/
  | ptpSourceTimeout
  /-- SEAM_TIME_SEND (R317) -/
  | seamTimeSend
  /-- SEAM_TIME_RECEIVE (R317) -/
  | seamTimeReceive (h : SeamHead) (srv : BitVec 10) (coarse : Nat) (time : BitVec 80) (gen : Byte) (qual : BitVec 4)
      (corr : BitVec 32)
  /-- SEAM_TIME_TIMEOUT (R317) -/
  | seamTimeTimeout
  /-- REBASE (R320) -/
  | rebase (a0 : Word) (a1 : Word)
  /-- SEW_GMAP_WRITE (R322) -/
  | sewGmapWrite (word : Fin 34) (value : BitVec 32)
  /-- SEW_ARM (R325) -/
  | sewArm (g : SgId)
  /-- SEW_CANCEL (R328) -/
  | sewCancel (g : SgId)
  /-- SEW_VETO (R329) -/
  | sewVeto (g : SgId)
  /-- SEW_DECISION (R329) -/
  | sewDecision (g : SgId)
  /-- SEW_TARGET_CYCLE (R326) -/
  | sewTargetCycle (g : SgId)
  /-- SEAM_SEW_RECEIVE (R329) -/
  | seamSewReceive (h : SeamHead) (tag : Byte) (veto : Bool) (origin : BitVec 36)
  /-- LANE_SLIP (R344) -/
  | laneSlip (n : LaneId)
  /-- LANE_SLIP_SEARCH_STEP (R344) -/
  | laneSlipSearchStep (n : LaneId)
  /-- LANE_BLOCK_LOCK_GAIN (R343) -/
  | laneBlockLockGain (n : LaneId)
  /-- LANE_BLOCK_LOCK_LOSS (R343) -/
  | laneBlockLockLoss (n : LaneId)
  /-- LANE_FOM_WINDOW (R341) -/
  | laneFomWindow (n : LaneId) (fom : Byte)
  /-- LANE_DENSITY_WINDOW (R342) -/
  | laneDensityWindow (n : LaneId) (dens : Byte)
  /-- ETH_RATE_FALLBACK (R339) -/
  | ethRateFallback (port : Fin 2)
  /-- ETH_LINK_DOWN_RESTART (R339) -/
  | ethLinkDownRestart (port : Fin 2)
  /-- SEAM_PORT_ENABLE (R350) -/
  | seamPortEnable (p : PortId)
  /-- SEAM_LINK_CONTROL_BLOCK (R348) -/
  | seamLinkControlBlock (p : PortId) (laneB : Bool) (inPhase : Bool) (domain : BitVec 16) (pos : Fin 16) (dev : BitVec 10)
      (tied : List (Fin 16 × GrpId) := [])
  /-- SEAM_PORT_TRAINED (R350) -/
  | seamPortTrained (p : PortId) (foms : List Byte) (trip : Nat)
  /-- SEAM_MULTIBLOCK_SEND (R349) -/
  | seamMultiblockSend (p : PortId)
  /-- SEAM_TIE_RECEIVE (R353) -/
  | seamTieReceive (h : SeamHead) (g : GrpId) (beat : Fin 64) (fail : BitVec 16) (match_ : BitVec 16) (pc : BitVec 16)
      (per : BitVec 40)
  /-- SEAM_TIE_EVT_RECEIVE (R352) -/
  | seamTieEvtReceive (h : SeamHead) (g : GrpId) (beat : Fin 64) (cycle : Fin 16) (k : TieKind)
  /-- SEAM_TRIG_RECEIVE (R264) -/
  | seamTrigReceive (h : SeamHead) (ch : Fin 16) (origin : BitVec 80) (gen : Byte)
  /-- TIE_FLAGS_APPLY (R353) -/
  | tieFlagsApply
  /-- TRAIN_DRAM (R369) -/
  | trainDram (a0 : Word)
  /-- DRAM_TRAINING_COMPLETE (R367) -/
  | dramTrainingComplete (p : DramId) (l : List Sweep)
  /-- DRAM_RETRAIN_SLICE (R370) -/
  | dramRetrainSlice (p : DramId) (fin : Option (List Sweep))
  /-- DRC_FSP_REQ (R372) -/
  | drcFspReq (p : DramId) (target : BitVec 1) (force : Bool)
  /-- FSP_CHANGE_START (R372) -/
  | fspChangeStart (p : DramId)
  /-- FSP_CHANGE_COMPLETE (R372) -/
  | fspChangeComplete (p : DramId)
  /-- DRAM_REQUEST_ACCEPT (R375) -/
  | dramRequestAccept (src : DramSrc) (line : BitVec 30) (write : Bool) (off : Byte) (data : List Byte) (ep : Bool)
  /-- DRAM_REQUEST_ISSUE (R376) -/
  | dramRequestIssue (p : DramId) (dup : Option (Fin 16) := none)
  /-- DRAM_READ_COMPLETE (R29) -/
  | dramReadComplete (p : DramId) (dup : Option (Fin 16) := none) (moved : List (Fin 36 × Bool) := [])
  /-- REFRESH_DUE (R379) -/
  | refreshDue (p : DramId) (rank : Fin 2)
  /-- URGENT_REFRESH_SEQUENCE (R379) -/
  | urgentRefreshSequence (p : DramId) (rank : Fin 2)
  /-- DRAM_TEMP_READ (R377) -/
  | dramTempRead (p : DramId) (hot : List (Fin 72))
  /-- ZQ_CALIBRATION (R363) -/
  | zqCalibration (p : DramId) (rank : Fin 2)
  /-- DQS_OSC_TRACKING (R371) -/
  | dqsOscTracking (p : DramId) (rank : Fin 2) (corr : List Int)
  /-- BACKGROUND_PROMOTE (R371) -/
  | backgroundPromote (p : DramId) (k : DramBg)
  /-- DRAM_SCRUB_READ (R381) -/
  | dramScrubRead (p : DramId)
  /-- DRAM_ZERO_LINE (R382) -/
  | dramZeroLine (p : DramId) (dup : Option (Fin 16) := none)
  /-- PWR_REQ_GO (R393) -/
  | pwrReqGo (off : Bool) (smb : Bool)
  /-- PWR_PREPARE_TIMEOUT (R394) -/
  | pwrPrepareTimeout (k : DomId)
  /-- PWR_PREPARE_DONE (R395) -/
  | pwrPrepareDone
  /-- PWR_TRANSITION_END (R389) -/
  | pwrTransitionEnd (k : DomId)
  /-- PWR_REINIT_COMPLETE (R390) -/
  | pwrReinitComplete (k : DomId)
  /-- PWR_WAKE (R398) -/
  | pwrWake (mask : BitVec 32)
  /-- WAKE_ADMIT (R400) -/
  | wakeAdmit
  /-- PERST_N_RISE (R398) -/
  | perstNRise
  /-- AON_DOZE_ENTER (R401) -/
  | aonDozeEnter
  /-- SMBUS_ADDRESS_MATCH (R402) -/
  | smbusAddressMatch (addr : BitVec 7)
  /-- POWER_ON_RESET (R504) -/
  | powerOnReset
  /-- SYS_RESET_N (R407) -/
  | sysResetN (low : Nat)
  /-- HOST_RST_UNLOCK (R408) -/
  | hostRstUnlock (key : Byte)
  /-- HOST_RST_GO (R408) -/
  | hostRstGo (key : Byte) (smb : Bool)
  /-- RST_WINDOW_EXPIRE (R408) -/
  | rstWindowExpire
  /-- HOST_LINK_RESET (R409) -/
  | hostLinkReset
  /-- PCIE_LINK_UP (R413) -/
  | pcieLinkUp
  /-- SENSOR_READ (R426) -/
  | sensorRead (k : Fin 24) (reading : BitVec 16)
  /-- RETRIM_COMPUTE_DONE (R427) -/
  | retrimComputeDone (k : PdId)
  /-- CAL_VALUES_APPLY (R428) -/
  | calValuesApply (q : QuadId)
  /-- CAL_PROFILE_SELECT (R431) -/
  | calProfileSelect (sel : BitVec 5) (en : Bool)
  /-- CALIBRATE (R432) -/
  | calibrate (a0 : Word) (a1 : Word) (frames : List CalFrame)
  /-- WIPE (R451) -/
  | wipe (a0 : Word)
  /-- SELFTEST (R250) -/
  | selftest (a0 : Word) (a1 : Word)
  /-- KEY_IMPORT (R443) -/
  | keyImport (a0 : Word) (blob : List Byte)
  /-- LIFECYCLE (R450) -/
  | lifecycle (a0 : Word) (sig : List Byte)
  /-- NVM_WRITE (R486) -/
  | nvmWrite (a0 : Word) (record : List Byte)
  /-- COMMAND_COMPLETE (R485) -/
  | commandComplete (r : CmdEnd)
  /-- STANDBY_KEY_READY (R440) -/
  | standbyKeyReady
  /-- KEY_INTEGRITY_CHECK (R441) -/
  | keyIntegrityCheck (bad : List (Fin 16)) (other : Bool)
  /-- ALARM_VOLT (R453) -/
  | alarmVolt
  /-- ALARM_CLOCK (R453) -/
  | alarmClock
  /-- ALARM_MESH (R453) -/
  | alarmMesh
  /-- UNSEAL_GO (R445) -/
  | unsealGo (region : Fin 16)
  /-- UNSEAL_PASS1_COMPLETE (R445) -/
  | unsealPass1Complete
  /-- UNSEAL_PASS2_COMPLETE (R445) -/
  | unsealPass2Complete
  /-- SEALED_REGION_RELEASE (R446) -/
  | sealedRegionRelease (n : Fin 16)
  /-- SEALED_REGION_ZEROED (R446) -/
  | sealedRegionZeroed (n : Fin 16)
  /-- DEBUG_TRY (R459) -/
  | debugTry (cls : BitVec 2)
  /-- DEBUG_BLOCK_EXPIRE (R459) -/
  | debugBlockExpire
  /-- DEBUG_CLOSE (R459) -/
  | debugClose
  /-- ATTESTATION_GO (R460) -/
  | attestationGo
  /-- ATTESTATION_QUOTE_READY (R460) -/
  | attestationQuoteReady
  /-- CTR_VERIFY (R463) -/
  | ctrVerify (r : Option (List Byte))
  /-- CTR_TOUCH (R464) -/
  | ctrTouch
  /-- TD_IN_EDGE (R464) -/
  | tdInEdge (high : Nat)
  /-- CTR_COUNT_WRITE (R464) -/
  | ctrCountWrite (r : Option (BitVec 32))
  /-- TELEMETRY_SAMPLE (R471) -/
  | telemetrySample (rails : List (BitVec 16))
  /-- BAR2_READ (R475) -/
  | bar2Read (off : BitVec 32) (n : BitVec 13)
  /-- BAR2_WRITE (R475) -/
  | bar2Write (off : BitVec 32) (bytes : List Byte) (ep : Bool) (dup : Bool := false)
  /-- DMA_DESCRIPTOR_START (R481) -/
  | dmaDescriptorStart (c : DmaId) (desc : Option (List Byte))
  /-- DMA_DESCRIPTOR_COMPLETE (R480) -/
  | dmaDescriptorComplete (c : DmaId) (r : DmaData)
  /-- DMA_RESET (R480) -/
  | dmaReset (c : DmaId)
  /-- SNAPSHOT (R483) -/
  | snapshot (off : BitVec 26) (len16 : Byte) (rcclr : Bool) (smb : Bool)
  /-- LOG_POP (R484) -/
  | logPop
  /-- SMB_REG_READ (R489) -/
  | smbRegRead (addr : BitVec 26) (eight : Bool)
  /-- SMB_REG_WRITE (R489) -/
  | smbRegWrite (addr : BitVec 26) (bytes : List Byte)
  /-- SMB_TEL_READ (R489) -/
  | smbTelRead (half : Fin 2)
  /-- SMB_LOG_READ (R489) -/
  | smbLogRead
  /-- SMB_WAKE (R489) -/
  | smbWake (mask : BitVec 32)
  /-- SMB_STATUS (R489) -/
  | smbStatus
  /-- BOUNDARY_TEST_LOAD (R492) -/
  | boundaryTestLoad (t : BoundaryTest)
  /-- BOUNDARY_TEST_EXIT (R492) -/
  | boundaryTestExit
  /-- DEBUG_REG (R493) -/
  | debugReg (write : Bool) (addr : BitVec 26) (data : Word)
  /-- JTAG_TRST (R491) -/
  | jtagTrst
  /-- LANE_CLOCK_LOCK_LOSS (R343) -/
  | laneClockLockLoss (n : LaneId)
  /-- LANE_CLOCK_LOCK_GAIN (R343) -/
  | laneClockLockGain (n : LaneId)
  /-- INVALID_SYNC_HEADER (R343) -/
  | invalidSyncHeader (n : LaneId)
  /-- PRBS_BIT_ERROR (R346) -/
  | prbsBitError (n : LaneId)
  /-- SEAM_BLOCK_CRC_FAIL (R349) -/
  | seamBlockCrcFail (p : PortId)
  /-- STORED_WORD_ERROR (R23) -/
  | storedWordError (m : CodedMem) (word : BitVec 34) (errs : List (Fin 36 × BitVec 4))
  /-- CONTROL_STORE_ERROR (R232) -/
  | controlStoreError (e : EngId) (store : Nat) (addr : Nat) (bits : List Nat)
  /-- TRNG_HEALTH_FAILURE (R441) -/
  | trngHealthFailure
  /-- ONCHIP_ZEROING_COMPLETE (R455) -/
  | onchipZeroingComplete
  /-- MSI_X_UNMASK (R477) -/
  | msiXUnmask (op : MsixOp)
  deriving DecidableEq, Repr

end Sys2Proof
end

