-- ==== Sys2Proof/Decode.lean ====
section
/-!
DEFINITION. The opcode table gives no row any bits: no word spells a command of this block.
-/

namespace Sys2Proof

/-- The command that a word of the opcode table's bits spells: the table gives none. -/
def decodeTableWord (_nbits _w : Nat) : Option Instr := none

end Sys2Proof
end

