-- ==== Sys2Proof/Config.lean ====
section
/-!
DEFINITION. What the spec leaves open or to the implementation, as constants without a body: no proof can see a value
of one, so a claim holds whatever they are. Each is named in the assumption log.
-/

namespace Sys2Proof.Config

/-- A free bit; applied to the counter `Dev.free`, which every use advances (log 2). -/
opaque freeBit : Nat → Bool

/-- A free number; applied to the counter `Dev.free`, which every use advances (log 2). -/
opaque freeNat : Nat → Nat

/-- What the (144,128) decoder makes of a stored word with errors in three or more symbols (R23): the wrong word it
delivers, with the one symbol it changed to reach it or `none` where the errors formed another valid code word, and
`none` where it detects the errors. A fixed function of the stored word and of the pattern of errors (log 3). -/
opaque eccMany : (word : Nat) → (pattern : List (Nat × Nat)) → Option (Nat × Option Nat)

/-- AES-256-XTS of one 16-byte block of a DRAM line as IEEE 1619 defines it, under the two keys of the DRAM key, with the
line address as tweak (R28, log 76). -/
opaque xtsEncrypt : (key line block plain : Nat) → Nat

/-- Its inverse (R29, log 76). -/
opaque xtsDecrypt : (key line block cipher : Nat) → Nat

/-- Ticks that a timing path's offset, gain and linearity corrections add at a fine value, where they are not a whole
number of ticks of offset alone (R72, R423; log 78). -/
opaque trim : (offset gain : Int) → (lin : List Int) → (fine : Nat) → Int

/-- A follower's phase loop at a qualifying edge with a phase error (in ticks): its new tracked period in 1/256 tick and how
far the tracked edge moves (R98 to R101; the loop's law is not stated, log 79). -/
opaque ftTrack : (bw period : Nat) → (err : Rat) → Nat × Rat

/-- What the control-store decoder makes of three or more wrong covered bits of a word, given in ascending order (R243):
the bit it reports as corrected, `some none` where four or more form another valid word, `none` where it is uncorrectable
(log 4). -/
opaque secdedMany : (store addr : Nat) → (bits : List Nat) → Option (Option Nat)

/-- The function bits of the microword at an address (R232, R234; the ROM is not published, log 4). -/
opaque rom : (addr : Nat) → Nat

/-- Whether a pattern of wrong bits that is neither odd nor two of one word changes the CRC of R250 after correction: it
depends on the order in which the bits are taken (log 4). -/
opaque romCrcBad : (errs : List (Nat × Nat × Nat)) → Bool

/-- Frequency part of the rate correction that the time servo sets from a measured offset, in 10^-12 (R308, R315). -/
opaque servoRate : (free : Nat) → (offset : Int) → Int

/-- SHA-256 of a byte string (FIPS 180-4, named by R443 to R460). -/
opaque sha256 : List Nat → Nat

/-- ECDSA P-256 verification of `sig` over `msg` under public key `pub` (FIPS 186-5, R443, R445, R449, R459, R463). -/
opaque ecdsaVerify : (pub : Nat) → (msg : List Nat) → (sig : Nat) → Bool

/-- ECDSA P-256 signature of `msg` under the device identity key (R460). -/
opaque ecdsaSign : (msg : List Nat) → (free : Nat) → Nat

/-- AES-256-GCM opening of a text with its tag under a 256-bit key: the plain bytes, or `none` where the tag fails
(R443, R445). -/
opaque gcmOpen : (key : Nat) → (nonce aad text tag : List Nat) → Option (List Nat)

/-- The x coordinate shared between the device's agreement key and an ephemeral public key (R443). -/
opaque ecdhX : (eph : Nat) → Nat

/-- The agreement public key of the identity (R460). -/
opaque agreementKey : Nat

/-- Output of the true random number generator (R441). -/
opaque trng : (free : Nat) → Nat

/-- The public key of the device identity (R460). -/
opaque identityKey : Nat

/-- The identity certificate in SEC_ID_CERT (R460). -/
opaque identityCert : Nat

/-- Sine and cosine of the NCO with 18-bit amplitude for a 48-bit phase other than 0 (R286). -/
opaque ncoSinCos : (phase : Nat) → Int × Int

/-- The gain stage's 24-bit result for a 48-bit CIC output at decimation R (R288; its alignment and rounding are not
stated). -/
opaque gainStage : (cic : Int) → (r : Nat) → Int

/-- One half-band filter output from its window of input samples (R289; coefficients not published). -/
opaque halfBand : List Int → Int

/-- One resampler output from its 16 input samples and the fractional position (R289; coefficients not published). -/
opaque resample : List Int → (frac : Nat) → Int

/-- One converter sample of an interpolated AWG: from HB, STEP, the last playback samples (newest first) and the share of a
playback interval since the newest (R289, R296; coefficients not published, log 83). -/
opaque upsample : (hb step : Nat) → List Int → (frac : Rat) → Int

/-- CRC-12 of the 256 octets of a lane's multiblock, as JESD204C defines it (R278, log 83). -/
opaque crc12 : List Nat → Nat

/-- Circular mean and rms spread of the phases an FTC step took, in 1/65,536 of a row period (R436; its rounding is not
stated). -/
opaque circularMean : List Nat → Nat
opaque rmsSpread : List Nat → Nat

/-- The straps MADDR[2:0] of the board (R402, R413). -/
opaque maddr : Nat

end Sys2Proof.Config
end

