-- ==== Sys2Proof/Machine/Fields.lean ====
section
/-!
DEFINITION. Every register field the spec gives the SU5128: one constructor of `Field` per field row of the spec's
register tables, with its block, offset, bits, access type and power-on reset value (R6 to R14, R496 to R498).
-/

namespace Sys2Proof.Machine

/-- A register block of R496; an instance of a strided block is numbered by `RegKey.u`. -/
inductive Blk where
  /-- HOST_, CTR_ and TEL_ -/
  | host
  /-- DMA_ of channel c -/
  | dma
  /-- CMD_ -/
  | cmd
  /-- PWR_ -/
  | pwr
  /-- TIME_ and PTP_ -/
  | time
  /-- SEW_ of sew group g -/
  | sewg
  /-- global SEW_ -/
  | sewx
  /-- SEC_ -/
  | sec
  /-- CAL_ -/
  | cal
  /-- DRC_ of a DRAM port -/
  | drc
  /-- LNK_ of a lane -/
  | lane
  /-- LNK_SP_ of a Seam port -/
  | sp
  /-- LNK_SD_ -/
  | sd
  /-- LNK_ of a converter link (0-3 receive, 4-7 transmit) -/
  | link
  /-- DDC_ -/
  | ddc
  /-- AWG_ -/
  | awg
  /-- ACQ_ of a unit -/
  | acq
  /-- ACQ_WINSEL -/
  | acqx
  /-- ENG_ of an engine -/
  | eng
  /-- PIN_ of a channel -/
  | pin
  /-- FEB_ of a pin domain, in the PIN_ block of CH(32k) -/
  | feb
  /-- PIN_QOWN of a quad, in the PIN_ block of CH(4n) -/
  | quad
  /-- FT_ of a follower -/
  | ft
  /-- PM_STAT of a cluster, in the ENG_ block of E(16c) -/
  | pm
  deriving DecidableEq, Repr

/-- Base, stride and number of instances of a block (R496, R497). The three blocks that exist in some instances of
ENG_ and PIN_ only (`feb`, `quad`, `pm`) have the stride of those instances. -/
def Blk.geom : Blk → Nat × Nat × Nat
  | .host => (0x0, 0x1000, 1)
  | .dma => (0x1000, 0x40, 8)
  | .cmd => (0x100000, 0x1000, 1)
  | .pwr => (0x200000, 0x300, 1)
  | .time => (0x300000, 0x1000, 1)
  | .sewg => (0x301000, 0x40, 16)
  | .sewx => (0x302000, 0x100, 1)
  | .sec => (0x400000, 0xA00, 1)
  | .cal => (0x500000, 0x1800, 1)
  | .drc => (0x600000, 0x80000, 2)
  | .lane => (0x800000, 0x200, 34)
  | .sp => (0x808000, 0x100, 4)
  | .sd => (0x809000, 0x8, 1)
  | .link => (0xA00000, 0x100, 8)
  | .ddc => (0xA10000, 0x1000, 8)
  | .awg => (0xA20000, 0x1000, 8)
  | .acq => (0xC00000, 0x1000, 16)
  | .acqx => (0xC10000, 0x8, 1)
  | .eng => (0x1000000, 0x10000, 128)
  | .pin => (0x2000000, 0x4000, 512)
  | .feb => (0x2000000, 0x80000, 16)
  | .quad => (0x2000000, 0x10000, 128)
  | .ft => (0x2910000, 0x100, 8)
  | .pm => (0x1000000, 0x100000, 8)

def Blk.all : List Blk :=
  [.host, .dma, .cmd, .pwr, .time, .sewg, .sewx, .sec, .cal, .drc, .lane, .sp, .sd, .link, .ddc, .awg, .acq, .acqx, .eng, .pin, .feb, .quad, .ft, .pm]

/-- The access types of R9 to R13. -/
inductive Access where
  /-- read and write -/
  | rw
  /-- read only; a write is ignored -/
  | ro
  /-- write one to clear -/
  | w1c
  /-- a read clears -/
  | rc
  /-- write only; reads 0 -/
  | wo
  /-- basted: a write goes to the basted copy, a sew applies it -/
  | rwb
  /-- read and write until locked by the life cycle -/
  | rwl
  deriving DecidableEq, Repr

/-- Where a field lies: block, byte offset, offset step and number of indexed instances, lowest bit, width, access
and reset value. -/
structure FieldInfo where
  blk    : Blk
  off    : Nat
  step   : Nat
  count  : Nat
  lsb    : Nat
  width  : Nat
  acc    : Access
  reset  : Nat
  deriving DecidableEq, Repr

/-- Every register field, named REGISTER_FIELD as the spec names them. -/
inductive Field where
  | HOST_READY_AON
  | HOST_READY_TIMING
  | HOST_READY_THIMBLE
  | HOST_READY_TIMESET
  | HOST_READY_HOST
  | HOST_READY_NET
  | HOST_READY_SEAM
  | HOST_READY_CNV
  | HOST_READY_DSP
  | HOST_READY_DRA
  | HOST_READY_DRB
  | HOST_READY_DONE
  | HOST_READY_K
  | HOST_READY_PD
  | HOST_BOOTERR_THIMBLE
  | HOST_BOOTERR_REFCLK
  | HOST_BOOTERR_IDERR
  | HOST_BOOTERR_CALCRC
  | HOST_RST_CAUSE_POR
  | HOST_RST_CAUSE_PIN
  | HOST_RST_CAUSE_REGPCIE
  | HOST_RST_CAUSE_REGSMB
  | HOST_RST_CAUSE_COUNT
  | HOST_RST_CAUSE_SEQERR
  | HOST_RST_UNLOCK_KEY
  | HOST_RST_GO_KEY
  | HOST_MODE_MODE
  | HOST_MODE_PENDING
  | HOST_MODE_REJ
  | HOST_MODE_REJVAL
  | HOST_MODE_LOCKSRC
  | CTR_CTRL_VERIFY
  | CTR_CTRL_TDSRC
  | CTR_CTRL_POLICY
  | CTR_STAT_STATE
  | CTR_STAT_WARN
  | CTR_STAT_LIFE
  | CTR_STAT_CNTERR
  | CTR_STAT_WREJ
  | CTR_STAT_BOUNCE
  | CTR_TD_TOUCH
  | CTR_TDCNT_COUNT
  | CTR_PEND_PEND
  | CTR_RATED_RATED
  | CTR_QMASK_QUADS
  | CTR_SIGKEY_KEY
  | HOST_BAR2_BASE_BASE
  | HOST_STAT_BADACC
  | HOST_STAT_BAR2RANGE
  | HOST_IRQ_STAT_PEND
  | HOST_SNAP_CTRL_OFFSET
  | HOST_SNAP_CTRL_LEN16
  | HOST_SNAP_CTRL_RCCLR
  | HOST_SNAP_CTRL_GO
  | HOST_SNAP_CTRL_REFUSED
  | HOST_LOG_STAT_COUNT
  | HOST_LOG_STAT_OVF
  | HOST_LOG_POP_POP
  | HOST_LOG_HEAD_ENTRY
  | TEL_RBASE_LINE
  | TEL_RSIZE_LINES
  | TEL_WPTR_LINE
  | TEL_SKIP_COUNT
  | TEL_LAST_SAMPLE
  | DMA_CTRL_EN
  | DMA_CTRL_RESET
  | DMA_RBASE_ADDR
  | DMA_RSIZE_LOG
  | DMA_TAIL_INDEX
  | DMA_HEAD_INDEX
  | DMA_STAT_RUN
  | DMA_STAT_HALTED
  | DMA_STAT_DONE
  | DMA_STAT_WREJ
  | DMA_STAT_CODE
  | CMD_OP_OP
  | CMD_ARG_ARG
  | CMD_DOORBELL_GO
  | CMD_STAT_BUSY
  | CMD_STAT_OP
  | CMD_STAT_CODE
  | CMD_IGNCNT_COUNT
  | CMD_RES_RES
  | PWR_REQ_MASK_MASK
  | PWR_REQ_CTRL_TARGET
  | PWR_REQ_CTRL_GO
  | PWR_REQ_STAT_PHASE
  | PWR_REQ_STAT_WREJ
  | PWR_REQ_STAT_FIRST
  | PWR_REQ_STAT_REASON
  | PWR_REQ_REFUSED_MASK
  | PWR_WAKE_MASK
  | PWR_QUEUE_MASK
  | PWR_STATE_LO_STATE
  | PWR_STATE_HI_STATE
  | PWR_INRUSH_BUDGET
  | PWR_INRUSH_INUSE
  | PWR_PREP_TMO_US
  | PWR_AON_DOZE
  | PWR_AON_WOKE
  | PWR_ACCREJ_COUNT
  | PWR_DOM_TS_RECORD
  | TIME_NOW_NS_NS
  | TIME_NOW_AUX_FRAC
  | TIME_NOW_AUX_GEN
  | TIME_NOW_AUX_QUAL
  | TIME_CTRL_SRC
  | TIME_CTRL_PORT
  | TIME_CTRL_MASTER
  | TIME_CTRL_P2P
  | TIME_CTRL_TWOSTEP
  | TIME_CTRL_L2
  | TIME_CTRL_SERVE
  | TIME_CTRL_DOMAIN
  | TIME_STAT_QUAL
  | TIME_STAT_SLEWING
  | TIME_STAT_MSEEN
  | TIME_STAT_TSYNC_ERR
  | TIME_STAT_SERVECONF
  | TIME_STAT_REFLOST
  | TIME_DTHR_NS
  | TIME_OFFS_OFFS
  | TIME_RATE_RATE
  | TIME_RB_DNS_DNS
  | TIME_RB_DFR_DFRAC
  | TIME_RB_DFR_FROMGEN
  | TIME_RB_TS_RECORD
  | PTP_INTV_SYNC
  | PTP_INTV_DREQ
  | PTP_INTV_ANN
  | PTP_INTV_ATO
  | PTP_MPD_MPD
  | PTP_ASYM_ASYM
  | PTP_GMID_ID
  | TIME_DEVNUM_NUM
  | TIME_DEVNUM_WREJ
  | SEW_TGT_NS
  | SEW_CFG_GEN
  | SEW_CFG_SEAMSYNC
  | SEW_CFG_TAG
  | SEW_CFG_PART
  | SEW_CMD_ARM
  | SEW_CMD_CANCEL
  | SEW_CMD_VETO
  | SEW_STATUS_STATE
  | SEW_STATUS_BUSYREJ
  | SEW_STATUS_SEAMLOSS
  | SEW_STATUS_WREJ
  | SEW_STATUS_PENDCNT
  | SEW_LAST_RECORD
  | SEW_DONE_RECORD
  | SEW_GMAP_ENG_MAP
  | SEW_GMAP_QUAD_MAP
  | SEW_GMAP_AWG_MAP
  | SEW_GMAP_DEV_GROUP
  | SEW_MODE_MODE
  | SEW_MODE_PENDING
  | SEW_GSTAT_MAPREJ
  | SEC_LC_STATE
  | SEC_STAT_DRAMKEY
  | SEC_STAT_STANDBY
  | SEC_STAT_KSOK
  | SEC_STAT_TRNGOK
  | SEC_STAT_DBG
  | SEC_STAT_WIPING
  | SEC_ALRESP_LEVEL
  | SEC_ALPEND_PEND
  | SEC_ALCNT_COUNT
  | SEC_ALLAST_RECORD
  | SEC_TALARM_HI
  | SEC_TALARM_LO
  | SEC_KSLOT_VALID
  | SEC_IMP_NONCE_NONCE
  | SEC_UNS_SRC_ADDR
  | SEC_UNS_DST_LINE
  | SEC_UNS_CTRL_GO
  | SEC_UNS_CTRL_REGION
  | SEC_UNS_STAT_STATE
  | SEC_UNS_STAT_RESULT
  | SEC_REG_BASE_LINE
  | SEC_REG_CTRL_LINES
  | SEC_REG_CTRL_ACTIVE
  | SEC_REG_CTRL_REL
  | SEC_GUARDCNT_COUNT
  | SEC_ATT_NONCE_NONCE
  | SEC_ATT_CTRL_GO
  | SEC_ATT_STAT_BUSY
  | SEC_ATT_STAT_READY
  | SEC_ATT_QUOTE_QUOTE
  | SEC_ID_PUB_KEY
  | SEC_DBGKEY_KEY
  | SEC_DBG_CHAL_CHAL
  | SEC_DBG_RESP_SIG
  | SEC_DBG_CTRL_TRY
  | SEC_DBG_CTRL_CLASS
  | SEC_DBG_CTRL_CLOSE
  | SEC_DBG_STAT_FAILCNT
  | SEC_DBG_STAT_BLOCKED
  | SEC_ID_CERT_CERT
  | CAL_CTRL_RTEN
  | CAL_CTRL_THR
  | CAL_PROFILE_SEL
  | CAL_PROFILE_EN
  | CAL_STAT_WREJ
  | CAL_DUE_PD
  | CAL_DRIFT_PD
  | CAL_BAD_PD
  | CAL_RTCNT_COUNT
  | CAL_NVMWR_COUNT
  | CAL_RES_PASS
  | CAL_RES_RUN
  | CAL_FTC_RES_FCENTRE
  | CAL_FTC_RES_SPREAD
  | CAL_FTC_RES_PASS
  | CAL_TEMP_TNOW
  | CAL_TEMP_TCALC
  | CAL_REFTAB_TICKS
  | DRC_CFG_POP
  | DRC_CFG_RANKS
  | DRC_CFG_DENS
  | DRC_CFG_INTLV
  | DRC_CFG_FSPBOTH
  | DRC_STAT_STATE
  | DRC_STAT_FSP
  | DRC_STAT_FSPDEFER
  | DRC_STAT_HOT
  | DRC_STAT_URGENT
  | DRC_STAT_TRKLIM
  | DRC_STAT_RETRAIN
  | DRC_STAT_SUSPECT
  | DRC_STAT_WREJ
  | DRC_STAT_CFGERR
  | DRC_FSP_TARGET
  | DRC_FSP_REQ
  | DRC_FSP_FORCE
  | DRC_FSP_VALID0
  | DRC_FSP_VALID1
  | DRC_WQ_HIWM
  | DRC_WQ_LOWM
  | DRC_WQ_DEPTH
  | DRC_REF_TREFI_NS
  | DRC_REF_DEBT_NS
  | DRC_REF_CNT_URGSEQ
  | DRC_REF_CNT_URUN
  | DRC_TEMP_DEV
  | DRC_TEMP_VALID
  | DRC_SCRUB_HOURS
  | DRC_SCRUB_POS_LINE
  | DRC_SCRUB_POS_PASSES
  | DRC_ZERO_WM
  | DRC_ZERO_ACTIVE
  | DRC_ZERO_AHEAD
  | DRC_TRK_MAXOFF
  | DRC_TRK_LIMIT
  | DRC_CECNT_COUNT
  | DRC_UECNT_COUNT
  | DRC_DUPMIS_COUNT
  | DRC_SUSTHR_THR
  | DRC_CESYM_COUNT
  | DRC_TRES_RDLY
  | DRC_TRES_WDLY
  | DRC_TRES_REYE
  | DRC_TRES_WEYE
  | DRC_TRES_VREF
  | DRC_TRES_VALID
  | LNK_LCTRL_ADAPT
  | LNK_LCTRL_AUTOSLIP
  | LNK_LCTRL_SLIP
  | LNK_LCTRL_LOOP
  | LNK_LCTRL_PRBS
  | LNK_LCTRL_RXPOL
  | LNK_LCTRL_TXPOL
  | LNK_LCTRL_DTHR
  | LNK_LTXEQ_PRE
  | LNK_LTXEQ_POST
  | LNK_LTXEQ_MAIN
  | LNK_LRXEQ_CTLE
  | LNK_LRXEQ_DFE1
  | LNK_LRXEQ_DFE2
  | LNK_LRXEQ_DFE3
  | LNK_LRXEQ_DFE4
  | LNK_LRXEQ_DFE5
  | LNK_LSTAT_LOCK
  | LNK_LSTAT_BLOCK
  | LNK_LSTAT_FROZEN
  | LNK_LSTAT_WREJ
  | LNK_LSTAT_LOSS
  | LNK_LSTAT_SLIPPOS
  | LNK_LSTAT_FOM
  | LNK_LSTAT_DENS
  | LNK_LERR_COUNT
  | LNK_LLOSS_COUNT
  | LNK_LPRBS_COUNT
  | LNK_LFRZ_COUNT
  | LNK_SP_CTRL_EN
  | LNK_SP_STAT_STATE
  | LNK_SP_STAT_DOMERR
  | LNK_SP_STAT_NPOS
  | LNK_SP_STAT_NDEV
  | LNK_SP_LAT_LAT
  | LNK_SP_ERR_CRCERR
  | LNK_SP_ERR_DROP
  | LNK_SP_HALF_COUNT
  | LNK_SD_CFG_DOMAIN
  | LNK_SD_CFG_POS
  | LNK_SD_STAT_HEARD
  | LNK_SD_STAT_WREJ
  | LNK_CFG_EN
  | LNK_CFG_LCODE
  | LNK_CFG_LBASE
  | LNK_CFG_MM1
  | LNK_CFG_SCODE
  | LNK_CFG_NM1
  | LNK_CFG_EM1
  | LNK_CFG_SRONE
  | LNK_TCONV_TC
  | LNK_RBD_RBD
  | LNK_STAT_STATE
  | LNK_STAT_CFGERR
  | LNK_STAT_RATEERR
  | LNK_STAT_SRALIGNED
  | LNK_STAT_LANEOK
  | LNK_STAT_SRPHERR
  | LNK_STAT_WREJ
  | LNK_STAT_F
  | LNK_CRCERR_COUNT
  | LNK_INVF_COUNT
  | LNK_SRCNT_COUNT
  | LNK_LEMC_TS_RECORD
  | DDC_CTRL_EN
  | DDC_CTRL_COMPLEX
  | DDC_CTRL_PHSYNC
  | DDC_CTRL_LINK
  | DDC_CTRL_CONV
  | DDC_CTRL_CICM1
  | DDC_CTRL_HB
  | DDC_CTRL_RSEN
  | DDC_CTRL_GENG
  | DDC_CTRL_GEN
  | DDC_STEP_STEP
  | DDC_FTW_FTW
  | DDC_PHASE0_PHASE
  | DDC_STAT_RUN
  | DDC_STAT_SAT
  | DDC_STAT_INVALID
  | DDC_STAT_RETUNED
  | DDC_STAT_CFGERR
  | DDC_STAT_WREJ
  | DDC_ROUTE_ROUTE
  | DDC_SATCNT_COUNT
  | DDC_GD_GD2
  | DDC_OUTP_TS
  | DDC_RT_TS_RECORD
  | AWG_CTRL_START
  | AWG_CTRL_STOP
  | AWG_CTRL_PRIME
  | AWG_CTRL_FLUSH
  | AWG_CTRL_JUMP
  | AWG_CTRL_JMODE
  | AWG_CTRL_COMPLEX
  | AWG_CTRL_GENG
  | AWG_CTRL_GEN
  | AWG_CTRL_ENTRY
  | AWG_RATE_HB
  | AWG_RATE_RSEN
  | AWG_STEP_STEP
  | AWG_OUT_LINK
  | AWG_OUT_CONV
  | AWG_TP_TP
  | AWG_STAT_STATE
  | AWG_STAT_UNDERRUN
  | AWG_STAT_DATAERR
  | AWG_STAT_JUMP_LATE
  | AWG_STAT_MARK
  | AWG_STAT_CFGERR
  | AWG_STAT_WREJ
  | AWG_STAT_INPANIC
  | AWG_STAT_HCOVF
  | AWG_STAT_JREPL
  | AWG_STAT_STOPPED
  | AWG_STAT_CUR
  | AWG_ROUTE_ROUTE
  | AWG_URUN_COUNT
  | AWG_SWREJ_SEQ
  | AWG_SWREJ_GUARD
  | AWG_GD_GD
  | AWG_START_TS_RECORD
  | AWG_URUN_TS_RECORD
  | AWG_SEWSTART_ARM
  | ACQ_CTRL_ARM
  | ACQ_CTRL_DISARM
  | ACQ_CTRL_FORCE
  | ACQ_CTRL_RELEASE
  | ACQ_CTRL_CONT
  | ACQ_CTRL_EXT
  | ACQ_CTRL_RING
  | ACQ_CTRL_COUNT
  | ACQ_STAT_STATE
  | ACQ_STAT_CFGERR
  | ACQ_STAT_WREJ
  | ACQ_STAT_RINGFULL
  | ACQ_STAT_INPANIC
  | ACQ_STAT_HELD
  | ACQ_STAT_RECCNT
  | ACQ_SRC_TYPE
  | ACQ_SRC_DDC
  | ACQ_SRC_SWIDTH
  | ACQ_SRC_ENGINE
  | ACQ_SRC_GROUP
  | ACQ_SRC_CHAN
  | ACQ_GRANT_ENGINE
  | ACQ_GRANT_EN
  | ACQ_PRE_SAMPLES
  | ACQ_POST_SAMPLES
  | ACQ_HOLD_MODE
  | ACQ_HOLD_VALUE
  | ACQ_TOUT_ENGINE
  | ACQ_TOUT_TOENG
  | ACQ_TOUT_STCH
  | ACQ_TOUT_TOSEAM
  | ACQ_RBASE_LINE
  | ACQ_RSIZE_LINES
  | ACQ_WPTR_LINE
  | ACQ_RPTR_LINE
  | ACQ_MISSED_COUNT
  | ACQ_FMISS_RECORD
  | ACQ_LAST_RECORD
  | ACQ_COND_CTRL_EN
  | ACQ_COND_CTRL_TYPE
  | ACQ_COND_CTRL_ARMBY
  | ACQ_COND_CTRL_ARMBY_EN
  | ACQ_COND_CTRL_P0
  | ACQ_COND_P1
  | ACQ_COND_P2
  | ACQ_WINSEL_UNIT
  | ENG_QMASK_QUADS
  | ENG_TIE_GROUP
  | ENG_TIE_TIED
  | ENG_TIE_SCOPE
  | ENG_TIE_LATENCY
  | ENG_STR_BASE_LINE
  | ENG_STR_LEN_LEN
  | ENG_STR_CTRL_FORM
  | ENG_STR_CTRL_MODE
  | ENG_STR_CTRL_QUADS
  | ENG_STR_CTRL_LOAD
  | ENG_STR_CTRL_HOSTFILL
  | ENG_STR_CTRL_PREFILL
  | ENG_STR_CTRL_PANIC
  | ENG_BOB_STAT_READY
  | ENG_BOB_STAT_LOADING
  | ENG_BOB_STAT_WREJ
  | ENG_BOB_STAT_LOAD_ERR
  | ENG_BOB_STAT_AHEAD
  | ENG_BOB_STAT_INPANIC
  | ENG_BOB_MISS_COUNT
  | ENG_BOB_STALL_COUNT
  | ENG_BOB_LSTART_START
  | ENG_BOB_LEND_END
  | ENG_BOB_LREM_REM
  | ENG_BOB_LREM_ACTIVE
  | ENG_BOB_LREM_HELD
  | ENG_STR_PPOS_REP
  | ENG_STR_PPOS_ROW
  | ENG_URUN_VCNT_VCNT
  | ENG_URUN_VP_VP
  | ENG_URUN_LINE_MISS
  | ENG_URUN_LINE_PANIC
  | ENG_URUN_LINE_LINE
  | ENG_URUN_CNT_COUNT
  | ENG_HEM0_HEM
  | ENG_HEM1_HEM
  | ENG_HEM2_HEM
  | ENG_HEM3_HEM
  | ENG_CMP_MASK_MASK
  | ENG_CMP_DMASK_DMASK
  | ENG_RES_STAT_STATE
  | ENG_RES_STAT_RUNNING
  | ENG_RES_STAT_LFAIL
  | ENG_RES_STAT_LOGINC
  | ENG_RES_STAT_DRIFT
  | ENG_RES_STAT_PROGFAIL
  | ENG_RES_STAT_REASON
  | ENG_RES_BCNT_COUNT
  | ENG_RES_VCNT_VCNT
  | ENG_RES_FFV_VCNT
  | ENG_RES_FFV_VALID
  | ENG_RES_FFV_TSET
  | ENG_RES_FFTAG_TAG
  | ENG_RES_FFPINS_PINS
  | ENG_RES_PF_FAILED
  | ENG_RES_FCNT_COUNT
  | ENG_FLOG_CTRL_EN
  | ENG_FLOG_CTRL_CAPLOG
  | ENG_FLOG_CTRL_SPILL
  | ENG_FLOG_BASE_LINE
  | ENG_FLOG_SIZE_LINES
  | ENG_FLOG_WPTR_LINE
  | ENG_FLOG_RPTR_LINE
  | ENG_FLOG_STAT_OCC
  | ENG_FLOG_STAT_RINGFULL
  | ENG_FLOG_STAT_WREJ
  | ENG_FLOG_STAT_CFGERR
  | ENG_FLOG_LOST_COUNT
  | ENG_FLOG_LIMIT_LIMIT
  | ENG_FLOG_CNT_COUNT
  | ENG_CTRL_START
  | ENG_CTRL_HALT
  | ENG_CTRL_RESET
  | ENG_CTRL_KEY
  | ENG_STAT_STATE
  | ENG_STAT_WREJ
  | ENG_STAT_ILLSEEN
  | ENG_ENTRY_ADDR
  | ENG_ENTRY_BANK
  | ENG_ENTRY_LEAD
  | ENG_SREJ_COUNT
  | ENG_SEWSTART_ARM
  | ENG_EV_EN_EN
  | ENG_EV_PEND_PEND
  | ENG_EV_SET_HOST
  | ENG_EV_VEC_ADDR
  | ENG_EV_VEC_VALID
  | ENG_APG_CTRL_TROWS_M1
  | ENG_APG_XMAX_XMAX
  | ENG_APG_YMAX_YMAX
  | ENG_APG_XSCR_XSCR
  | ENG_APG_YSCR_YSCR
  | ENG_APG_XDMASK_XDMASK
  | ENG_APG_YDMASK_YDMASK
  | ENG_APG_SEL_SEL
  | ENG_TACK_STAT_COUNT
  | ENG_TACK_STAT_OVF
  | ENG_TACK_POP_POP
  | ENG_TACK_HEAD_RECORD
  | UCODE_VERSION_MINOR
  | UCODE_VERSION_MAJOR
  | UCODE_VERSION_ROM_ID
  | ENG_MC_CTRL_CAREFUL
  | ENG_MC_CTRL_CLRLIST
  | ENG_MC_STAT_PCNT
  | ENG_MC_STAT_LISTCNT
  | ENG_MC_STAT_LISTFULL
  | ENG_MC_STAT_UE_SEEN
  | ENG_MC_STAT_RECOV
  | ENG_MC_STAT_CAREFUL_NOW
  | ENG_MC_STAT_IDERR
  | ENG_MC_SCAN_PASSES
  | ENG_MC_REC_RECORD
  | ENG_MC_LIST_ADDR
  | ENG_MC_LIST_STORE
  | ENG_MC_LIST_KIND
  | ENG_MC_LIST_VALID
  | ENG_MC_LIST_BIT
  | ENG_MODE_MODE
  | ENG_CONT_CONT
  | ENG_G
  | ENG_L
  | ENG_XA
  | ENG_YA
  | ENG_DG
  | ENG_VP
  | ENG_TS
  | ENG_TAG
  | ENG_PROG
  | ENG_EPC
  | ENG_PC_ADDR
  | ENG_PC_BANK
  | ENG_FLAGS_FAIL
  | ENG_FLAGS_MATCH
  | ENG_FLAGS_ZERO
  | ENG_FLAGS_CARRY
  | ENG_FLAGS_EVENT
  | ENG_FLAGS_TFAIL
  | ENG_FLAGS_TMATCH
  | ENG_ESTAT_IE
  | ENG_ESTAT_RESUME
  | ENG_ESTAT_INHANDLER
  | ENG_ESTAT_SZERO
  | ENG_ESTAT_SCARRY
  | ENG_ESTAT_EVNUM
  | PIN_INVALID_CNT_COUNT
  | PIN_TCTRL_VIOL_ACT
  | PIN_EDGE_VIOL_COUNT
  | PIN_EDGE_MERGE_COUNT
  | PIN_STB_CTRL_MODE
  | PIN_EM_CTRL_CMP
  | PIN_EM_CTRL_EDGE
  | PIN_EM_CTRL_SPAN
  | PIN_EM_CTRL_CLR
  | PIN_EM_CTRL_KEEP
  | PIN_EM_COUNT_COUNT
  | PIN_EM_NOEDGE_COUNT
  | PIN_EM_LAST_TIME
  | PIN_EM_LAST_VALID
  | PIN_EM_MIN_TIME
  | PIN_EM_MAX_TIME
  | PIN_EM_SUM_SUM
  | PIN_CAL_STAT_CALBAD
  | PIN_CAL_STAT_DRIFT
  | PIN_CAL_STAT_PTFAIL
  | PIN_CONT_FAILS
  | PIN_CONT_RUNS
  | PIN_CONT_HIST_HIST
  | FEB_CTRL_EN
  | FEB_CTRL_FLUSH
  | FEB_STAT_QDEPTH
  | FEB_STAT_BUSY
  | FEB_STAT_PERR
  | FEB_STAT_OFFREJ
  | FEB_STAT_HDROP
  | FEB_HCMD_FRAME
  | FEB_HRD_DATA
  | FEB_HRD_VALID
  | FEB_HRD_ERR
  | PIN_QOWN_OWNER
  | PIN_QOWN_UNOWNED
  | PIN_QOWN_PENDING
  | FT_CTRL_EN
  | FT_CTRL_SRC_CH
  | FT_CTRL_SRC_CMP
  | FT_CTRL_SRC_EDGE
  | FT_CTRL_BW
  | FT_NOM_NOM_KHZ
  | FT_STAT_LOCKED
  | FT_STAT_LOST
  | FT_STAT_RANGE_ERR
  | FT_STAT_BUSYREJ
  | FT_STAT_IN_USE
  | FT_LOSS_CNT_COUNT
  | FT_PERIOD_PERIOD
  | FT_PHERR_PEAK
  | FT_LOSS_TS_RECORD
  | PM_STAT_USERS0
  | PM_STAT_USERS1
  | PM_STAT_WR0
  | PM_STAT_WR1
  | PM_STAT_WREJ
  deriving DecidableEq, Repr

/-- Fields of the block `host`, part 0. -/
def Field.of_host0 : List Field :=
  [.HOST_READY_AON, .HOST_READY_TIMING, .HOST_READY_THIMBLE, .HOST_READY_TIMESET, .HOST_READY_HOST, .HOST_READY_NET,
   .HOST_READY_SEAM, .HOST_READY_CNV, .HOST_READY_DSP, .HOST_READY_DRA, .HOST_READY_DRB, .HOST_READY_DONE,
   .HOST_READY_K, .HOST_READY_PD, .HOST_BOOTERR_THIMBLE, .HOST_BOOTERR_REFCLK, .HOST_BOOTERR_IDERR,
   .HOST_BOOTERR_CALCRC, .HOST_RST_CAUSE_POR, .HOST_RST_CAUSE_PIN, .HOST_RST_CAUSE_REGPCIE, .HOST_RST_CAUSE_REGSMB,
   .HOST_RST_CAUSE_COUNT, .HOST_RST_CAUSE_SEQERR, .HOST_RST_UNLOCK_KEY, .HOST_RST_GO_KEY, .HOST_MODE_MODE,
   .HOST_MODE_PENDING, .HOST_MODE_REJ, .HOST_MODE_REJVAL, .HOST_MODE_LOCKSRC, .CTR_CTRL_VERIFY, .CTR_CTRL_TDSRC,
   .CTR_CTRL_POLICY, .CTR_STAT_STATE, .CTR_STAT_WARN, .CTR_STAT_LIFE, .CTR_STAT_CNTERR, .CTR_STAT_WREJ,
   .CTR_STAT_BOUNCE]

/-- Fields of the block `host`, part 1. -/
def Field.of_host1 : List Field :=
  [.CTR_TD_TOUCH, .CTR_TDCNT_COUNT, .CTR_PEND_PEND, .CTR_RATED_RATED, .CTR_QMASK_QUADS, .CTR_SIGKEY_KEY,
   .HOST_BAR2_BASE_BASE, .HOST_STAT_BADACC, .HOST_STAT_BAR2RANGE, .HOST_IRQ_STAT_PEND, .HOST_SNAP_CTRL_OFFSET,
   .HOST_SNAP_CTRL_LEN16, .HOST_SNAP_CTRL_RCCLR, .HOST_SNAP_CTRL_GO, .HOST_SNAP_CTRL_REFUSED, .HOST_LOG_STAT_COUNT,
   .HOST_LOG_STAT_OVF, .HOST_LOG_POP_POP, .HOST_LOG_HEAD_ENTRY, .TEL_RBASE_LINE, .TEL_RSIZE_LINES, .TEL_WPTR_LINE,
   .TEL_SKIP_COUNT, .TEL_LAST_SAMPLE]

/-- The fields of the block `host`. -/
def Field.of_host : List Field :=
  Field.of_host0 ++ (Field.of_host1)

/-- Fields of the block `dma`. -/
def Field.of_dma : List Field :=
  [.DMA_CTRL_EN, .DMA_CTRL_RESET, .DMA_RBASE_ADDR, .DMA_RSIZE_LOG, .DMA_TAIL_INDEX, .DMA_HEAD_INDEX, .DMA_STAT_RUN,
   .DMA_STAT_HALTED, .DMA_STAT_DONE, .DMA_STAT_WREJ, .DMA_STAT_CODE]

/-- Fields of the block `cmd`. -/
def Field.of_cmd : List Field :=
  [.CMD_OP_OP, .CMD_ARG_ARG, .CMD_DOORBELL_GO, .CMD_STAT_BUSY, .CMD_STAT_OP, .CMD_STAT_CODE, .CMD_IGNCNT_COUNT,
   .CMD_RES_RES]

/-- Fields of the block `pwr`. -/
def Field.of_pwr : List Field :=
  [.PWR_REQ_MASK_MASK, .PWR_REQ_CTRL_TARGET, .PWR_REQ_CTRL_GO, .PWR_REQ_STAT_PHASE, .PWR_REQ_STAT_WREJ,
   .PWR_REQ_STAT_FIRST, .PWR_REQ_STAT_REASON, .PWR_REQ_REFUSED_MASK, .PWR_WAKE_MASK, .PWR_QUEUE_MASK,
   .PWR_STATE_LO_STATE, .PWR_STATE_HI_STATE, .PWR_INRUSH_BUDGET, .PWR_INRUSH_INUSE, .PWR_PREP_TMO_US, .PWR_AON_DOZE,
   .PWR_AON_WOKE, .PWR_ACCREJ_COUNT, .PWR_DOM_TS_RECORD]

/-- Fields of the block `time`. -/
def Field.of_time : List Field :=
  [.TIME_NOW_NS_NS, .TIME_NOW_AUX_FRAC, .TIME_NOW_AUX_GEN, .TIME_NOW_AUX_QUAL, .TIME_CTRL_SRC, .TIME_CTRL_PORT,
   .TIME_CTRL_MASTER, .TIME_CTRL_P2P, .TIME_CTRL_TWOSTEP, .TIME_CTRL_L2, .TIME_CTRL_SERVE, .TIME_CTRL_DOMAIN,
   .TIME_STAT_QUAL, .TIME_STAT_SLEWING, .TIME_STAT_MSEEN, .TIME_STAT_TSYNC_ERR, .TIME_STAT_SERVECONF,
   .TIME_STAT_REFLOST, .TIME_DTHR_NS, .TIME_OFFS_OFFS, .TIME_RATE_RATE, .TIME_RB_DNS_DNS, .TIME_RB_DFR_DFRAC,
   .TIME_RB_DFR_FROMGEN, .TIME_RB_TS_RECORD, .PTP_INTV_SYNC, .PTP_INTV_DREQ, .PTP_INTV_ANN, .PTP_INTV_ATO,
   .PTP_MPD_MPD, .PTP_ASYM_ASYM, .PTP_GMID_ID, .TIME_DEVNUM_NUM, .TIME_DEVNUM_WREJ]

/-- Fields of the block `sewg`. -/
def Field.of_sewg : List Field :=
  [.SEW_TGT_NS, .SEW_CFG_GEN, .SEW_CFG_SEAMSYNC, .SEW_CFG_TAG, .SEW_CFG_PART, .SEW_CMD_ARM, .SEW_CMD_CANCEL,
   .SEW_CMD_VETO, .SEW_STATUS_STATE, .SEW_STATUS_BUSYREJ, .SEW_STATUS_SEAMLOSS, .SEW_STATUS_WREJ, .SEW_STATUS_PENDCNT,
   .SEW_LAST_RECORD, .SEW_DONE_RECORD]

/-- Fields of the block `sewx`. -/
def Field.of_sewx : List Field :=
  [.SEW_GMAP_ENG_MAP, .SEW_GMAP_QUAD_MAP, .SEW_GMAP_AWG_MAP, .SEW_GMAP_DEV_GROUP, .SEW_MODE_MODE, .SEW_MODE_PENDING,
   .SEW_GSTAT_MAPREJ]

/-- Fields of the block `sec`, part 0. -/
def Field.of_sec0 : List Field :=
  [.SEC_LC_STATE, .SEC_STAT_DRAMKEY, .SEC_STAT_STANDBY, .SEC_STAT_KSOK, .SEC_STAT_TRNGOK, .SEC_STAT_DBG,
   .SEC_STAT_WIPING, .SEC_ALRESP_LEVEL, .SEC_ALPEND_PEND, .SEC_ALCNT_COUNT, .SEC_ALLAST_RECORD, .SEC_TALARM_HI,
   .SEC_TALARM_LO, .SEC_KSLOT_VALID, .SEC_IMP_NONCE_NONCE, .SEC_UNS_SRC_ADDR, .SEC_UNS_DST_LINE, .SEC_UNS_CTRL_GO,
   .SEC_UNS_CTRL_REGION, .SEC_UNS_STAT_STATE, .SEC_UNS_STAT_RESULT, .SEC_REG_BASE_LINE, .SEC_REG_CTRL_LINES,
   .SEC_REG_CTRL_ACTIVE, .SEC_REG_CTRL_REL, .SEC_GUARDCNT_COUNT, .SEC_ATT_NONCE_NONCE, .SEC_ATT_CTRL_GO,
   .SEC_ATT_STAT_BUSY, .SEC_ATT_STAT_READY, .SEC_ATT_QUOTE_QUOTE, .SEC_ID_PUB_KEY, .SEC_DBGKEY_KEY,
   .SEC_DBG_CHAL_CHAL, .SEC_DBG_RESP_SIG, .SEC_DBG_CTRL_TRY, .SEC_DBG_CTRL_CLASS, .SEC_DBG_CTRL_CLOSE,
   .SEC_DBG_STAT_FAILCNT, .SEC_DBG_STAT_BLOCKED]

/-- Fields of the block `sec`, part 1. -/
def Field.of_sec1 : List Field :=
  [.SEC_ID_CERT_CERT]

/-- The fields of the block `sec`. -/
def Field.of_sec : List Field :=
  Field.of_sec0 ++ (Field.of_sec1)

/-- Fields of the block `cal`. -/
def Field.of_cal : List Field :=
  [.CAL_CTRL_RTEN, .CAL_CTRL_THR, .CAL_PROFILE_SEL, .CAL_PROFILE_EN, .CAL_STAT_WREJ, .CAL_DUE_PD, .CAL_DRIFT_PD,
   .CAL_BAD_PD, .CAL_RTCNT_COUNT, .CAL_NVMWR_COUNT, .CAL_RES_PASS, .CAL_RES_RUN, .CAL_FTC_RES_FCENTRE,
   .CAL_FTC_RES_SPREAD, .CAL_FTC_RES_PASS, .CAL_TEMP_TNOW, .CAL_TEMP_TCALC, .CAL_REFTAB_TICKS]

/-- Fields of the block `drc`, part 0. -/
def Field.of_drc0 : List Field :=
  [.DRC_CFG_POP, .DRC_CFG_RANKS, .DRC_CFG_DENS, .DRC_CFG_INTLV, .DRC_CFG_FSPBOTH, .DRC_STAT_STATE, .DRC_STAT_FSP,
   .DRC_STAT_FSPDEFER, .DRC_STAT_HOT, .DRC_STAT_URGENT, .DRC_STAT_TRKLIM, .DRC_STAT_RETRAIN, .DRC_STAT_SUSPECT,
   .DRC_STAT_WREJ, .DRC_STAT_CFGERR, .DRC_FSP_TARGET, .DRC_FSP_REQ, .DRC_FSP_FORCE, .DRC_FSP_VALID0, .DRC_FSP_VALID1,
   .DRC_WQ_HIWM, .DRC_WQ_LOWM, .DRC_WQ_DEPTH, .DRC_REF_TREFI_NS, .DRC_REF_DEBT_NS, .DRC_REF_CNT_URGSEQ,
   .DRC_REF_CNT_URUN, .DRC_TEMP_DEV, .DRC_TEMP_VALID, .DRC_SCRUB_HOURS, .DRC_SCRUB_POS_LINE, .DRC_SCRUB_POS_PASSES,
   .DRC_ZERO_WM, .DRC_ZERO_ACTIVE, .DRC_ZERO_AHEAD, .DRC_TRK_MAXOFF, .DRC_TRK_LIMIT, .DRC_CECNT_COUNT,
   .DRC_UECNT_COUNT, .DRC_DUPMIS_COUNT]

/-- Fields of the block `drc`, part 1. -/
def Field.of_drc1 : List Field :=
  [.DRC_SUSTHR_THR, .DRC_CESYM_COUNT, .DRC_TRES_RDLY, .DRC_TRES_WDLY, .DRC_TRES_REYE, .DRC_TRES_WEYE, .DRC_TRES_VREF,
   .DRC_TRES_VALID]

/-- The fields of the block `drc`. -/
def Field.of_drc : List Field :=
  Field.of_drc0 ++ (Field.of_drc1)

/-- Fields of the block `lane`. -/
def Field.of_lane : List Field :=
  [.LNK_LCTRL_ADAPT, .LNK_LCTRL_AUTOSLIP, .LNK_LCTRL_SLIP, .LNK_LCTRL_LOOP, .LNK_LCTRL_PRBS, .LNK_LCTRL_RXPOL,
   .LNK_LCTRL_TXPOL, .LNK_LCTRL_DTHR, .LNK_LTXEQ_PRE, .LNK_LTXEQ_POST, .LNK_LTXEQ_MAIN, .LNK_LRXEQ_CTLE,
   .LNK_LRXEQ_DFE1, .LNK_LRXEQ_DFE2, .LNK_LRXEQ_DFE3, .LNK_LRXEQ_DFE4, .LNK_LRXEQ_DFE5, .LNK_LSTAT_LOCK,
   .LNK_LSTAT_BLOCK, .LNK_LSTAT_FROZEN, .LNK_LSTAT_WREJ, .LNK_LSTAT_LOSS, .LNK_LSTAT_SLIPPOS, .LNK_LSTAT_FOM,
   .LNK_LSTAT_DENS, .LNK_LERR_COUNT, .LNK_LLOSS_COUNT, .LNK_LPRBS_COUNT, .LNK_LFRZ_COUNT]

/-- Fields of the block `sp`. -/
def Field.of_sp : List Field :=
  [.LNK_SP_CTRL_EN, .LNK_SP_STAT_STATE, .LNK_SP_STAT_DOMERR, .LNK_SP_STAT_NPOS, .LNK_SP_STAT_NDEV, .LNK_SP_LAT_LAT,
   .LNK_SP_ERR_CRCERR, .LNK_SP_ERR_DROP, .LNK_SP_HALF_COUNT]

/-- Fields of the block `sd`. -/
def Field.of_sd : List Field :=
  [.LNK_SD_CFG_DOMAIN, .LNK_SD_CFG_POS, .LNK_SD_STAT_HEARD, .LNK_SD_STAT_WREJ]

/-- Fields of the block `link`. -/
def Field.of_link : List Field :=
  [.LNK_CFG_EN, .LNK_CFG_LCODE, .LNK_CFG_LBASE, .LNK_CFG_MM1, .LNK_CFG_SCODE, .LNK_CFG_NM1, .LNK_CFG_EM1,
   .LNK_CFG_SRONE, .LNK_TCONV_TC, .LNK_RBD_RBD, .LNK_STAT_STATE, .LNK_STAT_CFGERR, .LNK_STAT_RATEERR,
   .LNK_STAT_SRALIGNED, .LNK_STAT_LANEOK, .LNK_STAT_SRPHERR, .LNK_STAT_WREJ, .LNK_STAT_F, .LNK_CRCERR_COUNT,
   .LNK_INVF_COUNT, .LNK_SRCNT_COUNT, .LNK_LEMC_TS_RECORD]

/-- Fields of the block `ddc`. -/
def Field.of_ddc : List Field :=
  [.DDC_CTRL_EN, .DDC_CTRL_COMPLEX, .DDC_CTRL_PHSYNC, .DDC_CTRL_LINK, .DDC_CTRL_CONV, .DDC_CTRL_CICM1, .DDC_CTRL_HB,
   .DDC_CTRL_RSEN, .DDC_CTRL_GENG, .DDC_CTRL_GEN, .DDC_STEP_STEP, .DDC_FTW_FTW, .DDC_PHASE0_PHASE, .DDC_STAT_RUN,
   .DDC_STAT_SAT, .DDC_STAT_INVALID, .DDC_STAT_RETUNED, .DDC_STAT_CFGERR, .DDC_STAT_WREJ, .DDC_ROUTE_ROUTE,
   .DDC_SATCNT_COUNT, .DDC_GD_GD2, .DDC_OUTP_TS, .DDC_RT_TS_RECORD]

/-- Fields of the block `awg`. -/
def Field.of_awg : List Field :=
  [.AWG_CTRL_START, .AWG_CTRL_STOP, .AWG_CTRL_PRIME, .AWG_CTRL_FLUSH, .AWG_CTRL_JUMP, .AWG_CTRL_JMODE,
   .AWG_CTRL_COMPLEX, .AWG_CTRL_GENG, .AWG_CTRL_GEN, .AWG_CTRL_ENTRY, .AWG_RATE_HB, .AWG_RATE_RSEN, .AWG_STEP_STEP,
   .AWG_OUT_LINK, .AWG_OUT_CONV, .AWG_TP_TP, .AWG_STAT_STATE, .AWG_STAT_UNDERRUN, .AWG_STAT_DATAERR,
   .AWG_STAT_JUMP_LATE, .AWG_STAT_MARK, .AWG_STAT_CFGERR, .AWG_STAT_WREJ, .AWG_STAT_INPANIC, .AWG_STAT_HCOVF,
   .AWG_STAT_JREPL, .AWG_STAT_STOPPED, .AWG_STAT_CUR, .AWG_ROUTE_ROUTE, .AWG_URUN_COUNT, .AWG_SWREJ_SEQ,
   .AWG_SWREJ_GUARD, .AWG_GD_GD, .AWG_START_TS_RECORD, .AWG_URUN_TS_RECORD, .AWG_SEWSTART_ARM]

/-- Fields of the block `acq`, part 0. -/
def Field.of_acq0 : List Field :=
  [.ACQ_CTRL_ARM, .ACQ_CTRL_DISARM, .ACQ_CTRL_FORCE, .ACQ_CTRL_RELEASE, .ACQ_CTRL_CONT, .ACQ_CTRL_EXT, .ACQ_CTRL_RING,
   .ACQ_CTRL_COUNT, .ACQ_STAT_STATE, .ACQ_STAT_CFGERR, .ACQ_STAT_WREJ, .ACQ_STAT_RINGFULL, .ACQ_STAT_INPANIC,
   .ACQ_STAT_HELD, .ACQ_STAT_RECCNT, .ACQ_SRC_TYPE, .ACQ_SRC_DDC, .ACQ_SRC_SWIDTH, .ACQ_SRC_ENGINE, .ACQ_SRC_GROUP,
   .ACQ_SRC_CHAN, .ACQ_GRANT_ENGINE, .ACQ_GRANT_EN, .ACQ_PRE_SAMPLES, .ACQ_POST_SAMPLES, .ACQ_HOLD_MODE,
   .ACQ_HOLD_VALUE, .ACQ_TOUT_ENGINE, .ACQ_TOUT_TOENG, .ACQ_TOUT_STCH, .ACQ_TOUT_TOSEAM, .ACQ_RBASE_LINE,
   .ACQ_RSIZE_LINES, .ACQ_WPTR_LINE, .ACQ_RPTR_LINE, .ACQ_MISSED_COUNT, .ACQ_FMISS_RECORD, .ACQ_LAST_RECORD,
   .ACQ_COND_CTRL_EN, .ACQ_COND_CTRL_TYPE]

/-- Fields of the block `acq`, part 1. -/
def Field.of_acq1 : List Field :=
  [.ACQ_COND_CTRL_ARMBY, .ACQ_COND_CTRL_ARMBY_EN, .ACQ_COND_CTRL_P0, .ACQ_COND_P1, .ACQ_COND_P2]

/-- The fields of the block `acq`. -/
def Field.of_acq : List Field :=
  Field.of_acq0 ++ (Field.of_acq1)

/-- Fields of the block `acqx`. -/
def Field.of_acqx : List Field :=
  [.ACQ_WINSEL_UNIT]

/-- Fields of the block `eng`, part 0. -/
def Field.of_eng0 : List Field :=
  [.ENG_QMASK_QUADS, .ENG_TIE_GROUP, .ENG_TIE_TIED, .ENG_TIE_SCOPE, .ENG_TIE_LATENCY, .ENG_STR_BASE_LINE,
   .ENG_STR_LEN_LEN, .ENG_STR_CTRL_FORM, .ENG_STR_CTRL_MODE, .ENG_STR_CTRL_QUADS, .ENG_STR_CTRL_LOAD,
   .ENG_STR_CTRL_HOSTFILL, .ENG_STR_CTRL_PREFILL, .ENG_STR_CTRL_PANIC, .ENG_BOB_STAT_READY, .ENG_BOB_STAT_LOADING,
   .ENG_BOB_STAT_WREJ, .ENG_BOB_STAT_LOAD_ERR, .ENG_BOB_STAT_AHEAD, .ENG_BOB_STAT_INPANIC, .ENG_BOB_MISS_COUNT,
   .ENG_BOB_STALL_COUNT, .ENG_BOB_LSTART_START, .ENG_BOB_LEND_END, .ENG_BOB_LREM_REM, .ENG_BOB_LREM_ACTIVE,
   .ENG_BOB_LREM_HELD, .ENG_STR_PPOS_REP, .ENG_STR_PPOS_ROW, .ENG_URUN_VCNT_VCNT, .ENG_URUN_VP_VP,
   .ENG_URUN_LINE_MISS, .ENG_URUN_LINE_PANIC, .ENG_URUN_LINE_LINE, .ENG_URUN_CNT_COUNT, .ENG_HEM0_HEM, .ENG_HEM1_HEM,
   .ENG_HEM2_HEM, .ENG_HEM3_HEM, .ENG_CMP_MASK_MASK]

/-- Fields of the block `eng`, part 1. -/
def Field.of_eng1 : List Field :=
  [.ENG_CMP_DMASK_DMASK, .ENG_RES_STAT_STATE, .ENG_RES_STAT_RUNNING, .ENG_RES_STAT_LFAIL, .ENG_RES_STAT_LOGINC,
   .ENG_RES_STAT_DRIFT, .ENG_RES_STAT_PROGFAIL, .ENG_RES_STAT_REASON, .ENG_RES_BCNT_COUNT, .ENG_RES_VCNT_VCNT,
   .ENG_RES_FFV_VCNT, .ENG_RES_FFV_VALID, .ENG_RES_FFV_TSET, .ENG_RES_FFTAG_TAG, .ENG_RES_FFPINS_PINS,
   .ENG_RES_PF_FAILED, .ENG_RES_FCNT_COUNT, .ENG_FLOG_CTRL_EN, .ENG_FLOG_CTRL_CAPLOG, .ENG_FLOG_CTRL_SPILL,
   .ENG_FLOG_BASE_LINE, .ENG_FLOG_SIZE_LINES, .ENG_FLOG_WPTR_LINE, .ENG_FLOG_RPTR_LINE, .ENG_FLOG_STAT_OCC,
   .ENG_FLOG_STAT_RINGFULL, .ENG_FLOG_STAT_WREJ, .ENG_FLOG_STAT_CFGERR, .ENG_FLOG_LOST_COUNT, .ENG_FLOG_LIMIT_LIMIT,
   .ENG_FLOG_CNT_COUNT, .ENG_CTRL_START, .ENG_CTRL_HALT, .ENG_CTRL_RESET, .ENG_CTRL_KEY, .ENG_STAT_STATE,
   .ENG_STAT_WREJ, .ENG_STAT_ILLSEEN, .ENG_ENTRY_ADDR, .ENG_ENTRY_BANK]

/-- Fields of the block `eng`, part 2. -/
def Field.of_eng2 : List Field :=
  [.ENG_ENTRY_LEAD, .ENG_SREJ_COUNT, .ENG_SEWSTART_ARM, .ENG_EV_EN_EN, .ENG_EV_PEND_PEND, .ENG_EV_SET_HOST,
   .ENG_EV_VEC_ADDR, .ENG_EV_VEC_VALID, .ENG_APG_CTRL_TROWS_M1, .ENG_APG_XMAX_XMAX, .ENG_APG_YMAX_YMAX,
   .ENG_APG_XSCR_XSCR, .ENG_APG_YSCR_YSCR, .ENG_APG_XDMASK_XDMASK, .ENG_APG_YDMASK_YDMASK, .ENG_APG_SEL_SEL,
   .ENG_TACK_STAT_COUNT, .ENG_TACK_STAT_OVF, .ENG_TACK_POP_POP, .ENG_TACK_HEAD_RECORD, .UCODE_VERSION_MINOR,
   .UCODE_VERSION_MAJOR, .UCODE_VERSION_ROM_ID, .ENG_MC_CTRL_CAREFUL, .ENG_MC_CTRL_CLRLIST, .ENG_MC_STAT_PCNT,
   .ENG_MC_STAT_LISTCNT, .ENG_MC_STAT_LISTFULL, .ENG_MC_STAT_UE_SEEN, .ENG_MC_STAT_RECOV, .ENG_MC_STAT_CAREFUL_NOW,
   .ENG_MC_STAT_IDERR, .ENG_MC_SCAN_PASSES, .ENG_MC_REC_RECORD, .ENG_MC_LIST_ADDR, .ENG_MC_LIST_STORE,
   .ENG_MC_LIST_KIND, .ENG_MC_LIST_VALID, .ENG_MC_LIST_BIT, .ENG_MODE_MODE]

/-- Fields of the block `eng`, part 3. -/
def Field.of_eng3 : List Field :=
  [.ENG_CONT_CONT, .ENG_G, .ENG_L, .ENG_XA, .ENG_YA, .ENG_DG, .ENG_VP, .ENG_TS, .ENG_TAG, .ENG_PROG, .ENG_EPC,
   .ENG_PC_ADDR, .ENG_PC_BANK, .ENG_FLAGS_FAIL, .ENG_FLAGS_MATCH, .ENG_FLAGS_ZERO, .ENG_FLAGS_CARRY, .ENG_FLAGS_EVENT,
   .ENG_FLAGS_TFAIL, .ENG_FLAGS_TMATCH, .ENG_ESTAT_IE, .ENG_ESTAT_RESUME, .ENG_ESTAT_INHANDLER, .ENG_ESTAT_SZERO,
   .ENG_ESTAT_SCARRY, .ENG_ESTAT_EVNUM]

/-- The fields of the block `eng`. -/
def Field.of_eng : List Field :=
  Field.of_eng0 ++ (Field.of_eng1 ++ (Field.of_eng2 ++ (Field.of_eng3)))

/-- Fields of the block `pin`. -/
def Field.of_pin : List Field :=
  [.PIN_INVALID_CNT_COUNT, .PIN_TCTRL_VIOL_ACT, .PIN_EDGE_VIOL_COUNT, .PIN_EDGE_MERGE_COUNT, .PIN_STB_CTRL_MODE,
   .PIN_EM_CTRL_CMP, .PIN_EM_CTRL_EDGE, .PIN_EM_CTRL_SPAN, .PIN_EM_CTRL_CLR, .PIN_EM_CTRL_KEEP, .PIN_EM_COUNT_COUNT,
   .PIN_EM_NOEDGE_COUNT, .PIN_EM_LAST_TIME, .PIN_EM_LAST_VALID, .PIN_EM_MIN_TIME, .PIN_EM_MAX_TIME, .PIN_EM_SUM_SUM,
   .PIN_CAL_STAT_CALBAD, .PIN_CAL_STAT_DRIFT, .PIN_CAL_STAT_PTFAIL, .PIN_CONT_FAILS, .PIN_CONT_RUNS,
   .PIN_CONT_HIST_HIST]

/-- Fields of the block `feb`. -/
def Field.of_feb : List Field :=
  [.FEB_CTRL_EN, .FEB_CTRL_FLUSH, .FEB_STAT_QDEPTH, .FEB_STAT_BUSY, .FEB_STAT_PERR, .FEB_STAT_OFFREJ, .FEB_STAT_HDROP,
   .FEB_HCMD_FRAME, .FEB_HRD_DATA, .FEB_HRD_VALID, .FEB_HRD_ERR]

/-- Fields of the block `quad`. -/
def Field.of_quad : List Field :=
  [.PIN_QOWN_OWNER, .PIN_QOWN_UNOWNED, .PIN_QOWN_PENDING]

/-- Fields of the block `ft`. -/
def Field.of_ft : List Field :=
  [.FT_CTRL_EN, .FT_CTRL_SRC_CH, .FT_CTRL_SRC_CMP, .FT_CTRL_SRC_EDGE, .FT_CTRL_BW, .FT_NOM_NOM_KHZ, .FT_STAT_LOCKED,
   .FT_STAT_LOST, .FT_STAT_RANGE_ERR, .FT_STAT_BUSYREJ, .FT_STAT_IN_USE, .FT_LOSS_CNT_COUNT, .FT_PERIOD_PERIOD,
   .FT_PHERR_PEAK, .FT_LOSS_TS_RECORD]

/-- Fields of the block `pm`. -/
def Field.of_pm : List Field :=
  [.PM_STAT_USERS0, .PM_STAT_USERS1, .PM_STAT_WR0, .PM_STAT_WR1, .PM_STAT_WREJ]

def Field.ofBlk : Blk → List Field
  | .host => Field.of_host
  | .dma => Field.of_dma
  | .cmd => Field.of_cmd
  | .pwr => Field.of_pwr
  | .time => Field.of_time
  | .sewg => Field.of_sewg
  | .sewx => Field.of_sewx
  | .sec => Field.of_sec
  | .cal => Field.of_cal
  | .drc => Field.of_drc
  | .lane => Field.of_lane
  | .sp => Field.of_sp
  | .sd => Field.of_sd
  | .link => Field.of_link
  | .ddc => Field.of_ddc
  | .awg => Field.of_awg
  | .acq => Field.of_acq
  | .acqx => Field.of_acqx
  | .eng => Field.of_eng
  | .pin => Field.of_pin
  | .feb => Field.of_feb
  | .quad => Field.of_quad
  | .ft => Field.of_ft
  | .pm => Field.of_pm

/-- The layout of every field, from the register tables of the rules named beside each group. -/
def Field.info : Field → FieldInfo
  -- R421
  | .HOST_READY_AON => FieldInfo.mk .host 0x100 0x0 1 0 1 .ro 0
  | .HOST_READY_TIMING => FieldInfo.mk .host 0x100 0x0 1 1 1 .ro 0
  | .HOST_READY_THIMBLE => FieldInfo.mk .host 0x100 0x0 1 2 1 .ro 0
  | .HOST_READY_TIMESET => FieldInfo.mk .host 0x100 0x0 1 3 1 .ro 0
  | .HOST_READY_HOST => FieldInfo.mk .host 0x100 0x0 1 4 1 .ro 0
  | .HOST_READY_NET => FieldInfo.mk .host 0x100 0x0 1 5 1 .ro 0
  | .HOST_READY_SEAM => FieldInfo.mk .host 0x100 0x0 1 6 1 .ro 0
  | .HOST_READY_CNV => FieldInfo.mk .host 0x100 0x0 1 7 1 .ro 0
  | .HOST_READY_DSP => FieldInfo.mk .host 0x100 0x0 1 8 1 .ro 0
  | .HOST_READY_DRA => FieldInfo.mk .host 0x100 0x0 1 9 1 .ro 0
  | .HOST_READY_DRB => FieldInfo.mk .host 0x100 0x0 1 10 1 .ro 0
  | .HOST_READY_DONE => FieldInfo.mk .host 0x100 0x0 1 11 1 .ro 0
  | .HOST_READY_K => FieldInfo.mk .host 0x100 0x0 1 16 8 .ro 0
  | .HOST_READY_PD => FieldInfo.mk .host 0x100 0x0 1 24 16 .ro 0
  | .HOST_BOOTERR_THIMBLE => FieldInfo.mk .host 0x108 0x0 1 0 1 .ro 0
  | .HOST_BOOTERR_REFCLK => FieldInfo.mk .host 0x108 0x0 1 1 1 .ro 0
  | .HOST_BOOTERR_IDERR => FieldInfo.mk .host 0x108 0x0 1 2 1 .ro 0
  | .HOST_BOOTERR_CALCRC => FieldInfo.mk .host 0x108 0x0 1 3 1 .ro 0
  | .HOST_RST_CAUSE_POR => FieldInfo.mk .host 0x110 0x0 1 0 1 .ro 1
  | .HOST_RST_CAUSE_PIN => FieldInfo.mk .host 0x110 0x0 1 1 1 .ro 0
  | .HOST_RST_CAUSE_REGPCIE => FieldInfo.mk .host 0x110 0x0 1 2 1 .ro 0
  | .HOST_RST_CAUSE_REGSMB => FieldInfo.mk .host 0x110 0x0 1 3 1 .ro 0
  | .HOST_RST_CAUSE_COUNT => FieldInfo.mk .host 0x110 0x0 1 8 8 .ro 0
  | .HOST_RST_CAUSE_SEQERR => FieldInfo.mk .host 0x110 0x0 1 16 1 .w1c 0
  | .HOST_RST_UNLOCK_KEY => FieldInfo.mk .host 0x118 0x0 1 0 8 .wo 0
  | .HOST_RST_GO_KEY => FieldInfo.mk .host 0x11C 0x0 1 0 8 .wo 0
  | .HOST_MODE_MODE => FieldInfo.mk .host 0x120 0x0 1 0 3 .ro 0
  | .HOST_MODE_PENDING => FieldInfo.mk .host 0x120 0x0 1 3 1 .ro 0
  | .HOST_MODE_REJ => FieldInfo.mk .host 0x120 0x0 1 4 1 .w1c 0
  | .HOST_MODE_REJVAL => FieldInfo.mk .host 0x120 0x0 1 5 3 .ro 0
  | .HOST_MODE_LOCKSRC => FieldInfo.mk .host 0x120 0x0 1 8 2 .ro 0
  -- R468
  | .CTR_CTRL_VERIFY => FieldInfo.mk .host 0x800 0x0 1 0 1 .wo 0
  | .CTR_CTRL_TDSRC => FieldInfo.mk .host 0x800 0x0 1 1 1 .rw 0
  | .CTR_CTRL_POLICY => FieldInfo.mk .host 0x800 0x0 1 2 1 .rw 0
  | .CTR_STAT_STATE => FieldInfo.mk .host 0x804 0x0 1 0 2 .ro 0
  | .CTR_STAT_WARN => FieldInfo.mk .host 0x804 0x0 1 2 1 .ro 0
  | .CTR_STAT_LIFE => FieldInfo.mk .host 0x804 0x0 1 3 1 .ro 0
  | .CTR_STAT_CNTERR => FieldInfo.mk .host 0x804 0x0 1 4 1 .w1c 0
  | .CTR_STAT_WREJ => FieldInfo.mk .host 0x804 0x0 1 5 1 .w1c 0
  | .CTR_STAT_BOUNCE => FieldInfo.mk .host 0x804 0x0 1 16 16 .rc 0
  | .CTR_TD_TOUCH => FieldInfo.mk .host 0x808 0x0 1 0 1 .wo 0
  | .CTR_TDCNT_COUNT => FieldInfo.mk .host 0x80C 0x0 1 0 32 .ro 0
  | .CTR_PEND_PEND => FieldInfo.mk .host 0x810 0x0 1 0 16 .ro 0
  | .CTR_RATED_RATED => FieldInfo.mk .host 0x814 0x0 1 0 32 .ro 0
  | .CTR_QMASK_QUADS => FieldInfo.mk .host 0x820 0x0 1 0 128 .rw 0
  | .CTR_SIGKEY_KEY => FieldInfo.mk .host 0x840 0x0 1 0 512 .rwl 0
  -- R494
  | .HOST_BAR2_BASE_BASE => FieldInfo.mk .host 0x40 0x0 1 0 17 .rw 0
  | .HOST_STAT_BADACC => FieldInfo.mk .host 0x48 0x0 1 0 1 .w1c 0
  | .HOST_STAT_BAR2RANGE => FieldInfo.mk .host 0x48 0x0 1 1 1 .w1c 0
  | .HOST_IRQ_STAT_PEND => FieldInfo.mk .host 0x200 0x0 1 0 256 .w1c 0
  | .HOST_SNAP_CTRL_OFFSET => FieldInfo.mk .host 0x300 0x0 1 0 26 .rw 0
  | .HOST_SNAP_CTRL_LEN16 => FieldInfo.mk .host 0x300 0x0 1 26 8 .rw 0
  | .HOST_SNAP_CTRL_RCCLR => FieldInfo.mk .host 0x300 0x0 1 34 1 .rw 0
  | .HOST_SNAP_CTRL_GO => FieldInfo.mk .host 0x300 0x0 1 35 1 .wo 0
  | .HOST_SNAP_CTRL_REFUSED => FieldInfo.mk .host 0x300 0x0 1 36 1 .w1c 0
  | .HOST_LOG_STAT_COUNT => FieldInfo.mk .host 0x400 0x0 1 0 11 .ro 0
  | .HOST_LOG_STAT_OVF => FieldInfo.mk .host 0x400 0x0 1 11 1 .w1c 0
  | .HOST_LOG_POP_POP => FieldInfo.mk .host 0x404 0x0 1 0 1 .wo 0
  | .HOST_LOG_HEAD_ENTRY => FieldInfo.mk .host 0x420 0x0 1 0 256 .ro 0
  -- R471
  | .TEL_RBASE_LINE => FieldInfo.mk .host 0x900 0x0 1 8 30 .rw 0
  | .TEL_RSIZE_LINES => FieldInfo.mk .host 0x908 0x0 1 0 32 .rw 0
  | .TEL_WPTR_LINE => FieldInfo.mk .host 0x90C 0x0 1 0 32 .ro 0
  | .TEL_SKIP_COUNT => FieldInfo.mk .host 0x910 0x0 1 0 32 .rc 0
  | .TEL_LAST_SAMPLE => FieldInfo.mk .host 0xA00 0x0 1 0 2048 .ro 0
  -- R482
  | .DMA_CTRL_EN => FieldInfo.mk .dma 0x0 0x0 1 0 1 .rw 0
  | .DMA_CTRL_RESET => FieldInfo.mk .dma 0x0 0x0 1 1 1 .wo 0
  | .DMA_RBASE_ADDR => FieldInfo.mk .dma 0x8 0x0 1 0 64 .rw 0
  | .DMA_RSIZE_LOG => FieldInfo.mk .dma 0x10 0x0 1 0 4 .rw 0
  | .DMA_TAIL_INDEX => FieldInfo.mk .dma 0x14 0x0 1 0 16 .rw 0
  | .DMA_HEAD_INDEX => FieldInfo.mk .dma 0x18 0x0 1 0 16 .ro 0
  | .DMA_STAT_RUN => FieldInfo.mk .dma 0x1C 0x0 1 0 1 .ro 0
  | .DMA_STAT_HALTED => FieldInfo.mk .dma 0x1C 0x0 1 1 1 .ro 0
  | .DMA_STAT_DONE => FieldInfo.mk .dma 0x1C 0x0 1 2 1 .w1c 0
  | .DMA_STAT_WREJ => FieldInfo.mk .dma 0x1C 0x0 1 3 1 .w1c 0
  | .DMA_STAT_CODE => FieldInfo.mk .dma 0x1C 0x0 1 4 4 .ro 0
  -- R495
  | .CMD_OP_OP => FieldInfo.mk .cmd 0x0 0x0 1 0 8 .rw 0
  | .CMD_ARG_ARG => FieldInfo.mk .cmd 0x8 0x8 4 0 64 .rw 0
  | .CMD_DOORBELL_GO => FieldInfo.mk .cmd 0x40 0x0 1 0 1 .wo 0
  | .CMD_STAT_BUSY => FieldInfo.mk .cmd 0x44 0x0 1 0 1 .ro 0
  | .CMD_STAT_OP => FieldInfo.mk .cmd 0x44 0x0 1 8 8 .ro 0
  | .CMD_STAT_CODE => FieldInfo.mk .cmd 0x44 0x0 1 16 8 .ro 0
  | .CMD_IGNCNT_COUNT => FieldInfo.mk .cmd 0x48 0x0 1 0 16 .rc 0
  | .CMD_RES_RES => FieldInfo.mk .cmd 0x50 0x8 4 0 64 .ro 0
  -- R405
  | .PWR_REQ_MASK_MASK => FieldInfo.mk .pwr 0x0 0x0 1 0 32 .rw 0
  | .PWR_REQ_CTRL_TARGET => FieldInfo.mk .pwr 0x4 0x0 1 0 1 .rw 0
  | .PWR_REQ_CTRL_GO => FieldInfo.mk .pwr 0x4 0x0 1 1 1 .wo 0
  | .PWR_REQ_STAT_PHASE => FieldInfo.mk .pwr 0x8 0x0 1 0 3 .ro 0
  | .PWR_REQ_STAT_WREJ => FieldInfo.mk .pwr 0x8 0x0 1 3 1 .w1c 0
  | .PWR_REQ_STAT_FIRST => FieldInfo.mk .pwr 0x8 0x0 1 8 5 .ro 0
  | .PWR_REQ_STAT_REASON => FieldInfo.mk .pwr 0x8 0x0 1 16 8 .ro 0
  | .PWR_REQ_REFUSED_MASK => FieldInfo.mk .pwr 0xC 0x0 1 0 32 .ro 0
  | .PWR_WAKE_MASK => FieldInfo.mk .pwr 0x10 0x0 1 0 32 .wo 0
  | .PWR_QUEUE_MASK => FieldInfo.mk .pwr 0x14 0x0 1 0 32 .ro 0
  | .PWR_STATE_LO_STATE => FieldInfo.mk .pwr 0x18 0x0 1 0 32 .ro 0xFFFFFFFC
  | .PWR_STATE_HI_STATE => FieldInfo.mk .pwr 0x1C 0x0 1 0 32 .ro 0xFFFFFFFF
  | .PWR_INRUSH_BUDGET => FieldInfo.mk .pwr 0x20 0x0 1 0 10 .rw 0xC8
  | .PWR_INRUSH_INUSE => FieldInfo.mk .pwr 0x20 0x0 1 16 10 .ro 0
  | .PWR_PREP_TMO_US => FieldInfo.mk .pwr 0x24 0x0 1 0 16 .rw 0x64
  | .PWR_AON_DOZE => FieldInfo.mk .pwr 0x28 0x0 1 0 1 .rw 0
  | .PWR_AON_WOKE => FieldInfo.mk .pwr 0x28 0x0 1 1 1 .w1c 0
  | .PWR_ACCREJ_COUNT => FieldInfo.mk .pwr 0x2C 0x0 1 0 32 .rc 0
  | .PWR_DOM_TS_RECORD => FieldInfo.mk .pwr 0x100 0x10 32 0 128 .ro 0
  -- R333
  | .TIME_NOW_NS_NS => FieldInfo.mk .time 0x0 0x0 1 0 64 .ro 0
  | .TIME_NOW_AUX_FRAC => FieldInfo.mk .time 0x8 0x0 1 0 16 .ro 0
  | .TIME_NOW_AUX_GEN => FieldInfo.mk .time 0x8 0x0 1 16 8 .ro 0
  | .TIME_NOW_AUX_QUAL => FieldInfo.mk .time 0x8 0x0 1 24 4 .ro 4
  | .TIME_CTRL_SRC => FieldInfo.mk .time 0x10 0x0 1 0 2 .rw 0
  | .TIME_CTRL_PORT => FieldInfo.mk .time 0x10 0x0 1 2 1 .rw 0
  | .TIME_CTRL_MASTER => FieldInfo.mk .time 0x10 0x0 1 3 1 .rw 0
  | .TIME_CTRL_P2P => FieldInfo.mk .time 0x10 0x0 1 4 1 .rw 0
  | .TIME_CTRL_TWOSTEP => FieldInfo.mk .time 0x10 0x0 1 5 1 .rw 0
  | .TIME_CTRL_L2 => FieldInfo.mk .time 0x10 0x0 1 6 1 .rw 1
  | .TIME_CTRL_SERVE => FieldInfo.mk .time 0x10 0x0 1 7 1 .rw 0
  | .TIME_CTRL_DOMAIN => FieldInfo.mk .time 0x10 0x0 1 8 8 .rw 0
  | .TIME_STAT_QUAL => FieldInfo.mk .time 0x14 0x0 1 0 4 .ro 4
  | .TIME_STAT_SLEWING => FieldInfo.mk .time 0x14 0x0 1 4 1 .ro 0
  | .TIME_STAT_MSEEN => FieldInfo.mk .time 0x14 0x0 1 5 1 .ro 0
  | .TIME_STAT_TSYNC_ERR => FieldInfo.mk .time 0x14 0x0 1 6 1 .w1c 0
  | .TIME_STAT_SERVECONF => FieldInfo.mk .time 0x14 0x0 1 7 1 .w1c 0
  | .TIME_STAT_REFLOST => FieldInfo.mk .time 0x14 0x0 1 8 1 .ro 0
  | .TIME_DTHR_NS => FieldInfo.mk .time 0x18 0x0 1 0 32 .rw 0x186A0
  | .TIME_OFFS_OFFS => FieldInfo.mk .time 0x20 0x0 1 0 64 .ro 0
  | .TIME_RATE_RATE => FieldInfo.mk .time 0x28 0x0 1 0 32 .ro 0
  | .TIME_RB_DNS_DNS => FieldInfo.mk .time 0x30 0x0 1 0 64 .ro 0
  | .TIME_RB_DFR_DFRAC => FieldInfo.mk .time 0x38 0x0 1 0 16 .ro 0
  | .TIME_RB_DFR_FROMGEN => FieldInfo.mk .time 0x38 0x0 1 16 8 .ro 0
  | .TIME_RB_TS_RECORD => FieldInfo.mk .time 0x40 0x0 1 0 128 .ro 0
  | .PTP_INTV_SYNC => FieldInfo.mk .time 0x50 0x0 1 0 8 .rw 0xFD
  | .PTP_INTV_DREQ => FieldInfo.mk .time 0x50 0x0 1 8 8 .rw 0
  | .PTP_INTV_ANN => FieldInfo.mk .time 0x50 0x0 1 16 8 .rw 1
  | .PTP_INTV_ATO => FieldInfo.mk .time 0x50 0x0 1 24 8 .rw 3
  | .PTP_MPD_MPD => FieldInfo.mk .time 0x54 0x0 1 0 32 .ro 0
  | .PTP_ASYM_ASYM => FieldInfo.mk .time 0x58 0x0 1 0 32 .rw 0
  | .PTP_GMID_ID => FieldInfo.mk .time 0x60 0x0 1 0 64 .ro 0
  | .TIME_DEVNUM_NUM => FieldInfo.mk .time 0x70 0x0 1 0 10 .rw 0
  | .TIME_DEVNUM_WREJ => FieldInfo.mk .time 0x70 0x0 1 10 1 .w1c 0
  -- R334
  | .SEW_TGT_NS => FieldInfo.mk .sewg 0x0 0x0 1 0 64 .rw 0
  | .SEW_CFG_GEN => FieldInfo.mk .sewg 0x8 0x0 1 0 8 .rw 0
  | .SEW_CFG_SEAMSYNC => FieldInfo.mk .sewg 0x8 0x0 1 8 1 .rw 0
  | .SEW_CFG_TAG => FieldInfo.mk .sewg 0x8 0x0 1 16 8 .rw 0
  | .SEW_CFG_PART => FieldInfo.mk .sewg 0x8 0x0 1 32 16 .rw 0
  | .SEW_CMD_ARM => FieldInfo.mk .sewg 0x10 0x0 1 0 1 .wo 0
  | .SEW_CMD_CANCEL => FieldInfo.mk .sewg 0x10 0x0 1 1 1 .wo 0
  | .SEW_CMD_VETO => FieldInfo.mk .sewg 0x10 0x0 1 2 1 .wo 0
  | .SEW_STATUS_STATE => FieldInfo.mk .sewg 0x14 0x0 1 0 4 .ro 0
  | .SEW_STATUS_BUSYREJ => FieldInfo.mk .sewg 0x14 0x0 1 4 1 .w1c 0
  | .SEW_STATUS_SEAMLOSS => FieldInfo.mk .sewg 0x14 0x0 1 5 1 .w1c 0
  | .SEW_STATUS_WREJ => FieldInfo.mk .sewg 0x14 0x0 1 6 1 .w1c 0
  | .SEW_STATUS_PENDCNT => FieldInfo.mk .sewg 0x14 0x0 1 7 9 .ro 0
  | .SEW_LAST_RECORD => FieldInfo.mk .sewg 0x20 0x0 1 0 128 .ro 0
  | .SEW_DONE_RECORD => FieldInfo.mk .sewg 0x30 0x0 1 0 128 .ro 0
  -- R335
  | .SEW_GMAP_ENG_MAP => FieldInfo.mk .sewx 0x0 0x4 16 0 32 .rw 0
  | .SEW_GMAP_QUAD_MAP => FieldInfo.mk .sewx 0x40 0x4 16 0 32 .rw 0
  | .SEW_GMAP_AWG_MAP => FieldInfo.mk .sewx 0x80 0x0 1 0 32 .rw 0
  | .SEW_GMAP_DEV_GROUP => FieldInfo.mk .sewx 0x84 0x0 1 0 4 .rw 0
  | .SEW_MODE_MODE => FieldInfo.mk .sewx 0x90 0x0 1 0 3 .rwb 0
  | .SEW_MODE_PENDING => FieldInfo.mk .sewx 0x90 0x0 1 8 1 .ro 0
  | .SEW_GSTAT_MAPREJ => FieldInfo.mk .sewx 0x94 0x0 1 0 1 .w1c 0
  -- R461
  | .SEC_LC_STATE => FieldInfo.mk .sec 0x0 0x0 1 0 3 .ro 0
  | .SEC_STAT_DRAMKEY => FieldInfo.mk .sec 0x4 0x0 1 0 1 .ro 0
  | .SEC_STAT_STANDBY => FieldInfo.mk .sec 0x4 0x0 1 1 1 .ro 0
  | .SEC_STAT_KSOK => FieldInfo.mk .sec 0x4 0x0 1 2 1 .ro 0
  | .SEC_STAT_TRNGOK => FieldInfo.mk .sec 0x4 0x0 1 3 1 .ro 0
  | .SEC_STAT_DBG => FieldInfo.mk .sec 0x4 0x0 1 4 2 .ro 0
  | .SEC_STAT_WIPING => FieldInfo.mk .sec 0x4 0x0 1 6 1 .ro 0
  | .SEC_ALRESP_LEVEL => FieldInfo.mk .sec 0x10 0x0 1 0 14 .rwl 0x2195
  | .SEC_ALPEND_PEND => FieldInfo.mk .sec 0x14 0x0 1 0 7 .w1c 0
  | .SEC_ALCNT_COUNT => FieldInfo.mk .sec 0x18 0x0 1 0 16 .rc 0
  | .SEC_ALLAST_RECORD => FieldInfo.mk .sec 0x20 0x0 1 0 128 .ro 0
  | .SEC_TALARM_HI => FieldInfo.mk .sec 0x30 0x0 1 0 8 .rwl 0x73
  | .SEC_TALARM_LO => FieldInfo.mk .sec 0x30 0x0 1 8 8 .rwl 0xE2
  | .SEC_KSLOT_VALID => FieldInfo.mk .sec 0x40 0x0 1 0 16 .ro 0
  | .SEC_IMP_NONCE_NONCE => FieldInfo.mk .sec 0x60 0x0 1 0 256 .ro 0
  | .SEC_UNS_SRC_ADDR => FieldInfo.mk .sec 0x100 0x0 1 0 38 .rw 0
  | .SEC_UNS_DST_LINE => FieldInfo.mk .sec 0x108 0x0 1 8 30 .rw 0
  | .SEC_UNS_CTRL_GO => FieldInfo.mk .sec 0x110 0x0 1 0 1 .wo 0
  | .SEC_UNS_CTRL_REGION => FieldInfo.mk .sec 0x110 0x0 1 1 4 .rw 0
  | .SEC_UNS_STAT_STATE => FieldInfo.mk .sec 0x114 0x0 1 0 2 .ro 0
  | .SEC_UNS_STAT_RESULT => FieldInfo.mk .sec 0x114 0x0 1 2 4 .ro 0
  | .SEC_REG_BASE_LINE => FieldInfo.mk .sec 0x200 0x10 16 8 30 .ro 0
  | .SEC_REG_CTRL_LINES => FieldInfo.mk .sec 0x208 0x10 16 0 30 .ro 0
  | .SEC_REG_CTRL_ACTIVE => FieldInfo.mk .sec 0x208 0x10 16 30 1 .ro 0
  | .SEC_REG_CTRL_REL => FieldInfo.mk .sec 0x208 0x10 16 31 1 .wo 0
  | .SEC_GUARDCNT_COUNT => FieldInfo.mk .sec 0x300 0x0 1 0 32 .rc 0
  | .SEC_ATT_NONCE_NONCE => FieldInfo.mk .sec 0x400 0x0 1 0 256 .rw 0
  | .SEC_ATT_CTRL_GO => FieldInfo.mk .sec 0x420 0x0 1 0 1 .wo 0
  | .SEC_ATT_STAT_BUSY => FieldInfo.mk .sec 0x424 0x0 1 0 1 .ro 0
  | .SEC_ATT_STAT_READY => FieldInfo.mk .sec 0x424 0x0 1 1 1 .ro 0
  | .SEC_ATT_QUOTE_QUOTE => FieldInfo.mk .sec 0x500 0x0 1 0 2048 .ro 0
  | .SEC_ID_PUB_KEY => FieldInfo.mk .sec 0x600 0x0 1 0 512 .ro 0
  | .SEC_DBGKEY_KEY => FieldInfo.mk .sec 0x640 0x0 1 0 512 .rwl 0
  | .SEC_DBG_CHAL_CHAL => FieldInfo.mk .sec 0x700 0x0 1 0 256 .ro 0
  | .SEC_DBG_RESP_SIG => FieldInfo.mk .sec 0x720 0x0 1 0 512 .wo 0
  | .SEC_DBG_CTRL_TRY => FieldInfo.mk .sec 0x760 0x0 1 0 1 .wo 0
  | .SEC_DBG_CTRL_CLASS => FieldInfo.mk .sec 0x760 0x0 1 1 2 .rw 0
  | .SEC_DBG_CTRL_CLOSE => FieldInfo.mk .sec 0x760 0x0 1 3 1 .wo 0
  | .SEC_DBG_STAT_FAILCNT => FieldInfo.mk .sec 0x764 0x0 1 0 2 .ro 0
  | .SEC_DBG_STAT_BLOCKED => FieldInfo.mk .sec 0x764 0x0 1 2 1 .ro 0
  | .SEC_ID_CERT_CERT => FieldInfo.mk .sec 0x800 0x0 1 0 4096 .ro 0
  -- R437
  | .CAL_CTRL_RTEN => FieldInfo.mk .cal 0x0 0x0 1 0 1 .rw 1
  | .CAL_CTRL_THR => FieldInfo.mk .cal 0x0 0x0 1 8 8 .rw 0x30
  | .CAL_PROFILE_SEL => FieldInfo.mk .cal 0x4 0x0 1 0 5 .rw 0
  | .CAL_PROFILE_EN => FieldInfo.mk .cal 0x4 0x0 1 5 1 .rw 0
  | .CAL_STAT_WREJ => FieldInfo.mk .cal 0x8 0x0 1 0 1 .w1c 0
  | .CAL_DUE_PD => FieldInfo.mk .cal 0xC 0x0 1 0 16 .ro 0
  | .CAL_DRIFT_PD => FieldInfo.mk .cal 0x10 0x0 1 0 16 .ro 0
  | .CAL_BAD_PD => FieldInfo.mk .cal 0x14 0x0 1 0 16 .ro 0
  | .CAL_RTCNT_COUNT => FieldInfo.mk .cal 0x18 0x0 1 0 32 .rc 0
  | .CAL_NVMWR_COUNT => FieldInfo.mk .cal 0x1C 0x0 1 0 32 .ro 0
  | .CAL_RES_PASS => FieldInfo.mk .cal 0x44 0x4 5 0 16 .ro 0
  | .CAL_RES_RUN => FieldInfo.mk .cal 0x44 0x4 5 16 16 .ro 0
  | .CAL_FTC_RES_FCENTRE => FieldInfo.mk .cal 0x60 0x0 1 0 16 .ro 0
  | .CAL_FTC_RES_SPREAD => FieldInfo.mk .cal 0x60 0x0 1 16 15 .ro 0
  | .CAL_FTC_RES_PASS => FieldInfo.mk .cal 0x60 0x0 1 31 1 .ro 0
  | .CAL_TEMP_TNOW => FieldInfo.mk .cal 0x100 0x4 24 0 16 .ro 0
  | .CAL_TEMP_TCALC => FieldInfo.mk .cal 0x100 0x4 24 16 16 .ro 0
  | .CAL_REFTAB_TICKS => FieldInfo.mk .cal 0x1000 0x4 512 0 32 .rw 0
  -- R386
  | .DRC_CFG_POP => FieldInfo.mk .drc 0x0 0x0 1 0 1 .rw 0
  | .DRC_CFG_RANKS => FieldInfo.mk .drc 0x0 0x0 1 1 1 .rw 0
  | .DRC_CFG_DENS => FieldInfo.mk .drc 0x0 0x0 1 2 2 .rw 1
  | .DRC_CFG_INTLV => FieldInfo.mk .drc 0x0 0x0 1 4 1 .rw 0
  | .DRC_CFG_FSPBOTH => FieldInfo.mk .drc 0x0 0x0 1 5 1 .rw 0
  | .DRC_STAT_STATE => FieldInfo.mk .drc 0x4 0x0 1 0 3 .ro 0
  | .DRC_STAT_FSP => FieldInfo.mk .drc 0x4 0x0 1 3 1 .ro 0
  | .DRC_STAT_FSPDEFER => FieldInfo.mk .drc 0x4 0x0 1 4 1 .ro 0
  | .DRC_STAT_HOT => FieldInfo.mk .drc 0x4 0x0 1 5 1 .ro 0
  | .DRC_STAT_URGENT => FieldInfo.mk .drc 0x4 0x0 1 6 1 .ro 0
  | .DRC_STAT_TRKLIM => FieldInfo.mk .drc 0x4 0x0 1 7 1 .w1c 0
  | .DRC_STAT_RETRAIN => FieldInfo.mk .drc 0x4 0x0 1 8 1 .ro 0
  | .DRC_STAT_SUSPECT => FieldInfo.mk .drc 0x4 0x0 1 9 1 .w1c 0
  | .DRC_STAT_WREJ => FieldInfo.mk .drc 0x4 0x0 1 10 1 .w1c 0
  | .DRC_STAT_CFGERR => FieldInfo.mk .drc 0x4 0x0 1 11 1 .w1c 0
  | .DRC_FSP_TARGET => FieldInfo.mk .drc 0x8 0x0 1 0 1 .rw 0
  | .DRC_FSP_REQ => FieldInfo.mk .drc 0x8 0x0 1 1 1 .wo 0
  | .DRC_FSP_FORCE => FieldInfo.mk .drc 0x8 0x0 1 2 1 .rw 0
  | .DRC_FSP_VALID0 => FieldInfo.mk .drc 0x8 0x0 1 3 1 .ro 0
  | .DRC_FSP_VALID1 => FieldInfo.mk .drc 0x8 0x0 1 4 1 .ro 0
  | .DRC_WQ_HIWM => FieldInfo.mk .drc 0x10 0x0 1 0 6 .rw 0x30
  | .DRC_WQ_LOWM => FieldInfo.mk .drc 0x10 0x0 1 8 6 .rw 0x10
  | .DRC_WQ_DEPTH => FieldInfo.mk .drc 0x10 0x0 1 16 7 .ro 0
  | .DRC_REF_TREFI_NS => FieldInfo.mk .drc 0x18 0x0 1 0 16 .ro 0xF3C
  | .DRC_REF_DEBT_NS => FieldInfo.mk .drc 0x1C 0x0 1 0 32 .ro 0
  | .DRC_REF_CNT_URGSEQ => FieldInfo.mk .drc 0x20 0x0 1 0 16 .rc 0
  | .DRC_REF_CNT_URUN => FieldInfo.mk .drc 0x20 0x0 1 16 16 .rc 0
  | .DRC_TEMP_DEV => FieldInfo.mk .drc 0x24 0x0 1 0 7 .ro 0
  | .DRC_TEMP_VALID => FieldInfo.mk .drc 0x24 0x0 1 7 1 .ro 0
  | .DRC_SCRUB_HOURS => FieldInfo.mk .drc 0x30 0x0 1 0 8 .rw 0x18
  | .DRC_SCRUB_POS_LINE => FieldInfo.mk .drc 0x38 0x0 1 0 30 .ro 0
  | .DRC_SCRUB_POS_PASSES => FieldInfo.mk .drc 0x38 0x0 1 32 32 .ro 0
  | .DRC_ZERO_WM => FieldInfo.mk .drc 0x40 0x0 1 0 30 .ro 0
  | .DRC_ZERO_ACTIVE => FieldInfo.mk .drc 0x40 0x0 1 30 1 .ro 0
  | .DRC_ZERO_AHEAD => FieldInfo.mk .drc 0x40 0x0 1 32 7 .ro 0
  | .DRC_TRK_MAXOFF => FieldInfo.mk .drc 0x48 0x0 1 0 8 .ro 0
  | .DRC_TRK_LIMIT => FieldInfo.mk .drc 0x48 0x0 1 8 8 .rw 0x20
  | .DRC_CECNT_COUNT => FieldInfo.mk .drc 0x50 0x0 1 0 32 .rc 0
  | .DRC_UECNT_COUNT => FieldInfo.mk .drc 0x54 0x0 1 0 32 .rc 0
  | .DRC_DUPMIS_COUNT => FieldInfo.mk .drc 0x58 0x0 1 0 16 .rc 0
  | .DRC_SUSTHR_THR => FieldInfo.mk .drc 0x5C 0x0 1 0 16 .rw 0x400
  | .DRC_CESYM_COUNT => FieldInfo.mk .drc 0x100 0x4 72 0 32 .rc 0
  | .DRC_TRES_RDLY => FieldInfo.mk .drc 0x1000 0x8 256 0 9 .ro 0
  | .DRC_TRES_WDLY => FieldInfo.mk .drc 0x1000 0x8 256 9 9 .ro 0
  | .DRC_TRES_REYE => FieldInfo.mk .drc 0x1000 0x8 256 18 7 .ro 0
  | .DRC_TRES_WEYE => FieldInfo.mk .drc 0x1000 0x8 256 25 7 .ro 0
  | .DRC_TRES_VREF => FieldInfo.mk .drc 0x1000 0x8 256 32 7 .ro 0
  | .DRC_TRES_VALID => FieldInfo.mk .drc 0x1000 0x8 256 39 1 .ro 0
  -- R347
  | .LNK_LCTRL_ADAPT => FieldInfo.mk .lane 0x0 0x0 1 0 1 .rw 1
  | .LNK_LCTRL_AUTOSLIP => FieldInfo.mk .lane 0x0 0x0 1 1 1 .rw 1
  | .LNK_LCTRL_SLIP => FieldInfo.mk .lane 0x0 0x0 1 2 1 .wo 0
  | .LNK_LCTRL_LOOP => FieldInfo.mk .lane 0x0 0x0 1 3 2 .rw 0
  | .LNK_LCTRL_PRBS => FieldInfo.mk .lane 0x0 0x0 1 5 1 .rw 0
  | .LNK_LCTRL_RXPOL => FieldInfo.mk .lane 0x0 0x0 1 6 1 .rw 0
  | .LNK_LCTRL_TXPOL => FieldInfo.mk .lane 0x0 0x0 1 7 1 .rw 0
  | .LNK_LCTRL_DTHR => FieldInfo.mk .lane 0x0 0x0 1 16 8 .rw 0x10
  | .LNK_LTXEQ_PRE => FieldInfo.mk .lane 0x4 0x0 1 0 5 .rw 0
  | .LNK_LTXEQ_POST => FieldInfo.mk .lane 0x4 0x0 1 5 5 .rw 0
  | .LNK_LTXEQ_MAIN => FieldInfo.mk .lane 0x4 0x0 1 10 7 .ro 0x40
  | .LNK_LRXEQ_CTLE => FieldInfo.mk .lane 0x8 0x0 1 0 4 .rw 0
  | .LNK_LRXEQ_DFE1 => FieldInfo.mk .lane 0x8 0x0 1 4 6 .rw 0
  | .LNK_LRXEQ_DFE2 => FieldInfo.mk .lane 0x8 0x0 1 10 6 .rw 0
  | .LNK_LRXEQ_DFE3 => FieldInfo.mk .lane 0x8 0x0 1 16 6 .rw 0
  | .LNK_LRXEQ_DFE4 => FieldInfo.mk .lane 0x8 0x0 1 22 6 .rw 0
  | .LNK_LRXEQ_DFE5 => FieldInfo.mk .lane 0x8 0x0 1 28 6 .rw 0
  | .LNK_LSTAT_LOCK => FieldInfo.mk .lane 0x10 0x0 1 0 1 .ro 0
  | .LNK_LSTAT_BLOCK => FieldInfo.mk .lane 0x10 0x0 1 1 1 .ro 0
  | .LNK_LSTAT_FROZEN => FieldInfo.mk .lane 0x10 0x0 1 2 1 .ro 0
  | .LNK_LSTAT_WREJ => FieldInfo.mk .lane 0x10 0x0 1 3 1 .w1c 0
  | .LNK_LSTAT_LOSS => FieldInfo.mk .lane 0x10 0x0 1 4 1 .w1c 0
  | .LNK_LSTAT_SLIPPOS => FieldInfo.mk .lane 0x10 0x0 1 5 7 .ro 0
  | .LNK_LSTAT_FOM => FieldInfo.mk .lane 0x10 0x0 1 12 8 .ro 0
  | .LNK_LSTAT_DENS => FieldInfo.mk .lane 0x10 0x0 1 20 8 .ro 0
  | .LNK_LERR_COUNT => FieldInfo.mk .lane 0x18 0x0 1 0 32 .rc 0
  | .LNK_LLOSS_COUNT => FieldInfo.mk .lane 0x1C 0x0 1 0 32 .rc 0
  | .LNK_LPRBS_COUNT => FieldInfo.mk .lane 0x20 0x0 1 0 32 .rc 0
  | .LNK_LFRZ_COUNT => FieldInfo.mk .lane 0x24 0x0 1 0 32 .rc 0
  -- R361
  | .LNK_SP_CTRL_EN => FieldInfo.mk .sp 0x0 0x0 1 0 1 .rw 0
  | .LNK_SP_STAT_STATE => FieldInfo.mk .sp 0x4 0x0 1 0 2 .ro 0
  | .LNK_SP_STAT_DOMERR => FieldInfo.mk .sp 0x4 0x0 1 2 1 .w1c 0
  | .LNK_SP_STAT_NPOS => FieldInfo.mk .sp 0x4 0x0 1 4 4 .ro 0
  | .LNK_SP_STAT_NDEV => FieldInfo.mk .sp 0x4 0x0 1 8 10 .ro 0
  | .LNK_SP_LAT_LAT => FieldInfo.mk .sp 0x8 0x0 1 0 16 .ro 0
  | .LNK_SP_ERR_CRCERR => FieldInfo.mk .sp 0xC 0x0 1 0 16 .rc 0
  | .LNK_SP_ERR_DROP => FieldInfo.mk .sp 0xC 0x0 1 16 16 .rc 0
  | .LNK_SP_HALF_COUNT => FieldInfo.mk .sp 0x10 0x0 1 0 32 .rc 0
  -- R362
  | .LNK_SD_CFG_DOMAIN => FieldInfo.mk .sd 0x0 0x0 1 0 16 .rw 0
  | .LNK_SD_CFG_POS => FieldInfo.mk .sd 0x0 0x0 1 16 4 .rw 0
  | .LNK_SD_STAT_HEARD => FieldInfo.mk .sd 0x4 0x0 1 0 16 .ro 0
  | .LNK_SD_STAT_WREJ => FieldInfo.mk .sd 0x4 0x0 1 16 1 .w1c 0
  -- R284
  | .LNK_CFG_EN => FieldInfo.mk .link 0x0 0x0 1 0 1 .rw 0
  | .LNK_CFG_LCODE => FieldInfo.mk .link 0x0 0x0 1 1 2 .rw 0
  | .LNK_CFG_LBASE => FieldInfo.mk .link 0x0 0x0 1 3 3 .rw 0
  | .LNK_CFG_MM1 => FieldInfo.mk .link 0x0 0x0 1 6 3 .rw 0
  | .LNK_CFG_SCODE => FieldInfo.mk .link 0x0 0x0 1 9 2 .rw 0
  | .LNK_CFG_NM1 => FieldInfo.mk .link 0x0 0x0 1 11 4 .rw 0xF
  | .LNK_CFG_EM1 => FieldInfo.mk .link 0x0 0x0 1 15 5 .rw 0
  | .LNK_CFG_SRONE => FieldInfo.mk .link 0x0 0x0 1 20 1 .rw 0
  | .LNK_TCONV_TC => FieldInfo.mk .link 0x4 0x0 1 0 32 .rw 0
  | .LNK_RBD_RBD => FieldInfo.mk .link 0x8 0x0 1 0 10 .rw 0
  | .LNK_STAT_STATE => FieldInfo.mk .link 0x10 0x0 1 0 3 .ro 0
  | .LNK_STAT_CFGERR => FieldInfo.mk .link 0x10 0x0 1 3 1 .w1c 0
  | .LNK_STAT_RATEERR => FieldInfo.mk .link 0x10 0x0 1 4 1 .ro 0
  | .LNK_STAT_SRALIGNED => FieldInfo.mk .link 0x10 0x0 1 5 1 .ro 0
  | .LNK_STAT_LANEOK => FieldInfo.mk .link 0x10 0x0 1 6 8 .ro 0
  | .LNK_STAT_SRPHERR => FieldInfo.mk .link 0x10 0x0 1 14 1 .w1c 0
  | .LNK_STAT_WREJ => FieldInfo.mk .link 0x10 0x0 1 15 1 .w1c 0
  | .LNK_STAT_F => FieldInfo.mk .link 0x10 0x0 1 16 6 .ro 0
  | .LNK_CRCERR_COUNT => FieldInfo.mk .link 0x14 0x0 1 0 32 .rc 0
  | .LNK_INVF_COUNT => FieldInfo.mk .link 0x18 0x0 1 0 32 .rc 0
  | .LNK_SRCNT_COUNT => FieldInfo.mk .link 0x1C 0x0 1 0 32 .rc 0
  | .LNK_LEMC_TS_RECORD => FieldInfo.mk .link 0x20 0x0 1 0 128 .ro 0
  -- R294
  | .DDC_CTRL_EN => FieldInfo.mk .ddc 0x0 0x0 1 0 1 .rw 0
  | .DDC_CTRL_COMPLEX => FieldInfo.mk .ddc 0x0 0x0 1 1 1 .rw 0
  | .DDC_CTRL_PHSYNC => FieldInfo.mk .ddc 0x0 0x0 1 2 1 .rw 0
  | .DDC_CTRL_LINK => FieldInfo.mk .ddc 0x0 0x0 1 4 2 .rw 0
  | .DDC_CTRL_CONV => FieldInfo.mk .ddc 0x0 0x0 1 6 3 .rw 0
  | .DDC_CTRL_CICM1 => FieldInfo.mk .ddc 0x0 0x0 1 9 6 .rw 1
  | .DDC_CTRL_HB => FieldInfo.mk .ddc 0x0 0x0 1 15 3 .rw 0
  | .DDC_CTRL_RSEN => FieldInfo.mk .ddc 0x0 0x0 1 18 1 .rw 0
  | .DDC_CTRL_GENG => FieldInfo.mk .ddc 0x0 0x0 1 19 7 .rw 0
  | .DDC_CTRL_GEN => FieldInfo.mk .ddc 0x0 0x0 1 26 1 .rw 0
  | .DDC_STEP_STEP => FieldInfo.mk .ddc 0x4 0x0 1 0 32 .rw 0x40000000
  | .DDC_FTW_FTW => FieldInfo.mk .ddc 0x8 0x0 1 0 48 .rw 0
  | .DDC_PHASE0_PHASE => FieldInfo.mk .ddc 0x10 0x0 1 0 48 .rw 0
  | .DDC_STAT_RUN => FieldInfo.mk .ddc 0x18 0x0 1 0 1 .ro 0
  | .DDC_STAT_SAT => FieldInfo.mk .ddc 0x18 0x0 1 1 1 .w1c 0
  | .DDC_STAT_INVALID => FieldInfo.mk .ddc 0x18 0x0 1 2 1 .w1c 0
  | .DDC_STAT_RETUNED => FieldInfo.mk .ddc 0x18 0x0 1 3 1 .w1c 0
  | .DDC_STAT_CFGERR => FieldInfo.mk .ddc 0x18 0x0 1 4 1 .w1c 0
  | .DDC_STAT_WREJ => FieldInfo.mk .ddc 0x18 0x0 1 5 1 .w1c 0
  | .DDC_ROUTE_ROUTE => FieldInfo.mk .ddc 0x1C 0x0 1 0 3 .rw 0
  | .DDC_SATCNT_COUNT => FieldInfo.mk .ddc 0x20 0x0 1 0 32 .rc 0
  | .DDC_GD_GD2 => FieldInfo.mk .ddc 0x24 0x0 1 0 32 .ro 0
  | .DDC_OUTP_TS => FieldInfo.mk .ddc 0x28 0x0 1 0 32 .ro 0
  | .DDC_RT_TS_RECORD => FieldInfo.mk .ddc 0x30 0x0 1 0 128 .ro 0
  -- R305
  | .AWG_CTRL_START => FieldInfo.mk .awg 0x0 0x0 1 0 1 .wo 0
  | .AWG_CTRL_STOP => FieldInfo.mk .awg 0x0 0x0 1 1 1 .wo 0
  | .AWG_CTRL_PRIME => FieldInfo.mk .awg 0x0 0x0 1 2 1 .wo 0
  | .AWG_CTRL_FLUSH => FieldInfo.mk .awg 0x0 0x0 1 3 1 .wo 0
  | .AWG_CTRL_JUMP => FieldInfo.mk .awg 0x0 0x0 1 4 1 .wo 0
  | .AWG_CTRL_JMODE => FieldInfo.mk .awg 0x0 0x0 1 5 1 .rw 0
  | .AWG_CTRL_COMPLEX => FieldInfo.mk .awg 0x0 0x0 1 6 1 .rw 0
  | .AWG_CTRL_GENG => FieldInfo.mk .awg 0x0 0x0 1 8 7 .rw 0
  | .AWG_CTRL_GEN => FieldInfo.mk .awg 0x0 0x0 1 15 1 .rw 0
  | .AWG_CTRL_ENTRY => FieldInfo.mk .awg 0x0 0x0 1 16 12 .rw 0
  | .AWG_RATE_HB => FieldInfo.mk .awg 0x4 0x0 1 0 3 .rw 0
  | .AWG_RATE_RSEN => FieldInfo.mk .awg 0x4 0x0 1 3 1 .rw 0
  | .AWG_STEP_STEP => FieldInfo.mk .awg 0x8 0x0 1 0 32 .rw 0x40000000
  | .AWG_OUT_LINK => FieldInfo.mk .awg 0xC 0x0 1 0 2 .rw 0
  | .AWG_OUT_CONV => FieldInfo.mk .awg 0xC 0x0 1 2 3 .rw 0
  | .AWG_TP_TP => FieldInfo.mk .awg 0x10 0x0 1 0 32 .ro 0
  | .AWG_STAT_STATE => FieldInfo.mk .awg 0x14 0x0 1 0 2 .ro 0
  | .AWG_STAT_UNDERRUN => FieldInfo.mk .awg 0x14 0x0 1 2 1 .w1c 0
  | .AWG_STAT_DATAERR => FieldInfo.mk .awg 0x14 0x0 1 3 1 .w1c 0
  | .AWG_STAT_JUMP_LATE => FieldInfo.mk .awg 0x14 0x0 1 4 1 .w1c 0
  | .AWG_STAT_MARK => FieldInfo.mk .awg 0x14 0x0 1 5 1 .w1c 0
  | .AWG_STAT_CFGERR => FieldInfo.mk .awg 0x14 0x0 1 6 1 .w1c 0
  | .AWG_STAT_WREJ => FieldInfo.mk .awg 0x14 0x0 1 7 1 .w1c 0
  | .AWG_STAT_INPANIC => FieldInfo.mk .awg 0x14 0x0 1 8 1 .ro 0
  | .AWG_STAT_HCOVF => FieldInfo.mk .awg 0x14 0x0 1 9 1 .w1c 0
  | .AWG_STAT_JREPL => FieldInfo.mk .awg 0x14 0x0 1 10 1 .w1c 0
  | .AWG_STAT_STOPPED => FieldInfo.mk .awg 0x14 0x0 1 11 1 .w1c 0
  | .AWG_STAT_CUR => FieldInfo.mk .awg 0x14 0x0 1 12 12 .ro 0
  | .AWG_ROUTE_ROUTE => FieldInfo.mk .awg 0x18 0x0 1 0 6 .rw 0
  | .AWG_URUN_COUNT => FieldInfo.mk .awg 0x20 0x0 1 0 32 .rc 0
  | .AWG_SWREJ_SEQ => FieldInfo.mk .awg 0x24 0x0 1 0 16 .rc 0
  | .AWG_SWREJ_GUARD => FieldInfo.mk .awg 0x24 0x0 1 16 16 .rc 0
  | .AWG_GD_GD => FieldInfo.mk .awg 0x28 0x0 1 0 32 .ro 0
  | .AWG_START_TS_RECORD => FieldInfo.mk .awg 0x30 0x0 1 0 128 .ro 0
  | .AWG_URUN_TS_RECORD => FieldInfo.mk .awg 0x40 0x0 1 0 128 .ro 0
  | .AWG_SEWSTART_ARM => FieldInfo.mk .awg 0x50 0x0 1 0 1 .rwb 0
  -- R276
  | .ACQ_CTRL_ARM => FieldInfo.mk .acq 0x0 0x0 1 0 1 .wo 0
  | .ACQ_CTRL_DISARM => FieldInfo.mk .acq 0x0 0x0 1 1 1 .wo 0
  | .ACQ_CTRL_FORCE => FieldInfo.mk .acq 0x0 0x0 1 2 1 .wo 0
  | .ACQ_CTRL_RELEASE => FieldInfo.mk .acq 0x0 0x0 1 3 1 .wo 0
  | .ACQ_CTRL_CONT => FieldInfo.mk .acq 0x0 0x0 1 4 1 .rw 0
  | .ACQ_CTRL_EXT => FieldInfo.mk .acq 0x0 0x0 1 5 1 .rw 0
  | .ACQ_CTRL_RING => FieldInfo.mk .acq 0x0 0x0 1 6 1 .rw 0
  | .ACQ_CTRL_COUNT => FieldInfo.mk .acq 0x0 0x0 1 16 16 .rw 0
  | .ACQ_STAT_STATE => FieldInfo.mk .acq 0x4 0x0 1 0 3 .ro 0
  | .ACQ_STAT_CFGERR => FieldInfo.mk .acq 0x4 0x0 1 3 1 .w1c 0
  | .ACQ_STAT_WREJ => FieldInfo.mk .acq 0x4 0x0 1 4 1 .w1c 0
  | .ACQ_STAT_RINGFULL => FieldInfo.mk .acq 0x4 0x0 1 5 1 .ro 0
  | .ACQ_STAT_INPANIC => FieldInfo.mk .acq 0x4 0x0 1 6 1 .ro 0
  | .ACQ_STAT_HELD => FieldInfo.mk .acq 0x4 0x0 1 7 1 .ro 0
  | .ACQ_STAT_RECCNT => FieldInfo.mk .acq 0x4 0x0 1 8 24 .ro 0
  | .ACQ_SRC_TYPE => FieldInfo.mk .acq 0x8 0x0 1 0 3 .rw 0
  | .ACQ_SRC_DDC => FieldInfo.mk .acq 0x8 0x0 1 3 3 .rw 0
  | .ACQ_SRC_SWIDTH => FieldInfo.mk .acq 0x8 0x0 1 6 1 .rw 0
  | .ACQ_SRC_ENGINE => FieldInfo.mk .acq 0x8 0x0 1 7 7 .rw 0
  | .ACQ_SRC_GROUP => FieldInfo.mk .acq 0x8 0x0 1 14 4 .rw 0
  | .ACQ_SRC_CHAN => FieldInfo.mk .acq 0x8 0x0 1 18 9 .rw 0
  | .ACQ_GRANT_ENGINE => FieldInfo.mk .acq 0xC 0x0 1 0 7 .rw 0
  | .ACQ_GRANT_EN => FieldInfo.mk .acq 0xC 0x0 1 7 1 .rw 0
  | .ACQ_PRE_SAMPLES => FieldInfo.mk .acq 0x10 0x0 1 0 32 .rw 0
  | .ACQ_POST_SAMPLES => FieldInfo.mk .acq 0x14 0x0 1 0 32 .rw 1
  | .ACQ_HOLD_MODE => FieldInfo.mk .acq 0x18 0x0 1 0 1 .rw 0
  | .ACQ_HOLD_VALUE => FieldInfo.mk .acq 0x18 0x0 1 8 56 .rw 0
  | .ACQ_TOUT_ENGINE => FieldInfo.mk .acq 0x20 0x0 1 0 7 .rw 0
  | .ACQ_TOUT_TOENG => FieldInfo.mk .acq 0x20 0x0 1 7 1 .rw 0
  | .ACQ_TOUT_STCH => FieldInfo.mk .acq 0x20 0x0 1 8 4 .rw 0
  | .ACQ_TOUT_TOSEAM => FieldInfo.mk .acq 0x20 0x0 1 12 1 .rw 0
  | .ACQ_RBASE_LINE => FieldInfo.mk .acq 0x28 0x0 1 8 30 .rw 0
  | .ACQ_RSIZE_LINES => FieldInfo.mk .acq 0x30 0x0 1 0 32 .rw 0
  | .ACQ_WPTR_LINE => FieldInfo.mk .acq 0x34 0x0 1 0 32 .ro 0
  | .ACQ_RPTR_LINE => FieldInfo.mk .acq 0x38 0x0 1 0 32 .rw 0
  | .ACQ_MISSED_COUNT => FieldInfo.mk .acq 0x40 0x0 1 0 32 .rc 0
  | .ACQ_FMISS_RECORD => FieldInfo.mk .acq 0x50 0x0 1 0 128 .ro 0
  | .ACQ_LAST_RECORD => FieldInfo.mk .acq 0x60 0x0 1 0 128 .ro 0
  -- R260
  | .ACQ_COND_CTRL_EN => FieldInfo.mk .acq 0x100 0x20 8 0 1 .rw 0
  | .ACQ_COND_CTRL_TYPE => FieldInfo.mk .acq 0x100 0x20 8 1 3 .rw 0
  | .ACQ_COND_CTRL_ARMBY => FieldInfo.mk .acq 0x100 0x20 8 4 3 .rw 0
  | .ACQ_COND_CTRL_ARMBY_EN => FieldInfo.mk .acq 0x100 0x20 8 7 1 .rw 0
  | .ACQ_COND_CTRL_P0 => FieldInfo.mk .acq 0x100 0x20 8 8 24 .rw 0
  | .ACQ_COND_P1 => FieldInfo.mk .acq 0x108 0x20 8 0 64 .rw 0
  | .ACQ_COND_P2 => FieldInfo.mk .acq 0x110 0x20 8 0 64 .rw 0
  -- R276
  | .ACQ_WINSEL_UNIT => FieldInfo.mk .acqx 0x0 0x0 1 0 4 .rw 0
  -- R57
  | .ENG_QMASK_QUADS => FieldInfo.mk .eng 0x100 0x0 1 0 16 .ro 0
  -- R63
  | .ENG_TIE_GROUP => FieldInfo.mk .eng 0x108 0x0 1 0 6 .rwb 0
  | .ENG_TIE_TIED => FieldInfo.mk .eng 0x108 0x0 1 6 1 .rwb 0
  | .ENG_TIE_SCOPE => FieldInfo.mk .eng 0x108 0x0 1 8 2 .ro 0
  | .ENG_TIE_LATENCY => FieldInfo.mk .eng 0x108 0x0 1 10 8 .ro 0
  -- R120
  | .ENG_STR_BASE_LINE => FieldInfo.mk .eng 0x200 0x0 1 8 30 .rw 0
  | .ENG_STR_LEN_LEN => FieldInfo.mk .eng 0x208 0x0 1 0 38 .rw 0
  | .ENG_STR_CTRL_FORM => FieldInfo.mk .eng 0x210 0x0 1 0 1 .rw 0
  | .ENG_STR_CTRL_MODE => FieldInfo.mk .eng 0x210 0x0 1 1 1 .rw 0
  | .ENG_STR_CTRL_QUADS => FieldInfo.mk .eng 0x210 0x0 1 2 5 .rw 1
  | .ENG_STR_CTRL_LOAD => FieldInfo.mk .eng 0x210 0x0 1 8 1 .wo 0
  | .ENG_STR_CTRL_HOSTFILL => FieldInfo.mk .eng 0x210 0x0 1 9 1 .wo 0
  | .ENG_STR_CTRL_PREFILL => FieldInfo.mk .eng 0x210 0x0 1 16 8 .rw 0x80
  | .ENG_STR_CTRL_PANIC => FieldInfo.mk .eng 0x210 0x0 1 24 8 .rw 0x40
  | .ENG_BOB_STAT_READY => FieldInfo.mk .eng 0x214 0x0 1 0 1 .ro 0
  | .ENG_BOB_STAT_LOADING => FieldInfo.mk .eng 0x214 0x0 1 1 1 .ro 0
  | .ENG_BOB_STAT_WREJ => FieldInfo.mk .eng 0x214 0x0 1 2 1 .w1c 0
  | .ENG_BOB_STAT_LOAD_ERR => FieldInfo.mk .eng 0x214 0x0 1 3 1 .w1c 0
  | .ENG_BOB_STAT_AHEAD => FieldInfo.mk .eng 0x214 0x0 1 4 9 .ro 0
  | .ENG_BOB_STAT_INPANIC => FieldInfo.mk .eng 0x214 0x0 1 13 1 .ro 0
  | .ENG_BOB_MISS_COUNT => FieldInfo.mk .eng 0x218 0x0 1 0 32 .rc 0
  | .ENG_BOB_STALL_COUNT => FieldInfo.mk .eng 0x21C 0x0 1 0 32 .rc 0
  | .ENG_BOB_LSTART_START => FieldInfo.mk .eng 0x220 0x0 1 0 38 .ro 0
  | .ENG_BOB_LEND_END => FieldInfo.mk .eng 0x228 0x0 1 0 38 .ro 0
  | .ENG_BOB_LREM_REM => FieldInfo.mk .eng 0x230 0x0 1 0 32 .ro 0
  | .ENG_BOB_LREM_ACTIVE => FieldInfo.mk .eng 0x230 0x0 1 32 1 .ro 0
  | .ENG_BOB_LREM_HELD => FieldInfo.mk .eng 0x230 0x0 1 33 1 .ro 0
  | .ENG_STR_PPOS_REP => FieldInfo.mk .eng 0x240 0x0 1 0 32 .ro 0
  | .ENG_STR_PPOS_ROW => FieldInfo.mk .eng 0x240 0x0 1 32 8 .ro 0
  | .ENG_URUN_VCNT_VCNT => FieldInfo.mk .eng 0x280 0x0 1 0 48 .ro 0
  | .ENG_URUN_VP_VP => FieldInfo.mk .eng 0x288 0x0 1 0 38 .ro 0
  | .ENG_URUN_LINE_MISS => FieldInfo.mk .eng 0x290 0x0 1 0 1 .ro 0
  | .ENG_URUN_LINE_PANIC => FieldInfo.mk .eng 0x290 0x0 1 1 1 .ro 0
  | .ENG_URUN_LINE_LINE => FieldInfo.mk .eng 0x290 0x0 1 8 30 .ro 0
  | .ENG_URUN_CNT_COUNT => FieldInfo.mk .eng 0x298 0x0 1 0 16 .rc 0
  | .ENG_HEM0_HEM => FieldInfo.mk .eng 0x300 0x0 1 0 32 .rw 0
  | .ENG_HEM1_HEM => FieldInfo.mk .eng 0x304 0x0 1 0 32 .rw 0
  | .ENG_HEM2_HEM => FieldInfo.mk .eng 0x308 0x0 1 0 32 .rw 0
  | .ENG_HEM3_HEM => FieldInfo.mk .eng 0x30C 0x0 1 0 32 .rw 0
  -- R139
  | .ENG_CMP_MASK_MASK => FieldInfo.mk .eng 0x400 0x0 1 0 64 .rwb 0
  | .ENG_CMP_DMASK_DMASK => FieldInfo.mk .eng 0x408 0x0 1 0 64 .ro 0
  -- R148
  | .ENG_RES_STAT_STATE => FieldInfo.mk .eng 0x410 0x0 1 0 2 .ro 3
  | .ENG_RES_STAT_RUNNING => FieldInfo.mk .eng 0x410 0x0 1 2 1 .ro 0
  | .ENG_RES_STAT_LFAIL => FieldInfo.mk .eng 0x410 0x0 1 3 1 .ro 0
  | .ENG_RES_STAT_LOGINC => FieldInfo.mk .eng 0x410 0x0 1 4 1 .ro 0
  | .ENG_RES_STAT_DRIFT => FieldInfo.mk .eng 0x410 0x0 1 5 1 .ro 0
  | .ENG_RES_STAT_PROGFAIL => FieldInfo.mk .eng 0x410 0x0 1 6 1 .ro 0
  | .ENG_RES_STAT_REASON => FieldInfo.mk .eng 0x410 0x0 1 8 8 .ro 0
  | .ENG_RES_BCNT_COUNT => FieldInfo.mk .eng 0x414 0x0 1 0 32 .ro 0
  | .ENG_RES_VCNT_VCNT => FieldInfo.mk .eng 0x418 0x0 1 0 48 .ro 0
  | .ENG_RES_FFV_VCNT => FieldInfo.mk .eng 0x420 0x0 1 0 48 .ro 0
  | .ENG_RES_FFV_VALID => FieldInfo.mk .eng 0x420 0x0 1 48 1 .ro 0
  | .ENG_RES_FFV_TSET => FieldInfo.mk .eng 0x420 0x0 1 49 6 .ro 0
  | .ENG_RES_FFTAG_TAG => FieldInfo.mk .eng 0x428 0x0 1 0 16 .ro 0
  | .ENG_RES_FFPINS_PINS => FieldInfo.mk .eng 0x430 0x0 1 0 64 .ro 0
  | .ENG_RES_PF_FAILED => FieldInfo.mk .eng 0x438 0x0 1 0 64 .ro 0
  | .ENG_RES_FCNT_COUNT => FieldInfo.mk .eng 0x800 0x4 64 0 32 .ro 0
  -- R154
  | .ENG_FLOG_CTRL_EN => FieldInfo.mk .eng 0x500 0x0 1 0 1 .rw 1
  | .ENG_FLOG_CTRL_CAPLOG => FieldInfo.mk .eng 0x500 0x0 1 1 1 .rw 0
  | .ENG_FLOG_CTRL_SPILL => FieldInfo.mk .eng 0x500 0x0 1 2 1 .rw 0
  | .ENG_FLOG_BASE_LINE => FieldInfo.mk .eng 0x508 0x0 1 8 30 .rw 0
  | .ENG_FLOG_SIZE_LINES => FieldInfo.mk .eng 0x510 0x0 1 0 32 .rw 0
  | .ENG_FLOG_WPTR_LINE => FieldInfo.mk .eng 0x518 0x0 1 0 32 .ro 0
  | .ENG_FLOG_RPTR_LINE => FieldInfo.mk .eng 0x51C 0x0 1 0 32 .rw 0
  | .ENG_FLOG_STAT_OCC => FieldInfo.mk .eng 0x520 0x0 1 0 12 .ro 0
  | .ENG_FLOG_STAT_RINGFULL => FieldInfo.mk .eng 0x520 0x0 1 12 1 .ro 0
  | .ENG_FLOG_STAT_WREJ => FieldInfo.mk .eng 0x520 0x0 1 13 1 .w1c 0
  | .ENG_FLOG_STAT_CFGERR => FieldInfo.mk .eng 0x520 0x0 1 14 1 .w1c 0
  | .ENG_FLOG_LOST_COUNT => FieldInfo.mk .eng 0x524 0x0 1 0 32 .rc 0
  | .ENG_FLOG_LIMIT_LIMIT => FieldInfo.mk .eng 0x528 0x0 1 0 32 .rw 0
  | .ENG_FLOG_CNT_COUNT => FieldInfo.mk .eng 0x52C 0x0 1 0 32 .ro 0
  -- R173
  | .ENG_CTRL_START => FieldInfo.mk .eng 0x0 0x0 1 0 1 .wo 0
  | .ENG_CTRL_HALT => FieldInfo.mk .eng 0x0 0x0 1 1 1 .wo 0
  | .ENG_CTRL_RESET => FieldInfo.mk .eng 0x0 0x0 1 2 1 .wo 0
  | .ENG_CTRL_KEY => FieldInfo.mk .eng 0x0 0x0 1 8 8 .wo 0
  | .ENG_STAT_STATE => FieldInfo.mk .eng 0x4 0x0 1 0 3 .ro 0
  | .ENG_STAT_WREJ => FieldInfo.mk .eng 0x4 0x0 1 3 1 .w1c 0
  | .ENG_STAT_ILLSEEN => FieldInfo.mk .eng 0x4 0x0 1 4 1 .w1c 0
  | .ENG_ENTRY_ADDR => FieldInfo.mk .eng 0x8 0x0 1 0 16 .rwb 0
  | .ENG_ENTRY_BANK => FieldInfo.mk .eng 0x8 0x0 1 16 1 .rwb 0
  | .ENG_ENTRY_LEAD => FieldInfo.mk .eng 0x8 0x0 1 24 8 .rwb 0x80
  | .ENG_SREJ_COUNT => FieldInfo.mk .eng 0xC 0x0 1 0 16 .rc 0
  | .ENG_SEWSTART_ARM => FieldInfo.mk .eng 0x10 0x0 1 0 1 .rwb 0
  -- R183
  | .ENG_EV_EN_EN => FieldInfo.mk .eng 0x20 0x0 1 0 16 .rw 0x80
  | .ENG_EV_PEND_PEND => FieldInfo.mk .eng 0x24 0x0 1 0 16 .ro 0
  | .ENG_EV_SET_HOST => FieldInfo.mk .eng 0x28 0x0 1 0 1 .wo 0
  | .ENG_EV_VEC_ADDR => FieldInfo.mk .eng 0x40 0x4 16 0 16 .rw 0
  | .ENG_EV_VEC_VALID => FieldInfo.mk .eng 0x40 0x4 16 16 1 .rw 0
  -- R213
  | .ENG_APG_CTRL_TROWS_M1 => FieldInfo.mk .eng 0x600 0x0 1 0 4 .rw 0
  | .ENG_APG_XMAX_XMAX => FieldInfo.mk .eng 0x608 0x0 1 0 32 .rw 0
  | .ENG_APG_YMAX_YMAX => FieldInfo.mk .eng 0x60C 0x0 1 0 32 .rw 0
  | .ENG_APG_XSCR_XSCR => FieldInfo.mk .eng 0x610 0x0 1 0 32 .rw 0
  | .ENG_APG_YSCR_YSCR => FieldInfo.mk .eng 0x614 0x0 1 0 32 .rw 0
  | .ENG_APG_XDMASK_XDMASK => FieldInfo.mk .eng 0x618 0x0 1 0 32 .rw 0
  | .ENG_APG_YDMASK_YDMASK => FieldInfo.mk .eng 0x61C 0x0 1 0 32 .rw 0
  | .ENG_APG_SEL_SEL => FieldInfo.mk .eng 0x640 0x8 8 0 64 .rw 0x8080808080808080
  -- R227
  | .ENG_TACK_STAT_COUNT => FieldInfo.mk .eng 0x700 0x0 1 0 5 .ro 0
  | .ENG_TACK_STAT_OVF => FieldInfo.mk .eng 0x700 0x0 1 5 1 .w1c 0
  | .ENG_TACK_POP_POP => FieldInfo.mk .eng 0x704 0x0 1 0 1 .wo 0
  | .ENG_TACK_HEAD_RECORD => FieldInfo.mk .eng 0x710 0x0 1 0 128 .ro 0
  -- R251
  | .UCODE_VERSION_MINOR => FieldInfo.mk .eng 0x900 0x0 1 0 8 .ro 3
  | .UCODE_VERSION_MAJOR => FieldInfo.mk .eng 0x900 0x0 1 8 8 .ro 1
  | .UCODE_VERSION_ROM_ID => FieldInfo.mk .eng 0x900 0x0 1 16 16 .ro 0x4E27
  | .ENG_MC_CTRL_CAREFUL => FieldInfo.mk .eng 0x908 0x0 1 0 1 .rw 0
  | .ENG_MC_CTRL_CLRLIST => FieldInfo.mk .eng 0x908 0x0 1 1 1 .wo 0
  | .ENG_MC_STAT_PCNT => FieldInfo.mk .eng 0x910 0x0 1 0 16 .rc 0
  | .ENG_MC_STAT_LISTCNT => FieldInfo.mk .eng 0x910 0x0 1 16 6 .ro 0
  | .ENG_MC_STAT_LISTFULL => FieldInfo.mk .eng 0x910 0x0 1 22 1 .ro 0
  | .ENG_MC_STAT_UE_SEEN => FieldInfo.mk .eng 0x910 0x0 1 23 1 .w1c 0
  | .ENG_MC_STAT_RECOV => FieldInfo.mk .eng 0x910 0x0 1 24 1 .ro 0
  | .ENG_MC_STAT_CAREFUL_NOW => FieldInfo.mk .eng 0x910 0x0 1 25 1 .ro 0
  | .ENG_MC_STAT_IDERR => FieldInfo.mk .eng 0x910 0x0 1 26 1 .ro 0
  | .ENG_MC_SCAN_PASSES => FieldInfo.mk .eng 0x914 0x0 1 0 32 .ro 0
  | .ENG_MC_REC_RECORD => FieldInfo.mk .eng 0x920 0x0 1 0 128 .ro 0
  | .ENG_MC_LIST_ADDR => FieldInfo.mk .eng 0x940 0x4 32 0 12 .ro 0
  | .ENG_MC_LIST_STORE => FieldInfo.mk .eng 0x940 0x4 32 12 1 .ro 0
  | .ENG_MC_LIST_KIND => FieldInfo.mk .eng 0x940 0x4 32 13 1 .ro 0
  | .ENG_MC_LIST_VALID => FieldInfo.mk .eng 0x940 0x4 32 14 1 .ro 0
  | .ENG_MC_LIST_BIT => FieldInfo.mk .eng 0x940 0x4 32 16 9 .ro 0
  -- R421
  | .ENG_MODE_MODE => FieldInfo.mk .eng 0x14 0x0 1 0 3 .ro 0
  -- R469
  | .ENG_CONT_CONT => FieldInfo.mk .eng 0x18 0x0 1 0 1 .rw 0
  -- R164
  | .ENG_G => FieldInfo.mk .eng 0x1000 0x8 32 0 64 .rw 0
  | .ENG_L => FieldInfo.mk .eng 0x1100 0x8 16 0 32 .rw 0
  | .ENG_XA => FieldInfo.mk .eng 0x1180 0x0 1 0 32 .rw 0
  | .ENG_YA => FieldInfo.mk .eng 0x1188 0x0 1 0 32 .rw 0
  | .ENG_DG => FieldInfo.mk .eng 0x1190 0x0 1 0 64 .rw 0
  | .ENG_VP => FieldInfo.mk .eng 0x1198 0x0 1 0 38 .rw 0
  | .ENG_TS => FieldInfo.mk .eng 0x11B0 0x0 1 0 6 .rw 0
  | .ENG_TAG => FieldInfo.mk .eng 0x11B8 0x0 1 0 16 .rw 0
  | .ENG_PROG => FieldInfo.mk .eng 0x11C0 0x8 4 0 64 .rw 0
  | .ENG_EPC => FieldInfo.mk .eng 0x11E0 0x0 1 0 16 .ro 0
  | .ENG_PC_ADDR => FieldInfo.mk .eng 0x11A0 0x0 1 0 16 .ro 0
  | .ENG_PC_BANK => FieldInfo.mk .eng 0x11A0 0x0 1 16 1 .ro 0
  | .ENG_FLAGS_FAIL => FieldInfo.mk .eng 0x11A8 0x0 1 0 1 .ro 0
  | .ENG_FLAGS_MATCH => FieldInfo.mk .eng 0x11A8 0x0 1 1 1 .ro 0
  | .ENG_FLAGS_ZERO => FieldInfo.mk .eng 0x11A8 0x0 1 2 1 .ro 0
  | .ENG_FLAGS_CARRY => FieldInfo.mk .eng 0x11A8 0x0 1 3 1 .ro 0
  | .ENG_FLAGS_EVENT => FieldInfo.mk .eng 0x11A8 0x0 1 4 1 .ro 0
  | .ENG_FLAGS_TFAIL => FieldInfo.mk .eng 0x11A8 0x0 1 5 1 .ro 0
  | .ENG_FLAGS_TMATCH => FieldInfo.mk .eng 0x11A8 0x0 1 6 1 .ro 0
  | .ENG_ESTAT_IE => FieldInfo.mk .eng 0x11E8 0x0 1 0 1 .ro 0
  | .ENG_ESTAT_RESUME => FieldInfo.mk .eng 0x11E8 0x0 1 1 1 .ro 0
  | .ENG_ESTAT_INHANDLER => FieldInfo.mk .eng 0x11E8 0x0 1 2 1 .ro 0
  | .ENG_ESTAT_SZERO => FieldInfo.mk .eng 0x11E8 0x0 1 3 1 .ro 0
  | .ENG_ESTAT_SCARRY => FieldInfo.mk .eng 0x11E8 0x0 1 4 1 .ro 0
  | .ENG_ESTAT_EVNUM => FieldInfo.mk .eng 0x11E8 0x0 1 8 4 .ro 0
  -- R55
  | .PIN_INVALID_CNT_COUNT => FieldInfo.mk .pin 0x40 0x0 1 0 32 .rc 0
  -- R94
  | .PIN_TCTRL_VIOL_ACT => FieldInfo.mk .pin 0x80 0x0 1 0 1 .rw 1
  | .PIN_EDGE_VIOL_COUNT => FieldInfo.mk .pin 0x84 0x0 1 0 16 .rc 0
  | .PIN_EDGE_MERGE_COUNT => FieldInfo.mk .pin 0x88 0x0 1 0 32 .rc 0
  -- R132
  | .PIN_STB_CTRL_MODE => FieldInfo.mk .pin 0xC0 0x0 1 0 1 .rw 0
  -- R162
  | .PIN_EM_CTRL_CMP => FieldInfo.mk .pin 0x100 0x0 1 0 1 .rw 0
  | .PIN_EM_CTRL_EDGE => FieldInfo.mk .pin 0x100 0x0 1 1 2 .rw 0
  | .PIN_EM_CTRL_SPAN => FieldInfo.mk .pin 0x100 0x0 1 3 8 .rw 8
  | .PIN_EM_CTRL_CLR => FieldInfo.mk .pin 0x100 0x0 1 11 1 .wo 0
  | .PIN_EM_CTRL_KEEP => FieldInfo.mk .pin 0x100 0x0 1 12 1 .rw 0
  | .PIN_EM_COUNT_COUNT => FieldInfo.mk .pin 0x104 0x0 1 0 32 .ro 0
  | .PIN_EM_NOEDGE_COUNT => FieldInfo.mk .pin 0x108 0x0 1 0 32 .rc 0
  | .PIN_EM_LAST_TIME => FieldInfo.mk .pin 0x110 0x0 1 0 24 .ro 0
  | .PIN_EM_LAST_VALID => FieldInfo.mk .pin 0x110 0x0 1 24 1 .ro 0
  | .PIN_EM_MIN_TIME => FieldInfo.mk .pin 0x114 0x0 1 0 24 .ro 0xFFFFFF
  | .PIN_EM_MAX_TIME => FieldInfo.mk .pin 0x118 0x0 1 0 24 .ro 0
  | .PIN_EM_SUM_SUM => FieldInfo.mk .pin 0x120 0x0 1 0 56 .ro 0
  -- R438
  | .PIN_CAL_STAT_CALBAD => FieldInfo.mk .pin 0x140 0x0 1 0 1 .ro 0
  | .PIN_CAL_STAT_DRIFT => FieldInfo.mk .pin 0x140 0x0 1 1 1 .ro 0
  | .PIN_CAL_STAT_PTFAIL => FieldInfo.mk .pin 0x140 0x0 1 8 5 .ro 0
  -- R469
  | .PIN_CONT_FAILS => FieldInfo.mk .pin 0x180 0x0 1 0 16 .ro 0
  | .PIN_CONT_RUNS => FieldInfo.mk .pin 0x180 0x0 1 16 16 .ro 0
  | .PIN_CONT_HIST_HIST => FieldInfo.mk .pin 0x188 0x0 1 0 64 .ro 0
  -- R54
  | .FEB_CTRL_EN => FieldInfo.mk .feb 0x3800 0x0 1 0 1 .rw 1
  | .FEB_CTRL_FLUSH => FieldInfo.mk .feb 0x3800 0x0 1 1 1 .wo 0
  | .FEB_STAT_QDEPTH => FieldInfo.mk .feb 0x3804 0x0 1 0 5 .ro 0
  | .FEB_STAT_BUSY => FieldInfo.mk .feb 0x3804 0x0 1 5 1 .ro 0
  | .FEB_STAT_PERR => FieldInfo.mk .feb 0x3804 0x0 1 6 1 .w1c 0
  | .FEB_STAT_OFFREJ => FieldInfo.mk .feb 0x3804 0x0 1 7 1 .w1c 0
  | .FEB_STAT_HDROP => FieldInfo.mk .feb 0x3804 0x0 1 8 8 .rc 0
  | .FEB_HCMD_FRAME => FieldInfo.mk .feb 0x3808 0x0 1 0 32 .wo 0
  | .FEB_HRD_DATA => FieldInfo.mk .feb 0x380C 0x0 1 0 16 .ro 0
  | .FEB_HRD_VALID => FieldInfo.mk .feb 0x380C 0x0 1 16 1 .rc 0
  | .FEB_HRD_ERR => FieldInfo.mk .feb 0x380C 0x0 1 17 1 .ro 0
  -- R56
  | .PIN_QOWN_OWNER => FieldInfo.mk .quad 0x3C00 0x0 1 0 4 .rwb 0
  | .PIN_QOWN_UNOWNED => FieldInfo.mk .quad 0x3C00 0x0 1 4 1 .rwb 0
  | .PIN_QOWN_PENDING => FieldInfo.mk .quad 0x3C00 0x0 1 8 1 .ro 0
  -- R99
  | .FT_CTRL_EN => FieldInfo.mk .ft 0x0 0x0 1 0 1 .rw 0
  | .FT_CTRL_SRC_CH => FieldInfo.mk .ft 0x0 0x0 1 1 9 .rw 0
  | .FT_CTRL_SRC_CMP => FieldInfo.mk .ft 0x0 0x0 1 10 1 .rw 0
  | .FT_CTRL_SRC_EDGE => FieldInfo.mk .ft 0x0 0x0 1 11 1 .rw 0
  | .FT_CTRL_BW => FieldInfo.mk .ft 0x0 0x0 1 12 4 .rw 6
  | .FT_NOM_NOM_KHZ => FieldInfo.mk .ft 0x4 0x0 1 0 22 .rw 0
  | .FT_STAT_LOCKED => FieldInfo.mk .ft 0x8 0x0 1 0 1 .ro 0
  | .FT_STAT_LOST => FieldInfo.mk .ft 0x8 0x0 1 1 1 .w1c 0
  | .FT_STAT_RANGE_ERR => FieldInfo.mk .ft 0x8 0x0 1 2 1 .ro 0
  | .FT_STAT_BUSYREJ => FieldInfo.mk .ft 0x8 0x0 1 3 1 .w1c 0
  | .FT_STAT_IN_USE => FieldInfo.mk .ft 0x8 0x0 1 4 1 .ro 0
  | .FT_LOSS_CNT_COUNT => FieldInfo.mk .ft 0xC 0x0 1 0 16 .rc 0
  | .FT_PERIOD_PERIOD => FieldInfo.mk .ft 0x10 0x0 1 0 32 .ro 0
  | .FT_PHERR_PEAK => FieldInfo.mk .ft 0x14 0x0 1 0 16 .rc 0
  | .FT_LOSS_TS_RECORD => FieldInfo.mk .ft 0x20 0x0 1 0 128 .ro 0
  -- R172
  | .PM_STAT_USERS0 => FieldInfo.mk .pm 0xC00 0x0 1 0 5 .ro 0x10
  | .PM_STAT_USERS1 => FieldInfo.mk .pm 0xC00 0x0 1 5 5 .ro 0
  | .PM_STAT_WR0 => FieldInfo.mk .pm 0xC00 0x0 1 10 1 .ro 0
  | .PM_STAT_WR1 => FieldInfo.mk .pm 0xC00 0x0 1 11 1 .ro 1
  | .PM_STAT_WREJ => FieldInfo.mk .pm 0xC00 0x0 1 16 16 .rc 0

/-- One field of one instance: the field, the block instance `u` and the index `i` inside an indexed register. -/
structure RegKey where
  f : Field
  u : Nat := 0
  i : Nat := 0
  deriving DecidableEq, Repr

/-- Value of a field after power-on reset. PIN_QOWN.OWNER of quad n is n mod 16 (R56). -/
def RegKey.reset (k : RegKey) : Nat :=
  if k.f = .PIN_QOWN_OWNER then k.u % 16 else k.f.info.reset

end Sys2Proof.Machine
end

