-- ==== Sys2Proof/Machine/Map.lean ====
section
/-!
DEFINITION. Sparse tables: a list of key and value pairs read through `get?` and written through `put`.
Registers and the per-unit state of the block are held in them; an absent key reads as its reset value.
-/

namespace Sys2Proof.Machine

/-- A sparse table from keys to values. -/
abbrev AMap (κ α : Type) := List (κ × α)

variable {κ α : Type} [DecidableEq κ]

/-- The entry of key `k`, if one is listed. -/
def AMap.get? : AMap κ α → κ → Option α
  | [], _ => none
  | (a, v) :: m, k => if a = k then some v else AMap.get? m k

/-- Drop key `k`. -/
def AMap.del (m : AMap κ α) (k : κ) : AMap κ α := m.filter (fun p => p.1 ≠ k)

/-- Set key `k` to `v`. -/
def AMap.put (m : AMap κ α) (k : κ) (v : α) : AMap κ α := (k, v) :: m.del k

end Sys2Proof.Machine
end

