-- ==== Sys2Proof/Machine/State.lean ====
section
/-!
DEFINITION. The state of the SU5128 as plain data: the register file of every field the spec's tables give, the
structures the spec gives the units beside their registers, the memories, and the queue of waiting commands.
-/

namespace Sys2Proof.Machine

/-- Why the block would stop with a fault. No meaning of this model raises one: the spec's errors are flags, counters,
records and results in the state, and a command the state gives no occasion for leaves the state as it is (log 1).
Safe: nothing is proved from a stop. -/
inductive Fault where
  /-- Kept for the interface; raised by nobody. Safe. -/
  | none
  deriving DecidableEq, Repr

/-- Why a command would be refused. -/
inductive Refusal where
  /-- A command that has no meaning yet, rejected by name in `exec`. Safe: it proves nothing. -/
  | notModelled (mnemonic : String)
  deriving DecidableEq, Repr

/-! ## Engines (chapters 04 to 08) -/

/-- A pin-aligned action waiting for its anchor row (R198). -/
inductive Pal where
  /-- LVL or LVLI: a FEB write frame on a pin domain -/
  | lvl (pd frame : Nat)
  /-- TACK with m = 0 -/
  | tack (v : Nat)
  /-- TRIG with m = 0 -/
  | trig (line : Nat)
  /-- AWGS -/
  | awgs (g entry : Nat)
  /-- AWGP -/
  | awgp (g : Nat)
  /-- AWGJ -/
  | awgj (g entry : Nat) (granule : Bool)
  /-- DDCF -/
  | ddcf (d ftw : Nat)
  deriving DecidableEq, Repr

/-- A row's period: fixed, or M/N of a follower's tracked period (R74). -/
inductive Per where
  | fixed (ticks : Nat)
  | follow (f m n : Nat)
  deriving DecidableEq, Repr

/-- A vector row in an emission queue: what R197 and R78 give it when it issues. `codes` holds, for each local site
pin, the effective code (HOLD resolved, R111) and the pin-word bit it uses (R112); `edges` each pin's edge entry. -/
structure Row where
  vcnt  : Nat
  tset  : Nat
  tag   : Nat
  word  : Nat
  dmask : Nat
  flog  : Bool
  per   : Per
  codes : List (Nat × Bool)
  edges : List Nat
  acts  : List Pal
  deriving DecidableEq, Repr

/-- Result of one taken strobe of a row (R136, R137, R160). -/
structure PinRes where
  pin    : Nat
  cap    : Bool
  masked : Bool
  fail   : Bool
  cmh    : Bool
  cml    : Bool
  at_    : Nat
  deriving DecidableEq, Repr

/-- A row that has started at the pins and is not yet resolved (R140). `waiting` counts its strobes still to close; `per`
is its period; `caps` the states of the site pins of each 16-pin group at its first CAP strobe (R254). -/
structure OpenRow where
  vcnt    : Nat
  tset    : Nat
  tag     : Nat
  flog    : Bool
  word    : Nat
  waiting : Nat
  started : Nat
  closed  : Nat
  per     : Per
  res     : List PinRes
  caps    : List (Nat × Nat) := []
  deriving DecidableEq, Repr

/-- What becomes branch-visible (R141, R142, R210). -/
inductive FlagKind where
  /-- FCLR: clears FAIL, and MATCH with `m` -/
  | clear (m : Bool)
  /-- a failing unmasked compare -/
  | fail
  /-- row `vcnt` resolved; `m` is its update of MATCH, if it held an unmasked compare -/
  | row (vcnt : Nat) (m : Option Bool)
  deriving DecidableEq, Repr

/-- A flag change on its way to the branches: due instant, whether it is the group's form (TFAIL, TMATCH). -/
structure FlagChg where
  due   : Nat
  group : Bool
  kind  : FlagKind
  deriving DecidableEq, Repr

/-- A branch with its delay region (R179, R202): `left` instructions of the region still to issue. `decided` is known
at issue unless the condition is a result condition; `ref` is the reference row, `tr` its resolving instant. -/
structure Brn where
  cond    : Nat
  target  : Nat
  after   : Nat
  left    : Nat
  ref     : Option Nat
  tr      : Option Nat
  decided : Option Bool
  deriving DecidableEq, Repr

/-- How a burst ends: REASON (0 by program, R149), the tick at which the end reached the pin side, and whether queued
rows still run out (R177) or are discarded (R187). `last` is the last row's vector count where a rule names it. -/
structure Ending where
  reason : Nat
  from_  : Nat
  at_    : Nat
  drain  : Bool
  deriving DecidableEq, Repr

/-- A fault end on its way to a tie partner (R38): when it arrives, and the tick, engine and REASON of the fault. -/
structure TieEnd where
  due    : Nat
  at_    : Nat
  from_  : Nat
  reason : Nat
  deriving DecidableEq, Repr

/-- What a machine-check record says of its word (R252). -/
structure McRec where
  store  : Nat
  addr   : Nat
  kind   : Nat
  bit    : Nat
  listed : Nat
  deriving DecidableEq, Repr

/-- A careful-mode recovery (R245): the device time of its detection in ns, the words read so far, the records of its
first read, whether it has reached a point of R240, the instruction, and whether its burst has posted MC_STALL. -/
structure Recov where
  ns    : Nat
  words : Nat
  recs  : List McRec
  done  : Bool
  pc    : Nat
  stall : Bool
  deriving DecidableEq, Repr

/-- A pending event: the first tick at which it can be taken since it became pending, when it last arose, and from when
that can be taken (R183, R193). -/
structure EvMark where
  k     : Nat
  from_ : Nat
  arose : Nat
  due   : Nat
  deriving DecidableEq, Repr

/-- An instruction that a handler interrupted at a restart point: its address, the generation of device time then, the
tick at which it issued fresh, the rows issued since, and whether a MOV had copied a poisoned word (R190, R212, R221,
R225). -/
structure Held where
  pc    : Nat
  gen   : Nat
  from_ : Nat
  rows  : Nat
  bad   : Bool
  deriving DecidableEq, Repr

/-- What an engine holds beside its registers. `act` is the instruction in progress, `ipc` its address, `upc` the microword
that executes next and `uctr` the micro-counter (R234 to R239); `free` the cycle in which the next word executes;
`atPoint` that the engine stands at a point of R240; `resumed` that ERET resumes the instruction at PC (R185); `ceTo` the
end of a careful read of a listed word, `stallTo` of a stall from a tie partner; `ue` and `idFault` that the engine is
FAULTED once its result posts (R246, R250); `tacks` the tack records with their ticks (R227); `blkBad` that a MOV has copied a poisoned word (R221). -/
structure Eng where
  bank     : Nat := 0
  lead     : Nat := 128
  hem      : List Nat := [0, 0, 0, 0]
  careful  : Bool := false
  cont     : Bool := false
  spill    : Bool := false
  issued   : Nat := 0
  free     : Nat := 0
  act      : Option Nat := none
  ipc      : Nat := 0
  upc      : Nat := 0
  uctr     : Nat := 0
  atPoint  : Bool := false
  resumed  : Bool := false
  held     : List Held := []
  blkBad   : Bool := false
  waitFrom : Nat := 0
  br       : Option Brn := none
  anch     : List Pal := []
  queue    : List Row := []
  next     : Option Rat := none
  tb       : Option (Option Nat) := none
  prev     : List (Nat × Bool) := []
  unres    : List OpenRow := []
  lastRes  : Option (Nat × Nat) := none
  pinFail  : Bool := false
  flagQ    : List FlagChg := []
  gFail    : Bool := false
  gMatch   : Bool := false
  judged   : List (Nat × Bool) := []
  gjudged  : List (Nat × Bool) := []
  dmask    : Nat := 0
  susp     : Bool := false
  mark     : Bool := false
  ending   : Option Ending := none
  hemDone  : Bool := false
  lastEdge : Nat := 0
  recs     : List (Nat × Nat) := []
  fbHead   : Nat := 0
  fbCnt    : Nat := 0
  fbOld    : Nat := 0
  lost     : Option (Nat × Nat) := none
  fbKept   : Option (List (Nat × Nat) × Nat × Nat) := none
  limitHit : Bool := false
  lines    : List (Nat × Nat) := []
  reqs     : List Nat := []
  fetch    : Nat := 0
  miss     : Option Nat := none
  missed   : Bool := false
  missFrom : Nat := 0
  pleat    : Option Nat := none
  pos      : Nat := 0
  pcOver   : Bool := false
  rst      : Bool := false
  urun     : Option Nat := none
  tacks    : List (Nat × Nat) := []
  evFrom   : List EvMark := []
  febDue   : List (Nat × Nat) := []
  palDue   : List (Pal × Nat × Bool) := []
  tieStart : Option Nat := none
  tieEnd   : List TieEnd := []
  tieStall : List (Nat × Nat) := []
  beatPc   : List (Nat × Nat) := []
  beatPer  : List (Nat × Nat) := []
  storeErr : List (Nat × Nat × Nat) := []
  scan     : Nat := 0
  recov    : Option Recov := none
  ceTo     : Nat := 0
  stallTo  : Nat := 0
  ue       : Bool := false
  idFault  : Bool := false
  acqArm   : List Nat := []
  deriving DecidableEq, Repr

/-! ## Pin channels, front-end buses, followers (chapters 02, 03, 05) -/

/-- What an edge does when it fires (R83 to R87). -/
inductive EdgeAct where
  | drv (level : Bool)
  | toggle
  | den (level : Bool)
  | open_ (code : Nat) (bit masked : Bool) (close : Option Nat)
  | close
  deriving DecidableEq, Repr

/-- Where a phase edge on a follower timebase stands (R81): the follower, the edge's phase in DUT cycles, and the
corrections added to its instant (R82). -/
structure DutPhase where
  ft   : Nat
  at_  : Rat
  corr : Int
  deriving DecidableEq, Repr

/-- A scheduled edge: its tick, its generator (0 DRV_A, 1 DRV_B, 2 EN_ON, 3 EN_OFF, 4 STB_OPEN, 5 STB_CLOSE, 6 the SC
edge at offset 0, which generator DRV_B fires), the engine and row that scheduled it, and its phase where the tick moves
with the DUT clock. -/
structure PEdge where
  t    : Nat
  gen  : Nat
  eng  : Nat
  pin  : Nat
  vcnt : Nat
  row0 : Nat
  act  : EdgeAct
  ph   : Option DutPhase := none
  deriving DecidableEq, Repr

/-- A strobe that has opened and not closed (R133, R134, R161). `dev` is the first detected deviating state, `cand` a
deviation still going on and since when, `emT` the first measured edge. -/
structure Strobe where
  eng    : Nat
  pin    : Nat
  vcnt   : Nat
  code   : Nat
  bit    : Bool
  masked : Bool
  opened : Nat
  closes : Nat
  row0   : Nat
  h0     : Bool
  l0     : Bool
  dev    : Option (Bool × Bool)
  cand   : Option (Nat × Bool × Bool)
  base   : Option Bool
  emT    : Option Nat
  deriving DecidableEq, Repr

/-- An edge of one output pair that came due: when, by which generator and row, and whether it was produced (R91). -/
structure NearEdge where
  t    : Nat
  gen  : Nat
  vcnt : Nat
  made : Bool
  deriving DecidableEq, Repr

/-- A comparator change on its way through its deskew (R82): when it arrives, whether on CMH, and the new level. -/
structure CmpChg where
  due   : Nat
  isH   : Bool
  level : Bool
  deriving DecidableEq, Repr

/-- What drives a channel when no burst does, or that a burst does (R43). -/
inductive ChanMode where
  | park
  | hem
  | burst
  deriving DecidableEq, Repr

/-- What a pin channel holds beside its registers. `cmh` and `cml` are the comparator pairs after their deskew, `dly` the
changes on their way there; `nearDrv` and `nearDen` the edges of the last 200 ps, youngest first; `winEnd` the last
scheduled close of a window; `shots` the shots of the present cycle; `late` the pair that changes 250 ps after a hem. -/
structure Chan where
  drv     : Bool := false
  den     : Bool := false
  cmh     : Bool := false
  cml     : Bool := false
  mode    : ChanMode := .park
  window  : Bool := false
  emCmp   : Nat := 0
  emEdge  : Nat := 0
  emSpan  : Nat := 8
  emNext  : Nat := 0x40
  pend    : List PEdge := []
  strobes : List Strobe := []
  dly     : List CmpChg := []
  nearDrv : List NearEdge := []
  nearDen : List NearEdge := []
  winEnd  : Nat := 0
  shots   : List (Nat × Nat) := []
  inv     : Option (Nat × Bool) := none
  late    : Option (Nat × Bool × Bool) := none
  denNext : Bool := false
  deriving DecidableEq, Repr

/-- Who queued a FEB frame (R49): an engine, a step of CALIBRATE, the host. -/
inductive FebSrc where
  | engine (e : Nat)
  | cal (step : Nat)
  | host
  deriving DecidableEq, Repr

/-- A frame in a front-end queue, and the tick at which it entered. -/
structure FebFrame where
  src  : FebSrc
  bits : Nat
  at_  : Nat
  deriving DecidableEq, Repr

/-- A front-end control bus beside its registers: its frame queue, head first, whether the head is in progress, and a read
that is being repeated, which takes no entry (R48, R49). -/
structure Feb where
  queue : List FebFrame := []
  busy  : Bool := false
  retry : Option FebFrame := none
  deriving DecidableEq, Repr

/-- What a follower holds beside its registers: its last qualifying edge, the tracked instant of its last DUT cycle and
that cycle's number, whether its frequency is measured and its phase loop closed (R101), and whether a write has given
it settings to judge (R99). -/
structure Ft where
  edge   : Nat := 0
  ref    : Rat := 0
  cycle  : Nat := 0
  closed : Bool := false
  judged : Bool := false
  deriving DecidableEq, Repr

/-! ## Time and sew (chapter 11) -/

/-- A Sync, or a Pdelay_Resp, whose precise time is still to come in a follow-up (R313): sender, sequence number, the
time of its receipt here, its correction, and for a Pdelay_Resp the peer's receipt time. -/
structure PtpHalf where
  src  : Nat
  seq  : Nat
  at_  : Int
  corr : Int
  peer : Int
  deriving DecidableEq, Repr

/-- Device time beside its registers. `sub` is device time at tick `at_` in units of 10^-12/65,536 ns; `freq` and the
sign and size of `slew` make the rate correction (R308). `past` holds generations and quality codes that were in force
until a tick, newest first (R272). `locked` is 1 on a PTP master, 2 on a Seam server. `coarse` is
what TICKSYNC added to the coarse counter, `resync` that it may correct it after a loss of REFCLK (R316, R319). -/
structure Time where
  sub     : Int := 0
  at_     : Nat := 0
  freq    : Int := 0
  slew    : Int := 0
  gen     : Nat := 0
  delta   : Int := 0
  moved   : Int := 0
  movedAt : List (Nat × Int) := []
  past    : List (Nat × Nat × Nat) := []
  set_    : Bool := false
  disc    : Bool := false
  locked  : Nat := 0
  refLost : Bool := false
  coarse  : Nat := 0
  synced  : Bool := false
  resync  : Bool := false
  server  : Option Nat := none
  lastMsg : Nat := 0
  master  : Option (Nat × List Nat) := none
  lastAnn : Nat := 0
  sync    : Option PtpHalf := none
  pdResp  : Option PtpHalf := none
  last12  : Option (Int × Int) := none
  dreq    : Option (Nat × Int) := none
  pdreq   : Option (Nat × Int) := none
  seq     : Nat := 0
  aux     : Nat := 4 * 2 ^ 24
  deriving DecidableEq, Repr

/-- A basted field that a sew has taken (R324): its group, field, new value and whether it has applied. -/
structure Taken where
  grp     : Nat
  key     : RegKey
  val     : Nat
  applied : Bool
  deriving DecidableEq, Repr

/-- An armed sew (R325): its target in 1/65,536 ns, and whether a Seam-synchronised one has been decided to apply. -/
structure Sew where
  target  : Nat := 0
  decided : Bool := false
  deriving DecidableEq, Repr

/-- A held READY (`veto` false) or veto message (R329). -/
structure SewMsg where
  tag    : Nat
  pos    : Nat
  veto   : Bool
  origin : Nat
  deriving DecidableEq, Repr

/-! ## Acquisition units (chapter 09) -/

/-- A sample: its data, its instant in device time (1/65,536 ns) and in ticks, and whether it counts as lost (R259,
R292). -/
structure AcqSample where
  data : Nat
  t    : Nat
  tick : Rat
  bad  : Bool
  deriving DecidableEq, Repr

/-- A condition met and not yet decided: its slot and its position (R267). -/
structure AcqCond where
  slot : Nat
  t    : Nat
  tick : Rat
  deriving DecidableEq, Repr

/-- A trigger taken: what the header fixes at the trigger, whose generation `gen` its record's times belong to (R272,
R273). -/
structure AcqTrig where
  stamp   : Nat
  gen     : Nat
  cmask   : Nat
  primary : Nat
  pos     : Nat
  missed  : Nat
  fmiss   : Nat
  deriving DecidableEq, Repr

/-- A record being completed: its header words, the numbers of its sample lines not yet spilled, its length in lines,
whether it goes to the ring, and the engine that armed it (R258, R274). -/
structure AcqRec where
  h0    : Nat
  h1    : Nat
  h2    : Nat
  h3    : Nat
  left  : List Nat
  total : Nat
  ring  : Bool
  head  : Bool
  byEng : Option Nat
  deriving DecidableEq, Repr

/-- What a LEVEL slot remembers of its component: the last sample and whether the hysteresis is armed for a rising and
for a falling crossing (R261). -/
structure AcqLevel where
  last  : Option (Int × Nat × Rat)
  below : Bool
  above : Bool
  deriving DecidableEq, Repr

/-- The run of samples that hold of a PIN slot (R262): its first sample's tick, whether it has met the condition, and
since when the states no longer hold. -/
structure AcqRun where
  start : Nat
  met   : Bool
  off   : Option Nat
  deriving DecidableEq, Repr

/-- What an acquisition unit holds beside its registers; `badBlk` that a spilled line held an unreadable word. -/
structure Acq where
  samps   : List AcqSample := []
  post    : List AcqSample := []
  conds   : List AcqCond := []
  since   : Nat := 0
  delay   : Nat := 256
  metBy   : Nat := 0
  levels  : AMap Nat AcqLevel := []
  runs    : AMap Nat AcqRun := []
  targets : AMap Nat Nat := []
  grid    : Rat := 0
  decided : Rat := 0
  trig    : Option AcqTrig := none
  lost    : Bool := false
  badBlk  : Bool := false
  spilled : Nat := 0
  recMiss : Nat := 0
  recFm   : Nat := 0
  taken   : Nat := 0
  seq     : Nat := 0
  byEng   : Option Nat := none
  hold    : Nat := 0
  rcd     : Option AcqRec := none
  deriving DecidableEq, Repr

/-! ## Converter path (chapter 10) -/

/-- What a converter link holds beside its registers: SYSREF edges used for alignment (the LEMC boundary in ticks and
in 1/65,536 ns), octets of each lane not yet in a whole frame, or on transmit in a whole multiblock, and the number of the
next sample (R280 to R283). -/
structure Link where
  tl     : Nat := 0
  tlTick : Nat := 0
  n      : Nat := 0
  left   : List (List (Nat × Bool)) := []
  emb    : Nat := 0
  deriving DecidableEq, Repr

/-- An output sample of a receive chain: I and Q of 24 bits, its instant in 1/65,536 ns and in ticks, its mark. -/
structure DdcOut where
  i    : Int
  q    : Int
  t    : Nat
  tick : Rat
  bad  : Bool
  deriving DecidableEq, Repr

/-- A receive chain beside its registers: the NCO phase and the retunes on their way with their arrivals, the CIC
registers, the half-band and resampler windows, counts of inputs since the enable, the link's number `start` of the first
input sample of an unbroken run and `inN` of the next, the outputs not yet delivered (R285 to R293). -/
structure Ddc where
  phase  : Nat := 0
  ftw    : Nat := 0
  retune : List (Nat × Nat) := []
  integ  : List (Int × Int) := [(0, 0), (0, 0), (0, 0), (0, 0), (0, 0)]
  comb   : List (Int × Int) := [(0, 0), (0, 0), (0, 0), (0, 0), (0, 0)]
  half   : List (List (Int × Int)) := [[], [], [], []]
  halfN  : List Nat := [0, 0, 0, 0]
  rs     : List (Int × Int) := []
  fed    : Nat := 0
  rsIn   : Nat := 0
  outN   : Nat := 0
  start  : Nat := 0
  inN    : Nat := 0
  badIn  : List Nat := []
  outs   : List DdcOut := []
  deriving DecidableEq, Repr

/-- A sequence entry as read from the table (R298). -/
structure AwgEntry where
  line  : Nat
  gran  : Nat
  repM1 : Nat
  next  : Nat
  stop  : Bool
  mark  : Bool
  hc    : Bool
  idle  : Nat
  deriving DecidableEq, Repr

/-- A jump (to an entry, AT_END or AT_GRANULE) or stop request of an AWG (R301). -/
inductive AwgReq where
  | stop
  | jump (entry : Nat) (granule : Bool)
  deriving DecidableEq, Repr

/-- A play on the sequence path: its running number, its entry, which play of the entry it is. -/
structure AwgPlay where
  no    : Nat
  entry : Nat
  ent   : AwgEntry
  play  : Nat
  deriving DecidableEq, Repr

/-- What an AWG holds beside its registers: the plays from the present one to the furthest that refill has reached; the
start on its way (its arrival) or the tick of the present play's sample 0; `sample` the next sample that an underrun is
looked for in, `at_` the next to play, `now` the line in play with its bytes, none where it plays as idle; head cache, stream
lines held (play, line, slot) and the next to fetch; the pending request with its arrival and effect point, and requests that
wait for that point (R299 to R303); `hist` the last samples played, newest first, and `ended` since when the idle value
plays. -/
structure Awg where
  plan   : List AwgPlay := []
  start  : Option Nat := none
  t0     : Rat := 0
  sample : Nat := 0
  at_    : Nat := 0
  now    : Option (Nat × Option (List Nat)) := none
  heads  : List (Nat × AwgEntry) := []
  lines  : List (Nat × Nat × Nat) := []
  fetch  : Option (Nat × Nat) := none
  req    : Option (AwgReq × Nat × Option Rat) := none
  wait   : List AwgReq := []
  idle   : Nat := 0
  count  : Nat := 0
  hist   : List (Int × Int) := []
  ended  : Rat := 0
  deriving DecidableEq, Repr

/-- Entries that are active, with the segment lines they cover (R297, R299). -/
def Awg.active (x : Awg) (complex : Bool) : List (Nat × Nat × Nat) :=
  (x.plan.map (fun p => (p.entry, p.ent)) ++ x.heads).map (fun p =>
    (p.1, p.2.line, if complex then p.2.gran else (p.2.gran + 1) / 2))

/-! ## Seam links (chapter 12) -/

/-- A Seam message (R352, R353): the position of its origin, its hops, and what its class carries. -/
inductive SeamMsg where
  /-- flags of a tie beat: FAIL and MATCH bit i for cycle i, first program address, period -/
  | tie (pos hops grp beat fail match_ pc per : Nat)
  /-- kind 0 START, 1 STALL, 2 END, 3 HOST, 4 TRIG_IN, 5 SEW at a cycle of a beat -/
  | tieEvt (pos hops grp beat cycle kind arg : Nat)
  /-- a trigger on channel STk with its origin time in 1/65,536 ns -/
  | trig (pos hops ch origin gen : Nat)
  /-- READY or veto for a tag; origin time, bits [35:0] in whole ns -/
  | sew (pos hops tag : Nat) (veto : Bool) (origin : Nat)
  /-- the server's device time (1/65,536 ns) at a coarse count, with the correction in 1/256 ns -/
  | time (pos hops srv coarse ns gen qual corr : Nat)
  deriving DecidableEq, Repr

/-- FAIL and MATCH of a tie group's members on another device, or a change of them on its way to the branches (R67,
R353): group, position of the device, due instant. -/
structure FarFlag where
  grp    : Nat
  pos    : Nat
  due    : Nat
  fail   : Bool
  match_ : Bool
  deriving DecidableEq, Repr

/-- A Seam port beside its registers: whether the link-control exchange of R350 has passed, and its multiblock
sequence number. -/
structure SeamPort where
  met : Bool := false
  seq : Nat := 0
  deriving DecidableEq, Repr

/-- A lane beside its registers: CTLE and DFE values at the end of the last window at or above the density threshold,
windows at or above it in a row (R342), and the lowest FOM of the present millisecond (R471). -/
structure Lane where
  good : List Nat := [0, 0, 0, 0, 0, 0]
  run  : Nat := 0
  low  : Option Nat := none
  deriving DecidableEq, Repr

/-! ## DRAM ports (chapter 13) -/

/-- A request in a port's queues or on its way to the devices (R375, R376): its age, how often it was passed. -/
structure DramReq where
  no     : Nat
  src    : DramSrc
  line   : Nat
  write  : Bool
  passed : Nat
  deriving DecidableEq, Repr

/-- A training in progress (R367, R369): its set point, whether FSP1 follows, whether the command port ordered it. -/
structure Train where
  fsp   : Nat
  both  : Bool
  byCmd : Bool
  deriving DecidableEq, Repr

/-- A DRAM port beside its registers: its queues, whether writes drain, the rows open in the devices (bank, row); per
rank the device time at which the refresh debt was 0, and the tick of the last refresh; ranks whose refresh is due and in
an urgent sequence, sources that underran in it; temperature reads without a hot device; write-delay corrections (rank,
group), read-strobe corrections with the reads since each last stepped; promoted background actions; trainings, the
wanted set point, that of the change that runs, a training that waits for it; that zeroing starts at the next READY;
the tick at which the scrub pass began by its schedule (R367 to R382). -/
structure Drc where
  reads   : List DramReq := []
  writes  : List DramReq := []
  flight  : List DramReq := []
  no      : Nat := 0
  drain   : Bool := false
  rows    : AMap Nat Nat := []
  mark    : List Int := [0, 0]
  refAt   : List Nat := [0, 0]
  due     : List Nat := []
  urgent  : List Nat := []
  urun    : List Nat := []
  cool    : Nat := 0
  corr    : AMap (Nat × Nat) Int := []
  rcorr   : AMap (Nat × Nat) (Int × Nat) := []
  promo   : List DramBg := []
  train   : Option Train := none
  retrain : Bool := false
  want    : Option Nat := none
  goes    : Option Nat := none
  wait    : Option Train := none
  zero    : Bool := true
  pass    : Nat := 0
  deriving DecidableEq, Repr

/-! ## Power and resets (chapters 14, 15) -/

/-- What a domain that reads "in transition" is doing (R389, R390). -/
inductive PwrMove where
  | toRet
  | toOff
  | fromRet
  | fromOff
  | reinit
  deriving DecidableEq, Repr

/-- A group request in its prepare phase (R393 to R396): its domains, its target, the domains that refuse with
their codes, and the tick at which it began. -/
structure Prep where
  mask    : Nat
  off     : Bool
  refused : List (Nat × Nat)
  at_     : Nat
  deriving DecidableEq, Repr

/-- The power sequencer beside its registers: wakes queued (in order), inrush costs held, transitions; the request in
prepare, domains of a request that is committing; DOZE entered; bring-up wakes still to be queued (R413); the
tick at which each transition ends (R389), and that of the reference of bring-up. -/
structure Pwr where
  queue  : List Nat := []
  costs  : List (Nat × Nat) := []
  moves  : AMap Nat PwrMove := []
  prep   : Option Prep := none
  commit : List Nat := []
  doze   : Bool := false
  boot   : Bool := true
  woken  : List Nat := []
  ends   : AMap Nat Nat := []
  ref    : Nat := 0
  deriving DecidableEq, Repr

/-! ## Calibration (chapter 16) -/

/-- The values of one timing path of a channel at one temperature (R423, R425): offset, gain, linearity corrections. -/
structure PathCal where
  offset : Int
  gain   : Int
  lin    : List Int
  deriving DecidableEq, Repr

/-- Calibration beside its registers: the last 16 readings of each sensor, newest first; pin domains whose re-trim is
due; the temperature of the values in use on each quad; quads that have still to take the newest values; deskew in use on
each channel and of the selected profile (DRV, DEN, CMH, CML); the values of each channel's eight timing paths in use and
newest computed, none for a channel without valid records (R424 to R431); deskew values that CALIBRATE measured, by
channel and path (DRV, DEN, CMH, CML); phases that its FTC step has collected, and the tick at which it began; calibration frames (step, pin domain, frame) that wait for room in a
front-end queue (R50, R433, R436). -/
structure Cal where
  reads  : AMap Nat (List Int) := []
  due    : List Nat := []
  used   : AMap Nat Int := []
  old    : List Nat := []
  deskew : AMap Nat (List Int) := []
  prof   : AMap Nat (List Int) := []
  vals   : AMap Nat (List PathCal) := []
  newest : AMap Nat (List PathCal) := []
  meas   : AMap (Nat × Nat) Int := []
  ftc    : List Nat := []
  ftcAt  : Nat := 0
  wait   : List (Nat × Nat × Nat) := []
  deriving DecidableEq, Repr

/-! ## Security (chapter 17) -/

/-- An import slot's key (R439): AES content key, signer public key, MINVER. -/
structure ImpKey where
  key    : Nat
  signer : Nat
  minver : Nat
  deriving DecidableEq, Repr

/-- An unseal in progress (R445). -/
structure Unseal where
  src    : Nat
  dst    : Nat
  region : Nat
  deriving DecidableEq, Repr

/-- The thimble beside its registers: the DRAM key (two AES-256 keys) and its standby (R439, R440), import slots, alarm
sources that are active, an unseal in progress, freed regions whose lines are still to be zeroed, whether the storage key
is held (bring-up's integrity check derives it, R413), and the last cycle in which an alarm acted at ALARM_ERASE or above,
with its level (R456); the tick at which TRY was blocked (R459). -/
structure Thimble where
  dramKey : Nat := 0
  standby : Nat := 0
  slots  : AMap Nat ImpKey := []
  active : List Nat := []
  uns    : Option Unseal := none
  freed  : List Nat := []
  storage : Bool := false
  last   : Option (Nat × Nat) := none
  blockAt : Nat := 0
  deriving DecidableEq, Repr

/-! ## Contactor, command port, DMA, JTAG (chapters 18, 19) -/

/-- The contactor port beside its registers: the SERIAL last verified, the last counted TD_IN edge, and whether a
verification is ordered (R463, R464). -/
structure Ctr where
  serial : Option Nat := none
  due    : Bool := true
  edge   : Option Nat := none
  deriving DecidableEq, Repr

/-- A command that runs (R485): its arguments, and its end once it is known (code and results). -/
structure CmdRun where
  op   : Nat
  args : List Nat
  done : Option (Nat × List Nat)
  deriving DecidableEq, Repr

/-- A DMA descriptor in progress (R479). -/
structure Dma where
  haddr : Nat
  daddr : Nat
  len   : Nat
  ctrl  : Nat
  deriving DecidableEq, Repr

/-- The TAP: the boundary-test instruction loaded, and what the next Capture-DR of DEBUG_REG gives: read data and
whether the access was refused (R491 to R493). -/
structure Tap where
  test    : Option BoundaryTest := none
  data    : Nat := 0
  refused : Bool := false
  deriving DecidableEq, Repr


/-! ## The block -/

/-- An entry of the device event log (R484): the 256 bits of its layout. -/
structure LogEntry where
  stamp   : Nat
  block   : Nat
  kind    : Nat
  unit    : Nat
  payload : Nat
  deriving DecidableEq, Repr

/-- What left the block, oldest first. -/
inductive Out where
  /-- an MSI-X message of a vector (R477) -/
  | msix (vector : Nat)
  /-- a frame begins on front-end bus `pd` (R46) -/
  | feb (pd frame : Nat)
  /-- a Seam message leaves on a port (R352) -/
  | seam (port : Nat) (m : SeamMsg)
  /-- a PTP message leaves on an Ethernet port: kind (R313), sequence number, its time field and correction -/
  | ptp (port kind seq : Nat) (time corr : Int)
  /-- a link-control block leaves on a Seam port: sequence, domain, position, device number, the receive FOM of each lane (R348) -/
  | seamLcb (port seq domain pos dev : Nat) (foms : List Nat)
  /-- the port's devices get an all-bank refresh, or ZQ calibration, on a rank -/
  | refresh (port rank : Nat)
  | zq (port rank : Nat)
  /-- read data of a DRAM request reach their source: 256 bytes and the poison of each word (R29) -/
  | dramData (port : Nat) (src : DramSrc) (line : Nat) (data : List Nat) (bad : List Bool)
  /-- a host read completes: bytes, and whether the completion carries data poisoning -/
  | host (data : List Nat) (poisoned : Bool)
  /-- a DMA write reaches host memory -/
  | dma (addr : Nat) (data : List Nat) (poisoned : Bool)
  /-- bytes an SMBus command returns; none where the target does not acknowledge -/
  | smb (data : Option (List Nat))
  /-- a multiblock leaves on a transmit link: the 256 octets of each of its lanes, with their CRC-12 (R278) -/
  | cnv (link : Nat) (lanes : List (List Nat × Nat))
  /-- the touchdown increment is written to the contactor (R464) -/
  | ctrWrite
  deriving DecidableEq, Repr

/-- Everything the block holds but its memory bytes and its queue of commands. -/
structure Dev where
  /-- the register file; an unlisted field holds its reset value -/
  regs   : AMap RegKey Nat := []
  /-- basted copies of RWB fields (R9) and their dirty marks (R324) -/
  basted : AMap RegKey Nat := []
  dirty  : List RegKey := []
  /-- fields taken by sews that are not yet APPLIED (R327) -/
  taken  : List Taken := []
  /-- now, in ticks of 0.25 ps since power-on (R5) -/
  tick   : Nat := 0
  /-- uses of the free values so far (log 2) -/
  free   : Nat := 0
  time   : Time := {}
  log    : List LogEntry := []
  out    : List Out := []
  /-- MSI-X: table words, pending bits, enable and function mask of the PCIe capability -/
  msix   : AMap Nat Nat := []
  pba    : List Nat := []
  msixEn : Bool := false
  msixFn : Bool := false
  /-- 16-byte words that carry the poison marker, and error patterns (symbol, bits) of stored words (R23) -/
  poison : List Nat := []
  errs   : AMap Nat (List (Nat × Nat)) := []
  engs   : AMap Nat Eng := []
  /-- the engine of each cluster whose fail buffer spilled a line last (R158) -/
  flTurn : AMap Nat Nat := []
  chans  : AMap Nat Chan := []
  febs   : AMap Nat Feb := []
  fts    : AMap Nat Ft := []
  sewMsg : List SewMsg := []
  sews   : AMap Nat Sew := []
  /-- an accepted mode change: its group, the new mode, the engines that have still to apply it (R419) -/
  modeChg : Option (Nat × Nat × List Nat) := none
  /-- flags of the members of tie groups on other devices (R64, R67), and changes of them on their way (R353) -/
  far    : List FarFlag := []
  farQ   : List FarFlag := []
  /-- calibration reads that ended on a front-end bus: step, domain and data, none for two parity failures (R48) -/
  calRead : List (Nat × Nat × Option Nat) := []
  acqs   : AMap Nat Acq := []
  links  : AMap Nat Link := []
  ddcs   : AMap Nat Ddc := []
  awgs   : AMap Nat Awg := []
  /-- write-ahead tables of R383: port and 4 KiB block -/
  ahead  : List (Nat × Nat) := []
  /-- Seam: messages waiting per port with the tick of their arrival there, messages recognised as seen (R354), received
  tie traffic with the tick at which it applies (R353) -/
  seamQ  : AMap Nat (List (Nat × SeamMsg)) := []
  seen   : List (Nat × SeamMsg) := []
  tieIn  : List (Nat × SeamMsg) := []
  /-- TIE messages heard from other devices: group, position, beat, tick (R357) -/
  tieGot : List (Nat × Nat × Nat × Nat) := []
  /-- Ethernet ports that run at 10GBASE-R (R339) -/
  ethSlow : List Nat := []
  /-- whether an Ethernet port has reached block lock at its rate, and since when it tries that rate or is down (R339) -/
  ethAt  : AMap Nat (Bool × Nat) := []
  ports  : AMap Nat SeamPort := []
  /-- positions from which a message has come, and when (R362) -/
  heard  : AMap Nat Nat := []
  lanes  : AMap Nat Lane := []
  drcs   : AMap Nat Drc := []
  pwr    : Pwr := {}
  /-- domains that quiesce in a prepare phase (R394) -/
  quies  : List Nat := []
  /-- values a sew left for a unit in retention (R412) -/
  kept   : List (RegKey × Nat) := []
  /-- the unlock window of R408: the tick at which it closes -/
  rstWin : Option Nat := none
  cal    : Cal := {}
  thim   : Thimble := {}
  ctr    : Ctr := {}
  cmd    : Option CmdRun := none
  dmas   : AMap Nat Dma := []
  tap    : Tap := {}
  /-- corrected code words since the last telemetry sample, per port (R471) -/
  telCe  : List Nat := [0, 0]
  deriving DecidableEq, Repr

/-- The block: what it holds, its memory bytes in canonical form (addresses rising, no zero byte), and the commands
waiting, first in first out. -/
structure State where
  pending : List Instr
  mem     : List Host.Cell
  dev     : Dev
  deriving DecidableEq, Repr

/-- The block right after power-on reset (R407): every register at its reset value, every memory zero. -/
def State.reset : State := { pending := [], mem := [], dev := {} }


end Sys2Proof.Machine
end

