-- ==== Sys2Proof/Machine/Ops.lean ====
section
/-!
DEFINITION. The named operations on registers, memory, device time, the event log and the interrupt vectors.
-/

namespace Sys2Proof.Machine

/-! ## Bits and bytes -/

/-- Bits `[lsb + w - 1 : lsb]` of `n`. -/
def bitsOf (n lsb w : Nat) : Nat := n / 2 ^ lsb % 2 ^ w

/-- `n` with bits `[lsb + w - 1 : lsb]` replaced by `v`. -/
def setBits (n lsb w v : Nat) : Nat :=
  n - bitsOf n lsb w * 2 ^ lsb + v % 2 ^ w * 2 ^ lsb

/-- Bit `k` of `n`. -/
def bitOf (n k : Nat) : Bool := n / 2 ^ k % 2 == 1

/-- A Bool as a bit. -/
def b2n (b : Bool) : Nat := if b then 1 else 0

/-- The signed value of a `w`-bit field. -/
def signed (w n : Nat) : Int := if n % 2 ^ w < 2 ^ (w - 1) then (n % 2 ^ w : Nat) else (n % 2 ^ w : Nat) - (2 ^ w : Nat)

/-- A signed value as a `w`-bit field. -/
def unsigned (w : Nat) (i : Int) : Nat := (i % (2 ^ w : Nat)).toNat

/-- The number whose little-endian bytes are `l` (R8). -/
def leNat : List Nat → Nat
  | [] => 0
  | b :: l => b % 256 + 256 * leNat l

/-- The `k` little-endian bytes of `n` (R8). -/
def leBytes : Nat → Nat → List Nat
  | 0, _ => []
  | k + 1, n => n % 256 :: leBytes k (n / 256)

/-- XOR of the bits of the low `w` bits of `n` (even parity bit). -/
def parityOf : Nat → Nat → Nat
  | 0, _ => 0
  | w + 1, n => (n % 2 + parityOf w (n / 2)) % 2

/-- `a / b` rounded up. -/
def ceilDiv (a b : Nat) : Nat := (a + b - 1) / b

/-! ## Registers -/

/-- The stored value of a field. -/
def Dev.key (d : Dev) (k : RegKey) : Nat := (d.regs.get? k).getD k.reset

/-- Field `f` of instance `u`. -/
def Dev.rg (d : Dev) (f : Field) (u : Nat) : Nat := d.key ⟨f, u, 0⟩

/-- Field `f` of instance `u`, index `i`. -/
def Dev.rgi (d : Dev) (f : Field) (u i : Nat) : Nat := d.key ⟨f, u, i⟩

/-- Store into a field, keeping its width. -/
def Dev.setKey (d : Dev) (k : RegKey) (v : Nat) : Dev :=
  { d with regs := d.regs.put k (v % 2 ^ k.f.info.width) }

def Dev.st (d : Dev) (f : Field) (u v : Nat) : Dev := d.setKey ⟨f, u, 0⟩ v

def Dev.sti (d : Dev) (f : Field) (u i v : Nat) : Dev := d.setKey ⟨f, u, i⟩ v

/-- Add to a saturating counter. -/
def Dev.bump (d : Dev) (f : Field) (u n : Nat) : Dev :=
  d.st f u (min (d.rg f u + n) (2 ^ f.info.width - 1))

/-- Add to a saturating indexed counter. -/
def Dev.bumpi (d : Dev) (f : Field) (u i n : Nat) : Dev :=
  d.sti f u i (min (d.rgi f u i + n) (2 ^ f.info.width - 1))

/-- Whether a one-bit field reads 1. -/
def Dev.on (d : Dev) (f : Field) (u : Nat) : Bool := d.rg f u == 1

/-- The field as the hardware acts on it: a value a sew has applied to its unit counts before the sew reads APPLIED
(R327). -/
def Dev.eff (d : Dev) (f : Field) (u : Nat) : Nat :=
  match d.taken.find? (fun t => t.key == ⟨f, u, 0⟩ && t.applied) with
  | some t => t.val
  | none => d.rg f u

/-- Take the next free value (log 2). -/
def Dev.freeBit (d : Dev) : Bool × Dev := (Config.freeBit d.free, { d with free := d.free + 1 })

def Dev.freeNat (d : Dev) : Nat × Dev := (Config.freeNat d.free, { d with free := d.free + 1 })

/-! ## Per-unit state -/

def Dev.eng (d : Dev) (e : Nat) : Eng := (d.engs.get? e).getD {}
def Dev.setEng (d : Dev) (e : Nat) (x : Eng) : Dev := { d with engs := d.engs.put e x }
def Dev.modEng (d : Dev) (e : Nat) (g : Eng → Eng) : Dev := d.setEng e (g (d.eng e))
def Dev.chan (d : Dev) (c : Nat) : Chan := (d.chans.get? c).getD {}
def Dev.setChan (d : Dev) (c : Nat) (x : Chan) : Dev := { d with chans := d.chans.put c x }
def Dev.modChan (d : Dev) (c : Nat) (g : Chan → Chan) : Dev := d.setChan c (g (d.chan c))
def Dev.feb (d : Dev) (k : Nat) : Feb := (d.febs.get? k).getD {}
def Dev.setFeb (d : Dev) (k : Nat) (x : Feb) : Dev := { d with febs := d.febs.put k x }
def Dev.acq (d : Dev) (u : Nat) : Acq := (d.acqs.get? u).getD {}
def Dev.setAcq (d : Dev) (u : Nat) (x : Acq) : Dev := { d with acqs := d.acqs.put u x }
def Dev.modAcq (d : Dev) (u : Nat) (g : Acq → Acq) : Dev := d.setAcq u (g (d.acq u))
def Dev.link (d : Dev) (r : Nat) : Link := (d.links.get? r).getD {}
def Dev.setLink (d : Dev) (r : Nat) (x : Link) : Dev := { d with links := d.links.put r x }
def Dev.ddc (d : Dev) (u : Nat) : Ddc := (d.ddcs.get? u).getD {}
def Dev.setDdc (d : Dev) (u : Nat) (x : Ddc) : Dev := { d with ddcs := d.ddcs.put u x }
def Dev.modDdc (d : Dev) (u : Nat) (g : Ddc → Ddc) : Dev := d.setDdc u (g (d.ddc u))
def Dev.awg (d : Dev) (g : Nat) : Awg := (d.awgs.get? g).getD {}
def Dev.setAwg (d : Dev) (g : Nat) (x : Awg) : Dev := { d with awgs := d.awgs.put g x }
def Dev.modAwg (d : Dev) (g : Nat) (h : Awg → Awg) : Dev := d.setAwg g (h (d.awg g))
def Dev.ft (d : Dev) (f : Nat) : Ft := (d.fts.get? f).getD {}
def Dev.setFt (d : Dev) (f : Nat) (x : Ft) : Dev := { d with fts := d.fts.put f x }
def Dev.emit (d : Dev) (o : Out) : Dev := { d with out := d.out ++ [o] }

/-! ## Time -/

/-- Ticks of an engine cycle (R5, R19). -/
def cyc : Nat := 4000

/-- Device time is kept in units of 10^-12 of 1/65,536 ns (R308). -/
def subUnit : Int := 1000000000000

/-- The largest slew, 500 ppm (R308), in the units of `Time.sub` per engine cycle. -/
def slewStep : Int := 65536 * 500000000

/-- Device time `n` cycles later in units of `Time.sub`, and the slew then left (R308). -/
def Time.after (t : Time) (n : Nat) : Int × Int :=
  let base := (n : Int) * 65536 * (subUnit + t.freq)
  let whole := t.slew * subUnit
  let cap := (n : Int) * slewStep
  let part := if whole.natAbs ≤ cap.natAbs then whole else if t.slew < 0 then -cap else cap
  (t.sub + base + part, (whole - part) / subUnit)

/-- Device time at tick `k`, in 1/65,536 ns. Within a cycle it runs on evenly; before the last advance it is reckoned
back at the present rate. -/
def Time.frac (t : Time) (k : Nat) : Int :=
  if k < t.at_ then (t.sub - ((t.at_ - k : Nat) : Int) * 65536 * (subUnit + t.freq) / cyc) / subUnit
  else
    let n := (k - t.at_) / cyc
    let r := (k - t.at_) % cyc
    ((t.after n).1 + (r : Int) * 65536 * (subUnit + t.freq) / cyc) / subUnit

/-- Move the clock to the start of tick `k`; never backwards. -/
def Dev.advanceTo (d : Dev) (k : Nat) : Dev :=
  if d.tick < k then
    let n := (k - d.time.at_) / cyc
    let p := d.time.after n
    { d with tick := k,
             time := { d.time with sub := p.1, slew := p.2, at_ := d.time.at_ + n * cyc } }
  else d

/-- Engine cycles after `t.at_` until device time reaches `target` (1/65,536 ns), at the rate and slew now (R308). -/
def Time.cyclesTo (t : Time) (target : Nat) : Nat :=
  let need : Int := (target : Int) * subUnit - t.sub
  let base := 65536 * (subUnit + t.freq)
  let whole := t.slew * subUnit
  if need ≤ 0 then 0
  else
    let n := ((need - whole + base - 1) / base).toNat
    if whole.natAbs ≤ ((n : Int) * slewStep).natAbs then n
    else
      let r := if t.slew < 0 then base - slewStep else base + slewStep
      ((need + r - 1) / r).toNat

/-- The tick of the cycle in which device time reaches `t` (1/65,536 ns). -/
def Dev.tickOfFrac (d : Dev) (t : Nat) : Nat := d.time.at_ + d.time.cyclesTo t * cyc

/-- The tick of the cycle in which device time reaches `ns`. -/
def Dev.tickOfNs (d : Dev) (ns : Nat) : Nat := d.tickOfFrac (ns * 65536)

/-- Start of the engine cycle that holds tick `k` (R19). -/
def cycleOf (k : Nat) : Nat := k / cyc * cyc

/-- The first engine cycle that starts at or after tick `k`. -/
def nextCycle (k : Nat) : Nat := ceilDiv k cyc * cyc

/-- The quality code (R309). -/
def Time.quality (t : Time) : Nat :=
  if !t.set_ then 4
  else if t.disc then 5
  else if t.refLost then 3
  else if t.locked == 1 then 1
  else if t.locked == 2 then 0
  else 2

def Dev.quality (d : Dev) : Nat := d.time.quality

/-- Change device time's settings at tick `k`; a generation or quality that ends then is remembered (R272). -/
def Time.change (t : Time) (k : Nat) (g : Time → Time) : Time :=
  let n := g t
  if n.gen = t.gen ∧ n.quality = t.quality then n else { n with past := (k, t.gen, t.quality) :: t.past.take 15 }

/-- Generation and quality in force at tick `k`. -/
def Time.inForce (t : Time) (k : Rat) : Nat × Nat :=
  t.past.foldl (fun a p => if k < (p.1 : Rat) then p.2 else a) (t.gen, t.quality)

/-- What re-bases have added to device time up to generation `g` (R321). -/
def Time.movedTo (t : Time) (g : Nat) : Int := ((t.movedAt.find? (fun p => p.1 == g)).map (·.2)).getD 0

/-- Device time at tick `k` as the 80-bit count of R306. -/
def Dev.timeAt (d : Dev) (k : Nat) : Nat := unsigned 80 (d.time.frac k)

/-- The tick at which device time was, or at the nominal rate will be, `t` (1/65,536 ns). -/
def Dev.tickAt (d : Dev) (t : Nat) : Rat :=
  (d.tick : Rat) + ((t : Rat) - (unsigned 80 (d.time.frac d.tick) : Nat)) * cyc / 65536

/-- Device time now, in 1/65,536 ns, as the 80-bit count of R306. -/
def Dev.nowFrac (d : Dev) : Nat := unsigned 80 (d.time.frac d.tick)

/-- Device time now in whole nanoseconds. -/
def Dev.nowNs (d : Dev) : Nat := d.nowFrac / 65536

/-- The time-stamp record of device time `t` (1/65,536 ns) with source-specific bits `src` from bit 102 (R272, R307,
R309). -/
def Dev.stampOf (d : Dev) (t : Nat) (src : Nat) : Nat :=
  t % 2 ^ 80 + d.time.gen * 2 ^ 80 + d.quality * 2 ^ 88 + d.rg .TIME_DEVNUM_NUM 0 * 2 ^ 92 + src * 2 ^ 102

/-- A device time of the generation in force now, as generation `g` gives it. -/
def Dev.inGen (d : Dev) (g t : Nat) : Nat :=
  if g = d.time.gen then t else unsigned 80 ((t : Int) - (d.time.movedTo d.time.gen - d.time.movedTo g))

/-- A device time of generation `g`, as the generation in force now gives it. -/
def Dev.fromGen (d : Dev) (g t : Nat) : Nat :=
  if g = d.time.gen then t else unsigned 80 ((t : Int) + (d.time.movedTo d.time.gen - d.time.movedTo g))

/-- The time-stamp record of device time `t` at tick `k`, in the generation and with the quality in force then (R272). -/
def Dev.stampThen (d : Dev) (t : Nat) (k : Rat) (src : Nat) : Nat :=
  let q := d.time.inForce k
  d.inGen q.1 t % 2 ^ 80 + q.1 * 2 ^ 80 + q.2 * 2 ^ 88 + d.rg .TIME_DEVNUM_NUM 0 * 2 ^ 92 + src * 2 ^ 102

/-- The time-stamp record of tick `k`. -/
def Dev.stampAt (d : Dev) (k : Nat) (src : Nat) : Nat := d.stampOf (unsigned 80 (d.time.frac k)) src

/-- Device time at tick `k` in whole nanoseconds. -/
def Dev.nsAt (d : Dev) (k : Nat) : Nat := unsigned 80 (d.time.frac k) / 65536

/-- The time-stamp record of now. -/
def Dev.stamp (d : Dev) (src : Nat) : Nat := d.stampAt d.tick src

/-! ## Interrupts and the event log -/

/-- Whether a vector's message may go out (R477): MSI-X enabled, function not masked, vector control bit 0 clear. The
table resets to every vector masked, as PCIe Base 5.0 provides. -/
def Dev.msixOpen (d : Dev) (v : Nat) : Bool :=
  d.msixEn && !d.msixFn && ((d.msix.get? (4 * v + 3)).getD 1) % 2 == 0

/-- Send a vector's message, or record it as pending (R477). -/
def Dev.send (d : Dev) (v : Nat) : Dev :=
  if d.msixOpen v then d.emit (.msix v)
  else { d with pba := v :: d.pba.filter (· ≠ v) }

/-- A cause of vector `v` (R477): its bit is set; a change from 0 to 1 sends one message. -/
def Dev.irq (d : Dev) (v : Nat) : Dev :=
  let w := d.rg .HOST_IRQ_STAT_PEND 0
  if bitOf w v then d else (d.st .HOST_IRQ_STAT_PEND 0 (w + 2 ^ v)).send v

/-- Write an event-log entry, stamped now (R484). When the log leaves empty, or OVF changes to 1, vector 202 is raised
(R476). -/
def Dev.logStamped (d : Dev) (stamp block kind unit payload : Nat) : Dev :=
  let n : LogEntry := { stamp := stamp, block := block, kind := kind, unit := unit, payload := payload % 2 ^ 96 }
  if d.log.length < 1024 then
    let d' := { d with log := d.log ++ [n] }
    if d.log.isEmpty then d'.irq 202 else d'
  else
    let d' := { d with log := d.log.drop 1 ++ [n] }.st .HOST_LOG_STAT_OVF 0 1
    if d.on .HOST_LOG_STAT_OVF 0 then d' else d'.irq 202

def Dev.logEv (d : Dev) (block kind unit payload : Nat) : Dev :=
  d.logStamped (d.stamp 0) block kind unit payload

/-- The 256 bits of an entry as HOST_LOG_HEAD shows them (R484). -/
def LogEntry.bits (n : LogEntry) : Nat :=
  n.stamp % 2 ^ 128 + n.block % 256 * 2 ^ 128 + n.kind % 256 * 2 ^ 136 + n.unit % 65536 * 2 ^ 144
    + n.payload % 2 ^ 96 * 2 ^ 160

/-! ## Memory -/

/-- The byte at address `a`; an unlisted address reads 0 (SRAM and DRAM are zeroed, R412, R382). -/
def memGet : List Host.Cell → Nat → Nat
  | [], _ => 0
  | (b, v) :: m, a => if b = a then v.toNat else if a < b then 0 else memGet m a

/-- Write the byte `v` at address `a`, keeping addresses rising and zero bytes unlisted. -/
def memPut : List Host.Cell → Nat → Byte → List Host.Cell
  | [], a, v => if v = 0 then [] else [(a, v)]
  | (b, w) :: m, a, v =>
    if a < b then (if v = 0 then (b, w) :: m else (a, v) :: (b, w) :: m)
    else if a = b then (if v = 0 then m else (a, v) :: m)
    else (b, w) :: memPut m a v

/-- Addresses above `lo` rise strictly and no byte is 0. -/
def memWfFrom : Option Nat → List Host.Cell → Bool
  | _, [] => true
  | lo, (a, v) :: m => (match lo with | none => true | some l => decide (l < a)) && v != 0 && memWfFrom (some a) m

/-- The canonical form of memory. -/
def memWf (m : List Host.Cell) : Bool := memWfFrom none m

/-- Read `n` bytes from `a`. -/
def memRead (m : List Host.Cell) (a : Nat) : Nat → List Nat
  | 0 => []
  | n + 1 => memGet m a :: memRead m (a + 1) n

/-- Write bytes from `a` on. -/
def memWrite (m : List Host.Cell) (a : Nat) : List Nat → List Host.Cell
  | [] => m
  | b :: l => memWrite (memPut m a (BitVec.ofNat 8 b)) (a + 1) l

/-- Where the model keeps DRAM: byte address `x` of R365's space lies at `dramBase + x`. The windows of BAR0 lie at
their BAR0 addresses below it (log 6). -/
def dramBase : Nat := 2 ^ 40

/-- Capture memory of acquisition unit `u` (R253). -/
def acqMem (u : Nat) : Nat := 2 ^ 42 + u * 2 ^ 18

/-- Refill buffer of AWG `g` (R303). -/
def awgMem (g : Nat) : Nat := 2 ^ 43 + g * 2 ^ 18

/-- Emission queue of engine `e` (R31): row slot r of 256 at 32 bytes each. -/
def eqMem (e : Nat) : Nat := 2 ^ 44 + e * 8192

/-- The calibration store (R422). -/
def nvmBase : Nat := 2 ^ 45

/-- The SMBus path's own snapshot buffer (R483). -/
def smbSnap : Nat := 2 ^ 46

/-- Base of engine `e`'s bobbin window (R123). -/
def bobMem (e : Nat) : Nat := 0x1800000 + 0x10000 * e

/-- The program word at address `a` of bank `b` in cluster `c` (R170). -/
def progMem (c b a : Nat) : Nat := 0x3000000 + 0x100000 * c + 0x80000 * b + 8 * a

/-- Edge entry of channel `c`, set `s` (R76). -/
def edgeMem (c s : Nat) : Nat := 0x2800000 + (64 * c + s) * 16

/-- Period entry of engine `e`, set `s` (R74). -/
def perMem (e s : Nat) : Nat := 0x2900000 + (64 * e + s) * 8

/-! ## Steps over the parts of the state -/

/-- Act on the block's registers and units; memory bytes and the queue stay. -/
def State.onDev (s : State) (g : Dev → Dev) : State := { s with dev := g s.dev }

/-- Do `g` for each of the numbers 0 to n − 1, in ascending order. -/
def Dev.forUnits (d : Dev) : Nat → (Dev → Nat → Dev) → Dev
  | 0, _ => d
  | n + 1, g => g (d.forUnits n g) n

/-- A command's whole answer: the next state. -/
abbrev Answer := Host.Outcome State Fault Refusal

end Sys2Proof.Machine
end

