-- ==== Sys2Proof/Machine/Ecc.lean ====
section
/-!
DEFINITION. The (144,128) code over the coded memories: what a consumer gets from a stored word and the report it
writes (R23 to R27), writes and their read-modify-write merge (R24), and the DRAM line addressing of R364, R365.
-/

namespace Sys2Proof.Machine

/-! ## DRAM geometry -/

/-- Lines per rank of port `p` (R364): 2^27, 2^28 or 2^29. -/
def Dev.rankLines (d : Dev) (p : Nat) : Nat :=
  match d.rg .DRC_CFG_DENS p with
  | 0 => 2 ^ 27
  | 1 => 2 ^ 28
  | 2 => 2 ^ 29
  | _ => 0

/-- Lines of port `p`; an absent port has none (R365). -/
def Dev.portLines (d : Dev) (p : Nat) : Nat :=
  if d.on .DRC_CFG_POP p then d.rankLines p * (d.rg .DRC_CFG_RANKS p + 1) else 0

/-- Port and port-local index of system line `l`, or none beyond the installed lines (R365). INTLV is taken from port
A (log 12). -/
def Dev.lineAt (d : Dev) (l : Nat) : Option (Nat × Nat) :=
  if d.on .DRC_CFG_INTLV 0 then
    let p := l / 16 % 2
    let q := l / 32 * 16 + l % 16
    if q < d.portLines p then some (p, q) else none
  else if l < d.portLines 0 then some (0, l)
  else if l < d.portLines 0 + d.portLines 1 then some (1, l - d.portLines 0)
  else none

/-- Whether the line of DRAM byte address `x` is installed. -/
def Dev.installed (d : Dev) (x : Nat) : Bool := (d.lineAt (x / 256)).isSome

/-- The port that holds DRAM byte address `x`; port A beyond the installed lines. -/
def Dev.portOf (d : Dev) (x : Nat) : Nat :=
  match d.lineAt (x / 256) with
  | some (p, _) => p
  | none => 0

/-! ## Error reports (R27) -/

/-- Kinds of report (R499). -/
inductive ErrKind where
  | ce
  | ue
  | poisonSeen
  | dupMismatch
  deriving DecidableEq, Repr

def ErrKind.code : ErrKind → Nat
  | .ce => 1
  | .ue => 2
  | .poisonSeen => 3
  | .dupMismatch => 4

/-- Block, unit and offset that a report on the word at model address `a` gives (R27, R499): the block that holds the
memory, the instance of the memory, and the byte offset inside it (for DRAM the DRAM byte address). -/
def Dev.place (d : Dev) (a : Nat) : Nat × Nat × Nat :=
  if dramBase ≤ a ∧ a < 2 ^ 42 then (0x06, d.portOf (a - dramBase), a - dramBase)
  else if 2 ^ 42 ≤ a ∧ a < 2 ^ 43 then (0x0C, (a - 2 ^ 42) / 2 ^ 18, (a - 2 ^ 42) % 2 ^ 18)
  else if 2 ^ 43 ≤ a ∧ a < 2 ^ 44 then (0x0A, (a - 2 ^ 43) / 2 ^ 18, (a - 2 ^ 43) % 2 ^ 18)
  else if 2 ^ 44 ≤ a then (0x10, (a - 2 ^ 44) / 8192, (a - 2 ^ 44) % 8192)
  else if 0x1000000 ≤ a ∧ a < 0x1800000 then (0x10, (a - 0x1000000) / 0x10000, a % 0x8000)
  else if 0x1800000 ≤ a ∧ a < 0x2000000 then (0x18, (a - 0x1800000) / 0x10000, a % 0x10000)
  else if 0x2800000 ≤ a ∧ a < 0x2900000 then (0x28, (a - 0x2800000) / 1024, a % 1024)
  else if 0x2900000 ≤ a ∧ a < 0x2910000 then (0x29, (a - 0x2900000) / 512, a % 512)
  else if 0x3000000 ≤ a ∧ a < 0x3800000 then (0x30, (a - 0x3000000) / 0x100000, a % 0x100000)
  else (0x0A, (a - 0xA40000) / 0x10000, a % 0x10000)

/-- The SYMBOLS field: one bit per symbol (R27). -/
def symMask (l : List Nat) : Nat := (l.eraseDups.map (fun k => 2 ^ k)).foldl (· + ·) 0

/-- Write the error report of R27 for the word at `a`. DRAM errors also count in the port (R384). -/
def Dev.report (d : Dev) (k : ErrKind) (a cons : Nat) (syms : List Nat) : Dev :=
  let p := d.place a
  let d := d.logEv p.1 k.code p.2.1 (p.2.2 % 2 ^ 38 + symMask syms * 2 ^ 38 + cons * 2 ^ 74)
  if p.1 = 0x06 then
    match k with
    | .ce =>
      let port := p.2.1
      let r := match d.lineAt (p.2.2 / 256) with
        | some (_, q) => if d.on .DRC_CFG_RANKS port then q / (1024 * 2 ^ (if d.rg .DRC_CFG_DENS port = 0 then 1 else 2)) % 2 else 0
        | none => 0
      let d := { d.bump .DRC_CECNT_COUNT port 1 with telCe := d.telCe.set port (d.telCe.getD port 0 + 1) }
      syms.foldl (fun d k =>
        let d := d.bumpi .DRC_CESYM_COUNT port (36 * r + k) 1
        if d.rgi .DRC_CESYM_COUNT port (36 * r + k) = d.rg .DRC_SUSTHR_THR port then
          ((d.st .DRC_STAT_SUSPECT port 1).irq (193 + port)).logEv 0x06 0x12 port k
        else d) d
    | .dupMismatch => d.bump .DRC_DUPMIS_COUNT port_ 1
    | _ => d.bump .DRC_UECNT_COUNT p.2.1 1
  else d
where port_ := (d.place a).2.1

/-! ## Reading a stored word -/

/-- What the decoder makes of a stored word (R23). -/
inductive WordOut where
  | clean
  | fixed (syms : List Nat)
  | wrong (v : Nat) (syms : List Nat)
  | bad
  | poisoned
  deriving DecidableEq, Repr

/-- The 128 data bits stored at word address `a`. -/
def wordAt (m : List Host.Cell) (a : Nat) : Nat := leNat (memRead m (a / 16 * 16) 16)

/-- Whether model address `a` lies in DRAM. -/
def inDram (a : Nat) : Bool := decide (dramBase ≤ a) && decide (a < 2 ^ 42)

/-- The data bits that the memory stores of a word with plain data `v` at `w`: in DRAM the ciphertext block (R28). -/
def Dev.stored (d : Dev) (w v : Nat) : Nat :=
  if inDram w then Config.xtsEncrypt d.thim.dramKey ((w - dramBase) / 256) (w / 16 % 16) v else v

/-- The plain data of a word that the memory gives as `v` at `w` (R29). -/
def Dev.plain (d : Dev) (w v : Nat) : Nat :=
  if inDram w then Config.xtsDecrypt d.thim.dramKey ((w - dramBase) / 256) (w / 16 % 16) v else v

/-- The decoder's outcome for the word at `a`: exact up to two wrong symbols, a fixed function of the stored word and the
errors beyond (R23). Errors in three symbols never pass unreported. -/
def Dev.decode (d : Dev) (m : List Host.Cell) (a : Nat) : WordOut :=
  let w := a / 16 * 16
  if d.poison.contains w then .poisoned
  else match (d.errs.get? w).getD [] with
  | [] => .clean
  | [(k, _)] => .fixed [k]
  | [_, _] => .bad
  | l => match Config.eccMany (d.stored w (wordAt m w)) l with
    | some (v, some k) => .wrong (d.plain w v) [k % 36]
    | some (v, none) => if l.length = 3 then .bad else .wrong (d.plain w v) []
    | none => .bad

/-- The word's errors are gone: a consumer that corrects a word of an on-chip memory writes it back (R24, R32). -/
def Dev.wroteBack (d : Dev) (w : Nat) : Dev := if inDram w then d else { d with errs := d.errs.del w }

/-- A consumer reads the word at `a`: its 128 bits, or none where it is poisoned or uncorrectable; every error writes
its report, an uncorrectable word is marked poisoned, and a corrected word on the chip is written back (R23, R26, R27,
R32, log 3). -/
def Dev.readWord (d : Dev) (m : List Host.Cell) (cons a : Nat) : Option Nat × Dev :=
  let w := a / 16 * 16
  match d.decode m w with
  | .clean => (some (wordAt m w), d)
  | .fixed l => (some (wordAt m w), (d.wroteBack w).report .ce w cons l)
  | .wrong v l => (some v, if l.isEmpty then d else d.report .ce w cons l)
  | .bad => (none, { d with poison := w :: d.poison, errs := d.errs.del w }.report .ue w cons [])
  | .poisoned => (none, d.report .poisonSeen w cons [])

/-- Read `n` code words from `a` on: their bytes, and whether any was unreadable (its bytes read as stored). -/
def Dev.readWords (d : Dev) (m : List Host.Cell) (cons a : Nat) : Nat → List Nat × Bool × Dev
  | 0 => ([], false, d)
  | n + 1 =>
    let r := d.readWord m cons a
    let t := r.2.readWords m cons (a + 16) n
    (leBytes 16 (r.1.getD (wordAt m a)) ++ t.1, r.1.isNone || t.2.1, t.2.2)

/-- Read `n` bytes from `a`: the bytes, and whether a word that holds one of them was unreadable. -/
def Dev.readBytes (d : Dev) (m : List Host.Cell) (cons a n : Nat) : List Nat × Bool × Dev :=
  let w := a / 16 * 16
  let r := d.readWords m cons w (if n = 0 then 0 else (a + n - 1) / 16 - a / 16 + 1)
  ((r.1.drop (a - w)).take n, r.2.1, r.2.2)

/-! ## Writing -/

/-- Mark words poisoned, or clear their poison and errors. -/
def Dev.markWord (d : Dev) (w : Nat) (bad : Bool) : Dev :=
  let p := d.poison.filter (· ≠ w)
  { d with poison := if bad then w :: p else p, errs := d.errs.del w }

/-- How data come to a memory: with the poison of a TLP (R474), and whether the two copies that encode a merged word
disagree (R24). -/
structure Wr where
  ep  : Bool := false
  dup : Bool := false
  deriving DecidableEq, Repr

/-- The report of a mismatch of two pipeline copies on the word at `w` (R24, R30). -/
def Dev.dupReport (d : Dev) (dup : Bool) (w cons : Nat) : Dev := if dup then d.report .dupMismatch w cons [] else d

/-- Write into one code word: `l` at offset `o`. A whole word takes its code at entry; a part is merged by
read-modify-write, which checks and corrects the stored word first and leaves a poisoned word poisoned; where the two
copies that encode the merged word disagree, it is written poisoned and reported (R24, R25). -/
def State.writeWord (s : State) (cons w o : Nat) (l : List Nat) (h : Wr) : State :=
  if l.length = 16 then
    { s with mem := memWrite s.mem w l, dev := s.dev.markWord w h.ep }
  else
    let r := s.dev.readWord s.mem cons w
    match r.1 with
    | some v => { s with mem := memWrite (memWrite s.mem w (leBytes 16 v)) (w + o) l,
                         dev := (r.2.markWord w (h.ep || h.dup)).dupReport h.dup w cons }
    | none => { s with mem := memWrite s.mem (w + o) l, dev := (r.2.markWord w true).dupReport h.dup w cons }

/-- Write bytes from `a` on, one code word at a time. `fuel` bounds the words. -/
def State.writeFuel (s : State) (cons a : Nat) (l : List Nat) (h : Wr) : Nat → State
  | 0 => s
  | n + 1 =>
    if l.isEmpty then s else
    let k := 16 - a % 16
    State.writeFuel (s.writeWord cons (a / 16 * 16) (a % 16) (l.take k) h) cons (a + (l.take k).length) (l.drop k) h n

/-- Write bytes from `a` on (R24). -/
def State.writeBytes (s : State) (cons a : Nat) (l : List Nat) (h : Wr) : State :=
  s.writeFuel cons a l h (l.length / 16 + 2)

/-- Read one code word and write it back: corrected, or poisoned (R24, R26, R32, R381). -/
def State.rewriteWord (s : State) (cons a : Nat) : State :=
  if (s.dev.errs.get? a).isNone && !s.dev.poison.contains a then s
  else
    let r := s.dev.readWord s.mem cons a
    match r.1 with
    | some v => { s with mem := memWrite s.mem a (leBytes 16 v), dev := r.2.markWord a false }
    | none => { s with dev := r.2 }

/-- Store `n` poisoned or clean words without data: what a copy of a poisoned word leaves (R25). -/
def Dev.markWords (d : Dev) (a : Nat) (bad : List Bool) : Dev :=
  match bad with
  | [] => d
  | b :: l => (d.markWord a b).markWords (a + 16) l

/-- Which of `n` words from `a` on are unreadable, with the data of all of them; every error is reported. Used where
poison travels with the word (R25). -/
def Dev.readPoison (d : Dev) (m : List Host.Cell) (cons a : Nat) : Nat → List Nat × List Bool × Dev
  | 0 => ([], [], d)
  | n + 1 =>
    let r := d.readWord m cons a
    let t := r.2.readPoison m cons (a + 16) n
    (leBytes 16 (r.1.getD (wordAt m a)) ++ t.1, r.1.isNone :: t.2.1, t.2.2)

/-- Store whole words with their poison markers. -/
def State.storeWords (s : State) (a : Nat) (l : List Nat) (bad : List Bool) : State :=
  { s with mem := memWrite s.mem a l, dev := s.dev.markWords a bad }

/-- Zero a range of addresses and forget poison and errors there. -/
def State.zeroRange (s : State) (lo hi : Nat) : State :=
  { s with mem := s.mem.filter (fun p => !(lo ≤ p.1 && p.1 < hi)),
           dev := { s.dev with poison := s.dev.poison.filter (fun w => !(lo ≤ w && w < hi)),
                               errs := s.dev.errs.filter (fun p => !(lo ≤ p.1 && p.1 < hi)) } }

/-- The unreadable words a DRAM source gets from a line beyond the installed lines (R365): each is reported. -/
def Dev.reportUninstalled (d : Dev) (cons x : Nat) : Dev := d.report .ue (dramBase + x) cons []

end Sys2Proof.Machine
end

