-- ==== Sys2Proof/Machine/Units.lean ====
section
/-!
DEFINITION. Power-domain gates, quad ownership, tie groups, running bursts and events: what the families of commands
ask of the units (R55 to R70, R182 to R184, R387 to R391).
-/

namespace Sys2Proof.Machine

/-! ## Power domains (R387, R405) -/

def domHost : Nat := 1
def domNet : Nat := 2
def domK (c : Nat) : Nat := 3 + c
def domPd (k : Nat) : Nat := 11 + k
def domDsp : Nat := 27
def domSeam : Nat := 28
def domCnv : Nat := 29
def domDr (p : Nat) : Nat := 30 + p

/-- The state code of domain `k` (R405): 0 on, 1 retention, 2 off, 3 in transition. -/
def Dev.dom (d : Dev) (k : Nat) : Nat :=
  if k < 16 then bitsOf (d.rg .PWR_STATE_LO_STATE 0) (2 * k) 2 else bitsOf (d.rg .PWR_STATE_HI_STATE 0) (2 * (k - 16)) 2

def Dev.domOn (d : Dev) (k : Nat) : Bool := d.dom k == 0

/-- Whether domain `k` takes new work: it is on and does not quiesce in a prepare phase (R394). -/
def Dev.domUp (d : Dev) (k : Nat) : Bool := d.domOn k && !d.quies.contains k

def Dev.setDom (d : Dev) (k c : Nat) : Dev :=
  if k < 16 then d.st .PWR_STATE_LO_STATE 0 (setBits (d.rg .PWR_STATE_LO_STATE 0) (2 * k) 2 c)
  else d.st .PWR_STATE_HI_STATE 0 (setBits (d.rg .PWR_STATE_HI_STATE 0) (2 * (k - 16)) 2 c)

/-- Change a HOST_READY bit field; any change raises vector 203 (R421, R476). -/
def Dev.ready (d : Dev) (f : Field) (v : Nat) : Dev :=
  if d.rg f 0 = v % 2 ^ f.info.width then d else (d.st f 0 v).irq 203

/-- A bring-up failure sets its HOST_BOOTERR bit and logs it once (R416, R499). -/
def Dev.bootErr (d : Dev) (f : Field) : Dev :=
  if d.on f 0 then d else (d.st f 0 1).logEv 0x00 0x12 f.info.lsb 0

/-! ## Ownership (R56, R57, R60) -/

/-- The engine that owns quad `q` in effect. -/
def Dev.quadOwner (d : Dev) (q : Nat) : Option Nat :=
  if d.eff .PIN_QOWN_UNOWNED q = 1 then none else some (q / 16 * 16 + d.eff .PIN_QOWN_OWNER q)

/-- Quads of engine `e`, ascending. -/
def Dev.quads (d : Dev) (e : Nat) : List Nat :=
  ((List.range 16).map (fun j => e / 16 * 16 + j)).filter (fun q => d.quadOwner q == some e)

/-- ENG_QMASK (R57). -/
def Dev.qmask (d : Dev) (e : Nat) : Nat := ((d.quads e).map (fun q => 2 ^ (q % 16))).foldl (· + ·) 0

/-- Channels of the engine's site: site pin p is the p-th (R60). -/
def Dev.pins (d : Dev) (e : Nat) : List Nat := (d.quads e).flatMap (fun q => [4 * q, 4 * q + 1, 4 * q + 2, 4 * q + 3])

/-! ## Tie groups (R63, R64) -/

def Dev.tied (d : Dev) (e : Nat) : Bool := d.eff .ENG_TIE_TIED e == 1

def Dev.grp (d : Dev) (e : Nat) : Nat := d.eff .ENG_TIE_GROUP e

/-- The members of the engine's tie group on this device, the engine alone when untied. -/
def Dev.members (d : Dev) (e : Nat) : List Nat :=
  if d.tied e then (List.range 128).filter (fun x => d.tied x && d.grp x == d.grp e) else [e]

/-- ENG_TIE.SCOPE (R63). -/
def Dev.scope (d : Dev) (e : Nat) : Nat :=
  if !d.tied e then 0
  else if d.far.any (fun f => f.grp == d.grp e) then 3
  else if (d.members e).all (fun x => x / 16 == e / 16) then 1
  else 2

/-- The tie latency in cycles (R64). -/
def Dev.tieLat (d : Dev) (e : Nat) : Nat :=
  match d.scope e with
  | 0 => 0
  | 1 => 4
  | 2 => 16
  | _ => 160

/-! ## Bursts -/

def Dev.estate (d : Dev) (e : Nat) : Nat := d.rg .ENG_STAT_STATE e

/-- A burst runs from STARTING until its result posts (R173). -/
def Dev.runs (d : Dev) (e : Nat) : Bool := 1 ≤ d.estate e && d.estate e ≤ 3

/-- Whether a burst runs on the engine or on a member of its tie group (R58). -/
def Dev.groupRuns (d : Dev) (e : Nat) : Bool := (d.members e).any d.runs

/-- The mode under which the engine acts (R417). -/
def Dev.mode (d : Dev) (e : Nat) : Nat := d.rg .ENG_MODE_MODE e

/-- Whether burst starts are refused for want of REFCLK (R21, R22): HOST_READY.TIMING reads 0. -/
def Dev.noRef (d : Dev) : Bool := d.rg .HOST_READY_TIMING 0 == 0

/-! ## Row starts (R73, R103) -/

/-- The instant at which follower `f` reaches phase `ph`, in DUT cycles: reckoned from its last tracked cycle at its tracked
period, after a loss at the last one (R105). -/
def Dev.ftTick (d : Dev) (f : Nat) (ph : Rat) : Rat :=
  (d.ft f).ref + (ph - (d.ft f).cycle) * ((d.rg .FT_PERIOD_PERIOD f : Rat) / 256)

/-- The tick of a row start as `Eng.next` keeps it: ticks on the fixed timebase, a phase on a follower's. -/
def Dev.rowTick (d : Dev) (e : Nat) (r : Rat) : Rat :=
  match (d.eng e).tb with
  | some (some f) => d.ftTick f r
  | _ => r

/-- A row's period in that measure: ticks, or M/N DUT cycles, both exact (R73, R103). -/
def Per.len : Per → Rat
  | .fixed t => t
  | .follow _ m n => (m : Rat) / n

/-- A rational tick count rounded to the nearest tick, halves up. -/
def roundTick (r : Rat) : Nat := (r + 1 / 2).floor.toNat

/-! ## Events (R182 to R184, R193) -/

/-- The engine's enabled pending events: FLAGS.EVENT is 1 when there is one (R166). -/
def Dev.eventFlag (d : Dev) (e : Nat) : Bool := (d.rg .ENG_EV_PEND_PEND e &&& d.rg .ENG_EV_EN_EN e) != 0

/-- The mark of event `k` that arises now and can be taken from tick `t` on. -/
def Dev.evMark (d : Dev) (e k t : Nat) : EvMark :=
  let old := if bitOf (d.rg .ENG_EV_PEND_PEND e) k then (d.eng e).evFrom.find? (·.k == k) else none
  ⟨k, old.elim t (·.from_), d.tick, t⟩

/-- Raise event `k` on one engine, takeable from tick `t`, or earlier where it is pending already. An event that arises
while no burst runs is not recorded (R183, R193). -/
def Dev.raiseOne (d : Dev) (e k t : Nat) : Dev :=
  if d.runs e then
    (d.st .ENG_EV_PEND_PEND e (d.rg .ENG_EV_PEND_PEND e ||| 2 ^ k)).modEng e
      (fun x => { x with evFrom := d.evMark e k t :: x.evFrom.filter (·.k ≠ k) })
  else d

/-! ## Seam messages -/

/-- Whether port `p` carries a message: FULL carries every class, HALF all but SEW (R352). -/
def Dev.seamOpen (d : Dev) (p : Nat) (sew : Bool) : Bool :=
  d.rg .LNK_SP_STAT_STATE p == 2 || (!sew && d.rg .LNK_SP_STAT_STATE p == 3)

/-- This device's position in its Seam domain. -/
def Dev.pos (d : Dev) : Nat := d.rg .LNK_SD_CFG_POS 0

def SeamMsg.isSew : SeamMsg → Bool
  | .sew .. => true
  | _ => false

/-- Hand a message to every open port but `skip`, as seen by this device now (R354). -/
def Dev.seamPost (d : Dev) (skip : Option Nat) (m : SeamMsg) : Dev :=
  (List.range 4).foldl (fun d p =>
    if some p = skip || !d.seamOpen p m.isSew then d
    else { d with seamQ := d.seamQ.put p ((d.seamQ.get? p).getD [] ++ [(d.tick, m)]) }) { d with seen := (d.tick, m) :: d.seen }

/-- The coarse count of tick `k`: the counter that TICKSYNC aligns (R20, R316). -/
def Dev.coarseAt (d : Dev) (k : Nat) : Nat := k / 1000 + d.time.coarse

/-- Tie beat number modulo 64 and cycle within the beat, at tick `k` (R353). -/
def Dev.beatAt (d : Dev) (k : Nat) : Nat × Nat := (d.coarseAt k / 64 % 64, d.coarseAt k % 64 / 4)

/-- Tell the members of the engine's group on other devices (R353). -/
def Dev.tieTell (d : Dev) (e kind arg : Nat) : Dev :=
  if d.scope e = 3 then
    let b := d.beatAt d.tick
    d.seamPost none (.tieEvt d.pos 0 (d.grp e) b.1 b.2 kind arg)
  else d

/-- Raise event `k`. HOST, TRIG_IN and SEW (0, 2, 3) raised on a member of a tie group are raised on every member, to
be taken no earlier than the tie latency later (R193). -/
def Dev.raise (d : Dev) (e k : Nat) : Dev :=
  if k = 0 ∨ k = 2 ∨ k = 3 then
    ((d.members e).foldl (fun d x => d.raiseOne x k (d.tick + d.tieLat e * cyc)) d).tieTell e
      (if k = 0 then 3 else if k = 2 then 4 else 5) 0
  else d.raiseOne e k d.tick

def Dev.clearEv (d : Dev) (e k : Nat) : Dev :=
  d.st .ENG_EV_PEND_PEND e (setBits (d.rg .ENG_EV_PEND_PEND e) k 1 0)

end Sys2Proof.Machine
end

