-- ==== Sys2Proof/Machine/AcqIn.lean ====
section
/-!
DEFINITION. What reaches the acquisition units: samples of their sources and conditions met (R254, R255, R259 to R270).
-/

namespace Sys2Proof.Machine

/-! ## Grains (R267) -/

/-- The converter sample interval of receive link `r` (or transmit link `r − 4`) in ticks. -/
def Dev.tcTicks (d : Dev) (r : Nat) : Rat := (d.rg .LNK_TCONV_TC r : Rat) * cyc / 65536

/-- Decimation of chain `c` without its resampler: D = R × 2^h (R285). -/
def Dev.decim (d : Dev) (c : Nat) : Nat := (d.rg .DDC_CTRL_CICM1 c + 1) * 2 ^ d.rg .DDC_CTRL_HB c

/-- STEP of a chain, 2^30 when its resampler is bypassed (R290). -/
def Dev.ddcStep (d : Dev) (c : Nat) : Nat := if d.on .DDC_CTRL_RSEN c then d.rg .DDC_STEP_STEP c else 2 ^ 30

/-- Output interval Ts of chain `c` in ticks (R290). -/
def Dev.tsTicks (d : Dev) (c : Nat) : Rat :=
  d.tcTicks (d.rg .DDC_CTRL_LINK c) * d.decim c * d.ddcStep c / 2 ^ 30

/-- DDC_OUTP: Ts in 1/65,536 ns, to the nearest (R290). -/
def Dev.ddcOutp (d : Dev) (c : Nat) : Nat :=
  ((d.rg .LNK_TCONV_TC (d.rg .DDC_CTRL_LINK c) : Rat) * d.decim c * d.ddcStep c / 2 ^ 30 + 1 / 2).floor.toNat

/-- The unit's grain length in ticks and a tick at which a grain starts. -/
def Dev.grainOf (d : Dev) (u : Nat) : Rat × Rat :=
  let ts := d.tsTicks (d.rg .ACQ_SRC_DDC u)
  if d.rg .ACQ_SRC_TYPE u = 1 ∧ 0 < ts then (ts, (d.acq u).grid) else (cyc, 0)

/-- The tick at which the grain that holds tick `k` closes. -/
def Dev.grainClose (d : Dev) (u : Nat) (k : Rat) : Rat :=
  let g := d.grainOf u
  g.2 + (((k - g.2) / g.1).floor + 1 : Int) * g.1

/-! ## Slots (R260, R266) -/

def Dev.slotType (d : Dev) (u k : Nat) : Nat := d.rgi .ACQ_COND_CTRL_TYPE u k
def Dev.slotP0 (d : Dev) (u k : Nat) : Nat := d.rgi .ACQ_COND_CTRL_P0 u k
def Dev.slotEn (d : Dev) (u k : Nat) : Bool := d.rgi .ACQ_COND_CTRL_EN u k == 1

/-- Whether slot `j` counts only after slot `k` (R266). -/
def Dev.armedBy (d : Dev) (u j k : Nat) : Bool :=
  d.rgi .ACQ_COND_CTRL_ARMBY_EN u j == 1 && d.rgi .ACQ_COND_CTRL_ARMBY u j == k

/-- Whether a slot triggers, or is named in ARMBY by one that does (R267). -/
def Dev.slotNear (d : Dev) (u k : Nat) : Bool := d.slotEn u k || (List.range 8).any (fun j => d.slotEn u j && d.armedBy u j k)

/-- The slots that trigger or enable, over at most `n` more links of ARMBY, one that does. -/
def Dev.usedSlots (d : Dev) (u : Nat) : Nat → List Nat
  | 0 => (List.range 8).filter (d.slotEn u)
  | n + 1 =>
    let q := d.usedSlots u n
    (List.range 8).filter (fun k => q.contains k || q.any (fun j => d.armedBy u j k))

/-- Whether a slot triggers, or enables a slot that does, directly or through others. -/
def Dev.slotUsed (d : Dev) (u k : Nat) : Bool := (d.usedSlots u 7).contains k

/-- A unit's slots of one type that are used. -/
def Dev.slotsOf (d : Dev) (u ty : Nat) : List Nat :=
  let l := d.usedSlots u 7
  (List.range 8).filter (fun k => d.slotType u k == ty && l.contains k)

/-! ## Misses (R270) -/

/-- Source-specific bits of a unit's time-stamp records (R272). -/
def Dev.acqSrc (d : Dev) (u : Nat) : Nat := u % 16 + d.rg .ACQ_SRC_TYPE u * 16

/-- A grain with conditions met while the unit could not take a trigger, or a condition too late for its grain: it
counts once, at position `t`, tick `tk`. -/
def Dev.acqMiss (d : Dev) (u t : Nat) (tk : Rat) : Dev :=
  let x := d.acq u
  let r := d.stampThen t tk (d.acqSrc u)
  let d := if d.rg .ACQ_MISSED_COUNT u = 0 then d.st .ACQ_FMISS_RECORD u r else d
  let first := x.recMiss = 0 ∨ t < d.fromGen (bitsOf x.recFm 80 8) (x.recFm % 2 ^ 80)
  (d.bump .ACQ_MISSED_COUNT u 1).setAcq u { x with recMiss := x.recMiss + 1, recFm := if first then r else x.recFm }

/-! ## Conditions met -/

/-- Slot `k` of unit `u` is met at device time `t`, tick `k'`: it waits for its grain's decision, or counts as a miss
when its grain has been decided. In IDLE, and for positions before the unit entered ARMED, it is ignored (R268). -/
def Dev.acqCond (d : Dev) (u k t : Nat) (tk : Rat) : Dev :=
  let x := d.acq u
  if d.rg .ACQ_STAT_STATE u = 0 ∨ !d.slotUsed u k ∨ tk < x.since then d
  else
    let g := d.grainClose u tk
    if g ≤ x.decided ∨ g + x.delay * cyc < d.tick then (if d.slotEn u k then d.acqMiss u t tk else d)
    else d.setAcq u { x with conds := x.conds ++ [⟨k, t, tk⟩] }

/-- Every used slot of a type that satisfies `p` is met at tick `tk`. -/
def Dev.acqMet (d : Dev) (ty : Nat) (p : Nat → Bool) (tk : Nat) : Dev :=
  (List.range 16).foldl (fun d u =>
    if d.rg .ACQ_STAT_STATE u = 0 then d
    else (d.slotsOf u ty).foldl (fun d k => if p (d.slotP0 u k) then d.acqCond u k (d.timeAt tk) tk else d) d) d

/-- A row with a failing unmasked compare resolves on engine `e` (R263): `tk` is the earliest closing instant of its
failing strobes, `first` whether it is the burst's first such row. -/
def Dev.acqFail (d : Dev) (e tk : Nat) (first : Bool) : Dev :=
  d.acqMet 2 (fun p => bitsOf p 0 7 == e && (first || !bitOf p 7)) tk

/-- A pulse on line `l` of engine `e` (R228). -/
def Dev.acqPulse (d : Dev) (e l tk : Nat) : Dev := d.acqMet 3 (fun p => bitsOf p 0 7 == e && bitsOf p 8 4 == l) tk

/-- A SEAM condition at origin time `t`, tick `tk`. `late` tells that its sender decides 512 cycles after its grain: every
such condition counts as a miss (R275). -/
def Dev.acqOrigin (d : Dev) (u k t : Nat) (tk : Rat) (late : Bool) : Dev :=
  if !late then d.acqCond u k t tk
  else if d.rg .ACQ_STAT_STATE u = 0 ∨ !d.slotEn u k ∨ tk < (d.acq u).since then d
  else d.acqMiss u t tk

/-- A Seam trigger on channel `c` with origin time `t`, from another device or from a unit of this one (R264; log 20). -/
def Dev.acqSeam (d : Dev) (late : Bool) (c t : Nat) : Dev :=
  (List.range 16).foldl (fun d u => (d.slotsOf u 4).foldl (fun d k =>
    if bitsOf (d.slotP0 u k) 0 4 == c then d.acqOrigin u k t (d.tickAt t) late else d) d) d

/-! ## PIN conditions (R262) -/

/-- The decoded state of a channel (R41): 0 LOW, 1 MID, 2 HIGH, 3 INVALID. -/
def Chan.state (x : Chan) : Nat := match x.cmh, x.cml with
  | false, false => 0
  | false, true => 1
  | true, true => 2
  | true, false => 3

/-- Whether the states a PIN slot asks for all hold now. -/
def Dev.pinHolds (d : Dev) (u k : Nat) : Bool :=
  let pd := bitsOf (d.slotP0 u k) 0 4
  let p1 := d.rgi .ACQ_COND_P1 u k
  d.domOn (domPd pd) && (List.range 4).all (fun j =>
    let want := bitsOf p1 (8 * j + 5) 2
    want == 3 || (d.chan (32 * pd + bitsOf p1 (8 * j) 5)).state == want)

/-- MINDUR of a PIN slot, in ticks of its 250 ps samples. -/
def Dev.minDur (d : Dev) (u k : Nat) : Nat := bitsOf (d.rgi .ACQ_COND_P1 u k) 32 8 * 1000

/-- A run that has lasted MINDUR + 1 samples by tick `t` meets its condition, at its first sample less 125 ps. -/
def Dev.settleRun (d : Dev) (u k t : Nat) : Dev :=
  match (d.acq u).runs.get? k with
  | some r =>
    if !r.met && r.off.isNone && r.start + d.minDur u k < t then
      let d := d.setAcq u { d.acq u with runs := (d.acq u).runs.put k { r with met := true } }
      d.acqCond u k (d.timeAt (r.start - 500)) ((r.start : Rat) - 500)
    else d
  | none => d

/-- A PIN slot after its channels changed at tick `t`: a run that is broken for no sample goes on. -/
def Dev.pinRun (d : Dev) (u k t : Nat) : Dev :=
  let d := d.settleRun u k t
  let x := d.acq u
  let r := (x.runs.get? k).getD ⟨0, true, some 0⟩
  let s := ceilDiv t 1000 * 1000
  let r' := if d.pinHolds u k then
      (match r.off with
       | none => r
       | some o => if t ≤ ceilDiv o 1000 * 1000 then { r with off := none } else ⟨s, false, none⟩)
    else (match r.off with
       | none => { r with off := some t }
       | some _ => r)
  d.setAcq u { x with runs := x.runs.put k r' }

/-- The comparator state of channel `c`, or the state of its domain, changed at tick `t`: PIN slots of its pin domain watch
it. -/
def Dev.acqPin (d : Dev) (c t : Nat) : Dev :=
  (List.range 16).foldl (fun d u =>
    if d.rg .ACQ_STAT_STATE u = 0 then d
    else (d.slotsOf u 1).foldl (fun d k => if bitsOf (d.slotP0 u k) 0 4 == c / 32 then d.pinRun u k t else d) d) d

/-! ## LEVEL conditions (R261) -/

/-- The next sample of a LEVEL slot's component: value `v` at time `t`, tick `tk`; `ts` is the interval in 1/65,536 ns
and in ticks. -/
def Dev.levelSample (d : Dev) (u k : Nat) (v : Int) (t : Nat) (tk ts tsk : Rat) : Dev :=
  let x := d.acq u
  let p1 := d.rgi .ACQ_COND_P1 u k
  let thr := signed 32 (bitsOf p1 0 32)
  let hys : Int := bitsOf p1 32 32
  let dir := bitsOf (d.slotP0 u k) 4 2
  let l := (x.levels.get? k).getD ⟨none, false, false⟩
  let rise := match l.last with
    | some (s, _, _) => s < thr && thr ≤ v && l.below
    | none => false
  let fall := match l.last with
    | some (s, _, _) => thr < s && v ≤ thr && l.above
    | none => false
  let l' : AcqLevel := ⟨some (v, t, tk), (l.below && !rise) || v < thr - hys, (l.above && !fall) || thr + hys < v⟩
  let d := d.setAcq u { x with levels := x.levels.put k l' }
  if (rise && dir != 1) || (fall && dir != 0) then
    match l.last with
    | some (s, t0, k0) =>
      let f : Rat := ((256 * (thr - s)).fdiv (v - s) : Rat) / 256
      d.acqCond u k (t0 + (f * ts).floor.toNat) (k0 + f * tsk)
    | none => d
  else d

/-! ## Samples -/

/-- Bytes of a sample of the unit's source (R254); 0 for NONE. -/
def Dev.acqW (d : Dev) (u : Nat) : Nat :=
  match d.rg .ACQ_SRC_TYPE u with
  | 1 => if d.on .ACQ_SRC_SWIDTH u then 8 else 4
  | 2 => 8
  | 3 => 8
  | 4 => 16
  | _ => 0

/-- Where the unit keeps byte `o` of its record's samples: behind the header line, or in EXTENDED mode in the capture memory
taken round (R257, log 25). -/
def Dev.acqPlace (d : Dev) (u o : Nat) : Nat := if d.on .ACQ_CTRL_EXT u then acqMem u + o % 262144 else acqMem u + 256 + o

/-- Samples enter words of the capture memory: the words from byte `o` on that `n` bytes begin take their code anew (R24). -/
def Dev.acqFresh (d : Dev) (u o n : Nat) : Dev :=
  (List.range (ceilDiv (o + n) 16 - ceilDiv o 16)).foldl (fun d k => d.markWord (d.acqPlace u (16 * (ceilDiv o 16 + k))) false) d

/-- Bytes of post-trigger samples that wait in the 64 KiB queue of EXTENDED mode, with `n` samples kept from before the
trigger and `spilled` lines gone (R257). -/
def Dev.acqQueued (d : Dev) (u n m spilled : Nat) : Nat := (n + m) * d.acqW u - max (n * d.acqW u) (spilled * 256)

/-- A sample reaches the unit: into the pre-trigger ring in ARMED, into the record in POST, in the time of the trigger's
generation. In EXTENDED mode it finds no room when 64 KiB wait for the spill; it is lost then, and keeps its place, as an
invalid one does (R257, R259, R268, R273, R292). -/
def Dev.acqSample (d : Dev) (u : Nat) (s : AcqSample) : Dev :=
  let x := d.acq u
  match d.rg .ACQ_STAT_STATE u with
  | 1 => d.setAcq u { x with samps := x.samps ++ [s] }
  | 2 =>
    if d.rg .ACQ_POST_SAMPLES u ≤ x.post.length then d
    else
      let w := d.acqW u
      let full := d.on .ACQ_CTRL_EXT u && 65536 < d.acqQueued u x.samps.length x.post.length x.spilled + w
      let s := if full then { s with data := 0, bad := true } else s
      let s := match x.trig with | some g => { s with t := d.inGen g.gen s.t } | none => s
      (d.acqFresh u ((x.samps.length + x.post.length) * w) w).setAcq u { x with post := x.post ++ [s], lost := x.lost || s.bad }
  | _ => d

/-- A sample at tick `tk` for every unit with this source type whose settings satisfy `p`. -/
def Dev.acqFeed (d : Dev) (ty : Nat) (p : Dev → Nat → Bool) (data : Nat → Nat) (tk : Nat) : Dev :=
  (List.range 16).foldl (fun d u =>
    if d.rg .ACQ_SRC_TYPE u = ty ∧ p d u then d.acqSample u ⟨data u, d.timeAt tk, tk, false⟩ else d) d

/-- A tack record or a pulse record of engine `e` (R226, R228, R254). -/
def Dev.acqEvent (d : Dev) (e rec_ tk : Nat) : Dev :=
  d.acqFeed 4 (fun d u => d.rg .ACQ_SRC_ENGINE u == e) (fun _ => rec_) tk

/-- An edge-measure shot of channel `c` (R254): `v` is its time in ticks from the row start, when it found an edge. -/
def Dev.acqShot (d : Dev) (c vcnt opened : Nat) (v : Option Nat) : Dev :=
  match v with
  | some t => d.acqFeed 3 (fun d u => d.rg .ACQ_SRC_CHAN u == c)
      (fun _ => t % 2 ^ 24 + 2 ^ 24 + vcnt % 2 ^ 32 * 2 ^ 32) opened
  | none =>
    let n := d.freeNat
    n.2.acqFeed 3 (fun d u => d.rg .ACQ_SRC_CHAN u == c) (fun _ => n.1 % 2 ^ 24 + vcnt % 2 ^ 32 * 2 ^ 32) opened

/-- The CAP strobes of a row give a PIN_STATE sample for each group that holds one, with the states of the group's other site
pins at the first of them (R254). A group's instant is the earliest of its strobes. -/
def Dev.acqRow (d : Dev) (e : Nat) (r : OpenRow) : Dev :=
  (List.range 4).foldl (fun d g =>
    let l := r.res.filter (fun x => x.cap && x.pin / 16 == g)
    match l with
    | [] => d
    | x :: _ =>
      let tk := l.foldl (fun a y => min a y.at_) x.at_
      let st := l.foldl (fun v y => setBits v (2 * (y.pin % 16)) 2 (match y.cmh, y.cml with
        | false, false => 0
        | false, true => 1
        | true, true => 2
        | true, false => 3)) (((r.caps.find? (fun p => p.1 == g)).map (·.2)).getD 0)
      let mask := (l.map (fun y => 2 ^ (y.pin % 16))).foldl (· + ·) 0
      d.acqFeed 2 (fun d u => d.rg .ACQ_SRC_ENGINE u == e && d.rg .ACQ_SRC_GROUP u == g)
        (fun _ => st + mask * 2 ^ 32 + r.vcnt % 2 ^ 16 * 2 ^ 48) tk) d

end Sys2Proof.Machine
end

