-- ==== Sys2Proof/Machine/DramBus.lean ====
section
/-!
DEFINITION. What a source of DRAM traffic meets: the installed lines, the port's state, the guard of active AWG lines
and the guard of sealed regions (R299, R365, R415, R446).
-/

namespace Sys2Proof.Machine

/-- How a request to a line goes (R365, R415): served, waits at the source, or a memory fault. -/
inductive DramPath where
  | served
  | waits
  | faults
  deriving DecidableEq, Repr

def Dev.dramPath (d : Dev) (line : Nat) : DramPath :=
  match d.lineAt line with
  | none => .faults
  | some (p, _) =>
    let st := d.rg .DRC_STAT_STATE p
    if st = 0 ∨ st = 6 ∨ d.rg .HOST_READY_THIMBLE 0 = 0 then .faults
    else if st = 3 then .served
    else .waits

/-- The AWG whose active line this is (R299). -/
def Dev.awgGuard (d : Dev) (line : Nat) : Option Nat :=
  (List.range 8).find? (fun g => ((d.awg g).active (d.on .AWG_CTRL_COMPLEX g)).any (fun a => a.2.1 ≤ line && line < a.2.1 + a.2.2))

/-- Whether the line lies in an active sealed region (R446). -/
def Dev.sealed (d : Dev) (line : Nat) : Bool :=
  (List.range 16).any (fun n => d.rgi .SEC_REG_CTRL_ACTIVE 0 n == 1 && d.rgi .SEC_REG_BASE_LINE 0 n ≤ line
    && line < d.rgi .SEC_REG_BASE_LINE 0 n + d.rgi .SEC_REG_CTRL_LINES 0 n)

/-- Whether a line stands at or above its port's zeroing watermark outside the blocks written ahead: it reads as zeros
with a valid code and touches no device (R382, R383). -/
def Dev.unzeroed (d : Dev) (line : Nat) : Bool :=
  match d.lineAt line with
  | none => false
  | some (p, q) => d.on .DRC_ZERO_ACTIVE p && decide (d.rg .DRC_ZERO_WM p ≤ line) && !d.ahead.contains (p, q / 16)

/-- A write at or above the watermark of a port that is zeroing first zeroes the whole 4 KiB block and records it once;
AHEAD reports the entries in use (R383). -/
def State.zeroAhead (s : State) (line : Nat) : State :=
  if !s.dev.unzeroed line then s
  else match s.dev.lineAt line with
  | none => s
  | some (p, q) =>
    let a := dramBase + (line - q % 16) * 256
    (s.zeroRange a (a + 4096)).onDev (fun d =>
      let t := d.ahead.filter (fun x => x.1 == p)
      { d with ahead := (p, q / 16) :: d.ahead }.st .DRC_ZERO_AHEAD p (t.length + 1))

/-- How a write goes: one that finds the write-ahead table full waits (R383). -/
def Dev.writePath (d : Dev) (line : Nat) : DramPath :=
  match d.dramPath line, d.lineAt line with
  | .served, some (p, q) =>
    if d.on .DRC_ZERO_ACTIVE p && d.rg .DRC_ZERO_WM p ≤ line && !d.ahead.contains (p, q / 16)
        && 64 ≤ (d.ahead.filter (fun x => x.1 == p)).length then .waits
    else .served
  | r, _ => r

/-- The words of the line at `a` that a write of `n` bytes at offset `o` does not touch are read by the port and written
back with the line (R375). -/
def State.lineMerge (s : State) (a o n : Nat) : State :=
  (List.range 16).foldl (fun s k =>
    if n = 0 ∨ (o / 16 ≤ k ∧ k ≤ (o + n - 1) / 16) then s else s.rewriteWord 0x0C (a + 16 * k)) s

/-- Every code word of the line at `a` is written poisoned: the copies of the encryption step disagreed on its word `k`
(R28, R30). -/
def State.dupLine (s : State) (a : Nat) (k : Fin 16) : State :=
  s.onDev (fun d => (d.markWords a (List.replicate 16 true)).dupReport true (a + 16 * k.val) 0x0C)

/-- A source writes bytes of one DRAM line, merged into the line by the port. A line beyond the installed lines drops the
write and reports it; an active AWG line drops and counts it (R299, R365, R375). -/
def State.dramWrite (s : State) (cons x : Nat) (l : List Nat) (h : Wr) : State :=
  let line := x / 256
  if s.dev.dramPath line = .faults then s.onDev (·.reportUninstalled cons x)
  else match s.dev.awgGuard line with
  | some g => s.onDev (·.bump .AWG_SWREJ_GUARD g 1)
  | none => ((s.zeroAhead line).lineMerge (dramBase + line * 256) (x % 256) l.length).writeBytes cons (dramBase + x) l h

/-- A source writes whole words of one line, which carry their own poison (R25). -/
def State.dramStore (s : State) (cons x : Nat) (l : List Nat) (bad : List Bool) : State :=
  let line := x / 256
  if s.dev.dramPath line = .faults then s.onDev (·.reportUninstalled cons x)
  else match s.dev.awgGuard line with
  | some g => s.onDev (·.bump .AWG_SWREJ_GUARD g 1)
  | none => ((s.zeroAhead line).lineMerge (dramBase + line * 256) (x % 256) l.length).storeWords (dramBase + x) l bad

/-- What the port reads of bytes of a line: zeros where the line is still to be zeroed (R382). -/
def Dev.portRead (d : Dev) (m : List Host.Cell) (cons x n : Nat) : List Nat × Bool × Dev :=
  if d.unzeroed (x / 256) then (List.replicate n 0, false, d) else d.readBytes m cons (dramBase + x) n

/-- Read `k` words of a line from DRAM byte address `x` on with the poison of each. -/
def Dev.portWords (d : Dev) (m : List Host.Cell) (cons x k : Nat) : List Nat × List Bool × Dev :=
  if d.unzeroed (x / 256) then (List.replicate (16 * k) 0, List.replicate k false, d)
  else d.readPoison m cons (dramBase + x) k

/-- Read a whole line for a source (R365): words and their poison. -/
def Dev.dramLine (d : Dev) (m : List Host.Cell) (cons line : Nat) : List Nat × List Bool × Dev :=
  if d.dramPath line = .faults then (List.replicate 256 0, List.replicate 16 true, d.reportUninstalled cons (line * 256))
  else d.portWords m cons (line * 256) 16

def Dev.drc (d : Dev) (p : Nat) : Drc := (d.drcs.get? p).getD {}
def Dev.setDrc (d : Dev) (p : Nat) (x : Drc) : Dev := { d with drcs := d.drcs.put p x }
def Dev.modDrc (d : Dev) (p : Nat) (g : Drc → Drc) : Dev := d.setDrc p (g (d.drc p))

/-- A real-time source underruns on a line whose port holds an urgent refresh sequence (R379). -/
def Dev.urgentUnderrun (d : Dev) (src : DramSrc) (line : Nat) : Dev :=
  match d.lineAt line with
  | none => d
  | some (p, _) =>
    if d.on .DRC_STAT_URGENT p then
      (d.bump .DRC_REF_CNT_URUN p 1).modDrc p (fun x => { x with urun := x.urun ++ [src.code] })
    else d

end Sys2Proof.Machine
end

