-- ==== Sys2Proof/Machine/FailLog.lean ====
section
/-!
DEFINITION. Fail records, the fail buffer and its spill (R150 to R159).
-/

namespace Sys2Proof.Machine

/-- A fail record (R150). -/
def failRec (vcnt e group mask obs tset tag type : Nat) : Nat :=
  vcnt % 2 ^ 48 + e % 128 * 2 ^ 48 + group % 16 * 2 ^ 55 + mask % 2 ^ 16 * 2 ^ 59 + obs % 2 ^ 16 * 2 ^ 75
    + tset % 64 * 2 ^ 91 + tag % 2 ^ 16 * 2 ^ 97 + type % 256 * 2 ^ 113

/-- Window address of slot `k` of the fail buffer (R154). The buffer is used in a circle from its oldest record
(log 13). -/
def fbAddr (e k : Nat) : Nat := 0x1000000 + 0x10000 * e + 0x8000 + 16 * k

/-- Append one record. -/
def Dev.fbPut (d : Dev) (e r : Nat) : Dev :=
  let x := d.eng e
  let k := (x.fbHead + x.fbCnt) % 2048
  (d.setEng e { x with recs := (k, r) :: x.recs.filter (·.1 ≠ k), fbCnt := x.fbCnt + 1 }).markWord (fbAddr e k) false

/-- Append records. -/
def Dev.fbPutAll (d : Dev) (e : Nat) (l : List Nat) : Dev := l.foldl (fun d r => d.fbPut e r) d

/-- The RECORDS_LOST record that is due, if any, once there is room for it: it precedes the next written record (R156). Its
TSET and TAG are 0: the spec gives them no row (R151, log 13). -/
def Dev.fbLost (d : Dev) (e room : Nat) : Dev :=
  let x := d.eng e
  match x.lost with
  | some (v, k) =>
    if x.fbCnt < room then (d.setEng e { x with lost := none }).fbPut e (failRec v e 0 (min k 0xFFFF) 0 0 0 5) else d
  | none => d

/-- Append records that belong together, or drop them all: 2,046 records leave room for RECORDS_LOST and BURST_END only
(R152, R156). Answers whether they were written. -/
def Dev.fbTry (d : Dev) (e vcnt : Nat) (l : List Nat) : Bool × Dev :=
  let d := d.fbLost e 2046
  let x := d.eng e
  if x.fbCnt + l.length ≤ 2046 then (true, d.fbPutAll e l)
  else
    let n := match x.lost with
      | some (v, k) => (v, k + l.length)
      | none => (vcnt, l.length)
    (false, ((d.setEng e { x with lost := some n }).bump .ENG_FLOG_LOST_COUNT e l.length).st .ENG_RES_STAT_LOGINC e 1)

/-- Write a FAIL or CAPTURE record, with its OBS_CML when there is one, under LIMIT (R155). -/
def Dev.logRow (d : Dev) (e vcnt tset tag : Nat) (l : List Nat) : Dev :=
  let x := d.eng e
  let lim := d.rg .ENG_FLOG_LIMIT_LIMIT e
  if x.limitHit then d
  else if lim ≠ 0 ∧ d.rg .ENG_FLOG_CNT_COUNT e + l.length > lim then
    let d := (d.fbTry e vcnt [failRec vcnt e 0 0 0 tset tag 6]).2
    ((d.modEng e (fun x => { x with limitHit := true })).st .ENG_RES_STAT_LOGINC e 1).raise e 6
  else
    match d.fbTry e vcnt l with
    | (true, d) => d.st .ENG_FLOG_CNT_COUNT e (d.rg .ENG_FLOG_CNT_COUNT e + l.length)
    | (false, d) => d

/-- Fill the buffer's last line with PAD records (R157). -/
def Dev.fbPad (d : Dev) (e : Nat) : Nat → Dev
  | 0 => d
  | n + 1 => if (d.eng e).fbCnt % 16 = 0 then d else (d.fbPut e 0).fbPad e n

/-- The STREAM_UNDERRUN record (R128, R151), or its loss (R156). -/
def Dev.fbUrun (d : Dev) (e v : Nat) : Dev := (d.fbTry e v [failRec v e 0 0 0 (d.rg .ENG_TS e) (d.rg .ENG_TAG e) 4]).2

/-- The BURST_END record, after a STREAM_UNDERRUN and a RECORDS_LOST that is due, and the padding of a spilling buffer
(R151, R156, R157). A buffer that unspilled records of earlier bursts fill to 2,048 drops the record and counts it
(DESIGN CHOICE, log 13). -/
def Dev.logEnd (d : Dev) (e state reason vcnt : Nat) (spill : Bool) : Dev :=
  let d := match (d.eng e).urun with
    | some v => (d.modEng e (fun x => { x with urun := none })).fbUrun e v
    | none => d
  let d := d.fbLost e 2048
  let d := if (d.eng e).fbCnt < 2048 then
      d.fbPut e (failRec vcnt e 0 reason state 0 0 7)
    else d.bump .ENG_FLOG_LOST_COUNT e 1
  if spill then d.fbPad e 16 else d

/-- Free room in the ring (R157): full when WPTR + 1 equals RPTR modulo LINES. -/
def Dev.ringFull (d : Dev) (e : Nat) : Bool :=
  let n := d.rg .ENG_FLOG_SIZE_LINES e
  n = 0 || (d.rg .ENG_FLOG_WPTR_LINE e + 1) % n == d.rg .ENG_FLOG_RPTR_LINE e % n

/-- Whether the engine has a line to spill: sixteen unspilled records and a free ring line (R157). -/
def Dev.spillReady (d : Dev) (e : Nat) : Bool :=
  d.on .ENG_FLOG_CTRL_SPILL e && d.domOn (domK (e / 16)) && decide (16 ≤ (d.eng e).fbCnt)
    && decide (16 ≤ d.rg .ENG_FLOG_SIZE_LINES e) && !d.ringFull e

/-- The engine of cluster `c` whose turn it is: the next after the one served last that has a line (R158). -/
def Dev.spillTurn (d : Dev) (c : Nat) : Option Nat :=
  let last := (d.flTurn.get? c).getD 15
  ((List.range 16).map (fun k => 16 * c + (last + 1 + k) % 16)).find? d.spillReady

/-- The bytes of a record of the fail buffer, as a memory image for the decoder. -/
def fbImage (e k r : Nat) : List Host.Cell := memWrite [] (fbAddr e k) (leBytes 16 r)

/-- On the engine's turn one line goes to DRAM line LINE + WPTR as the decoder delivers it, WPTR advances, and a
RECORDS_LOST that now fits is written (R156 to R158). A record read poisoned goes with its poison and sets LOGINC (R26).
The spilled records leave the buffer: what its window shows in their places is left open, and reads 0 (log 13). -/
def State.failSpill (s : State) (e : Nat) : State :=
  let d := s.dev
  let x := d.eng e
  let line := d.rg .ENG_FLOG_BASE_LINE e + d.rg .ENG_FLOG_WPTR_LINE e
  if d.spillTurn (e / 16) == some e && d.writePath line != .waits then
    let slots := (List.range 16).map (fun k => (x.fbHead + k) % 2048)
    let chk := slots.foldl (fun (a : List Nat × List Bool × Dev) k =>
      let v := (x.recs.find? (·.1 == k)).elim 0 (·.2)
      let r := a.2.2.readWord (fbImage e k v) 0x04 (fbAddr e k)
      (a.1 ++ leBytes 16 (r.1.getD v), a.2.1 ++ [r.1.isNone], r.2)) ([], [], d)
    let d := if chk.2.1.any id then chk.2.2.st .ENG_RES_STAT_LOGINC e 1 else chk.2.2
    let s := State.dramStore { s with dev := { d with flTurn := d.flTurn.put (e / 16) (e % 16) } } 0x04 (line * 256) chk.1 chk.2.1
    s.onDev (fun d =>
      let d := d.st .ENG_FLOG_WPTR_LINE e ((d.rg .ENG_FLOG_WPTR_LINE e + 1) % d.rg .ENG_FLOG_SIZE_LINES e)
      (d.modEng e (fun x => { x with fbHead := (x.fbHead + 16) % 2048, fbCnt := x.fbCnt - 16, fbOld := x.fbOld - 16,
                                     recs := x.recs.filter (fun r => !slots.contains r.1) })).fbLost e 2046)
  else s

/-- FAIL_SPILL_LINE. -/
def execFailSpillLine (e : EngId) (s : State) : Answer := .next (s.failSpill e)

end Sys2Proof.Machine
end

