-- ==== Sys2Proof/Machine/Result.lean ====
section
/-!
DEFINITION. Row resolution: the fail log's records of a row and the flag changes on their way to the branches
(R135 to R142, R147, R150 to R153, R160).
-/

namespace Sys2Proof.Machine

/-- Bits of a 16-pin group, from the results that satisfy `p`. -/
def maskOf (l : List PinRes) (p : PinRes → Bool) : Nat :=
  ((l.filter p).map (fun r => 2 ^ (r.pin % 16))).foldl (· + ·) 0

/-- A record, with its OBS_CML where a pin it covers observed MID or INVALID (R152). -/
def withCml (e : Nat) (r : OpenRow) (g type mask : Nat) (l : List PinRes) : List Nat :=
  let rec1 := fun obs ty => failRec r.vcnt e g mask obs r.tset r.tag ty
  rec1 (maskOf l (·.cmh)) type :: (if l.any (fun x => x.cmh != x.cml) then [rec1 (maskOf l (·.cml)) 2] else [])

/-- The records of one group of a row: its FAIL before its CAPTURE (R153). -/
def Dev.groupRecords (d : Dev) (e : Nat) (r : OpenRow) (g : Nat) : Dev :=
  let l := r.res.filter (fun x => x.pin / 16 == g)
  let cmp := l.filter (fun x => !x.cap)
  let cap := l.filter (fun x => x.cap)
  let d := if d.on .ENG_FLOG_CTRL_EN e && r.flog && cmp.any (·.fail) then
      d.logRow e r.vcnt r.tset r.tag (withCml e r g 1 (maskOf cmp (·.fail)) cmp)
    else d
  if d.on .ENG_FLOG_CTRL_CAPLOG e && !cap.isEmpty then
    d.logRow e r.vcnt r.tset r.tag (withCml e r g 3 (maskOf cap (fun _ => true)) cap)
  else d

/-- The records of a row, groups ascending (R153). -/
def Dev.rowRecords (d : Dev) (e : Nat) (r : OpenRow) : Dev :=
  (List.range 4).foldl (fun d g => d.groupRecords e r g) d

/-- Put a flag change on its way: 40 cycles to the engine's branches, the tie latency more to the combined flags
(R67, R141). -/
def Dev.flagSend (d : Dev) (e t : Nat) (k : FlagKind) : Dev :=
  let due := cycleOf t + 40 * cyc
  d.modEng e (fun x => { x with flagQ := x.flagQ ++ [⟨due, false, k⟩, ⟨due + d.tieLat e * cyc, true, k⟩] })

/-- MATCH after a row resolves: none where the row held no unmasked compare (R140). -/
def OpenRow.matchOf (r : OpenRow) : Option Bool :=
  let l := r.res.filter (fun x => !x.cap && !x.masked)
  if l.isEmpty then none else some (l.all (fun x => !x.fail))

/-- What a row's results give the acquisition units: its captures, and, when it resolves, a FAIL condition (R254, R263). -/
def Dev.rowAcq (d : Dev) (e : Nat) (r : OpenRow) : Dev :=
  let d := d.acqRow e r
  match r.res.filter (fun x => x.fail && !x.masked) with
  | [] => d
  | x :: l => d.acqFail e (l.foldl (fun a y => min a y.at_) x.at_) (d.rg .ENG_RES_FFV_VCNT e == r.vcnt)

/-- Resolve rows from the oldest on, as far as their strobes have closed (R140). `fuel` bounds the rows. -/
def Dev.resolve (d : Dev) (e : Nat) : Nat → Dev
  | 0 => d
  | n + 1 =>
    let x := d.eng e
    match x.unres with
    | r :: rest =>
      if r.waiting = 0 then
        let t := max r.closed (x.lastRes.elim 0 (·.2))
        let d := d.setEng e { x with
          unres := rest, lastRes := some (r.vcnt, t)
          br := x.br.map (fun b => if b.ref = some r.vcnt then { b with tr := some (cycleOf t) } else b) }
        (((d.rowRecords e r).rowAcq e r).flagSend e t (.row r.vcnt r.matchOf)).resolve e n
      else d
    | [] => d

/-- Rows that can no longer resolve write the records of the strobes they did take (R93, R135). -/
def Dev.flushRows (d : Dev) (e : Nat) : Dev :=
  let rows := (d.eng e).unres
  rows.foldl (fun d r => (d.rowRecords e r).acqRow e r) (d.modEng e (fun x => { x with unres := [] }))

/-- A failing unmasked compare of site pin `p`: LFAIL, the per-pin bit and count, and the first-fail row (R147). -/
def Dev.countFail (d : Dev) (e p : Nat) (r : OpenRow) : Dev :=
  let d := d.modEng e (fun x => { x with pinFail := true })
  let d := (d.st .ENG_RES_STAT_LFAIL e 1).st .ENG_RES_PF_FAILED e (d.rg .ENG_RES_PF_FAILED e ||| 2 ^ p)
  let d := d.bumpi .ENG_RES_FCNT_COUNT e p 1
  if d.on .ENG_RES_FFV_VALID e && d.rg .ENG_RES_FFV_VCNT e < r.vcnt then d
  else if d.on .ENG_RES_FFV_VALID e && d.rg .ENG_RES_FFV_VCNT e = r.vcnt then
    d.st .ENG_RES_FFPINS_PINS e (d.rg .ENG_RES_FFPINS_PINS e ||| 2 ^ p)
  else
    ((((d.st .ENG_RES_FFV_VALID e 1).st .ENG_RES_FFV_VCNT e r.vcnt).st .ENG_RES_FFV_TSET e r.tset).st
      .ENG_RES_FFTAG_TAG e r.tag).st .ENG_RES_FFPINS_PINS e (2 ^ p)

/-- A strobe of row `vcnt` closed at tick `t` with result `p` (none for EM): it enters the row, a failing unmasked
compare counts and sets FAIL on its way, and rows resolve. -/
def Dev.strobeDone (d : Dev) (e vcnt t : Nat) (p : Option PinRes) : Dev :=
  let x := d.eng e
  match x.unres.find? (fun r => r.vcnt == vcnt) with
  | none => d
  | some r =>
    let r' := { r with waiting := r.waiting - 1, closed := max r.closed t, res := r.res ++ p.toList }
    let d := d.setEng e { x with unres := x.unres.map (fun y => if y.vcnt = vcnt then r' else y) }
    let d := match p with
      | some q => if q.fail && !q.masked then (d.countFail e q.pin r).flagSend e t .fail else d
      | none => d
    d.resolve e 4096

end Sys2Proof.Machine
end

