-- ==== Sys2Proof/Machine/CalUse.lean ====
section
/-!
DEFINITION. Calibration values in use: quads take the newest values at a burst boundary, and drift marks (R428, R429).
-/

namespace Sys2Proof.Machine

/-- Bit `k` of a register of pin-domain bits. -/
def Dev.pdBit (d : Dev) (f : Field) (k : Nat) (v : Bool) : Dev := d.st f 0 (setBits (d.rg f 0) k 1 (b2n v))

/-- The channels of quad `q`. -/
def quadChans (q : Nat) : List Nat := [4 * q, 4 * q + 1, 4 * q + 2, 4 * q + 3]

/-- Quads of pin domain `k`. -/
def pdQuads (k : Nat) : List Nat := (List.range 8).map (fun j => 8 * k + j)

/-- CAL_DUE and CAL_DRIFT of a pin domain follow its quads. -/
def Dev.calBits (d : Dev) (k : Nat) : Dev :=
  (d.pdBit .CAL_DUE_PD k ((pdQuads k).any d.cal.old.contains)).pdBit .CAL_DRIFT_PD k
    ((pdQuads k).any (fun q => (quadChans q).any (fun c => d.on .PIN_CAL_STAT_DRIFT c)))

/-- A quad takes the newest computed values and the deskew of the selected profile; its drift marks clear. -/
def Dev.calTake (d : Dev) (q : Nat) : Dev :=
  if !d.cal.old.contains q then d
  else
    let t := signed 16 (d.rgi .CAL_TEMP_TCALC 0 (q / 8))
    let d := { d with cal := { d.cal with
      old := d.cal.old.filter (· ≠ q), used := d.cal.used.put q t
      deskew := (quadChans q).foldl (fun m c => m.put c ((d.cal.prof.get? c).getD [0, 0, 0, 0])) d.cal.deskew
      vals := (quadChans q).foldl (fun m c => m.put c ((d.cal.newest.get? c).getD [])) d.cal.vals } }
    ((quadChans q).foldl (fun d c => d.st .PIN_CAL_STAT_DRIFT c 0) d).calBits (q / 8)

/-! ## Corrections in use (R72, R82, R98, R133) -/

/-- What a path's values add to an edge at fine value `fine`, in ticks (R72): its offset where gain and linearity correct
nothing and it is whole ticks; how they act together otherwise, and the rounding, are not stated (log 78). -/
def PathCal.trim (p : PathCal) (fine : Nat) : Int :=
  if p.gain = 0x8000 ∧ p.lin.all (· == 0) ∧ p.offset % 16 = 0 then p.offset / 16 else Config.trim p.offset p.gain p.lin fine

/-- The correction of timing path `k` of channel `c` at nominal tick `t`: 0 without values (R424). -/
def Dev.trimOf (d : Dev) (c k t : Nat) : Int :=
  match ((d.cal.vals.get? c).getD [])[k]? with
  | some p => p.trim (t % 1000)
  | none => 0

/-- Deskew value `k` of channel `c` in use: 0 DRV, 1 DEN, 2 CMH, 3 CML. -/
def Dev.deskewVal (d : Dev) (c k : Nat) : Int := ((d.cal.deskew.get? c).getD []).getD k 0

/-- A tick moved by a correction. -/
def moved (t : Nat) (i : Int) : Nat := ((t : Int) + i).toNat

/-- How far the compare unit of channel `c` works behind the pin, so that every deskewed comparator change has arrived
(R82). -/
def Dev.rxLag (d : Dev) (c : Nat) : Nat := (max 0 (max (-d.deskewVal c 2) (-d.deskewVal c 3))).toNat

/-- What is added to the programmed time of an edge of generator `g` on channel `c` (R82): deskew and trim; the SC edge
at offset 0 is DRV_B's. A strobe's deskew is its comparators'. -/
def Dev.edgeCorr (d : Dev) (c g t : Nat) : Int :=
  if g = 6 then d.deskewVal c 0 + d.trimOf c 1 t
  else if g < 2 then d.deskewVal c 0 + d.trimOf c g t
  else if g < 4 then d.deskewVal c 1 + d.trimOf c g t
  else d.trimOf c g t + d.rxLag c

/-- How much earlier than its start the rows of these channels begin, so that every edge that deskew moves forward is
still ahead (R82, log 41). -/
def Dev.rowEarly (d : Dev) (l : List Nat) : Nat :=
  l.foldl (fun a c => max a (max (-d.deskewVal c 0) (-d.deskewVal c 1)).toNat) 0

/-- The tick at which the row of engine `e` with start `r` begins. -/
def Dev.rowBegin (d : Dev) (e : Nat) (r : Rat) : Nat := roundTick (d.rowTick e r) - d.rowEarly (d.pins e)

/-- Whether no burst runs on the quad's owner or its tie group (R428). -/
def Dev.quadFree (d : Dev) (q : Nat) : Bool :=
  match d.quadOwner q with
  | none => true
  | some e => !d.groupRuns e

/-- CAL_VALUES_APPLY. -/
def execCalValuesApply (q : QuadId) (s : State) : Answer :=
  .next (s.onDev (fun d => if d.quadFree q && d.domOn (domPd (q / 8)) then d.calTake q else d))

end Sys2Proof.Machine
end

