-- ==== Sys2Proof/Machine/SewState.lean ====
section
/-!
DEFINITION. Sews: units and their groups, basted values, the states of a sew and its end (R9, R322 to R327, R334).
-/

namespace Sys2Proof.Machine

/-! ## Units and groups (R322, R335) -/

/-- Group of unit `u` in a map register of eight 4-bit entries each. -/
def Dev.mapNib (d : Dev) (f : Field) (u : Nat) : Nat := bitsOf (d.rgi f 0 (u / 8)) (4 * (u % 8)) 4

/-- The sew group of the unit that holds an RWB field. -/
def Dev.sewGroup (d : Dev) (k : RegKey) : Nat :=
  match k.f.info.blk with
  | .eng => d.mapNib .SEW_GMAP_ENG_MAP k.u
  | .quad => d.mapNib .SEW_GMAP_QUAD_MAP k.u
  | .awg => d.mapNib .SEW_GMAP_AWG_MAP k.u
  | _ => d.rg .SEW_GMAP_DEV_GROUP 0

/-- The power domain of such a unit. -/
def unitDom (k : RegKey) : Nat :=
  match k.f.info.blk with
  | .eng => domK (k.u / 16)
  | .quad => domPd (k.u / 8)
  | .awg => domDsp
  | _ => 0

/-- A basted value: the last written, else the value in effect. -/
def Dev.bast (d : Dev) (k : RegKey) : Nat := (d.basted.get? k).getD (d.key k)

/-- A write to an RWB field goes to its basted copy and marks it dirty (R9, R324). -/
def Dev.baste (d : Dev) (k : RegKey) (v : Nat) : Dev :=
  { d with basted := d.basted.put k (v % 2 ^ k.f.info.width), dirty := k :: d.dirty.filter (· ≠ k) }

/-! ## States (R327, R334) -/

/-- A change of STATE, with its records and its vector. -/
def Dev.sewState (d : Dev) (g v : Nat) : Dev :=
  let old := d.rg .SEW_STATUS_STATE g
  let src := g + d.rg .SEW_CFG_TAG g * 2 ^ 4 + v * 2 ^ 12
  let d := d.st .SEW_STATUS_STATE g v
  let d := if old = 1 ∧ v ≠ 1 then d.st .SEW_LAST_RECORD g (d.stampOf ((d.sews.get? g).getD {}).target src) else d
  let d := if v = 3 then d.st .SEW_DONE_RECORD g (d.stamp src) else d
  if (old = 1 ∨ old = 2) ∧ v ≠ old then d.irq (152 + g) else d

/-- Fields of group `g` still to apply. -/
def Dev.sewLeft (d : Dev) (g : Nat) : List Taken := d.taken.filter (fun t => t.grp == g && !t.applied)

/-- Units of group `g` not yet applied (PENDCNT): engines, for fields or the mode, and quads. -/
def Dev.sewPend (d : Dev) (g : Nat) : Nat :=
  let l := d.sewLeft g
  let eng := (l.filter (fun t => t.key.f.info.blk == .eng)).map (·.key.u)
  let md := match d.modeChg with
    | some (h, _, es) => if h = g then es else []
    | none => []
  (eng ++ md).eraseDups.length + ((l.filter (fun t => t.key.f.info.blk == .quad)).map (·.key.u)).eraseDups.length

/-- The mode of the device, where it is reported (R419, R421). -/
def Dev.setMode (d : Dev) (m : Nat) : Dev :=
  (((d.st .SEW_MODE_MODE 0 m).st .HOST_MODE_MODE 0 m).st .SEW_MODE_PENDING 0 0).st .HOST_MODE_PENDING 0 0

/-- A mode that every engine has applied becomes the device's with its sew. -/
def Dev.modeDone (d : Dev) (g : Nat) : Dev :=
  match d.modeChg with
  | some (h, m, []) => if h = g then { d with modeChg := none }.setMode m else d
  | _ => d

/-- PENDCNT follows; a PENDING sew with nothing left to apply is APPLIED, and all its fields read their new values. -/
def Dev.sewSettle (d : Dev) (g : Nat) : Dev :=
  let n := d.sewPend g
  let d := d.st .SEW_STATUS_PENDCNT g n
  if d.rg .SEW_STATUS_STATE g = 2 ∧ n = 0 then
    let d := (d.taken.filter (·.grp == g)).foldl (fun d t => d.setKey t.key t.val) d
    ({ d with taken := d.taken.filter (·.grp != g) }.modeDone g).sewState g 3
  else d

/-- All PENDING sews. -/
def Dev.sewSettleAll (d : Dev) : Dev := (List.range 16).foldl (fun d g => d.sewSettle g) d

end Sys2Proof.Machine
end

