-- ==== Sys2Proof/Machine/Burst.lean ====
section
/-!
DEFINITION. Bursts: refusal, start, the ways they end, the hem state, and the posting of the site result
(R38, R39, R43, R44, R93, R129, R130, R143 to R149, R173 to R178, R187, R188).
-/

namespace Sys2Proof.Machine

/-! ## REASON codes (R149) -/

def rREFCLK : Nat := 0x01
def rDATAUE : Nat := 0x02
def rMCSTALL : Nat := 0x03
def rMCUE : Nat := 0x04
def rUNDERRUN : Nat := 0x05
def rSTREAMEND : Nat := 0x06
def rSTREAMFORMAT : Nat := 0x07
def rVPALIGN : Nat := 0x08
def rSTREAMLOST : Nat := 0x09
def rTSETINVALID : Nat := 0x0A
def rTSETTIMEBASE : Nat := 0x0B
def rEDGE : Nat := 0x0C
def rFTLOST : Nat := 0x0D
def rFEB : Nat := 0x0E
def rDIVERGE : Nat := 0x0F
def rTIELOST : Nat := 0x10
def rHALT : Nat := 0x11

/-! ## Posting (R144, R145) -/

/-- Post a result: the BURST_END record, then ENG_RES_STAT and ENG_RES_BCNT, then the result event. -/
def Dev.post (d : Dev) (e state reason vcnt : Nat) (spill : Bool) : Dev :=
  let d := d.logEnd e state reason vcnt spill
  let d := (d.st .ENG_RES_STAT_STATE e state).st .ENG_RES_STAT_REASON e reason
  (d.st .ENG_RES_BCNT_COUNT e (d.rg .ENG_RES_BCNT_COUNT e + 1)).irq e

/-- A refused start posts NOT_RUN with a reason, vector count 0, and leaves every other field of the summary (R146). Its
record waits to spill like those of an earlier burst (R154). -/
def Dev.refuse (d : Dev) (e reason : Nat) : Dev :=
  let spill := d.on .ENG_FLOG_CTRL_SPILL e
  (d.post e 3 reason 0 spill).modEng e (fun x => { x with fbOld := if spill then x.fbCnt else x.fbOld })

/-! ## Ends of a running burst -/

/-- The vector count of the last row an end leaves: the last issued row when queued rows run out, else the row in
progress at the pins. -/
def Dev.lastRow (d : Dev) (e : Nat) (drain : Bool) : Nat :=
  (if drain then (d.eng e).issued else d.rg .ENG_RES_VCNT_VCNT e) - 1

/-- The event-log entry of a burst-ending fault taken at tick `t` (R499): REASON, then the vector count of the last row.
An underrun has an entry of its own. -/
def Dev.faultLog (d : Dev) (e reason lastv t : Nat) : Dev :=
  if 1 ≤ reason ∧ reason ≤ 0x1F ∧ reason ≠ rUNDERRUN then
    d.logStamped (d.stampAt t 0) 0x10 0x15 e (reason + lastv % 2 ^ 48 * 256)
  else d

/-- A bobbin hold that ends now has counted its cycles (R120). -/
def Dev.holdEnds (d : Dev) (e : Nat) : Dev :=
  let x := d.eng e
  if x.miss.isNone then d
  else (d.setEng e { x with miss := none, missed := false }).bump .ENG_BOB_STALL_COUNT e ((d.tick - x.missFrom) / cyc)

/-- Issue stops: the engine is in ENDING with the given end. Unless `drain`, queued rows are discarded; the pin-aligned
actions of rows that will not start are kept for the hem instant (R198). A recovery in progress still runs to its end, and
so does the stretch of the instruction that it covers (R37, R247). -/
def Dev.stopIssue (d : Dev) (e : Nat) (o : Ending) : Dev :=
  let d := d.holdEnds e
  let x := d.eng e
  let acts := if o.drain then x.anch else x.queue.flatMap (·.acts) ++ x.anch
  (d.setEng e { x with ending := some o, act := if x.recov.any (fun r => !r.done) then x.act else none, br := none
                       reqs := [], anch := acts
                       queue := if o.drain then x.queue else [] }).st .ENG_STAT_STATE e 3

/-- Whether fault `o` governs over fault `p`: the earlier cycle, then the lower-numbered engine, then the lower code (R38,
R39). -/
def Ending.before (o p : Ending) : Bool :=
  let c := cycleOf o.at_
  let q := cycleOf p.at_
  c < q || (c == q && (o.from_ < p.from_ || (o.from_ == p.from_ && o.reason < p.reason)))

/-- An end on one engine. A program end already under way gives way to a fault until the result posts, except to its own
host halt once the last row has started (R188); of two faults the one that goes before governs (R38, R39). -/
def Dev.endOne (d : Dev) (e : Nat) (o : Ending) : Dev :=
  let x := d.eng e
  if !d.runs e then d
  else match x.ending with
  | none => d.stopIssue e o
  | some p =>
    let fresh := d.setEng e { x with ending := some { p with reason := o.reason, from_ := o.from_, at_ := o.at_ } }
    if p.reason = 0 then
      if o.reason = rHALT ∧ o.from_ = e ∧ x.queue.isEmpty then d
      else if x.hemDone then fresh
      else d.stopIssue e o
    else if o.before p then fresh
    else d

/-- Whether a fault of the engine at tick `t` is one that ends its burst, or coincides with one that does (R39, R499). -/
def Dev.faultCounts (d : Dev) (e reason t : Nat) : Bool :=
  let x := d.eng e
  d.runs e && (match x.ending with
    | none => true
    | some p => (p.reason == 0 && !(reason == rHALT && x.queue.isEmpty)) || decide (cycleOf t ≤ cycleOf p.at_))

/-- A fault at tick `t` ends the engine's burst and is logged; it reaches every tie partner one tie latency later (R38,
R39). -/
def Dev.endFaultAt (d : Dev) (e reason : Nat) (drain : Bool) (t : Nat) : Dev :=
  if !d.faultCounts e reason t then d
  else
    let d' := (d.faultLog e reason (d.lastRow e drain) t).endOne e ⟨reason, e, t, drain⟩
    if !d.tied e then d'
    else
      let te : TieEnd := ⟨t + d.tieLat e * cyc, t, e, reason⟩
      ((d.members e).foldl (fun b x =>
        if x = e then b else b.modEng x (fun y => { y with tieEnd := y.tieEnd ++ [te] })) d').tieTell e 2 reason

/-- A fault taken now. -/
def Dev.endFault (d : Dev) (e reason : Nat) (drain : Bool) : Dev := d.endFaultAt e reason drain d.tick

/-- The cycle in which the microword that was read last executes. -/
def Dev.execCycle (d : Dev) (e : Nat) : Nat := (d.eng e).free - cyc

/-- A fault that an issue cycle meets. Queued rows run out. -/
def Dev.endIssue (d : Dev) (e reason : Nat) : Dev := d.endFaultAt e reason true (d.execCycle e)

/-- A fault end reaches a partner one tie latency after the fault; its row in progress is its last row (R38). -/
def Dev.tieEndArrival (d : Dev) (e : Nat) : Dev :=
  match (d.eng e).tieEnd with
  | [] => d
  | t :: rest =>
    ((d.modEng e (fun x => { x with tieEnd := rest })).advanceTo t.due).endOne e
      ⟨t.reason, t.from_, t.at_, false⟩

/-- The group ends on every member here at once, and an END goes to the others (R68, R70). The end reaches the pin side in
the cycle of the comparison, of the at most 4 cycles that R68 gives (log 80). -/
def Dev.endGroup (d : Dev) (e reason : Nat) : Dev :=
  let l := (d.members e).filter (fun x => d.faultCounts x reason d.tick)
  let d' := l.foldl (fun d x => (d.faultLog x reason (d.lastRow x false) d.tick).endOne x ⟨reason, e, d.tick, false⟩) d
  if l.isEmpty || !d.tied e then d' else d'.tieTell e 2 reason

/-! ## Hem and park (R43, R129, R130, R392) -/

/-- Set a channel's two pairs at tick `t` as a hem, park or clamp does: the pair that must not lead changes 250 ps
later, and an edge that fell less than 200 ps before a change of its pair counts as not produced (R130). Pending edges and
strobes end. -/
def Dev.setPair (d : Dev) (c t : Nat) (drv den : Bool) (mode : ChanMode) : Dev :=
  let x := d.chan c
  let near := fun (l : List NearEdge) (chg : Bool) (u : Nat) => if chg then l.countP (fun e => e.made && u < e.t + 800) else 0
  let tDrv := if x.den && !den then t + 1000 else t
  let tDen := if !x.den && den then t + 1000 else t
  let k := near x.nearDrv (x.drv != drv) tDrv + near x.nearDen (x.den != den) tDen
  let late := if x.den && !den then (if x.drv != drv then some (t + 1000, true, x.drv) else none)
    else if !x.den && den then some (t + 1000, false, x.den)
    else if x.drv = drv then x.late else none
  (d.setChan c { x with drv := drv, den := den, mode := mode, late := late, pend := [], strobes := [], nearDrv := [],
                        nearDen := [], denNext := den }).bump .PIN_EDGE_MERGE_COUNT c k

/-- Park state: DRV low, DEN inactive (R43). -/
def Dev.park (d : Dev) (c t : Nat) : Dev := d.setPair c t false false .park

/-- The latched hem code of local site pin `p` (R129). -/
def Eng.hemCode (x : Eng) (p : Nat) : Nat := bitsOf (x.hem.getD (p / 16) 0) (2 * (p % 16)) 2

/-- DRV and DEN that a hem code gives a channel (R129). -/
def Chan.hemLevels (x : Chan) (code : Nat) : Bool × Bool :=
  match code with
  | 0 => (false, false)
  | 1 => (false, true)
  | 2 => (true, true)
  | _ => (x.drv, x.den)

/-- Apply a hem code to a channel. -/
def Dev.hemPin (d : Dev) (c t code : Nat) : Dev :=
  let l := (d.chan c).hemLevels code
  d.setPair c t l.1 l.2 .hem

/-- The state of the loop window and of refill at the end of a burst (R125, R128): the window ends. -/
def Dev.endWindow (d : Dev) (e : Nat) : Dev :=
  ((d.st .ENG_BOB_LREM_ACTIVE e 0).st .ENG_BOB_LREM_HELD e 0).st .ENG_BOB_LREM_REM e 0

/-- The end of a burst leaves a STREAM-mode bobbin not ready (R122). -/
def Dev.streamOver (d : Dev) (e : Nat) : Dev :=
  if d.rg .ENG_STR_CTRL_MODE e = 0 then d.st .ENG_BOB_STAT_READY e 0 else d

/-- The instant at which the hem applies, once it is fixed (R93): the end of the last row, and for an end by the
program no earlier than 200 ps after the last tail edge. None while rows, or tail edges, are still to come. -/
def Dev.hemInstant (d : Dev) (e : Nat) : Option Nat :=
  let x := d.eng e
  match x.ending with
  | none => none
  | some o =>
    if !x.queue.isEmpty then none
    else
      let rowEnd := match x.next with
        | some r => if d.rg .ENG_RES_VCNT_VCNT e = 0 || x.issued = 0 then o.at_ else (d.rowTick e r).ceil.toNat
        | none => o.at_
      if o.reason = 0 then
        if (d.pins e).any (fun c => !(d.chan c).pend.isEmpty) then none
        else some (max rowEnd (if x.lastEdge = 0 then 0 else x.lastEdge + 800))
      else some (max rowEnd o.at_)

/-- Pin-aligned actions without an anchor row take place now; LVLs are discarded and logged (R198). -/
def Dev.orphans (d : Dev) (e t : Nat) : Dev :=
  let a := (d.eng e).anch
  let lvls := a.filter (fun a => match a with | .lvl .. => true | _ => false)
  let rest := a.filter (fun a => match a with | .lvl .. => false | _ => true)
  let d := lvls.foldl (fun d _ => d.logEv 0x10 0x14 e 0) d
  d.modEng e (fun y => { y with anch := [], palDue := y.palDue ++ rest.map (fun a => (a, t, true)) })

/-- HEM_STATE_APPLY: the hem applies to all of the engine's pins together; strobes still open give no result, and
pin-aligned actions whose anchor row never came take place now, an LVL being discarded and logged (R93, R198). -/
def Dev.hemApply (d : Dev) (e : Nat) : Dev :=
  let x := d.eng e
  match d.hemInstant e with
  | none => d
  | some t =>
    if x.hemDone || !d.runs e then d
    else if (x.ending.elim false (fun o => o.reason == 0)) && (d.pins e).any (fun c => !(d.chan c).strobes.isEmpty) then d
    else
      let d := d.advanceTo t
      let ps := d.pins e
      let d := (ps.zipIdx).foldl (fun d cp => d.hemPin cp.1 t (x.hemCode cp.2)) d
      let d := d.orphans e t
      let d := if x.ending.elim false (fun o => o.reason == 0) then d else d.flushRows e
      let d := d.modEng e (fun x => { x with hemDone := true, febDue := [] })
      d.endWindow e

/-! ## The result (R143) -/

/-- Update of the continuity trend of a channel (R467). -/
def Dev.contPin (d : Dev) (c : Nat) (fail : Bool) : Dev :=
  let d := d.bump .PIN_CONT_RUNS c 1
  let d := if fail then d.bump .PIN_CONT_FAILS c 1 else d
  d.st .PIN_CONT_HIST_HIST c (d.rg .PIN_CONT_HIST_HIST c * 2 + b2n fail)

/-- FAIL or a mark on a member of the group, here or on another device (R143, R145, R353). -/
def Dev.groupFailed (d : Dev) (e : Nat) : Bool :=
  (d.members e).any (fun x => (d.eng x).pinFail || (d.eng x).mark)
    || (d.tied e && d.far.any (fun f => f.grp == d.grp e && f.fail))

/-- STATE and REASON a burst posts: NOT_RUN, NO_QUADS for a program end on an untied engine without quads (R61);
otherwise by its end, its group's fails and marks (R143, R145, R186); NOT_RUN too where a member on another device refused
the start (R145, R175). -/
def Dev.verdict (d : Dev) (e : Nat) : Nat × Nat :=
  match (d.eng e).ending with
  | some o =>
    if 0x20 ≤ o.reason then (3, o.reason)
    else if o.reason ≠ 0 then (2, o.reason)
    else if (d.quads e).isEmpty && !d.tied e then (3, 0x25)
    else if d.groupFailed e then (1, 0)
    else (0, 0)
  | none => (3, 0)

/-- The state an engine reset leaves (R189); values of ENTRY and SEWSTART that a sew has taken are discarded (R410). -/
def Dev.engClear (d : Dev) (e : Nat) : Dev :=
  let d := [Field.ENG_XA, .ENG_YA, .ENG_DG, .ENG_VP, .ENG_TS, .ENG_TAG, .ENG_EPC, .ENG_PC_ADDR, .ENG_PC_BANK,
            .ENG_FLAGS_FAIL, .ENG_FLAGS_MATCH, .ENG_FLAGS_ZERO, .ENG_FLAGS_CARRY, .ENG_FLAGS_TFAIL, .ENG_FLAGS_TMATCH,
            .ENG_ESTAT_IE, .ENG_ESTAT_RESUME, .ENG_ESTAT_INHANDLER, .ENG_ESTAT_SZERO, .ENG_ESTAT_SCARRY, .ENG_ESTAT_EVNUM,
            .ENG_EV_PEND_PEND, .ENG_SEWSTART_ARM, .ENG_ENTRY_ADDR, .ENG_ENTRY_BANK, .ENG_STAT_WREJ, .ENG_STAT_ILLSEEN,
            .ENG_SREJ_COUNT, .ENG_STAT_STATE].foldl (fun d f => d.st f e 0) d
  let d := (d.st .ENG_EV_EN_EN e 0x80).st .ENG_ENTRY_LEAD e 128
  let d := (List.range 32).foldl (fun d i => d.sti .ENG_G e i 0) d
  let d := (List.range 16).foldl (fun d i =>
    ((d.sti .ENG_L e i 0).sti .ENG_EV_VEC_ADDR e i 0).sti .ENG_EV_VEC_VALID e i 0) d
  let d := (List.range 4).foldl (fun d i => d.sti .ENG_PROG e i 0) d
  let ks := [Field.ENG_ENTRY_ADDR, .ENG_ENTRY_BANK, .ENG_ENTRY_LEAD, .ENG_SEWSTART_ARM]
  { d with basted := d.basted.filter (fun b => !(b.1.u == e && ks.contains b.1.f))
           dirty := d.dirty.filter (fun k => !(k.u == e && ks.contains k.f))
           taken := d.taken.filter (fun t => !(t.key.u == e && ks.contains t.key.f)) }.modEng e
    (fun x => { x with rst := false, act := none, br := none, tieStart := none, recov := none, flagQ := []
                       ue := false, idFault := false }) |>.sewSettleAll

/-- A burst that ends before its first row has cleared a buffer that does not spill (R156). -/
def Dev.noRows (d : Dev) (e : Nat) : Dev :=
  if (d.eng e).issued = 0 then d.st .ENG_RES_VCNT_VCNT e 0 else d

/-- What a posted burst leaves of the engine's working state: flag changes on their way still arrive (R140). -/
def Eng.posted (x : Eng) : Eng :=
  { x with ending := none, hemDone := false, careful := false, fbOld := if x.spill then x.fbCnt else 0, tieStart := none
           tieEnd := [], tieStall := [], evFrom := [], judged := [], gjudged := [], next := none, tb := none, held := []
           resumed := false, ue := false, idFault := false, fbKept := none
           recov := x.recov.map (fun r => { r with stall := r.stall || x.ending.any (fun o => o.reason == rMCSTALL) }) }

/-- Whether the engine's result can post: on every member still running the hem has applied, every row has resolved, and no
fault of a partner is on its way (R38, R143). A recovery need not have run to its end (R247). -/
def Dev.canPost (d : Dev) (e : Nat) : Bool :=
  d.runs e && (d.eng e).hemDone
    && (d.members e).all (fun y => !d.runs y || ((d.eng y).hemDone && (d.eng y).unres.isEmpty && (d.eng y).tieEnd.isEmpty))

/-- RESULT_POST: the result posts, the engine is IDLE, or FAULTED after an uncorrectable control-store word or a failed
self-test of the engine in ENDING (R144, R246, R250), and a STREAM-mode bobbin is no longer ready (R122). An engine reset
that waited for the end of the burst takes effect (R189). -/
def Dev.resultPost (d : Dev) (e : Nat) : Dev :=
  let x := d.eng e
  if !d.canPost e then d
  else
    let v := d.verdict e
    let d := d.noRows e
    let d := (d.st .ENG_RES_STAT_PROGFAIL e (b2n x.mark)).st .ENG_RES_STAT_RUNNING e 0
    let d := if x.cont && v.2 = 0 && v.1 ≤ 1 then
        ((d.pins e).zipIdx).foldl (fun d cp => d.contPin cp.1 (bitOf (d.rg .ENG_RES_PF_FAILED e) cp.2)) d
      else d
    let d := d.post e v.1 v.2 (d.rg .ENG_RES_VCNT_VCNT e) x.spill
    let d := d.streamOver e
    let d := (d.st .ENG_STAT_STATE e (if x.ue || x.idFault then 4 else 0)).modEng e Eng.posted
    if x.rst then d.engClear e else d

/-! ## Starting -/

/-- Whether the contactor policy blocks a start on the engine (R466). -/
def Dev.contactorBlocks (d : Dev) (e : Nat) : Bool :=
  d.on .CTR_CTRL_POLICY 0 && (d.quads e).any (fun q => bitOf (d.rg .CTR_QMASK_QUADS 0) q)
    && (d.on .CTR_STAT_LIFE 0 || d.rg .CTR_STAT_STATE 0 != 3)

/-- The stage-1 refusals of R175 on one engine that post NOT_RUN, in the order of the table. An engine that owns no
quads skips the checks on pin domains, contactor and stream width. A member whose cluster is not on refuses the group
(R397). -/
def Dev.stage1 (d : Dev) (e : Nat) : List (Nat × Bool) :=
  let qs := d.quads e
  [(rREFCLK, d.noRef), (0x22, !d.domUp (domK (e / 16)) || qs.any (fun q => !d.domUp (domPd (q / 8)))), (0x26, d.contactorBlocks e),
   (0x21, !qs.isEmpty && d.rg .ENG_STR_CTRL_QUADS e != qs.length), (0x20, !d.on .ENG_BOB_STAT_READY e)]

/-- The refusal found first on any member (R175). -/
def Dev.refusal (d : Dev) (l : List Nat) : Option Nat :=
  (List.range 5).findSome? (fun k =>
    if l.any (fun e => ((d.stage1 e).getD k (0, false)).2) then some ((d.stage1 0).getD k (0, false)).1 else none)

/-- Clear a channel's edge-measure accumulators: COUNT, SUM, MIN, MAX and LAST (R162). -/
def Dev.emClear (d : Dev) (c : Nat) : Dev :=
  (((((d.st .PIN_EM_COUNT_COUNT c 0).st .PIN_EM_SUM_SUM c 0).st .PIN_EM_MIN_TIME c 0xFFFFFF).st .PIN_EM_MAX_TIME c 0).st
    .PIN_EM_LAST_TIME c 0).st .PIN_EM_LAST_VALID c 0

/-- Add a shot to a channel's accumulators (R162). -/
def Dev.emAdd (d : Dev) (c v : Nat) : Dev :=
  if d.rg .PIN_EM_COUNT_COUNT c = 0xFFFFFFFF then d
  else
    let d := (d.st .PIN_EM_COUNT_COUNT c (d.rg .PIN_EM_COUNT_COUNT c + 1)).st .PIN_EM_SUM_SUM c (d.rg .PIN_EM_SUM_SUM c + v)
    let d := (d.st .PIN_EM_MIN_TIME c (min (d.rg .PIN_EM_MIN_TIME c) v)).st .PIN_EM_MAX_TIME c (max (d.rg .PIN_EM_MAX_TIME c) v)
    (d.st .PIN_EM_LAST_TIME c v).st .PIN_EM_LAST_VALID c 1

/-- CLR (R162): a shot of the same cycle is accumulated after the clear. -/
def Dev.emClr (d : Dev) (c : Nat) : Dev :=
  ((d.chan c).shots.filter (fun s => s.1 == cycleOf d.tick)).foldl (fun d s => d.emAdd c s.2) (d.emClear c)

/-- What a channel latches at the start of a burst (R44, R132, R162). -/
def Dev.latchPin (d : Dev) (c : Nat) : Dev :=
  let y := d.chan c
  let d := d.setChan c { y with mode := .burst, window := d.on .PIN_STB_CTRL_MODE c, denNext := y.den,
                                winEnd := 0, shots := [], emCmp := d.rg .PIN_EM_CTRL_CMP c, emEdge := d.rg .PIN_EM_CTRL_EDGE c,
                                emSpan := d.rg .PIN_EM_CTRL_SPAN c }
  if d.on .PIN_EM_CTRL_KEEP c then d else d.emClear c

/-- Latch the settings and set the state of R176; the engine is STARTING. The records that a buffer without spill loses are
kept for a refusal at stage 2 (R146, R156). A recovery that still completes after an earlier burst is at its end (log 44). -/
def Dev.beginBurst (d : Dev) (e : Nat) : Dev :=
  let lead := d.eff .ENG_ENTRY_LEAD e
  let spill := d.on .ENG_FLOG_CTRL_SPILL e && 16 ≤ d.rg .ENG_FLOG_SIZE_LINES e
  let d := if d.on .ENG_FLOG_CTRL_SPILL e && !spill then d.st .ENG_FLOG_STAT_CFGERR e 1 else d
  let x := d.eng e
  let y : Eng := {
    bank := d.eff .ENG_ENTRY_BANK e, lead := if lead < 16 then 16 else if 128 < lead then 128 else lead
    hem := [d.rg .ENG_HEM0_HEM e, d.rg .ENG_HEM1_HEM e, d.rg .ENG_HEM2_HEM e, d.rg .ENG_HEM3_HEM e]
    careful := d.on .ENG_MC_CTRL_CAREFUL e || d.mode e == 4, cont := d.on .ENG_CONT_CONT e, spill := spill
    free := nextCycle d.tick, fbOld := if spill then x.fbCnt else 0
    recs := if spill then x.recs else [], fbHead := if spill then x.fbHead else 0, fbCnt := if spill then x.fbCnt else 0
    fbKept := if spill then none else some (x.recs, x.fbHead, x.fbCnt), lost := if spill then x.lost else none
    lines := x.lines, reqs := x.reqs, fetch := x.fetch, tacks := x.tacks, storeErr := x.storeErr, scan := x.scan
    acqArm := x.acqArm, palDue := x.palDue, recov := x.recov.map (fun r => { r with done := true }) }
  let d := d.setEng e y
  let d := if d.tied e then { d with far := d.far.map (fun (f : FarFlag) => if f.grp = d.grp e then { f with fail := false, match_ := false } else f),
                                     farQ := d.farQ.filter (fun f => f.grp != d.grp e) } else d
  let d := (d.st .ENG_PC_ADDR e (d.eff .ENG_ENTRY_ADDR e)).st .ENG_PC_BANK e y.bank
  let d := [Field.ENG_FLAGS_FAIL, .ENG_FLAGS_MATCH, .ENG_FLAGS_ZERO, .ENG_FLAGS_CARRY, .ENG_FLAGS_TFAIL, .ENG_FLAGS_TMATCH,
            .ENG_VP, .ENG_TS, .ENG_TAG, .ENG_ESTAT_RESUME, .ENG_ESTAT_INHANDLER, .ENG_ESTAT_SZERO, .ENG_ESTAT_SCARRY,
            .ENG_ESTAT_EVNUM, .ENG_EV_PEND_PEND, .ENG_CMP_DMASK_DMASK, .ENG_STR_PPOS_REP, .ENG_STR_PPOS_ROW,
            .ENG_FLOG_CNT_COUNT].foldl (fun d f => d.st f e 0) d
  let d := (List.range 4).foldl (fun d i => d.sti .ENG_PROG e i 0) d
  let d := ((d.st .ENG_ESTAT_IE e 1).st .ENG_STAT_STATE e 1).st .ENG_RES_STAT_RUNNING e 1
  (d.pins e).foldl (fun d c => d.latchPin c) d

/-- Start members that are all IDLE at their start instant, now: stage 1 of R175, then R176. A refusal goes to the members
on other devices too (R145). Their quads have taken the
newest calibration values (R428). -/
def Dev.startNow (d : Dev) (l : List Nat) : Dev :=
  match d.refusal l with
  | some r =>
    let d' := (l.filter (fun e => d.domOn (domK (e / 16)))).foldl (fun d e => d.refuse e r) d
    match l with
    | e :: _ => d'.tieTell e 2 r
    | [] => d'
  | none => l.foldl (fun d e => ((d.quads e).foldl (fun d q => d.calTake q) d).beginBurst e) d

/-- The first row of R175, with the modes of R417. -/
def Dev.startIgnored (d : Dev) (e : Nat) : Bool :=
  (d.members e).any (fun x => d.estate x != 0 || d.mode x == 1 || d.mode x == 3 || d.mode x == 5)

/-- A start order reaches engine `e` (R174, R175). In a tie group it reaches every member one tie latency later
(R66). -/
def Dev.startOrder (d : Dev) (e : Nat) : Dev :=
  if d.startIgnored e || (d.eng e).tieStart.isSome then d.bump .ENG_SREJ_COUNT e 1
  else if d.tied e then
    ((d.members e).foldl (fun b x =>
      b.modEng x (fun y => { y with tieStart := some (d.tick + d.tieLat e * cyc) })) d).tieTell e 0 0
  else d.startNow [e]

/-- The group's start reaches its members: all whose start is due at that instant start together (R66). -/
def Dev.tieStartArrival (d : Dev) (e : Nat) : Dev :=
  match (d.eng e).tieStart with
  | none => d
  | some t =>
    let l := (List.range 128).filter (fun x => (d.eng x).tieStart == some t && d.grp x == d.grp e)
    let d := (l.foldl (fun d x => d.modEng x (fun y => { y with tieStart := none })) d).advanceTo t
    if d.startIgnored e then d.bump .ENG_SREJ_COUNT e 1 else d.startNow l

/-- A register write to an engine needs its cluster on; the others are refused (R391). -/
def Dev.engWrite (d : Dev) (e : Nat) (g : Dev → Dev) : Dev :=
  if d.domOn (domK (e / 16)) then g d else d.bump .PWR_ACCREJ_COUNT 0 1

/-- HALT = 1 (R187). -/
def Dev.halt (d : Dev) (e : Nat) : Dev :=
  if d.estate e = 1 ∨ d.estate e = 2 then d.endFault e rHALT false else d

/-- ENG_START. -/
def execEngStart (e : EngId) (s : State) : Answer := .next (s.onDev (fun d => d.engWrite e (·.startOrder e)))

/-- TIE_START_ARRIVAL. -/
def execTieStartArrival (e : EngId) (s : State) : Answer := .next (s.onDev (·.tieStartArrival e))

/-- TIE_END_ARRIVAL. -/
def execTieEndArrival (e : EngId) (s : State) : Answer := .next (s.onDev (·.tieEndArrival e))

/-- HEM_STATE_APPLY. -/
def execHemStateApply (e : EngId) (s : State) : Answer := .next (s.onDev (·.hemApply e))

/-- RESULT_POST. -/
def execResultPost (e : EngId) (s : State) : Answer := .next (s.onDev (·.resultPost e))

/-- ENG_HALT. -/
def execEngHalt (e : EngId) (s : State) : Answer := .next (s.onDev (fun d => d.engWrite e (·.halt e)))

/-- PIN_EM_CLR: CLR = 1 (R162). -/
def execPinEmClr (c : ChId) (s : State) : Answer :=
  .next (s.onDev (fun d => if d.domOn (domPd (c / 32)) then d.emClr c else d.bump .PWR_ACCREJ_COUNT 0 1))

end Sys2Proof.Machine
end

