-- ==== Sys2Proof/Machine/Emit.lean ====
section
/-!
DEFINITION. Reading rows from the bobbin and issuing them into the emission queue (R73 to R78, R96, R111 to R119,
R124, R125, R128, R197, R198).
-/

namespace Sys2Proof.Machine

/-! ## The bobbin -/

def Dev.resident (d : Dev) (e : Nat) : Bool := d.rg .ENG_STR_CTRL_MODE e == 1

/-- Bytes of a site row: 2Q (R114). -/
def Dev.rowBytes (d : Dev) (e : Nat) : Nat := 2 * d.rg .ENG_STR_CTRL_QUADS e

/-- First and last line of the declared loop window. -/
def Dev.windowLines (d : Dev) (e : Nat) : Nat × Nat :=
  (d.rg .ENG_BOB_LSTART_START e / 256, (d.rg .ENG_BOB_LEND_END e - 1) / 256)

/-- Whether a window of 192 lines or fewer is declared (R125). -/
def Dev.windowSmall (d : Dev) (e : Nat) : Bool :=
  d.on .ENG_BOB_LREM_ACTIVE e && (d.windowLines e).2 + 1 - (d.windowLines e).1 ≤ 192

/-- Whether refill reads a declared window again at every pass (R125). -/
def Dev.windowLarge (d : Dev) (e : Nat) : Bool := d.on .ENG_BOB_LREM_ACTIVE e && !d.windowSmall e && !d.resident e

/-- Lines present at or beyond VP's line (ENG_BOB_STAT.AHEAD); in a large window, in the order of fetching. -/
def Dev.aheadLines (d : Dev) (e : Nat) : Nat :=
  let v := d.rg .ENG_VP e / 256
  if d.resident e then
    (if d.on .ENG_BOB_STAT_READY e then (d.rg .ENG_STR_LEN_LEN e + 255) / 256 - v else
      ((d.eng e).lines.filter (fun l => v ≤ l.1)).length)
  else if d.windowLarge e then ((d.eng e).lines.dropWhile (·.1 != v)).length
  else ((d.eng e).lines.filter (fun l => v ≤ l.1)).length

/-- Whether lines remain to be requested: of the stream, or of a large window that has passes due (R125, R126). -/
def Dev.linesRemain (d : Dev) (e : Nat) : Bool :=
  (d.eng e).fetch * 256 < d.rg .ENG_STR_LEN_LEN e || (d.windowLarge e && 0 < d.rg .ENG_BOB_LREM_REM e)

/-- Whether lines remain to be fetched, those on their way included; in a large window, lines of its passes (R127). -/
def Dev.linesMissing (d : Dev) (e : Nat) : Bool :=
  let w := d.windowLines e
  let x := d.eng e
  if d.windowLarge e then 0 < d.rg .ENG_BOB_LREM_REM e || x.fetch ≤ w.2 || x.reqs.any (fun n => w.1 ≤ n && n ≤ w.2)
  else d.linesRemain e || !x.reqs.isEmpty

/-- ENG_BOB_STAT.INPANIC (R120, R127). -/
def Dev.inPanic (d : Dev) (e : Nat) : Bool :=
  !d.resident e && d.runs e && d.linesMissing e && d.aheadLines e < d.rg .ENG_STR_CTRL_PANIC e

/-- Whether a large window has a pass due after the one VP is in: refill has still to return to START, or START's line
stands behind VP's in the order of fetching (R125). -/
def Dev.passDue (d : Dev) (e : Nat) : Bool :=
  let w := d.windowLines e
  let x := d.eng e
  0 < d.rg .ENG_BOB_LREM_REM e || (x.lines.drop 1).any (·.1 == w.1) || x.reqs.contains w.1

/-- Lines behind VP's line leave, but for those of a small window; in a large window the order of fetching decides, and
nothing leaves while VP stands past its end (R124, R125). -/
def Dev.release (d : Dev) (e : Nat) : Dev :=
  if d.resident e then d
  else
    let v := d.rg .ENG_VP e / 256
    let w := d.windowLines e
    let keep := fun (n : Nat) => v ≤ n || (d.windowSmall e && w.1 ≤ n && n ≤ w.2)
    d.modEng e (fun x => { x with
      lines := if d.windowLarge e then
          (if v ≤ w.2 && x.lines.any (·.1 == v) then x.lines.dropWhile (·.1 != v) else x.lines)
        else x.lines.filter (fun l => keep l.1) })

/-- VP passes END of the window: with no pass due the window ends; with passes due the first pass ends, and a small
window of a STREAM-mode bobbin is held (R125). -/
def Dev.vpPass (d : Dev) (e vp : Nat) : Dev :=
  let old := d.rg .ENG_VP e
  let d' := d.st .ENG_VP e vp
  let due := if d.windowLarge e then d.passDue e else 0 < d.rg .ENG_BOB_LREM_REM e
  let passes := d.on .ENG_BOB_LREM_ACTIVE e && old < d.rg .ENG_BOB_LEND_END e && d.rg .ENG_BOB_LEND_END e ≤ vp
  let d' := if !passes then d'
    else if !due then d'.endWindow e
    else if d.windowSmall e && !d.resident e then d'.st .ENG_BOB_LREM_HELD e 1
    else d'
  d'.release e

/-- A miss (R124): the lines ahead are discarded, refill restarts at the line, and issue holds. A pass of a large window
whose lines a miss discards is due again. -/
def Dev.missAt (d : Dev) (e line : Nat) : Dev :=
  let x := d.eng e
  let w := d.windowLines e
  let again := if d.windowLarge e then ((x.lines.drop 1).map (·.1) ++ x.reqs).count w.1 else 0
  let d := d.st .ENG_BOB_LREM_REM e (d.rg .ENG_BOB_LREM_REM e + again)
  (d.setEng e { x with
    miss := some line, missed := true, missFrom := max d.tick x.free, reqs := [], fetch := line
    lines := if d.on .ENG_BOB_LREM_HELD e then x.lines.filter (fun l => w.1 ≤ l.1 && l.1 ≤ w.2 && l.1 < line) else [] }).bump
    .ENG_BOB_MISS_COUNT e 1

/-- What a move of VP by the program does to the loop window (R125): a return to START counts a pass of a small window
and holds it; a move out of the window ends it. -/
def Dev.windowMove (d : Dev) (e old vp : Nat) : Dev :=
  if !d.on .ENG_BOB_LREM_ACTIVE e then d
  else if vp = d.rg .ENG_BOB_LSTART_START e ∧ old ≠ vp then
    if d.windowLarge e then d
    else (d.st .ENG_BOB_LREM_REM e (d.rg .ENG_BOB_LREM_REM e - 1)).st .ENG_BOB_LREM_HELD e (b2n (!d.resident e))
  else if vp < d.rg .ENG_BOB_LSTART_START e ∨ d.rg .ENG_BOB_LEND_END e ≤ vp then d.endWindow e
  else d

/-- Whether a move of VP from `old` to `vp` in a running burst is a miss: backward past its line, or to a line of the
stream that is not present, but for a return to START of the window (R124, R125). -/
def Dev.moveMisses (d : Dev) (e old vp : Nat) : Bool :=
  let v := vp / 256
  d.runs e && !d.resident e && v != old / 256 && decide (v * 256 < d.rg .ENG_STR_LEN_LEN e)
    && (decide (v < old / 256) || !(d.eng e).lines.any (·.1 == v))
    && !(d.on .ENG_BOB_LREM_ACTIVE e && vp == d.rg .ENG_BOB_LSTART_START e)

/-- Move VP by the program (R116, R124, R125). The pleat in progress is left (R119). -/
def Dev.vpSet (d : Dev) (e vp : Nat) : Dev :=
  let old := d.rg .ENG_VP e
  let vp := vp % 2 ^ 38
  let d' := ((d.st .ENG_VP e vp).st .ENG_STR_PPOS_REP e 0).st .ENG_STR_PPOS_ROW e 0
  let d' := ((d'.modEng e (fun x => { x with pleat := none })).windowMove e old vp).release e
  if d.moveMisses e old vp then d'.missAt e (vp / 256) else d'

/-- A line a row needs is absent (R124): a miss. The return to START of a large window with a pass due is not one: issue
holds until refill, which goes on there, brings it. -/
def Dev.lineAbsent (d : Dev) (e line : Nat) : Dev :=
  let x := d.eng e
  let back := d.windowLarge e && line == (d.windowLines e).1
    && (x.reqs.contains line || x.fetch == line || 0 < d.rg .ENG_BOB_LREM_REM e)
  if x.miss.isSome then d
  else if back then d.setEng e { x with miss := some line, missed := false, missFrom := max d.tick x.free }
  else d.missAt e line

/-- Where stream offset `off` stands in the engine's bobbin, if its line is present. -/
def Dev.bobAt (d : Dev) (e off : Nat) : Option Nat :=
  if d.resident e then some (bobMem e + off % 65536)
  else ((d.eng e).lines.find? (·.1 == off / 256)).map (fun l => bobMem e + 256 * l.2 + off % 256)

/-- What a read of the stream gives. -/
inductive StreamRead where
  | bytes (l : List Nat)
  | absent (line : Nat)
  | unreadable
  deriving DecidableEq, Repr

/-- Read `n` stream bytes (at most 256) from `off`. -/
def Dev.streamBytes (d : Dev) (m : List Host.Cell) (e off n : Nat) : StreamRead × Dev :=
  let n1 := min n (256 - off % 256)
  match d.bobAt e off, d.bobAt e (off + n - 1) with
  | none, _ => (.absent (off / 256), d)
  | _, none => (.absent ((off + n - 1) / 256), d)
  | some a, some _ =>
    let r := d.readBytes m 0x01 a n1
    let q := if n1 = n then ([], false, r.2.2) else r.2.2.readBytes m 0x01 ((d.bobAt e (off + n1)).getD 0) (n - n1)
    (if r.2.1 || q.2.1 then .unreadable else .bytes (r.1 ++ q.1), q.2.2)

/-- A row read at stream offset `off`, and whether VP breaks its alignment: none where the burst ends (R39, R115), or
issue holds. -/
def Dev.rowAt (d : Dev) (m : List Host.Cell) (e off : Nat) (skew : Bool) : Option Nat × Dev :=
  let bad := [(rSTREAMEND, decide (d.rg .ENG_STR_LEN_LEN e < off + d.rowBytes e)), (rVPALIGN, skew)].filter (·.2)
  if !bad.isEmpty then (none, bad.foldl (fun d b => d.endIssue e b.1) d)
  else match d.streamBytes m e off (d.rowBytes e) with
  | (.bytes l, d) => (some (leNat l), d)
  | (.absent n, d) => (none, d.lineAbsent e n)
  | (.unreadable, d) => (none, d.endIssue e rDATAUE)

/-- Bytes a FOLD's block takes: padded to a multiple of 8 (R117). -/
def foldBytes (rowBytes h : Nat) : Nat := (rowBytes * (bitsOf h 32 8 + 1) + 7) / 8 * 8

/-- Read the pleat header at VP, passing SKIP headers, and begin the pleat: whether one is begun (R117, R118). A header
read `ahead`, with the last row of the pleat before, meets an absent line as any read does (R119, R124); its errors are
those of the row read that needs it. -/
def Dev.header (d : Dev) (m : List Host.Cell) (e : Nat) (ahead : Bool) : Nat → Bool × Dev
  | 0 => (false, d)
  | n + 1 =>
    let vp := d.rg .ENG_VP e
    let err := fun (d : Dev) (r : Nat) => (false, if ahead then d else d.endIssue e r)
    let past := decide (d.rg .ENG_STR_LEN_LEN e < vp + 8)
    if vp % 8 ≠ 0 then (err (if past && !ahead then d.endIssue e rSTREAMEND else d) rVPALIGN)
    else if past then err d rSTREAMEND
    else match d.streamBytes m e vp 8 with
    | (.absent l, d) => (false, d.lineAbsent e l)
    | (.unreadable, d) => err d rDATAUE
    | (.bytes l, d) =>
      let h := leNat l
      if bitsOf h 40 22 ≠ 0 ∨ bitsOf h 62 2 = 3 ∨ (bitsOf h 62 2 = 0 ∧ bitsOf h 0 32 = 0) then err d rSTREAMFORMAT
      else if bitsOf h 62 2 = 1 then err d rSTREAMEND
      else if bitsOf h 62 2 = 2 then (d.vpPass e ((vp / 256 + 1) * 256 % 2 ^ 38)).header m e ahead n
      else
        let d := (d.st .ENG_STR_PPOS_REP e (bitsOf h 0 32)).st .ENG_STR_PPOS_ROW e 0
        (true, d.modEng e (fun x => { x with pleat := some h }))

/-- SKIP headers that one read passes at most. -/
def headerFuel : Nat := 300

/-- Begin a pleat where none is begun (R119). -/
def Dev.inPleat (d : Dev) (m : List Host.Cell) (e : Nat) : Bool × Dev :=
  if (d.eng e).pleat.isSome then (true, d) else d.header m e false headerFuel

def Dev.pleated (d : Dev) (e : Nat) : Bool := d.on .ENG_STR_CTRL_FORM e

/-- The current stream row (R115, R119): none where the burst ends or issue holds. -/
def Dev.curRow (d : Dev) (m : List Host.Cell) (e : Nat) : Option Nat × Dev :=
  if !d.pleated e then d.rowAt m e (d.rg .ENG_VP e) (d.rg .ENG_VP e % d.rowBytes e != 0)
  else
    let r := d.inPleat m e
    if r.1 then r.2.rowAt m e (r.2.rg .ENG_VP e + 8 + r.2.rg .ENG_STR_PPOS_ROW e * r.2.rowBytes e) false else (none, r.2)

/-- Consume the current stream row; with the last row of a pleat's last repetition the next header is read (R115,
R119). -/
def Dev.consume (d : Dev) (m : List Host.Cell) (e : Nat) : Dev :=
  if !d.pleated e then d.vpPass e ((d.rg .ENG_VP e + d.rowBytes e) % 2 ^ 38)
  else
    match (d.eng e).pleat with
    | none => d
    | some h =>
      let row := d.rg .ENG_STR_PPOS_ROW e
      if row < bitsOf h 32 8 then d.st .ENG_STR_PPOS_ROW e (row + 1)
      else if 1 < d.rg .ENG_STR_PPOS_REP e then
        (d.st .ENG_STR_PPOS_ROW e 0).st .ENG_STR_PPOS_REP e (d.rg .ENG_STR_PPOS_REP e - 1)
      else
        let d' := (d.st .ENG_STR_PPOS_ROW e 0).st .ENG_STR_PPOS_REP e 0
        let d' := (d'.modEng e (fun x => { x with pleat := none })).vpPass e
          ((d.rg .ENG_VP e + 8 + foldBytes (d.rowBytes e) h) % 2 ^ 38)
        (d'.header m e true headerFuel).2

/-- Consume the current stream row where it need not have been emitted (R224): whether it was, or issue holds. -/
def Dev.consumeRow (d : Dev) (m : List Host.Cell) (e : Nat) : Bool × Dev :=
  let r := if d.pleated e then d.inPleat m e else (true, d)
  if r.1 then (true, r.2.consume m e) else r

/-- The stream bytes that the next row of an instruction needs: offset and length; of the current stream row where none
is in progress. -/
def Dev.rowNeeds (d : Dev) (e : Nat) (w : Option Nat) : Option (Nat × Nat) :=
  let vp := d.rg .ENG_VP e
  let n := d.rowBytes e
  let op := bitsOf (w.getD 0) 54 10
  if w.isSome && op == 66 then none
  else if w.isSome && op == 257 then
    let t := d.rg .ENG_APG_CTRL_TROWS_M1 e + 1
    let k := bitsOf (w.getD 0) (4 * ((d.eng e).pos / t)) 3
    some (vp + (k * t + (d.eng e).pos % t) * n, n)
  else if !d.pleated e then some (vp, n)
  else if (d.eng e).pleat.isNone then some (vp, 8)
  else some (vp + 8 + d.rg .ENG_STR_PPOS_ROW e * n, n)

/-- The line that the next row read needs and that is absent (R37, R124). -/
def Dev.lineWanted (d : Dev) (e : Nat) : Option Nat :=
  match (d.eng e).miss, d.rowNeeds e (d.eng e).act with
  | some l, _ => some l
  | none, some (o, n) =>
    if (d.bobAt e o).isNone then some (o / 256) else if (d.bobAt e (o + n - 1)).isNone then some ((o + n - 1) / 256) else none
  | none, none => none

/-! ## Periods and the pins' state before a burst -/

/-- Length of a period in ticks, a follower's at its period now (R74, R103). -/
def Dev.perTicks (d : Dev) : Per → Rat
  | .fixed t => t
  | .follow f m n => (d.rg .FT_PERIOD_PERIOD f : Rat) * m / (256 * n)

/-- The period a period-table entry gives (R74). -/
def perOf (ent : Nat) : Per :=
  if bitOf ent 40 then .follow (bitsOf ent 41 3) (bitsOf ent 44 10) (bitsOf ent 54 10) else .fixed (bitsOf ent 0 40)

/-- Whether a period entry is invalid (R75). -/
def Dev.perBad (d : Dev) (ent : Nat) : Bool :=
  match perOf ent with
  | .fixed t => t < 2000
  | .follow f m n => m == 0 || n == 0 || d.perTicks (.follow f m n) < 2000

/-- The timebase an entry names (R96). -/
def Per.base : Per → Option Nat
  | .fixed _ => none
  | .follow f _ _ => some f

/-- The effective code that HOLD repeats in a burst's first row, from the pin's state before it (R111). -/
def Dev.preCode (d : Dev) (c : Nat) : Nat × Bool :=
  let x := d.chan c
  if x.den then (b2n x.drv, false) else (2, false)

/-- Effective codes of a row's pins, with the pin-word bit each uses (R111, R112). -/
def holdCodes (word pinw : Nat) (prev : List (Nat × Bool)) : List (Nat × Bool) :=
  prev.zipIdx.map (fun pk =>
    let c := bitsOf word (4 * pk.2) 4
    if c = 3 then pk.1 else (c, bitOf pinw pk.2))

/-- Start of the next row to issue, the end of the queued rows, as `Eng.next` keeps it. -/
def Dev.tailStart (d : Dev) (e : Nat) : Option Rat :=
  (d.eng e).next.map (fun r => (d.eng e).queue.foldl (fun t q => t + q.per.len) r)

/-- The DUT cycle whose edge is the first that follower `f` tracks at or after tick `t` (R103). -/
def Dev.ftCycleAt (d : Dev) (f t : Nat) : Rat :=
  let p : Rat := (d.rg .FT_PERIOD_PERIOD f : Rat) / 256
  (d.ft f).cycle + (max 0 (((t : Rat) - (d.ft f).ref) / p).ceil : Int)

/-! ## Ends at the issue of a row -/

/-- The deadline of the next row to issue: 8 cycles before its start at the pins (R128). -/
def Dev.rowDeadline (d : Dev) (e : Nat) : Option Nat :=
  if d.estate e = 2 ∧ 0 < (d.eng e).issued then (d.tailStart e).map (fun r => (d.rowTick e r - (8 * cyc : Nat)).ceil.toNat) else none

/-- The next row is not in the queue at its deadline `t` (R128). The reason is MC_STALL when a recovery, or the stall of a
tie partner's, is in progress and no line it needs is absent (R37, R38). -/
def Dev.underrun (d : Dev) (e t : Nat) : Dev :=
  let x := d.eng e
  let want := d.lineWanted e
  if (x.recov.any (fun r => !r.done || t < x.free) || t < x.stallTo) && want.isNone then d.endFaultAt e rMCSTALL true t
  else
    let v := x.issued
    let line := want.getD (d.rg .ENG_VP e / 256)
    let panic := (List.range 16).any (fun k => d.inPanic (e / 16 * 16 + k))
    let d := ((d.st .ENG_URUN_VCNT_VCNT e v).st .ENG_URUN_VP_VP e (d.rg .ENG_VP e)).st .ENG_URUN_LINE_MISS e (b2n x.missed)
    let d := (d.st .ENG_URUN_LINE_PANIC e (b2n panic)).st .ENG_URUN_LINE_LINE e (d.rg .ENG_STR_BASE_LINE e + line)
    let d := (d.bump .ENG_URUN_CNT_COUNT e 1).logStamped (d.stampAt t 0) 0x10 0x12 e v
    let d := d.urgentUnderrun (.bobbin ⟨e / 16 % 8, Nat.mod_lt _ (by decide)⟩) (d.rg .ENG_STR_BASE_LINE e + line)
    (d.modEng e (fun x => { x with urun := some v })).endFaultAt e rUNDERRUN true t

/-- A deadline that lies before tick `t` has been missed, whatever comes after it (R128). -/
def Dev.overdue (d : Dev) (e t : Nat) : Dev :=
  match d.rowDeadline e with
  | some u => if u < t then d.underrun e u else d
  | none => d

/-- Clear the summary as the burst emits its first row (R146); DRIFT is the burst's (R148, R424, R429). -/
def Dev.clearSummary (d : Dev) (e : Nat) : Dev :=
  let d := [Field.ENG_RES_STAT_LFAIL, .ENG_RES_STAT_LOGINC, .ENG_RES_STAT_DRIFT, .ENG_RES_VCNT_VCNT, .ENG_RES_FFV_VCNT,
    .ENG_RES_FFV_VALID, .ENG_RES_FFV_TSET, .ENG_RES_FFTAG_TAG, .ENG_RES_FFPINS_PINS, .ENG_RES_PF_FAILED].foldl
    (fun d f => d.st f e 0) d
  let d := (List.range 64).foldl (fun d p => d.sti .ENG_RES_FCNT_COUNT e p 0) d
  if (d.pins e).any (fun c => d.on .PIN_CAL_STAT_DRIFT c || d.on .PIN_CAL_STAT_CALBAD c) then
    (d.st .ENG_RES_STAT_DRIFT e 1).raise e 8
  else d

/-- A stage-2 refusal of one member (R175): it posts NOT_RUN behind the records held before the start (R146) and is IDLE
again; its window ends and a STREAM-mode bobbin is not ready (R122, R125). -/
def Dev.refuseStart (d : Dev) (e reason : Nat) : Dev :=
  let d := ((d.holdEnds e).orphans e d.tick).endWindow e
  let d := (d.st .ENG_STAT_STATE e 0).st .ENG_RES_STAT_RUNNING e 0
  let d := d.modEng e (fun y =>
    let z := { y.posted with act := none, br := none, mark := false, reqs := [], recov := none }
    match y.fbKept with
    | some (r, h, c) => { z with recs := r, fbHead := h, fbCnt := c }
    | none => z)
  let d := (d.pins e).foldl (fun d c => d.setChan c { d.chan c with mode := .hem }) d
  (d.streamOver e).refuse e reason

/-- A stage-2 refusal (R175): every member posts it, those on other devices too. -/
def Dev.refuseGroup (d : Dev) (e reason : Nat) : Dev :=
  ((d.members e).foldl (fun d x => if d.runs x then d.refuseStart x reason else d) d).tieTell e 2 reason

/-! ## Issuing a row -/

/-- The 32 bytes that a row takes in the emission queue: 4 bits per site pin (R31). -/
def Row.bytes (r : Row) : List Nat := leBytes 32 ((r.codes.zipIdx.map (fun c => c.1.1 % 16 * 16 ^ c.2)).foldl (· + ·) 0)

/-- The row with the codes that its bytes in the queue give. -/
def Row.withBytes (r : Row) (l : List Nat) : Row :=
  { r with codes := r.codes.zipIdx.map (fun c => (bitsOf (leNat l) (4 * c.2) 4, c.1.2)) }

/-- Where row `r` stands in the emission queue of engine `e`. -/
def Row.slot (r : Row) (e : Nat) : Nat := eqMem e + r.vcnt % 256 * 32

/-- Issue one row with pin codes `word` and pin word `pinw` in the cycle that starts at tick `u`: whether it entered
the queue. Its period and edge entries are read whole, once (R78); a period, format, timebase or memory error ends the
burst at the previous row (R26, R75, R76, R96); a row later than 8 cycles before its start is an underrun (R128). -/
def Dev.emitRow (d : Dev) (m : List Host.Cell) (e word pinw u : Nat) : Bool × Dev :=
  let ts := d.rg .ENG_TS e
  let p := d.readBytes m 0x03 (perMem e ts) 8
  let ent := leNat p.1
  let ps := d.pins e
  let ed := ps.foldl (fun (a : List Nat × Bool × Dev) c =>
    let r := a.2.2.readBytes m 0x03 (edgeMem c ts) 16
    (a.1 ++ [leNat r.1], a.2.1 || r.2.1, r.2.2)) ([], false, p.2.2)
  let d := ed.2.2
  let x := d.eng e
  let per := perOf ent
  let first := x.issued == 0
  let stage2 := first && !p.2.1 && per.base.isSome
  let f := per.base.getD 0
  if stage2 && !d.on .FT_STAT_LOCKED f then (false, d.refuseGroup e 0x23)
  else if stage2 && d.scope e == 3 then (false, d.refuseGroup e 0x24)
  else
    let bad := [(rDATAUE, p.2.1 || ed.2.1), (rTSETINVALID, d.perBad ent || ed.1.any (fun w => 7 ≤ bitsOf w 120 4)),
                (rTSETTIMEBASE, x.tb != none && x.tb != some per.base)].filter (·.2)
    if !bad.isEmpty then (false, bad.foldl (fun d b => d.endIssue e b.1) d)
    else
      let start : Rat := (d.tailStart e).getD (match per.base with
        | none => ((u + x.lead * cyc : Nat) : Rat)
        | some f => d.ftCycleAt f (u + x.lead * cyc))
      let at_ := d.rowTick e start
      if !first && at_ < ((u + 8 * cyc : Nat) : Rat) then (false, d.underrun e ((at_ - 8 * cyc).ceil.toNat))
      else
        let prev := if first then ps.map d.preCode else x.prev
        let codes := holdCodes word pinw prev
        let row : Row := {
          vcnt := x.issued, tset := ts, tag := d.rg .ENG_TAG e, word := word, dmask := x.dmask, flog := !x.susp, per := per
          codes := codes, edges := ed.1, acts := x.anch }
        let d := if first then (d.clearSummary e).st .ENG_STAT_STATE e 2 else d
        let slot := row.slot e
        let d := d.setEng e { x with
          queue := x.queue ++ [row], issued := x.issued + 1, prev := codes, anch := [], tb := some per.base, fbKept := none
          held := x.held.map (fun h => { h with rows := h.rows + 1 })
          next := if first then some start else x.next
          beatPer := if x.beatPer.any (·.1 == d.coarseAt u / 64) then x.beatPer
            else (d.coarseAt u / 64, ent) :: x.beatPer.take 15 }
        (true, ((d.st .ENG_CMP_DMASK_DMASK e x.dmask).markWord slot false).markWord (slot + 16) false)

end Sys2Proof.Machine
end

