-- ==== Sys2Proof/Machine/Feb.lean ====
section
/-!
DEFINITION. The front-end control buses (R45 to R54).
-/

namespace Sys2Proof.Machine

/-- A frame with its parity bit computed: even parity over bits [31:1] (R46). -/
def febParity (frame : Nat) : Nat := frame / 2 % 2 ^ 31 * 2 + parityOf 31 (frame / 2)

/-- Bit 31 marks a read frame. -/
def febIsRead (frame : Nat) : Bool := bitOf frame 31

/-- Rank of a source among the frames of one cycle (R49): engines in their order, then calibration, then the host. -/
def FebSrc.rank : FebSrc → Nat
  | .engine e => e
  | .cal _ => 128
  | .host => 129

/-- The queue with a new frame: behind all frames, but ahead of those of the same cycle with a later rank (R49). -/
def febInsert (x : FebFrame) : List FebFrame → List FebFrame
  | [] => [x]
  | y :: l => if cycleOf y.at_ = cycleOf x.at_ ∧ x.src.rank < y.src.rank then x :: y :: l else y :: febInsert x l

/-- Queue a frame; one in progress keeps the head. -/
def Dev.febPush (d : Dev) (pd : Nat) (src : FebSrc) (frame : Nat) : Dev :=
  let x := d.feb pd
  let n : FebFrame := ⟨src, febParity frame, d.tick⟩
  d.setFeb pd { x with queue := if x.busy && x.retry.isNone then x.queue.take 1 ++ febInsert n (x.queue.drop 1)
                                else febInsert n x.queue }

/-- Room for host and calibration frames (R50): 8 or fewer entries held. -/
def Dev.febRoom (d : Dev) (pd : Nat) : Bool := (d.feb pd).queue.length ≤ 8

/-- Frames queued, including one in progress (QDEPTH). -/
def Feb.depth (x : Feb) : Nat := x.queue.length + b2n x.retry.isSome

/-- The bus is idle, sends, and holds a frame: the next frame begins (R45, R49). -/
def Dev.febFrameStart (d : Dev) (pd : Nat) : Dev :=
  let x := d.feb pd
  match x.queue with
  | fr :: _ =>
    if !x.busy && d.domOn (domPd pd) && d.on .FEB_CTRL_EN pd then (d.setFeb pd { x with busy := true }).emit (.feb pd fr.bits)
    else d
  | [] => d

/-- Calibration frames that wait enter the queue as far as there is room (R50). -/
def Dev.calFeed (d : Dev) (pd : Nat) : Dev :=
  d.cal.wait.foldl (fun d f =>
    if f.2.1 = pd ∧ d.febRoom pd then { d with cal := { d.cal with wait := d.cal.wait.erase f } }.febPush pd (.cal f.1) f.2.2
    else d) d

/-- A host read that ended: FEB_HRD takes its data (R54). -/
def Dev.febHostRead (d : Dev) (pd data err : Nat) : Dev :=
  ((d.st .FEB_HRD_DATA pd data).st .FEB_HRD_VALID pd 1).st .FEB_HRD_ERR pd err

/-- The frame `fr` has ended with read data `di`, `ok` where they pass parity: reads are reported, one that failed twice with
PERR (R48). -/
def Dev.febDone (d : Dev) (pd di : Nat) (fr : FebFrame) (ok : Bool) : Dev :=
  if !febIsRead fr.bits then d
  else
    let d := if ok then d else (d.st .FEB_STAT_PERR pd 1).irq 201
    match fr.src with
    | .host => d.febHostRead pd (di / 2) (b2n !ok)
    | .cal step => { d with calRead := d.calRead ++ [(step, pd, if ok then some (di / 2) else none)] }
    | .engine _ => d

/-- The frame in progress ends. `di` is what the SU5128 sampled on FEBk_DI of a read: 16 data bits, then the parity
bit. A read that fails parity is repeated once, directly, and takes no entry; a domain that is not on gives no data (R47,
R48, R53). -/
def Dev.febFrameComplete (d : Dev) (pd di : Nat) : Dev :=
  let x := d.feb pd
  let on := d.domOn (domPd pd)
  let ok := parityOf 17 di == 0
  match x.busy, x.retry, x.queue with
  | true, some fr, q =>
    let d := (d.setFeb pd { queue := q }).calFeed pd
    if on then d.febDone pd di fr ok else d
  | true, none, fr :: q =>
    if on && febIsRead fr.bits && !ok then
      ((d.setFeb pd { queue := q, busy := true, retry := some fr }).calFeed pd).emit (.feb pd fr.bits)
    else
      let d := (d.setFeb pd { queue := q }).calFeed pd
      if on then d.febDone pd di fr true else d
  | _, _, _ => d

/-- A host write to FEB_HCMD (R50, R53, R391). DATA of a read frame goes out as written (log 81). -/
def Dev.febHcmd (d : Dev) (pd frame : Nat) : Dev :=
  if !d.domOn (domPd pd) then ((d.bump .PWR_ACCREJ_COUNT 0 1).st .FEB_STAT_OFFREJ pd 1).irq 201
  else if d.quies.contains (domPd pd) then (d.st .FEB_STAT_OFFREJ pd 1).irq 201
  else if d.febRoom pd then d.febPush pd .host frame
  else d.bump .FEB_STAT_HDROP pd 1

/-- FLUSH discards every host and calibration frame not yet begun, but for those of the same cycle; calibration frames that
wait find room (R50, R54). -/
def Dev.febFlush (d : Dev) (pd : Nat) : Dev :=
  let x := d.feb pd
  let keep := fun (q : List FebFrame) => q.filter (fun f => decide (f.src.rank < 128) || cycleOf f.at_ == cycleOf d.tick)
  (d.setFeb pd { x with queue := if x.busy && x.retry.isNone then x.queue.take 1 ++ keep (x.queue.drop 1) else keep x.queue }).calFeed
    pd

/-- FEB_FRAME_START. -/
def execFebFrameStart (pd : PdId) (s : State) : Answer := .next (s.onDev (·.febFrameStart pd))

/-- FEB_FRAME_COMPLETE. -/
def execFebFrameComplete (pd : PdId) (di : BitVec 17) (s : State) : Answer :=
  .next (s.onDev (·.febFrameComplete pd di.toNat))

/-- FEB_HCMD. -/
def execFebHcmd (pd : PdId) (frame : BitVec 32) (s : State) : Answer :=
  .next (s.onDev (·.febHcmd pd frame.toNat))

/-- FEB_FLUSH: a register write, so it needs the domain on (R391). -/
def execFebFlush (pd : PdId) (s : State) : Answer :=
  .next (s.onDev (fun d => if d.domOn (domPd pd) then d.febFlush pd else d.bump .PWR_ACCREJ_COUNT 0 1))

end Sys2Proof.Machine
end

