-- ==== Sys2Proof/Machine/Pins.lean ====
section
/-!
DEFINITION. Rows at the pins: edges, strobes, compares, captures and edge measurement (R41, R42, R79 to R93, R132 to
R142, R160 to R163, R198).
-/

namespace Sys2Proof.Machine

/-! ## Scheduling a row's edges -/

/-- Driving codes (R83). -/
def isDriving (c : Nat) : Bool := c == 0 || c == 1 || c == 10 || c == 11 || c == 12 || c == 14

/-- Whether STB_OPEN fires for a code in a format (R87). -/
def isStrobed (c fmt : Nat) : Bool :=
  c == 4 || c == 5 || c == 6 || c == 8 || c == 9 || c == 13 || c == 15 || ((c == 10 || c == 11) && fmt != 4)

/-- Offset in ticks of an edge time: absolute, or a number of the row's periods (R79 to R81). -/
def edgeOff (phase : Bool) (t : Nat) (per : Rat) : Nat :=
  if phase then roundTick ((t : Rat) * per / 65536) else t

/-- A drive-side edge to schedule: generator, offset, action. -/
abbrev Sched := Nat × Nat × EdgeAct

/-- The drive and enable edges of a row on one pin (R83 to R86). `on` is DEN as the earlier rows leave it. -/
def driveEdges (code fmt : Nat) (bit on : Bool) (a b on_ off_ : Nat) : List Sched :=
  if !isDriving code then (if on then [(3, off_, .den false)] else [])
  else
    let v := code == 1 || code == 11 || (code == 14 && bit)
    let en : List Sched := if on then [] else [(2, on_, .den true)]
    let first := if code = 10 then false else if code = 11 then true else v
    let second := if code = 10 then true else if code = 11 then false else v
    let drv : List Sched :=
      if code = 12 then
        (if fmt = 2 then [(0, a, .drv false), (1, b, .drv true)] else [(0, a, .drv true), (1, b, .drv false)])
      else match fmt with
        | 0 => [(0, a, .drv v)]
        | 1 => [(0, a, .drv v), (1, b, .drv false)]
        | 2 => [(0, a, .drv v), (1, b, .drv true)]
        | 3 => [(6, 0, .drv !v), (0, a, .drv v), (1, b, .drv !v)]
        | 4 => [(0, a, .drv first), (1, b, .drv second)]
        | 5 => [(0, a, .drv true), (1, b, .drv false)]
        | _ => if v then [(0, a, .toggle)] else []
    en ++ drv

/-- Generator that holds a scheduled edge: the SC edge at offset 0 is DRV_B's (R84). -/
def genOf (g : Nat) : Nat := if g = 6 then 1 else g

/-- An edge breaks its generator's spacing or depth (R89). -/
def Chan.violates (x : Chan) (g t : Nat) : Bool :=
  let l := x.pend.filter (fun p => genOf p.gen == genOf g)
  16 ≤ l.length || l.any (fun p => p.t < t + 1000 && t < p.t + 1000)

/-- Insert an edge in time order; edges of one instant keep the order of scheduling (R88). -/
def insEdge (p : PEdge) : List PEdge → List PEdge
  | [] => [p]
  | q :: l => if p.t < q.t then p :: q :: l else q :: insEdge p l

/-- Schedule one edge, or count a violation: whether it was scheduled. -/
def Dev.schedule (d : Dev) (c : Nat) (p : PEdge) : Bool × Dev :=
  let x := d.chan c
  if x.violates p.gen p.t then (false, d.bump .PIN_EDGE_VIOL_COUNT c 1)
  else (true, d.setChan c { x with pend := insEdge p x.pend })

/-- What a row's scheduling on its pins has found so far: strobes taken, and a violation that ends the burst. -/
structure SchedAcc where
  strobes : Nat
  stop    : Bool
  dev     : Dev

/-- A row as its edges see it: its engine, vector count, start in ticks, and on a follower the phase of its start and its
period in DUT cycles (R81). -/
structure RowAt where
  eng  : Nat
  vcnt : Nat
  t0   : Nat
  dut  : Option (Nat × Rat × Rat)
  deriving DecidableEq, Repr

/-- The row `r` of engine `e` with start `s`. -/
def Dev.rowAtPins (d : Dev) (e : Nat) (r : Row) (s : Rat) : RowAt :=
  ⟨e, r.vcnt, roundTick (d.rowTick e s), match r.per with
    | .fixed _ => none
    | .follow f _ _ => some (f, s, r.per.len)⟩

/-- One edge of a row on pin `p`, channel `c`: its programmed time with deskew and calibration added (R79 to R82); a phase
edge on a follower timebase moves with the DUT clock. -/
def Dev.pinEdge (d : Dev) (w : RowAt) (c p g : Nat) (phase : Bool) (time : Nat) (per : Rat) (act : EdgeAct) : PEdge :=
  let n := w.t0 + edgeOff phase time per
  let i := d.edgeCorr c g n
  ⟨moved n i, g, w.eng, p, w.vcnt, w.t0, act, if phase then w.dut.map (fun q => ⟨q.1, q.2.1 + (time : Rat) * q.2.2 / 65536, i⟩)
    else none⟩

/-- Schedule drive and enable edges of one pin. -/
def SchedAcc.drive (a : SchedAcc) (c : Nat) (l : List PEdge) : SchedAcc :=
  l.foldl (fun a p =>
    let r := a.dev.schedule c p
    let d := if r.1 then (match p.act with
      | .den b => r.2.modChan c (fun x => { x with denNext := b })
      | _ => r.2) else r.2
    { a with stop := a.stop || (!r.1 && d.on .PIN_TCTRL_VIOL_ACT c), dev := d }) a

/-- Schedule the strobe of one pin (R87, R89, R90): `so` and `sc` are its STB_OPEN and STB_CLOSE edges. -/
def SchedAcc.strobe (a : SchedAcc) (c code : Nat) (so sc : PEdge) (bit masked : Bool) : SchedAcc :=
  let d := a.dev
  let x := d.chan c
  let act1 := d.on .PIN_TCTRL_VIOL_ACT c
  let overlap := x.window && so.t < x.winEnd
  let wide := x.window && so.t + 1000 ≤ sc.t
  let openOk := !overlap && !x.violates 4 so.t
  let r := if x.window then d.schedule c sc else (true, d)
  let viol := (if openOk then 0 else 1) + (if r.1 then 0 else 1)
  let d := r.2
  if openOk then
    let close := if wide && r.1 then some sc.t else none
    let d := (d.schedule c { so with act := .open_ code bit masked close }).2
    let d := d.modChan c (fun x => { x with winEnd := max x.winEnd (close.getD 0) })
    { strobes := a.strobes + 1, stop := a.stop || (act1 && viol != 0), dev := d }
  else { a with stop := a.stop || act1, dev := d.bump .PIN_EDGE_VIOL_COUNT c 1 }

/-- The drive and enable edges of a row on pin `p`, channel `c`, with edge entry `ent` (R82 to R86). -/
def Dev.rowDrives (d : Dev) (w : RowAt) (c p : Nat) (code : Nat × Bool) (ent : Nat) (per : Rat) : List PEdge :=
  let f := fun k => bitsOf ent (20 * k) 20
  (driveEdges code.1 (bitsOf ent 120 4) code.2 (d.chan c).denNext (f 0) (f 1) (f 2) (f 3)).map (fun s =>
    d.pinEdge w c p s.1 (bitOf ent 124) s.2.1 per s.2.2)

/-- Schedule all edges of a row (R73, R78). -/
def Dev.scheduleRow (d : Dev) (w : RowAt) (r : Row) : SchedAcc :=
  let per := d.perTicks r.per
  let mask := d.eff .ENG_CMP_MASK_MASK w.eng ||| r.dmask
  ((d.pins w.eng).zip (r.codes.zip r.edges)).zipIdx.foldl (fun a q =>
    let c := q.1.1
    let code := q.1.2.1
    let ent := q.1.2.2
    let p := q.2
    let a := a.drive c (a.dev.rowDrives w c p code ent per)
    let stb := fun g => a.dev.pinEdge w c p g (bitOf ent 124) (bitsOf ent (20 * g) 20) per .close
    if isStrobed code.1 (bitsOf ent 120 4) then a.strobe c code.1 (stb 4) (stb 5) code.2 (bitOf mask p) else a) ⟨0, false, d⟩

/-- The edges that channel `c` has pending once the first queued row of engine `e` has scheduled its own, where that row
can put one within 200 ps after tick `t`: what an edge at `t` has to give way to (R91). -/
def Dev.comingEdges (d : Dev) (e c t : Nat) : List PEdge :=
  let x := d.eng e
  match x.queue, x.next with
  | r :: _, some s =>
    let p := (d.pins e).idxOf c
    match (r.codes.zip r.edges)[p]? with
    | some q =>
      if t + 800 ≤ d.rowBegin e s then (d.chan c).pend
      else ((⟨0, false, d⟩ : SchedAcc).drive c (d.rowDrives (d.rowAtPins e r s) c p q.1 q.2 (d.perTicks r.per))).dev.chan c |>.pend
    | none => (d.chan c).pend
  | _, _ => (d.chan c).pend

/-- A queued row starts at the pins as the decoder of the emission queue delivers it (R23, R73, R128): the vector count
advances, its edges are scheduled, its pin-aligned actions fall due, and a row without strobes may resolve. -/
def Dev.pinStart (d : Dev) (e : Nat) : Dev :=
  let x := d.eng e
  match x.queue, x.next with
  | r :: rest, some t =>
    if !d.runs e || x.hemDone then d
    else
      let d := d.advanceTo (d.rowBegin e t)
      let q := d.rowAtPins e r t
      let w := d.readBytes (memWrite [] (r.slot e) r.bytes) 0x01 (r.slot e) 32
      let r := r.withBytes w.1
      let d := w.2.2
      if w.2.1 then d.endFault e rDATAUE false
      else
        let lvls := r.acts.filterMap (fun a => match a with | .lvl pd f => some (pd, f) | _ => none)
        let acts := r.acts.filterMap (fun a => match a with | .lvl .. => none | _ => some (a, q.t0, false))
        let d := d.setEng e { x with queue := rest, next := some (t + r.per.len), febDue := x.febDue ++ lvls,
                                     palDue := x.palDue ++ acts }
        let d := d.st .ENG_RES_VCNT_VCNT e (r.vcnt + 1)
        let a := d.scheduleRow q r
        let d := a.dev.modEng e (fun x => { x with
          unres := x.unres ++ [⟨r.vcnt, r.tset, r.tag, r.flog, r.word, a.strobes, q.t0, q.t0, r.per, [], []⟩] })
        let d := d.resolve e 4096
        if a.stop then d.endFault e rEDGE false else d
  | _, _ => d

/-! ## Strobes -/

/-- Whether a state agrees with a compare code; `base` is the level a V strobe has settled on (R136). -/
def agrees (code : Nat) (bit : Bool) (base : Option Bool) (h l : Bool) : Bool :=
  if code = 4 || code = 10 || (code = 15 && !bit) then !h && !l
  else if code = 5 || code = 11 || (code = 15 && bit) then h && l
  else if code = 6 then !h && l
  else if code = 8 then (match base with
    | none => h == l
    | some b => h == b && l == b)
  else true

/-- The level a V strobe holds to once it has seen LOW or HIGH. -/
def vBase (code : Nat) (base : Option Bool) (h l : Bool) : Option Bool :=
  if code = 8 && base.isNone && h == l then some h else base

/-- STB_OPEN fires: the state is sampled and, in a window or a measure span, watched to its close. A window taken as an edge
strobe measures for SPAN (R90, R133, R134, R161). -/
def Dev.openStrobe (d : Dev) (c : Nat) (p : PEdge) (code : Nat) (bit masked : Bool) (close : Option Nat) : Dev :=
  let x := d.chan c
  let span := min 256000 (close.elim (max x.emSpan 1 * 1000) (fun t => t - p.t))
  let closes := if code = 13 then p.t + span else if code = 9 then p.t else close.getD p.t
  let ok := agrees code bit none x.cmh x.cml
  let s : Strobe := {
    eng := p.eng, pin := p.pin, vcnt := p.vcnt, code := code, bit := bit, masked := masked, opened := p.t, closes := closes
    row0 := p.row0, h0 := x.cmh, l0 := x.cml, dev := none, cand := if ok then none else some (p.t, x.cmh, x.cml)
    base := vBase code none x.cmh x.cml, emT := none }
  d.setChan c { x with strobes := x.strobes ++ [s] }

/-- A deviation that ends at tick `t` (R134): 200 ps or more is detected; a shorter one is detected or not, and the
model leaves that free (log 2). -/
def Dev.settleDev (d : Dev) (s : Strobe) (t : Nat) : Strobe × Dev :=
  match s.cand with
  | none => (s, d)
  | some (t0, h, l) =>
    if s.dev.isSome then ({ s with cand := none }, d)
    else if t0 + 800 ≤ t then ({ s with cand := none, dev := some (h, l) }, d)
    else
      let b := d.freeBit
      ({ s with cand := none, dev := if b.1 then some (h, l) else none }, b.2)

/-- A comparator change at tick `t` as an open strobe sees it. -/
def Dev.watchStrobe (d : Dev) (s : Strobe) (t : Nat) (h l was wasL : Bool) (cmp edge : Nat) : Strobe × Dev :=
  if s.code = 13 then
    let b := if cmp = 0 then was else wasL
    let a := if cmp = 0 then h else l
    let hit := (edge == 0 && !b && a) || (edge == 1 && b && !a) || (edge == 2 && a != b)
    (if s.emT.isNone && hit && t ≤ s.closes then { s with emT := some t } else s, d)
  else if s.closes < t || s.closes = s.opened then (s, d)
  else if agrees s.code s.bit s.base h l then
    let r := d.settleDev s t
    ({ r.1 with base := vBase s.code s.base h l }, r.2)
  else if s.cand.isSome then (s, d)
  else ({ s with cand := some (t, h, l) }, d)

/-- Settle the INVALID counter at tick `t` (R42): 250 ps of INVALID count once; a shorter one counts or not (log 2).
`ends` tells that the INVALID ends then. -/
def Dev.invSettle (d : Dev) (c t : Nat) (ends : Bool) : Dev :=
  let x := d.chan c
  match x.inv with
  | none => d
  | some (t0, counted) =>
    let d := d.setChan c { x with inv := if ends then none else some (t0, counted || t0 + 1000 ≤ t) }
    if counted then d
    else if t0 + 1000 ≤ t then d.bump .PIN_INVALID_CNT_COUNT c 1
    else if ends then
      let b := d.freeBit
      if b.1 then b.2.bump .PIN_INVALID_CNT_COUNT c 1 else b.2
    else d

/-! ## Followers' edges (R81, R98, R101) -/

/-- Phase edges of a channel on follower `f` move with its tracked clock, and with them the windows they close (R81). -/
def Dev.retimeChan (d : Dev) (f : Nat) (x : Chan) : Chan :=
  let l := x.pend.map (fun p => match p.ph with
    | some q => if q.ft = f then { p with t := moved (roundTick (d.ftTick f q.at_)) q.corr } else p
    | none => p)
  let close := fun v => (l.find? (fun p => p.gen == 5 && p.vcnt == v)).map (·.t)
  let was := fun v => (x.pend.find? (fun p => p.gen == 5 && p.vcnt == v)).map (·.t)
  { x with
    pend := (l.map (fun p => match p.act with
      | .open_ code bit masked (some t) => { p with act := .open_ code bit masked (some ((close p.vcnt).getD t)) }
      | _ => p)).foldl (fun l p => insEdge p l) []
    strobes := x.strobes.map (fun s => if was s.vcnt = some s.closes then { s with closes := (close s.vcnt).getD s.closes } else s) }

/-- Every channel's phase edges on follower `f` move with its tracked clock. -/
def Dev.retime (d : Dev) (f : Nat) : Dev := { d with chans := d.chans.map (fun q => (q.1, d.retimeChan f q.2)) }

/-- A qualifying edge of follower `f` at tick `t` (R101): while its phase loop is closed, the loop takes the edge's phase
error against the nearest tracked cycle; without an error the tracked clock goes on as it is. -/
def Dev.ftEdge (d : Dev) (f t : Nat) : Dev :=
  let x := d.ft f
  let p := d.rg .FT_PERIOD_PERIOD f
  if !x.closed ∨ p = 0 then d.setFt f { x with edge := t, ref := t }
  else
    let k := max 1 (((t : Rat) - x.ref) / ((p : Rat) / 256) + 1 / 2).floor.toNat
    let pred := x.ref + (k : Rat) * ((p : Rat) / 256)
    let err := (t : Rat) - pred
    let r := if err = 0 then (p, (0 : Rat)) else Config.ftTrack (d.rg .FT_CTRL_BW f) p err
    let d := (d.st .FT_PERIOD_PERIOD f r.1).st .FT_PHERR_PEAK f
      (min 0xFFFF (max (d.rg .FT_PHERR_PEAK f) (roundTick (if err < 0 then -err else err))))
    (d.setFt f { x with edge := t, ref := pred + r.2, cycle := x.cycle + k }).retime f

/-- Qualifying edges of followers that take this channel as source, unless it is parked (R43, R98). -/
def Dev.ftSource (d : Dev) (c t : Nat) (h l was wasL : Bool) : Dev :=
  if !d.domOn (domPd (c / 32)) || (d.chan c).mode == .park then d
  else (List.range 8).foldl (fun d f =>
    let b := if d.rg .FT_CTRL_SRC_CMP f = 0 then was else wasL
    let a := if d.rg .FT_CTRL_SRC_CMP f = 0 then h else l
    let hit := if d.rg .FT_CTRL_SRC_EDGE f = 0 then !b && a else b && !a
    if d.on .FT_CTRL_EN f && d.rg .FT_CTRL_SRC_CH f == c && hit then d.ftEdge f t else d) d

/-! ## The comparators -/

/-- INVALID of channel `c` starts to be watched at tick `t`, where it is there and its pin domain is on (R42). -/
def Dev.invStart (d : Dev) (c t : Nat) : Dev :=
  let x := d.chan c
  if x.cmh && !x.cml && x.inv.isNone && d.domOn (domPd (c / 32)) then d.setChan c { x with inv := some (t, false) } else d

/-- The deskewed comparator pairs of channel `c` change at tick `t`, which is `t - lag` at the programmed times: strobes
watch it, INVALID counts, followers see their edges. -/
def Dev.pairsAt (d : Dev) (c : Nat) (h l : Bool) (t : Nat) : Dev :=
  let x := d.chan c
  let isInv := fun (a b : Bool) => a && !b
  let d := if isInv x.cmh x.cml && !isInv h l then d.invSettle c t true else d
  let w := x.strobes.foldl (fun (a : List Strobe × Dev) s =>
    let r := a.2.watchStrobe s t h l x.cmh x.cml x.emCmp x.emEdge
    (a.1 ++ [r.1], r.2)) ([], d)
  let d := (w.2.modChan c (fun y => { y with strobes := w.1, cmh := h, cml := l })).invStart c t
  let u := t - d.rxLag c
  (d.ftSource c u h l x.cmh x.cml).acqPin c u

/-- The comparator changes that have passed their deskew by tick `t` arrive, those of one tick together; at most `n`
times. -/
def Dev.pairsUp (d : Dev) (c t : Nat) : Nat → Dev
  | 0 => d
  | n + 1 =>
    let x := d.chan c
    match x.dly.foldl (fun (a : Option Nat) y => some (a.elim y.due (min y.due))) none with
    | none => d
    | some u =>
      if t < u then d
      else
        let now := x.dly.filter (·.due == u)
        let h := ((now.filter (·.isH)).getLast?.map (·.level)).getD x.cmh
        let l := ((now.filter (!·.isH)).getLast?.map (·.level)).getD x.cml
        ((d.setChan c { x with dly := x.dly.filter (·.due != u) }).pairsAt c h l u).pairsUp c t n

/-- The channel's comparators as they stand at tick `t`. -/
def Dev.pairsTo (d : Dev) (c t : Nat) : Dev := d.pairsUp c t (d.chan c).dly.length

/-- The levels that the comparator pairs of a channel have at the pin. -/
def Chan.atPin (x : Chan) : Bool × Bool :=
  (((x.dly.filter (·.isH)).getLast?.map (·.level)).getD x.cmh, ((x.dly.filter (!·.isH)).getLast?.map (·.level)).getD x.cml)

/-- The comparator pairs of channel `c` change at the pin now; each change arrives after its pair's deskew (R82, R133). -/
def Dev.comparator (d : Dev) (c : Nat) (h l : Bool) : Dev :=
  let d := d.pairsTo c d.tick
  let x := d.chan c
  let t := d.tick + d.rxLag c
  let a := if h = x.atPin.1 then [] else [(⟨moved t (d.deskewVal c 2), true, h⟩ : CmpChg)]
  let b := if l = x.atPin.2 then [] else [(⟨moved t (d.deskewVal c 3), false, l⟩ : CmpChg)]
  (d.setChan c { x with dly := x.dly ++ a ++ b }).pairsTo c d.tick

/-- A running FTC step of CALIBRATE takes the phases of the next shots of its channel in rows timed by its follower,
for 100 ms (R436). -/
def Dev.ftcShot (d : Dev) (c : Nat) (s : Strobe) (v : Nat) : Dev :=
  match d.cmd, (d.eng s.eng).unres.find? (fun r => r.vcnt == s.vcnt) with
  | some k, some r =>
    let a0 := k.args.getD 0 0
    let a1 := k.args.getD 1 0
    let here := k.op == 2 && k.done.isNone && bitOf a0 13 && bitsOf a1 32 9 == c && (d.chan c).emEdge == 2
      && decide (d.cal.ftc.length < bitsOf a0 32 32) && decide (d.tick ≤ d.cal.ftcAt + 100000000 * cyc)
    match r.per, here with
    | .follow f _ _, true =>
      let p := d.perTicks r.per
      if f = bitsOf a1 16 3 ∧ 0 < p then
        { d with cal := { d.cal with ftc := d.cal.ftc ++ [((v : Rat) * 65536 / p).floor.toNat % 65536] } }
      else d
    | _, _ => d
  | _, _ => d

/-- The time of a shot in ticks from its row's start (R161): the TDC's reading at the programmed times, corrected by its
path (R423). -/
def Dev.shotTime (d : Dev) (c : Nat) (s : Strobe) (t : Nat) : Nat :=
  let u := t - d.rxLag c
  (((u : Int) - (s.row0 : Int)) + d.trimOf c (6 + (d.chan c).emCmp) u).toNat

/-- Accumulate a shot, or count a span without an edge (R161, R162). -/
def Dev.emShot (d : Dev) (c : Nat) (s : Strobe) : Dev :=
  if (d.chan c).emEdge = 3 then d
  else match s.emT with
  | none => d.bump .PIN_EM_NOEDGE_COUNT c 1
  | some t =>
    let v := d.shotTime c s t
    let n := cycleOf d.tick
    let d := d.modChan c (fun x => { x with shots := x.shots.filter (·.1 == n) ++ [(n, v)] })
    (d.ftcShot c s v).emAdd c v

/-- The strobe that closes first on a channel. -/
def firstClose : List Strobe → Option Strobe
  | [] => none
  | s :: l => match firstClose l with
    | none => some s
    | some t => if t.closes < s.closes then some t else some s

/-- The result of a compare or capture strobe that closes at `t` at the programmed times (R136, R137). -/
def Strobe.result (s : Strobe) (t : Nat) : PinRes :=
  let o := s.dev.getD (s.h0, s.l0)
  let o := if s.code = 9 then (s.h0, s.l0) else o
  ⟨s.pin, s.code = 9, s.masked, s.dev.isSome && s.code != 9 && !s.masked, o.1, o.2, t⟩

/-- Whether an edge or a strobe of engine `e` at tick `t` falls at or after the hem instant of a burst that ended before
its program did: the pins are the hem's, and strobes are disabled (R93). -/
def Dev.cutOff (d : Dev) (e t : Nat) : Bool :=
  (d.eng e).ending.any (fun o => o.reason != 0) && (d.hemInstant e).any (fun h => decide (h ≤ t))

/-- The first strobe of the channel closes: a deviation still going on is settled (an edge strobe's is its state), and
the result is produced (R140). -/
def Dev.closeStrobe (d : Dev) (c : Nat) : Dev :=
  match firstClose (d.chan c).strobes with
  | none => d
  | some s =>
    let d := (d.advanceTo s.closes).pairsTo c s.closes
    match firstClose (d.chan c).strobes with
    | none => d
    | some s =>
      let d := d.modChan c (fun x => { x with strobes := x.strobes.erase s })
      let t := s.closes - d.rxLag c
      if d.cutOff s.eng t then d
      else if s.code = 13 then
        let d := d.emShot c s
        let d := if (d.chan c).emEdge = 3 then d
          else d.acqShot c s.vcnt (s.opened - d.rxLag c) (s.emT.map (d.shotTime c s))
        d.strobeDone s.eng s.vcnt t none
      else
        let r := if s.closes = s.opened then ({ s with dev := s.cand.map (·.2), cand := none }, d) else d.settleDev s s.closes
        r.2.strobeDone s.eng s.vcnt t (some (r.1.result t))

/-! ## Edges -/

/-- Which pair an edge acts on: DRV `some true`, DEN `some false`, none of a strobe's. -/
def EdgeAct.pair : EdgeAct → Option Bool
  | .drv _ => some true
  | .toggle => some true
  | .den _ => some false
  | _ => none

/-- Whether an edge of generator `g`, row `v` at tick `t` gives way to one of generator `h`, row `w` at tick `u` (R91):
coincident, and the other of the later row, or within one row first in the order of the rule. -/
def yields (t g v u h w : Nat) : Bool :=
  let rank := fun g => if g = 1 then 2 else if g = 0 then 1 else 0
  genOf g != genOf h && decide (t < u + 800) && decide (u < t + 800)
    && (if v = w then decide (rank g < rank h) else decide (v < w))

/-- Whether edge `p` gives way to an edge that is still to fire, or fired less than 200 ps ago, on its pair (R91). -/
def Dev.edgeYields (d : Dev) (c : Nat) (p : PEdge) : Bool :=
  let x := d.chan c
  ((d.comingEdges p.eng c p.t).any (fun q => q.act.pair == p.act.pair && yields p.t p.gen p.vcnt q.t q.gen q.vcnt))
    || ((if p.act.pair = some true then x.nearDrv else x.nearDen).any (fun o => yields p.t p.gen p.vcnt o.t o.gen o.vcnt))

/-- Whether the hem, where its instant is fixed, changes the pair that an edge at tick `t` would leave at `level` less than
200 ps later (R130). A hem after an end by the program keeps its distance (R93). -/
def Dev.hemTakes (d : Dev) (e c t : Nat) (isDrv level : Bool) : Bool :=
  match d.hemInstant e with
  | none => false
  | some h =>
    let x := d.chan c
    let l := x.hemLevels ((d.eng e).hemCode ((d.pins e).idxOf c))
    let last := (d.eng e).hemCode ((d.pins e).idxOf c) == 3
    let late := if isDrv then x.den && !l.2 else !x.den && l.2
    !last && !late && (d.eng e).ending.any (fun o => o.reason != 0) && decide (h < t + 800) && (if isDrv then l.1 != level else l.2 != level)

/-- A drive or enable edge comes due on its pair: it sets the level, or it is not produced and counts (R91, R92, R130). -/
def Dev.pairEdge (d : Dev) (c : Nat) (p : PEdge) (isDrv level : Bool) : Dev :=
  let made := !d.edgeYields c p && !d.hemTakes p.eng c p.t isDrv level
  let x := d.chan c
  let note := fun (l : List NearEdge) => ⟨p.t, p.gen, p.vcnt, made⟩ :: l.filter (fun o => p.t < o.t + 800)
  let y := if isDrv then { x with drv := if made then level else x.drv, nearDrv := note x.nearDrv }
    else { x with den := if made then level else x.den, nearDen := note x.nearDen }
  let d := (d.setChan c y).bump .PIN_EDGE_MERGE_COUNT c (b2n !made)
  if made then d.modEng p.eng (fun y => { y with lastEdge := max y.lastEdge p.t }) else d

/-- A CAP strobe of site pin `p` in the row with count `v` opens at tick `t`: the first of its group finds the states of the
group's site pins (R254). -/
def Dev.capStates (d : Dev) (e v p t : Nat) : Dev :=
  let g := p / 16
  let pins := ((d.pins e).drop (16 * g)).take 16
  let st := (pins.zipIdx.map (fun q => (((d.pairsTo q.1 t).chan q.1).state) * 4 ^ q.2)).foldl (· + ·) 0
  d.modEng e (fun x => { x with unres := x.unres.map (fun r =>
    if r.vcnt = v ∧ !r.caps.any (·.1 == g) then { r with caps := (g, st) :: r.caps } else r) })

/-- The earliest scheduled edge of a channel fires (R88). -/
def Dev.fire (d : Dev) (c : Nat) : Dev :=
  match (d.chan c).pend with
  | [] => d
  | p :: rest =>
    let d := (d.advanceTo p.t).modChan c (fun x => { x with pend := rest })
    let lag := if 4 ≤ p.gen ∧ p.gen ≤ 5 then d.rxLag c else 0
    if d.cutOff p.eng (p.t - lag) then d
    else
    let strobed := fun (d : Dev) => d.modEng p.eng (fun y => { y with lastEdge := max y.lastEdge (p.t - lag) })
    match p.act with
    | .drv v => d.pairEdge c p true v
    | .toggle => d.pairEdge c p true !(d.chan c).drv
    | .den v => d.pairEdge c p false v
    | .open_ code bit masked close =>
      let d := ((strobed d).pairsTo c p.t).openStrobe c p code bit masked close
      if code = 9 then d.capStates p.eng p.vcnt p.pin p.t else d
    | .close => strobed d

/-! ## Flags at the branches (R141, R142, R210, R212) -/

/-- The value of the flag MATCH after the changes of one cycle, in vector-count order, and the judgements they give. -/
def applyRows (m : Bool) (j : List (Nat × Bool)) : List FlagKind → Bool × List (Nat × Bool)
  | [] => (m, j)
  | .clear true :: l => applyRows false j l
  | .row v u :: l => let m' := u.getD m; applyRows m' (j ++ [(v, m')]) l
  | _ :: l => applyRows m j l

/-- Order of the changes of one cycle: clears first, then fails and rows as they came (R142). -/
def clearsFirst (l : List FlagKind) : List FlagKind :=
  l.filter (fun k => match k with | .clear _ => true | _ => false)
    ++ l.filter (fun k => match k with | .clear _ => false | _ => true)

/-- TFAIL and TMATCH of a member: its own flags when untied, else the group's (R67, R166). -/
def Dev.setTied (d : Dev) (e : Nat) : Dev :=
  let ms := d.members e
  let g := d.grp e
  let far := d.far.filter (fun f => f.grp == g)
  let tf := if d.tied e then ms.any (fun x => (d.eng x).gFail) || far.any (·.fail) else d.on .ENG_FLAGS_FAIL e
  let tm := if d.tied e then ms.all (fun x => (d.eng x).gMatch) && far.all (·.match_) else d.on .ENG_FLAGS_MATCH e
  let was := d.on .ENG_FLAGS_TFAIL e
  let d := (d.st .ENG_FLAGS_TFAIL e (b2n tf)).st .ENG_FLAGS_TMATCH e (b2n tm)
  if tf && !was then d.raise e 5 else d

/-- The engine's own flag changes due at tick `t` (R141). -/
def Dev.ownFlags (d : Dev) (e t : Nat) : Dev :=
  let x := d.eng e
  let l := clearsFirst ((x.flagQ.filter (fun c => !c.group && c.due == t)).map (·.kind))
  if l.isEmpty then d
  else
    let was := d.on .ENG_FLAGS_FAIL e
    let f := l.foldl (fun b k => match k with | .clear _ => false | .fail => true | .row .. => b) was
    let r := applyRows (d.on .ENG_FLAGS_MATCH e) x.judged l
    let d := d.setEng e { x with flagQ := x.flagQ.filter (fun c => c.group || c.due != t), judged := r.2 }
    let d := (d.st .ENG_FLAGS_FAIL e (b2n f)).st .ENG_FLAGS_MATCH e (b2n r.1)
    if f && !was then d.raise e 4 else d

/-- A member's share of the combined flags due at tick `t` (R67). -/
def Dev.groupFlags (d : Dev) (e t : Nat) : Dev :=
  let x := d.eng e
  let l := clearsFirst ((x.flagQ.filter (fun c => c.group && c.due == t)).map (·.kind))
  if l.isEmpty then d
  else
    let f := l.foldl (fun b k => match k with | .clear _ => false | .fail => true | .row .. => b) x.gFail
    let r := applyRows x.gMatch x.gjudged l
    d.setEng e { x with flagQ := x.flagQ.filter (fun c => !c.group || c.due != t), gFail := f, gMatch := r.1, gjudged := r.2 }

/-- The flags of the group's members on other devices that become visible at tick `t` (R353). -/
def Dev.farFlags (d : Dev) (e t : Nat) : Dev :=
  let l := if d.tied e then d.farQ.filter (fun f => f.grp == d.grp e && f.due == t) else []
  if l.isEmpty then d
  else { d with
    far := d.far.filter (fun f => !l.any (fun g => g.grp == f.grp && g.pos == f.pos)) ++ l
    farQ := d.farQ.filter (fun f => !(f.grp == d.grp e && f.due == t)) }

/-- The flag changes of the engine and its group that become visible at tick `t`. -/
def Dev.flagsAt (d : Dev) (e t : Nat) : Dev :=
  let ms := d.members e
  let d := (ms.foldl (fun d x => (d.ownFlags x t).groupFlags x t) d).farFlags e t
  ms.foldl (fun d x => d.setTied x) d

/-- Earliest due tick of the engine's flag changes on their way. -/
def Eng.flagDue (x : Eng) : Option Nat :=
  x.flagQ.foldl (fun a c => match a with | none => some c.due | some t => some (min t c.due)) none

/-- Earliest due tick in the group. -/
def Dev.groupDue (d : Dev) (e : Nat) : Option Nat :=
  let f := if d.tied e then (d.farQ.filter (fun f => f.grp == d.grp e)).map (·.due) else []
  (((d.members e).filterMap (fun y => (d.eng y).flagDue)) ++ f).foldl (fun a u => match a with
    | none => some u
    | some t => some (min t u)) none

/-- Everything that is visible to branches by tick `t`, on the engine and its group, in order of time. -/
def Dev.flagsUpTo (d : Dev) (e t : Nat) : Nat → Dev
  | 0 => d
  | n + 1 =>
    match d.groupDue e with
    | none => d
    | some u => if u ≤ t then (d.flagsAt e u).flagsUpTo e t n else d

/-- Bound on the distinct due ticks one call applies. -/
def flagFuel : Nat := 4096

/-- The next flag change of the engine becomes visible (R141). -/
def Dev.flagVisible (d : Dev) (e : Nat) : Dev :=
  match d.groupDue e with
  | none => d
  | some t => (d.advanceTo t).flagsUpTo e t flagFuel

/-! ## The commands -/

/-- COMPARATOR_INPUT_CHANGE, `dt` ticks after now. -/
def Dev.comparatorAt (d : Dev) (c : Nat) (h l : Bool) (dt : Nat) : Dev := (d.advanceTo (d.tick + dt)).comparator c h l

/-- COMPARATOR_INPUT_CHANGE: the pair's new levels, `dt` ticks after now. -/
def execComparatorInputChange (c : ChId) (cmh cml : Bool) (dt : Nat) (s : State) : Answer :=
  .next (s.onDev (·.comparatorAt c cmh cml dt))

/-- STROBE_CLOSE. -/
def execStrobeClose (c : ChId) (s : State) : Answer := .next (s.onDev (·.closeStrobe c))

/-- EDGE_FIRE. -/
def execEdgeFire (c : ChId) (s : State) : Answer := .next (s.onDev (·.fire c))

/-- FEB_ENGINE_FRAME_QUEUE: a frame due at its anchor row enters the queue; a full queue, or a bus that does not send,
ends the burst at that row (R51, R54). -/
def Dev.febEngine (d : Dev) (e : Nat) : Dev :=
  match (d.eng e).febDue with
  | [] => d
  | (pd, f) :: rest =>
    let d := d.modEng e (fun x => { x with febDue := rest })
    if 16 ≤ (d.feb pd).queue.length || !d.on .FEB_CTRL_EN pd then d.endFault e rFEB false
    else d.febPush pd (.engine e) f

/-- FEB_ENGINE_FRAME_QUEUE. -/
def execFebEngineFrameQueue (e : EngId) (s : State) : Answer := .next (s.onDev (·.febEngine e))

end Sys2Proof.Machine
end

