-- ==== Sys2Proof/Machine/Operands.lean ====
section
/-!
DEFINITION. The fields of an instruction word, the registers its specifiers name, the conditions, and what makes a word
ILLEGAL (R164 to R169, R195, R217, R218, R231).
-/

namespace Sys2Proof.Machine

/-! ## Fields (R167) -/

def iCls (w : Nat) : Nat := bitsOf w 60 4
def iOp (w : Nat) : Nat := bitsOf w 54 6
def iRd (w : Nat) : Nat := bitsOf w 48 6
def iRs (w : Nat) : Nat := bitsOf w 42 6
def iCond (w : Nat) : Nat := bitsOf w 38 4
def iMod (w : Nat) : Nat := bitsOf w 32 6
def iImm (w : Nat) : Nat := bitsOf w 0 32
/-- Target and DELAY of a flow instruction. -/
def iTarget (w : Nat) : Nat := bitsOf w 0 16
def iDelay (w : Nat) : Nat := bitsOf w 16 8
/-- IMM sign-extended to 64 bits. -/
def iSimm (w : Nat) : Nat := unsigned 64 (signed 32 (iImm w))

/-! ## Registers (R164) -/

/-- Width of the register a specifier names. -/
def regWidth (sp : Nat) : Nat :=
  if sp < 0x20 then 64 else if sp < 0x32 then 32
  else match sp with
    | 0x32 => 64
    | 0x33 => 38
    | 0x34 => 17
    | 0x35 => 7
    | 0x36 => 6
    | 0x37 => 16
    | 0x38 => 64
    | 0x39 => 64
    | 0x3A => 64
    | 0x3B => 64
    | _ => 16

/-- FLAGS as read (R166). -/
def Dev.flags (d : Dev) (e : Nat) : Nat :=
  d.rg .ENG_FLAGS_FAIL e + 2 * d.rg .ENG_FLAGS_MATCH e + 4 * d.rg .ENG_FLAGS_ZERO e + 8 * d.rg .ENG_FLAGS_CARRY e
    + 16 * b2n (d.eventFlag e) + 32 * d.rg .ENG_FLAGS_TFAIL e + 64 * d.rg .ENG_FLAGS_TMATCH e

/-- ESTAT as read (R183). -/
def Dev.estat (d : Dev) (e : Nat) : Nat :=
  d.rg .ENG_ESTAT_IE e + 2 * d.rg .ENG_ESTAT_RESUME e + 4 * d.rg .ENG_ESTAT_INHANDLER e + 8 * d.rg .ENG_ESTAT_SZERO e
    + 16 * d.rg .ENG_ESTAT_SCARRY e + 256 * d.rg .ENG_ESTAT_EVNUM e

/-- The register that specifier `sp` names, zero-extended. -/
def Dev.reg (d : Dev) (e sp : Nat) : Nat :=
  if sp < 0x20 then d.rgi .ENG_G e sp
  else if sp < 0x30 then d.rgi .ENG_L e (sp - 0x20)
  else match sp with
    | 0x30 => d.rg .ENG_XA e
    | 0x31 => d.rg .ENG_YA e
    | 0x32 => d.rg .ENG_DG e
    | 0x33 => d.rg .ENG_VP e
    | 0x34 => d.rg .ENG_PC_ADDR e + d.rg .ENG_PC_BANK e * 2 ^ 16
    | 0x35 => d.flags e
    | 0x36 => d.rg .ENG_TS e
    | 0x37 => d.rg .ENG_TAG e
    | 0x38 => d.rgi .ENG_PROG e 0
    | 0x39 => d.rgi .ENG_PROG e 1
    | 0x3A => d.rgi .ENG_PROG e 2
    | 0x3B => d.rgi .ENG_PROG e 3
    | 0x3C => d.rg .ENG_EPC e
    | 0x3D => d.estat e
    | _ => 0

/-- Write a result to the register that `sp` names: its low bits (R165), with the effects of R218. -/
def Dev.setReg (d : Dev) (e sp v : Nat) : Dev :=
  if sp < 0x20 then d.sti .ENG_G e sp v
  else if sp < 0x30 then d.sti .ENG_L e (sp - 0x20) v
  else match sp with
    | 0x30 => d.st .ENG_XA e v
    | 0x31 => d.st .ENG_YA e v
    | 0x32 => d.st .ENG_DG e v
    | 0x33 => d.vpSet e v
    | 0x36 => d.st .ENG_TS e v
    | 0x37 => d.st .ENG_TAG e v
    | 0x38 => d.sti .ENG_PROG e 0 v
    | 0x39 => d.sti .ENG_PROG e 1 v
    | 0x3A => d.sti .ENG_PROG e 2 v
    | 0x3B => d.sti .ENG_PROG e 3 v
    | 0x3C => d.st .ENG_EPC e v
    | 0x3D => ((d.st .ENG_ESTAT_RESUME e (v / 2)).st .ENG_ESTAT_SZERO e (v / 8)).st .ENG_ESTAT_SCARRY e (v / 16)
    | _ => d

/-- PROG0 to PROG3. -/
def Dev.prog (d : Dev) (e i : Nat) : Nat := d.rgi .ENG_PROG e i
def Dev.setProg (d : Dev) (e i v : Nat) : Dev := d.sti .ENG_PROG e i v

/-! ## Conditions (R169) -/

/-- Result conditions are 0x1 to 0x8. -/
def isResult (c : Nat) : Bool := 1 ≤ c && c ≤ 8

/-- Whether a condition holds on the flags as they stand. -/
def Dev.cond (d : Dev) (e c : Nat) : Bool :=
  match c with
  | 0 => true
  | 1 => d.on .ENG_FLAGS_FAIL e
  | 2 => !d.on .ENG_FLAGS_FAIL e
  | 3 => d.on .ENG_FLAGS_MATCH e
  | 4 => !d.on .ENG_FLAGS_MATCH e
  | 5 => d.on .ENG_FLAGS_TFAIL e
  | 6 => !d.on .ENG_FLAGS_TFAIL e
  | 7 => d.on .ENG_FLAGS_TMATCH e
  | 8 => !d.on .ENG_FLAGS_TMATCH e
  | 9 => d.on .ENG_FLAGS_ZERO e
  | 10 => !d.on .ENG_FLAGS_ZERO e
  | 11 => d.on .ENG_FLAGS_CARRY e
  | 12 => !d.on .ENG_FLAGS_CARRY e
  | 13 => d.eventFlag e
  | 14 => !d.eventFlag e
  | _ => false

/-! ## ILLEGAL (R231) -/

/-- What an instruction uses: RD, RS and COND, the bits of MOD and IMM. -/
structure OpUse where
  rd   : Bool
  rs   : Bool
  cond : Bool
  mod  : Nat
  imm  : Nat

/-- The fields used by each instruction; none for a reserved class or an undefined OP. VEC and VRPT take their count
from IMM or RS by MOD[0]. -/
def opUse (cls op mod : Nat) : Option OpUse :=
  let full := 0xFFFFFFFF
  match cls, op with
  | 0, 0 => some ⟨false, false, false, 0, 0⟩
  | 0, 1 => some ⟨false, true, true, 0, 0xFF0000⟩
  | 0, 2 => some ⟨true, false, false, 0, 0xFFFFFF⟩
  | 0, 3 => some ⟨false, false, true, 0, 0xFFFFFF⟩
  | 0, 4 => some ⟨false, true, false, 0, 0xFF0000⟩
  | 0, 5 => some ⟨true, false, false, 0, 0xFFFFFF⟩
  | 0, 6 => some ⟨false, false, false, 1, 0⟩
  | 0, 7 => some ⟨false, false, false, 0, 0⟩
  | 1, 0 => some ⟨false, mod % 2 == 1, false, 1, if mod % 2 = 1 then 0 else full⟩
  | 1, 1 => some ⟨false, mod % 2 == 1, false, 1, if mod % 2 = 1 then 0 else full⟩
  | 1, 2 => some ⟨false, false, false, 0xF, full⟩
  | 1, 3 => some ⟨false, true, false, 0, 0⟩
  | 1, 4 => some ⟨false, false, false, 0, full⟩
  | 1, 5 => some ⟨true, true, false, 0, full⟩
  | 1, 6 => some ⟨false, false, false, 0, 0⟩
  | 1, 7 => some ⟨false, false, false, 0, 0xFFFF⟩
  | 2, 0 => some ⟨false, false, false, 0x3F, 0⟩
  | 2, 1 => some ⟨false, true, false, 0, 0⟩
  | 2, 2 => some ⟨false, false, false, 1, full⟩
  | 2, 3 => some ⟨false, true, false, 1, 0⟩
  | 3, 0 => some ⟨false, true, false, 3, 0⟩
  | 3, 1 => some ⟨false, false, false, 1, 0⟩
  | 3, 2 => some ⟨false, false, false, 1, 0⟩
  | 3, 3 => some ⟨false, false, false, 0, 0⟩
  | 3, 4 => some ⟨false, false, false, 1, full⟩
  | 4, 0 => some ⟨false, false, false, 7, full⟩
  | 4, 1 => some ⟨false, false, false, 0x1F, full⟩
  | 5, 0 => some ⟨true, false, false, 0, full⟩
  | 5, 1 => some ⟨true, false, false, 0, full⟩
  | 5, 2 => some ⟨true, true, false, 0, 0⟩
  | 5, 3 => some ⟨true, true, false, 0, 0⟩
  | 5, 4 => some ⟨true, false, false, 0, full⟩
  | 5, 5 => some ⟨true, true, false, 0, 0⟩
  | 5, 6 => some ⟨true, true, false, 0, 0⟩
  | 5, 7 => some ⟨true, true, false, 0, 0⟩
  | 5, 8 => some ⟨true, true, false, 0, 0⟩
  | 5, 9 => some ⟨true, true, false, 0, 0⟩
  | 5, 10 => some ⟨true, false, false, 0, 0x3F⟩
  | 5, 11 => some ⟨true, false, false, 0, 0x3F⟩
  | 5, 12 => some ⟨true, true, false, 0, 0⟩
  | 5, 13 => some ⟨true, false, false, 0, full⟩
  | 5, 16 => some ⟨true, true, false, 0x1F, 0⟩
  | 5, 17 => some ⟨true, true, false, 3, 0⟩
  | 6, 0 => some ⟨true, true, false, 0, 0⟩
  | 6, 1 => some ⟨true, true, false, 0, 0⟩
  | 6, 2 => some ⟨true, true, false, 0, 0⟩
  | 6, 3 => some ⟨false, false, false, 0, 0⟩
  | 7, 0 => some ⟨true, false, false, 1, 0⟩
  | 7, 1 => some ⟨false, true, false, 0x20, full⟩
  | 7, 2 => some ⟨false, false, false, 0x20, full⟩
  | 7, 3 => some ⟨false, false, false, 1, 0xFFFF⟩
  | 8, 0 => some ⟨false, false, false, 0x1F, 0⟩
  | 8, 1 => some ⟨false, false, false, 0x20, full⟩
  | 8, 2 => some ⟨false, false, false, 0xF, 0⟩
  | 9, 0 => some ⟨false, false, false, 7, 0xFFF⟩
  | 9, 1 => some ⟨false, false, false, 7, 0⟩
  | 9, 2 => some ⟨false, false, false, 0xF, 0xFFF⟩
  | 9, 3 => some ⟨false, true, false, 7, 0⟩
  | 10, 0 => some ⟨false, false, false, 0, 0⟩
  | 10, 1 => some ⟨false, false, false, 0, 0⟩
  | 10, 2 => some ⟨false, false, false, 0xF, 0⟩
  | 10, 3 => some ⟨false, true, false, 0, 0⟩
  | 10, 4 => some ⟨false, false, false, 0x20, full⟩
  | _, _ => none

/-- Whether the instruction writes RD (CMP, CMPI, SLOOP and the block operations read it). -/
def writesRd (cls op : Nat) : Bool :=
  (cls == 0 && (op == 2 || op == 5)) || (cls == 5 && op != 12 && op != 13) || (cls == 7 && op == 0)

/-- Orders 1 to 3 of R231: what the word alone shows. -/
def wordIllegal (w : Nat) : Bool :=
  match opUse (iCls w) (iOp w) (iMod w) with
  | none => true
  | some u =>
    let c := iCls w
    let o := iOp w
    (!u.rd && iRd w != 0) || (!u.rs && iRs w != 0) || (!u.cond && iCond w != 0) || (iMod w ||| u.mod) != u.mod
      || (iImm w ||| u.imm) != u.imm
      || (u.rd && 0x3E ≤ iRd w) || (u.rs && 0x3E ≤ iRs w)
      || (writesRd c o && (iRd w == 0x34 || iRd w == 0x35))
      || (u.cond && iCond w == 15)
      || (c == 3 && o == 0 && iMod w == 3)
      || (c == 5 && (o == 16 || o == 17) && iMod w % 4 == 3)
      || (c == 4 && o == 1 && iImm w / 2 ^ (4 * (bitsOf (iMod w) 2 3 + 1)) != 0)
      || (c == 0 && o == 5 && !(0x20 ≤ iRd w && iRd w < 0x30))
      || (((c == 5 && o == 17) || (c == 6 && o < 3)) && 0x1F ≤ iRs w)

/-- Orders 4 and 5 of R231: alignment, range and state. A converter grant to any member of the tie group counts
(R295). -/
def Dev.stateIllegal (d : Dev) (e w : Nat) : Bool :=
  let c := iCls w
  let o := iOp w
  let rd := d.reg e (iRd w)
  let rs := d.reg e (iRs w)
  let len := d.reg e (iRs w + 1)
  (c == 1 && o == 5 && rs % 2 ^ 38 ≤ rd % 2 ^ 38)
    || (c == 6 && o == 0 && (rs % 16 != 0 || len % 16 != 0))
    || (c == 6 && o == 1 && (rd % 16 != 0 || rs % 16 != 0 || len % 16 != 0))
    || (c == 0 && o != 0 && o != 6 && o != 7 && 0xFFFF < d.rg .ENG_PC_ADDR e + iDelay w)
    || (c == 2 && (o == 2 || o == 3) &&
        (bitOf (if o = 2 then iImm w else rs % 2 ^ 32) 31 || !(d.quads e).any (fun q => q / 8 == 2 * (e / 16) + iMod w)))
    || (c == 4 && d.rg .ENG_STR_CTRL_FORM e == 1)
    || (c == 8 && o == 2 && !(d.on .ACQ_GRANT_EN (iMod w) && d.rg .ACQ_GRANT_ENGINE (iMod w) == e))
    || (c == 9 && o ≤ 2 && !(d.on .AWG_CTRL_GEN (iMod w % 8) && (d.members e).contains (d.rg .AWG_CTRL_GENG (iMod w % 8))))
    || (c == 9 && o == 3 && !(d.on .DDC_CTRL_GEN (iMod w) && (d.members e).contains (d.rg .DDC_CTRL_GENG (iMod w))))
    || (c == 0 && o == 7 && !d.on .ENG_ESTAT_INHANDLER e)
    || (c == 0 && (d.eng e).br.isSome)

/-- Whether the instruction raises ILLEGAL (R231). -/
def Dev.illegal (d : Dev) (e w : Nat) : Bool := wordIllegal w || d.stateIllegal e w

end Sys2Proof.Machine
end

