-- ==== Sys2Proof/Machine/Microcode.lean ====
section
/-!
DEFINITION. Microcode: the fields and successors of microwords, the condition inputs, the reading of each word with parity
or with care, recoveries, the word list, machine-check records, the background scan and the self-test (R232 to R252).
-/

namespace Sys2Proof.Machine

/-! ## Microwords and their successors (R234 to R238) -/

def uNext (u : Nat) : Nat := bitsOf u 0 12
def uNano (u : Nat) : Nat := bitsOf u 12 11
def uSeq (u : Nat) : Nat := bitsOf u 23 3
def uCsel (u : Nat) : Nat := bitsOf u 26 5
def uCinv (u : Nat) : Bool := bitOf u 31
/-- A restart point follows the word. -/
def uRp (u : Nat) : Bool := bitOf u 32
/-- Events can be taken in hold cycles of the word. -/
def uEvok (u : Nat) : Bool := bitOf u 33
def uCtrDec (u : Nat) : Bool := bitOf u 34

/-- What follows a microword (R235): a word, the entry word of the next instruction, or the word itself, held. -/
inductive Succ where
  | word (a : Nat)
  | dispatch
  | held
  deriving DecidableEq, Repr

/-- The successor of microword `u` when its condition, inverted as CINV says, is `cond` (R235). The reserved codes are
used in no released word. -/
def microSucc (u : Nat) (cond : Bool) : Succ :=
  match uSeq u with
  | 0 => .word (uNext u)
  | 1 => .word (uNext u / 2 * 2 + b2n cond)
  | 2 => if cond then .word (uNext u) else .dispatch
  | 3 => .dispatch
  | 4 => if cond then .held else .word (uNext u)
  | _ => .dispatch

/-- The words read in the cycle before the successor of `u` executes (R238); none for an entry word, which the next
instruction names. -/
def readAhead (u : Nat) : List (Option Nat) :=
  match uSeq u with
  | 1 => [some (uNext u / 2 * 2), some (uNext u / 2 * 2 + 1)]
  | 2 => [some (uNext u), none]
  | 3 => [none]
  | _ => [some (uNext u)]

/-- The entry word of an instruction (R236). -/
def entryWord (w : Nat) : Nat := iCls w * 64 + iOp w

/-- Event `k` is pending and arose after the wait issued. -/
def Dev.arose (d : Dev) (e k : Nat) : Bool :=
  bitOf (d.rg .ENG_EV_PEND_PEND e) k && (d.eng e).evFrom.any (fun p => p.k == k && (d.eng e).waitFrom ≤ p.due && p.due ≤ d.tick)

/-- Whether the condition of a wait is met now, and the event it consumes; none for a word that is no wait (R224). -/
def Dev.waitMet (d : Dev) (e w : Nat) : Option (Bool × Option Nat) :=
  match iCls w, iOp w with
  | 7, 1 => some (d.prog e 1 ≤ d.nowNs, none)
  | 7, 2 => some (d.arose e 3, some 3)
  | 8, 1 => some (d.arose e 2, some 2)
  | 10, 4 => some (d.eventFlag e, none)
  | _, _ => none

/-- The instructions that emit a given number of rows: VEC, VRPT, VPAD, AVEC, MARCH. -/
def isEmit (w : Nat) : Bool := (iCls w == 1 && iOp w ≤ 2) || (iCls w == 4 && iOp w ≤ 1)

def isMarch (w : Nat) : Bool := iCls w == 4 && iOp w == 1

/-- The emission queue has room for two rows (R236). -/
def Dev.roomForTwo (d : Dev) (e : Nat) : Bool := decide ((d.eng e).queue.length < 255)

/-- The instruction in progress that a wait for SEW or TRIG_IN makes the only taker of that event (R225, R228). -/
def Dev.waitsOn (d : Dev) (e k : Nat) : Bool :=
  match (d.eng e).act with
  | some w => (k == 3 && iCls w == 7 && iOp w == 2) || (k == 2 && iCls w == 8 && iOp w == 1)
  | none => false

/-- Event `k` may be taken now, where the engine stands at a point for it (R184, R193). -/
def Dev.canTake (d : Dev) (e k : Nat) : Bool :=
  k != 7 && bitOf (d.rg .ENG_EV_PEND_PEND e) k && bitOf (d.rg .ENG_EV_EN_EN e) k && d.rgi .ENG_EV_VEC_VALID e k == 1
    && ((d.eng e).evFrom.find? (·.k == k)).all (fun p => decide (p.from_ ≤ d.tick)) && !d.waitsOn e k

/-- Whether the engine stands at a point of R240: a boundary, a restart point, or a hold for emission-queue space with
complete progress registers. FENCE has none (R223). -/
def Dev.atEventPoint (d : Dev) (e : Nat) : Bool :=
  let x := d.eng e
  d.estate e == 2 && x.br.isNone && x.miss.isNone && x.recov.isNone && d.on .ENG_ESTAT_IE e
    && (match x.act with
      | none => true
      | some w => x.atPoint || (isEmit w && x.pos == 0 && !d.roomForTwo e))

/-- The event that goes first of those that can be taken now (R184). -/
def Dev.takeable (d : Dev) (e : Nat) : Option Nat :=
  if d.atEventPoint e then (List.range 11).find? (d.canTake e) else none

/-- The operand count of instruction `w`: rows, or bytes (R204, R212, R215, R220). -/
def Dev.opCount (d : Dev) (e w : Nat) : Nat :=
  match iCls w with
  | 1 => if iOp w ≤ 1 ∧ bitOf (iMod w) 0 then bitsOf (d.reg e (iRs w)) 0 32 else iImm w
  | 3 => iImm w
  | 4 => if iOp w = 0 then iImm w else d.prog e 0
  | _ => d.reg e (iRs w + 1)

/-- The condition inputs of R236 as they stand, for instruction `w`. Reserved codes read 0. -/
def Dev.csel (d : Dev) (e w : Nat) : Nat → Bool
  | 0x00 => true
  | 0x01 => d.on .ENG_FLAGS_FAIL e
  | 0x02 => d.on .ENG_FLAGS_MATCH e
  | 0x03 => d.on .ENG_FLAGS_ZERO e
  | 0x04 => d.on .ENG_FLAGS_CARRY e
  | 0x05 => d.eventFlag e
  | 0x06 => d.on .ENG_FLAGS_TFAIL e
  | 0x07 => d.on .ENG_FLAGS_TMATCH e
  | 0x08 => d.cond e (iCond w)
  | 0x09 => (d.eng e).uctr != 0
  | 0x0A => d.opCount e w != 0
  | 0x0B => d.roomForTwo e
  | 0x0C => (d.lineWanted e).isNone
  | 0x0D => d.dramPath (d.prog e 0 % 2 ^ 38 / 256) != .waits
  | 0x0E => (d.waitMet e w).any (·.1)
  | 0x0F => d.prog e 0 != 0 && decide (d.prog e 0 ≤ d.nowNs)
  | 0x10 => (d.eng e).br.any (·.decided.isSome)
  | 0x11 => (d.takeable e).isSome
  | 0x12 => decide ((d.feb (2 * (e / 16) + iMod w % 2)).queue.length < 16)
  | 0x13 => (d.eng e).blkBad
  | 0x14 => !(d.eng e).resumed
  | _ => false

/-- The word at `upc` has executed: the micro-counter counts, and the condition picks the successor (R235, R238). The
entry word that a dispatch names is read when the next instruction issues. -/
def Dev.microNext (d : Dev) (e w : Nat) : Dev :=
  let x := d.eng e
  let u := Config.rom x.upc
  let d := d.setEng e { x with uctr := if uCtrDec u then x.uctr - 1 else x.uctr }
  d.modEng e (fun y => { y with
    upc := match microSucc u (d.csel e w (uCsel u) != uCinv u) with
      | .word a => a
      | _ => y.upc })

/-! ## Stored words (R232, R233, R243) -/

/-- Wrong bits of a stored word (store 0 microword, 1 nano-word). -/
def Eng.wrongBits (x : Eng) (store addr : Nat) : List Nat :=
  (x.storeErr.filter (fun t => t.1 == store && t.2.1 == addr)).map (·.2.2)

/-- Function and parity bits of a word of each store (R232). -/
def funcBits (store : Nat) : Nat := if store = 0 then 36 else 240
def parBits (store : Nat) : Nat := if store = 0 then 2 else 8

/-- The parity group of a stored bit; none for the SECDED check bits (R233). -/
def parGroup (store b : Nat) : Option Nat :=
  if b < funcBits store then some (b % parBits store)
  else if b < funcBits store + parBits store then some (b - funcBits store)
  else none

/-- Whether normal-service parity fails: some group holds an odd number of wrong bits (R233, R242). -/
def parityFails (store : Nat) (bits : List Nat) : Bool :=
  (List.range (parBits store)).any (fun g => (bits.filter (fun b => parGroup store b == some g)).length % 2 == 1)

/-- What a careful read finds (R243). -/
inductive Judge where
  | clean
  | ce (bit : Nat)
  | ue
  deriving DecidableEq, Repr

/-- Ascending order. -/
def insNat (n : Nat) : List Nat → List Nat
  | [] => [n]
  | k :: l => if n ≤ k then n :: k :: l else k :: insNat n l

/-- The careful read of a word with these wrong bits: up to two wrong SECDED-covered bits exact; three are found
uncorrectable or reported as one bit; more are a fixed function of the stored word (log 4). A wrong parity bit counts as
one corrected bit. -/
def judge (store addr : Nat) (bits : List Nat) : Judge :=
  let isPar := fun b => funcBits store ≤ b && b < funcBits store + parBits store
  let cov := bits.filter (fun b => !isPar b)
  let parity := match bits.filter isPar with
    | [] => Judge.clean
    | b :: l => Judge.ce (l.foldl min b)
  match cov with
  | [] => parity
  | [b] => .ce b
  | [_, _] => .ue
  | l => match Config.secdedMany store addr (l.foldr insNat []) with
    | none => .ue
    | some (some b) => .ce b
    | some none => if l.length = 3 then .ue else parity

/-- A store word's entry in the list: its index. -/
def Dev.listAt (d : Dev) (e store addr : Nat) : Option Nat :=
  (List.range (d.rg .ENG_MC_STAT_LISTCNT e)).find? (fun j =>
    d.rgi .ENG_MC_LIST_ADDR e j == addr && d.rgi .ENG_MC_LIST_STORE e j == store)

/-- Enter a word in the list as CE (`bit`) or UE (none): whether this made or changed an entry (R248). -/
def Dev.listEnter (d : Dev) (e store addr : Nat) (bit : Option Nat) : Bool × Dev :=
  match d.listAt e store addr with
  | some j =>
    if bit.isNone && d.rgi .ENG_MC_LIST_KIND e j == 0 then
      (true, (d.sti .ENG_MC_LIST_KIND e j 1).sti .ENG_MC_LIST_BIT e j 0x1FF)
    else (false, d)
  | none =>
    let n := d.rg .ENG_MC_STAT_LISTCNT e
    if 32 ≤ n then (false, d)
    else
      let d := ((d.sti .ENG_MC_LIST_ADDR e n addr).sti .ENG_MC_LIST_STORE e n store).sti .ENG_MC_LIST_VALID e n 1
      let d := (d.sti .ENG_MC_LIST_KIND e n (b2n bit.isNone)).sti .ENG_MC_LIST_BIT e n (bit.getD 0x1FF)
      (true, (d.st .ENG_MC_STAT_LISTCNT e (n + 1)).st .ENG_MC_STAT_LISTFULL e (b2n (n + 1 == 32)))

/-- CLRLIST, or the cluster's domain goes off (R248). -/
def Dev.listClear (d : Dev) (e : Nat) : Dev :=
  let d := (List.range 32).foldl (fun d j =>
    (((d.sti .ENG_MC_LIST_ADDR e j 0).sti .ENG_MC_LIST_STORE e j 0).sti .ENG_MC_LIST_KIND e j 0).sti .ENG_MC_LIST_VALID e j 0
      |>.sti .ENG_MC_LIST_BIT e j 0) d
  (d.st .ENG_MC_STAT_LISTCNT e 0).st .ENG_MC_STAT_LISTFULL e 0

/-- Write a machine-check record of device time `time`, at tick `w`: the register, the event log, and the cluster's
vector (R252, R476). -/
def Dev.mcRecord (d : Dev) (e store addr kind bit listed outcome extra pc bank time w : Nat) : Dev :=
  let r := addr % 2 ^ 12 + store % 2 * 2 ^ 12 + kind % 8 * 2 ^ 13 + bit % 512 * 2 ^ 16 + listed % 2 * 2 ^ 25
    + outcome % 8 * 2 ^ 26 + extra % 128 * 2 ^ 29 + pc % 2 ^ 16 * 2 ^ 36 + bank % 2 * 2 ^ 52 + time % 2 ^ 64 * 2 ^ 64
  ((d.st .ENG_MC_REC_RECORD e r).logStamped (d.stampAt w 0) 0x10 0x10 e (r % 2 ^ 96)).irq (128 + e / 16)

/-- The kind of a store word's entry in the list: 0 CE, 1 UE. -/
def Dev.listKind (d : Dev) (e : Nat) (w : Nat × Nat) : Option Nat :=
  (d.listAt e w.1 w.2).map (fun j => d.rgi .ENG_MC_LIST_KIND e j)

/-- Write records that one read of words gives, in order. -/
def Dev.mcRecords (d : Dev) (e : Nat) (l : List McRec) (outcome extra pc ns w : Nat) : Dev :=
  l.foldl (fun d r => d.mcRecord e r.store r.addr r.kind r.bit r.listed outcome extra pc (d.eng e).bank ns w) d

/-- An uncorrectable word ends the burst with MC_UE, and the engine is FAULTED once its result posts, whatever reason the
group posts; with no burst it is FAULTED at once (R246). -/
def Dev.mcUe (d : Dev) (e t : Nat) : Dev :=
  let d := (d.st .ENG_MC_STAT_UE_SEEN e 1).st .ENG_MC_STAT_RECOV e 0
  if d.runs e then (d.modEng e (fun x => { x with act := none, recov := none, ue := true })).endFaultAt e rMCUE true t
  else d.st .ENG_STAT_STATE e 4

/-- OUTCOME of an uncorrectable word (R246): MC_UE, or "no burst" when none runs, in the prologue, and on an engine that
owns no quads. -/
def Dev.ueOutcome (d : Dev) (e : Nat) : Nat :=
  if d.runs e && 0 < (d.eng e).issued && !(d.quads e).isEmpty then 2 else 3

/-- A careful read of one store word: whether it is uncorrectable, the record it gives, and the list. `failed` tells that
its parity failed. A word listed as CE keeps its entry and writes no further record (R245, R248). -/
def Dev.careRead (d : Dev) (e : Nat) (failed : Bool) (w : Nat × Nat) : Bool × Option McRec × Dev :=
  match judge w.1 w.2 ((d.eng e).wrongBits w.1 w.2) with
  | .clean => (false, if failed then some ⟨w.1, w.2, 0, 0x1FF, 0⟩ else none, d)
  | .ce b =>
    if d.listKind e w == some 0 then (false, none, d)
    else
      let t := d.listEnter e w.1 w.2 (some b)
      (false, some ⟨w.1, w.2, if failed then 1 else 6, b, b2n t.1⟩, t.2)
  | .ue =>
    let t := d.listEnter e w.1 w.2 none
    (true, some ⟨w.1, w.2, 2, 0x1FF, b2n t.1⟩, t.2)

/-- The tie partners' issue holds for as many cycles, a tie latency after the error at tick `t` (R38). -/
def Dev.stallPartners (d : Dev) (e n t : Nat) : Dev :=
  if !d.tied e then d
  else ((d.members e).foldl (fun d x =>
    if x = e then d else d.modEng x (fun y => { y with tieStall := y.tieStall ++ [(t + d.tieLat e * cyc, n)] })) d).tieTell e 1 n

/-- A parity machine check: a recovery begins that reads `rest` words, up to the next point (R242, R245). -/
def Dev.machineCheck (d : Dev) (e rest : Nat) : Dev :=
  let d := (d.bump .ENG_MC_STAT_PCNT e 1).st .ENG_MC_STAT_RECOV e 1
  (d.modEng e (fun x => { x with recov := some ⟨d.nsAt x.free, 0, [], false, x.ipc, false⟩ })).stallPartners e rest (d.eng e).free

/-- The microword at `upc` and its nano-word are read with care, in a cycle of their own, and the corrected word executes
in the next (R243): whether it does. The records of a recovery's first read wait for its end. -/
def Dev.careWord (d : Dev) (e w : Nat) (failed : List (Nat × Nat)) (ws : List (Nat × Nat)) : Bool × Dev :=
  let r := ws.foldl (fun (a : Bool × List McRec × Dev) v =>
    let q := a.2.2.careRead e (failed.contains v) v
    (a.1 || q.1, a.2.1 ++ q.2.1.toList, q.2.2)) (false, [], d)
  let d := r.2.2
  let x := d.eng e
  let first := x.recov.any (fun r => r.words == 0)
  let n := x.recov.elim 0 (fun r => r.words + 1)
  if r.1 then
    let o := d.ueOutcome e
    let d := match x.recov with
      | some q => (d.mcRecords e q.recs o n q.pc q.ns x.free).mcRecords e r.2.1 o n q.pc (if first then q.ns else d.nsAt x.free) x.free
      | none => d.mcRecords e r.2.1 o 0 x.ipc (d.nsAt x.free) x.free
    (false, d.mcUe e x.free)
  else
    let d := if first then d else d.mcRecords e r.2.1 0 0 x.ipc (d.nsAt x.free) x.free
    let free := x.free + 2 * cyc
    let d := d.modEng e (fun y => { y with
      free := free, ceTo := free, atPoint := false
      recov := y.recov.map (fun q => { q with words := n, recs := if first then r.2.1 else q.recs }) })
    (true, d.microNext e w)

/-- One microword of instruction `w` executes, the one at `upc` (R238, R242 to R248): whether it does. `rest` is how many
words, this one included, lead to the next point of R240. A word listed as UE acts when it is chosen; one listed as CE is
read with care. -/
def Dev.micro (d : Dev) (e w rest : Nat) : Bool × Dev :=
  let x := d.eng e
  let ws := [(0, x.upc), (1, uNano (Config.rom x.upc))]
  let ues := ws.filter (fun v => d.listKind e v == some 1)
  if !ues.isEmpty then
    (false, (d.mcRecords e (ues.map (fun v => ⟨v.1, v.2, 5, 0x1FF, 0⟩)) (d.ueOutcome e) 0 x.ipc (d.nsAt x.free) x.free).mcUe e x.free)
  else
    let care := x.careful || x.recov.isSome || ws.any (fun v => d.listKind e v == some 0)
    let failed := if care then [] else ws.filter (fun v => parityFails v.1 (x.wrongBits v.1 v.2))
    if !failed.isEmpty then (d.machineCheck e rest).careWord e w failed ws
    else if care then d.careWord e w [] ws
    else (true, (d.setEng e { x with free := x.free + cyc, atPoint := false }).microNext e w)

/-- So many microwords execute, `after` more leading to the next point: whether all did. -/
def Dev.micros (d : Dev) (e w after : Nat) : Nat → Bool × Dev
  | 0 => (true, d)
  | k + 1 =>
    let r := d.micro e w (k + 1 + after)
    if r.1 then r.2.micros e w after k else r

/-- The engine stands at a point of R240; a recovery has run to its end (R245). -/
def Dev.point (d : Dev) (e : Nat) : Dev :=
  d.modEng e (fun x => { x with atPoint := true, recov := x.recov.map (fun r => { r with done := true }) })

/-- RECOVERY_END: normal service resumes at the point that ended the recovery, and its records are written with the cycles
it added. A row that missed its deadline before has ended the burst (R37, R245, R252). -/
def Dev.recoveryEnd (d : Dev) (e : Nat) : Dev :=
  match (d.eng e).recov with
  | none => d
  | some r =>
    if !r.done then d
    else
      let t := (d.eng e).free
      let d := (d.advanceTo t).overdue e t
      let stall := r.stall || (d.eng e).ending.any (fun o => o.reason == rMCSTALL)
      ((d.mcRecords e r.recs (b2n stall) (min r.words 64) r.pc r.ns d.tick).st .ENG_MC_STAT_RECOV e 0).modEng e
        (fun x => { x with recov := none, act := if d.estate e = 1 ∨ d.estate e = 2 then x.act else none })

/-- The background scan reads its next word in careful mode (R249): 4,096 microwords, then 2,048 nano-words. -/
def Dev.scanWord (d : Dev) (e : Nat) : Dev :=
  if !d.domOn (domK (e / 16)) then d
  else
    let x := d.eng e
    let n := x.scan % 6144
    let store := if n < 4096 then 0 else 1
    let addr := if n < 4096 then n else n - 4096
    let d := d.setEng e { x with scan := (n + 1) % 6144 }
    let d := if n + 1 = 6144 then d.st .ENG_MC_SCAN_PASSES e (d.rg .ENG_MC_SCAN_PASSES e + 1) else d
    match judge store addr (x.wrongBits store addr) with
    | .clean => d
    | .ce b =>
      let t := d.listEnter e store addr (some b)
      t.2.mcRecord e store addr 3 b (b2n t.1) (if d.runs e then 0 else 3) 0 0 0 d.nowNs d.tick
    | .ue =>
      let t := d.listEnter e store addr none
      (t.2.st .ENG_MC_STAT_UE_SEEN e 1).mcRecord e store addr 4 0x1FF (b2n t.1) (if d.runs e then 0 else 3) 0 0 0 d.nowNs d.tick

/-- Insert a store word in ascending order, microword store first. -/
def insWord (w : Nat × Nat) : List (Nat × Nat) → List (Nat × Nat)
  | [] => [w]
  | v :: l => if w = v then v :: l else if w.1 < v.1 ∨ (w.1 = v.1 ∧ w.2 < v.2) then w :: v :: l else v :: insWord w l

/-- The store words that hold wrong bits, in the order in which a self-test reads them. -/
def Eng.badWords (x : Eng) : List (Nat × Nat) := x.storeErr.foldl (fun l t => insWord (t.1, t.2.1) l) []

/-- Function bits of a word that stay wrong after a careful read. -/
def Eng.residue (x : Eng) (w : Nat × Nat) : List Nat :=
  let bits := (x.wrongBits w.1 w.2).filter (fun b => b < funcBits w.1)
  match judge w.1 w.2 (x.wrongBits w.1 w.2) with
  | .ce b => if bits.contains b then bits.erase b else if b < funcBits w.1 then b :: bits else bits
  | _ => bits

/-- Whether the CRC of R250 differs. A CRC-16-CCITT finds every odd number of wrong bits, and two of one word; of other
patterns it depends on the order of the bits, which is not published (log 4). -/
def Eng.crcBad (x : Eng) : Bool :=
  let l := (x.badWords.map (fun w => (x.residue w).length)).filter (· ≠ 0)
  match l with
  | [] => false
  | [2] => true
  | _ => l.sum % 2 == 1 || Config.romCrcBad x.storeErr

/-- The self-test of one engine (R250): every word that holds an error is read in careful mode; a CRC that differs after
correction sets IDERR and leaves the engine FAULTED. -/
def Dev.selfTest (d : Dev) (e : Nat) : Dev :=
  let x := d.eng e
  let d := x.badWords.foldl (fun d w =>
    match judge w.1 w.2 (x.wrongBits w.1 w.2) with
    | .clean => d
    | .ce b =>
      let t := d.listEnter e w.1 w.2 (some b)
      if t.1 then t.2.mcRecord e w.1 w.2 3 b 1 3 0 0 0 d.nowNs d.tick else t.2
    | .ue =>
      let t := d.listEnter e w.1 w.2 none
      let d' := t.2.st .ENG_MC_STAT_UE_SEEN e 1
      if t.1 then d'.mcRecord e w.1 w.2 4 0x1FF 1 3 0 0 0 d.nowNs d.tick else d') d
  if x.crcBad then
    let d := d.st .ENG_MC_STAT_IDERR e 1
    let d := d.bootErr .HOST_BOOTERR_IDERR
    if d.estate e = 0 then d.st .ENG_STAT_STATE e 4
    else if d.estate e = 3 then d.modEng e (fun x => { x with idFault := true })
    else d
  else d

/-- Bits of a stored control word change of themselves (R232); a bit named again changes back. -/
def Dev.storeError (d : Dev) (e store addr : Nat) (bits : List Nat) : Dev :=
  let ok := store < 2 && addr < (if store = 0 then 4096 else 2048)
  let bits := bits.filter (fun b => ok && b < (if store = 0 then 45 else 257))
  bits.foldl (fun d b => d.modEng e (fun x => { x with
    storeErr := if x.storeErr.contains (store, addr, b) then x.storeErr.erase (store, addr, b)
      else (store, addr, b) :: x.storeErr })) d

/-- A recovery stall reaches the engine through the tie path: issue holds for as many cycles (R38). -/
def Dev.tieStallArrival (d : Dev) (e : Nat) : Dev :=
  match (d.eng e).tieStall with
  | [] => d
  | (t, n) :: rest =>
    let d := d.advanceTo t
    d.modEng e (fun x =>
      let free := max x.free (nextCycle t) + n * cyc
      { x with tieStall := rest, free := free, stallTo := free })

/-- A recovery is abandoned, and its records say so (R247). -/
def Dev.abandon (d : Dev) (e : Nat) : Dev :=
  match (d.eng e).recov with
  | none => d
  | some r =>
    ((d.mcRecords e r.recs 4 (min r.words 64) r.pc r.ns d.tick).st .ENG_MC_STAT_RECOV e 0).modEng e (fun x => { x with recov := none })

/-- ENG_RESET: with the key, a running burst is halted first and the reset follows its result; otherwise it applies at
once. A recovery is abandoned (R189, R247). -/
def Dev.engReset (d : Dev) (e key : Nat) : Dev :=
  if key ≠ 0xA5 then d
  else
    let d := (d.abandon e).halt e
    if d.runs e then d.modEng e (fun x => { x with rst := true }) else d.engClear e

/-- RECOVERY_END. -/
def execRecoveryEnd (e : EngId) (s : State) : Answer := .next (s.onDev (·.recoveryEnd e))

/-- ENG_RESET. -/
def execEngReset (e : EngId) (key : BitVec 8) (s : State) : Answer :=
  .next (s.onDev (fun d => d.engWrite e (·.engReset e key.toNat)))

/-- TIE_STALL_ARRIVAL. -/
def execTieStallArrival (e : EngId) (s : State) : Answer := .next (s.onDev (·.tieStallArrival e))

/-- CONTROL_STORE_SCAN. -/
def execControlStoreScan (e : EngId) (s : State) : Answer := .next (s.onDev (·.scanWord e))

/-- CLRLIST. -/
def execClrlist (e : EngId) (s : State) : Answer := .next (s.onDev (fun d => d.engWrite e (·.listClear e)))

/-- CONTROL_STORE_ERROR. -/
def execControlStoreError (e : EngId) (store addr : Nat) (bits : List Nat) (s : State) : Answer :=
  .next (s.onDev (·.storeError e store addr bits))

end Sys2Proof.Machine
end

