-- ==== Sys2Proof/Machine/Issue.lean ====
section
/-!
DEFINITION. Issuing instructions: fetch, checks, completion, branches with delay regions, ILLEGAL, the burst end, and
the emission of rows over many issue cycles (R170, R179 to R191, R196 to R205, R212 to R216, R224).
-/

namespace Sys2Proof.Machine

/-- Continue at program address `a`; past 0xFFFF the next fetch raises ILLEGAL (R170). -/
def Dev.setPc (d : Dev) (e a : Nat) : Dev :=
  (d.st .ENG_PC_ADDR e a).modEng e (fun x => { x with pcOver := 0x10000 ≤ a })

/-- The next address in sequence. -/
def Dev.nextPc (d : Dev) (e : Nat) : Nat := d.rg .ENG_PC_ADDR e + 1

/-- An instruction of the delay region has issued: when it was the last and the branch is decided, control transfers
(R202). -/
def Dev.region (d : Dev) (e : Nat) : Dev :=
  match (d.eng e).br with
  | none => d
  | some b =>
    if b.left ≤ 1 then
      match b.decided with
      | some c => (d.modEng e (fun x => { x with br := none })).setPc e (if c then b.target else b.after)
      | none => d.modEng e (fun x => { x with br := some { b with left := 0 } })
    else d.modEng e (fun x => { x with br := some { b with left := b.left - 1 } })

/-- The instruction at PC is complete, at a boundary: the next one follows. -/
def Dev.finish (d : Dev) (e : Nat) : Dev :=
  (((d.modEng e (fun x => { x with act := none })).setPc e (d.nextPc e)).region e).point e

/-- A flow instruction with target, delay and decision (none: decided later, R179). -/
def Dev.branch (d : Dev) (e cond target delay : Nat) (decided : Option Bool) : Dev :=
  let x := d.eng e
  let after := d.nextPc e + delay
  match decided, delay with
  | some c, 0 => d.setPc e (if c then target else after)
  | _, _ =>
    let ref := if x.issued = 0 then none else some (x.issued - 1)
    let tr := match ref, x.lastRes with
      | some r, some (v, t) => if v = r then some (cycleOf t) else none
      | _, _ => none
    (d.modEng e (fun x => { x with br := some ⟨cond, target, after, delay, ref, tr, decided⟩ })).setPc e (d.nextPc e)

/-- The decision of a branch condition at issue (R179, R202). A result condition before the burst's first row is decided
at once from the flags of the burst's start, all 0. -/
def Dev.decideNow (d : Dev) (e c : Nat) : Option Bool :=
  if !isResult c then some (d.cond e c)
  else if (d.eng e).issued = 0 then some (c == 2 || c == 4 || c == 6 || c == 8)
  else none

/-- The burst ends by its program: issue stops, queued rows run out (R177). -/
def Dev.endProgram (d : Dev) (e : Nat) (mark : Bool) : Dev :=
  (d.modEng e (fun x => { x with mark := x.mark || mark })).stopIssue e ⟨0, e, d.tick, true⟩

/-- What an interrupted instruction keeps beside PROG0 to PROG3 until it is resumed. -/
def Dev.holdOver (d : Dev) (e : Nat) : List Held :=
  let x := d.eng e
  if x.act.isSome then ⟨d.rg .ENG_PC_ADDR e, d.time.gen, x.waitFrom, 0, x.blkBad⟩ :: x.held.filter (·.pc ≠ d.rg .ENG_PC_ADDR e) else x.held

/-- Enter the handler of event `k`; its first instruction issues `n` cycles after the point (R184, R190). -/
def Dev.enter (d : Dev) (e k n : Nat) (resume : Bool) : Dev :=
  let held := d.holdOver e
  let d := (d.clearEv e k).st .ENG_EPC e (d.rg .ENG_PC_ADDR e)
  let d := (d.st .ENG_ESTAT_RESUME e (b2n resume)).st .ENG_ESTAT_SZERO e (d.rg .ENG_FLAGS_ZERO e)
  let d := (d.st .ENG_ESTAT_SCARRY e (d.rg .ENG_FLAGS_CARRY e)).st .ENG_ESTAT_EVNUM e k
  let d := (d.st .ENG_ESTAT_INHANDLER e 1).st .ENG_ESTAT_IE e 0
  let d := d.modEng e (fun x => { x with
    act := none, br := none, pos := 0, held := held, resumed := false, free := max x.free (nextCycle d.tick) + n * cyc })
  d.setPc e (d.rgi .ENG_EV_VEC_ADDR e k)

/-- ILLEGAL is raised by the instruction at PC and taken at once, whatever IE; without a handler, or inside an ILLEGAL
handler, it ends the burst as a burst-end with the site marked failed (R184, R186). The handler issues in the next
cycle. -/
def Dev.takeIllegal (d : Dev) (e w : Nat) : Dev :=
  let d := (d.st .ENG_STAT_ILLSEEN e 1).logEv 0x10 0x11 e (d.rg .ENG_PC_ADDR e + w % 2 ^ 64 * 2 ^ 16)
  if d.rgi .ENG_EV_VEC_VALID e 7 = 0 ∨ (d.on .ENG_ESTAT_INHANDLER e ∧ d.rg .ENG_ESTAT_EVNUM e = 7) then d.endProgram e true
  else d.enter e 7 0 false

/-! ## Fetch (R170, R176) -/

/-- Model address of the word the engine fetches next. -/
def Dev.fetchAddr (d : Dev) (e : Nat) : Nat := progMem (e / 16) (d.eng e).bank (d.rg .ENG_PC_ADDR e)

/-- Whether the engine can issue an instruction. -/
def Dev.canIssue (d : Dev) (e : Nat) : Bool :=
  let x := d.eng e
  (d.estate e == 1 || d.estate e == 2) && x.act.isNone && (match x.br with | none => true | some b => 0 < b.left)
    && x.miss.isNone && x.recov.isNone && !x.pcOver && d.domOn (domK (e / 16))

/-- The instruction word at the program counter, none where its code word is unreadable. -/
def Dev.fetch (d : Dev) (m : List Host.Cell) (e : Nat) : Option Nat × Dev :=
  let r := d.readBytes m 0x02 (d.fetchAddr e) 8
  (if r.2.1 then none else some (leNat r.1), r.2.2)

/-- Move the clock to the cycle in which the engine issues its next instruction, and begin at its entry word. -/
def Dev.issueTime (d : Dev) (e w : Nat) : Dev :=
  let u := max (nextCycle d.tick) (d.eng e).free
  let d := d.advanceTo u
  let pc := d.rg .ENG_PC_ADDR e
  d.modEng e (fun x => { x with
    free := u, ipc := pc, upc := entryWord w
    beatPc := if x.beatPc.any (·.1 == d.coarseAt u / 64) then x.beatPc else (d.coarseAt u / 64, pc) :: x.beatPc.take 15 })

/-- An instruction's effect when it issues: the memory, the block, the engine, the instruction word. -/
abbrev Body := List Host.Cell → Dev → Nat → Nat → Dev

/-- The decision of a flow instruction at its issue, with a delay of 0; none where it has none. -/
def Dev.flowTaken (d : Dev) (e w : Nat) : Bool :=
  iCls w == 0 && iDelay w == 0 && (match iOp w with
    | 1 => d.decideNow e (iCond w) == some true
    | 2 => true
    | 3 => d.decideNow e (iCond w) == some true
    | 4 => true
    | 5 => 1 < d.reg e (iRd w)
    | _ => false)

/-- The four waits. -/
def isWait (w : Nat) : Bool :=
  (iCls w == 7 && (iOp w == 1 || iOp w == 2)) || (iCls w == 8 && iOp w == 1) || (iCls w == 10 && iOp w == 4)

/-- The block instructions. -/
def isBlock (w : Nat) : Bool := (iCls w == 5 && iOp w == 17) || (iCls w == 6 && iOp w ≤ 2)

def isMwait (w : Nat) : Bool := iCls w == 3 && iOp w == 4

/-- Microwords of the instruction before its first row, iteration or hold, and of those that have none, all (R201, R204,
R212, R216, R220, R224). -/
def Dev.startWords (d : Dev) (e w : Nat) : Nat :=
  if isMarch w || isMwait w || isBlock w || isWait w || d.flowTaken e w || (iCls w == 0 && iOp w == 7) then 2 else 1

/-- Whether the first row's word belongs to the same stretch as the entry word: there is no point between them (R204,
R240). -/
def Dev.emitsNext (d : Dev) (e w : Nat) : Bool :=
  isEmit w && !isMarch w && (if (d.eng e).resumed then 0 < d.prog e 0 else 0 < d.opCount e w)

/-- A whole-ns value that a re-base by `delta` (1/65,536 ns) carries along, rounded up (R321). -/
def carryNs (n : Nat) (delta : Int) : Nat := unsigned 64 (((n : Int) * 65536 + delta + 65535) / 65536)

/-- The deadline of the wait `w`, and TWAIT's target, move by `delta` (R225, R321, log 35). PROG2 keeps the generation in
which TWAIT issued. -/
def Dev.carryWait (d : Dev) (e w : Nat) (delta : Int) : Dev :=
  if isWait w then
    let d := if d.prog e 0 = 0 then d else d.setProg e 0 (carryNs (d.prog e 0) delta)
    if iCls w = 7 ∧ iOp w = 1 then d.setProg e 1 (carryNs (d.prog e 1) delta) else d
  else d

/-- How far re-bases have moved device time since generation `g` began; 0 for a generation that never was. -/
def Dev.movedSince (d : Dev) (g : Nat) : Int :=
  match d.time.movedAt.find? (fun p => p.1 == g) with
  | some p => d.time.moved - p.2
  | none => if g = 0 then d.time.moved else 0

/-- An instruction that ERET resumes takes up what its interruption kept: the tick at which it issued fresh, the re-bases
of that time for a wait (log 35), what a MOV has seen, and for MWAIT the rows that handlers emitted (R190, R212). -/
def Dev.resumeHeld (d : Dev) (e w : Nat) : Dev :=
  let x := d.eng e
  if !x.resumed then d
  else match x.held.find? (·.pc == d.rg .ENG_PC_ADDR e) with
  | none => d.setEng e { x with waitFrom := d.tick }
  | some h =>
    let d := d.setEng e { x with waitFrom := h.from_, blkBad := h.bad, held := x.held.filter (·.pc ≠ h.pc) }
    let d := if isMwait w then d.setProg e 0 (d.prog e 0 - h.rows) else d
    if h.gen = d.time.gen then d else d.carryWait e w (d.movedSince h.gen)

/-- After an instruction's start words: a boundary, or the restart point before its first row, iteration or hold; none
before the first row of VEC, VRPT, VPAD and AVEC, and in FENCE (R240). -/
def Dev.started (d : Dev) (e w : Nat) : Dev :=
  let eret := iCls w == 0 && iOp w == 7
  let d := d.modEng e (fun x => { x with resumed := x.resumed && eret })
  if (d.eng e).act.isSome && ((isEmit w && !isMarch w) || (iCls w == 6 && iOp w == 3)) then d else d.point e

/-- Issue the instruction of this class and OP, if that is what the engine fetches next: an unreadable word ends the
burst (R26), a control-store fault delays it or ends the burst (R242, R248), an ILLEGAL one has no effect (R231). Its
effect at issue comes about as its entry word executes. -/
def Dev.issue (d : Dev) (m : List Host.Cell) (e cls op : Nat) (body : Body) : Dev :=
  if !d.canIssue e then d
  else match d.fetch m e with
  | (none, d) => (d.issueTime e 0).endFault e rDATAUE true
  | (some w, d') =>
    if iCls w ≠ cls ∨ iOp w ≠ op then d
    else
      let k := d'.startWords e w
      let after := k - 1 + b2n (d'.emitsNext e w)
      match (d'.issueTime e w).micro e w (after + 1) with
      | (false, d) => d
      | (true, d) =>
        if d.illegal e w then (d.takeIllegal e w).point e
        else
          let r := (body m (d.resumeHeld e w) e w).micros e w (after + 1 - k) (k - 1)
          if r.1 then r.2.started e w else r.2

/-! ## Rows over many issue cycles -/

/-- APG pin word (R214). -/
def Dev.pinWord (d : Dev) (e : Nat) (inv : Bool) : Nat :=
  let sx := d.rg .ENG_XA e ^^^ d.rg .ENG_APG_XSCR_XSCR e
  let sy := d.rg .ENG_YA e ^^^ d.rg .ENG_APG_YSCR_YSCR e
  let bg := (parityOf 32 (sx &&& d.rg .ENG_APG_XDMASK_XDMASK e) + parityOf 32 (sy &&& d.rg .ENG_APG_YDMASK_YDMASK e)) % 2
  let ones := 2 ^ 64 - 1
  let dd := d.rg .ENG_DG e ^^^ (if bg = 1 then ones else 0) ^^^ (if inv then ones else 0)
  ((List.range 64).map (fun j =>
    let s := bitsOf (d.rgi .ENG_APG_SEL_SEL e (j / 8)) (8 * (j % 8)) 8
    let b := if s < 0x20 then bitOf sx s else if s < 0x40 then bitOf sy (s - 0x20) else if s < 0x80 then bitOf dd (s - 0x40)
      else s == 0x81
    b2n b * 2 ^ j)).foldl (· + ·) 0

/-- One address step (R215). -/
def Dev.stepAddr (d : Dev) (e : Nat) (down yfast : Bool) : Dev :=
  let fast := if yfast then Field.ENG_YA else .ENG_XA
  let slow := if yfast then Field.ENG_XA else .ENG_YA
  let fmax := if yfast then d.rg .ENG_APG_YMAX_YMAX e else d.rg .ENG_APG_XMAX_XMAX e
  let smax := if yfast then d.rg .ENG_APG_XMAX_XMAX e else d.rg .ENG_APG_YMAX_YMAX e
  let f := d.rg fast e
  let s := d.rg slow e
  if !down then
    if f < fmax then d.st fast e (f + 1)
    else
      let d := d.st fast e 0
      if s < smax then d.st slow e (s + 1) else (d.st slow e 0).st .ENG_FLAGS_CARRY e 1
  else if 0 < f then d.st fast e (f - 1)
  else
    let d := d.st fast e fmax
    if 0 < s then d.st slow e (s - 1) else (d.st slow e smax).st .ENG_FLAGS_CARRY e 1

/-- Emit the current stream row with a pin word: whether it issued. -/
def Dev.emitCur (d : Dev) (m : List Host.Cell) (e pinw : Nat) : Bool × Dev :=
  match d.curRow m e with
  | (none, d) => (false, d)
  | (some w, d) => d.emitRow m e w pinw (d.execCycle e)

/-- Rows of one address of a MARCH (R216). -/
def Dev.marchRows (d : Dev) (e w : Nat) : Nat := (bitsOf (iMod w) 2 3 + 1) * (d.rg .ENG_APG_CTRL_TROWS_M1 e + 1)

/-- The row a MARCH emits next: operation k, template row r (R216). -/
def Dev.emitMarch (d : Dev) (m : List Host.Cell) (e w : Nat) : Bool × Dev :=
  let t := d.rg .ENG_APG_CTRL_TROWS_M1 e + 1
  let op := bitsOf (iImm w) (4 * ((d.eng e).pos / t)) 4
  let vp := d.rg .ENG_VP e
  match d.rowAt m e (vp + (op % 8 * t + (d.eng e).pos % t) * d.rowBytes e) (vp % d.rowBytes e != 0) with
  | (none, d) => (false, d)
  | (some row, d) => d.emitRow m e row (d.pinWord e (bitOf op 3)) (d.execCycle e)

/-- Rows, or addresses, left. -/
def Dev.countDown (d : Dev) (e : Nat) : Dev := d.setProg e 0 (d.prog e 0 - 1)

/-- A row of a MARCH has issued: with the last of its address comes the address step (R216). -/
def Dev.marchNext (d : Dev) (e w : Nat) : Dev :=
  if (d.eng e).pos + 1 < d.marchRows e w then d.modEng e (fun x => { x with pos := x.pos + 1 })
  else
    let d := (d.modEng e (fun x => { x with pos := 0, uctr := ceilDiv (d.marchRows e w) 2 })).stepAddr e (bitOf (iMod w) 0)
      (bitOf (iMod w) 1)
    (d.countDown e).setProg e 1 (d.prog e 1 + 1)

/-- Emit one row of the active instruction `w`, with what follows it: whether it issued. -/
def Dev.emitOne (d : Dev) (m : List Host.Cell) (e w : Nat) : Bool × Dev :=
  match iCls w, iOp w with
  | 1, 0 =>
    let r := d.emitCur m e 0
    if r.1 then (true, (r.2.consume m e).countDown e) else r
  | 1, 2 =>
    let r := d.emitRow m e (((List.range 64).map (fun p => iMod w * 16 ^ p)).foldl (· + ·) 0) 0 (d.execCycle e)
    if r.1 then (true, r.2.countDown e) else r
  | 4, 0 =>
    let r := d.emitCur m e (d.pinWord e false)
    if r.1 then
      let d := r.2.countDown e
      (true, if bitOf (iMod w) 2 then d.stepAddr e (bitOf (iMod w) 0) (bitOf (iMod w) 1) else d)
    else r
  | 4, 1 =>
    let r := d.emitMarch m e w
    if r.1 then (true, r.2.marchNext e w) else r
  | 1, 1 =>
    let r := d.emitCur m e 0
    if r.1 then (true, r.2.countDown e) else r
  | 3, 4 =>
    let r := d.emitCur m e 0
    if r.1 then (true, r.2.countDown e) else r
  | _, _ => d.emitCur m e 0

/-- The microword of a row executes while a recovery completes after the burst's end: no row is read or issued (R37, R247,
log 44). -/
def Dev.passRow (d : Dev) (e w : Nat) : Dev :=
  match iCls w, iOp w with
  | 4, 0 =>
    let d := d.countDown e
    if bitOf (iMod w) 2 then d.stepAddr e (bitOf (iMod w) 0) (bitOf (iMod w) 1) else d
  | 4, 1 => d.marchNext e w
  | 1, _ => d.countDown e
  | 3, _ => d.countDown e
  | _, _ => d

/-- The row of an issue cycle: emitted, or passed over after the burst's end. -/
def Dev.rowStep (d : Dev) (m : List Host.Cell) (e w : Nat) : Bool × Dev :=
  if d.estate e = 1 ∨ d.estate e = 2 then d.emitOne m e w else (true, d.passRow e w)

/-- The holds that emit the current row at every issue cycle: MWAIT, and the waits with r = 1 (R212, R224). -/
def isHoldEmit (w : Nat) : Bool := isMwait w || (isWait w && bitOf (iMod w) 5)

/-- Whether the second row of an issue cycle belongs to it: not across the addresses of a MARCH. -/
def Dev.pairs (d : Dev) (e w : Nat) : Bool := if isMarch w then 0 < (d.eng e).pos else 0 < d.prog e 0

/-- Words to the next restart point: inside an address of a MARCH, those of its rows still to issue (R216, R245). -/
def Dev.wordsLeft (d : Dev) (e w : Nat) : Nat := if isMarch w then ceilDiv (d.marchRows e w - (d.eng e).pos) 2 else 1

/-- An issue cycle has ended: a restart point, but for one inside an address of a MARCH (R204, R216). -/
def Dev.cycleEnds (d : Dev) (e w : Nat) : Dev := if isMarch w && 0 < (d.eng e).pos then d else d.point e

/-- A wait whose condition is met, or whose limit is reached: it holds no longer (R224). -/
def Dev.waitOut (d : Dev) (e w : Nat) : Bool :=
  isWait w && ((d.waitMet e w).any (·.1) || (d.prog e 0 != 0 && decide (d.prog e 0 ≤ d.nowNs)))

/-- One issue cycle of the active emission: whether another may follow. It holds unless the queue has room for two rows
(R236, R239). A word held for a bobbin line does not execute, though a recovery it began stands (R238, R242). -/
def Dev.issueCycle (d : Dev) (m : List Host.Cell) (e w : Nat) : Bool × Dev :=
  let d := d.advanceTo (d.eng e).free
  if !d.roomForTwo e || d.waitOut e w then (false, d.cycleEnds e w)
  else
    let q := d.micro e w (d.wordsLeft e w)
    if !q.1 then q
    else
      let r := q.2.rowStep m e w
      if !r.1 then
        (false, if (r.2.eng e).miss.isSome && (q.2.eng e).recov.isSome == (d.eng e).recov.isSome then (d.emitOne m e w).2 else r.2)
      else if isHoldEmit w || !r.2.pairs e w then (true, r.2.cycleEnds e w)
      else
        let s := r.2.rowStep m e w
        (s.1, if s.1 then s.2.cycleEnds e w else s.2)

/-- The active emission instruction has emitted all its rows: VRPT consumes its row, MARCH sets ZERO. -/
def Dev.emitDone (d : Dev) (m : List Host.Cell) (e w : Nat) : Dev :=
  let d := if iCls w = 1 ∧ iOp w = 1 then d.consume m e else d
  let d := if isMarch w then d.st .ENG_FLAGS_ZERO e 1 else d
  d.finish e

/-- Whether the instruction in progress can go on: the burst runs, or has ended during a recovery; no line is awaited, and
no recovery stands at its end. -/
def Dev.goesOn (d : Dev) (e : Nat) : Bool :=
  (d.estate e == 1 || d.estate e == 2 || (d.eng e).recov.isSome) && (d.eng e).miss.isNone
    && (d.eng e).recov.all (fun r => !r.done)

/-- An emission of rows that has none left is complete. -/
def Dev.settleEmit (d : Dev) (m : List Host.Cell) (e : Nat) : Dev :=
  match (d.eng e).act with
  | some w => if isEmit w && d.prog e 0 == 0 && (d.estate e == 1 || d.estate e == 2) then d.emitDone m e w else d
  | none => d

/-- Run at most `n` issue cycles of the emission in progress, as far as the queue and the bobbin allow (R196, R197,
R204). -/
def Dev.run (d : Dev) (m : List Host.Cell) (e : Nat) : Nat → Dev
  | 0 => d
  | n + 1 =>
    match (d.eng e).act with
    | none => d
    | some w =>
      if !d.goesOn e || !(isEmit w || isHoldEmit w) then d
      else
        let r := d.issueCycle m e w
        let d := r.2.settleEmit m e
        if r.1 then d.run m e n else d

/-- The engine issues in every cycle up to tick `t`, whatever commands come: the rows of those cycles (log 34). `fuel`
bounds the cycles. -/
def Dev.runUntil (d : Dev) (m : List Host.Cell) (e t : Nat) : Nat → Dev
  | 0 => d
  | n + 1 =>
    if (d.eng e).act.any (fun w => isEmit w || isHoldEmit w) && d.goesOn e && d.roomForTwo e && decide ((d.eng e).free ≤ t) then
      (d.run m e 1).runUntil m e t n
    else d

def Dev.catchUp (d : Dev) (m : List Host.Cell) (e t : Nat) : Dev := d.runUntil m e t ((t - (d.eng e).free) / cyc + 1)

/-- The active instruction takes over, its progress set. One that is resumed keeps the tick at which it issued fresh. -/
def Dev.begin (d : Dev) (e w : Nat) : Dev :=
  d.modEng e (fun x => { x with act := some w, pos := 0, waitFrom := if x.resumed then x.waitFrom else d.tick })

/-- Issue continues after a hold that ended now: for a row in the queue or a line of the bobbin. -/
def Dev.resumeIssue (d : Dev) (e : Nat) : Dev := d.modEng e (fun x => { x with free := max x.free (nextCycle d.tick) })

/-- A command of a restartable instruction: it issues, or it goes on where it is in progress, for at most `n` issue
cycles of rows. -/
def Dev.issueRun (d : Dev) (m : List Host.Cell) (e cls op n : Nat) (body : Body) : Dev :=
  let d := if (d.eng e).act.isSome then d else d.issue m e cls op body
  if (d.eng e).act.any (fun w => iCls w == cls && iOp w == op) then d.run m e n else d

/-! ## The commands at the pins -/

/-- ROW_PIN_START: the head of the emission queue starts at the pins; a full queue has room again. -/
def Dev.rowPinStart (d : Dev) (m : List Host.Cell) (e : Nat) : Dev :=
  let d := d.catchUp m e ((d.eng e).next.elim d.tick (fun r => d.rowBegin e r - 1))
  let full := !d.roomForTwo e
  let d := d.pinStart e
  if full then d.resumeIssue e else d

/-- EMISSION_DEADLINE_MISS: 8 cycles before the next row's start it is not in the queue, nor does the emission in progress
issue it by then (R128). -/
def Dev.deadlineMiss (d : Dev) (m : List Host.Cell) (e : Nat) : Dev :=
  match d.rowDeadline e with
  | none => d
  | some t =>
    let d := d.catchUp m e t
    if d.rowDeadline e = some t then (d.advanceTo t).underrun e t else d

/-- An instruction word of a reserved class or an undefined OP is next: its entry word is read and raises ILLEGAL (R168,
R236). -/
def Dev.undefTaken (d : Dev) (m : List Host.Cell) (e w : Nat) : Dev :=
  match (((d.fetch m e).2).issueTime e w).micro e w 1 with
  | (false, d) => d
  | (true, d) => (d.takeIllegal e w).point e

/-- The word the engine fetches next, where no instruction of the table spells it. -/
def Dev.undefNext (d : Dev) (m : List Host.Cell) (e : Nat) : Option Nat :=
  if d.canIssue e then (d.fetch m e).1.filter (fun w => (opUse (iCls w) (iOp w) (iMod w)).isNone) else none

/-- Take event `k` at the point where the engine stands. An EVWAIT whose event can be taken in the cycle it comes is
complete (R230); an instruction that ERET has not yet resumed keeps its progress. -/
def Dev.takeEvent (d : Dev) (m : List Host.Cell) (e k : Nat) : Dev :=
  match (d.eng e).act with
  | some w =>
    if iCls w = 10 ∧ iOp w = 4 then
      let r := if bitOf (iMod w) 5 then d.consumeRow m e else (true, d)
      if r.1 then ((r.2.st .ENG_FLAGS_ZERO e 0).finish e).enter e k 1 false else r.2
    else d.enter e k 1 true
  | none => d.enter e k 1 (d.eng e).resumed

/-- EVENT_TAKEN: the event that goes first among those that can be taken now (R184, R193, R230); or the ILLEGAL of a
word that no instruction of the table spells, or of a fetch past 0xFFFF, whose record names address 0x0000 and word 0
(R168, R170, log 15). -/
def Dev.eventTaken (d : Dev) (m : List Host.Cell) (e : Nat) : Dev :=
  let x := d.eng e
  if x.pcOver && d.runs e && x.act.isNone && x.br.isNone && x.recov.isNone && d.estate e ≤ 2 then
    let d := d.issueTime e 0
    ((d.modEng e (fun x => { x with free := x.free + cyc })).takeIllegal e 0).point e
  else match d.undefNext m e with
  | some w => d.undefTaken m e w
  | none =>
    let d := d.catchUp m e (d.tick - 1)
    match d.takeable e with
    | some k => d.takeEvent m e k
    | none => d

/-- BRANCH_DECISION: the delayed branch is decided at t_r + 40 + L from everything visible by then (R179). -/
def Dev.branchDecision (d : Dev) (e : Nat) : Dev :=
  match (d.eng e).br with
  | none => d
  | some b =>
    match b.decided, b.tr with
    | none, some t =>
      let due := t + 40 * cyc + (if 5 ≤ b.cond then d.tieLat e * cyc else 0)
      let d := (d.advanceTo due).flagsUpTo e due flagFuel
      let c := d.cond e b.cond
      if b.left = 0 then
        ((d.modEng e (fun x => { x with br := none, free := max x.free (nextCycle d.tick + cyc) })).setPc e
          (if c then b.target else b.after))
      else d.modEng e (fun x => { x with br := some { b with decided := some c } })
    | _, _ => d

/-- The values on which rows are judged for an MWAIT: of MATCH, or of TMATCH, the AND over the members here and, as last
told, on other devices (R67, R212). -/
def Dev.rowsShown (d : Dev) (e w : Nat) : List (Nat × Bool) :=
  let x := d.eng e
  if bitOf (iMod w) 0 && d.tied e then
    x.gjudged.map (fun j => (j.1, (d.members e).all (fun y => ((d.eng y).gjudged.find? (·.1 == j.1)).elim (d.eng y).gMatch (·.2))
      && (d.far.filter (fun f => f.grp == d.grp e)).all (·.match_)))
  else x.judged

/-- An MWAIT ends: it consumes its row (R212). -/
def Dev.mwaitOver (d : Dev) (m : List Host.Cell) (e : Nat) : Dev :=
  ((d.modEng e (fun y => { y with free := max y.free (nextCycle d.tick), judged := [], gjudged := [] })).consume m e).finish e

/-- The judgement that ends an MWAIT: the first counted row shown matching, or the n-th row reflected without one
(R212). -/
def Dev.mwaitDecision (d : Dev) (m : List Host.Cell) (e : Nat) : Dev :=
  match (d.eng e).act with
  | none => d
  | some w =>
    if !isMwait w || (d.eng e).recov.isSome then d
    else
      let n := iImm w
      let lo := d.prog e 2
      let counted := (d.rowsShown e w).filter (fun j => lo ≤ j.1 && j.1 < lo + n)
      let d := d.catchUp m e d.tick
      if !d.goesOn e then d
      else match counted.find? (·.2) with
      | some j => ((d.setProg e 1 j.1).st .ENG_FLAGS_ZERO e 0).mwaitOver m e
      | none =>
        if counted.any (fun j => j.1 + 1 == lo + n) then ((d.st .ENG_FLAGS_ZERO e 1).raise e 1).mwaitOver m e else d

/-- ROW_PIN_START. -/
def execRowPinStart (e : EngId) (s : State) : Answer := .next (s.onDev (fun d => d.rowPinStart s.mem e))

/-- FLAG_VISIBLE. -/
def execFlagVisible (e : EngId) (s : State) : Answer := .next (s.onDev (·.flagVisible e))

/-- EMISSION_DEADLINE_MISS. -/
def execEmissionDeadlineMiss (e : EngId) (s : State) : Answer := .next (s.onDev (fun d => d.deadlineMiss s.mem e))

/-- EVENT_TAKEN. -/
def execEventTaken (e : EngId) (s : State) : Answer := .next (s.onDev (fun d => d.eventTaken s.mem e))

/-- BRANCH_DECISION. -/
def execBranchDecision (e : EngId) (s : State) : Answer := .next (s.onDev (·.branchDecision e))

/-- MWAIT_DECISION. -/
def execMwaitDecision (e : EngId) (s : State) : Answer := .next (s.onDev (fun d => d.mwaitDecision s.mem e))

/-- EV_SET_HOST (R182, R183). -/
def execEvSetHost (e : EngId) (s : State) : Answer := .next (s.onDev (fun d => d.engWrite e (·.raise e 0)))

end Sys2Proof.Machine
end

