-- ==== Sys2Proof/Machine/Flags.lean ====
section
/-!
DEFINITION. The flag computations of the ALU and the CRC unit (R215, R217 to R219).
-/

namespace Sys2Proof.Machine

def two64 : Nat := 2 ^ 64

/-- The value an ALU result leaves in RD: its low bits (R165). -/
def truncTo (sp v : Nat) : Nat := v % 2 ^ regWidth sp

/-- ZERO of a result written to the register `sp` (R217). -/
def zeroOf (sp v : Nat) : Nat := b2n (truncTo sp v == 0)

/-- Set ZERO and CARRY. -/
def Dev.setZC (d : Dev) (e z c : Nat) : Dev := (d.st .ENG_FLAGS_ZERO e z).st .ENG_FLAGS_CARRY e c

/-- Write an ALU result with ZERO and CARRY. -/
def Dev.alu (d : Dev) (e sp v c : Nat) : Dev := (d.setReg e sp v).setZC e (zeroOf sp v) c

/-- 64-bit sum and its carry out. -/
def add64 (a b : Nat) : Nat × Nat := ((a + b) % two64, (a + b) / two64 % 2)

/-- 64-bit difference, and CARRY: 1 when a < b unsigned. -/
def sub64 (a b : Nat) : Nat × Nat := ((a + two64 - b % two64) % two64, b2n (a < b % two64))

/-- Shift left, and the last bit shifted out. -/
def shl64 (a n : Nat) : Nat × Nat := (a * 2 ^ n % two64, if n = 0 then 0 else a / 2 ^ (64 - n) % 2)

/-- Shift right, logical, and the last bit shifted out. -/
def shr64 (a n : Nat) : Nat × Nat := (a / 2 ^ n, if n = 0 then 0 else a / 2 ^ (n - 1) % 2)

/-! ## CRC (R219) -/

/-- One bit of a reflected CRC. -/
def crcBitR (poly : Nat) (s : Nat) : Nat := if s % 2 = 1 then s / 2 ^^^ poly else s / 2

/-- One bit of a CRC-16 that is not reflected. -/
def crcBit16 (s : Nat) : Nat := if s / 2 ^ 15 % 2 = 1 then (s * 2 % 2 ^ 16) ^^^ 0x1021 else s * 2 % 2 ^ 16

/-- Apply a function a number of times. -/
def iter (f : Nat → Nat) : Nat → Nat → Nat
  | 0, s => s
  | n + 1, s => iter f n (f s)

/-- Fold one byte into the CRC state: p = 0 CRC-32, 1 CRC-32C (reflected: the bit-reversed polynomials), 2
CRC-16-CCITT. -/
def crcByte (p s b : Nat) : Nat :=
  match p with
  | 0 => iter (crcBitR 0xEDB88320) 8 (s % 2 ^ 32 ^^^ b % 256)
  | 1 => iter (crcBitR 0x82F63B78) 8 (s % 2 ^ 32 ^^^ b % 256)
  | _ => iter crcBit16 8 (s % 2 ^ 16 ^^^ b % 256 * 256)

/-- Fold bytes, lowest first. -/
def crcBytes (p s : Nat) (l : List Nat) : Nat := l.foldl (crcByte p) s

end Sys2Proof.Machine
end

