-- ==== Sys2Proof/Machine/FlowInstr.lean ====
section
/-!
DEFINITION. The flow instructions (class 0x0, R179 to R181, R185, R201 to R203).
-/

namespace Sys2Proof.Machine

/-- NOP. -/
def Dev.bodyNop : Body := fun _ d e _ => d.finish e

/-- BRR cond, RS, DELAY d. -/
def Dev.bodyBrr : Body := fun _ d e w =>
  d.branch e (iCond w) (bitsOf (d.reg e (iRs w)) 0 16) (iDelay w) (d.decideNow e (iCond w))

/-- CALL RD, target, DELAY d: RD takes the address at which a branch not taken would continue. -/
def Dev.bodyCall : Body := fun _ d e w =>
  (d.setReg e (iRd w) (d.nextPc e + iDelay w)).branch e 0 (iTarget w) (iDelay w) (some true)

/-- BR cond, target, DELAY d. -/
def Dev.bodyBr : Body := fun _ d e w => d.branch e (iCond w) (iTarget w) (iDelay w) (d.decideNow e (iCond w))

/-- RET RS, DELAY d. -/
def Dev.bodyRet : Body := fun _ d e w => d.branch e 0 (bitsOf (d.reg e (iRs w)) 0 16) (iDelay w) (some true)

/-- LOOP Ln, target, DELAY d (R203). -/
def Dev.bodyLoop : Body := fun _ d e w =>
  let n := d.reg e (iRd w)
  if n = 0 then (d.st .ENG_FLAGS_ZERO e 1).branch e 0 (iTarget w) (iDelay w) (some false)
  else
    let d := (d.setReg e (iRd w) (n - 1)).st .ENG_FLAGS_ZERO e (b2n (n == 1))
    d.branch e 0 (iTarget w) (iDelay w) (some (n != 1))

/-- END F. -/
def Dev.bodyEnd : Body := fun _ d e w => d.endProgram e (bitOf (iMod w) 0)

/-- ERET (R185, R190): with RESUME the instruction at EPC goes on from PROG0 to PROG3 when it issues. -/
def Dev.bodyEret : Body := fun _ d e _ =>
  let d := d.setZC e (d.rg .ENG_ESTAT_SZERO e) (d.rg .ENG_ESTAT_SCARRY e)
  let d := (d.st .ENG_ESTAT_INHANDLER e 0).st .ENG_ESTAT_IE e 1
  (d.setPc e (d.rg .ENG_EPC e)).modEng e (fun x => { x with resumed := d.on .ENG_ESTAT_RESUME e })

def execNop (e : EngId) (s : State) : Answer := .next (s.onDev (fun d => d.issue s.mem e 0 0 Dev.bodyNop))
def execBrr (e : EngId) (s : State) : Answer := .next (s.onDev (fun d => d.issue s.mem e 0 1 Dev.bodyBrr))
def execCall (e : EngId) (s : State) : Answer := .next (s.onDev (fun d => d.issue s.mem e 0 2 Dev.bodyCall))
def execBr (e : EngId) (s : State) : Answer := .next (s.onDev (fun d => d.issue s.mem e 0 3 Dev.bodyBr))
def execRet (e : EngId) (s : State) : Answer := .next (s.onDev (fun d => d.issue s.mem e 0 4 Dev.bodyRet))
def execLoop (e : EngId) (s : State) : Answer := .next (s.onDev (fun d => d.issue s.mem e 0 5 Dev.bodyLoop))
def execEret (e : EngId) (s : State) : Answer := .next (s.onDev (fun d => d.issue s.mem e 0 7 Dev.bodyEret))
def execEnd (e : EngId) (s : State) : Answer := .next (s.onDev (fun d => d.issue s.mem e 0 6 Dev.bodyEnd))

end Sys2Proof.Machine
end

