-- ==== Sys2Proof/Machine/VectorInstr.lean ====
section
/-!
DEFINITION. The vector, timing, compare and APG instructions (classes 0x1 to 0x4, R204 to R216).
-/

namespace Sys2Proof.Machine

/-- Emit the rows of the operand count, or, resumed, those left in PROG0 (R199, R204); a count of 0 does nothing. The
micro-counter takes the cycles they need. -/
def Dev.emitRows (d : Dev) (e w : Nat) : Dev :=
  let d := if (d.eng e).resumed then d else d.setProg e 0 (d.opCount e w)
  if d.prog e 0 = 0 then d.finish e
  else (d.begin e w).modEng e (fun x => { x with uctr := ceilDiv (d.prog e 0) 2 })

/-- VEC n. -/
def Dev.bodyVec : Body := fun _ d e w => d.emitRows e w
/-- VRPT n. -/
def Dev.bodyVrpt : Body := fun _ d e w => d.emitRows e w
/-- VPAD c, n. -/
def Dev.bodyVpad : Body := fun _ d e w => d.emitRows e w
/-- VPSET RS. -/
def Dev.bodyVpset : Body := fun _ d e w => (d.vpSet e (d.reg e (iRs w))).finish e
/-- VPADD imm. -/
def Dev.bodyVpadd : Body := fun _ d e w => (d.vpSet e (d.rg .ENG_VP e + iSimm w)).finish e

/-- SLOOP RD, RS, rem: declares the loop window (R125, R206). -/
def Dev.bodySloop : Body := fun _ d e w =>
  let d1 := (d.endWindow e).st .ENG_BOB_LSTART_START e (d.reg e (iRd w))
  let d1 := (d1.st .ENG_BOB_LEND_END e (d.reg e (iRs w))).st .ENG_BOB_LREM_REM e (iImm w)
  ((d1.st .ENG_BOB_LREM_ACTIVE e 1).release e).finish e

/-- SLEND. -/
def Dev.bodySlend : Body := fun _ d e _ => ((d.endWindow e).release e).finish e
/-- TAGSET tag. -/
def Dev.bodyTagset : Body := fun _ d e w => (d.st .ENG_TAG e (iImm w)).finish e
/-- TSET s. -/
def Dev.bodyTset : Body := fun _ d e w => (d.st .ENG_TS e (iMod w)).finish e
/-- TSETR RS. -/
def Dev.bodyTsetr : Body := fun _ d e w => (d.st .ENG_TS e (d.reg e (iRs w))).finish e

/-- A pin-aligned action waits for its anchor row (R198). -/
def Dev.anchor (d : Dev) (e : Nat) (a : Pal) : Dev := d.modEng e (fun x => { x with anch := x.anch ++ [a] })

/-- LVLI frame, p (R208). -/
def Dev.bodyLvli : Body := fun _ d e w => (d.anchor e (.lvl (2 * (e / 16) + iMod w) (iImm w))).finish e
/-- LVL RS, p. -/
def Dev.bodyLvl : Body := fun _ d e w =>
  (d.anchor e (.lvl (2 * (e / 16) + iMod w) (bitsOf (d.reg e (iRs w)) 0 32))).finish e

/-- DMASK RS, m. -/
def Dev.bodyDmask : Body := fun _ d e w =>
  let v := d.reg e (iRs w)
  (d.modEng e (fun x => { x with dmask := match iMod w with
    | 0 => v
    | 1 => x.dmask ||| v
    | _ => x.dmask &&& (v ^^^ (2 ^ 64 - 1)) })).finish e

/-- FLOG s. -/
def Dev.bodyFlog : Body := fun _ d e w => (d.modEng e (fun x => { x with susp := iMod w == 0 })).finish e

/-- FCLR M (R210): the clear counts in its issue cycle, before what becomes visible in that cycle; the combined flags
follow one tie latency later. -/
def Dev.bodyFclr : Body := fun _ d e w =>
  let mm := bitOf (iMod w) 0
  let l := d.tieLat e * cyc
  let d := d.modEng e (fun x => { x with flagQ := x.flagQ ++ [⟨d.tick, false, .clear mm⟩, ⟨d.tick + l, true, .clear mm⟩] })
  (d.flagsUpTo e d.tick flagFuel).finish e

/-- SFAIL marks the running burst (R211). -/
def Dev.bodySfail : Body := fun _ d e _ => (d.modEng e (fun x => { x with mark := true })).finish e

/-- MWAIT n, t (R212); with n = 0 it ends at once. -/
def Dev.bodyMwait : Body := fun _ d e w =>
  let n := iImm w
  let d := if (d.eng e).resumed then d
    else ((d.setProg e 0 n).setProg e 1 (2 ^ 64 - 1)).setProg e 2 (d.eng e).issued
  if n = 0 then ((d.st .ENG_FLAGS_ZERO e 1).raise e 1).finish e else d.begin e w

/-- AVEC n: CARRY starts at 0 and a wrapping step sets it (R215). -/
def Dev.bodyAvec : Body := fun _ d e w => (if (d.eng e).resumed then d else d.st .ENG_FLAGS_CARRY e 0).emitRows e w

/-- The start of a MARCH element: the start corner, the addresses remaining and done (R216). PROG0 holds 64 bits: the
2^64 addresses of the largest array wrap to 0, which ends the element at once (DESIGN CHOICE, log 75). -/
def Dev.marchStart (d : Dev) (e w : Nat) : Dev :=
  let x := d.rg .ENG_APG_XMAX_XMAX e
  let y := d.rg .ENG_APG_YMAX_YMAX e
  let down := bitOf (iMod w) 0
  let d := (d.st .ENG_XA e (if down then x else 0)).st .ENG_YA e (if down then y else 0)
  ((d.setProg e 0 ((x + 1) * (y + 1))).setProg e 1 0).st .ENG_FLAGS_CARRY e 0

/-- MARCH: one element over the whole array (R216). -/
def Dev.bodyMarch : Body := fun m d e w =>
  let d := if (d.eng e).resumed then d else d.marchStart e w
  ((d.begin e w).modEng e (fun x => { x with uctr := ceilDiv (d.marchRows e w) 2 })).settleEmit m e

/-! The commands of the instructions that emit rows carry `n`, the issue cycles of rows that the command covers: the
instruction issues, or goes on where it is in progress (log 34). -/

def execVec (e : EngId) (s : State) (n : Nat := 0) : Answer :=
  .next (s.onDev (fun d => d.issueRun s.mem e 1 0 n Dev.bodyVec))
def execVrpt (e : EngId) (s : State) (n : Nat := 0) : Answer :=
  .next (s.onDev (fun d => d.issueRun s.mem e 1 1 n Dev.bodyVrpt))
def execVpad (e : EngId) (s : State) (n : Nat := 0) : Answer :=
  .next (s.onDev (fun d => d.issueRun s.mem e 1 2 n Dev.bodyVpad))
def execVpset (e : EngId) (s : State) : Answer := .next (s.onDev (fun d => d.issue s.mem e 1 3 Dev.bodyVpset))
def execVpadd (e : EngId) (s : State) : Answer := .next (s.onDev (fun d => d.issue s.mem e 1 4 Dev.bodyVpadd))
def execSloop (e : EngId) (s : State) : Answer := .next (s.onDev (fun d => d.issue s.mem e 1 5 Dev.bodySloop))
def execSlend (e : EngId) (s : State) : Answer := .next (s.onDev (fun d => d.issue s.mem e 1 6 Dev.bodySlend))
def execTagset (e : EngId) (s : State) : Answer := .next (s.onDev (fun d => d.issue s.mem e 1 7 Dev.bodyTagset))
def execTset (e : EngId) (s : State) : Answer := .next (s.onDev (fun d => d.issue s.mem e 2 0 Dev.bodyTset))
def execTsetr (e : EngId) (s : State) : Answer := .next (s.onDev (fun d => d.issue s.mem e 2 1 Dev.bodyTsetr))
def execLvli (e : EngId) (s : State) : Answer := .next (s.onDev (fun d => d.issue s.mem e 2 2 Dev.bodyLvli))
def execLvl (e : EngId) (s : State) : Answer := .next (s.onDev (fun d => d.issue s.mem e 2 3 Dev.bodyLvl))
def execDmask (e : EngId) (s : State) : Answer := .next (s.onDev (fun d => d.issue s.mem e 3 0 Dev.bodyDmask))
def execFlog (e : EngId) (s : State) : Answer := .next (s.onDev (fun d => d.issue s.mem e 3 1 Dev.bodyFlog))
def execFclr (e : EngId) (s : State) : Answer := .next (s.onDev (fun d => d.issue s.mem e 3 2 Dev.bodyFclr))
def execSfail (e : EngId) (s : State) : Answer := .next (s.onDev (fun d => d.issue s.mem e 3 3 Dev.bodySfail))
def execMwait (e : EngId) (s : State) (n : Nat := 0) : Answer :=
  .next (s.onDev (fun d => d.issueRun s.mem e 3 4 n Dev.bodyMwait))
def execAvec (e : EngId) (s : State) (n : Nat := 0) : Answer :=
  .next (s.onDev (fun d => d.issueRun s.mem e 4 0 n Dev.bodyAvec))
def execMarch (e : EngId) (s : State) (n : Nat := 0) : Answer :=
  .next (s.onDev (fun d => d.issueRun s.mem e 4 1 n Dev.bodyMarch))

end Sys2Proof.Machine
end

