-- ==== Sys2Proof/Machine/AluInstr.lean ====
section
/-!
DEFINITION. The ALU and CRC instructions of one cycle (class 0x5, R217 to R219).
-/

namespace Sys2Proof.Machine

/-- LDI RD, imm. -/
def Dev.bodyLdi : Body := fun _ d e w => (d.setReg e (iRd w) (iImm w)).finish e
/-- LDHI RD, imm. -/
def Dev.bodyLdhi : Body := fun _ d e w =>
  (d.setReg e (iRd w) (d.reg e (iRd w) % 2 ^ 32 + iImm w * 2 ^ 32)).finish e
/-- CPY RD, RS. -/
def Dev.bodyCpy : Body := fun _ d e w => (d.setReg e (iRd w) (d.reg e (iRs w))).finish e
/-- ADD RD, RS. -/
def Dev.bodyAdd : Body := fun _ d e w =>
  let r := add64 (d.reg e (iRd w)) (d.reg e (iRs w))
  (d.alu e (iRd w) r.1 r.2).finish e
/-- ADDI RD, imm. -/
def Dev.bodyAddi : Body := fun _ d e w =>
  let r := add64 (d.reg e (iRd w)) (iSimm w)
  (d.alu e (iRd w) r.1 r.2).finish e
/-- SUB RD, RS. -/
def Dev.bodySub : Body := fun _ d e w =>
  let r := sub64 (d.reg e (iRd w)) (d.reg e (iRs w))
  (d.alu e (iRd w) r.1 r.2).finish e
/-- AND RD, RS. -/
def Dev.bodyAnd : Body := fun _ d e w => (d.alu e (iRd w) (d.reg e (iRd w) &&& d.reg e (iRs w)) 0).finish e
/-- OR RD, RS. -/
def Dev.bodyOr : Body := fun _ d e w => (d.alu e (iRd w) (d.reg e (iRd w) ||| d.reg e (iRs w)) 0).finish e
/-- XOR RD, RS. -/
def Dev.bodyXor : Body := fun _ d e w => (d.alu e (iRd w) (d.reg e (iRd w) ^^^ d.reg e (iRs w)) 0).finish e
/-- NOT RD, RS. -/
def Dev.bodyNot : Body := fun _ d e w => (d.alu e (iRd w) (two64 - 1 - d.reg e (iRs w) % two64) 0).finish e
/-- SHL RD, n. -/
def Dev.bodyShl : Body := fun _ d e w =>
  let r := shl64 (d.reg e (iRd w)) (bitsOf (iImm w) 0 6)
  (d.alu e (iRd w) r.1 r.2).finish e
/-- SHR RD, n. -/
def Dev.bodyShr : Body := fun _ d e w =>
  let r := shr64 (d.reg e (iRd w)) (bitsOf (iImm w) 0 6)
  (d.alu e (iRd w) r.1 r.2).finish e
/-- CMP RD, RS: the flags of the 64-bit difference. -/
def Dev.bodyCmp : Body := fun _ d e w =>
  let r := sub64 (d.reg e (iRd w)) (d.reg e (iRs w))
  (d.setZC e (b2n (r.1 == 0)) r.2).finish e
/-- CMPI RD, imm. -/
def Dev.bodyCmpi : Body := fun _ d e w =>
  let r := sub64 (d.reg e (iRd w)) (iSimm w)
  (d.setZC e (b2n (r.1 == 0)) r.2).finish e
/-- CRCW RD, RS, p, b: folds b + 1 bytes of RS (R219). -/
def Dev.bodyCrcw : Body := fun _ d e w =>
  let v := crcBytes (iMod w % 4) (d.reg e (iRd w)) (leBytes (bitsOf (iMod w) 2 3 + 1) (d.reg e (iRs w)))
  ((d.setReg e (iRd w) v).st .ENG_FLAGS_ZERO e (zeroOf (iRd w) v)).finish e

def execLdi (e : EngId) (s : State) : Answer := .next (s.onDev (fun d => d.issue s.mem e 5 0 Dev.bodyLdi))
def execLdhi (e : EngId) (s : State) : Answer := .next (s.onDev (fun d => d.issue s.mem e 5 1 Dev.bodyLdhi))
def execCpy (e : EngId) (s : State) : Answer := .next (s.onDev (fun d => d.issue s.mem e 5 2 Dev.bodyCpy))
def execAdd (e : EngId) (s : State) : Answer := .next (s.onDev (fun d => d.issue s.mem e 5 3 Dev.bodyAdd))
def execAddi (e : EngId) (s : State) : Answer := .next (s.onDev (fun d => d.issue s.mem e 5 4 Dev.bodyAddi))
def execSub (e : EngId) (s : State) : Answer := .next (s.onDev (fun d => d.issue s.mem e 5 5 Dev.bodySub))
def execAnd (e : EngId) (s : State) : Answer := .next (s.onDev (fun d => d.issue s.mem e 5 6 Dev.bodyAnd))
def execOr (e : EngId) (s : State) : Answer := .next (s.onDev (fun d => d.issue s.mem e 5 7 Dev.bodyOr))
def execXor (e : EngId) (s : State) : Answer := .next (s.onDev (fun d => d.issue s.mem e 5 8 Dev.bodyXor))
def execNot (e : EngId) (s : State) : Answer := .next (s.onDev (fun d => d.issue s.mem e 5 9 Dev.bodyNot))
def execShl (e : EngId) (s : State) : Answer := .next (s.onDev (fun d => d.issue s.mem e 5 10 Dev.bodyShl))
def execShr (e : EngId) (s : State) : Answer := .next (s.onDev (fun d => d.issue s.mem e 5 11 Dev.bodyShr))
def execCmp (e : EngId) (s : State) : Answer := .next (s.onDev (fun d => d.issue s.mem e 5 12 Dev.bodyCmp))
def execCmpi (e : EngId) (s : State) : Answer := .next (s.onDev (fun d => d.issue s.mem e 5 13 Dev.bodyCmpi))
def execCrcw (e : EngId) (s : State) : Answer := .next (s.onDev (fun d => d.issue s.mem e 5 16 Dev.bodyCrcw))

end Sys2Proof.Machine
end

