-- ==== Sys2Proof/Machine/BlockInstr.lean ====
section
/-!
DEFINITION. The block operations and FENCE (classes 0x5 OP 0x11 and 0x6, R199, R200, R220 to R223).
-/

namespace Sys2Proof.Machine

/-- How an engine's access to a DRAM byte address goes: a sealed line acts as a memory fault (R446). -/
def Dev.blkPath (d : Dev) (x : Nat) : DramPath := if d.sealed (x / 256) then .faults else d.dramPath (x / 256)

/-- The same for a write. -/
def Dev.blkInto (d : Dev) (x : Nat) : DramPath := if d.sealed (x / 256) then .faults else d.writePath (x / 256)

/-- The address and length of a register pair (R200). -/
def Dev.pairAddr (d : Dev) (e w : Nat) : Nat := d.reg e (iRs w) % 2 ^ 38
def Dev.pairLen (d : Dev) (e w : Nat) : Nat := d.reg e (iRs w + 1)

/-- A block instruction issues: progress in PROG0 to PROG2, CARRY 0; resumed, it takes them as they stand. A length of 0
completes with its start words and ZERO = 1 (R199, R220). -/
def Dev.beginBlock (d : Dev) (e w : Nat) (two : Option Nat) : Dev :=
  if (d.eng e).resumed then d.begin e w
  else
    let len := d.pairLen e w
    let d := (d.setProg e 0 (d.pairAddr e w)).setProg e 1 len
    let d := match two with | some a => d.setProg e 2 (a % 2 ^ 38) | none => d
    let d := (d.st .ENG_FLAGS_CARRY e 0).modEng e (fun x => { x with blkBad := false })
    if len = 0 then (d.st .ENG_FLAGS_ZERO e 1).finish e else d.begin e w

/-- CRC RD, RS, p. -/
def Dev.bodyCrc : Body := fun _ d e w => d.beginBlock e w none
/-- FILL RD, RS. -/
def Dev.bodyFill : Body := fun _ d e w => d.beginBlock e w none
/-- MOV RD, RS. -/
def Dev.bodyMov : Body := fun _ d e w => d.beginBlock e w (some (d.reg e (iRd w)))
/-- BLKCMP RD, RS. -/
def Dev.bodyBlkcmp : Body := fun _ d e w => d.beginBlock e w (some (d.reg e (iRd w)))
/-- FENCE holds until FENCE_COMPLETE (R223). -/
def Dev.bodyFence : Body := fun _ d e w => d.begin e w

/-! ## One iteration -/

/-- Addresses of the two ranges, and the bytes of the next iteration: up to the next line of the RS address (R220). -/
def Dev.blkA (d : Dev) (e : Nat) : Nat := d.prog e 0 % 2 ^ 38
def Dev.blkB (d : Dev) (e : Nat) : Nat := d.prog e 2 % 2 ^ 38
def Dev.blkLen (d : Dev) (e : Nat) : Nat := min (d.prog e 1) (256 - d.blkA e % 256)

/-- Progress by `k` bytes. -/
def Dev.blkStep (d : Dev) (e k : Nat) (two : Bool) : Dev :=
  let d' := (d.setProg e 0 (d.prog e 0 + k)).setProg e 1 (d.prog e 1 - k)
  if two then d'.setProg e 2 (d.prog e 2 + k) else d'

/-- A memory fault stops the instruction at the code word that begins `back` bytes before the point reached: CARRY 1,
ZERO 0 (R221, log 38). -/
def Dev.blkStop (d : Dev) (e back : Nat) (two : Bool) : Dev :=
  let d' := d.setProg e 0 (unsigned 64 (d.prog e 0 - back : Int))
  let d' := if two then d'.setProg e 2 (unsigned 64 (d.prog e 2 - back : Int)) else d'
  ((d'.setZC e 0 1).modEng e (fun x => { x with blkBad := true })).finish e

/-- The report of a code word that lies beyond the installed lines or in a sealed line (R27, R221, R446). -/
def Dev.blkReport (d : Dev) (x : Nat) : Dev := d.report .ue (dramBase + x / 16 * 16) 0x0B []

/-- Read up to `n` bytes of the code word that holds DRAM byte `x`; none is a memory fault (R221). -/
def Dev.blkWord (d : Dev) (m : List Host.Cell) (x n : Nat) : Option (List Nat) × Dev :=
  if d.blkPath x = .served then
    let r := d.portRead m 0x0B x (min n (16 - x % 16))
    (if r.2.1 then none else some r.1, r.2.2)
  else (none, d.blkReport x)

/-- CRC folds `n` bytes, a code word at a time, and stops at a faulting one: whether it read them all. `fuel` bounds the
words. -/
def Dev.crcLine (d : Dev) (m : List Host.Cell) (e w n : Nat) : Nat → Bool × Dev
  | 0 => (true, d)
  | f + 1 =>
    if n = 0 then (true, d)
    else match d.blkWord m (d.blkA e) n with
    | (none, d) => (false, d.blkStop e (d.blkA e % 16) false)
    | (some l, d) =>
      ((d.setReg e (iRd w) (crcBytes (iMod w % 4) (d.reg e (iRd w)) l)).blkStep e l.length false).crcLine m e w (n - l.length) f

/-- Index of the first difference. -/
def firstDiff : List Nat → List Nat → Option Nat
  | a :: l, b :: r => if a = b then (firstDiff l r).map (· + 1) else some 0
  | _, _ => none

/-- BLKCMP compares `n` bytes; `p` and `q` are the bytes it holds of the code words of B and A it has read last. It ends
at the first difference, and stops at a faulting word: whether it compared them all (R221, R222). `fuel` bounds the
words. -/
def Dev.cmpLine (d : Dev) (m : List Host.Cell) (e n : Nat) (p q : List Nat) : Nat → Bool × Dev
  | 0 => (true, d)
  | f + 1 =>
    if n = 0 then (true, d)
    else
      let r := if p.isEmpty then d.blkWord m (d.blkA e) n else (some p, d)
      match r with
      | (none, d) => (false, d.blkStop e (d.blkA e % 16) true)
      | (some p, d) =>
        let r := if q.isEmpty then d.blkWord m (d.blkB e) n else (some q, d)
        match r with
        | (none, d) => (false, d.blkStop e (d.blkB e % 16) true)
        | (some q, d) =>
          match firstDiff p q with
          | some i => (false, ((d.blkStep e i true).st .ENG_FLAGS_ZERO e 0).finish e)
          | none =>
            let k := min p.length q.length
            (d.blkStep e k true).cmpLine m e (n - k) (p.drop k) (q.drop k) f

/-- MOV writes the words `l` it has read into one line of the destination: whether that line takes them. -/
def State.movInto (s : State) (e : Nat) (l : List Nat) (bad : List Bool) : Bool × State :=
  let b := s.dev.blkB e
  if s.dev.blkInto b = .served then
    (true, (s.dramStore 0x0B b l bad).onDev (fun d =>
      (d.modEng e (fun x => { x with blkBad := x.blkBad || bad.any id })).blkStep e l.length true))
  else (false, s.onDev (fun d => (d.blkReport b).blkStop e 0 true))

/-- MOV of one line: the whole source part is read, then written into the one or two lines of the destination (R222). -/
def State.movLine (s : State) (e n : Nat) : Bool × State :=
  let d := s.dev
  let a := d.blkA e
  if d.blkPath a = .served then
    let r := d.portWords s.mem 0x0B a (n / 16)
    let k := min n (256 - d.blkB e % 256)
    let t := State.movInto { s with dev := r.2.2 } e (r.1.take k) (r.2.1.take (k / 16))
    if t.1 && k < n then t.2.movInto e (r.1.drop k) (r.2.1.drop (k / 16)) else t
  else (false, s.onDev (fun d => (d.blkReport a).blkStop e 0 true))

/-- FILL of one line. -/
def State.fillLine (s : State) (e w n : Nat) : Bool × State :=
  let a := s.dev.blkA e
  if s.dev.blkInto a = .served then
    let p := leBytes 8 (s.dev.reg e (iRd w))
    (true, (s.dramWrite 0x0B a (List.replicate (n / 8) p).flatten {}).onDev (·.blkStep e n false))
  else (false, s.onDev (fun d => (d.blkReport a).blkStop e 0 false))

/-- Whether the iteration must wait for a line it reads or writes (R220). -/
def Dev.blkWaits (d : Dev) (e w : Nat) : Bool :=
  let n := d.blkLen e
  let a := d.blkA e
  let b := d.blkB e
  let last := (b + n - 1) % 2 ^ 38
  match iCls w, iOp w with
  | 5, _ => d.blkPath a == .waits
  | 6, 0 => d.blkInto a == .waits
  | 6, 1 => d.blkPath a == .waits || d.blkInto b == .waits || d.blkInto last == .waits
  | _, _ => d.blkPath a == .waits || d.blkPath b == .waits || d.blkPath last == .waits

/-- Microwords of an iteration: 32 for BLKCMP, else 16. -/
def blkWords (w : Nat) : Nat := if iCls w = 6 ∧ iOp w = 2 then 32 else 16

/-- The range is done: CRC's ZERO tells a zero state, BLKCMP's equal ranges; MOV's CARRY a poisoned word it copied (R217,
R221, R222). -/
def Dev.blkDone (d : Dev) (e w : Nat) : Dev :=
  (match iCls w, iOp w with
  | 5, 17 => d.st .ENG_FLAGS_ZERO e (b2n (d.reg e (iRd w) == 0))
  | 6, 2 => d.st .ENG_FLAGS_ZERO e 1
  | 6, 1 => if (d.eng e).blkBad then d.st .ENG_FLAGS_CARRY e 1 else d
  | _, _ => d).finish e

/-- One iteration of the active block instruction: whether another may follow. Its microwords execute, then its data
move; the next restart point follows (R220, R241). -/
def State.blkCycle (s : State) (e w : Nat) : Bool × State :=
  if s.dev.blkWaits e w then (false, s)
  else
    let n := s.dev.blkLen e
    let d := s.dev.resumeIssue e
    let q := (d.advanceTo (d.eng e).free).micros e w 0 (blkWords w)
    let s := { s with dev := q.2 }
    if !q.1 then (false, s)
    else
      let r := match iCls w, iOp w with
        | 5, _ => let t := s.dev.crcLine s.mem e w n 17; (t.1, { s with dev := t.2 })
        | 6, 0 => s.fillLine e w n
        | 6, 1 => s.movLine e n
        | _, _ => let t := s.dev.cmpLine s.mem e n [] [] 34; (t.1, { s with dev := t.2 })
      if !r.1 then r
      else if r.2.dev.prog e 1 = 0 then (false, r.2.onDev (·.blkDone e w))
      else (true, r.2.onDev (·.point e))

/-- Run at most `n` iterations of the active block instruction, as far as DRAM allows. -/
def State.runBlock (s : State) (e : Nat) : Nat → State
  | 0 => s
  | n + 1 =>
    match (s.dev.eng e).act with
    | none => s
    | some w =>
      if !isBlock w || !s.dev.goesOn e then s
      else
        let r := s.blkCycle e w
        if r.1 then r.2.runBlock e n else r.2

/-- A command of a block instruction: it issues, or it goes on where it is in progress, for at most `n` iterations. -/
def State.issueBlock (s : State) (e cls op n : Nat) (body : Body) : State :=
  let s := if (s.dev.eng e).act.isSome then s else s.onDev (fun d => d.issue s.mem e cls op body)
  if (s.dev.eng e).act.any (fun w => iCls w == cls && iOp w == op) then s.runBlock e n else s

def execCrc (e : EngId) (s : State) (n : Nat := 0) : Answer := .next (s.issueBlock e 5 17 n Dev.bodyCrc)
def execFill (e : EngId) (s : State) (n : Nat := 0) : Answer := .next (s.issueBlock e 6 0 n Dev.bodyFill)
def execMov (e : EngId) (s : State) (n : Nat := 0) : Answer := .next (s.issueBlock e 6 1 n Dev.bodyMov)
def execBlkcmp (e : EngId) (s : State) (n : Nat := 0) : Answer := .next (s.issueBlock e 6 2 n Dev.bodyBlkcmp)
def execFence (e : EngId) (s : State) : Answer := .next (s.onDev (fun d => d.issue s.mem e 6 3 Dev.bodyFence))

/-- FENCE_COMPLETE: every write of the engine is complete, and issue continues after FENCE (R223). -/
def Dev.fenceComplete (d : Dev) (e : Nat) : Dev :=
  match (d.eng e).act with
  | some w => if iCls w = 6 ∧ iOp w = 3 then (d.resumeIssue e).finish e else d
  | none => d

/-- FENCE_COMPLETE. -/
def execFenceComplete (e : EngId) (s : State) : Answer := .next (s.onDev (·.fenceComplete e))

end Sys2Proof.Machine
end

