-- ==== Sys2Proof/Machine/Acq.lean ====
section
/-!
DEFINITION. Acquisition units: arms, decisions, records and their spill (R256 to R275).
-/

namespace Sys2Proof.Machine

/-! ## Room (R257, R258) -/

/-- Lines of a record with `n` samples (R273). -/
def Dev.recLines (d : Dev) (u n : Nat) : Nat := 1 + ceilDiv (n * d.acqW u) 256

/-- Whether the ring has room for a whole record (R258). -/
def Dev.ringRoom (d : Dev) (u : Nat) : Bool :=
  let n := d.rg .ACQ_RSIZE_LINES u
  n != 0 && d.recLines u (d.rg .ACQ_PRE_SAMPLES u + d.rg .ACQ_POST_SAMPLES u)
    ≤ (d.rg .ACQ_RPTR_LINE u % n + n - 1 - d.rg .ACQ_WPTR_LINE u % n) % n

/-- Whether the unit may enter ARMED (R258, R268). -/
def Dev.acqFree (d : Dev) (u : Nat) : Bool :=
  (d.acq u).rcd.isNone && !d.on .ACQ_STAT_HELD u && (!d.on .ACQ_CTRL_RING u || d.ringRoom u)

/-- Why an arm is refused (R254, R257, R260, R266). -/
def Dev.acqBad (d : Dev) (u : Nat) : Bool :=
  let w := d.acqW u
  let pre := d.rg .ACQ_PRE_SAMPLES u
  let post := d.rg .ACQ_POST_SAMPLES u
  5 ≤ d.rg .ACQ_SRC_TYPE u || post == 0
    || (if d.on .ACQ_CTRL_EXT u then 196608 < pre * w || !d.on .ACQ_CTRL_RING u else 262144 - 256 < (pre + post) * w)
    || (List.range 8).any (fun k => d.slotType u k == 7
        || (d.rgi .ACQ_COND_CTRL_ARMBY_EN u k == 1 && d.rgi .ACQ_COND_CTRL_ARMBY u k == k))

/-! ## Arms -/

/-- The unit enters ARMED with an empty ring (R268); PIN slots start from the states of now. -/
def Dev.acqEnter (d : Dev) (u : Nat) : Dev :=
  let runs := (d.slotsOf u 1).map (fun k => (k, (⟨0, true, if d.pinHolds u k then none else some 0⟩ : AcqRun)))
  (d.modAcq u (fun x => { x with
    samps := [], post := [], conds := [], since := cycleOf d.tick, metBy := 0, trig := none, lost := false, badBlk := false, spilled := 0
    runs := runs })).st .ACQ_STAT_STATE u 1

/-- The first target of a TIME slot not yet passed (R265). -/
def Dev.timeTarget (d : Dev) (u k : Nat) : Option Nat :=
  let p2 := d.rgi .ACQ_COND_P2 u k
  let t := d.rgi .ACQ_COND_P1 u k * 65536 + bitsOf p2 0 16
  let rep := bitsOf p2 24 40 * 65536
  let now := d.nowFrac
  if now ≤ t then some t else if rep = 0 then none else some (t + ceilDiv (now - t) rep * rep)

/-- An arm by the host, or by engine `e` (R256): refused with CFGERR, or to ARMED or REARM. -/
def Dev.acqArm (d : Dev) (u : Nat) (e : Option Nat) : Dev :=
  if d.rg .ACQ_STAT_STATE u ≠ 0 then d
  else if d.acqBad u || d.quies.contains domDsp then d.st .ACQ_STAT_CFGERR u 1
  else
    let seam := (List.range 8).any (fun k => d.slotType u k == 4 && d.slotNear u k)
    let x := d.acq u
    let targets := (d.slotsOf u 5).filterMap (fun k => (d.timeTarget u k).map (fun t => (k, t)))
    let d := d.setAcq u { x with
      delay := if seam then 512 else 256, since := cycleOf d.tick, conds := [], levels := [], targets := targets, decided := 0
      taken := 0, byEng := e }
    if d.acqFree u then d.acqEnter u else d.st .ACQ_STAT_STATE u 4

/-- ACQ_CTRL.FORCE meets every HOST slot of an armed unit, at the cycle in which it reaches the unit (R260). -/
def Dev.acqForce (d : Dev) (u : Nat) : Dev :=
  let k := cycleOf d.tick
  (d.slotsOf u 6).foldl (fun d j => d.acqCond u j (d.timeAt k) k) d

/-! ## Records -/

/-- Little-endian bytes of a line of packed samples: sample bytes from `256 k`, zeros past the end (R272). -/
def packLine (w : Nat) (l : List AcqSample) (k : Nat) : List Nat × Bool :=
  let q := if w = 0 then [] else (l.drop (256 * k / w)).take (256 / w)
  let b := q.flatMap (fun s => leBytes w s.data)
  (b ++ List.replicate (256 - b.length) 0, q.any (·.bad))

/-- The record of the trigger that POST has served: header words (BADBLK and the trigger stamp in place) (R272, R273). -/
def Dev.acqHeader (d : Dev) (u : Nat) (g : AcqTrig) (trunc : Bool) : AcqRec × Dev :=
  let x := d.acq u
  let w := d.acqW u
  let ddc := d.rg .ACQ_SRC_TYPE u = 1
  let c := d.rg .ACQ_SRC_DDC u
  let ts : Rat := d.tsTicks c * 65536 / cyc
  let pre := x.samps.length
  let all := x.samps ++ x.post
  let frac8 := match x.post with
    | s :: _ => if ddc ∧ s.t ≤ g.pos ∧ 0 < ts then ((256 : Rat) * (g.pos - s.t : Nat) / ts).floor.toNat % 256 else 0
    | [] => 0
  let t0 : Nat × Dev := match all, x.post with
    | [], _ => let n := d.freeNat; (n.1 % 2 ^ 80, n.2)
    | _, s :: _ => (if ddc then ((s.t : Rat) - pre * ts).floor.toNat % 2 ^ 80 else (all.head?.map (·.t)).getD 0, d)
    | s :: _, [] => (s.t, d)
  let h1 := g.cmask % 256 + g.primary % 8 * 2 ^ 8 + b2n (pre < d.rg .ACQ_PRE_SAMPLES u) * 2 ^ 11
    + b2n (x.lost || all.any (·.bad)) * 2 ^ 12 + b2n (x.badBlk || all.any (·.bad)) * 2 ^ 13 + b2n trunc * 2 ^ 14
    + x.seq % 2 ^ 24 * 2 ^ 16 + pre * 2 ^ 40 + x.post.length * 2 ^ 72
    + frac8 * 2 ^ 104
  let h2 := t0.1 + (if ddc then d.ddcOutp c * 2 ^ 80 else 0)
  let h3 := g.missed % 2 ^ 32 + (if g.missed = 0 then 0 else g.fmiss % 2 ^ 92 * 2 ^ 32)
  let n := ceilDiv (all.length * w) 256
  let ring := d.on .ACQ_CTRL_RING u
  let left := ((List.range n).drop x.spilled).map (· + 1)
  (⟨g.stamp, h1, h2, h3, if ring then left else [], n + 1, ring, !ring, x.byEng⟩, t0.2)

/-- Sample line `k` of the record goes to its place in capture memory; its words keep what has befallen them there, and a lost
sample poisons it (R259). -/
def State.acqKeep (s : State) (u k : Nat) (l : List AcqSample) : State :=
  let p := packLine (s.dev.acqW u) l k
  let a := s.dev.acqPlace u (256 * k)
  { s with mem := memWrite s.mem a p.1, dev := if p.2 then s.dev.markWords a (List.replicate 16 true) else s.dev }

/-- The bytes of a header line. -/
def AcqRec.header (r : AcqRec) : List Nat :=
  leBytes 16 r.h0 ++ leBytes 16 r.h1 ++ leBytes 16 r.h2 ++ leBytes 16 r.h3 ++ List.replicate 192 0

/-- Capture ends: the record is set up, its sample lines in capture memory, in LOCAL mode from offset 256 with the header
line before them. -/
def State.acqClose (s : State) (u : Nat) (trunc : Bool) : State :=
  let x := s.dev.acq u
  match x.trig with
  | none => s
  | some g =>
    let r := s.dev.acqHeader u g trunc
    let all := x.samps ++ x.post
    let s := { s with dev := r.2.setAcq u { x with
      trig := none, samps := [], post := [], spilled := 0, seq := x.seq + 1, taken := x.taken + 1, rcd := some r.1 } }
    let s := if s.dev.on .ACQ_CTRL_EXT u then s else State.storeWords s (acqMem u) r.1.header (List.replicate 16 false)
    ((List.range (r.1.total - 1)).drop x.spilled).foldl (fun s k => s.acqKeep u k all) s

/-- POST samples taken: to HOLDOFF (R268). A NONE source has no sample to wait for. -/
def State.acqPostComplete (s : State) (u : Nat) : State :=
  let d := s.dev
  if d.rg .ACQ_STAT_STATE u = 2 ∧ (d.rg .ACQ_POST_SAMPLES u ≤ (d.acq u).post.length ∨ d.rg .ACQ_SRC_TYPE u = 0) then
    (s.acqClose u false).onDev (fun d =>
      (d.modAcq u (fun x => { x with hold := if d.on .ACQ_HOLD_MODE u then 0 else d.nowFrac })).st .ACQ_STAT_STATE u 3)
  else s

/-- DISARM (R271). -/
def State.acqDisarm (s : State) (u : Nat) : State :=
  let s := if s.dev.rg .ACQ_STAT_STATE u = 2 then s.acqClose u true else s
  s.onDev (fun d => (d.modAcq u (fun x => { x with conds := [], samps := [], post := [], trig := none })).st .ACQ_STAT_STATE u 0)

/-- Hold-off over: to REARM, or to IDLE after the last record (R269). -/
def Dev.acqHoldEnd (d : Dev) (u : Nat) : Dev :=
  let x := d.acq u
  let v := d.rg .ACQ_HOLD_VALUE u
  let last := !d.on .ACQ_CTRL_CONT u || (d.rg .ACQ_CTRL_COUNT u != 0 && d.rg .ACQ_CTRL_COUNT u ≤ x.taken)
  let go := fun (d : Dev) => if last then
      (d.modAcq u (fun x => { x with conds := [] })).st .ACQ_STAT_STATE u 0 else d.st .ACQ_STAT_STATE u 4
  if d.rg .ACQ_STAT_STATE u ≠ 3 then d
  else if d.on .ACQ_HOLD_MODE u then (if v ≤ x.hold then go d else d)
  else go (d.advanceTo ((d.tickAt (x.hold + v * 65536)).ceil.toNat))

/-- Memory and ring room are there: from REARM to ARMED (R258). -/
def Dev.acqRearm (d : Dev) (u : Nat) : Dev :=
  if d.rg .ACQ_STAT_STATE u = 4 ∧ d.acqFree u then d.acqEnter u else d

/-! ## Decisions (R267) -/

/-- The unit's undecided conditions, with those that a run of a PIN slot is about to meet. -/
def Dev.acqPending (d : Dev) (u : Nat) : List AcqCond :=
  let x := d.acq u
  x.conds ++ x.runs.filterMap (fun p => if p.2.met || p.2.off.isSome then none
    else some ⟨p.1, 0, (p.2.start : Rat) - 500⟩)

/-- The trigger of a grain: the earliest condition's position, of the lowest slot among equals; the record's times are of the
generation then in force (R267, R269, R272, R273). -/
def Dev.acqTake (d : Dev) (u : Nat) (hits : List AcqCond) : Dev :=
  match hits with
  | [] => d
  | h :: l =>
    let p := l.foldl (fun a c => if c.t < a.t ∨ (c.t = a.t ∧ c.slot < a.slot) then c else a) h
    let x := d.acq u
    let gen := (d.time.inForce p.tick).1
    let old := fun (s : AcqSample) => { s with t := d.inGen gen s.t }
    let at_ := d.inGen gen p.t
    let cmask := ((hits.map (·.slot)).eraseDups.map (fun k => 2 ^ k)).foldl (· + ·) 0
    let upTo := x.samps.filter (fun s => s.tick ≤ p.tick)
    let later := x.samps.drop upTo.length
    let n := upTo.length - 1
    let pre := ((upTo.take n).drop (n - d.rg .ACQ_PRE_SAMPLES u)).map old
    let post := ((upTo.drop n ++ later).take (d.rg .ACQ_POST_SAMPLES u)).map old
    let g : AcqTrig := ⟨d.stampThen p.t p.tick (d.acqSrc u), gen, cmask, p.slot, at_, x.recMiss, x.recFm⟩
    let d := d.setAcq u { x with samps := pre, post := post, trig := some g, recMiss := 0, recFm := 0, spilled := 0 }
    let d := d.acqFresh u 0 ((pre.length + post.length) * d.acqW u)
    let d := d.st .ACQ_STAT_STATE u 2
    let d := if d.on .ACQ_TOUT_TOENG u then d.raise (d.rg .ACQ_TOUT_ENGINE u) 2 else d
    if d.on .ACQ_TOUT_TOSEAM u then
      let d := d.seamPost none (.trig d.pos 0 (d.rg .ACQ_TOUT_STCH u) (at_ % 2 ^ 80) gen)
      d.acqSeam (x.delay == 512) (d.rg .ACQ_TOUT_STCH u) p.t
    else d

/-- Of the conditions `l` of a grain those that count: their slot's ARMBY, where it is in force, has been met since the unit
entered ARMED, or by a counted condition at or before them; over at most `n` links (R266). -/
def Dev.counted (d : Dev) (u : Nat) (l : List AcqCond) : Nat → List AcqCond
  | 0 => l.filter (fun c => d.rgi .ACQ_COND_CTRL_ARMBY_EN u c.slot == 0
      || bitOf (d.acq u).metBy (d.rgi .ACQ_COND_CTRL_ARMBY u c.slot))
  | n + 1 =>
    let q := d.counted u l n
    l.filter (fun c => q.contains c || q.any (fun a => a.slot == d.rgi .ACQ_COND_CTRL_ARMBY u c.slot && a.t ≤ c.t))

/-- ACQ_GRAIN_DECIDE: the earliest undecided grain with conditions is decided, one decision delay after it closes. -/
def Dev.acqDecide (d : Dev) (u : Nat) : Dev :=
  if d.rg .ACQ_STAT_STATE u = 0 then d
  else match (d.acqPending u).map (fun c => d.grainClose u c.tick) with
  | [] => d
  | g0 :: gs =>
    let g := gs.foldl min g0
    let d := d.advanceTo ((g + (d.acq u).delay * cyc).ceil.toNat)
    let d := (d.slotsOf u 1).foldl (fun d k => d.settleRun u k (d.tick + 1)) d
    let x := d.acq u
    let now := d.counted u (x.conds.filter (fun c => d.grainClose u c.tick ≤ g)) 7
    let hits := now.filter (fun c => d.slotEn u c.slot)
    let armed := d.rg .ACQ_STAT_STATE u = 1
    let old := x.samps.filter (fun s => s.tick ≤ g)
    let keep := if armed then x.samps.drop (old.length - (d.rg .ACQ_PRE_SAMPLES u + 1)) else x.samps
    let d := d.setAcq u { x with
      conds := x.conds.filter (fun c => g < d.grainClose u c.tick), decided := max x.decided g
      metBy := now.foldl (fun m c => m ||| 2 ^ c.slot) x.metBy
      samps := if hits.isEmpty then keep else x.samps }
    match hits with
    | [] => d
    | h :: l =>
      let first := l.foldl (fun a c => if c.t < a.t then c else a) h
      if armed then d.acqTake u hits
      else
        (d.modAcq u (fun x => { x with hold := if d.rg .ACQ_STAT_STATE u = 3 ∧ d.on .ACQ_HOLD_MODE u then x.hold + 1 else x.hold })).acqMiss
          u first.t first.tick

/-- ACQ_TIME_CONDITION: device time reaches the target of slot `k`, which moves to its next repeat (R265). -/
def Dev.acqTime (d : Dev) (u k : Nat) : Dev :=
  match (d.acq u).targets.get? k with
  | none => d
  | some t =>
    if d.rg .ACQ_STAT_STATE u = 0 then d
    else
      let d := d.advanceTo (d.tickOfFrac t)
      let rep := bitsOf (d.rgi .ACQ_COND_P2 u k) 24 40 * 65536
      let d := d.modAcq u (fun x => { x with
        targets := if rep = 0 then x.targets.del k else x.targets.put k (t + rep) })
      d.acqCond u k t (d.tickAt t)

/-! ## Spill and completion (R258, R259, R274) -/

/-- A sample line of the record goes to its place in the ring. -/
def State.acqPut (s : State) (u k : Nat) (l : List Nat) (bad : Bool) : State :=
  let d := s.dev
  let line := d.rg .ACQ_RBASE_LINE u + (d.rg .ACQ_WPTR_LINE u + k) % max 1 (d.rg .ACQ_RSIZE_LINES u)
  s.dramStore 0x05 (line * 256) l (List.replicate 16 bad)

/-- Whether the port takes line `k` of the unit's record now. -/
def Dev.acqPath (d : Dev) (u k : Nat) : Bool :=
  d.writePath (d.rg .ACQ_RBASE_LINE u + (d.rg .ACQ_WPTR_LINE u + k) % max 1 (d.rg .ACQ_RSIZE_LINES u)) != .waits

/-- A sample line's bytes as the spill finds them in capture memory, and whether one of its words is unreadable: it is written
poisoned then (R26, R259). -/
def State.acqFetch (s : State) (u k : Nat) : List Nat × Bool × State :=
  let q := s.dev.readPoison s.mem 0x05 (s.dev.acqPlace u (256 * k)) 16
  (q.1, q.2.1.any id, { s with dev := q.2.2 })

/-- ACQ_SPILL_LINE: the next sample line of the record, and after the last of them the header, goes to the ring; in
EXTENDED mode whole lines go while POST still runs. WPTR passes the whole record. -/
def State.acqSpill (s : State) (u : Nat) : State :=
  let d := s.dev
  let x := d.acq u
  match x.rcd with
  | none =>
    let all := x.samps ++ x.post
    if d.on .ACQ_CTRL_EXT u ∧ d.rg .ACQ_STAT_STATE u = 2 ∧ 256 * (x.spilled + 1) ≤ all.length * d.acqW u
        ∧ d.acqPath u (x.spilled + 1) then
      let q := (s.acqKeep u x.spilled all).acqFetch u x.spilled
      (q.2.2.acqPut u (x.spilled + 1) q.1 q.2.1).onDev (·.modAcq u (fun x => { x with
        spilled := x.spilled + 1, badBlk := x.badBlk || q.2.1 }))
    else s
  | some r =>
    if !r.ring ∨ r.head then s
    else match r.left with
    | k :: rest =>
      if !d.acqPath u k then s
      else
        let q := s.acqFetch u (k - 1)
        (q.2.2.acqPut u k q.1 q.2.1).onDev (·.modAcq u (fun x => { x with
          rcd := some { r with left := rest, h1 := if q.2.1 then r.h1 ||| 2 ^ 13 else r.h1 } }))
    | [] =>
      if !d.acqPath u 0 then s
      else
        (s.acqPut u 0 r.header false).onDev (fun d =>
          (d.modAcq u (fun x => { x with rcd := some { r with head := true } })).st .ACQ_WPTR_LINE u
            ((d.rg .ACQ_WPTR_LINE u + r.total) % max 1 (d.rg .ACQ_RSIZE_LINES u)))

/-- ACQ_RECORD_COMPLETE (R274). -/
def Dev.acqComplete (d : Dev) (u : Nat) : Dev :=
  match (d.acq u).rcd with
  | none => d
  | some r =>
    if !r.head then d
    else
      let d := (d.st .ACQ_LAST_RECORD u r.h0).st .ACQ_STAT_RECCNT u (d.rg .ACQ_STAT_RECCNT u + 1)
      let d := if r.ring then d else d.st .ACQ_STAT_HELD u 1
      let d := d.modAcq u (fun x => { x with rcd := none })
      let d := match r.byEng with | some e => d.raise e 10 | none => d
      d.irq (136 + u)

/-! ## The commands -/

/-- A register write to a unit in the DSP domain: refused while the domain is not on (R391). -/
def Dev.dspWrite (d : Dev) (g : Dev → Dev) : Dev := if d.domOn domDsp then g d else d.bump .PWR_ACCREJ_COUNT 0 1

/-- ACQ_ARM. -/
def execAcqArm (u : AcqId) (s : State) : Answer := .next (s.onDev (fun d => d.dspWrite (·.acqArm u none)))
/-- ACQ_DISARM. -/
def execAcqDisarm (u : AcqId) (s : State) : Answer :=
  .next (if s.dev.domOn domDsp then s.acqDisarm u else s.onDev (·.bump .PWR_ACCREJ_COUNT 0 1))
/-- ACQ_FORCE. -/
def execAcqForce (u : AcqId) (s : State) : Answer := .next (s.onDev (fun d => d.dspWrite (·.acqForce u)))
/-- ACQ_RELEASE. -/
def execAcqRelease (u : AcqId) (s : State) : Answer := .next (s.onDev (fun d => d.dspWrite (·.st .ACQ_STAT_HELD u 0)))
/-- ACQ_GRAIN_DECIDE. -/
def execAcqGrainDecide (u : AcqId) (s : State) : Answer := .next (s.onDev (·.acqDecide u))
/-- ACQ_POST_COMPLETE. -/
def execAcqPostComplete (u : AcqId) (s : State) : Answer := .next (s.acqPostComplete u)
/-- ACQ_HOLDOFF_END. -/
def execAcqHoldoffEnd (u : AcqId) (s : State) : Answer := .next (s.onDev (·.acqHoldEnd u))
/-- ACQ_REARM. -/
def execAcqRearm (u : AcqId) (s : State) : Answer := .next (s.onDev (·.acqRearm u))
/-- ACQ_SPILL_LINE. -/
def execAcqSpillLine (u : AcqId) (s : State) : Answer := .next (if s.dev.domOn domDsp then s.acqSpill u else s)
/-- ACQ_RECORD_COMPLETE. -/
def execAcqRecordComplete (u : AcqId) (s : State) : Answer := .next (s.onDev (·.acqComplete u))
/-- ACQ_TIME_CONDITION. -/
def execAcqTimeCondition (u : AcqId) (slot : SlotId) (s : State) : Answer := .next (s.onDev (·.acqTime u slot))

end Sys2Proof.Machine
end

