-- ==== Sys2Proof/Machine/Converter.lean ====
section
/-!
DEFINITION. JESD204C links and receive chains (R278 to R295).
-/

namespace Sys2Proof.Machine

/-! ## Links: parameters (R278, R279) -/

def Dev.lnkL (d : Dev) (r : Nat) : Nat := 2 ^ d.rg .LNK_CFG_LCODE r
def Dev.lnkM (d : Dev) (r : Nat) : Nat := d.rg .LNK_CFG_MM1 r + 1
def Dev.lnkS (d : Dev) (r : Nat) : Nat := 2 ^ d.rg .LNK_CFG_SCODE r
/-- Octets per frame per lane. -/
def Dev.lnkF (d : Dev) (r : Nat) : Nat := 2 * d.lnkM r * d.lnkS r / d.lnkL r
/-- Samples of one converter in an LEMC period. -/
def Dev.lemcSamples (d : Dev) (r : Nat) : Nat := 256 * (d.rg .LNK_CFG_EM1 r + 1) / max 1 (d.lnkF r) * d.lnkS r
/-- Link lanes as lane indices (R336). -/
def Dev.lnkLanes (d : Dev) (r : Nat) : List Nat :=
  (List.range (d.lnkL r)).map (fun k => (if r < 4 then 18 else 26) + d.rg .LNK_CFG_LBASE r + k)

/-- Why a set EN is refused. -/
def Dev.lnkBad (d : Dev) (r : Nat) : Bool :=
  let l := d.lnkL r
  let m := d.lnkM r
  let f2 := 2 * m * d.lnkS r
  let tc := d.rg .LNK_TCONV_TC r
  let lb := d.rg .LNK_CFG_LBASE r
  let nm1 := d.rg .LNK_CFG_NM1 r
  nm1 < 11 || f2 % l != 0 || f2 / l == 0 || 32 < f2 / l || 256 * (d.rg .LNK_CFG_EM1 r + 1) % max 1 (f2 / l) != 0
    || lb % l != 0 || 8 < lb + l || tc == 0
    || m * 16 * 66 * 65536 < 6 * (64 * l * tc) || 65 * (64 * l * tc) < 2 * (m * 16 * 66 * 65536)
    || (List.range 8).any (fun q => q != r && q / 4 == r / 4 && d.on .LNK_CFG_EN q
        && (d.lnkLanes q).any (fun n => (d.lnkLanes r).contains n))

/-! ## Link states (R280 to R283) -/

/-- Whether lane `n` serves its link: clock and block lock, no loopback (R343, R345). -/
def Dev.laneUp (d : Dev) (n : Nat) : Bool := d.on .LNK_LSTAT_BLOCK n && d.on .LNK_LSTAT_LOCK n && d.rg .LNK_LCTRL_LOOP n == 0

/-- A link state; any change raises vector 199 (R476). -/
def Dev.linkState (d : Dev) (r v : Nat) : Dev :=
  if d.rg .LNK_STAT_STATE r = v then d else (d.st .LNK_STAT_STATE r v).irq 199

/-- The state after the locks of its lanes changed: a lane without clock lock takes the link DOWN, a lane without block
lock takes a link in DATA to DEGRADED, one below DATA back to DOWN. -/
def Dev.linkSettle (d : Dev) (r : Nat) : Dev :=
  let st := d.rg .LNK_STAT_STATE r
  let set := fun (d : Dev) v => d.linkState r v
  if !d.on .LNK_CFG_EN r then set ((d.st .LNK_STAT_LANEOK r 0).st .LNK_STAT_SRALIGNED r 0) 0
  else if 4 ≤ r then set d (if d.on .LNK_STAT_SRALIGNED r then 3 else 2)
  else
    let ls := d.lnkLanes r
    let ok := d.rg .LNK_STAT_LANEOK r
    let ok' := ((ls.zipIdx.filter (fun p => d.laneUp p.1 && bitOf ok p.2)).map (fun p => 2 ^ p.2)).foldl (· + ·) 0
    let d := d.st .LNK_STAT_LANEOK r ok'
    if ls.any (fun n => !d.on .LNK_LSTAT_LOCK n) then set d 0
    else if ls.all d.laneUp then
      (if st = 0 then set d 1 else if st = 3 ∧ ok' + 1 ≠ 2 ^ d.lnkL r then set d 4 else d)
    else set d (if 3 ≤ st then 4 else 0)

/-- Lane `n` changed its locks or its loopback: the converter links that use it follow. -/
def Dev.laneLinks (d : Dev) (n : Nat) : Dev :=
  (List.range 4).foldl (fun d r => if d.on .LNK_CFG_EN r && (d.lnkLanes r).contains n then d.linkSettle r else d) d

/-- EN = 1 (R282). -/
def Dev.linkEnable (d : Dev) (r : Nat) : Dev :=
  if d.on .LNK_CFG_EN r then d
  else if d.lnkBad r || d.quies.contains domCnv then d.st .LNK_STAT_CFGERR r 1
  else
    let d := ((d.st .LNK_CFG_EN r 1).st .LNK_STAT_SRALIGNED r 0).st .LNK_STAT_LANEOK r 0
    (d.setLink r {}).linkSettle r

/-- EN = 0: DOWN. -/
def Dev.linkDisable (d : Dev) (r : Nat) : Dev := ((d.st .LNK_CFG_EN r 0).st .LNK_STAT_RATEERR r 0).linkSettle r

/-- LEMC period in ticks. -/
def Dev.lemcTicks (d : Dev) (r : Nat) : Rat := d.tcTicks r * d.lemcSamples r

/-- A SYSREF edge at one link, now (R280, R281). A transmit link sends from the first LEMC boundary after this one (R282). -/
def Dev.linkSysref (d : Dev) (r : Nat) : Dev :=
  if !d.on .LNK_CFG_EN r then d
  else
    let d := d.bump .LNK_SRCNT_COUNT r 1
    if !d.on .LNK_STAT_SRALIGNED r then
      let t := d.nowFrac
      let n := if 4 ≤ r then d.lemcSamples r else 0
      let d := d.setLink r { d.link r with tl := t, tlTick := d.tick, n := n, left := [] }
      let d := (d.st .LNK_STAT_SRALIGNED r 1).st .LNK_LEMC_TS_RECORD r (d.stampOf t (r % 4 + r / 4 * 4))
      if 4 ≤ r ∨ (d.rg .LNK_STAT_STATE r = 2 ∧ !d.on .LNK_STAT_RATEERR r) then d.linkState r 3 else d
    else if d.on .LNK_CFG_SRONE r then d
    else
      let p := d.lemcTicks r
      let o : Rat := (d.tick : Rat) - (d.link r).tlTick
      let k := if p ≤ 0 then 0 else o - ((o / p).floor : Rat) * p
      if 2000 < k ∧ 2000 < p - k then d.st .LNK_STAT_SRPHERR r 1 else d

/-- SYSREF_EDGE: seen at the coarse-clock edge at or after the rise. -/
def Dev.sysref (d : Dev) (dt : Nat) : Dev :=
  let d := d.advanceTo (ceilDiv (d.tick + dt) 1000 * 1000)
  if d.domOn domCnv then (List.range 8).foldl (fun d r => d.linkSysref r) d else d

/-! ## Receive chains: samples in (R285 to R293) -/

/-- A flag that routes to the granted engine raises CONVERTER there (R294, R295). -/
def Dev.ddcFlag (d : Dev) (c : Nat) (f : Field) (bit : Nat) : Dev :=
  let d := (d.st f c 1).irq 200
  if bitOf (d.rg .DDC_ROUTE_ROUTE c) bit && d.on .DDC_CTRL_GEN c then d.raise (d.rg .DDC_CTRL_GENG c) 9 else d

/-- 2 × GD (R291). -/
def Dev.ddcGd2 (d : Dev) (c : Nat) : Nat :=
  let r := d.rg .DDC_CTRL_CICM1 c + 1
  let h := 2 ^ d.rg .DDC_CTRL_HB c
  5 * (r - 1) + 22 * r * (h - 1) + d.rg .DDC_CTRL_RSEN c * 15 * r * h

/-- Why a set EN is refused (R285, R289, R293). -/
def Dev.ddcBad (d : Dev) (c : Nat) : Bool :=
  let cx := d.on .DDC_CTRL_COMPLEX c
  let r := d.rg .DDC_CTRL_LINK c
  let conv := d.rg .DDC_CTRL_CONV c
  let st := d.rg .DDC_STEP_STEP c
  d.rg .DDC_CTRL_CICM1 c == 0 || 4 < d.rg .DDC_CTRL_HB c
    || (d.on .DDC_CTRL_RSEN c && (st < 0x40000000 || 0x80000000 < st))
    || (cx && conv % 2 == 1) || d.lnkM r ≤ conv + b2n cx || d.rg .LNK_TCONV_TC r < (if cx then 16384 else 8192)

/-- EN = 1: the chain starts at the link's next sample. -/
def Dev.ddcEnable (d : Dev) (c : Nat) : Dev :=
  if d.on .DDC_CTRL_EN c then d
  else if d.ddcBad c || d.quies.contains domDsp then (d.st .DDC_STAT_CFGERR c 1).irq 200
  else
    let x := d.ddc c
    (d.st .DDC_CTRL_EN c 1).setDdc c { ftw := x.ftw, phase := x.phase, retune := x.retune
                                       start := (d.link (d.rg .DDC_CTRL_LINK c)).n, inN := (d.link (d.rg .DDC_CTRL_LINK c)).n }

/-- An engine's retune request that reaches the chain at tick `a`, or with one that went before it: requests keep their
order (R287). -/
def Dev.ddcTune (d : Dev) (c ftw a : Nat) : Dev :=
  (d.st .DDC_FTW_FTW c ftw).modDdc c (fun x => { x with
    retune := x.retune ++ [(x.retune.foldl (fun m p => max m p.1) a, ftw % 2 ^ 48)] })

/-- A host write of DDC_FTW, ahead of the engines' requests of its cycle (R287). -/
def Dev.ddcHost (d : Dev) (c ftw : Nat) : Dev :=
  let a := cycleOf d.tick
  (d.st .DDC_FTW_FTW c ftw).modDdc c (fun x => { x with
    retune := x.retune.filter (·.1 < a) ++ [(a, ftw % 2 ^ 48)] ++ x.retune.filter (fun p => decide (a ≤ p.1)) })

/-- When the chains of receive link `r` process its sample `n`: at the release point of its data, LNK_RBD blocks of 8 octets
after its arrival on the lane (R282). -/
def Dev.relTick (d : Dev) (r n : Nat) : Rat :=
  let k := d.link r
  k.tlTick + n * d.tcTicks r + (8 * d.rg .LNK_RBD_RBD r : Nat) * (d.tcTicks r * d.lnkS r / max 1 (d.lnkF r))

/-- Rounded to 18 bits, a tie upward, of a product with the 18-bit amplitude (R286). -/
def mixRound (p : Int) : Int := (p + 65536) / 131072

/-- Cosine and sine of the NCO; full amplitude at phase 0. -/
def ncoAt (phase : Nat) : Int × Int := if phase = 0 then (131072, 0) else let p := Config.ncoSinCos phase; (p.2, p.1)

/-- A two's-complement 48-bit register. -/
def wrap48 (i : Int) : Int := signed 48 (unsigned 48 i)

/-- A 24-bit result saturated, and whether it was. -/
def sat24 (i : Int) : Int × Bool := if i < -8388608 then (-8388608, true) else if 8388607 < i then (8388607, true) else (i, false)

/-- The integrators take an input; each adds the one before it. -/
def integrate : Int × Int → List (Int × Int) → List (Int × Int)
  | _, [] => []
  | v, (a, b) :: l => let s := (wrap48 (a + v.1), wrap48 (b + v.2)); s :: integrate s l

/-- The combs take a value; each puts out its difference from the value before. -/
def combs : Int × Int → List (Int × Int) → (Int × Int) × List (Int × Int)
  | v, [] => (v, [])
  | v, (a, b) :: l => let r := combs (wrap48 (v.1 - a), wrap48 (v.2 - b)) l; (r.1, v :: r.2)

/-- The saturated samples of a stage are counted (R289). -/
def Dev.ddcSat (d : Dev) (c n : Nat) : Dev := if n = 0 then d else (d.bump .DDC_SATCNT_COUNT c n).ddcFlag c .DDC_STAT_SAT 0

/-- A sample at the output of the chain, `back` resampler inputs before the newest: its instant, its span and its mark. The
newest input sample of the chain is number `inN - 1` of its link (R281, R290 to R292). -/
def Dev.ddcOut (d : Dev) (c : Nat) (v : Int × Int) (back : Rat) : Dev :=
  let x := d.ddc c
  let r := d.rg .DDC_CTRL_LINK c
  let k := d.link r
  let last : Rat := (x.inN : Rat) - 1 - d.decim c * back
  let mid : Rat := last - (d.ddcGd2 c : Rat) / 2
  let first : Rat := last - d.ddcGd2 c
  let bad := first < (x.start : Rat) || x.badIn.any (fun n => first ≤ (n : Rat) && (n : Rat) ≤ last)
  let o : DdcOut := ⟨v.1, v.2, ((k.tl : Rat) + mid * d.rg .LNK_TCONV_TC r).floor.toNat, k.tlTick + mid * d.tcTicks r, bad⟩
  d.setDdc c { x with outN := x.outN + 1, outs := x.outs ++ [o], badIn := x.badIn.filter (fun n => first ≤ (n : Rat)) }

/-- A sample at the resampler's input, or past it when it is bypassed. -/
def Dev.ddcResample (d : Dev) (c : Nat) (v : Int × Int) : Dev :=
  let x := d.ddc c
  if !d.on .DDC_CTRL_RSEN c then d.ddcOut c v 0
  else
    let w := (v :: x.rs).take 16
    let pos := x.outN * d.ddcStep c
    let d := d.setDdc c { x with rs := w, rsIn := x.rsIn + 1 }
    if pos / 2 ^ 30 ≤ x.rsIn then
      let i := sat24 (Config.resample (w.map (·.1)) (pos % 2 ^ 30))
      let q := sat24 (Config.resample (w.map (·.2)) (pos % 2 ^ 30))
      (d.ddcSat c (b2n (i.2 || q.2))).ddcOut c (i.1, q.1) (x.rsIn - (pos : Rat) / 2 ^ 30)
    else d

/-- A sample at the input of half-band stage `k`; after the last stage it goes on (R289). -/
def Dev.ddcHalf (d : Dev) (c : Nat) (v : Int × Int) (k : Nat) : Nat → Dev
  | 0 => d.ddcResample c v
  | n + 1 =>
    let x := d.ddc c
    let w := (v :: x.half.getD k []).take 23
    let m := x.halfN.getD k 0 + 1
    let d := d.setDdc c { x with half := x.half.set k w, halfN := x.halfN.set k (m % 2) }
    if m = 2 then
      let i := sat24 (Config.halfBand (w.map (·.1)))
      let q := sat24 (Config.halfBand (w.map (·.2)))
      (d.ddcSat c (b2n (i.2 || q.2))).ddcHalf c (i.1, q.1) (k + 1) n
    else d

/-- The retunes that have reached the chain when it processes sample `n` of its link apply there, the last one standing
(R287). -/
def Dev.ddcRetune (d : Dev) (c n : Nat) : Dev :=
  let x := d.ddc c
  let r := d.rg .DDC_CTRL_LINK c
  match (x.retune.filter (fun p => (p.1 : Rat) ≤ d.relTick r n)).getLast? with
  | some (_, f) =>
    let ph := if d.on .DDC_CTRL_PHSYNC c then d.rg .DDC_PHASE0_PHASE c else x.phase
    let t := (d.link r).tl + n * d.rg .LNK_TCONV_TC r
    ((d.setDdc c { x with ftw := f, phase := ph, retune := x.retune.filter (fun p => d.relTick r n < (p.1 : Rat)) }).st
      .DDC_RT_TS_RECORD c (d.stampThen t ((d.link r).tlTick + n * d.tcTicks r) c)).ddcFlag c .DDC_STAT_RETUNED 2
  | none => d

/-- An input sample of the chain, number `n` of its link: retune, mixer, CIC, gain, and the stages behind (R285 to
R288). Spans begin anew where the link's count does not run on. -/
def Dev.ddcIn (d : Dev) (c n : Nat) (a b : Int) (bad : Bool) : Dev :=
  let d := (d.ddcRetune c n).modDdc c (fun x => if x.inN = n then { x with inN := n + 1 }
    else { x with start := n, inN := n + 1, badIn := [] })
  let x := d.ddc c
  let cs := ncoAt x.phase
  let i := if d.on .DDC_CTRL_COMPLEX c then mixRound (a * cs.1 + b * cs.2) else mixRound (a * cs.1)
  let q := if d.on .DDC_CTRL_COMPLEX c then mixRound (b * cs.1 - a * cs.2) else mixRound (-(a * cs.2))
  let integ := integrate (i, q) x.integ
  let m := x.fed + 1
  let x := { x with phase := (x.phase + x.ftw) % 2 ^ 48, integ := integ, badIn := if bad then x.badIn ++ [n] else x.badIn }
  let dec := d.rg .DDC_CTRL_CICM1 c + 1
  if m = dec then
    let o := combs (integ.getLastD (0, 0)) x.comb
    (d.setDdc c { x with comb := o.2, fed := 0 }).ddcHalf c (Config.gainStage o.1.1 dec, Config.gainStage o.1.2 dec) 0
      (d.rg .DDC_CTRL_HB c)
  else d.setDdc c { x with fed := m }

/-! ## Frames (R279, R283) -/

/-- The 16-bit sample `s` of converter `m` in a frame's octets, taken lane after lane, first octet high; the low 16 − N
bits are ignored. -/
def sampleOf (oct : List Nat) (s_ n m s : Nat) : Int :=
  let k := 2 * (m * s_ + s)
  let v := oct.getD k 0 * 256 + oct.getD (k + 1) 0
  signed 16 (v / 2 ^ (16 - n) * 2 ^ (16 - n))

/-- A frame arrives: its samples reach the chains of the link, as 0 where it is invalid. -/
def Dev.frame (d : Dev) (r : Nat) (oct : List Nat) (bad : Bool) : Dev :=
  let s_ := d.lnkS r
  let nb := d.rg .LNK_CFG_NM1 r + 1
  let n0 := (d.link r).n
  let d := if bad then d.bump .LNK_INVF_COUNT r 1 else d
  let d := (List.range s_).foldl (fun d s => (List.range 8).foldl (fun d c =>
    if d.on .DDC_CTRL_EN c && d.rg .DDC_CTRL_LINK c == r then
      let m := d.rg .DDC_CTRL_CONV c
      let a := if bad then 0 else sampleOf oct s_ nb m s
      let b := if bad || !d.on .DDC_CTRL_COMPLEX c then 0 else sampleOf oct s_ nb (m + 1) s
      d.ddcIn c (n0 + s) a b bad
    else d) d) d
  d.setLink r { d.link r with n := n0 + s_ }

/-- Whole frames from the octets held of each lane. -/
def Dev.frames (d : Dev) (r : Nat) : Nat → Dev
  | 0 => d
  | n + 1 =>
    let k := d.link r
    let f := d.lnkF r
    if f = 0 || k.left.isEmpty || k.left.any (fun l => l.length < f) then d
    else
      let now := k.left.map (·.take f)
      let d := d.setLink r { k with left := k.left.map (·.drop f) }
      (d.frame r (now.flatten.map (·.1)) (now.flatten.any (·.2))).frames r n

/-- Multiblocks of the link that have begun since its LEMC boundary T_L, before the one that passes now. -/
def Dev.mbIndex (d : Dev) (r : Nat) : Nat :=
  let p := d.tcTicks r * d.lnkS r * 256 / max 1 (d.lnkF r)
  if p ≤ 0 then 0 else (((d.tick : Rat) - (d.link r).tlTick) / p).floor.toNat

/-- A multiblock of a receive link (R282, R283): per link lane whether its sync headers mark the boundary in phase, and
whether its CRC-12 is right, with its octets. `rateBad` tells that the recovered rate is off by more than 200 ppm
(R281). -/
def Dev.multiblock (d : Dev) (r : Nat) (rateBad : Bool) (lanes : List (Bool × Bool × List Nat)) : Dev :=
  if 4 ≤ r ∨ !d.on .LNK_CFG_EN r ∨ !d.domOn domCnv then d
  else
    let d := (d.st .LNK_STAT_RATEERR r (b2n rateBad)).linkSettle r
    if d.rg .LNK_STAT_STATE r = 0 then d
    else
      let ls := d.lnkLanes r
      let up := ls.zipIdx.map (fun p => d.laneUp p.1 && (lanes.getD p.2 (false, true, [])).1)
      let d := d.st .LNK_STAT_LANEOK r ((up.zipIdx.map (fun p => b2n p.1 * 2 ^ p.2)).foldl (· + ·) 0)
      let all := up.all id
      let st := d.rg .LNK_STAT_STATE r
      let aligned := d.on .LNK_STAT_SRALIGNED r && !rateBad
      let st' := if 3 ≤ st then (if !aligned then 2 else if all then 3 else 4)
        else if !all then 1 else if aligned then 3 else 2
      let d := if st < 3 ∧ 3 ≤ st' then
          d.setLink r { d.link r with n := ceilDiv (256 * d.mbIndex r) (max 1 (d.lnkF r)) * d.lnkS r, left := [] }
        else d
      let d := d.linkState r st'
      let d := lanes.foldl (fun d l => if l.2.1 then d else d.bump .LNK_CRCERR_COUNT r 1) d
      if st' < 3 then d
      else
        let skip := if st < 3 then (ceilDiv (256 * d.mbIndex r) (max 1 (d.lnkF r)) * d.lnkF r - 256 * d.mbIndex r) else 0
        let add := up.zipIdx.map (fun p =>
          let l := lanes.getD p.2 (false, false, [])
          ((l.2.2.map (fun o => (o, !p.1 || !l.2.1))).take 256 ++ List.replicate (256 - l.2.2.length) (0, true)).drop skip)
        let k := d.link r
        let left := if k.left.isEmpty then add else (k.left.zip add).map (fun p => p.1 ++ p.2)
        let d := (d.setLink r { k with left := left }).frames r 256
        d.advanceTo (d.relTick r (d.link r).n).ceil.toNat

/-! ## Outputs (R289, R290, R292) -/

/-- Bits [23:8] of a 24-bit result, a tie rounded up, saturated (R289). -/
def round16 (v : Int) : Int × Bool := let w := (v + 128) / 256; if 32767 < w then (32767, true) else (w, false)

/-- A component in a unit's sample form (R254). -/
def swidth (wide : Bool) (v : Int) : Int := if wide then v * 256 else (round16 v).1

/-- DDC_OUTPUT_SAMPLE: the next output reaches the units that record the chain and the LEVEL slots that watch it. -/
def Dev.ddcDeliver (d : Dev) (c : Nat) : Dev :=
  let x := d.ddc c
  match x.outs with
  | [] => d
  | o :: rest =>
    let d := d.setDdc c { x with outs := rest }
    let d := if o.bad then d.ddcFlag c .DDC_STAT_INVALID 1 else d
    let tsk := d.tsTicks c
    let ts : Rat := tsk * 65536 / cyc
    let takes := fun (d : Dev) u => d.rg .ACQ_SRC_TYPE u == 1 && d.rg .ACQ_SRC_DDC u == c && d.rg .ACQ_STAT_STATE u != 0
    let d := if (List.range 16).any (fun u => takes d u && !d.on .ACQ_SRC_SWIDTH u)
        then d.ddcSat c (b2n ((round16 o.i).2 || (round16 o.q).2)) else d
    (List.range 16).foldl (fun d u =>
      let wide := d.on .ACQ_SRC_SWIDTH u
      let i := swidth wide o.i
      let q := swidth wide o.q
      let d := if takes d u then
          let w := if wide then 32 else 16
          (d.modAcq u (fun y => { y with grid := o.tick })).acqSample u
            ⟨unsigned w i + unsigned w q * 2 ^ w, o.t, o.tick, o.bad⟩
        else d
      if d.rg .ACQ_STAT_STATE u = 0 then d
      else (d.slotsOf u 0).foldl (fun d k =>
        if bitsOf (d.slotP0 u k) 0 3 == c then d.levelSample u k (if bitOf (d.slotP0 u k) 3 then q else i) o.t o.tick ts tsk
        else d) d) d

/-! ## The commands -/

/-- A register write to a link in the CNV domain. -/
def Dev.cnvWrite (d : Dev) (g : Dev → Dev) : Dev := if d.domOn domCnv then g d else d.bump .PWR_ACCREJ_COUNT 0 1

/-- JESD_MULTIBLOCK_RECEIVE. -/
def execJesdMultiblockReceive (r : LinkId) (rateBad : Bool) (lanes : List LaneMb) (s : State) : Answer :=
  .next (s.onDev (·.multiblock r rateBad (lanes.map (fun l => (l.inPhase, l.crcOk, l.octets.map (·.toNat))))))

/-- DDC_ENABLE. -/
def execDdcEnable (c : DdcId) (s : State) : Answer := .next (s.onDev (fun d => d.dspWrite (·.ddcEnable c)))

/-- DDC_FTW_WRITE. -/
def execDdcFtwWrite (c : DdcId) (ftw : BitVec 48) (s : State) : Answer :=
  .next (s.onDev (fun d => d.dspWrite (·.ddcHost c ftw.toNat)))

/-- DDC_OUTPUT_SAMPLE. -/
def execDdcOutputSample (c : DdcId) (s : State) : Answer := .next (s.onDev (·.ddcDeliver c))

end Sys2Proof.Machine
end

