-- ==== Sys2Proof/Machine/AwgPlay.lean ====
section
/-!
DEFINITION. Waveform generators at work: their settings and entries, the samples they play from the refill buffer, and what
the transmit links send (R278, R279, R282, R296 to R298, R303).
-/

namespace Sys2Proof.Machine

/-! ## Settings (R296) -/

/-- STEP of an AWG, 2^30 when its resampler is bypassed. -/
def Dev.awgStep (d : Dev) (g : Nat) : Nat := if d.on .AWG_RATE_RSEN g then d.rg .AWG_STEP_STEP g else 2 ^ 30

/-- Tc of the transmit link in 1/65,536 ns. -/
def Dev.awgTc (d : Dev) (g : Nat) : Nat := d.rg .LNK_TCONV_TC (4 + d.rg .AWG_OUT_LINK g)

/-- Tp, the playback interval, in 1/65,536 ns. -/
def Dev.awgTpX (d : Dev) (g : Nat) : Rat := (d.awgTc g : Rat) * 2 ^ d.rg .AWG_RATE_HB g * 2 ^ 30 / max 1 (d.awgStep g)

/-- Tp in ticks. -/
def Dev.tp (d : Dev) (g : Nat) : Rat := d.awgTpX g * cyc / 65536

/-- AWG_TP and AWG_GD. -/
def Dev.awgTp (d : Dev) (g : Nat) : Nat := (d.awgTpX g + 1 / 2).floor.toNat
def Dev.awgGd (d : Dev) (g : Nat) : Nat :=
  ((d.rg .AWG_RATE_RSEN g : Rat) * 15 / 2 * d.awgTpX g + (11 * (2 ^ (d.rg .AWG_RATE_HB g + 1) - 2) * d.awgTc g : Nat)
    + 1 / 2).floor.toNat

/-- Settings outside R296: interpolation, rates, converter. -/
def Dev.awgBad (d : Dev) (g : Nat) : Bool :=
  let cx := d.on .AWG_CTRL_COMPLEX g
  let st := d.rg .AWG_STEP_STEP g
  let conv := d.rg .AWG_OUT_CONV g
  4 < d.rg .AWG_RATE_HB g || (d.on .AWG_RATE_RSEN g && (st < 0x20000000 || 0x40000000 < st))
    || (cx && conv % 2 == 1) || d.lnkM (4 + d.rg .AWG_OUT_LINK g) ≤ conv + b2n cx
    || d.awgTc g < (if cx then 16384 else 8192) || d.awgTpX g < 32768

/-- Bytes of a sample, and lines of an entry's segment (R297). -/
def Dev.awgW (d : Dev) (g : Nat) : Nat := if d.on .AWG_CTRL_COMPLEX g then 4 else 2
def Dev.awgLines (d : Dev) (g : Nat) (e : AwgEntry) : Nat := if d.on .AWG_CTRL_COMPLEX g then e.gran else (e.gran + 1) / 2

/-! ## Sequence entries (R298) -/

/-- Model address of entry `e`. -/
def seqMem (g e : Nat) : Nat := 0xA40000 + 0x10000 * g + 16 * e

/-- Whether an entry's fields allow it to play. -/
def Dev.entryOk (d : Dev) (v : Nat) : Bool :=
  4 ≤ bitsOf v 32 26 && bitsOf v 30 2 == 0 && bitsOf v 58 6 == 0 && bitsOf v 95 1 == 0 && d.installed (bitsOf v 0 30 * 256)

/-- The fields of an entry. -/
def entryOf (v : Nat) : AwgEntry :=
  ⟨bitsOf v 0 30, bitsOf v 32 26, bitsOf v 64 16, bitsOf v 80 12, bitOf v 92, bitOf v 93, bitOf v 94, bitsOf v 96 32⟩

/-- Read an entry; none where it is unreadable or may not play. -/
def Dev.awgEntry (d : Dev) (m : List Host.Cell) (g e : Nat) : Option AwgEntry × Dev :=
  let r := d.readWord m 0x06 (seqMem g e)
  match r.1 with
  | some v => (if r.2.entryOk v then some (entryOf v) else none, r.2)
  | none => (none, r.2)

/-- The play that follows `p` on the sequence path (R298): none after the last play of a STOP entry; `some none` where
the next entry may not play. -/
def Dev.nextPlay (d : Dev) (m : List Host.Cell) (g : Nat) (p : AwgPlay) : Option (Option AwgPlay) × Dev :=
  if p.play < p.ent.repM1 then (some (some { p with no := p.no + 1, play := p.play + 1 }), d)
  else if p.ent.stop then (none, d)
  else
    let r := d.awgEntry m g p.ent.next
    (some (r.1.map (fun e => ⟨p.no + 1, p.ent.next, e, 0⟩)), r.2)

/-! ## Flags -/

/-- Set a flag; its ROUTE bit raises CONVERTER in the granted engine (R295, R305). -/
def Dev.awgFlag (d : Dev) (g : Nat) (f : Field) (bit : Option Nat) : Dev :=
  let d := (d.st f g 1).irq (176 + g)
  match bit with
  | some b => if bitOf (d.rg .AWG_ROUTE_ROUTE g) b && d.on .AWG_CTRL_GEN g then d.raise (d.rg .AWG_CTRL_GENG g) 9 else d
  | none => d

def Dev.awgState (d : Dev) (g : Nat) : Nat := d.rg .AWG_STAT_STATE g

/-! ## Samples played (R300, R303) -/

/-- Where the refill buffer holds line `l` of play `p`: a cached head, or a slot of the stream part (R303). -/
def Dev.awgLineAt (d : Dev) (g : Nat) (p : AwgPlay) (l : Nat) : Option Nat :=
  let x := d.awg g
  let i := x.heads.findIdx (·.1 == p.entry)
  if l < 16 && i < x.heads.length then some (awgMem g + 4096 * i + 256 * l)
  else (x.lines.find? (fun q => q.1 == p.no && q.2.1 == l)).map (fun q => awgMem g + 65536 + 256 * q.2.2)

/-- I and Q of an idle value (R298). -/
def idleOf (v : Nat) : Int × Int := (signed 16 (bitsOf v 0 16), signed 16 (bitsOf v 16 16))

/-- Sample `k` of a play from the bytes of its line (R296). -/
def Dev.awgValue (d : Dev) (g k : Nat) (b : List Nat) : Int × Int :=
  let o := k * d.awgW g % 256
  let at_ := fun o => signed 16 (leNat ((b.drop o).take 2))
  (at_ o, if d.on .AWG_CTRL_COMPLEX g then at_ (o + 2) else 0)

/-- The line of sample `k` of play `p` is in play: its words are checked as its first sample that has them plays; an
unreadable one makes the line play as idle and sets DATAERR (R26, R303). -/
def Dev.awgLine (d : Dev) (m : List Host.Cell) (g : Nat) (p : AwgPlay) (k : Nat) : Option (List Nat) × Dev :=
  let l := k * d.awgW g / 256
  match (d.awg g).now with
  | some (n, b) => if n = l then (b, d) else load l
  | none => load l
where
  load (l : Nat) : Option (List Nat) × Dev :=
    match d.awgLineAt g p l with
    | none => (none, d)
    | some a =>
      let r := d.readPoison m 0x06 a 16
      let b := if r.2.1.any id then none else some r.1
      let d := if b.isNone then r.2.2.awgFlag g .AWG_STAT_DATAERR (some 1) else r.2.2
      (b, d.modAwg g (fun x => { x with now := some (l, b) }))

/-- How many of the last samples an interpolated converter sample can depend on. -/
def histLen : Nat := 64

/-- Samples of the AWG that start by tick `t` play, at most `n`, up to the end of the present play or the effect point of a
request (R300, R301, R303). -/
def Dev.awgTo (d : Dev) (m : List Host.Cell) (g : Nat) (t : Rat) : Nat → Dev
  | 0 => d
  | n + 1 =>
    let x := d.awg g
    match x.plan with
    | [] => d
    | p :: _ =>
      let at_ := x.t0 + x.at_ * d.tp g
      let cut := match x.req with | some (_, _, some e) => decide (e ≤ at_) | _ => false
      if x.start.isSome || cut || decide (p.ent.gran * 64 ≤ x.at_) || decide (t < at_) then d
      else
        let r := d.awgLine m g p x.at_
        let v := match r.1 with | some b => r.2.awgValue g x.at_ b | none => idleOf p.ent.idle
        (r.2.modAwg g (fun x => { x with at_ := x.at_ + 1, hist := (v :: x.hist).take histLen })).awgTo m g t n

/-- Bound on the samples that start by tick `t`. -/
def Dev.awgDue (d : Dev) (g : Nat) (t : Rat) : Nat :=
  if d.awgState g = 3 ∧ 0 < d.tp g then (((t - (d.awg g).t0) / d.tp g).floor + 1).toNat - (d.awg g).at_ else 0

/-- The AWG's samples that start by tick `t` play. -/
def Dev.awgUpTo (d : Dev) (m : List Host.Cell) (g : Nat) (t : Rat) : Dev := d.awgTo m g t (d.awgDue g t)

/-- Whether samples of a play leave the AWG: it is PLAYING and its playback has begun. -/
def Dev.awgPlays (d : Dev) (g : Nat) : Bool := d.awgState g == 3 && (d.awg g).start.isNone

/-- The last samples, newest first, at tick `t`: an AWG that plays none goes on with its idle value (R300). -/
def Dev.awgHist (d : Dev) (g : Nat) (t : Rat) : List (Int × Int) :=
  let x := d.awg g
  let n := if d.awgPlays g || decide (d.tp g ≤ 0) then 0
    else min histLen (((t - x.ended) / d.tp g).floor + 1).toNat
  (List.replicate n (idleOf x.idle) ++ x.hist).take histLen

/-! ## Transmit links (R278, R279, R282) -/

/-- The AWG that drives converter `c` of transmit link `r`, and whether with Q: the lowest-numbered that plays, else the
lowest-numbered with an idle value other than 0 (log 83). -/
def Dev.cnvDriver (d : Dev) (r c : Nat) : Option (Nat × Bool) :=
  let l := (List.range 8).filterMap (fun g =>
    let k := d.rg .AWG_OUT_CONV g
    if d.rg .AWG_OUT_LINK g + 4 ≠ r then none
    else if k = c then some (g, false)
    else if d.on .AWG_CTRL_COMPLEX g && k + 1 == c then some (g, true) else none)
  if !d.domOn domDsp then none
  else match l.find? (fun p => d.awgPlays p.1) with
  | some p => some p
  | none => l.find? (fun p => idleOf (d.awg p.1).idle != (0, 0))

/-- A 16-bit result, saturated (R289). -/
def sat16 (v : Int) : Int := max (-32768) (min 32767 v)

/-- What AWG `g` puts out at tick `t`: its sample, or interpolated from the last ones; the idle value while all of them are
(R289, R296, R300). -/
def Dev.awgOut (d : Dev) (g : Nat) (q : Bool) (t : Rat) : Int :=
  let l := (d.awgHist g t).map (fun v => if q then v.2 else v.1)
  let i := if q then (idleOf (d.awg g).idle).2 else (idleOf (d.awg g).idle).1
  if d.rg .AWG_RATE_HB g = 0 ∧ !d.on .AWG_RATE_RSEN g then l.headD 0
  else if !d.awgPlays g && l.all (· == i) then i
  else
    let x := d.awg g
    let from_ : Rat := if d.awgPlays g then x.t0 else x.ended
    let p := if d.tp g ≤ 0 then 0 else (t - from_) / d.tp g
    sat16 (Config.upsample (d.rg .AWG_RATE_HB g) (d.awgStep g) l (p - p.floor))

/-- Octets of a sample on the lanes: its N high bits, the low 16 − N bits 0, high octet first (R278). -/
def sampleOctets (n : Nat) (v : Int) : List Nat :=
  let w := unsigned 16 v / 2 ^ (16 - n) * 2 ^ (16 - n)
  [w / 256, w % 256]

/-- Start of the next frame that transmit link `r` sends, and the tick at which its last sample starts. -/
def Dev.sendAt (d : Dev) (r : Nat) : Rat × Rat :=
  let k := d.link r
  (k.tlTick + k.n * d.tcTicks r, k.tlTick + (k.n + d.lnkS r - 1 : Nat) * d.tcTicks r)

/-- The next thing that AWG `g` waits for to know its samples: the start of its playback, the end of the present play, or an
effect point. -/
def Dev.awgBound (d : Dev) (g : Nat) : Option Rat :=
  let x := d.awg g
  if d.awgState g ≠ 3 then none
  else match x.start, x.plan with
  | some a, _ => some (a + 32 * cyc)
  | none, p :: _ =>
    let e := x.t0 + (p.ent.gran * 64 : Nat) * d.tp g
    some (match x.req with | some (_, _, some q) => min q e | _ => e)
  | none, [] => none

/-- The sample of converter `c` of link `r` at tick `t` (R282). -/
def Dev.cnvSample (d : Dev) (m : List Host.Cell) (r c : Nat) (t : Rat) : Int × Dev :=
  match d.cnvDriver r c with
  | none => (0, d)
  | some (g, q) => let d := d.awgUpTo m g t; (d.awgOut g q t, d)

/-- The octets of a frame of link `r`, converter after converter, each converter's samples in order (R279). -/
def Dev.frameOctets (d : Dev) (m : List Host.Cell) (r : Nat) : List Nat × Dev :=
  let k := d.link r
  let n := d.rg .LNK_CFG_NM1 r + 1
  ((List.range (d.lnkM r)).flatMap (fun c => (List.range (d.lnkS r)).map (fun s => (c, s)))).foldl (fun a p =>
    let v := a.2.cnvSample m r p.1 (k.tlTick + (k.n + p.2 : Nat) * d.tcTicks r)
    (a.1 ++ sampleOctets n v.1, v.2)) ([], d)

/-- Whether converter lane `n` sends its own traffic (R345, R346). -/
def Dev.cnvSends (d : Dev) (n : Nat) : Bool := !d.on .LNK_LCTRL_PRBS n && d.rg .LNK_LCTRL_LOOP (n - 8) != 3

/-- Whole multiblocks of 256 octets on each lane leave with their CRC-12; a lane that sends something else in their place
carries none (R278, R345, R346). -/
def Dev.sendBlocks (d : Dev) (r : Nat) : Dev :=
  let k := d.link r
  if k.left.isEmpty || k.left.any (fun l => l.length < 256) then d
  else
    let ns := d.lnkLanes r
    let now := k.left.zipIdx.map (fun p => if d.cnvSends (ns.getD p.2 0) then (p.1.take 256).map (·.1) else [])
    (d.setLink r { k with left := k.left.map (·.drop 256) }).emit (.cnv (r - 4) (now.map (fun l => (l, Config.crc12 l))))

/-- One frame of transmit link `r`: `F` octets for each lane (R279). -/
def Dev.sendFrame (d : Dev) (m : List Host.Cell) (r : Nat) : Dev :=
  let f := d.lnkF r
  let q := d.frameOctets m r
  let k := q.2.link r
  let add := (List.range (d.lnkL r)).map (fun j => (((q.1.drop (f * j)).take f).map (fun o => (o, false))))
  let left := if k.left.isEmpty then add else (k.left.zip add).map (fun p => p.1 ++ p.2)
  (q.2.setLink r { k with n := k.n + d.lnkS r, left := left }).sendBlocks r

/-- Transmit link `r` in DATA sends the frames that lie wholly before tick `t` and before what its AWGs wait for, at most
`n`. -/
def Dev.sendTo (d : Dev) (m : List Host.Cell) (r : Nat) (t : Rat) : Nat → Dev
  | 0 => d
  | n + 1 =>
    let e := (d.sendAt r).2
    let held := (List.range 8).any (fun g => d.rg .AWG_OUT_LINK g + 4 == r && (d.awgBound g).any (fun b => decide (b ≤ e)))
    if decide (t ≤ e) || held then d else (d.sendFrame m r).sendTo m r t n

/-- Bound on the frames that link `r` sends before tick `t`. -/
def Dev.framesDue (d : Dev) (r : Nat) (t : Rat) : Nat :=
  let f := d.tcTicks r * d.lnkS r
  if d.rg .LNK_STAT_STATE r = 3 ∧ 0 < f ∧ d.domOn domCnv then (((t - (d.sendAt r).1) / f).ceil).toNat else 0

/-- The transmit links have sent, and the AWGs have played, all that comes before tick `t`. The commands that act on them, or
read them, call this first (log 83). -/
def Dev.playTo (d : Dev) (m : List Host.Cell) (t : Rat) : Dev :=
  let d := (List.range 4).foldl (fun d r => d.sendTo m (r + 4) t (d.framesDue (r + 4) t)) d
  (List.range 8).foldl (fun d g => d.awgTo m g t (d.awgDue g t)) d

/-- Everything before now is played and sent. -/
def State.played (s : State) : State := s.onDev (fun d => d.playTo s.mem d.tick)

/-- JESD_LINK_ENABLE. -/
def execJesdLinkEnable (r : LinkId) (s : State) : Answer := .next (s.played.onDev (fun d => d.cnvWrite (·.linkEnable r)))

/-- SYSREF_EDGE, `dt` ticks after now. -/
def execSysrefEdge (dt : Nat) (s : State) : Answer := .next (s.played.onDev (·.sysref dt))

/-- Whether a BAR0 access from `a` on meets transmit links, AWGs or their tables. -/
def isPlay (a : Nat) : Bool := (0xA00400 ≤ a && a < 0xA00800) || (0xA20000 ≤ a && a < 0xAC0000)

/-- A host access from `a` on to the units that play finds all before now played. -/
def State.playedAt (s : State) (a : Nat) : State := if isPlay a then s.played else s

end Sys2Proof.Machine
end

