-- ==== Sys2Proof/Machine/Awg.lean ====
section
/-!
DEFINITION. Waveform generators: starts, jumps and stops, refill and underrun (R299 to R305).
-/

namespace Sys2Proof.Machine

/-- Playback ends at tick `t`: IDLE, with what the stream part held gone (R300). -/
def Dev.awgIdle (d : Dev) (g : Nat) (t : Rat) : Dev :=
  let d := d.modAwg g (fun x => { x with
    plan := [], lines := [], fetch := none, req := none, wait := [], start := none, now := none, ended := t })
  (d.st .AWG_STAT_STATE g 0).awgFlag g .AWG_STAT_STOPPED (some 5)

/-- An entry that may not play is reached at tick `t` (R298). -/
def Dev.awgInvalid (d : Dev) (g : Nat) (t : Rat) : Dev := (d.awgFlag g .AWG_STAT_CFGERR (some 4)).awgIdle g t

/-! ## Refill (R303) -/

/-- Where refill starts in a play: line 16 of an entry whose head is cached, line 0 of another. -/
def Awg.firstLine (x : Awg) (p : AwgPlay) : Nat := if x.heads.any (·.1 == p.entry) then 16 else 0

/-- Refill restarts with play `p`. -/
def Awg.restart (x : Awg) (p : AwgPlay) : Awg := { x with plan := [p], lines := [], fetch := some (p.no, x.firstLine p) }

/-- The play with number `no` in the plan. -/
def Awg.playNo (x : Awg) (no : Nat) : Option AwgPlay := x.plan.find? (·.no == no)

/-- Move the fetch pointer to a line that exists, extending the plan along the path. -/
def Dev.awgSeek (d : Dev) (m : List Host.Cell) (g : Nat) : Nat → Dev
  | 0 => d
  | n + 1 =>
    let x := d.awg g
    match x.fetch with
    | none => d
    | some (no, l) => match x.playNo no with
      | none => d.setAwg g { x with fetch := none }
      | some p =>
        if l < d.awgLines g p.ent then d
        else
          let r := d.nextPlay m g p
          match r.1 with
          | some (some q) =>
            let x := (r.2.awg g)
            (r.2.setAwg g { x with plan := if (x.playNo q.no).isSome then x.plan else x.plan ++ [q]
                                   fetch := some (q.no, x.firstLine q) }).awgSeek m g n
          | _ => r.2.setAwg g { x with fetch := none }

/-- Drop lines of the present play that lie behind the playing sample. -/
def Dev.awgDrop (d : Dev) (g : Nat) : Dev :=
  let x := d.awg g
  match x.plan, d.awgState g == 3 && x.start.isNone && 0 < d.tp g with
  | p :: _, true =>
    let k := (((d.tick : Rat) - x.t0) / d.tp g).floor.toNat
    d.setAwg g { x with lines := x.lines.filter (fun l => p.no < l.1 || (l.1 == p.no && k * d.awgW g / 256 ≤ l.2.1)) }
  | _, _ => d

/-- The slot of the stream part that a line takes: the one after the last line's, or another that is free. -/
def Awg.slotFor (x : Awg) : Nat :=
  let used := x.lines.map (·.2.2)
  let n := (used.getLast?.map (fun k => (k + 1) % 768)).getD 0
  if used.contains n then ((List.range 768).find? (fun k => !used.contains k)).getD n else n

/-- AWG_REFILL_LINE: the next line of the path arrives, and its words are stored with their poison (R25, R303). -/
def State.awgRefill (s : State) (g : Nat) : State :=
  let s := s.played
  let d := (s.dev.awgDrop g).awgSeek s.mem g 64
  let x := d.awg g
  match x.fetch with
  | none => { s with dev := d }
  | some (no, l) => match x.playNo no with
    | none => { s with dev := d }
    | some p =>
      if d.awgState g = 0 ∨ 768 ≤ x.lines.length ∨ d.dramPath (p.ent.line + l) = .waits then { s with dev := d }
      else
        let r := d.dramLine s.mem 0x06 (p.ent.line + l)
        let slot := x.slotFor
        (State.storeWords { s with dev := r.2.2 } (awgMem g + 65536 + 256 * slot) r.1 r.2.1).onDev (fun d =>
          (d.modAwg g (fun x => { x with lines := x.lines ++ [(no, l, slot)], fetch := some (no, l + 1) })).awgSeek s.mem g 64)

/-- Entries of the table that carry HC and may play, ascending (R298, R300). -/
def Dev.hcEntries (d : Dev) (m : List Host.Cell) (g : Nat) : List (Nat × AwgEntry) × Dev :=
  let used := (m.filter (fun c => seqMem g 0 ≤ c.1 && c.1 < seqMem g 4096)).map (fun c => (c.1 - seqMem g 0) / 16)
  used.eraseDups.foldl (fun a e =>
    if !bitOf (wordAt m (seqMem g e)) 94 then a
    else
      let r := a.2.awgEntry m g e
      (match r.1 with | some ent => if ent.hc then a.1 ++ [(e, ent)] else a.1 | none => a.1, r.2)) ([], d)

/-- The first 16 lines of entry `p`, or the whole segment where it is shorter, enter place `i` of the head cache (R303). -/
def State.headLines (s : State) (g i : Nat) (p : Nat × AwgEntry) : State :=
  (List.range (min 16 (s.dev.awgLines g p.2))).foldl (fun s l =>
    let r := s.dev.dramLine s.mem 0x06 (p.2.line + l)
    State.storeWords { s with dev := r.2.2 } (awgMem g + 4096 * i + 256 * l) r.1 r.2.1) s

/-- PRIME at an entry: the head cache is loaded from the 16 lowest HC entries, refill starts (R300, R303). -/
def State.awgPrime (s : State) (g e : Nat) : State :=
  if s.dev.awgState g ≠ 0 then s.onDev (·.awgFlag g .AWG_STAT_WREJ none)
  else
    let s := s.played
    let hc := s.dev.hcEntries s.mem g
    let d := if 16 < hc.1.length then hc.2.awgFlag g .AWG_STAT_HCOVF none else hc.2
    let d := d.modAwg g (fun x => { x with heads := hc.1.take 16 })
    let s := (hc.1.take 16).zipIdx.foldl (fun s p => s.headLines g p.2 p.1) { s with dev := d }
    let r := s.dev.awgEntry s.mem g e
    let d := r.2.st .AWG_STAT_STATE g 1
    { s with dev := match r.1 with
      | some ent => (d.modAwg g (fun x => { x.restart ⟨x.count, e, ent, 0⟩ with count := x.count + 1 })).awgSeek s.mem g 64
      | none => d.awgInvalid g (d.awg g).ended }

/-- AWG_PRIME_COMPLETE: the stream part holds 192 lines or the whole path. -/
def Dev.awgPrimed (d : Dev) (g : Nat) : Dev :=
  let x := d.awg g
  if d.awgState g = 1 ∧ (192 ≤ x.lines.length ∨ x.fetch.isNone) then d.st .AWG_STAT_STATE g 2 else d

/-- FLUSH, in IDLE and PRIMED. -/
def Dev.awgFlush (d : Dev) (g : Nat) : Dev :=
  if d.awgState g = 0 ∨ d.awgState g = 2 then
    (d.modAwg g (fun x => { x with plan := [], lines := [], fetch := none, heads := [], idle := 0, hist := [], ended := 0 })).st .AWG_STAT_STATE g 0
  else d.awgFlag g .AWG_STAT_WREJ none

/-! ## Start (R300) -/

/-- A start at entry `e` that arrives at tick `t`. -/
def Dev.awgStart (d : Dev) (m : List Host.Cell) (g e t : Nat) : Dev :=
  let d := d.playTo m d.tick
  if d.awgState g = 3 then d.awgFlag g .AWG_STAT_WREJ none
  else if d.awgBad g || d.quies.contains domDsp then d.awgFlag g .AWG_STAT_CFGERR (some 4)
  else
    let x := d.awg g
    let d := d.st .AWG_STAT_CUR g e
    match x.plan with
    | p :: _ =>
      if p.entry = e then (d.setAwg g { x with start := some t }).st .AWG_STAT_STATE g 3 else fresh d e t
    | [] => fresh d e t
where
  fresh (d : Dev) (e t : Nat) : Dev :=
    let r := d.awgEntry m g e
    match r.1 with
    | some ent =>
      ((r.2.modAwg g (fun x => { x.restart ⟨x.count, e, ent, 0⟩ with count := x.count + 1, start := some t })).st
        .AWG_STAT_STATE g 3).awgSeek m g 64
    | none => r.2.awgInvalid g (d.awg g).ended

/-! ## Requests (R301, R302) -/

/-- Index of the first sample of the present play that starts after tick `a`. -/
def Dev.awgAfter (d : Dev) (g : Nat) (a : Rat) : Nat :=
  let x := d.awg g
  if a < x.t0 then 0 else (((a - x.t0) / d.tp g).floor.toNat + 1)

/-- The effect point of a request in the present play with `from_` the first remaining sample: none where it is late. -/
def Dev.awgEffect (d : Dev) (g : Nat) (q : AwgReq) (from_ : Nat) : Option Rat :=
  match (d.awg g).plan with
  | [] => none
  | p :: _ =>
    let n := p.ent.gran * 64
    let at_ := fun (k : Nat) => (d.awg g).t0 + k * d.tp g
    match q with
    | .jump _ true => let b := ceilDiv (from_ + 128) 64 * 64; if b ≤ n then some (at_ b) else none
    | _ => if from_ + 128 ≤ n then some (at_ n) else none

/-- The effect point of a late request: of an AT_GRANULE jump the first boundary of the following play with 128 samples after
the arrival; of another the end of that play, known when it begins (R301). -/
def Dev.awgLate (d : Dev) (g : Nat) (q : AwgReq) (from_ : Nat) : Option Rat :=
  match (d.awg g).plan, q with
  | p :: _, .jump _ true =>
    let n := p.ent.gran * 64
    some ((d.awg g).t0 + (n + ceilDiv (128 - (n - from_)) 64 * 64 : Nat) * d.tp g)
  | _, _ => none

/-- Take a request that arrives at tick `a` with first remaining sample `from_`. -/
def Dev.awgTake (d : Dev) (g : Nat) (q : AwgReq) (a from_ : Nat) : Dev :=
  match d.awgEffect g q from_ with
  | some t => d.modAwg g (fun x => { x with req := some (q, a, some t) })
  | none => (d.awgFlag g .AWG_STAT_JUMP_LATE (some 2)).modAwg g (fun x => { x with req := some (q, a, d.awgLate g q from_) })

/-- Samples of the AWG that start later than tick `a` and before tick `t`. -/
def Dev.awgBefore (d : Dev) (g : Nat) (a : Nat) (t : Rat) : Int := (((t - (d.awg g).t0) / d.tp g).ceil : Int) - d.awgAfter g a

/-- A jump or stop request arrives at tick `a`. Before the first sample has left it waits for the start of playback; a
committed request keeps its place, and one not yet committed is replaced. -/
def Dev.awgRequest (d : Dev) (g : Nat) (q : AwgReq) (a : Nat) : Dev :=
  let x := d.awg g
  if d.awgState g ≠ 3 then d.awgFlag g .AWG_STAT_WREJ none
  else if x.start.isSome then
    let d := if x.req.isSome then d.awgFlag g .AWG_STAT_JREPL none else d
    d.modAwg g (fun x => { x with req := some (q, a, none) })
  else
    match x.req with
    | some (_, _, some t) =>
      if d.awgBefore g a t < 128 then d.modAwg g (fun x => { x with wait := x.wait ++ [q] })
      else (d.awgFlag g .AWG_STAT_JREPL none).awgTake g q a (d.awgAfter g a)
    | some _ => (d.awgFlag g .AWG_STAT_JREPL none).awgTake g q a (d.awgAfter g a)
    | none => d.awgTake g q a (d.awgAfter g a)

/-- A play begins at tick `t`: CUR, MARK, the idle value of its entry. -/
def Dev.awgPlay (d : Dev) (g : Nat) (p : AwgPlay) (t : Rat) : Dev :=
  let d := (d.st .AWG_STAT_CUR g p.entry).modAwg g (fun x => { x with t0 := t, sample := 0, at_ := 0, now := none, idle := p.ent.idle })
  if p.ent.mark && p.play == 0 then d.awgFlag g .AWG_STAT_MARK (some 3) else d

/-- AWG_PLAYBACK_START: the first converter sample leaves at the first frame boundary of its link at or after the
arrival plus 32 cycles. -/
def Dev.awgBegin (d : Dev) (m : List Host.Cell) (g : Nat) : Dev :=
  let d := d.playTo m d.tick
  let x := d.awg g
  let r := 4 + d.rg .AWG_OUT_LINK g
  let f := d.tcTicks r * d.lnkS r
  match x.start, x.plan with
  | some a, p :: _ =>
    if d.rg .LNK_STAT_STATE r ≠ 3 ∨ f ≤ 0 then d
    else
      let k := d.link r
      let from_ : Rat := max ((a + 32 * cyc : Nat) : Rat) (d.sendAt r).1
      let t := k.tlTick + (((from_ - k.tlTick) / f).ceil : Rat) * f
      let d := (d.playTo m t).advanceTo t.ceil.toNat
      let d := d.st .AWG_START_TS_RECORD g (d.stampOf (d.timeAt t.floor.toNat) g)
      let d := (d.modAwg g (fun x => { x with start := none, req := none, hist := d.awgHist g t })).awgPlay g p t
      match x.req with
      | some (q, a, _) => d.awgTake g q a (d.awgAfter g a)
      | none => d
  | _, _ => d

/-- AWG_PLAY_END: the present play ends; the next play, or the end of playback. A jump or stop whose effect point lies no
later takes effect instead. -/
def Dev.awgPlayEnd (d : Dev) (m : List Host.Cell) (g : Nat) : Dev :=
  let x := d.awg g
  match x.plan, d.awgState g == 3 && x.start.isNone with
  | p :: rest, true =>
    let t := x.t0 + (p.ent.gran * 64 : Nat) * d.tp g
    let early := match x.req with | some (_, _, some e) => decide (e ≤ t) | _ => false
    if early then d
    else
      let d := (d.playTo m t).advanceTo t.ceil.toNat
      let nx : Option (Option AwgPlay) × Dev := match rest with | q :: _ => (some (some q), d) | [] => d.nextPlay m g p
      match nx.1 with
      | none => nx.2.awgIdle g t
      | some none => nx.2.awgInvalid g t
      | some (some q) =>
        let y := nx.2.awg g
        let y := { y with plan := if rest.isEmpty then [q] else rest, lines := y.lines.filter (fun l => p.no < l.1) }
        let d := ((nx.2.setAwg g y).awgPlay g q t).awgSeek m g 64
        match x.req with
        | some (r, a, none) => d.modAwg g (fun x => { x with req := some (r, a, some (t + (q.ent.gran * 64 : Nat) * d.tp g)) })
        | _ => d
  | _, _ => d

/-- AWG_JUMP_EFFECT: at its effect point a jump or stop takes effect; refill beyond it is discarded; requests that waited
are evaluated there. -/
def Dev.awgJumpEffect (d : Dev) (m : List Host.Cell) (g : Nat) : Dev :=
  let x := d.awg g
  match x.req with
  | some (q, _, some t) =>
    if d.awgState g ≠ 3 then d
    else
      let d := (d.playTo m t).advanceTo t.ceil.toNat
      match q with
      | .stop => d.awgIdle g t
      | .jump e _ =>
        let r := d.awgEntry m g e
        match r.1 with
        | none => r.2.awgInvalid g t
        | some ent =>
          let y := r.2.awg g
          let no := y.plan.foldl (fun a p => max a (p.no + 1)) y.count
          let p : AwgPlay := ⟨no, e, ent, 0⟩
          let d := (r.2.setAwg g { y.restart p with count := no + 1, req := none, wait := [] }).awgPlay g p t
          let d := d.awgSeek m g 64
          x.wait.foldl (fun d q =>
            let d := if (d.awg g).req.isSome then d.awgFlag g .AWG_STAT_JREPL none else d
            d.awgTake g q t.ceil.toNat 0) d
  | _ => d

/-- Whether the line that holds sample `k` of the present play is there. -/
def Dev.awgHas (d : Dev) (g : Nat) (p : AwgPlay) (k : Nat) : Bool :=
  let x := d.awg g
  let l := k * d.awgW g / 256
  (l < 16 && x.heads.any (·.1 == p.entry)) || x.lines.any (fun q => q.1 == p.no && q.2.1 == l)

/-- AWG_SAMPLE_UNDERRUN: the next sample to start has no data; its entry's idle value plays. -/
def Dev.awgUnderrun (d : Dev) (m : List Host.Cell) (g : Nat) : Dev :=
  let d := d.playTo m d.tick
  let x := d.awg g
  match x.plan, d.awgState g == 3 && x.start.isNone with
  | p :: _, true =>
    let now : Rat := d.tick
    let k := max x.sample (if now ≤ x.t0 then 0 else ((now - x.t0) / d.tp g).ceil.toNat)
    if p.ent.gran * 64 ≤ k ∨ d.awgHas g p k then d
    else
      let t := x.t0 + k * d.tp g
      let d := (d.advanceTo t.ceil.toNat).setAwg g { x with sample := k + 1 }
      let d := if d.on .AWG_STAT_UNDERRUN g then d else d.st .AWG_URUN_TS_RECORD g (d.stampOf (d.timeAt t.floor.toNat) g)
      (d.bump .AWG_URUN_COUNT g 1).awgFlag g .AWG_STAT_UNDERRUN (some 0)
  | _, _ => d

/-- AWG_SEQ_ENTRY_WRITE: bytes at offset `o` of entry `e`; an active entry ignores them (R299). -/
def State.awgSeqWrite (s : State) (g e o : Nat) (l : List Nat) (h : Wr) : State :=
  if ((s.dev.awg g).active false).any (·.1 == e) then s.onDev (·.bump .AWG_SWREJ_SEQ g 1)
  else s.writeBytes 0x07 (seqMem g e + o) l h

/-! ## The commands -/

/-- ENTRY and JMODE of AWG_CTRL as a command writes them. -/
def Dev.awgCtrl (d : Dev) (g e : Nat) : Dev := d.st .AWG_CTRL_ENTRY g e

/-- AWG_START. -/
def execAwgStart (g : AwgId) (e : EntryId) (s : State) : Answer :=
  .next (s.onDev (fun d => d.dspWrite (fun d => (d.awgCtrl g e).awgStart s.mem g e d.tick)))
/-- AWG_STOP. -/
def execAwgStop (g : AwgId) (s : State) : Answer := .next (s.played.onDev (fun d => d.dspWrite (fun d => d.awgRequest g .stop d.tick)))
/-- AWG_PRIME. -/
def execAwgPrime (g : AwgId) (e : EntryId) (s : State) : Answer :=
  .next (if s.dev.domOn domDsp then (s.onDev (·.awgCtrl g e)).awgPrime g e else s.onDev (·.bump .PWR_ACCREJ_COUNT 0 1))
/-- AWG_FLUSH. -/
def execAwgFlush (g : AwgId) (s : State) : Answer := .next (s.played.onDev (fun d => d.dspWrite (·.awgFlush g)))
/-- AWG_JUMP. -/
def execAwgJump (g : AwgId) (e : EntryId) (granule : Bool) (s : State) : Answer :=
  .next (s.played.onDev (fun d => d.dspWrite (fun d =>
    ((d.awgCtrl g e).st .AWG_CTRL_JMODE g (b2n granule)).awgRequest g (.jump e granule) d.tick)))
/-- AWG_JUMP_EFFECT. -/
def execAwgJumpEffect (g : AwgId) (s : State) : Answer := .next (s.onDev (fun d => d.awgJumpEffect s.mem g))
/-- AWG_PRIME_COMPLETE. -/
def execAwgPrimeComplete (g : AwgId) (s : State) : Answer := .next (s.onDev (·.awgPrimed g))
/-- AWG_PLAYBACK_START. -/
def execAwgPlaybackStart (g : AwgId) (s : State) : Answer := .next (s.onDev (·.awgBegin s.mem g))
/-- AWG_REFILL_LINE. -/
def execAwgRefillLine (g : AwgId) (s : State) : Answer := .next (s.awgRefill g)
/-- AWG_PLAY_END. -/
def execAwgPlayEnd (g : AwgId) (s : State) : Answer := .next (s.onDev (fun d => d.awgPlayEnd s.mem g))
/-- AWG_SAMPLE_UNDERRUN. -/
def execAwgSampleUnderrun (g : AwgId) (s : State) : Answer := .next (s.onDev (·.awgUnderrun s.mem g))
/-- AWG_SEQ_ENTRY_WRITE. -/
def execAwgSeqEntryWrite (g : AwgId) (e : EntryId) (off : Fin 16) (bytes : List Byte) (ep : Bool) (s : State)
    (dup : Bool := false) : Answer :=
  .next (if s.dev.domOn domDsp then s.awgSeqWrite g e off ((bytes.map (·.toNat)).take (16 - off)) { ep := ep, dup := dup }
    else s.onDev (·.bump .PWR_ACCREJ_COUNT 0 1))

end Sys2Proof.Machine
end

