-- ==== Sys2Proof/Machine/Bobbin.lean ====
section
/-!
DEFINITION. Bobbins: stream registers, loads, refill and the host's window (R120 to R128).
-/

namespace Sys2Proof.Machine

/-- Writes to the stream and hem registers are ignored while a burst runs or a load is in progress (R120). -/
def Dev.streamBusy (d : Dev) (e : Nat) : Bool := d.runs e || d.on .ENG_BOB_STAT_LOADING e

/-- Why a LOAD or HOSTFILL is refused (R121). -/
def Dev.loadBad (d : Dev) (e : Nat) : Bool :=
  let len := d.rg .ENG_STR_LEN_LEN e
  let q := d.rg .ENG_STR_CTRL_QUADS e
  len == 0 || q == 0 || 16 < q || (d.resident e && 65536 < len)

/-- The fields of an ENG_STR_CTRL write (R120): READY clears when FORM, MODE or QUADS change (R122). A PREFILL below 16 and
a PANIC of 0 are stored and used as written; the spec gives no effect of them (DESIGN CHOICE, log 77). -/
def Dev.ctrlWrite (d : Dev) (e v : Nat) : Dev :=
  let chg := bitsOf v 0 1 != d.rg .ENG_STR_CTRL_FORM e || bitsOf v 1 1 != d.rg .ENG_STR_CTRL_MODE e
    || bitsOf v 2 5 != d.rg .ENG_STR_CTRL_QUADS e
  let d := ((d.st .ENG_STR_CTRL_FORM e (bitsOf v 0 1)).st .ENG_STR_CTRL_MODE e (bitsOf v 1 1)).st .ENG_STR_CTRL_QUADS e (bitsOf v 2 5)
  let d := (d.st .ENG_STR_CTRL_PREFILL e (bitsOf v 16 8)).st .ENG_STR_CTRL_PANIC e (bitsOf v 24 8)
  if chg then d.st .ENG_BOB_STAT_READY e 0 else d

/-- LOAD = 1 (R121): discards the bobbin, VP is 0, fetching starts at offset 0; or the load is refused. -/
def Dev.load (d : Dev) (e : Nat) : Dev :=
  if d.loadBad e || d.quies.contains (domK (e / 16)) then (d.st .ENG_BOB_STAT_LOAD_ERR e 1).st .ENG_BOB_STAT_READY e 0
  else
    let d := ((d.endWindow e).st .ENG_VP e 0).st .ENG_BOB_STAT_READY e 0
    (d.st .ENG_BOB_STAT_LOADING e 1).modEng e (fun x => { x with lines := [], reqs := [], fetch := 0, miss := none, pleat := none })

/-- HOSTFILL = 1 (R121). -/
def Dev.hostfill (d : Dev) (e : Nat) : Dev :=
  if d.loadBad e || !d.resident e then (d.st .ENG_BOB_STAT_LOAD_ERR e 1).st .ENG_BOB_STAT_READY e 0
  else (d.st .ENG_VP e 0).st .ENG_BOB_STAT_READY e 1

/-- A write of ENG_STR_CTRL, with its LOAD and HOSTFILL bits. R121 does not say which acts where both are 1: the load does,
and then the fill, which leaves LOADING and READY both 1 (DESIGN CHOICE, log 77). -/
def Dev.strCtrl (d : Dev) (e v : Nat) : Dev :=
  if d.streamBusy e then d.st .ENG_BOB_STAT_WREJ e 1
  else
    let d := d.ctrlWrite e v
    let d := if bitOf v 8 then d.load e else d
    if bitOf v 9 then d.hostfill e else d

/-- A write that carries `size` bytes of `data` at byte `off` of a register that holds `old`: the register's new value
(R8). -/
def mergeBytes (old off size data : Nat) : Nat := setBits old (8 * off) (8 * size) data

/-- STREAM_REGISTER_WRITE: `off` is the offset in the ENG_ block, `size` 4 or 8 bytes (R120, R122). -/
def Dev.streamWrite (d : Dev) (e off size data : Nat) : Dev :=
  if 0x200 ≤ off ∧ off < 0x208 then
    if d.streamBusy e then d.st .ENG_BOB_STAT_WREJ e 1
    else (d.st .ENG_STR_BASE_LINE e (bitsOf (mergeBytes (d.rg .ENG_STR_BASE_LINE e * 256) (off - 0x200) size data) 8 30)).st
      .ENG_BOB_STAT_READY e 0
  else if 0x208 ≤ off ∧ off < 0x210 then
    if d.streamBusy e then d.st .ENG_BOB_STAT_WREJ e 1
    else (d.st .ENG_STR_LEN_LEN e (mergeBytes (d.rg .ENG_STR_LEN_LEN e) (off - 0x208) size data)).st .ENG_BOB_STAT_READY e 0
  else if off = 0x210 then d.strCtrl e (data % 2 ^ 32)
  else d

/-! ## Refill -/

/-- A STREAM bobbin, or a load, that has a free line, a line to fetch and fewer than 32 requests outstanding (R126). -/
def Dev.wantsLine (d : Dev) (e : Nat) : Bool :=
  let x := d.eng e
  let loadedOnce := d.on .ENG_BOB_STAT_LOADING e || (!d.resident e && (d.on .ENG_BOB_STAT_READY e || d.runs e))
  loadedOnce && d.linesRemain e && x.lines.length + x.reqs.length < 256 && x.reqs.length < 32
    && (match x.ending with | some o => o.reason == 0 | none => true)

/-- Bobbins with INPANIC first, then by lines ahead, then by number (R126). -/
def Dev.refillBefore (d : Dev) (a b : Nat) : Bool :=
  let k := fun e => (if d.inPanic e then 0 else 1, d.aheadLines e, e)
  let x := k a
  let y := k b
  x.1 < y.1 || (x.1 == y.1 && (x.2.1 < y.2.1 || (x.2.1 == y.2.1 && x.2.2 < y.2.2)))

/-- The bobbin served next. -/
def Dev.refillPick (d : Dev) (c : Nat) : Option Nat :=
  (((List.range 16).map (fun k => 16 * c + k)).filter d.wantsLine).foldl
    (fun a e => match a with | none => some e | some b => if d.refillBefore e b then some e else some b) none

/-- The line to request next: past the last line of a large window with passes due refill goes on at START (R125). -/
def Dev.fetchNext (d : Dev) (e : Nat) : Nat × Dev :=
  let n := (d.eng e).fetch
  let w := d.windowLines e
  if d.windowLarge e && w.2 < n && 0 < d.rg .ENG_BOB_LREM_REM e then
    (w.1, d.st .ENG_BOB_LREM_REM e (d.rg .ENG_BOB_LREM_REM e - 1))
  else (n, d)

/-- BOBBIN_REFILL_REQUEST: the cluster's port issues one request. -/
def Dev.refillRequest (d : Dev) (c : Nat) : Dev :=
  if !d.domOn (domK c) then d
  else match d.refillPick c with
  | none => d
  | some e =>
    let r := d.fetchNext e
    r.2.modEng e (fun x => { x with reqs := x.reqs ++ [r.1], fetch := r.1 + 1 })

/-- The bobbin slot a line takes: its number modulo 256, or another that is free. -/
def Eng.slotFor (x : Eng) (n : Nat) : Nat :=
  let used := x.lines.map (·.2)
  if used.contains (n % 256) then ((List.range 256).find? (fun k => !used.contains k)).getD (n % 256) else n % 256

/-- Whether a load is complete (R121). -/
def Dev.loadDone (d : Dev) (e : Nat) : Bool :=
  let all := !d.linesRemain e && (d.eng e).reqs.isEmpty
  if d.resident e then all else all || d.rg .ENG_STR_CTRL_PREFILL e ≤ d.aheadLines e

/-- A requested line is in the bobbin: a load may be complete, and a hold for the line ends (R120, R121, R124). -/
def Dev.lineIn (d : Dev) (e n : Nat) : Dev :=
  let d := if d.on .ENG_BOB_STAT_LOADING e && d.loadDone e then
      (d.st .ENG_BOB_STAT_LOADING e 0).st .ENG_BOB_STAT_READY e 1 else d
  if (d.eng e).miss = some n then (d.holdEnds e).resumeIssue e else d

/-- The line is fetched from DRAM with its poison and put into a slot (R121, R126). -/
def State.lineFetch (s : State) (e n : Nat) (rest : List Nat) : State :=
  let d := s.dev
  let r := d.dramLine s.mem (if d.on .ENG_BOB_STAT_LOADING e then 0x0E else 0x01) (d.rg .ENG_STR_BASE_LINE e + n)
  let slot := (d.eng e).slotFor n
  let s := State.storeWords { s with dev := r.2.2 } (bobMem e + 256 * slot) r.1 r.2.1
  s.onDev (fun d => (d.modEng e (fun x => { x with reqs := rest, lines := x.lines ++ [(n, slot)] })).lineIn e n)

/-- BOBBIN_LINE_ARRIVAL: the oldest requested line arrives. A row that missed its deadline before has ended the burst, and
the line is discarded (R128). -/
def State.lineArrival (s : State) (e : Nat) : State :=
  let s := s.onDev (fun d => d.overdue e d.tick)
  match (s.dev.eng e).reqs with
  | [] => s
  | n :: rest => if s.dev.dramPath (s.dev.rg .ENG_STR_BASE_LINE e + n) = .waits then s else s.lineFetch e n rest

/-! ## The host's window (R123) -/

/-- BOBBIN_WINDOW_WRITE: bytes at offset `off` of the window; accepted in RESIDENT mode while idle. -/
def State.windowWrite (s : State) (e off : Nat) (l : List Nat) (h : Wr) : State :=
  if s.dev.resident e && !s.dev.streamBusy e then s.writeBytes 0x07 (bobMem e + off % 65536) (l.take (65536 - off % 65536)) h
  else s.onDev (·.st .ENG_BOB_STAT_WREJ e 1)

/-- A command that writes engine state needs the cluster's domain on (R391). -/
def State.onEng (s : State) (e : Nat) (g : State → State) : State :=
  if s.dev.domOn (domK (e / 16)) then g s else s.onDev (·.bump .PWR_ACCREJ_COUNT 0 1)

/-- STREAM_REGISTER_WRITE. -/
def execStreamRegisterWrite (e : EngId) (off size data : Nat) (s : State) : Answer :=
  .next (s.onDev (fun d => d.engWrite e (·.streamWrite e off size data)))

/-- BOBBIN_LOAD: a write of ENG_STR_CTRL with LOAD = 1; the other bits are those of `ctrl`. -/
def execBobbinLoad (e : EngId) (ctrl : BitVec 32) (s : State) : Answer :=
  .next (s.onDev (fun d => d.engWrite e (·.strCtrl e (setBits ctrl.toNat 8 2 1))))

/-- BOBBIN_HOSTFILL: a write of ENG_STR_CTRL with HOSTFILL = 1. -/
def execBobbinHostfill (e : EngId) (ctrl : BitVec 32) (s : State) : Answer :=
  .next (s.onDev (fun d => d.engWrite e (·.strCtrl e (setBits ctrl.toNat 8 2 2))))

/-- BOBBIN_WINDOW_WRITE. -/
def execBobbinWindowWrite (e : EngId) (off : Nat) (bytes : List Byte) (ep : Bool) (s : State)
    (dup : Bool := false) : Answer :=
  .next (s.onEng e (·.windowWrite e off (bytes.map (·.toNat)) { ep := ep, dup := dup }))

/-- BOBBIN_REFILL_REQUEST. -/
def execBobbinRefillRequest (c : CluId) (s : State) : Answer := .next (s.onDev (·.refillRequest c))

/-- BOBBIN_LINE_ARRIVAL. -/
def execBobbinLineArrival (e : EngId) (s : State) : Answer :=
  .next (if s.dev.domOn (domK (e / 16)) then s.lineArrival e else s)

end Sys2Proof.Machine
end

