-- ==== Sys2Proof/Machine/WaitInstr.lean ====
section
/-!
DEFINITION. Time reads, the waits and event control (classes 0x7, 0x8 and 0xA, R224, R225, R228, R230).
-/

namespace Sys2Proof.Machine

/-- TRD RD, f. -/
def Dev.bodyTrd : Body := fun _ d e w =>
  let v := if bitOf (iMod w) 0 then d.nowFrac % 65536 + d.time.gen * 2 ^ 16 + d.quality * 2 ^ 24 else d.nowNs
  (d.setReg e (iRd w) v).finish e

/-- The deadline a wait of `max` µs keeps in PROG0: 0 for no limit (R224). -/
def Dev.deadline (d : Dev) (mx : Nat) : Nat := if mx = 0 then 0 else (d.nowNs + 1000 * mx) % 2 ^ 64

/-- Start a wait, its deadline in PROG0; resumed, it keeps PROG0 (R199, R224). -/
def Dev.startWait (d : Dev) (e w : Nat) : Dev :=
  (if (d.eng e).resumed then d else d.setProg e 0 (d.deadline (iImm w))).begin e w

/-- The end of a wait: a wait with r = 1 consumes its row once (R224); it holds on while the line of its row is absent. -/
def Dev.waitOver (d : Dev) (m : List Host.Cell) (e w : Nat) : Dev :=
  let r := if bitOf (iMod w) 5 then d.consumeRow m e else (true, d)
  if r.1 then (r.2.resumeIssue e).finish e else r.2

/-- TWAIT RS, max, r: a target already reached ends it at once with CARRY = 1 (R225). -/
def Dev.bodyTwait : Body := fun m d e w =>
  let fresh := !(d.eng e).resumed
  let d := if fresh then (d.setProg e 1 (d.reg e (iRs w))).setProg e 2 d.time.gen else d
  let d := d.startWait e w
  if fresh && decide (d.prog e 1 ≤ d.nowNs) then (d.setZC e 0 1).waitOver m e w else d

/-- SWAIT max, r. -/
def Dev.bodySwait : Body := fun _ d e w => d.startWait e w
/-- TRGW max, r. -/
def Dev.bodyTrgw : Body := fun _ d e w => d.startWait e w
/-- EVWAIT max, r. -/
def Dev.bodyEvwait : Body := fun _ d e w => d.startWait e w

/-- The wait ends, on its condition or by its limit (R224, R225). -/
def Dev.waitDone (d : Dev) (m : List Host.Cell) (e w : Nat) (ev : Option Nat) (byLimit : Bool) : Dev :=
  let d := match ev with | some k => if byLimit then d else d.clearEv e k | none => d
  let d := d.st .ENG_FLAGS_ZERO e (b2n byLimit)
  let d := if iCls w = 7 ∧ iOp w = 1 then d.st .ENG_FLAGS_CARRY e 0 else d
  (if byLimit then d.raise e 1 else d).waitOver m e w

/-- The instant at which a wait ends by device time: its target or its limit. -/
def Dev.waitTime (d : Dev) (e w : Nat) : Option Nat :=
  let lim := if d.prog e 0 = 0 then none else some (d.prog e 0)
  if iCls w = 7 ∧ iOp w = 1 then some (lim.elim (d.prog e 1) (min (d.prog e 1))) else lim

/-- A wait ends on its condition, or on its limit with WAIT_TIMEOUT; a time that is still to come is reached now. With
r = 1 the rows of the hold's cycles have issued (R224, R225). -/
def Dev.waitEnd (d : Dev) (m : List Host.Cell) (e : Nat) : Dev :=
  match (d.eng e).act with
  | none => d
  | some w =>
    if (d.eng e).recov.isSome then d
    else match d.waitMet e w, d.waitTime e w with
    | some (true, ev), _ =>
      let d := d.catchUp m e d.tick
      if d.goesOn e then d.waitDone m e w ev false else d
    | some (false, ev), some t =>
      let t := d.tickOfNs t
      let d := (d.catchUp m e t).advanceTo t
      if d.goesOn e then d.waitDone m e w ev (!(d.waitMet e w).any (·.1)) else d
    | _, _ => d

/-- EI. -/
def Dev.bodyEi : Body := fun _ d e _ => (d.st .ENG_ESTAT_IE e 1).finish e
/-- DI. -/
def Dev.bodyDi : Body := fun _ d e _ => (d.st .ENG_ESTAT_IE e 0).finish e
/-- EVCLR k leaves an event that becomes pending in the same cycle pending (R230). -/
def Dev.bodyEvclr : Body := fun _ d e w =>
  let now := (d.eng e).evFrom.any (fun p => p.k == iMod w && cycleOf p.arose == cycleOf d.tick)
  (if now then d else d.clearEv e (iMod w)).finish e
/-- EVEN RS: bit 7 stays 1. -/
def Dev.bodyEven : Body := fun _ d e w => (d.st .ENG_EV_EN_EN e (d.reg e (iRs w) % 2 ^ 16 ||| 0x80)).finish e

def execTrd (e : EngId) (s : State) : Answer := .next (s.onDev (fun d => d.issue s.mem e 7 0 Dev.bodyTrd))
def execTwait (e : EngId) (s : State) (n : Nat := 0) : Answer :=
  .next (s.onDev (fun d => d.issueRun s.mem e 7 1 n Dev.bodyTwait))
def execSwait (e : EngId) (s : State) (n : Nat := 0) : Answer :=
  .next (s.onDev (fun d => d.issueRun s.mem e 7 2 n Dev.bodySwait))
def execTrgw (e : EngId) (s : State) (n : Nat := 0) : Answer :=
  .next (s.onDev (fun d => d.issueRun s.mem e 8 1 n Dev.bodyTrgw))
def execEvwait (e : EngId) (s : State) (n : Nat := 0) : Answer :=
  .next (s.onDev (fun d => d.issueRun s.mem e 10 4 n Dev.bodyEvwait))
def execEi (e : EngId) (s : State) : Answer := .next (s.onDev (fun d => d.issue s.mem e 10 0 Dev.bodyEi))
def execDi (e : EngId) (s : State) : Answer := .next (s.onDev (fun d => d.issue s.mem e 10 1 Dev.bodyDi))
def execEvclr (e : EngId) (s : State) : Answer := .next (s.onDev (fun d => d.issue s.mem e 10 2 Dev.bodyEvclr))
def execEven (e : EngId) (s : State) : Answer := .next (s.onDev (fun d => d.issue s.mem e 10 3 Dev.bodyEven))

/-- WAIT_END. -/
def execWaitEnd (e : EngId) (s : State) : Answer := .next (s.onDev (fun d => d.waitEnd s.mem e))

end Sys2Proof.Machine
end

