-- ==== Sys2Proof/Machine/TrigInstr.lean ====
section
/-!
DEFINITION. Tacks, triggers, acquisition arms and converter instructions with their pin-aligned actions; tie beats
(R68, R97, R198, R226 to R229).
-/

namespace Sys2Proof.Machine

/-! ## Tacks and triggers (R226 to R228) -/

/-- Write the tack record of tick `t`: to the tack queue, and to the units that record the engine's events. -/
def Dev.tack (d : Dev) (e v t : Nat) (norow issue : Bool) : Dev :=
  let r := d.stampAt t (e % 128 + v % 2 ^ 16 * 2 ^ 7 + b2n norow * 2 ^ 23 + b2n issue * 2 ^ 24)
  let x := d.eng e
  let d := if x.tacks.length < 16 then d.setEng e { x with tacks := x.tacks ++ [(r, t)] }
    else (d.st .ENG_TACK_STAT_OVF e 1).logEv 0x10 0x13 e 0
  d.acqEvent e r t

/-- A pulse on line ETk at tick `t`: ETRIG conditions, and a record for the units that record the engine's events. -/
def Dev.pulse (d : Dev) (e k t : Nat) : Dev :=
  (d.acqPulse e k t).acqEvent e (d.stampAt t (e % 128 + k % 16 * 2 ^ 7 + 2 ^ 25)) t

/-- TACK v, m. -/
def Dev.bodyTack : Body := fun _ d e w =>
  let v := bitsOf (iImm w) 0 16
  (if bitOf (iMod w) 0 then d.tack e v (d.execCycle e) false true else d.anchor e (.tack v)).finish e

/-- TRIG k, m. -/
def Dev.bodyTrig : Body := fun _ d e w =>
  let k := bitsOf (iMod w) 0 4
  (if bitOf (iMod w) 4 then d.pulse e k (d.execCycle e) else d.anchor e (.trig k)).finish e

/-- ACQARM u: a unit that is armed already is left as it is. -/
def Dev.bodyAcqarm : Body := fun _ d e w => (d.acqArm (iMod w) (some e)).finish e
/-- AWGS g, e. -/
def Dev.bodyAwgs : Body := fun _ d e w => (d.anchor e (.awgs (iMod w) (bitsOf (iImm w) 0 12))).finish e
/-- AWGP g. -/
def Dev.bodyAwgp : Body := fun _ d e w => (d.anchor e (.awgp (iMod w))).finish e
/-- AWGJ g, e, j. -/
def Dev.bodyAwgj : Body := fun _ d e w =>
  (d.anchor e (.awgj (bitsOf (iMod w) 0 3) (bitsOf (iImm w) 0 12) (bitOf (iMod w) 3))).finish e
/-- DDCF d, RS. -/
def Dev.bodyDdcf : Body := fun _ d e w => (d.anchor e (.ddcf (iMod w) (d.reg e (iRs w) % 2 ^ 48))).finish e

/-- The cycle, within 8 of the anchor row's instant, in which a converter request reaches its unit: left open (R229). -/
def Dev.reach (d : Dev) (t : Nat) : Nat × Dev := let n := d.freeNat; (cycleOf t + n.1 % 9 * cyc, n.2)

/-- A pin-aligned action of engine `e` takes place at tick `t`. A converter request is sent by the engine that holds the
unit's grant (R295). -/
def Dev.palAct (d : Dev) (m : List Host.Cell) (e t : Nat) (norow : Bool) : Pal → Dev
  | .lvl pd f => d.febPush pd (.engine e) f
  | .tack v => d.tack e v t norow false
  | .trig k => d.pulse e k t
  | .awgs g n =>
    if d.on .AWG_CTRL_GEN g && d.rg .AWG_CTRL_GENG g == e then let r := d.reach t; r.2.awgStart m g n r.1 else d
  | .awgp g =>
    if d.on .AWG_CTRL_GEN g && d.rg .AWG_CTRL_GENG g == e then let r := d.reach t; (r.2.playTo m d.tick).awgRequest g .stop r.1 else d
  | .awgj g n j =>
    if d.on .AWG_CTRL_GEN g && d.rg .AWG_CTRL_GENG g == e then let r := d.reach t; (r.2.playTo m d.tick).awgRequest g (.jump n j) r.1 else d
  | .ddcf c f =>
    if d.on .DDC_CTRL_GEN c && d.rg .DDC_CTRL_GENG c == e then let r := d.reach t; r.2.ddcTune c f r.1 else d

/-- PIN_ALIGNED_ACTION: the oldest action due takes place; a second TRIG on one line with the same anchor row gives no
second pulse (R198, R228). -/
def Dev.palNext (d : Dev) (m : List Host.Cell) (e : Nat) : Dev :=
  match (d.eng e).palDue with
  | [] => d
  | (a, t, norow) :: rest =>
    let rest := match a with
      | .trig _ => rest.filter (fun p => p != (a, t, norow))
      | _ => rest
    (d.modEng e (fun x => { x with palDue := rest })).palAct m e t norow a

def execTack (e : EngId) (s : State) : Answer := .next (s.onDev (fun d => d.issue s.mem e 7 3 Dev.bodyTack))
def execTrig (e : EngId) (s : State) : Answer := .next (s.onDev (fun d => d.issue s.mem e 8 0 Dev.bodyTrig))
def execAcqarm (e : EngId) (s : State) : Answer := .next (s.onDev (fun d => d.issue s.mem e 8 2 Dev.bodyAcqarm))
def execAwgs (e : EngId) (s : State) : Answer := .next (s.onDev (fun d => d.issue s.mem e 9 0 Dev.bodyAwgs))
def execAwgp (e : EngId) (s : State) : Answer := .next (s.onDev (fun d => d.issue s.mem e 9 1 Dev.bodyAwgp))
def execAwgj (e : EngId) (s : State) : Answer := .next (s.onDev (fun d => d.issue s.mem e 9 2 Dev.bodyAwgj))
def execDdcf (e : EngId) (s : State) : Answer := .next (s.onDev (fun d => d.issue s.mem e 9 3 Dev.bodyDdcf))

/-- PIN_ALIGNED_ACTION. -/
def execPinAlignedAction (e : EngId) (s : State) : Answer := .next (s.onDev (fun d => d.palNext s.mem e))

/-! ## Tie beats (R68, R97, R353) -/

/-- What a member gives for beat `b`: the address of its first instruction in it, else of the next to issue. -/
def Dev.beatPcOf (d : Dev) (e b : Nat) : Nat :=
  match ((d.eng e).beatPc.filter (fun p => b ≤ p.1)).reverse.head? with
  | some p => p.2
  | none => d.rg .ENG_PC_ADDR e

/-- The period entry of the row a member issues at the start of beat `b`, or next after it; of a row still to issue, the
entry of the set in effect (R97). -/
def Dev.beatPerOf (d : Dev) (m : List Host.Cell) (e b : Nat) : Nat :=
  (((d.eng e).beatPer.filter (fun p => b ≤ p.1)).reverse.head?.map (·.2)).getD
    (leNat (memRead m (perMem e (d.rg .ENG_TS e)) 8))

/-- FAIL (MATCH) at the pins of engine `e` by tick `t`: what is branch-visible, then the changes on their way. -/
def Dev.pinFlags (d : Dev) (e t : Nat) : Bool × Bool :=
  let l := (d.eng e).flagQ.filter (fun c => !c.group && c.due ≤ t + 40 * cyc)
  (l.foldl (fun b c => match c.kind with | .clear _ => false | .fail => true | .row .. => b) (d.on .ENG_FLAGS_FAIL e),
   l.foldl (fun b c => match c.kind with
     | .clear m => if m then false else b
     | .fail => b
     | .row _ (some v) => v
     | .row _ none => b) (d.on .ENG_FLAGS_MATCH e))

/-- The TIE message of group `g` for the beat that starts at tick `t0`: FAIL by OR and MATCH by AND over the members
here (R353). -/
def Dev.tieMsg (d : Dev) (m : List Host.Cell) (l : List Nat) (g b t0 : Nat) : SeamMsg :=
  let bits := fun (p : Nat → Bool) => ((List.range 16).map (fun i => b2n (p i) * 2 ^ i)).foldl (· + ·) 0
  let e := l.headD 0
  .tie d.pos 0 g (b % 64) (bits (fun i => l.any (fun x => (d.pinFlags x (t0 + i * cyc)).1)))
    (bits (fun i => l.all (fun x => (d.pinFlags x (t0 + i * cyc)).2))) (d.beatPcOf e b) (d.beatPerOf m e b % 2 ^ 40)

/-- Whether every position with members of group `g` has been heard for beat `b` within the last beats (R70, R357). -/
def Dev.tieHeard (d : Dev) (g b : Nat) : Bool :=
  d.far.all (fun f => f.grp != g
    || d.tieGot.any (fun q => q.1 == g && q.2.1 == f.pos && q.2.2.1 == b % 64 && decide (d.tick < q.2.2.2 + 176 * cyc)))

/-- TIE_BEAT of group `g`: one tie latency after the next beat start due, the members here compare program addresses and
periods, but for one that a fault already ends (R38); a group across devices sends its TIE message for the beat just
ended, and ends when the message of the compared beat of a position is missing (R68, R70, R97, R353, R357). -/
def Dev.tieBeat (d : Dev) (m : List Host.Cell) (g : Nat) : Dev :=
  let l := (List.range 128).filter (fun e => d.tied e && d.grp e == g && d.runs e)
  match l with
  | [] => d
  | e :: _ =>
    let lat := d.tieLat e
    let off := d.coarseAt 0 % 64 * 1000
    let len := 16 * cyc
    let k := ceilDiv (d.tick + off - lat * cyc) len
    let d := d.advanceTo (k * len + lat * cyc - off)
    let b := (d.coarseAt (d.tick - lat * cyc)) / 64
    let live := l.filter (fun x => match (d.eng x).ending with | some o => o.reason == 0 | none => true)
    let same := live.all (fun x => live.all (fun y =>
      d.beatPcOf x b == d.beatPcOf y b && perOf (d.beatPerOf m x b) == perOf (d.beatPerOf m y b)))
    let d := if same then d else d.endGroup e rDIVERGE
    if d.scope e = 3 ∧ d.runs e then
      let b1 := d.coarseAt d.tick / 64 - 1
      let d := d.seamPost none (d.tieMsg m l g b1 (d.tick - len))
      if (d.eng e).beatPc.any (fun q => q.1 < b) && !d.tieHeard g b then d.endGroup e rTIELOST else d
    else d

/-- TIE_BEAT. -/
def execTieBeat (g : GrpId) (s : State) : Answer := .next (s.onDev (·.tieBeat s.mem g))

end Sys2Proof.Machine
end

