-- ==== Sys2Proof/Machine/TimeSync.lean ====
section
/-!
DEFINITION. Device time: its sources, PTP, TICKSYNC, Seam time, REFCLK and re-bases (R21, R22, R306 to R321).
-/

namespace Sys2Proof.Machine

/-! ## Quality and re-base -/

/-- A change of the quality raises vector 198, an event-log entry, and TIMESET (R309, R414, R476, R499). -/
def Dev.timeStep (d : Dev) (g : Dev → Dev) : Dev :=
  let q := d.quality
  let d := g d
  let d := d.ready .HOST_READY_TIMESET (b2n (d.quality != 4))
  if d.quality = q then d else (d.irq 198).logEv 0x03 0x11 0 d.quality

def Dev.modTime (d : Dev) (g : Time → Time) : Dev := { d with time := d.time.change d.tick g }

/-- Targets of waits in progress move with a re-base (R225, R321). -/
def Dev.carryWaits (d : Dev) (delta : Int) : Dev :=
  (List.range 128).foldl (fun d e => match (d.eng e).act with
    | none => d
    | some w => d.carryWait e w delta) d

/-- A time in 1/65,536 ns moved by `delta`. -/
def moveT (t : Nat) (delta : Int) : Nat := unsigned 80 ((t : Int) + delta)

/-- What a unit holds in device time moves with a re-base, but for the samples of a capture that has its trigger (R265,
R273). -/
def Acq.carry (x : Acq) (delta : Int) : Acq :=
  let mv := fun (t : Nat) => moveT t delta
  { x with
    targets := x.targets.map (fun (p : Nat × Nat) => (p.1, mv p.2))
    conds := x.conds.map (fun (c : AcqCond) => { c with t := mv c.t })
    levels := x.levels.map (fun (p : Nat × AcqLevel) => (p.1, { p.2 with last := p.2.last.map (fun q => (q.1, mv q.2.1, q.2.2)) }))
    samps := if x.trig.isSome then x.samps else x.samps.map (fun (s : AcqSample) => { s with t := mv s.t }) }

/-- The acquisition units, the LEMC boundaries of the converter links and the receive chains' outputs on their way move with a
re-base (R265, R273, R281). -/
def Dev.carryAcq (d : Dev) (delta : Int) : Dev :=
  { (List.range 16).foldl (fun d u => d.modAcq u (·.carry delta)) d with
    links := d.links.map (fun (p : Nat × Link) => (p.1, { p.2 with tl := moveT p.2.tl delta }))
    ddcs := d.ddcs.map (fun (p : Nat × Ddc) => (p.1, { p.2 with outs := p.2.outs.map (fun o => { o with t := moveT o.t delta }) })) }

/-- Armed sews move with a re-base (R321). -/
def Dev.carrySews (d : Dev) (delta : Int) : Dev :=
  { d with sews := d.sews.map (fun (p : Nat × Sew) => (p.1, { p.2 with target := moveT p.2.target delta })) }

/-- Refresh debts count device time that passes, not a step of it (R378, R321). -/
def Dev.carryDebts (d : Dev) (delta : Int) : Dev :=
  { d with drcs := d.drcs.map (fun (p : Nat × Drc) => (p.1, { p.2 with mark := p.2.mark.map (· + delta) })) }

/-- The generation after `g` (R320). -/
def nextGen (g : Nat) : Nat := if g = 255 then 1 else g + 1

/-- Held sew messages keep their distance from the targets they were sent for (R321, R329; log 84). -/
def Dev.carryMsgs (d : Dev) (delta : Int) : Dev :=
  { d with sewMsg := d.sewMsg.map (fun (m : SewMsg) => { m with origin := moveT (m.origin * 65536) delta / 65536 }) }

/-- Device time becomes `v` (1/65,536 ns) in generation `gen` from the next engine cycle on, locked to source `k` (R320,
R321). -/
def Dev.rebaseTo (d : Dev) (v : Int) (gen k : Nat) : Dev :=
  let d := d.advanceTo (d.tick / cyc * cyc + cyc)
  let old := d.time.frac d.tick
  let delta := v - old
  let from_ := d.time.gen
  let d := d.modTime (fun t => { t with
    sub := v * subUnit, slew := 0, gen := gen, delta := delta, set_ := true, disc := false, locked := k, moved := t.moved + delta
    movedAt := (gen, t.moved + delta) :: t.movedAt.filter (fun p => p.1 != gen) })
  let d := (d.st .TIME_RB_DNS_DNS 0 (unsigned 64 (delta / 65536))).st .TIME_RB_DFR_DFRAC 0 (delta % 65536).toNat
  let d := d.st .TIME_RB_DFR_FROMGEN 0 from_
  let d := ((((d.carryWaits delta).carryAcq delta).carrySews delta).carryMsgs delta).carryDebts delta
  let d := d.st .TIME_RB_TS_RECORD 0 (d.stamp 0)
  (d.irq 198).logEv 0x03 0x10 gen 0

/-- Why a REBASE command is refused: true when some case of R320 lets it act. -/
def Dev.rebaseOk (d : Dev) : Bool :=
  let src := d.rg .TIME_CTRL_SRC 0
  src == 0 || src == 3 || d.quality == 5

/-- REBASE accepted: the supplied value when SRC = NONE, else the offset last measured (R320). -/
def Dev.rebase (d : Dev) (ns frac : Nat) : Dev :=
  let src := d.rg .TIME_CTRL_SRC 0
  if src = 0 ∨ src = 3 then
    d.rebaseTo (ns * 65536 + frac % 65536) (nextGen d.time.gen) 0
  else if d.quality = 5 then
    let o := signed 64 (d.rg .TIME_OFFS_OFFS 0)
    let d := d.advanceTo (d.tick / cyc * cyc + cyc)
    d.rebaseTo (d.time.frac d.tick + o) (nextGen d.time.gen) (if src = 1 then 1 else 2)
  else d

/-! ## The servo (R315) -/

/-- Discontinuity threshold in 1/65,536 ns (R333). -/
def Dev.dthr (d : Dev) : Int := max 1000 (d.rg .TIME_DTHR_NS 0) * 65536

/-- A measured offset, source less device, under source code `k` (1 PTP, 2 Seam). -/
def Dev.servo (d : Dev) (k : Nat) (off : Int) : Dev :=
  let d := d.st .TIME_OFFS_OFFS 0 (unsigned 64 off)
  if d.time.refLost then d
  else if d.dthr < off.natAbs then d.modTime (fun t => { t with slew := 0, disc := true })
  else
    let f := signed 32 (unsigned 32 (Config.servoRate d.free off))
    let d := { d with free := d.free + 1 }
    (d.modTime (fun t => { t with slew := off, freq := f, disc := false, locked := k })).st .TIME_RATE_RATE 0 (unsigned 32 f)

/-- An offset of the source: the first one re-bases a device whose time is UNSET (R320). -/
def Dev.offset (d : Dev) (k : Nat) (off : Int) : Dev :=
  if d.quality = 4 ∧ !d.time.refLost then
    let d := d.st .TIME_OFFS_OFFS 0 (unsigned 64 off)
    let d := d.advanceTo (d.tick / cyc * cyc + cyc)
    d.rebaseTo (d.time.frac d.tick + off) (nextGen d.time.gen) k
  else d.servo k off

/-! ## PTP (R313 to R315) -/

/-- Whether Ethernet port `p` carries messages (R339). -/
def Dev.ethUp (d : Dev) (p : Nat) : Bool := d.domOn domNet && d.on .LNK_LSTAT_BLOCK (8 + p)

/-- A receipt stamp at the Ethernet ball, now: exact but for the residual of R314, which is left open (log 2). -/
def Dev.ptpStamp (d : Dev) : Int × Dev :=
  let r := if d.ethSlow.contains (d.rg .TIME_CTRL_PORT 0) then 131072 else 52428
  let n := d.freeNat
  ((d.nowFrac : Int) + (n.1 % (2 * r + 1) : Nat) - (r : Nat), n.2)

/-- Whether a received message concerns the clock: its port and its domain. -/
def Dev.ptpMine (d : Dev) (port domain : Nat) : Bool :=
  d.rg .TIME_CTRL_PORT 0 == port && d.rg .TIME_CTRL_DOMAIN 0 == domain && d.ethUp port

/-- Whether the clock is a slave that follows `src`. -/
def Dev.ptpFollows (d : Dev) (src : Nat) : Bool :=
  d.rg .TIME_CTRL_SRC 0 == 1 && !d.on .TIME_CTRL_MASTER 0 && (match d.time.master with | some m => m.1 == src | none => false)

/-- Mean path delay and asymmetry in 1/65,536 ns. -/
def Dev.mpd (d : Dev) : Int := (d.rg .PTP_MPD_MPD 0 : Int) * 256
def Dev.asym (d : Dev) : Int := signed 32 (d.rg .PTP_ASYM_ASYM 0) * 256

/-- A Sync whose origin time `t1`, corrections added, and receipt time `t2` are known. -/
def Dev.ptpOffset (d : Dev) (t1 t2 : Int) : Dev :=
  let d := d.modTime (fun t => { t with last12 := some (t1, t2), sync := none })
  d.offset 1 (t1 + d.mpd + d.asym - t2)

/-- A mean path delay is measured. -/
def Dev.setMpd (d : Dev) (v : Int) : Dev := d.st .PTP_MPD_MPD 0 (unsigned 32 (v / 256))

/-- PTP_SYNC: origin time `t1` in 1/65,536 ns when one-step. -/
def Dev.ptpSync (d : Dev) (h : PtpHead) (twoStep : Bool) (t1 : Nat) : Dev :=
  if d.ptpMine (b2n h.port) h.domain.toNat && d.ptpFollows h.src.toNat then
    let s := d.ptpStamp
    let d := s.2.modTime (fun t => { t with lastMsg := d.tick })
    if twoStep then d.modTime (fun t => { t with sync := some ⟨h.src.toNat, h.seq.toNat, s.1, h.corr, 0⟩ })
    else d.ptpOffset (t1 + h.corr) s.1
  else d

/-- PTP_FOLLOW_UP. -/
def Dev.ptpFollowUp (d : Dev) (h : PtpHead) (t1 : Nat) : Dev :=
  match d.time.sync with
  | some s =>
    if d.ptpMine (b2n h.port) h.domain.toNat && d.ptpFollows h.src.toNat && s.src == h.src.toNat && s.seq == h.seq.toNat then
      d.ptpOffset (t1 + s.corr + h.corr) s.at_
    else d
  | none => d

/-- PTP_DELAY_REQ: a master answers with the receipt time. Kinds of message sent: 0 Sync, 1 Follow_Up, 2 Delay_Req,
3 Delay_Resp, 4 Pdelay_Req, 5 Pdelay_Resp, 6 Pdelay_Resp_Follow_Up, 7 Announce. -/
def Dev.ptpDelayReq (d : Dev) (h : PtpHead) : Dev :=
  if d.ptpMine (b2n h.port) h.domain.toNat && d.on .TIME_CTRL_MASTER 0 && !d.on .TIME_CTRL_P2P 0 then
    let s := d.ptpStamp
    s.2.emit (.ptp (b2n h.port) 3 h.seq.toNat s.1 h.corr)
  else d

/-- PTP_DELAY_RESP: `t4` is the master's receipt time. -/
def Dev.ptpDelayResp (d : Dev) (h : PtpHead) (t4 : Nat) : Dev :=
  match d.time.dreq, d.time.last12 with
  | some (q, t3), some (t1, t2) =>
    if d.ptpMine (b2n h.port) h.domain.toNat && d.ptpFollows h.src.toNat && q == h.seq.toNat && !d.on .TIME_CTRL_P2P 0 then
      (d.modTime (fun t => { t with dreq := none })).setMpd (((t2 - t1) + (t4 - h.corr - t3)) / 2)
    else d
  | _, _ => d

/-- PTP_PDELAY_REQ: answered in one step, the turn-around in the correction, or in two. -/
def Dev.ptpPdelayReq (d : Dev) (h : PtpHead) : Dev :=
  if d.ptpMine (b2n h.port) h.domain.toNat && d.on .TIME_CTRL_P2P 0 then
    let s := d.ptpStamp
    let r := s.2.freeNat
    let turn : Int := (r.1 % 2 ^ 32 : Nat)
    if d.on .TIME_CTRL_TWOSTEP 0 then
      (r.2.emit (.ptp (b2n h.port) 5 h.seq.toNat s.1 0)).emit (.ptp (b2n h.port) 6 h.seq.toNat (s.1 + turn) h.corr)
    else r.2.emit (.ptp (b2n h.port) 5 h.seq.toNat 0 (h.corr + turn))
  else d

/-- PTP_PDELAY_RESP: `t2` is the peer's receipt time, of use when the answer is two-step. -/
def Dev.ptpPdelayResp (d : Dev) (h : PtpHead) (twoStep : Bool) (t2 : Nat) : Dev :=
  match d.time.pdreq with
  | some (q, t1) =>
    if d.ptpMine (b2n h.port) h.domain.toNat && d.on .TIME_CTRL_P2P 0 && q == h.seq.toNat then
      let s := d.ptpStamp
      if twoStep then s.2.modTime (fun t => { t with pdResp := some ⟨h.src.toNat, q, s.1, h.corr, t2⟩ })
      else (s.2.modTime (fun t => { t with pdreq := none })).setMpd ((s.1 - t1 - h.corr) / 2)
    else d
  | none => d

/-- PTP_PDELAY_RESP_FOLLOW_UP: `t3` is the time the peer's answer left. -/
def Dev.ptpPdelayFollow (d : Dev) (h : PtpHead) (t3 : Nat) : Dev :=
  match d.time.pdResp, d.time.pdreq with
  | some s, some (q, t1) =>
    if d.ptpMine (b2n h.port) h.domain.toNat && s.src == h.src.toNat && q == h.seq.toNat then
      (d.modTime (fun t => { t with pdResp := none, pdreq := none })).setMpd
        (((s.at_ - t1) - (t3 - s.peer) - s.corr - h.corr) / 2)
    else d
  | _, _ => d

/-- The order of the best master clock algorithm on data sets. -/
def lexLt : List Nat → List Nat → Bool
  | a :: l, b :: r => a < b || (a == b && lexLt l r)
  | _, _ => false

/-- A data set in that order. -/
def announceKey (a : PtpAnnounce) (src : Nat) : List Nat :=
  [a.prio1.toNat, a.cls.toNat, a.accuracy.toNat, a.variance.toNat, a.prio2.toNat, a.gm.toNat, a.steps.toNat, src]

/-- PTP_ANNOUNCE: a better clock, or the one followed, becomes the master. -/
def Dev.ptpAnnounce (d : Dev) (h : PtpHead) (a : PtpAnnounce) : Dev :=
  if d.ptpMine (b2n h.port) h.domain.toNat && d.rg .TIME_CTRL_SRC 0 == 1 && !d.on .TIME_CTRL_MASTER 0 then
    let k := announceKey a h.src.toNat
    let take := match d.time.master with
      | none => true
      | some m => m.1 == h.src.toNat || lexLt k m.2
    if take then
      let d := if d.time.master.isNone then d.modTime (fun t => { t with lastMsg := d.tick }) else d
      (d.modTime (fun t => { t with
        master := some (h.src.toNat, k), lastAnn := d.tick
        sync := if t.master.all (fun m => m.1 == h.src.toNat) then t.sync else none })).st .PTP_GMID_ID 0 a.gm.toNat
    else d
  else d

/-- PTP_MESSAGE_SEND: an interval expires and the clock sends the message, where its role has it send one. -/
def Dev.ptpSend (d : Dev) (k : PtpSend) : Dev :=
  let p := d.rg .TIME_CTRL_PORT 0
  let q := d.time.seq % 65536
  let on := d.ethUp p
  let master := d.on .TIME_CTRL_MASTER 0
  let step := fun (d : Dev) => d.modTime (fun t => { t with seq := t.seq + 1 })
  match k with
  | .sync =>
    if on && master then
      let s := d.ptpStamp
      if d.on .TIME_CTRL_TWOSTEP 0 then step ((s.2.emit (.ptp p 0 q 0 0)).emit (.ptp p 1 q s.1 0))
      else step (s.2.emit (.ptp p 0 q s.1 0))
    else d
  | .announce => if on && master then step (d.emit (.ptp p 7 q 0 0)) else d
  | .delayReq =>
    if on && !master && !d.on .TIME_CTRL_P2P 0 && d.rg .TIME_CTRL_SRC 0 == 1 && d.time.master.isSome then
      let s := d.ptpStamp
      step ((s.2.modTime (fun t => { t with dreq := some (q, s.1) })).emit (.ptp p 2 q s.1 0))
    else d
  | .pdelayReq =>
    if on && d.on .TIME_CTRL_P2P 0 then
      let s := d.ptpStamp
      step ((s.2.modTime (fun t => { t with pdreq := some (q, s.1), pdResp := none })).emit (.ptp p 4 q s.1 0))
    else d

/-- 2^n seconds in ticks, for a logarithmic interval in 8-bit two's complement. -/
def logTicks (n : Nat) : Nat :=
  match signed 8 n with
  | .ofNat k => 4000000000000 * 2 ^ k
  | .negSucc k => 4000000000000 / 2 ^ (k + 1)

/-- PTP_SOURCE_TIMEOUT: four sync intervals without a Sync, or the announce receipt timeout (R315). -/
def Dev.ptpTimeout (d : Dev) : Dev :=
  if d.rg .TIME_CTRL_SRC 0 ≠ 1 ∨ d.time.master.isNone then d
  else
    let ts := d.time.lastMsg + 4 * logTicks (d.rg .PTP_INTV_SYNC 0)
    let ta := d.time.lastAnn + d.rg .PTP_INTV_ATO 0 * logTicks (d.rg .PTP_INTV_ANN 0)
    let d := d.advanceTo (min ts ta)
    d.modTime (fun t => { t with locked := 0, slew := 0, sync := none, master := if ta ≤ ts then none else t.master })

/-! ## Sources, TICKSYNC and Seam time (R307, R312, R316, R317) -/

/-- TIME_SOURCE_SELECT: a change of SRC drops the old source. -/
def Dev.srcSelect (d : Dev) (v : Nat) : Dev :=
  if d.rg .TIME_CTRL_SRC 0 = v then d
  else (d.st .TIME_CTRL_SRC 0 v).modTime (fun t => { t with
    locked := 0, slew := 0, master := none, server := none, sync := none, dreq := none, pdreq := none, pdResp := none
    last12 := none, disc := false })

/-- TIME_DEVNUM_WRITE. -/
def Dev.devnumWrite (d : Dev) (v : Nat) : Dev :=
  if (List.range 4).any (fun p => d.on .LNK_SP_CTRL_EN p) then d.st .TIME_DEVNUM_WREJ 0 1 else d.st .TIME_DEVNUM_NUM 0 v

/-- TICKSYNC_EDGE `dt` ticks after now: the first edge with REFCLK valid sets the coarse count, in whole engine cycles; a
later one is checked. -/
def Dev.ticksync (d : Dev) (dt : Nat) : Dev :=
  let d := d.advanceTo (d.tick + dt)
  let c := d.coarseAt d.tick
  let set := fun (d : Dev) => d.modTime (fun t => { t with
    coarse := t.coarse + (40000 - c % 40000) / 4 * 4 % 40000, synced := true, resync := false })
  if !d.time.synced then (if d.time.refLost then d else set d)
  else if c % 40000 = 0 then d.modTime (fun t => { t with resync := if t.refLost then t.resync else false })
  else if d.time.resync then (if d.time.refLost then d else set d)
  else ((d.st .TIME_STAT_TSYNC_ERR 0 1).irq 198).logEv 0x03 0x12 d.time.gen c

/-- SEAM_TIME_SEND: the server of the domain states its time at the present coarse count. -/
def Dev.seamTimeSend (d : Dev) : Dev :=
  if d.on .TIME_CTRL_SERVE 0 && d.rg .TIME_CTRL_SRC 0 != 2 then
    d.seamPost none (.time d.pos 0 (d.rg .TIME_DEVNUM_NUM 0) (d.coarseAt d.tick) d.nowFrac d.time.gen d.quality 0)
  else d

/-- A TIME message of server `srv` (R317): `now` is the server's time at this instant. -/
def Dev.seamTime (d : Dev) (srv gen : Nat) (now : Int) : Dev :=
  let conf := (d.on .TIME_CTRL_SERVE 0 && srv != d.rg .TIME_DEVNUM_NUM 0)
    || (match d.time.server with | some s => s != srv | none => false)
  let d := if conf then (d.st .TIME_STAT_SERVECONF 0 1).irq 198 else d
  let follow := d.rg .TIME_CTRL_SRC 0 == 2 && (match d.time.server with | some s => srv ≤ s | none => true)
  let d := if d.rg .TIME_CTRL_SRC 0 = 2 then d else d.modTime (fun t => { t with server := some (match t.server with
    | some s => min s srv
    | none => srv) })
  if !follow then d
  else
    let d := d.modTime (fun t => { t with server := some srv, lastMsg := d.tick })
    let off := now - d.nowFrac
    if d.time.refLost then d.st .TIME_OFFS_OFFS 0 (unsigned 64 off)
    else if d.quality = 4 ∨ d.time.gen ≠ gen then
      let d := (d.st .TIME_OFFS_OFFS 0 (unsigned 64 off)).advanceTo (d.tick / cyc * cyc + cyc)
      d.rebaseTo (d.time.frac d.tick + off) gen 2
    else d.servo 2 off

/-- SEAM_TIME_TIMEOUT: 10 µs without a message. -/
def Dev.seamTimeout (d : Dev) : Dev :=
  if d.rg .TIME_CTRL_SRC 0 = 2 ∧ d.time.server.isSome then
    (d.advanceTo (d.time.lastMsg + 10000 * cyc)).modTime (fun t => { t with locked := 0, slew := 0, server := none })
  else d

/-- TIME_NOW_READ: the read latches fraction, generation and quality (R310). -/
def Dev.timeNowRead (d : Dev) : Dev :=
  d.modTime (fun t => { t with aux := d.nowFrac % 65536 + t.gen * 2 ^ 16 + d.quality * 2 ^ 24 })

/-! ## REFCLK (R21, R22, R318, R319) -/

/-- REFCLK_LOST, `dt` ticks after now: every running burst ends. DESIGN CHOICE (log 80): of the at most 4 cycles in which
the end reaches the pin side (R21) none pass. -/
def Dev.refLost (d : Dev) (dt : Nat) : Dev :=
  let d := d.advanceTo (d.tick + dt)
  if d.time.refLost then d
  else
    let d := d.modTime (fun t => { t with refLost := true, slew := 0, locked := 0, resync := true })
    let d := (d.ready .HOST_READY_TIMING 0).logEv 0x00 0x15 0 0
    (List.range 128).foldl (fun d e => d.endFault e rREFCLK false) d

/-- REFCLK_RESTORED. -/
def Dev.refBack (d : Dev) : Dev :=
  if d.time.refLost then (d.modTime (fun t => { t with refLost := false })).logEv 0x00 0x16 0 0 else d

/-- PLL_RETURN_COMPLETE: the PLLs are locked to REFCLK. -/
def Dev.pllBack (d : Dev) : Dev := if d.time.refLost then d else d.ready .HOST_READY_TIMING 1

/-- REFCLK_QUALIFY_TIMEOUT: 100 ms after the reference of bring-up without REFCLK, the PLLs lock to the oscillator and
bring-up continues (R413). -/
def Dev.refTimeout (d : Dev) : Dev :=
  if d.on .HOST_READY_TIMING 0 then d
  else
    let d := d.bootErr .HOST_BOOTERR_REFCLK
    d.modTime (fun t => { t with refLost := true })

/-! ## The commands -/

def execRefclkLost (dt : Nat) (s : State) : Answer := .next (s.onDev (fun d => d.timeStep (·.refLost dt)))
def execRefclkRestored (s : State) : Answer := .next (s.onDev (fun d => d.timeStep (·.refBack)))
def execTimeNowRead (s : State) : Answer := .next (s.onDev (·.timeNowRead))
def execTimeDevnumWrite (num : BitVec 10) (s : State) : Answer := .next (s.onDev (·.devnumWrite num.toNat))
def execTimeSourceSelect (src : BitVec 2) (s : State) : Answer := .next (s.onDev (fun d => d.timeStep (·.srcSelect src.toNat)))
def execTicksyncEdge (dt : Nat) (s : State) : Answer := .next (s.onDev (·.ticksync dt))
def execPtpSync (h : PtpHead) (twoStep : Bool) (origin : BitVec 80) (s : State) : Answer :=
  .next (s.onDev (fun d => d.timeStep (·.ptpSync h twoStep origin.toNat)))
def execPtpFollowUp (h : PtpHead) (origin : BitVec 80) (s : State) : Answer :=
  .next (s.onDev (fun d => d.timeStep (·.ptpFollowUp h origin.toNat)))
def execPtpDelayReq (h : PtpHead) (s : State) : Answer := .next (s.onDev (·.ptpDelayReq h))
def execPtpDelayResp (h : PtpHead) (receipt : BitVec 80) (s : State) : Answer :=
  .next (s.onDev (·.ptpDelayResp h receipt.toNat))
def execPtpPdelayReq (h : PtpHead) (s : State) : Answer := .next (s.onDev (·.ptpPdelayReq h))
def execPtpPdelayResp (h : PtpHead) (twoStep : Bool) (receipt : BitVec 80) (s : State) : Answer :=
  .next (s.onDev (·.ptpPdelayResp h twoStep receipt.toNat))
def execPtpPdelayRespFollowUp (h : PtpHead) (left : BitVec 80) (s : State) : Answer :=
  .next (s.onDev (·.ptpPdelayFollow h left.toNat))
def execPtpAnnounce (h : PtpHead) (a : PtpAnnounce) (s : State) : Answer := .next (s.onDev (·.ptpAnnounce h a))
/-- PTP_OTHER_MESSAGE: Management and Signaling messages are discarded (R313). -/
def execPtpOtherMessage (_ : PtpHead) (s : State) : Answer := .next s
def execPtpMessageSend (k : PtpSend) (s : State) : Answer := .next (s.onDev (·.ptpSend k))
def execPtpSourceTimeout (s : State) : Answer := .next (s.onDev (fun d => d.timeStep (·.ptpTimeout)))
def execSeamTimeSend (s : State) : Answer := .next (s.onDev (·.seamTimeSend))
def execSeamTimeTimeout (s : State) : Answer := .next (s.onDev (fun d => d.timeStep (·.seamTimeout)))

end Sys2Proof.Machine
end

