-- ==== Sys2Proof/Machine/Lanes.lean ====
section
/-!
DEFINITION. The lane macro: locks, slip, adaptation and error counts (R336 to R347), and what a change of a lane's lock
means for its converter link or Seam port.
-/

namespace Sys2Proof.Machine

/-- The power domain of lane `n` (R336). -/
def laneDom (n : Nat) : Nat := if n < 8 then domHost else if n < 10 then domNet else if n < 18 then domSeam else domCnv

/-- Whether lane `n` uses its receive half (R337). -/
def laneRx (n : Nat) : Bool := n < 26

def Dev.lane (d : Dev) (n : Nat) : Lane := (d.lanes.get? n).getD {}
def Dev.setLane (d : Dev) (n : Nat) (x : Lane) : Dev := { d with lanes := d.lanes.put n x }

/-! ## Seam ports: state (R350, R358, R359) -/

def Dev.port (d : Dev) (p : Nat) : SeamPort := (d.ports.get? p).getD {}
def Dev.setPort (d : Dev) (p : Nat) (x : SeamPort) : Dev := { d with ports := d.ports.put p x }

/-- Whether a Seam lane serves its port: block lock and no loopback (R345). -/
def Dev.seamLane (d : Dev) (n : Nat) : Bool := d.on .LNK_LSTAT_BLOCK n && d.rg .LNK_LCTRL_LOOP n == 0

/-- Lanes that serve port `p`. -/
def Dev.seamLanes (d : Dev) (p : Nat) : Nat := b2n (d.seamLane (10 + 2 * p)) + b2n (d.seamLane (11 + 2 * p))

/-- A port lost between the send deadline and the decision point of an armed Seam-synchronised sew (R330). -/
def Dev.seamLoss (d : Dev) : Dev :=
  (List.range 16).foldl (fun d g =>
    let t := ((d.sews.get? g).getD {}).target
    let now := d.nowFrac
    if d.rg .SEW_STATUS_STATE g = 1 ∧ d.on .SEW_CFG_SEAMSYNC g ∧ t ≤ now + 2000 * 65536 ∧ now + 1000 * 65536 ≤ t then
      d.st .SEW_STATUS_SEAMLOSS g 1
    else d) d

/-- A state of a Seam port; any change raises vector 199, an entry to HALF is counted (R358, R476). -/
def Dev.spState (d : Dev) (p v : Nat) : Dev :=
  let old := d.rg .LNK_SP_STAT_STATE p
  if old = v then d
  else
    let d := (d.st .LNK_SP_STAT_STATE p v).irq 199
    let d := if v = 3 then d.bump .LNK_SP_HALF_COUNT p 1 else d
    if 2 ≤ old ∧ v < 2 then d.seamLoss else d

/-- A lane of a Seam port changed: with both lanes lost the port is DOWN (R359). -/
def Dev.laneSeam (d : Dev) (n : Nat) : Dev :=
  if n < 10 ∨ 18 ≤ n then d
  else
    let p := (n - 10) / 2
    if 2 ≤ d.rg .LNK_SP_STAT_STATE p ∧ d.seamLanes p = 0 then
      ({ d with seamQ := d.seamQ.del p }.setPort p {}).spState p 0
    else d

/-- A lane's lock or loopback changed: its link or port follows. -/
def Dev.laneChanged (d : Dev) (n : Nat) : Dev := (d.laneLinks n).laneSeam n

/-! ## Locks (R343, R344) -/

/-- Whether lane `n` receives now: it is on, and no boundary test is loaded (R492). -/
def Dev.laneLive (d : Dev) (n : Nat) : Bool := laneRx n && d.domOn (laneDom n) && d.tap.test.isNone

/-- Whether Seam lane `n` sends its own traffic: no PRBS31 in its place, no far-end loopback (R345, R346). -/
def Dev.laneSends (d : Dev) (n : Nat) : Bool := !d.on .LNK_LCTRL_PRBS n && d.rg .LNK_LCTRL_LOOP n != 3

/-- What Ethernet port `p` has come to at its rate, and since when (R339). -/
def Dev.eth (d : Dev) (p : Nat) : Bool × Nat := (d.ethAt.get? p).getD (false, 0)
def Dev.setEth (d : Dev) (p : Nat) (x : Bool × Nat) : Dev := { d with ethAt := d.ethAt.put p x }

/-- The link of an Ethernet lane came up, or went down now (R339). -/
def Dev.ethLink (d : Dev) (n : Nat) : Dev := if n = 8 ∨ n = 9 then d.setEth (n - 8) (true, d.tick) else d

/-- ETH_RATE_FALLBACK: 500 ms at 25GBASE-R without block lock (R339). -/
def Dev.ethFallback (d : Dev) (p : Nat) : Dev :=
  if d.domOn domNet && !d.on .LNK_LSTAT_BLOCK (8 + p) && !d.ethSlow.contains p && !(d.eth p).1 then
    let d := d.advanceTo ((d.eth p).2 + 500000000 * cyc)
    { d with ethSlow := p :: d.ethSlow }.setEth p (false, d.tick)
  else d

/-- ETH_LINK_DOWN_RESTART: a link down for 1 s at the rate it has reached, or at 10GBASE-R, starts again at 25GBASE-R
(R339). -/
def Dev.ethRestart (d : Dev) (p : Nat) : Dev :=
  if d.domOn domNet && !d.on .LNK_LSTAT_BLOCK (8 + p) && ((d.eth p).1 || d.ethSlow.contains p) then
    let d := d.advanceTo ((d.eth p).2 + 1000000000 * cyc)
    { d with ethSlow := d.ethSlow.filter (· ≠ p) }.setEth p (false, d.tick)
  else d

/-- Block lock gained: not while PRBS31 is checked (R346). -/
def Dev.blockGain (d : Dev) (n : Nat) : Dev :=
  if d.laneLive n && !d.on .LNK_LSTAT_BLOCK n && !d.on .LNK_LCTRL_PRBS n then
    ((d.st .LNK_LSTAT_BLOCK n 1).ethLink n).laneChanged n
  else d

/-- Block lock lost: LOSS, the count, an event-log entry and vector 199. -/
def Dev.blockLoss (d : Dev) (n : Nat) : Dev :=
  if d.laneLive n && d.on .LNK_LSTAT_BLOCK n && !d.on .LNK_LCTRL_PRBS n then
    let d := ((d.st .LNK_LSTAT_BLOCK n 0).st .LNK_LSTAT_LOSS n 1).bump .LNK_LLOSS_COUNT n 1
    (((d.logEv 0x08 0x10 n 0).irq 199).ethLink n).laneChanged n
  else d

/-- Clock lock. -/
def Dev.clockLock (d : Dev) (n : Nat) (v : Bool) : Dev :=
  if d.laneLive n && d.on .LNK_LSTAT_LOCK n != v then (d.st .LNK_LSTAT_LOCK n (b2n v)).laneChanged n else d

/-- One UI later, wrapping after 65. -/
def Dev.slip (d : Dev) (n : Nat) : Dev := d.st .LNK_LSTAT_SLIPPOS n ((d.rg .LNK_LSTAT_SLIPPOS n + 1) % 66)

/-- SLIP = 1 (R337, R338, R344). -/
def Dev.slipWrite (d : Dev) (n : Nat) : Dev :=
  if !d.domOn (laneDom n) then d.bump .PWR_ACCREJ_COUNT 0 1
  else if !laneRx n then d
  else if n < 8 || d.on .LNK_LCTRL_AUTOSLIP n then d.st .LNK_LSTAT_WREJ n 1
  else d.slip n

/-- A searching lane met an invalid header and moves on. -/
def Dev.slipSearch (d : Dev) (n : Nat) : Dev :=
  if d.laneLive n && d.on .LNK_LCTRL_AUTOSLIP n && !d.on .LNK_LSTAT_BLOCK n && !d.on .LNK_LCTRL_PRBS n then d.slip n else d

/-! ## Adaptation (R341, R342) -/

/-- CTLE and the five DFE taps. -/
def rxEq : List Field := [.LNK_LRXEQ_CTLE, .LNK_LRXEQ_DFE1, .LNK_LRXEQ_DFE2, .LNK_LRXEQ_DFE3, .LNK_LRXEQ_DFE4, .LNK_LRXEQ_DFE5]

/-- Whether the equalizers adapt: a lane without a lock never does. -/
def Dev.adapts (d : Dev) (n : Nat) : Bool :=
  d.on .LNK_LCTRL_ADAPT n && !d.on .LNK_LSTAT_FROZEN n && d.on .LNK_LSTAT_LOCK n && d.on .LNK_LSTAT_BLOCK n

/-- A 65,536-UI window ends with figure of merit `fom`: adaptation moves the equalizers to values left open (log 2). -/
def Dev.fomWindow (d : Dev) (n fom : Nat) : Dev :=
  if !d.laneLive n || d.on .LNK_LSTAT_FROZEN n then d
  else
    let x := d.lane n
    let low := match x.low with
      | none => fom
      | some v => min v fom
    let d := (d.st .LNK_LSTAT_FOM n fom).setLane n { x with low := some low }
    if d.adapts n then rxEq.foldl (fun d f => let v := d.freeNat; v.2.st f n v.1) d else d

/-- A 4,096-UI window ends with density `dens` (1/256). -/
def Dev.densWindow (d : Dev) (n dens : Nat) : Dev :=
  if !d.laneLive n then d
  else
    let x := d.lane n
    let d := d.st .LNK_LSTAT_DENS n dens
    if dens < d.rg .LNK_LCTRL_DTHR n then
      let d := d.setLane n { x with run := 0 }
      if d.on .LNK_LSTAT_FROZEN n then d
      else
        let d := if d.adapts n then (rxEq.zip x.good).foldl (fun d p => d.st p.1 n p.2) d else d
        (d.st .LNK_LSTAT_FROZEN n 1).bump .LNK_LFRZ_COUNT n 1
    else if d.on .LNK_LSTAT_FROZEN n then
      if 1 ≤ x.run then (d.setLane n { x with run := 0 }).st .LNK_LSTAT_FROZEN n 0 else d.setLane n { x with run := 1 }
    else d.setLane n { x with good := rxEq.map (fun f => d.rg f n) }

/-! ## The commands -/

def execLaneSlip (n : LaneId) (s : State) : Answer := .next (s.onDev (·.slipWrite n))
def execLaneSlipSearchStep (n : LaneId) (s : State) : Answer := .next (s.onDev (·.slipSearch n))
def execLaneBlockLockGain (n : LaneId) (s : State) : Answer := .next (s.onDev (·.blockGain n))
def execLaneBlockLockLoss (n : LaneId) (s : State) : Answer := .next (s.onDev (·.blockLoss n))
def execLaneClockLockGain (n : LaneId) (s : State) : Answer := .next (s.onDev (·.clockLock n true))
def execLaneClockLockLoss (n : LaneId) (s : State) : Answer := .next (s.onDev (·.clockLock n false))
def execLaneFomWindow (n : LaneId) (fom : Byte) (s : State) : Answer := .next (s.onDev (·.fomWindow n fom.toNat))
def execLaneDensityWindow (n : LaneId) (dens : Byte) (s : State) : Answer := .next (s.onDev (·.densWindow n dens.toNat))
/-- INVALID_SYNC_HEADER. -/
def execInvalidSyncHeader (n : LaneId) (s : State) : Answer :=
  .next (s.onDev (fun d => if d.laneLive n && !d.on .LNK_LCTRL_PRBS n then d.bump .LNK_LERR_COUNT n 1 else d))
/-- PRBS_BIT_ERROR (R346). -/
def execPrbsBitError (n : LaneId) (s : State) : Answer :=
  .next (s.onDev (fun d => if d.laneLive n && d.on .LNK_LCTRL_PRBS n then d.bump .LNK_LPRBS_COUNT n 1 else d))
/-- ETH_RATE_FALLBACK. -/
def execEthRateFallback (port : Fin 2) (s : State) : Answer :=
  .next (s.onDev (·.ethFallback port))
/-- ETH_LINK_DOWN_RESTART. -/
def execEthLinkDownRestart (port : Fin 2) (s : State) : Answer :=
  .next (s.onDev (·.ethRestart port))

end Sys2Proof.Machine
end

