-- ==== Sys2Proof/Machine/Seam.lean ====
section
/-!
DEFINITION. Seam ports: bring-up, multiblocks, forwarding, and what each class of message does here (R348 to R362).
-/

namespace Sys2Proof.Machine

/-! ## Bring-up (R350) -/

/-- EN = 1 starts a port in TRAIN; EN = 0 takes it DOWN. -/
def Dev.portEnable (d : Dev) (p : Nat) (v : Bool) : Dev :=
  if d.on .LNK_SP_CTRL_EN p = v ∨ (v ∧ d.quies.contains domSeam) then d
  else ({ (d.st .LNK_SP_CTRL_EN p (b2n v)) with seamQ := d.seamQ.del p }.setPort p {}).spState p (b2n v)

/-- Whether another port's neighbour conflicts with one that names this domain, position and device number. -/
def Dev.portConflict (d : Dev) (p domain pos dev : Nat) : Bool :=
  domain != d.rg .LNK_SD_CFG_DOMAIN 0 || (List.range 4).any (fun q =>
    q != p && (d.port q).met && 1 ≤ d.rg .LNK_SP_STAT_STATE q
      && (d.rg .LNK_SP_STAT_NPOS q == pos || (d.rg .LNK_SP_STAT_NDEV q == dev && d.rg .LNK_SP_STAT_NPOS q != pos)))

/-- A position of another device is known to hold members of group `g` (log 22). -/
def Dev.tieKnow (d : Dev) (g pos : Nat) : Dev :=
  if d.far.any (fun f => f.grp == g && f.pos == pos) then d else { d with far := ⟨g, pos, 0, false, false⟩ :: d.far }

/-- The members of tie groups at other positions, as link-control blocks tell of them: those no longer named are gone
(R64, log 22). -/
def Dev.tieMembers (d : Dev) (l : List (Nat × Nat)) : Dev :=
  l.foldl (fun d x => d.tieKnow x.2 x.1) { d with far := d.far.filter (fun f => l.contains (f.pos, f.grp)) }

/-- A link-control block arrives on a lane (`laneB` for lane b) with its multiblock `inPhase` with the other lane's. In
TRAIN it identifies the neighbour; on the lost lane of a HALF port it brings the port back to FULL (R358). `tied` are the
positions and tie groups with members there. -/
def Dev.linkControl (d : Dev) (p : Nat) (laneB inPhase : Bool) (domain pos dev : Nat) (tied : List (Nat × Nat)) : Dev :=
  if !d.seamLane (10 + 2 * p + b2n laneB) then d
  else
    let st := d.rg .LNK_SP_STAT_STATE p
    if st = 1 then
      let d := (d.st .LNK_SP_STAT_NPOS p pos).st .LNK_SP_STAT_NDEV p dev
      if d.portConflict p domain pos dev then (d.st .LNK_SP_STAT_DOMERR p 1).setPort p { d.port p with met := false }
      else (d.setPort p { d.port p with met := true }).tieMembers tied
    else
      let d := if st = 0 then d else d.tieMembers tied
      if st = 3 ∧ inPhase ∧ d.seamLanes p = 2 then d.spState p 2 else d

/-- The nine transmit settings of R350 in order: PRE, POST. -/
def txSettings : List (Nat × Nat) := [0, 4, 8].flatMap (fun a => [0, 8, 16].map (fun b => (a, b)))

/-- Index of the largest number of a list, the first of several. -/
def argMax (l : List Nat) : Nat :=
  (l.zipIdx.foldl (fun (b : Nat × Nat) x => if b.1 < x.1 then x else b) (l.headD 0, 0)).2

/-- The transmit search ends with these far-end figures of merit, the latency measurement with this round trip in units
of 62.5 ps: the port enters FULL, or HALF on one lane. -/
def Dev.portTrained (d : Dev) (p : Nat) (foms : List Nat) (trip : Nat) : Dev :=
  if d.rg .LNK_SP_STAT_STATE p ≠ 1 ∨ !(d.port p).met ∨ d.seamLanes p = 0 then d
  else
    let t := txSettings.getD (argMax foms) (0, 0)
    let d := [10 + 2 * p, 11 + 2 * p].foldl (fun d n =>
      ((d.st .LNK_LTXEQ_PRE n t.1).st .LNK_LTXEQ_POST n t.2).st .LNK_LTXEQ_MAIN n (64 - t.1 - t.2)) d
    (d.st .LNK_SP_LAT_LAT p (8 * trip)).spState p (if d.seamLanes p = 2 then 2 else 3)

/-! ## Sending (R349, R352, R357) -/

/-- Blocks and priority of a message. -/
def SeamMsg.blocks : SeamMsg → Nat
  | .tie .. => 2
  | .tieEvt .. => 1
  | .trig .. => 2
  | .sew .. => 1
  | .time .. => 3

def SeamMsg.prio : SeamMsg → Nat
  | .tie .. => 1
  | .tieEvt .. => 2
  | .trig .. => 3
  | .sew .. => 4
  | .time .. => 5

/-- A message as it leaves, `wait` ticks after it came to the port: a TIME message's correction grows by the residence
(R354). -/
def SeamMsg.leave (m : SeamMsg) (wait : Nat) : SeamMsg := match m with
  | .time pos hops srv c ns gen q corr => .time pos hops srv c ns gen q (corr + wait * 256 / cyc)
  | m => m

/-- Messages that go into `room` slots in the order of the queue, and those that stay. -/
def fitSlots (room : Nat) : List (Nat × SeamMsg) → List (Nat × SeamMsg) × List (Nat × SeamMsg)
  | [] => ([], [])
  | m :: l => if m.2.blocks ≤ room then
      let r := fitSlots (room - m.2.blocks) l
      (m :: r.1, r.2)
    else ([], m :: l)

/-- The next multiblock boundary: a coarse count that is a multiple of 264. -/
def Dev.nextMultiblock (d : Dev) : Nat := d.tick + (264 - d.coarseAt d.tick % 264) % 264 * 1000

/-- SEAM_MULTIBLOCK_SEND: at the boundary a lost lane takes the port to HALF, a port that is DOWN starts again; the
link-control block goes out, then the messages, where a lane sends them. One left over that has waited a whole multiblock is dropped. -/
def Dev.multiblockSend (d : Dev) (p : Nat) : Dev :=
  if !d.on .LNK_SP_CTRL_EN p || !d.domOn domSeam then d
  else
    let d := d.advanceTo d.nextMultiblock
    let st := d.rg .LNK_SP_STAT_STATE p
    let d := if st = 0 then d.spState p 1 else if st = 2 ∧ d.seamLanes p = 1 then d.spState p 3 else d
    let x := d.port p
    let sends := d.laneSends (10 + 2 * p) || d.laneSends (11 + 2 * p)
    let d := d.setPort p { x with seq := x.seq + 1 }
    let d := if sends then d.emit (.seamLcb p x.seq (d.rg .LNK_SD_CFG_DOMAIN 0) d.pos (d.rg .TIME_DEVNUM_NUM 0)
        [d.rg .LNK_LSTAT_FOM (10 + 2 * p), d.rg .LNK_LSTAT_FOM (11 + 2 * p)]) else d
    let half := d.rg .LNK_SP_STAT_STATE p == 3
    if d.rg .LNK_SP_STAT_STATE p < 2 then d
    else
      let q := ((d.seamQ.get? p).getD []).filter (fun m => !(half && m.2.isSew))
      let q := [1, 2, 3, 4, 5].flatMap (fun k => q.filter (fun m => m.2.prio == k))
      let r := fitSlots 31 q
      let old := fun (m : Nat × SeamMsg) => m.1 + 66 * cyc ≤ d.tick
      let d := d.bump .LNK_SP_ERR_DROP p (r.2.filter old).length
      let d := (if sends then r.1 else []).foldl (fun d m => d.emit (.seam p (m.2.leave (d.tick - m.1)))) d
      { d with seamQ := d.seamQ.put p (r.2.filter (fun m => !old m)) }

/-! ## Receiving (R354) -/

/-- Whether two messages have one key. -/
def SeamMsg.same : SeamMsg → SeamMsg → Bool
  | .tie p _ g b .., .tie p' _ g' b' .. => p == p' && g == g' && b == b'
  | .tieEvt p _ g b c k _, .tieEvt p' _ g' b' c' k' _ => p == p' && g == g' && b == b' && c == c' && k == k'
  | .trig p _ c o _, .trig p' _ c' o' _ => p == p' && c == c' && o == o'
  | .sew p _ t v _, .sew p' _ t' v' _ => p == p' && t == t' && v == v'
  | .time _ _ s c .., .time _ _ s' c' .. => s == s' && c == c'
  | _, _ => false

/-- Hops of a message, and the message one hop further. -/
def SeamMsg.hops : SeamMsg → Nat
  | .tie _ h .. => h
  | .tieEvt _ h .. => h
  | .trig _ h .. => h
  | .sew _ h .. => h
  | .time _ h .. => h

def SeamMsg.further : SeamMsg → SeamMsg
  | .tie p h g b f m a q => .tie p (h + 1) g b f m a q
  | .tieEvt p h g b c k a => .tieEvt p (h + 1) g b c k a
  | .trig p h c o g => .trig p (h + 1) c o g
  | .sew p h t v o => .sew p (h + 1) t v o
  | .time p h s c n g q k => .time p (h + 1) s c n g q k

/-- How long a message is recognised as seen: 512 cycles (log 21). -/
def seenFor : Nat := 512 * cyc

/-- A message `m` of position `pos` arrives on port `p`: whether it is new here. A new one is forwarded while it has made
fewer than four hops. -/
def Dev.seamIn (d : Dev) (p pos : Nat) (m : SeamMsg) : Bool × Dev :=
  if !d.seamOpen p m.isSew || !d.domOn domSeam then (false, d)
  else
    let d := { d with heard := d.heard.put pos d.tick, seen := d.seen.filter (fun x => d.tick < x.1 + seenFor) }
    if d.seen.any (fun x => x.2.same m) then (false, d)
    else if 4 ≤ m.hops then (true, { d with seen := (d.tick, m) :: d.seen })
    else (true, d.seamPost (some p) m.further)

/-! ## Ties (R353, R357) -/

/-- The tick at which beat `b` modulo 64 last began. -/
def Dev.beatTick (d : Dev) (b : Nat) : Nat :=
  let now := d.coarseAt d.tick / 64
  (now - (now + 64 - b % 64) % 64) * 64 * 1000 - d.time.coarse * 1000

/-- Running members of group `g` on this device. -/
def Dev.tieRunning (d : Dev) (g : Nat) : List Nat := (List.range 128).filter (fun e => d.tied e && d.grp e == g && d.runs e)

/-- The group's Seam path counts as lost (R70, R357). -/
def Dev.tieLost (d : Dev) (g : Nat) : Dev :=
  match d.tieRunning g with
  | [] => d
  | e :: _ => d.endGroup e rTIELOST

/-- A TIE or TIE_EVT message waits for its apply instant `at_`; one that comes too late counts as a lost path. -/
def Dev.tieKeep (d : Dev) (g at_ : Nat) (m : SeamMsg) : Dev :=
  if at_ < d.tick then d.tieLost g else { d with tieIn := d.tieIn ++ [(at_, m)] }

/-- A TIE message. -/
def Dev.tieGet (d : Dev) (p pos hops g beat fail match_ pc per : Nat) : Dev :=
  let m := SeamMsg.tie pos hops g beat fail match_ pc per
  let r := d.seamIn p pos m
  if !r.1 then r.2
  else
    let d := r.2.tieKnow g pos
    let d := { d with tieGot := (g, pos, beat, d.tick) :: d.tieGot.filter (fun x => d.tick < x.2.2.2 + seenFor) }
    d.tieKeep g (d.beatTick beat + 160 * cyc) m

/-- A TIE_EVT message. -/
def Dev.tieEvtGet (d : Dev) (p pos hops g beat cycle kind arg : Nat) : Dev :=
  let m := SeamMsg.tieEvt pos hops g beat cycle kind arg
  let r := d.seamIn p pos m
  if !r.1 then r.2 else (r.2.tieKnow g pos).tieKeep g (r.2.beatTick beat + (cycle + 160) * cyc) m

/-- Flags of one cycle of a beat: each change becomes visible to branches 40 cycles later (R67); in the first cycle the
program address and period are compared (R68, R97). -/
def Dev.tieFlags (d : Dev) (m0 : List Host.Cell) (pos g fail match_ pc per : Nat) : Dev :=
  let i := (d.beatAt d.tick).2
  let f := bitOf fail i
  let m := bitOf match_ i
  let same := fun (x : FarFlag) => x.grp == g && x.pos == pos
  let now := ((d.farQ.filter same).reverse ++ d.far.filter same).head?
  let d := if now.any (fun x => x.fail == f && x.match_ == m) then d
    else { d with farQ := d.farQ ++ [⟨g, pos, d.tick + 40 * cyc, f, m⟩] }
  if i ≠ 0 then d
  else
    let b := d.coarseAt d.tick / 64 - 10
    match d.tieRunning g with
    | [] => d
    | e :: _ =>
      if d.beatPcOf e b != pc || d.beatPerOf m0 e b % 2 ^ 40 != per then d.endGroup e rDIVERGE else d

/-- A shared event of a member elsewhere takes effect here (R38, R66, R193). An END with a code of a refused start is the
refusal of every member (R145, R175). -/
def Dev.tieEvent (d : Dev) (pos g kind arg : Nat) : Dev :=
  let l := (List.range 128).filter (fun e => d.tied e && d.grp e == g)
  let ev := fun (k : Nat) => l.foldl (fun d e => d.raiseOne e k d.tick) d
  match kind with
  | 0 => match l with
    | [] => d
    | e :: _ => (l.foldl (fun d x => d.modEng x (fun y => { y with tieStart := some d.tick })) d).tieStartArrival e
  | 1 => l.foldl (fun d e => (d.modEng e (fun y => { y with tieStall := (d.tick, arg) :: y.tieStall })).tieStallArrival e) d
  | 2 => l.foldl (fun d e =>
      if 0x20 ≤ arg ∧ d.estate e = 1 then d.refuseStart e arg else d.endOne e ⟨arg, 128 + pos, d.tick - 160 * cyc, false⟩) d
  | 3 => ev 0
  | 4 => ev 2
  | _ => ev 3

/-- TIE_FLAGS_APPLY: the earliest apply instant; a TIE message stays for the cycles of its beat still to come. -/
def Dev.tieApply (d : Dev) (m0 : List Host.Cell) : Dev :=
  match d.tieIn with
  | [] => d
  | x :: l =>
    let t := l.foldl (fun a y => min a y.1) x.1
    let now := d.tieIn.filter (fun y => y.1 == t)
    let d := { d with tieIn := d.tieIn.filter (fun y => y.1 != t) }.advanceTo t
    now.foldl (fun d y => match y.2 with
      | .tie pos _ g _ f m pc per =>
        let d := d.tieFlags m0 pos g f m pc per
        if (d.beatAt t).2 == 15 then d else { d with tieIn := d.tieIn ++ [(t + cyc, y.2)] }
      | .tieEvt pos _ g _ _ k a => d.tieEvent pos g k a
      | _ => d) d

/-! ## Triggers, sews, time -/

/-- A TRIG message; an origin time of the generation before the present one is moved by the last Δ (R264, R321). -/
def Dev.trigGet (d : Dev) (p pos hops ch origin gen : Nat) : Dev :=
  let r := d.seamIn p pos (.trig pos hops ch origin gen)
  if !r.1 then r.2
  else
    let t := if gen ≠ r.2.time.gen ∧ gen = r.2.rg .TIME_RB_DFR_FROMGEN 0 then moveT origin r.2.time.delta else origin
    r.2.acqSeam false ch t

/-- The whole-ns time nearest to now with these low 36 bits. -/
def Dev.nearNs (d : Dev) (low : Nat) : Nat :=
  let n := d.nowNs
  let base := n / 2 ^ 36 * 2 ^ 36 + low % 2 ^ 36
  if base + 2 ^ 35 < n then base + 2 ^ 36 else if n + 2 ^ 35 < base ∧ 2 ^ 36 ≤ base then base - 2 ^ 36 else base

/-- Hold a READY or veto message in place of an earlier one of its kind, tag and position (R329). -/
def Dev.sewHold (d : Dev) (m : SewMsg) : Dev :=
  { d with sewMsg := d.sewMsg.filter (fun x => !(x.tag == m.tag && x.pos == m.pos && x.veto == m.veto)) ++ [m] }

/-- A SEW message. -/
def Dev.sewGet (d : Dev) (p pos hops tag : Nat) (veto : Bool) (origin : Nat) : Dev :=
  let r := d.seamIn p pos (.sew pos hops tag veto origin)
  if r.1 then r.2.sewHold ⟨tag, pos, veto, r.2.nearNs origin⟩ else r.2

/-- A TIME message: the latency of the port it came on joins its correction (R354). -/
def Dev.timeGet (d : Dev) (p pos hops srv coarse ns gen qual corr : Nat) : Dev :=
  let corr := corr + d.rg .LNK_SP_LAT_LAT p
  let r := d.seamIn p pos (.time pos hops srv coarse ns gen qual corr)
  if r.1 then r.2.seamTime srv gen (ns + corr * 256) else r.2

/-! ## The commands -/

def execSeamPortEnable (p : PortId) (s : State) : Answer :=
  .next (s.onDev (fun d => if d.domOn domSeam then d.portEnable p true else d.bump .PWR_ACCREJ_COUNT 0 1))
def execSeamLinkControlBlock (p : PortId) (laneB inPhase : Bool) (domain : BitVec 16) (pos : Fin 16) (dev : BitVec 10)
    (s : State) (tied : List (Fin 16 × GrpId) := []) : Answer :=
  .next (s.onDev (·.linkControl p laneB inPhase domain.toNat pos dev.toNat (tied.map (fun x => (x.1.val, x.2.val)))))
def execSeamPortTrained (p : PortId) (foms : List Byte) (trip : Nat) (s : State) : Answer :=
  .next (s.onDev (·.portTrained p (foms.map (·.toNat)) trip))
def execSeamMultiblockSend (p : PortId) (s : State) : Answer := .next (s.onDev (·.multiblockSend p))
/-- SEAM_BLOCK_CRC_FAIL (R349, R352). -/
def execSeamBlockCrcFail (p : PortId) (s : State) : Answer :=
  .next (s.onDev (fun d => if d.domOn domSeam then d.bump .LNK_SP_ERR_CRCERR p 1 else d))
def execSeamTieReceive (h : SeamHead) (g : GrpId) (beat : Fin 64) (fail match_ pc : BitVec 16) (per : BitVec 40)
    (s : State) : Answer :=
  .next (s.onDev (·.tieGet h.port h.pos h.hops g beat fail.toNat match_.toNat pc.toNat per.toNat))
def execSeamTieEvtReceive (h : SeamHead) (g : GrpId) (beat : Fin 64) (cycle : Fin 16) (k : TieKind) (s : State) : Answer :=
  .next (s.onDev (·.tieEvtGet h.port h.pos h.hops g beat cycle k.code k.arg))
def execSeamTrigReceive (h : SeamHead) (ch : Fin 16) (origin : BitVec 80) (gen : Byte) (s : State) : Answer :=
  .next (s.onDev (·.trigGet h.port h.pos h.hops ch origin.toNat gen.toNat))
def execSeamSewReceive (h : SeamHead) (tag : Byte) (veto : Bool) (origin : BitVec 36) (s : State) : Answer :=
  .next (s.onDev (·.sewGet h.port h.pos h.hops tag.toNat veto origin.toNat))
def execSeamTimeReceive (h : SeamHead) (srv : BitVec 10) (coarse : Nat) (time : BitVec 80) (gen : Byte) (qual : BitVec 4)
    (corr : BitVec 32) (s : State) : Answer :=
  .next (s.onDev (fun d => d.timeStep
    (·.timeGet h.port h.pos h.hops srv.toNat coarse time.toNat gen.toNat qual.toNat corr.toNat)))
def execTieFlagsApply (s : State) : Answer := .next (s.onDev (·.tieApply s.mem))

end Sys2Proof.Machine
end

