-- ==== Sys2Proof/Machine/Dram.lean ====
section
/-!
DEFINITION. DRAM ports: training, set points, the request queues, refresh, tracking, scrub and zeroing (R363 to R386).
-/

namespace Sys2Proof.Machine

/-! ## Port state -/

/-- A port state; any change raises the port's vector and moves its ready bit (R414, R476). -/
def Dev.drcState (d : Dev) (p v : Nat) : Dev :=
  if d.rg .DRC_STAT_STATE p = v then d
  else ((d.st .DRC_STAT_STATE p v).irq (193 + p)).ready (if p = 0 then .HOST_READY_DRA else .HOST_READY_DRB) (b2n (v == 3))

/-- System line of port-local line `q` (R365). -/
def Dev.sysLine (d : Dev) (p q : Nat) : Nat :=
  if d.on .DRC_CFG_INTLV 0 then q / 16 * 32 + p * 16 + q % 16
  else if p = 0 then q else d.portLines 0 + q

/-- Zeroing starts: WM is 0, below which no line of either port lies; the write-ahead table empties (R382, R383, R440). -/
def Dev.zeroStart (d : Dev) (p : Nat) : Dev :=
  let d := { d with ahead := d.ahead.filter (·.1 != p) }.st .DRC_ZERO_AHEAD p 0
  (d.st .DRC_ZERO_WM p 0).st .DRC_ZERO_ACTIVE p 1

/-- Ranks of the port. -/
def Dev.ranks (d : Dev) (p : Nat) : List Nat := List.range (d.rg .DRC_CFG_RANKS p + 1)

/-- Ticks of a scrub pass per line of the port (R381). -/
def Dev.lineTicks (d : Dev) (p : Nat) : Nat :=
  min 168 (max 1 (d.rg .DRC_SCRUB_HOURS p)) * 3600 * 1000000000 * cyc / max 1 (d.portLines p)

/-- The port can carry traffic: READY, unless the thimble is not (R415). Refresh debts start at 0, and scrub is
on its schedule (logs 23, 59). -/
def Dev.drcReady (d : Dev) (p : Nat) : Dev :=
  if !d.on .HOST_READY_THIMBLE 0 then d
  else
    let z := (d.drc p).zero
    let d := d.modDrc p (fun x => { x with mark := [d.nowFrac, d.nowFrac], due := [], urgent := [], zero := false })
    let d := (if z then d.zeroStart p else d).drcState p 3
    let k := d.lineTicks p * d.rg .DRC_SCRUB_POS_LINE p
    d.modDrc p (fun x => { x with pass := d.tick - k })

/-! ## Training (R367 to R370) -/

/-- The widest run of set bits of `v` among positions [k, k + n): start and length; of two equally wide the lower. `cur`
is the run that ends just below `k`. -/
def widestRun (v : Nat) : (n k cur : Nat) → (best : Nat × Nat) → Nat × Nat
  | 0, _, _, best => best
  | n + 1, k, cur, best =>
    if bitOf v k then widestRun v n (k + 1) (cur + 1) (if best.2 < cur + 1 then (k - cur, cur + 1) else best)
    else widestRun v n (k + 1) 0 best

/-- Eye width and chosen delay of a sweep within [lo, hi) (R368). -/
def eyeOf (v lo hi : Nat) : Nat × Nat :=
  let r := widestRun v (hi - lo) lo 0 (lo, 0)
  (r.2, r.1 + (r.2 - 1) / 2)

/-- Index of DRC_TRES. -/
def tres (f r g : Nat) : Nat := f * 128 + r * 64 + g

/-- Groups of the port in order: rank, group. -/
def Dev.groups (d : Dev) (p : Nat) : List (Nat × Nat) :=
  (d.ranks p).flatMap (fun r => (List.range 36).map (fun g => (r, g)))

/-- RES0 of TRAIN_DRAM for the first group whose eye is too narrow: bit 0, rank, group, eye kind (R486). -/
def narrow (l : List ((Nat × Nat) × (Nat × Nat) × (Nat × Nat))) : Option Nat :=
  (l.find? (fun x => x.2.1.1 < 24 || x.2.2.1 < 24)).map (fun x =>
    1 + x.1.1 * 2 + x.1.2 * 4 + (if x.2.1.1 < 24 then 0 else 256))

/-- Give the running command its end (R485). -/
def Dev.cmdDone (d : Dev) (code : Nat) (res : List Nat) : Dev :=
  { d with cmd := d.cmd.map (fun c => { c with done := some (code, res) }) }

/-- The largest correction from a trained centre (R371, R386). -/
def Dev.trackShow (d : Dev) (p : Nat) : Dev :=
  let x := d.drc p
  d.st .DRC_TRK_MAXOFF p (min 255 (max ((x.corr.map (fun c => c.2.natAbs)).foldl max 0)
    ((x.rcorr.map (fun c => c.2.1.natAbs)).foldl max 0)))

/-- Keep the results of one group: its centre is trained anew, so it has no correction. -/
def Dev.keepTres (d : Dev) (p f : Nat) (x : (Nat × Nat) × (Nat × Nat) × (Nat × Nat)) (vref : Option Nat) : Dev :=
  let i := tres f x.1.1 x.1.2
  let d := ((d.sti .DRC_TRES_RDLY p i x.2.1.2).sti .DRC_TRES_WDLY p i x.2.2.2).sti .DRC_TRES_REYE p i (min x.2.1.1 127)
  let d := (d.sti .DRC_TRES_WEYE p i (min x.2.2.1 127)).sti .DRC_TRES_VALID p i 1
  ((match vref with
    | some v => d.sti .DRC_TRES_VREF p i v
    | none => d).modDrc p (fun y => { y with corr := y.corr.del x.1, rcorr := y.rcorr.del x.1 })).trackShow p

/-- A full training starts at a set point. -/
def Dev.trainStart (d : Dev) (p : Nat) (t : Train) : Dev :=
  (d.modDrc p (fun x => { x with train := some t })).drcState p 2

/-- A set-point change has ended: a training that waited for that starts (R373). -/
def Dev.trainWaiting (d : Dev) (p : Nat) : Option Dev :=
  (d.drc p).wait.map (fun w => (d.modDrc p (fun x => { x with wait := none })).trainStart p w)

/-- A training ends with the sweeps of its groups, in order. -/
def Dev.trainDone (d : Dev) (p : Nat) (l : List Sweep) : Dev :=
  match (d.drc p).train with
  | none => d
  | some t =>
    if d.rg .DRC_STAT_STATE p ≠ 2 then d
    else
      let gs := (d.groups p).zip l
      let es := gs.map (fun x => (x.1, eyeOf x.2.rd.toNat 0 512, eyeOf x.2.wr.toNat 0 512))
      let d := d.modDrc p (fun x => { x with train := none })
      match (if gs.length < (d.groups p).length then some 1 else narrow es) with
      | some res =>
        let d := (d.drcState p 6).logEv 0x06 0x11 p res
        if t.byCmd then d.cmdDone 7 [res, 0, 0, 0] else (d.trainWaiting p).getD d
      | none =>
        let d := (es.zip l).foldl (fun d x => d.keepTres p t.fsp x.1 (some x.2.vref.toNat)) d
        let d := (d.st (if t.fsp = 0 then .DRC_FSP_VALID0 else .DRC_FSP_VALID1) p 1).st .DRC_STAT_FSP p t.fsp
        if t.both ∧ t.fsp = 0 then d.trainStart p { t with fsp := 1 }
        else
          let d := if t.both then d.st .DRC_STAT_FSP p 0 else d
          if t.byCmd then (d.drcReady p).cmdDone 1 [0, 0, 0, 0] else (d.trainWaiting p).getD (d.drcReady p)

/-! ## Real-time sources (R372, R374) -/

/-- Whether port `p` holds some of `n` lines from `lo` on. -/
def Dev.portHas (d : Dev) (p lo n : Nat) : Bool :=
  if d.on .DRC_CFG_INTLV 0 then true
  else
    let a := if p = 0 then 0 else d.portLines 0
    decide (lo < a + d.portLines p) && decide (a < lo + n)

/-- Whether a real-time source of the port is active. -/
def Dev.rtActive (d : Dev) (p : Nat) : Bool :=
  (List.range 128).any (fun e => d.runs e && !d.resident e && d.portHas p (d.rg .ENG_STR_BASE_LINE e) ((d.rg .ENG_STR_LEN_LEN e + 255) / 256))
    || (List.range 8).any (fun g => d.awgState g == 1 || d.awgState g == 3)
    || (List.range 16).any (fun u => d.rg .ACQ_STAT_STATE u != 0 && (d.on .ACQ_CTRL_RING u || d.on .ACQ_CTRL_EXT u)
        && d.portHas p (d.rg .ACQ_RBASE_LINE u) (d.rg .ACQ_RSIZE_LINES u))

/-- Panic of a cluster's bobbin refill (R127), of AWG refill (R303), of acquisition spill (R259). -/
def Dev.bobPanic (d : Dev) (c : Nat) : Bool := (List.range 16).any (fun k => d.inPanic (16 * c + k))

def Dev.awgPanicOf (d : Dev) (g : Nat) : Bool :=
  (d.awgState g == 1 || d.awgState g == 3) && (d.awg g).fetch.isSome && (d.awg g).lines.length < 192

def Dev.acqPanicOf (d : Dev) (u : Nat) : Bool :=
  let x := d.acq u
  if d.on .ACQ_CTRL_EXT u then
    49152 < (match x.rcd with
      | some r => d.acqQueued u (bitsOf r.h1 40 32) (bitsOf r.h1 72 32) (r.total - 1 - r.left.length)
      | none => if d.rg .ACQ_STAT_STATE u = 2 then d.acqQueued u x.samps.length x.post.length x.spilled else 0)
  else d.on .ACQ_CTRL_RING u && 768 < (x.rcd.elim 0 (fun r => r.left.length))

def Dev.awgPanic (d : Dev) : Bool := (List.range 8).any d.awgPanicOf
def Dev.acqPanic (d : Dev) : Bool := (List.range 16).any d.acqPanicOf

def Dev.panic (d : Dev) : DramSrc → Bool
  | .bobbin c => d.bobPanic c
  | .awg => d.awgPanic
  | .acq => d.acqPanic
  | _ => false

/-- Whether some real-time source of the port is in panic. -/
def Dev.anyPanic (d : Dev) (p : Nat) : Bool :=
  (List.range 128).any (fun e => d.inPanic e
      && d.portHas p (d.rg .ENG_STR_BASE_LINE e) ((d.rg .ENG_STR_LEN_LEN e + 255) / 256))
    || (List.range 8).any (fun g => d.awgPanicOf g
      && ((d.awg g).active (d.on .AWG_CTRL_COMPLEX g)).any (fun a => d.portHas p a.2.1 a.2.2))
    || (List.range 16).any (fun u => d.acqPanicOf u && d.portHas p (d.rg .ACQ_RBASE_LINE u) (d.rg .ACQ_RSIZE_LINES u))

/-- A slice of an INSERVICE retrain; the last one brings the sweeps and applies its results (R370). -/
def Dev.retrain (d : Dev) (p : Nat) (fin : Option (List Sweep)) : Dev :=
  if !(d.drc p).retrain || d.rg .DRC_STAT_STATE p ≠ 3 || d.anyPanic p then d
  else match fin with
  | none => d
  | some l =>
    let f := d.rg .DRC_STAT_FSP p
    let gs := (d.groups p).zip l
    let es := gs.map (fun x =>
      let i := tres f x.1.1 x.1.2
      let rd := (d.rgi .DRC_TRES_RDLY p i + (((d.drc p).rcorr.get? x.1).getD (0, 0)).1).toNat
      let wd := (d.rgi .DRC_TRES_WDLY p i + (((d.drc p).corr.get? x.1).getD 0)).toNat
      (x.1, eyeOf x.2.rd.toNat (rd - 32) (min 512 (rd + 33)), eyeOf x.2.wr.toNat (wd - 32) (min 512 (wd + 33))))
    let d := (d.modDrc p (fun x => { x with retrain := false })).st .DRC_STAT_RETRAIN p 0
    match (if gs.length < (d.groups p).length then some 1 else narrow es) with
    | some res => (d.logEv 0x06 0x11 p res).cmdDone 7 [res, 0, 0, 0]
    | none => (es.foldl (fun d x => d.keepTres p f x none) d).cmdDone 1 [0, 0, 0, 0]

/-! ## Set points (R372, R373) -/

/-- The ports a set-point change concerns. -/
def Dev.fspPorts (d : Dev) (p : Nat) : List Nat := if d.on .DRC_CFG_INTLV 0 then [0, 1] else [p]

/-- The set point in use, or that of the change that runs. -/
def Dev.fspNow (d : Dev) (p : Nat) : Nat := (d.drc p).goes.getD (d.rg .DRC_STAT_FSP p)

/-- A write of DRC_FSP with REQ = 1; one during a change asks for another change after it. -/
def Dev.fspReq (d : Dev) (p : Nat) (target : Nat) (force : Bool) : Dev :=
  (d.fspPorts p).foldl (fun d q =>
    let d := d.st .DRC_FSP_TARGET q target
    let d := if q = p then d.st .DRC_FSP_FORCE q (b2n force) else d
    if d.fspNow q = target ∧ (d.drc q).want.isNone then d
    else (d.modDrc q (fun x => { x with want := some target })).st .DRC_STAT_FSPDEFER q 1) d

/-- The change begins: no training runs, and there is a quiet point or FORCE. -/
def Dev.fspStart (d : Dev) (p : Nat) : Dev :=
  let ps := d.fspPorts p
  match (d.drc p).want with
  | none => d
  | some t =>
    if ps.all (fun q => d.rg .DRC_STAT_STATE q == 3 && !(d.drc q).retrain)
        && (ps.any (fun q => d.on .DRC_FSP_FORCE q) || ps.all (fun q => !d.rtActive q)) then
      ps.foldl (fun d q =>
        let d := (d.st .DRC_STAT_FSPDEFER q 0).modDrc q (fun x => { x with want := none })
        if d.rg .DRC_STAT_FSP q = t then d
        else (d.modDrc q (fun x => { x with goes := some t })).drcState q 4) d
    else d

/-- The change ends: the stored delays are loaded, or a full training follows. A training that waited starts. -/
def Dev.fspDone (d : Dev) (p : Nat) : Dev :=
  match (d.drc p).goes with
  | none => d
  | some t =>
    if d.rg .DRC_STAT_STATE p ≠ 4 then d
    else
      let d := d.modDrc p (fun x => { x with goes := none })
      if d.on (if t = 0 then .DRC_FSP_VALID0 else .DRC_FSP_VALID1) p then
        let d := d.st .DRC_STAT_FSP p t
        (d.trainWaiting p).getD (d.drcReady p)
      else d.trainStart p ⟨t, false, false⟩

/-! ## Refresh (R377 to R380) -/

/-- Refresh debt of a rank in 1/65,536 ns; a port that carries no traffic has none (log 23). -/
def Dev.debt (d : Dev) (p r : Nat) : Nat :=
  if d.rg .DRC_STAT_STATE p = 3 then ((d.nowFrac : Int) - (d.drc p).mark.getD r 0).toNat else 0

/-- tREFI in effect, and tRFC, in 1/65,536 ns. -/
def Dev.trefi (d : Dev) (p : Nat) : Nat := d.rg .DRC_REF_TREFI_NS p * 65536
def Dev.trfc (d : Dev) (p : Nat) : Nat := (match d.rg .DRC_CFG_DENS p with | 0 => 195 | 1 => 295 | _ => 410) * 65536

/-- DRC_REF_DEBT: the larger of the ranks' debts in ns. -/
def Dev.debtNs (d : Dev) (p : Nat) : Nat := ((d.ranks p).map (d.debt p)).foldl max 0 / 65536

/-- The clock moves on to the instant at which the rank's debt reaches `v`. -/
def Dev.atDebt (d : Dev) (p r v : Nat) : Dev := d.advanceTo (d.tickOfFrac ((d.drc p).mark.getD r 0 + v).toNat)

/-- REFRESH_DUE. -/
def Dev.refreshDue (d : Dev) (p r : Nat) : Dev :=
  if d.rg .DRC_STAT_STATE p ≠ 3 ∨ !(d.ranks p).contains r then d
  else (d.atDebt p r (d.trefi p)).modDrc p (fun x => { x with due := x.due.filter (· ≠ r) ++ [r] })

/-- An urgent sequence of a rank starts. -/
def Dev.urgentStart (d : Dev) (p r : Nat) : Dev :=
  if (d.drc p).urgent.contains r then d
  else
    let d := d.modDrc p (fun x => { x with urgent := x.urgent ++ [r], rows := [] })
    ((d.st .DRC_STAT_URGENT p 1).bump .DRC_REF_CNT_URGSEQ p 1).irq (193 + p)

/-- URGENT_REFRESH_SEQUENCE. -/
def Dev.urgentAt (d : Dev) (p r : Nat) : Dev :=
  if d.rg .DRC_STAT_STATE p ≠ 3 ∨ !(d.ranks p).contains r then d else (d.atDebt p r (4 * d.trefi p)).urgentStart p r

/-- One all-bank refresh of a rank, no sooner than tRFC after its last. -/
def Dev.refresh (d : Dev) (p r : Nat) : Dev :=
  let d := d.advanceTo ((d.drc p).refAt.getD r 0 + d.trfc p * cyc / 65536)
  let now : Int := d.nowFrac
  (d.modDrc p (fun x => { x with
    mark := x.mark.set r (min now (x.mark.getD r 0 + d.trefi p)), refAt := x.refAt.set r d.tick
    due := x.due.filter (· ≠ r) })).emit (.refresh p r)

/-- The urgent sequence of a rank ends when its last refresh has; its event-log entry names the sources that underran
in it, a byte each (code + 1; log 24). -/
def Dev.urgentEnd (d : Dev) (p r : Nat) : Dev :=
  let d := d.advanceTo ((d.drc p).refAt.getD r 0 + d.trfc p * cyc / 65536)
  let x := d.drc p
  let names := leNat (x.urun.map (fun k => k % 255 + 1))
  let u := x.urgent.filter (· ≠ r)
  ((d.setDrc p { x with urgent := u, urun := [] }).st .DRC_STAT_URGENT p (b2n !u.isEmpty)).logEv 0x06 0x10 p names

/-- DRAM_TEMP_READ: devices that report the code for 85 °C or above (R363, R377, R380). -/
def Dev.tempRead (d : Dev) (p : Nat) (hot : List Nat) : Dev :=
  if d.rg .DRC_STAT_STATE p ≠ 3 then d
  else
    let d := d.modDrc p (fun x => { x with promo := x.promo.filter (· ≠ .temp) })
    match hot with
    | [] =>
      let n := (d.drc p).cool + 1
      let d := (d.modDrc p (fun x => { x with cool := n })).st .DRC_TEMP_VALID p 0
      if 4 ≤ n then (d.st .DRC_STAT_HOT p 0).st .DRC_REF_TREFI_NS p 3900 else d
    | h :: l =>
      let d := (d.st .DRC_TEMP_DEV p (l.foldl min h)).st .DRC_TEMP_VALID p 1
      let d := (d.modDrc p (fun x => { x with cool := 0 })).st .DRC_STAT_HOT p 1
      let d := d.st .DRC_REF_TREFI_NS p 1950
      (d.ranks p).foldl (fun d r => if 4 * d.trefi p ≤ d.debt p r then d.urgentStart p r else d) d

/-- The largest correction from a trained centre is shown, and one beyond LIMIT is flagged (R371). -/
def Dev.trackLimit (d : Dev) (p : Nat) : Dev :=
  let d := d.trackShow p
  if d.rg .DRC_TRK_LIMIT p < d.rg .DRC_TRK_MAXOFF p then (d.st .DRC_STAT_TRKLIM p 1).irq (193 + p) else d

/-- Read-side tracking of a rank on one read (R371): the groups in `moved` ask for one step up or down, and a group steps
at most once in 64 reads. -/
def Dev.readTrack (d : Dev) (p r : Nat) (moved : List (Nat × Bool)) : Dev :=
  let step := fun (m : AMap (Nat × Nat) (Int × Nat)) (g : Nat) =>
    let v := (m.get? (r, g)).getD (0, 0)
    match (moved.find? (·.1 == g)).map (·.2) with
    | some up => if 63 ≤ v.2 then m.put (r, g) (v.1 + (if up then 1 else -1), 0) else m.put (r, g) (v.1, v.2 + 1)
    | none => m.put (r, g) (v.1, min (v.2 + 1) 63)
  let d := d.modDrc p (fun x => { x with rcorr := (List.range 36).foldl step x.rcorr })
  if moved.isEmpty then d else d.trackLimit p

/-! ## Requests (R375, R376) -/

/-- Bank (with its rank and group) and row of port-local line `q` (R366). -/
def Dev.devAddr (d : Dev) (p q : Nat) : Nat × Nat × Nat :=
  let b := 2 ^ (if d.rg .DRC_CFG_DENS p = 0 then 1 else 2)
  let k := d.rg .DRC_CFG_RANKS p + 1
  let rank := q / (1024 * b) % k
  (rank, q % 8 + 8 * (q / 1024 % b) + 32 * rank, q / (1024 * b * k))

/-- Consumer code of a source (R27). -/
def dramCons : DramSrc → Nat
  | .bobbin _ => 1
  | .awg => 6
  | .acq => 5
  | .prog _ => 0xE
  | .failSpill => 4
  | .host => 8
  | .dma _ => 9
  | .block _ => 0xB
  | .telemetry => 0xF
  | .sealer => 0xD

/-- Whether the source is turned away from sealed lines (R446). -/
def dramGuarded : DramSrc → Bool
  | .host => true
  | .dma _ => true
  | .block _ => true
  | _ => false

/-- Queue depths in the registers. -/
def Dev.depth (d : Dev) (p : Nat) : Dev :=
  let n := (d.drc p).writes.length
  let x := d.drc p
  let drain := if d.rg .DRC_WQ_HIWM p ≤ n then true else if n ≤ d.rg .DRC_WQ_LOWM p then false else x.drain
  (d.setDrc p { x with drain := drain }).st .DRC_WQ_DEPTH p n

/-- DRAM_REQUEST_ACCEPT: a request of `src` for a line; a write brings bytes from offset `off` of the line on. A request
waits at its source when its queue is full or its port is not READY. Memory holds the newest accepted data; a read of a
line in the write queue, or at or above the zeroing watermark, is served at once (R375, R382). -/
def State.reqAccept (s : State) (src : DramSrc) (line : Nat) (write : Bool) (off : Nat) (l : List Nat) (h : Wr) : State :=
  let d := s.dev
  if dramGuarded src && d.sealed line then s.onDev (·.bump .SEC_GUARDCNT_COUNT 0 1)
  else match (if write then d.writePath line else d.dramPath line), d.lineAt line with
  | .waits, _ => s
  | .served, some (p, _) =>
    let x := d.drc p
    let r : DramReq := ⟨x.no, src, line, write, 0⟩
    if write then
      if 64 ≤ x.writes.length then s
      else ((s.onDev (·.setDrc p { x with no := x.no + 1, writes := x.writes ++ [r] })).dramWrite (dramCons src)
        (line * 256 + off % 256) (l.take (256 - off % 256)) h).onDev (·.depth p)
    else if d.unzeroed line || x.writes.any (·.line == line) then
      let r := d.dramLine s.mem (dramCons src) line
      { s with dev := r.2.2.emit (.dramData p src line r.1 r.2.1) }
    else if 128 ≤ x.reads.length then s
    else s.onDev (·.setDrc p { x with no := x.no + 1, reads := x.reads ++ [r] })
  | _, _ =>
    if write then s.dramWrite (dramCons src) (line * 256 + off % 256) l h
    else
      let r := d.dramLine s.mem (dramCons src) line
      { s with dev := r.2.2.emit (.dramData 0 src line r.1 r.2.1) }

/-- Level of a request (R376). -/
def Dev.level (d : Dev) (p : Nat) (r : DramReq) : Nat :=
  if d.panic r.src then 2 else if r.write then (if (d.drc p).drain then 4 else if (d.drc p).reads.isEmpty then 6 else 8) else 5

/-- The request to go next: of the lowest level the oldest, or the oldest to an open row when none it passes has been
passed 16 times. Ranks in an urgent sequence are closed. -/
def Dev.reqPick (d : Dev) (p : Nat) : Option DramReq :=
  let x := d.drc p
  let addr := fun (r : DramReq) => d.devAddr p (((d.lineAt r.line).map (·.2)).getD 0)
  let l := (x.reads ++ x.writes).filter (fun r => !x.urgent.contains (addr r).1 && d.level p r < 8)
  match l with
  | [] => none
  | a :: t =>
    let lv := t.foldl (fun m r => min m (d.level p r)) (d.level p a)
    let c := l.filter (fun r => d.level p r == lv)
    let old := c.foldl (fun b r => if r.no < b.no then r else b) (c.headD a)
    let hits := c.filter (fun r => x.rows.get? (addr r).2.1 == some (addr r).2.2)
    match hits with
    | [] => some old
    | h :: t =>
      let h := t.foldl (fun b r => if r.no < b.no then r else b) h
      if c.all (fun r => h.no ≤ r.no || r.passed < 16) then some h else some old

/-- A request goes to the devices: its row is open now, and rows that no queued request targets close (R366). -/
def Dev.reqGo (d : Dev) (p : Nat) (r : DramReq) : Dev :=
  let x := d.drc p
  let lv := d.level p r
  let addr := fun (r : DramReq) => d.devAddr p (((d.lineAt r.line).map (·.2)).getD 0)
  let mark := fun (l : List DramReq) => (l.filter (·.no != r.no)).map (fun y =>
    if y.no < r.no ∧ d.level p y = lv then { y with passed := y.passed + 1 } else y)
  let reads := mark x.reads
  let writes := mark x.writes
  let rows := (x.rows.put (addr r).2.1 (addr r).2.2).filter (fun w =>
    (reads ++ writes).any (fun y => (addr y).2.1 == w.1 && (addr y).2.2 == w.2))
  (d.setDrc p { x with reads := reads, writes := writes, rows := rows
                       flight := if r.write then x.flight else x.flight ++ [r] }).depth p

/-- A request goes to the devices; a write crosses the encryption boundary, and is written poisoned where the two copies
of the step disagree on a word of it (R28, R30). -/
def State.reqOut (s : State) (p : Nat) (r : DramReq) (dup : Option (Fin 16)) : State :=
  let s := s.onDev (·.reqGo p r)
  match r.write, dup with
  | true, some k => s.dupLine (dramBase + r.line * 256) k
  | _, _ => s

/-- Whether background work of level 7 is issued: nothing stands before it. -/
def Dev.bgIdle (d : Dev) (p : Nat) : Bool :=
  (d.drc p).urgent.isEmpty && !(d.drc p).due.any (fun r => decide (d.trefi p ≤ d.debt p r)) && (d.drc p).promo.isEmpty
    && (d.reqPick p).isNone

/-- Whether the background action `k` is issued: at level 7, or promoted at level 3 (R371). -/
def Dev.bgGoes (d : Dev) (p : Nat) (k : DramBg) : Bool :=
  d.bgIdle p || ((d.drc p).promo.contains k && (d.drc p).urgent.isEmpty
    && (d.reqPick p).all (fun r => decide (2 < d.level p r)))

/-- Whether scrub reads its next line: at level 7, or at level 5 when it is 1 s behind its schedule (R381). -/
def Dev.scrubGoes (d : Dev) (p : Nat) : Bool :=
  d.bgIdle p || (decide ((d.drc p).pass + d.lineTicks p * d.rg .DRC_SCRUB_POS_LINE p + 1000000000 * cyc ≤ d.tick)
    && (d.drc p).urgent.isEmpty && !(d.drc p).due.any (fun r => decide (d.trefi p ≤ d.debt p r)) && (d.drc p).promo.isEmpty
    && (d.reqPick p).all (fun r => decide (4 < d.level p r)))

/-- DQS_OSC_TRACKING: write-delay corrections of the rank's groups (R371). -/
def Dev.tracking (d : Dev) (p r : Nat) (l : List Int) : Dev :=
  if d.rg .DRC_STAT_STATE p ≠ 3 ∨ !(d.ranks p).contains r ∨ !d.bgGoes p .tracking then d
  else
    let d := d.modDrc p (fun x => { x with
      promo := x.promo.filter (· ≠ .tracking)
      corr := ((l.take 36).zipIdx).foldl (fun m v => m.put (r, v.2) v.1) x.corr })
    d.trackLimit p

/-- DRAM_REQUEST_ISSUE: urgent refreshes, panic requests, due refreshes and promoted background actions,
then the rest (R376, R379). -/
def State.reqIssue (s : State) (p : Nat) (dup : Option (Fin 16)) : State :=
  let d := s.dev
  if d.rg .DRC_STAT_STATE p ≠ 3 then s
  else match (d.drc p).urgent with
  | r :: _ => s.onDev (fun d => if 4 * d.trefi p ≤ d.debt p r then d.refresh p r else d.urgentEnd p r)
  | [] =>
    let due := (d.drc p).due.find? (fun r => d.trefi p ≤ d.debt p r)
    match d.reqPick p, due with
    | some r, some k => if d.level p r ≤ 2 then s.reqOut p r dup else s.onDev (·.refresh p k)
    | some r, none => if 2 < d.level p r ∧ !(d.drc p).promo.isEmpty then s else s.reqOut p r dup
    | none, some k => s.onDev (·.refresh p k)
    | none, none => s

/-- DRAM_READ_COMPLETE: the oldest read on its way is checked, decrypted and delivered (R29); every word of it poisoned
where the two copies of the step disagree on word `dup` (R30). -/
def State.readComplete (s : State) (p : Nat) (dup : Option (Fin 16)) (moved : List (Nat × Bool)) : State :=
  match (s.dev.drc p).flight with
  | [] => s
  | r :: l =>
    let d := s.dev.modDrc p (fun x => { x with flight := l })
    let w := d.dramLine s.mem (dramCons r.src) r.line
    let d := w.2.2.readTrack p (d.devAddr p (((d.lineAt r.line).map (·.2)).getD 0)).1 moved
    match dup with
    | none => { s with dev := d.emit (.dramData p r.src r.line w.1 w.2.1) }
    | some k =>
      let d := d.dupReport true (dramBase + r.line * 256 + 16 * k.val) 0x0C
      { s with dev := d.emit (.dramData p r.src r.line w.1 (List.replicate 16 true)) }

/-! ## Scrub and zeroing (R381 to R383) -/

/-- Scrub one code word (R26, R32, R381). -/
def State.scrubWord (s : State) (a : Nat) : State := s.rewriteWord 0x0A a

/-- DRAM_SCRUB_READ: a line at or above the zeroing watermark is skipped. -/
def State.scrubRead (s : State) (p : Nat) : State :=
  let d := s.dev
  if d.rg .DRC_STAT_STATE p ≠ 3 ∨ d.portLines p = 0 ∨ !d.scrubGoes p then s
  else
    let q := d.rg .DRC_SCRUB_POS_LINE p
    let a := dramBase + d.sysLine p q * 256
    let s := if d.on .DRC_ZERO_ACTIVE p && decide (d.rg .DRC_ZERO_WM p ≤ d.sysLine p q) then s
      else (List.range 16).foldl (fun s k => s.scrubWord (a + 16 * k)) s
    if d.portLines p ≤ q + 1 then
      s.onDev (fun d => ((d.st .DRC_SCRUB_POS_LINE p 0).st .DRC_SCRUB_POS_PASSES p (d.rg .DRC_SCRUB_POS_PASSES p + 1)).modDrc p
        (fun x => { x with pass := d.tick }))
    else s.onDev (·.st .DRC_SCRUB_POS_LINE p (q + 1))

/-- DRAM_ZERO_LINE: the line at the watermark is zero, unless its block was written ahead, and poisoned where the copies of
the encryption step disagree on its word `dup` (R30); the watermark moves on. -/
def State.zeroLine (s : State) (p : Nat) (dup : Option (Fin 16)) : State :=
  let d := s.dev
  if d.rg .DRC_STAT_STATE p ≠ 3 ∨ !d.on .DRC_ZERO_ACTIVE p ∨ !d.bgIdle p then s
  else
    let wm := max (d.rg .DRC_ZERO_WM p) (d.sysLine p 0)
    let q := match d.lineAt wm with | some (_, q) => q | none => d.portLines p
    let a := dramBase + wm * 256
    let s := if d.ahead.contains (p, q / 16) then s
      else match dup with
        | none => s.zeroRange a (a + 256)
        | some k => (s.zeroRange a (a + 256)).dupLine a k
    s.onDev (fun d =>
      let d := if (q + 1) % 16 = 0 then { d with ahead := d.ahead.filter (· ≠ (p, q / 16)) } else d
      let d := d.st .DRC_ZERO_AHEAD p (d.ahead.filter (·.1 == p)).length
      let d := d.st .DRC_ZERO_WM p (d.sysLine p (q + 1))
      if d.portLines p ≤ q + 1 then d.st .DRC_ZERO_ACTIVE p 0 else d)

/-! ## Configuration (R364, R386) -/

/-- The state that a configuration gives: ABSENT, or UNTRAINED with CFGERR for an unsupported geometry. -/
def Dev.drcConfig (d : Dev) (p : Nat) : Dev :=
  let d := if !d.on .DRC_CFG_POP p then d.drcState p 0 else d.drcState p 1
  if d.rg .DRC_CFG_DENS p = 3 ∨ (d.on .DRC_CFG_RANKS p ∧ d.rg .DRC_CFG_DENS p = 2) then d.st .DRC_STAT_CFGERR p 1 else d

/-! ## The commands -/

/-- A command of a port whose domain is on. -/
def State.onPort (s : State) (p : Nat) (g : Dev → Dev) : State := if s.dev.domOn (domDr p) then s.onDev g else s

def execDramTrainingComplete (p : DramId) (l : List Sweep) (s : State) : Answer :=
  .next (s.onDev (·.trainDone p l))
def execDramRetrainSlice (p : DramId) (fin : Option (List Sweep)) (s : State) : Answer := .next (s.onPort p (·.retrain p fin))
def execDrcFspReq (p : DramId) (target : BitVec 1) (force : Bool) (s : State) : Answer :=
  .next (s.onDev (fun d => if d.domOn (domDr p) then d.fspReq p target.toNat force else d.bump .PWR_ACCREJ_COUNT 0 1))
def execFspChangeStart (p : DramId) (s : State) : Answer := .next (s.onPort p (·.fspStart p))
def execFspChangeComplete (p : DramId) (s : State) : Answer := .next (s.onPort p (·.fspDone p))
def execDramRequestAccept (src : DramSrc) (line : BitVec 30) (write : Bool) (off : Byte) (data : List Byte) (ep : Bool)
    (s : State) : Answer :=
  .next (s.reqAccept src line.toNat write off.toNat (data.map (·.toNat)) { ep := ep })
def execDramRequestIssue (p : DramId) (s : State) (dup : Option (Fin 16) := none) : Answer :=
  .next (if s.dev.domOn (domDr p) then s.reqIssue p dup else s)
def execDramReadComplete (p : DramId) (s : State) (dup : Option (Fin 16) := none)
    (moved : List (Fin 36 × Bool) := []) : Answer :=
  .next (if s.dev.domOn (domDr p) then s.readComplete p dup (moved.map (fun x => (x.1.val, x.2))) else s)
def execRefreshDue (p : DramId) (rank : Fin 2) (s : State) : Answer := .next (s.onPort p (·.refreshDue p rank))
def execUrgentRefreshSequence (p : DramId) (rank : Fin 2) (s : State) : Answer := .next (s.onPort p (·.urgentAt p rank))
def execDramTempRead (p : DramId) (hot : List (Fin 72)) (s : State) : Answer :=
  .next (s.onPort p (·.tempRead p (hot.map (·.val))))
/-- ZQ_CALIBRATION (R363). -/
def execZqCalibration (p : DramId) (rank : Fin 2) (s : State) : Answer :=
  .next (s.onPort p (fun d => if d.rg .DRC_STAT_STATE p = 3 ∧ (d.ranks p).contains rank.val ∧ d.bgGoes p .zq then
    (d.modDrc p (fun x => { x with promo := x.promo.filter (· ≠ .zq) })).emit (.zq p rank) else d))
def execDqsOscTracking (p : DramId) (rank : Fin 2) (corr : List Int) (s : State) : Answer :=
  .next (s.onPort p (·.tracking p rank corr))
/-- BACKGROUND_PROMOTE (R371). -/
def execBackgroundPromote (p : DramId) (k : DramBg) (s : State) : Answer :=
  .next (s.onPort p (·.modDrc p (fun x => { x with promo := x.promo.filter (· ≠ k) ++ [k] })))
def execDramScrubRead (p : DramId) (s : State) : Answer := .next (if s.dev.domOn (domDr p) then s.scrubRead p else s)
def execDramZeroLine (p : DramId) (s : State) (dup : Option (Fin 16) := none) : Answer :=
  .next (if s.dev.domOn (domDr p) then s.zeroLine p dup else s)

end Sys2Proof.Machine
end

