-- ==== Sys2Proof/Machine/Calib.lean ====
section
/-!
DEFINITION. The calibration store, temperature interpolation, sensors and re-trim (R422 to R431, R437, R438).
-/

namespace Sys2Proof.Machine

/-! ## Records (R422, R423) -/

/-- CRC-32 as in IEEE 802.3 of a byte string. -/
def crc32 (l : List Nat) : Nat := crcBytes 0 0xFFFFFFFF l ^^^ 0xFFFFFFFF

/-- A record that passes its check word: TYPE, INDEX, UNIT, SEQ, payload. `l` is the record with its padding. -/
def recordOf (l : List Nat) : Option (Nat × Nat × Nat × Nat × List Nat) :=
  let h := leNat (l.take 16)
  let n := bitsOf h 64 32
  if l.length < 20 + n then none
  else if leNat ((l.drop (16 + n)).take 4) ≠ crc32 (l.take (16 + n)) then none
  else some (bitsOf h 0 8, bitsOf h 8 8, bitsOf h 16 9, bitsOf h 32 32, (l.drop 16).take n)

/-- Where a CHANNEL record lies: five temperature points of a channel one after another (log 25). -/
def chanRec (c i : Nat) : Nat := nvmBase + (c * 5 + i) * 192

/-- Where a PROFILE record lies: two slots of 16 domain records. -/
def profRec (prof slot k : Nat) : Nat := nvmBase + 0x78000 + (prof * 2 + slot) * 4608 + k * 288

/-- Whether the CHANNEL record of point `i` of channel `c` passes (R424). -/
def chanOk (m : List Host.Cell) (c i : Nat) : Bool :=
  match recordOf (memRead m (chanRec c i) 192) with
  | some (1, j, u, _, p) => j == i && u == c && p.length == 160
  | _ => false

/-- SEQ and payload of a profile slot that passes. -/
def profOk (m : List Host.Cell) (prof slot k : Nat) : Option (Nat × List Nat) :=
  match recordOf (memRead m (profRec prof slot k) 288) with
  | some (2, j, u, q, p) => if j = prof ∧ u = k ∧ p.length = 258 then some (q, p) else none
  | _ => none

/-- The slot in use: the passing one, of two the one with the higher SEQ (R424). -/
def profPick (m : List Host.Cell) (prof k : Nat) : Option (Nat × List Nat) :=
  match profOk m prof 0 k, profOk m prof 1 k with
  | some a, some b => if a.1 < b.1 then some b else some a
  | some a, none => some a
  | none, b => b

/-- Deskew of channel `j` of the domain in a PROFILE payload: DRV, DEN, CMH, CML in ticks. -/
def deskewOf (p : List Nat) (j : Nat) : List Int :=
  (List.range 4).map (fun v => signed 16 (leNat ((p.drop (8 * j + 2 * v)).take 2)))

/-! ## Interpolation (R425) -/

/-- Temperatures of the points in 1/16 °C. -/
def pointTemp (i : Nat) : Int := 400 + 320 * i

/-- The value between points `i` and `i + 1` at temperature `t` (1/16 °C): to the nearest unit, halves up. -/
def interpolate (v0 v1 : Int) (i : Nat) (t : Int) : Int := ((v0 * 320 + (v1 - v0) * (t - pointTemp i)) * 2 + 320) / 640

/-- The lower of the two points that bracket `t`. -/
def pointBelow (t : Int) : Nat := if t < 720 then 0 else if t < 1040 then 1 else if t < 1360 then 2 else 3

/-- The value of `n` bytes at offset `o` of a channel's records, interpolated at temperature `t` (R425); `sg` tells that
it is signed. Above 105 °C that point counts. -/
def chanValue (m : List Host.Cell) (c o n : Nat) (sg : Bool) (t : Int) : Int :=
  let t := min 1680 t
  let i := pointBelow t
  let v := fun (i : Nat) =>
    let x := leNat (memRead m (chanRec c i + 16 + o) n)
    if sg then signed (8 * n) x else (x : Int)
  interpolate (v i) (v (i + 1)) i t

/-- The values of timing path `k` of channel `c` at temperature `t` (R423, R425). -/
def pathAt (m : List Host.Cell) (c k : Nat) (t : Int) : PathCal :=
  ⟨chanValue m c (20 * k) 2 true t, chanValue m c (20 * k + 2) 2 false t,
   (List.range 16).map (fun i => chanValue m c (20 * k + 4 + i) 1 true t)⟩

/-- New values for the channels of pin domain `k` at temperature TCALC (R427): none on a CALBAD channel (R424). -/
def Dev.computeVals (d : Dev) (m : List Host.Cell) (k : Nat) : Dev :=
  let t := signed 16 (d.rgi .CAL_TEMP_TCALC 0 k)
  { d with cal := { d.cal with newest := (List.range 32).foldl (fun a j =>
      let c := 32 * k + j
      a.put c (if d.on .PIN_CAL_STAT_CALBAD c then [] else (List.range 8).map (fun p => pathAt m c p t))) d.cal.newest } }

/-! ## Loading a pin domain (R390, R424) -/

/-- The profile selected and enabled. -/
def Dev.profSel (d : Dev) : Option Nat := if d.on .CAL_PROFILE_EN 0 then some (d.rg .CAL_PROFILE_SEL 0) else none

/-- The deskew of the selected profile for domain `k`; quads take it at their next burst boundary. -/
def Dev.loadProfile (d : Dev) (m : List Host.Cell) (k : Nat) : Dev :=
  let p := match d.profSel with
    | some n => (profPick m n k).map (·.2)
    | none => none
  let t := (List.range 32).foldl (fun t j => t.put (32 * k + j) (match p with
    | some l => deskewOf l j
    | none => [0, 0, 0, 0])) d.cal.prof
  let d := { d with cal := { d.cal with prof := t, old := (d.cal.old ++ pdQuads k).eraseDups } }
  d.calBits k

/-- Idle quads of domain `k` take the newest values at once. -/
def Dev.takeFree (d : Dev) (k : Nat) : Dev :=
  (pdQuads k).foldl (fun d q => if d.quadFree q then d.calTake q else d) d

/-- A pin domain checks its CHANNEL records, logs each channel that fails (R499), computes values at the present
temperature and loads its deskew. -/
def Dev.pdInit (d : Dev) (m : List Host.Cell) (k : Nat) : Dev :=
  let d := (List.range 32).foldl (fun d j =>
    let c := 32 * k + j
    let bad := ((List.range 5).map (fun i => if chanOk m c i then 0 else 2 ^ i)).foldl (· + ·) 0
    let d := ((d.st .PIN_CAL_STAT_PTFAIL c bad).st .PIN_CAL_STAT_CALBAD c (b2n (bad != 0))).st .PIN_CAL_STAT_DRIFT c 0
    if bad = 0 then d else d.logEv 0x05 0x10 c bad) d
  let any := (List.range 32).any (fun j => d.on .PIN_CAL_STAT_CALBAD (32 * k + j))
  let d := d.pdBit .CAL_BAD_PD k any
  let d := if any then d.bootErr .HOST_BOOTERR_CALCRC else d
  let d := d.sti .CAL_TEMP_TCALC 0 k (d.rgi .CAL_TEMP_TNOW 0 k)
  let d := { d with cal := { d.cal with due := d.cal.due.filter (· ≠ k) } }
  ((d.computeVals m k).loadProfile m k).takeFree k

/-! ## Sensors and re-trim (R426 to R430) -/

/-- |T − T'| in 1/16 °C. -/
def tempDiff (a b : Int) : Nat := (a - b).natAbs

/-- CAL_CTRL.THR in effect. -/
def Dev.calThr (d : Dev) : Nat := max 8 (min 48 (d.rg .CAL_CTRL_THR 0))

/-- Whether CALIBRATE runs on pin domain `k` (R430). -/
def Dev.calRuns (d : Dev) (k : Nat) : Bool :=
  match d.cmd with
  | some c => c.op == 2 && bitOf (c.args.getD 1 0) k && !bitOf (c.args.getD 0 0) 13
  | none => false

/-- A quad passes its deadline: DRIFT of its channels and domain, and of a burst that runs on it (R429). -/
def Dev.driftQuad (d : Dev) (q : Nat) : Dev :=
  if (quadChans q).all (fun c => d.on .PIN_CAL_STAT_DRIFT c) then d
  else
    let d := (quadChans q).foldl (fun d c => d.st .PIN_CAL_STAT_DRIFT c 1) d
    let d := d.pdBit .CAL_DRIFT_PD (q / 8) true
    match d.quadOwner q with
    | some e =>
      if d.runs e && !d.on .ENG_RES_STAT_DRIFT e then (d.st .ENG_RES_STAT_DRIFT e 1).raise e 8
      else if d.runs e then d.st .ENG_RES_STAT_DRIFT e 1 else d
    | none => d

/-- A sensor's reading in 1/16 °C joins its mean over the last 16; drift deadlines and re-trims of its pin domain
follow. The mean is rounded down (log 26). -/
def Dev.sensor (d : Dev) (k : Nat) (r : Int) : Dev :=
  let l := (r :: (d.cal.reads.get? k).getD []).take 16
  let t := (l.foldl (· + ·) 0) / (l.length : Int)
  let d := { d with cal := { d.cal with reads := d.cal.reads.put k l } }
  let d := d.sti .CAL_TEMP_TNOW 0 k (unsigned 16 t)
  if 16 ≤ k ∨ !d.domOn (domPd k) then d
  else
    let d := (pdQuads k).foldl (fun d q =>
      if 48 < tempDiff t ((d.cal.used.get? q).getD 0) then d.driftQuad q else d) d
    if d.on .CAL_CTRL_RTEN 0 && d.calThr < tempDiff t (signed 16 (d.rgi .CAL_TEMP_TCALC 0 k)) && !d.cal.due.contains k then
      { d with cal := { d.cal with due := d.cal.due ++ [k] } }
    else d

/-- New values of a domain at its present filtered temperature: every quad has still to take them. -/
def Dev.retrim_ (d : Dev) (m : List Host.Cell) (k : Nat) : Dev :=
  let d := ((d.sti .CAL_TEMP_TCALC 0 k (d.rgi .CAL_TEMP_TNOW 0 k)).bump .CAL_RTCNT_COUNT 0 1).computeVals m k
  ({ d with cal := { d.cal with due := d.cal.due.filter (· ≠ k), old := (d.cal.old ++ pdQuads k).eraseDups } }).calBits k

/-- RETRIM_COMPUTE_DONE. -/
def Dev.retrimDone (d : Dev) (m : List Host.Cell) (k : Nat) : Dev :=
  if d.cal.due.contains k && d.domOn (domPd k) && !d.calRuns k then d.retrim_ m k else d

/-- CAL_PROFILE_SELECT (R431): refused when a domain that is on has no valid record of the profile. -/
def State.profSelect (s : State) (sel : Nat) (en : Bool) : State :=
  let bad := en && (List.range 16).any (fun k => s.dev.domOn (domPd k) && (profPick s.mem sel k).isNone)
  if bad then s.onDev (·.st .CAL_STAT_WREJ 0 1)
  else s.onDev (fun d =>
    let d := (d.st .CAL_PROFILE_SEL 0 sel).st .CAL_PROFILE_EN 0 (b2n en)
    (List.range 16).foldl (fun d k => if d.domOn (domPd k) then d.loadProfile s.mem k else d) d)

def execRetrimComputeDone (k : PdId) (s : State) : Answer := .next (s.onDev (·.retrimDone s.mem k))
def execCalProfileSelect (sel : BitVec 5) (en : Bool) (s : State) : Answer := .next (s.profSelect sel.toNat en)

end Sys2Proof.Machine
end

