-- ==== Sys2Proof/Machine/SewCore.lean ====
section
/-!
DEFINITION. Baste and sew: the application of taken fields at burst boundaries (R324 to R327, R58, R59, R64, R139, R173,
R419).
-/

namespace Sys2Proof.Machine

/-! ## Applying (R326) -/

/-- Mark taken fields as applied. -/
def Dev.markApplied (d : Dev) (p : Taken → Bool) : Dev :=
  { d with taken := d.taken.map (fun (t : Taken) => if p t then { t with applied := true } else t) }

/-- Whether a taken field waits on a unit: its group, where it waits. -/
def Dev.waitsFor (d : Dev) (fs : List Field) (u : Nat) : Option Nat :=
  (d.taken.find? (fun t => !t.applied && t.key.u == u && fs.contains t.key.f)).map (·.grp)

def qownFields : List Field := [.PIN_QOWN_OWNER, .PIN_QOWN_UNOWNED]
def tieFields : List Field := [.ENG_TIE_GROUP, .ENG_TIE_TIED]
def entryFields : List Field := [.ENG_ENTRY_ADDR, .ENG_ENTRY_BANK, .ENG_ENTRY_LEAD]

/-- The value of a field once the waiting values apply. -/
def Dev.coming (d : Dev) (f : Field) (u : Nat) : Nat :=
  match d.taken.find? (fun t => t.key == ⟨f, u, 0⟩) with
  | some t => t.val
  | none => d.rg f u

/-- The engine that owns quad `q` once the waiting values apply. -/
def Dev.quadNext (d : Dev) (q : Nat) : Option Nat :=
  if d.coming .PIN_QOWN_UNOWNED q = 1 then none else some (q / 16 * 16 + d.coming .PIN_QOWN_OWNER q)

/-- Old and new owner of a quad. -/
def Dev.quadOwners (d : Dev) (q : Nat) : List Nat := (d.quadOwner q).toList ++ (d.quadNext q).toList

/-- A quad's new owner applies where neither owner nor their tie groups run a burst: its channels go to park state (R58,
R59). An UNOWNED quad takes calibration values at once (R428). -/
def Dev.qownApply (d : Dev) (q : Nat) : Dev :=
  match d.waitsFor qownFields q with
  | none => d
  | some _ =>
    if (d.quadOwners q).any d.groupRuns then d
    else
      let d := d.markApplied (fun t => t.key.u == q && qownFields.contains t.key.f)
      let d := (quadChans q).foldl (fun d c => d.park c d.tick) d
      (d.st .PIN_QOWN_PENDING q 0).calTake q

/-- Whether a burst runs on the tie group of this device that engine `e` belongs to once the waiting values apply (R58,
R64). -/
def Dev.nextGroupRuns (d : Dev) (e : Nat) : Bool :=
  d.coming .ENG_TIE_TIED e == 1 && (List.range 128).any (fun x => d.tied x && d.grp x == d.coming .ENG_TIE_GROUP e && d.runs x)

/-- Fields of an engine apply where it and its tie group run no burst; a tie membership also waits for its new group. -/
def Dev.engApply (d : Dev) (fs : List Field) (e : Nat) : Dev :=
  match d.waitsFor fs e with
  | none => d
  | some _ =>
    if d.groupRuns e || (fs.contains .ENG_TIE_TIED && d.nextGroupRuns e) then d
    else (d.markApplied (fun t => t.key.u == e && fs.contains t.key.f)).raise e 3

/-- ENG_SEWSTART.ARM applies when every other field of the sew that concerns the engine has; a 1 orders a start and
returns to 0 (R173, R174, R326). -/
def Dev.sewstartApply (d : Dev) (e : Nat) : Dev :=
  match d.waitsFor [.ENG_SEWSTART_ARM] e with
  | none => d
  | some g =>
    let own := d.waitsFor (tieFields ++ entryFields ++ [.ENG_CMP_MASK_MASK]) e
    let quads := (List.range 128).any (fun q => d.waitsFor qownFields q == some g
      && (d.quadOwners q).any (fun o => (d.members o).contains e))
    let md := match d.modeChg with
      | some (h, _, l) => h == g && l.contains e
      | none => false
    if d.groupRuns e || own.isSome || quads || md then d
    else
      let v := d.coming .ENG_SEWSTART_ARM e
      let d := { d with taken := d.taken.map (fun (t : Taken) =>
        if t.key = (⟨.ENG_SEWSTART_ARM, e, 0⟩ : RegKey) then { t with applied := true, val := 0 } else t) }
      if v = 1 then d.startOrder e else d.raise e 3

/-- A new mode applies to an engine at its burst boundary (R419); the device's mode changes with the sew (R327, R417). -/
def Dev.modeApply (d : Dev) (e : Nat) : Dev :=
  match d.modeChg with
  | none => d
  | some (g, m, l) =>
    if !l.contains e || d.groupRuns e then d
    else { (d.st .ENG_MODE_MODE e m).raise e 3 with modeChg := some (g, m, l.filter (· ≠ e)) }

/-- Everything of the PENDING sews that can apply in this cycle, in the order of R326. -/
def Dev.sewTry (d : Dev) : Dev :=
  let each := fun (d : Dev) (h : Dev → Nat → Dev) => (List.range 128).foldl h d
  let d := each d (fun d e => d.modeApply e)
  let d := each d (fun d q => d.qownApply q)
  let d := each d (fun d e => d.engApply tieFields e)
  let d := each d (fun d e => d.engApply [.ENG_CMP_MASK_MASK] e)
  let d := each d (fun d e => d.engApply entryFields e)
  (each d (fun d e => d.sewstartApply e)).sewSettleAll

/-- BASTED_WRITE: a write of an RWB field. -/
def Dev.bastWrite (d : Dev) (k : RegKey) (v : Nat) : Dev :=
  if d.domOn (unitDom k) then d.baste k v else d.bump .PWR_ACCREJ_COUNT 0 1

def execQuadOwnershipApply (q : QuadId) (s : State) : Answer := .next (s.onDev (fun d => (d.qownApply q).sewSettleAll))
def execTieMembershipApply (e : EngId) (s : State) : Answer := .next (s.onDev (fun d => (d.engApply tieFields e).sewSettleAll))
def execCmpMaskApply (e : EngId) (s : State) : Answer :=
  .next (s.onDev (fun d => (d.engApply [.ENG_CMP_MASK_MASK] e).sewSettleAll))
def execEntryApply (e : EngId) (s : State) : Answer := .next (s.onDev (fun d => (d.engApply entryFields e).sewSettleAll))
def execSewstartApply (e : EngId) (s : State) : Answer := .next (s.onDev (fun d => (d.sewstartApply e).sewSettleAll))
def execModeApply (e : EngId) (s : State) : Answer := .next (s.onDev (fun d => (d.modeApply e).sewSettleAll))

end Sys2Proof.Machine
end

