-- ==== Sys2Proof/Machine/Power.lean ====
section
/-!
DEFINITION. Power domains: contents, group requests, transitions, re-initialisation, wakes and DOZE (R387 to R405, R411).
-/

namespace Sys2Proof.Machine

/-! ## What a domain holds (R387, R411, R421, R468, R494) -/

/-- The power domain of the register of a block at offset `off`, instance `u`. -/
def blkDom (b : Blk) (u off : Nat) : Nat :=
  match b with
  | .host =>
    if (0x100 ≤ off ∧ off < 0x128) ∨ (0x400 ≤ off ∧ off < 0x440) ∨ (0x800 ≤ off ∧ off < 0xB00) then 0 else domHost
  | .dma => domHost
  | .cmd => domHost
  | .drc => domDr u
  | .lane => laneDom u
  | .sp => domSeam
  | .sd => domSeam
  | .link => domCnv
  | .ddc => domDsp
  | .awg => domDsp
  | .acq => domDsp
  | .acqx => domDsp
  | .eng => domK (u / 16)
  | .pm => domK u
  | .ft => domK u
  | .pin => domPd (u / 32)
  | .quad => domPd (u / 8)
  | .feb => domPd u
  | _ => 0

/-- The power domain of a field. -/
def keyDom (k : RegKey) : Nat := blkDom k.f.info.blk k.u k.f.info.off

/-- DRAM port fields that off keeps (R411). -/
def drcKept : List Field :=
  [.DRC_CFG_POP, .DRC_CFG_RANKS, .DRC_CFG_DENS, .DRC_CFG_INTLV, .DRC_CFG_FSPBOTH, .DRC_FSP_TARGET,
   .DRC_WQ_HIWM, .DRC_WQ_LOWM, .DRC_SCRUB_HOURS, .DRC_TRK_LIMIT, .DRC_SUSTHR_THR, .DRC_STAT_FSP]

/-- Registers of domain `k` return to their reset values, with no dirty marks. -/
def Dev.dropRegs (d : Dev) (k : Nat) : Dev :=
  let out := fun (x : RegKey) => keyDom x != k || drcKept.contains x.f
  { d with regs := d.regs.filter (fun p => out p.1), basted := d.basted.filter (fun p => out p.1)
           dirty := d.dirty.filter out, taken := d.taken.filter (fun t => out t.key)
           kept := d.kept.filter (fun p => out p.1) }

/-- Unit state of domain `k` is lost; the control stores are read-only memory and keep their errors (R232). -/
def Dev.dropUnits (d : Dev) (k : Nat) : Dev :=
  { d with
    engs := d.engs.map (fun p => if domK (p.1 / 16) = k then (p.1, ({ storeErr := p.2.storeErr } : Eng)) else p),
    fts := d.fts.filter (fun p => domK p.1 ≠ k)
    chans := d.chans.filter (fun p => domPd (p.1 / 32) ≠ k), febs := d.febs.filter (fun p => domPd p.1 ≠ k)
    acqs := if k = domDsp then [] else d.acqs, ddcs := if k = domDsp then [] else d.ddcs
    awgs := if k = domDsp then [] else d.awgs, links := if k = domCnv then [] else d.links
    lanes := d.lanes.filter (fun p => laneDom p.1 ≠ k), ports := if k = domSeam then [] else d.ports
    seamQ := if k = domSeam then [] else d.seamQ, ethSlow := if k = domNet then [] else d.ethSlow
    ethAt := if k = domNet then [] else d.ethAt, flTurn := d.flTurn.filter (fun p => domK p.1 ≠ k)
    far := if k = domSeam then [] else d.far, farQ := if k = domSeam then [] else d.farQ
    seen := if k = domSeam then [] else d.seen, tieIn := if k = domSeam then [] else d.tieIn
    tieGot := if k = domSeam then [] else d.tieGot, heard := if k = domSeam then [] else d.heard
    drcs := d.drcs.filter (fun p => domDr p.1 ≠ k), ahead := d.ahead.filter (fun p => domDr p.1 ≠ k)
    dmas := if k = domHost then [] else d.dmas, tap := if k = domHost then {} else d.tap, msix := if k = domHost then [] else d.msix
    msixEn := if k = domHost then false else d.msixEn, msixFn := if k = domHost then false else d.msixFn }

/-- Address ranges of on-chip memory of domain `k`. -/
def domRanges (k : Nat) : List (Nat × Nat) :=
  if 3 ≤ k ∧ k < 11 then
    let c := k - 3
    (progMem c 0 0, progMem c 0 0 + 0x100000) :: (bobMem (16 * c), bobMem (16 * c) + 0x100000)
      :: (perMem (16 * c) 0, perMem (16 * c) 0 + 16 * 512) :: (eqMem (16 * c), eqMem (16 * c) + 16 * 8192)
      :: (List.range 16).map (fun i => (0x1000000 + 0x10000 * (16 * c + i) + 0x8000, 0x1000000 + 0x10000 * (16 * c + i) + 0x10000))
  else if 11 ≤ k ∧ k < 27 then [(edgeMem (32 * (k - 11)) 0, edgeMem (32 * (k - 11)) 0 + 32 * 1024)]
  else if k = domDsp then [(acqMem 0, acqMem 0 + 16 * 2 ^ 18), (awgMem 0, awgMem 0 + 8 * 2 ^ 18), (0xA40000, 0xAC0000)]
  else if k = domHost then [(0x4000, 0x5000), (0x101000, 0x102000)]
  else []

/-- Zero the on-chip memories of a domain. -/
def State.zeroDom (s : State) (k : Nat) : State := (domRanges k).foldl (fun s r => s.zeroRange r.1 r.2) s

/-- Zero the DRAM of port `p`. -/
def State.zeroPort (s : State) (p : Nat) : State :=
  let here := fun (a : Nat) => dramBase ≤ a && a < 2 ^ 42 && s.dev.portOf (a - dramBase) == p && s.dev.installed (a - dramBase)
  { s with mem := s.mem.filter (fun c => !here c.1)
           dev := { s.dev with poison := s.dev.poison.filter (fun w => !here w), errs := s.dev.errs.filter (fun x => !here x.1) } }

/-! ## States and their records (R389, R403) -/

/-- The HOST_READY bit of a domain, HOST and the DRAM ports apart (R414, R421). -/
def Dev.domReady (d : Dev) (k : Nat) (v : Bool) : Dev :=
  if k = domNet then d.ready .HOST_READY_NET (b2n v)
  else if k = domSeam then d.ready .HOST_READY_SEAM (b2n v)
  else if k = domCnv then d.ready .HOST_READY_CNV (b2n v)
  else if k = domDsp then d.ready .HOST_READY_DSP (b2n v)
  else if 3 ≤ k ∧ k < 11 then d.ready .HOST_READY_K (setBits (d.rg .HOST_READY_K 0) (k - 3) 1 (b2n v))
  else if 11 ≤ k ∧ k < 27 then d.ready .HOST_READY_PD (setBits (d.rg .HOST_READY_PD 0) (k - 11) 1 (b2n v))
  else if k = domHost ∧ !v then d.ready .HOST_READY_HOST 0
  else d

/-- A domain's state change completes: its state, time-stamp record and event-log entry (R403, R499). -/
def Dev.domChange (d : Dev) (k c : Nat) : Dev :=
  let r := d.stamp (k + c * 32)
  ((d.setDom k c).sti .PWR_DOM_TS_RECORD 0 k r).logEv 0x02 0x10 k (r % 2 ^ 96)

def Dev.modPwr (d : Dev) (g : Pwr → Pwr) : Dev := { d with pwr := g d.pwr }

/-- A domain leaves the on state: its outputs are clamped, pins first, and its locks are lost (R392). -/
def Dev.clamp (d : Dev) (k : Nat) : Dev :=
  let d := d.domReady k false
  if 11 ≤ k ∧ k < 27 then (List.range 32).foldl (fun d j => d.park (32 * (k - 11) + j) d.tick) d
  else if k = domNet ∨ k = domSeam ∨ k = domCnv ∨ k = domHost then
    let ns := (List.range 34).filter (fun n => laneDom n == k)
    ns.foldl (fun d n => ((d.st .LNK_LSTAT_LOCK n 0).st .LNK_LSTAT_BLOCK n 0).laneChanged n) d
  else d

/-- What watches the comparators of a pin domain sees that it is on, or no longer (R42, R262). -/
def Dev.pdWatch (d : Dev) (k : Nat) : Dev :=
  if 11 ≤ k ∧ k < 27 then
    let d := (List.range 32).foldl (fun d j =>
      let c := 32 * (k - 11) + j
      if d.domOn k then (d.pairsTo c d.tick).invStart c d.tick else (d.pairsTo c d.tick).invSettle c d.tick true) d
    d.acqPin (32 * (k - 11)) d.tick
  else d

/-- Ticks in `n` µs. -/
def usTicks (n : Nat) : Nat := n * 1000 * cyc

/-- The refreshes a rank owes: each brings its debt down by tREFI, four at most (R378, R385). -/
def Dev.owed (d : Dev) (p r : Nat) : Nat := min 4 ((d.debt p r + d.trefi p - 1) / max 1 (d.trefi p))

/-- How long a domain takes to leave: 10 µs to off, 2 µs to retention, where a DRAM port pays its refresh debt first (R385,
R389). -/
def Dev.leaveTicks (d : Dev) (k : Nat) (off : Bool) : Nat :=
  if off then usTicks 10
  else usTicks 2 + (if 30 ≤ k then
      ((d.ranks (k - 30)).map (d.owed (k - 30))).foldl max 0 * (d.trfc (k - 30) * cyc / 65536) else 0)

/-- A domain begins to leave the on state (or retention). -/
def Dev.domLeave (d : Dev) (k : Nat) (off : Bool) : Dev :=
  let n := d.leaveTicks k off
  let d := d.modPwr (fun x => { x with ends := x.ends.put k (d.tick + n) })
  let d := if d.domOn k then d.clamp k else d
  let d := ((d.setDom k 3).pdWatch k).modPwr (fun x => { x with moves := x.moves.put k (if off then .toOff else .toRet) })
  if 30 ≤ k then
    let d := if off then d else d.modDrc (k - 30) (fun x => { x with mark := [d.nowFrac, d.nowFrac], due := [] })
    d.drcState (k - 30) 5
  else d

/-- All state of a domain is lost. -/
def State.domLose (s : State) (k : Nat) : State :=
  let s := if 30 ≤ k then s.zeroPort (k - 30) else s.zeroDom k
  s.onDev (fun d => (d.dropUnits k).dropRegs k)

/-! ## Values a sew left for a unit in retention (R412) -/

/-- The first cycle a domain is on again: the values a sew took for its units apply, ENG_MODE reads the device's mode. -/
def State.keptApply (s : State) (k : Nat) : State :=
  let l := s.dev.kept.filter (fun p => unitDom p.1 == k)
  let s := s.onDev (fun d =>
    let d := l.foldl (fun d p => d.setKey p.1 p.2) { d with kept := d.kept.filter (fun p => unitDom p.1 != k) }
    if 3 ≤ k ∧ k < 11 then (List.range 16).foldl (fun d i => d.st .ENG_MODE_MODE (16 * (k - 3) + i) (d.rg .SEW_MODE_MODE 0)) d
    else d)
  l.foldl (fun s p =>
    if p.2 ≠ 1 then s
    else if p.1.f = .ENG_SEWSTART_ARM then s.onDev (fun d => (d.setKey p.1 0).startOrder p.1.u)
    else if p.1.f = .AWG_SEWSTART_ARM then s.onDev (fun d => d.awgStart s.mem p.1.u (d.rg .AWG_CTRL_ENTRY p.1.u) d.tick)
    else s) s

/-! ## On again (R389, R390) -/

/-- A domain reads on. A wake raises vector 195; bring-up's last one sets DONE. -/
def Dev.domUpNow (d : Dev) (k : Nat) : Dev :=
  let d := (((d.domChange k 0).domReady k true).irq 195).pdWatch k
  let d := if k = domNet then { d with ethAt := [(0, (false, d.tick)), (1, (false, d.tick))] } else d
  let d := d.modPwr (fun x => { x with moves := x.moves.del k, woken := x.woken.filter (· ≠ k) })
  if d.pwr.woken.isEmpty ∧ !d.pwr.boot then d.ready .HOST_READY_DONE 1 else d

/-- PWR_REINIT_COMPLETE: K domains run the self-test, PD domains load their calibration, a populated DRAM port must have
trained (R390, R413). -/
def State.reinit (s : State) (k : Nat) : State :=
  if s.dev.pwr.moves.get? k ≠ some .reinit then s
  else if 30 ≤ k ∧ s.dev.rg .DRC_STAT_STATE (k - 30) = 2 then s
  else
    let s := s.onDev (fun d =>
      if 3 ≤ k ∧ k < 11 then (List.range 16).foldl (fun d i => d.selfTest (16 * (k - 3) + i)) d
      else if 11 ≤ k ∧ k < 27 then d.pdInit s.mem (k - 11)
      else d)
    (s.keptApply k).onDev (·.domUpNow k)

/-- A DRAM domain back from off: a populated port trains in full at the set point in use, then zeroing restarts; another
is ABSENT (R390). -/
def Dev.drcBoot (d : Dev) (p : Nat) : Dev :=
  let d := d.modDrc p (fun x => { x with zero := true })
  if !d.on .DRC_CFG_POP p then d.drcState p 0
  else
    let d := (d.drcState p 1).drcConfig p
    if d.on .DRC_STAT_CFGERR p then d
    else d.trainStart p ⟨if d.on .DRC_CFG_FSPBOTH p then 0 else d.rg .DRC_STAT_FSP p, d.on .DRC_CFG_FSPBOTH p, false⟩

/-- A transition that belongs to a committing request has ended: with the last one PHASE is DONE. -/
def Dev.commitEnd (d : Dev) (k : Nat) : Dev :=
  if d.pwr.commit.contains k then
    let l := d.pwr.commit.filter (· ≠ k)
    let d := d.modPwr (fun x => { x with commit := l })
    if l.isEmpty then (d.st .PWR_REQ_STAT_PHASE 0 3).irq 195 else d
  else d

/-- Release the inrush cost of a domain. -/
def Dev.costEnd (d : Dev) (k : Nat) : Dev :=
  let l := d.pwr.costs.filter (·.1 != k)
  (d.modPwr (fun x => { x with costs := l })).st .PWR_INRUSH_INUSE 0 ((l.map (·.2)).foldl (· + ·) 0)

/-- PWR_TRANSITION_END: the transition's time is over (R389). -/
def State.transEnd (s : State) (k : Nat) : State :=
  let s := if (s.dev.pwr.moves.get? k).any (· != .reinit) then s.onDev (fun d => d.advanceTo ((d.pwr.ends.get? k).getD 0)) else s
  match s.dev.pwr.moves.get? k with
  | some .toRet => s.onDev (fun d => ((d.modPwr (fun x => { x with moves := x.moves.del k })).domChange k 1).commitEnd k)
  | some .toOff =>
    (s.domLose k).onDev (fun d => ((d.modPwr (fun x => { x with moves := x.moves.del k })).domChange k 2).commitEnd k)
  | some .fromRet =>
    let s := s.keptApply k
    let s := s.onDev (fun d => (d.costEnd k).domUpNow k)
    if 30 ≤ k then (s.onDev (·.drcReady (k - 30))) else s
  | some .fromOff => s.onDev (fun d =>
      let d := (d.costEnd k).modPwr (fun x => { x with moves := x.moves.put k .reinit })
      if 30 ≤ k then d.drcBoot (k - 30) else d)
  | _ => s

/-! ## Group requests (R393 to R396) -/

/-- Whether a domain has a wake queued or admitted. -/
def Dev.wakeHeld (d : Dev) (k : Nat) : Bool :=
  d.pwr.queue.contains k || (match d.pwr.moves.get? k with
    | some .fromRet => true
    | some .fromOff => true
    | some .reinit => true
    | _ => false)

/-- Refusal conditions of domain `k` with their codes, ascending; `same` when it is in the target state already. -/
def Dev.refusals (d : Dev) (k : Nat) (off smb : Bool) : List (Nat × Bool) :=
  let same := d.dom k == (if off then 2 else 1)
  let woken := d.wakeHeld k
  let act : List (Nat × Bool) :=
    if 11 ≤ k ∧ k < 27 then
      [(0x05, (pdQuads (k - 11)).any (fun q => (d.quadOwner q).any d.runs)), (0x06, (d.feb (k - 11)).depth != 0)]
    else if 3 ≤ k ∧ k < 11 then
      [(0x07, (List.range 16).any (fun i => d.streamBusy (16 * (k - 3) + i))), (0x08, d.on .FT_CTRL_EN (k - 3))]
    else if k = domDsp then
      [(0x09, (List.range 16).any (fun u => d.rg .ACQ_STAT_STATE u != 0)),
       (0x0A, (List.range 8).any (fun g => d.on .DDC_CTRL_EN g || d.awgState g != 0))]
    else if k = domCnv then [(0x0B, (List.range 8).any (fun r => d.on .LNK_CFG_EN r))]
    else if k = domSeam then [(0x0C, (List.range 4).any (fun p => d.on .LNK_SP_CTRL_EN p))]
    else if 30 ≤ k then
      let x := d.drc (k - 30)
      [(0x0D, !(x.reads ++ x.writes ++ x.flight).isEmpty || x.train.isSome || x.retrain || d.rtActive (k - 30))]
    else if k = domHost then [(0x0E, !d.dmas.isEmpty), (0x0F, d.on .CMD_STAT_BUSY 0)]
    else if k = domNet then [(0x10, d.rg .TIME_CTRL_SRC 0 == 1)]
    else []
  [(0x01, k == 0), (0x02, k == 1 && !smb), (0x03, !off && d.dom k == 2), (0x04, woken)]
    ++ act.map (fun x => (x.1, x.2 && !same))

/-- Bits of a mask, ascending. -/
def bits32 (m : Nat) : List Nat := (List.range 32).filter (fun k => bitOf m k)

/-- PWR_REQ_GO: the prepare phase begins; every domain judges in this cycle, and those without a refusal quiesce. -/
def Dev.pwrGo (d : Dev) (off smb : Bool) : Dev :=
  let ph := d.rg .PWR_REQ_STAT_PHASE 0
  let d := d.st .PWR_REQ_CTRL_TARGET 0 (b2n off)
  if ph = 1 ∨ ph = 2 then d.st .PWR_REQ_STAT_WREJ 0 1
  else
    let m := d.rg .PWR_REQ_MASK_MASK 0
    let ref := (bits32 m).filterMap (fun k => ((d.refusals k off smb).find? (·.2)).map (fun r => (k, r.1)))
    { (d.st .PWR_REQ_STAT_PHASE 0 1).modPwr (fun x => { x with prep := some ⟨m, off, ref, d.tick⟩ }) with
      quies := (bits32 m).filter (fun k => !ref.any (·.1 == k)) }

/-- A domain of the request in prepare refuses; the lowest code stands. -/
def Dev.prepRefuse (d : Dev) (k code : Nat) : Dev :=
  d.modPwr (fun x => { x with prep := x.prep.map (fun p =>
    if !bitOf p.mask k then p
    else match p.refused.find? (·.1 == k) with
      | some r => if code < r.2 then { p with refused := (k, code) :: p.refused.filter (·.1 != k) } else p
      | none => { p with refused := (k, code) :: p.refused }) })

/-- PWR_PREPARE_TIMEOUT: a domain that has neither refused nor answered within PWR_PREP_TMO refuses with TIMEOUT (R394). -/
def Dev.prepTimeout (d : Dev) (k : Nat) : Dev :=
  match d.pwr.prep with
  | none => d
  | some p => (d.advanceTo (p.at_ + usTicks (max 10 (d.rg .PWR_PREP_TMO_US 0)))).prepRefuse k 0x11

/-- PWR_PREPARE_DONE: the request aborts or commits. -/
def Dev.prepDone (d : Dev) : Dev :=
  match d.pwr.prep with
  | none => d
  | some p =>
    let d := { d.modPwr (fun x => { x with prep := none }) with quies := [] }
    match (List.range 32).find? (fun k => p.refused.any (·.1 == k)) with
    | some k =>
      let m := (p.refused.map (fun r => 2 ^ r.1)).foldl (· + ·) 0
      let code := ((p.refused.find? (·.1 == k)).map (·.2)).getD 0
      let d := ((d.st .PWR_REQ_STAT_PHASE 0 4).st .PWR_REQ_REFUSED_MASK 0 m).st .PWR_REQ_STAT_FIRST 0 k
      (d.st .PWR_REQ_STAT_REASON 0 code).irq 195
    | none =>
      let l := (bits32 p.mask).filter (fun k => d.dom k != (if p.off then 2 else 1))
      let d := ((d.st .PWR_REQ_STAT_PHASE 0 2).st .PWR_REQ_REFUSED_MASK 0 0).modPwr (fun x => { x with commit := l })
      if l.isEmpty then (d.st .PWR_REQ_STAT_PHASE 0 3).irq 195 else l.foldl (fun d k => d.domLeave k p.off) d

/-! ## Wakes (R398 to R400) -/

/-- PWR_QUEUE. -/
def Dev.queueReg (d : Dev) : Dev := d.st .PWR_QUEUE_MASK 0 ((d.pwr.queue.map (fun k => 2 ^ k)).foldl (· + ·) 0)

/-- HOST, DRA and DRB stand ahead of the others. -/
def wakeFirst (k : Nat) : Bool := k == 1 || k == 30 || k == 31

/-- A wake for one domain; one in prepare refuses. -/
def Dev.wake (d : Dev) (k : Nat) : Dev :=
  let d := d.prepRefuse k 0x04
  if d.domOn k ∨ d.wakeHeld k then d
  else (d.modPwr (fun x => { x with queue := if wakeFirst k then x.queue.filter wakeFirst ++ k :: x.queue.filter (fun j => !wakeFirst j)
                                             else x.queue ++ [k] })).queueReg

/-- Whether the device is in LOCKDOWN. -/
def Dev.locked (d : Dev) : Bool := d.rg .SEW_MODE_MODE 0 == 5

/-- A write of PWR_WAKE, or the SMBus wake command; ignored in LOCKDOWN (R420). -/
def Dev.wakeMask (d : Dev) (m : Nat) : Dev :=
  if d.locked then d.st .PWR_REQ_STAT_WREJ 0 1 else (bits32 m).foldl (fun d k => d.wake k) d

/-- Inrush cost of a wake, from retention or from off (R399). -/
def wakeCost (k : Nat) (ret : Bool) : Nat :=
  if k = 1 ∨ 30 ≤ k then (if ret then 10 else 30)
  else if k = domNet then (if ret then 5 else 10)
  else if k < 11 then (if ret then 20 else 60)
  else if k < 27 then (if ret then 15 else 40)
  else if k = domDsp then (if ret then 15 else 50)
  else if k = domSeam then (if ret then 5 else 20)
  else (if ret then 10 else 40)

/-- The wake at the head of the queue, when it fits and its domain is not on its way to retention or off. -/
def Dev.admitOne (d : Dev) : Dev :=
  match d.pwr.queue with
  | [] => d
  | k :: l =>
    let ret := d.dom k == 1
    let c := wakeCost k ret
    let n := d.rg .PWR_INRUSH_INUSE 0 + c
    if (d.pwr.moves.get? k).isSome || d.rg .PWR_INRUSH_BUDGET 0 < n then d
    else
      ((((d.modPwr (fun x => { x with queue := l, costs := x.costs ++ [(k, c)]
                                      moves := x.moves.put k (if ret then .fromRet else .fromOff)
                                      ends := x.ends.put k (d.tick + usTicks (if ret then 20 else 300)) })).setDom k 3).st
        .PWR_INRUSH_INUSE 0 n)).queueReg

/-- WAKE_ADMIT: wakes that fit are admitted together, strictly in the order of the queue. -/
def Dev.admitAll (d : Dev) : Dev := (List.range 32).foldl (fun d _ => d.admitOne) d

/-- Bring-up wakes every domain but AON from off (R413 step 4). -/
def Dev.bootWakes (d : Dev) : Dev :=
  if d.pwr.boot then
    let l := 1 :: 30 :: 31 :: (List.range 28).map (· + 2)
    l.foldl (fun d k => d.wake k) (d.modPwr (fun x => { x with boot := false, woken := l }))
  else d

/-! ## DOZE (R401, R402) -/

/-- AON_DOZE_ENTER. -/
def Dev.dozeEnter (d : Dev) : Dev :=
  if d.on .PWR_AON_DOZE 0 && (List.range 31).all (fun i => d.dom (i + 1) == 1 || d.dom (i + 1) == 2) then
    d.modPwr (fun x => { x with doze := true }) else d

/-- SMBUS_ADDRESS_MATCH. -/
def Dev.smbMatch (d : Dev) (addr : Nat) : Dev :=
  if addr = 0x58 + Config.maddr % 8 ∧ d.pwr.doze then (d.modPwr (fun x => { x with doze := false })).st .PWR_AON_WOKE 0 1 else d

/-! ## The commands -/

def execPwrReqGo (off smb : Bool) (s : State) : Answer := .next (s.onDev (·.pwrGo off smb))
def execPwrPrepareTimeout (k : DomId) (s : State) : Answer := .next (s.onDev (·.prepTimeout k))
def execPwrPrepareDone (s : State) : Answer := .next (s.onDev (·.prepDone))
def execPwrTransitionEnd (k : DomId) (s : State) : Answer := .next (s.transEnd k)
def execPwrReinitComplete (k : DomId) (s : State) : Answer := .next (s.reinit k)
def execPwrWake (mask : BitVec 32) (s : State) : Answer := .next (s.onDev (·.wakeMask mask.toNat))
def execWakeAdmit (s : State) : Answer := .next (s.onDev (·.admitAll))
/-- PERST_N_RISE: wakes HOST and ends DOZE (R398, R401). -/
def execPerstNRise (s : State) : Answer :=
  .next (s.onDev (fun d => (d.wakeMask 2).modPwr (fun x => { x with doze := false })))
def execAonDozeEnter (s : State) : Answer := .next (s.onDev (·.dozeEnter))
def execSmbusAddressMatch (addr : BitVec 7) (s : State) : Answer := .next (s.onDev (·.smbMatch addr.toNat))

end Sys2Proof.Machine
end

