-- ==== Sys2Proof/Machine/Security.lean ====
section
/-!
DEFINITION. Security: the DRAM key, the key store, wipes, alarms, LOCKDOWN, unsealing, debug sessions and attestation
(R420, R439 to R461).
-/

namespace Sys2Proof.Machine

def Dev.modThim (d : Dev) (g : Thimble → Thimble) : Dev := { d with thim := g d.thim }

/-- The life-cycle state (R448). -/
def Dev.lc (d : Dev) : Nat := d.rg .SEC_LC_STATE 0

/-! ## The DRAM key (R439 to R442, R452) -/

/-- HOST_READY.THIMBLE follows the last integrity check and the DRAM key (R439); ports that were held for it become READY
(R415). -/
def Dev.thimReady (d : Dev) : Dev :=
  let v := d.on .SEC_STAT_KSOK 0 && d.on .SEC_STAT_DRAMKEY 0 && d.thim.storage
  let d := d.ready .HOST_READY_THIMBLE (b2n v)
  if v then [0, 1].foldl (fun d p =>
      if (d.rg .DRC_STAT_STATE p = 2 ∨ d.rg .DRC_STAT_STATE p = 5 ∧ d.domOn (domDr p)) ∧ (d.drc p).train.isNone then d.drcReady p
      else d) d
  else d

/-- A port under a new DRAM key: what its write queue held is discarded, zeroing starts over, the write-ahead table is
empty (R440, R452). A port that carries no data yet zeroes when it becomes READY. -/
def Dev.portRekey (d : Dev) (p : Nat) : Dev :=
  let st := d.rg .DRC_STAT_STATE p
  let d := (d.modDrc p (fun x => { x with writes := [], drain := false })).st .DRC_WQ_DEPTH p 0
  if st = 3 ∨ st = 4 ∨ st = 5 then d.zeroStart p
  else { d.modDrc p (fun x => { x with zero := true }) with ahead := d.ahead.filter (·.1 != p) }

/-- A free value from the true random number generator. -/
def Dev.random (d : Dev) : Nat × Dev := (Config.trng d.free, { d with free := d.free + 1 })

/-- The DRAM key is replaced by the standby, or destroyed when there is none; every DRAM line then reads as zero (R440). -/
def State.keyReplace (s : State) : State :=
  let s := s.zeroRange dramBase (2 ^ 42)
  s.onDev (fun d =>
    let d := if d.on .SEC_STAT_STANDBY 0 then (d.st .SEC_STAT_STANDBY 0 0).st .SEC_STAT_DRAMKEY 0 1
      else d.st .SEC_STAT_DRAMKEY 0 0
    let d := d.modThim (fun x => { x with dramKey := x.standby, standby := 0 })
    ((d.portRekey 0).portRekey 1).thimReady)

/-- STANDBY_KEY_READY: the key takes the place of a DRAM key that is missing, at bring-up and after a replacement
without a standby; otherwise it waits. None is made in LOCKDOWN (R413, R440, R457). -/
def Dev.standby (d : Dev) : Dev :=
  if d.locked then d
  else
    let d := (d.st .SEC_STAT_TRNGOK 0 1).modThim (fun x =>
      { x with active := if d.on .SEC_STAT_KSOK 0 then x.active.filter (· ≠ 6) else x.active })
    let k := d.random.1
    let d := d.random.2
    if d.on .SEC_STAT_DRAMKEY 0 then (d.st .SEC_STAT_STANDBY 0 1).modThim (fun x => { x with standby := k })
    else ((((d.st .SEC_STAT_DRAMKEY 0 1).modThim (fun x => { x with dramKey := k })).portRekey 0).portRekey 1).thimReady

/-- The challenge is renewed (R459). -/
def Dev.newChal (d : Dev) : Dev := d.random.2.st .SEC_DBG_CHAL_CHAL 0 d.random.1

/-- The import nonce is renewed (R443). -/
def Dev.newNonce (d : Dev) : Dev := d.random.2.st .SEC_IMP_NONCE_NONCE 0 d.random.1

/-- SEC_KSLOT follows the slots. -/
def Dev.slotBits (d : Dev) : Dev :=
  d.st .SEC_KSLOT_VALID 0 ((d.thim.slots.map (fun p => 2 ^ p.1)).foldl (· + ·) 0)

/-- The identity shows once it exists (R439, R460). -/
def Dev.showIdentity (d : Dev) : Dev :=
  if d.lc = 0 then d else (d.st .SEC_ID_PUB_KEY 0 Config.identityKey).st .SEC_ID_CERT_CERT 0 Config.identityCert

/-- Every sealed region is free at once (R446, R451). -/
def Dev.freeRegions (d : Dev) : Dev :=
  (List.range 16).foldl (fun d n => d.sti .SEC_REG_CTRL_ACTIVE 0 n 0) (d.modThim (fun x => { x with freed := [] }))

/-- Security erase: import keys destroyed, the DRAM key replaced (R451). -/
def State.keyErase (s : State) : State :=
  (s.onDev (fun d => (d.modThim (fun x => { x with slots := [] })).slotBits)).keyReplace

/-! ## On-chip memory -/

/-- Zero on-chip memory: the pattern memories alone, or all of it (R411, R451, R455). -/
def State.zeroChip (s : State) (all : Bool) : State :=
  let pattern := [(0x3000000, 0x3800000), (0x1800000, 0x2000000), (awgMem 0, awgMem 0 + 8 * 2 ^ 18), (0xA40000, 0xAC0000)]
  let rest := [(0x2800000, 0x2880000), (0x2900000, 0x2910000), (acqMem 0, acqMem 0 + 16 * 2 ^ 18)]
    ++ (List.range 128).map (fun e => (fbAddr e 0, fbAddr e 0 + 0x8000))
  let s := (if all then pattern ++ rest else pattern).foldl (fun s r => s.zeroRange r.1 r.2) s
  let s := if all then s.onDev (fun d => { d with engs := d.engs.map (fun p =>
      (p.1, { p.2 with recs := p.2.recs.map (fun r => (r.1, 0)) })) }) else s
  s.onDev (·.st .SEC_STAT_WIPING 0 1)

/-- A wipe of a scope: 0 KEYS, 1 DATA, 2 ALL (R451). -/
def State.wipe (s : State) (scope : Nat) : State :=
  let s := s.onDev (·.freeRegions)
  let s := if scope = 1 then s.keyReplace else s.keyErase
  let s := if scope = 0 then s else s.zeroChip true
  s.onDev (·.logEv 0x04 0x11 scope 0)

/-- Whether WIPE and LIFECYCLE are accepted (R450, R451). -/
def Dev.quietDevice (d : Dev) : Bool :=
  !(List.range 128).any d.runs && (List.range 8).all (fun g => d.awgState g == 0)
    && (List.range 16).all (fun u => d.rg .ACQ_STAT_STATE u == 0)

/-! ## LOCKDOWN (R420) -/

/-- The key of SEW_MODE.MODE. -/
def modeKey : RegKey := ⟨.SEW_MODE_MODE, 0, 0⟩

/-- A mode change of group `g` under way gives way; its basted value is marked again. -/
def Dev.modeDrop (d : Dev) (g : Nat) : Dev :=
  match d.modeChg with
  | some (h, m, _) => if h = g then { d with modeChg := none }.baste modeKey m else d
  | none => d

/-- A sew still ARMED or PENDING ends CANCELLED; fields taken and not yet applied keep their basted value and are marked
again. -/
def Dev.sewEnd (d : Dev) (g : Nat) : Dev :=
  let left := (d.sewLeft g).map (·.key)
  let done := d.taken.filter (fun (t : Taken) => t.grp == g && t.applied)
  let d := done.foldl (fun d (t : Taken) => d.setKey t.key t.val) d
  let d := { d with taken := d.taken.filter (fun (t : Taken) => t.grp != g), dirty := left ++ d.dirty }
  let d := (left.filter (fun (k : RegKey) => k.f.info.blk == .quad)).foldl (fun d k => d.st .PIN_QOWN_PENDING k.u 0) d
  ((d.modeDrop g).st .SEW_STATUS_PENDCNT g 0).sewState g 7

/-- Every sew still ARMED or PENDING ends, but the one that enters LOCKDOWN. -/
def Dev.sewsEnd (d : Dev) (but : Option Nat) : Dev :=
  (List.range 16).foldl (fun d g =>
    if some g = but then d
    else if d.rg .SEW_STATUS_STATE g = 1 ∨ d.rg .SEW_STATUS_STATE g = 2 then d.sewEnd g else d) d

/-- A running burst ends INDETERMINATE, STREAM_LOST, without its hem. -/
def Dev.lockEnd (d : Dev) (e : Nat) : Dev :=
  if !d.runs e then d
  else
    let v := d.lastRow e false
    let d := (d.faultLog e rSTREAMLOST v d.tick).st .ENG_RES_STAT_RUNNING e 0
    let d := d.post e 2 rSTREAMLOST (d.rg .ENG_RES_VCNT_VCNT e) (d.eng e).spill
    (d.st .ENG_STAT_STATE e 0).modEng e (fun x => { storeErr := x.storeErr, scan := x.scan, recs := x.recs, fbHead := x.fbHead, fbCnt := x.fbCnt })

/-- The power sequencer in LOCKDOWN: no wake, no request, every domain but AON and HOST on its way to off. -/
def Dev.lockPower (d : Dev) : Dev :=
  let ph := d.rg .PWR_REQ_STAT_PHASE 0
  let d := if ph = 1 ∨ ph = 2 then (d.st .PWR_REQ_STAT_PHASE 0 4).irq 195 else d
  let d := d.modPwr (fun x => { x with queue := [], prep := none, commit := [], boot := false, woken := [] })
  let d := { d with quies := [] }
  (List.range 30).foldl (fun d i =>
    let off := d.dom (i + 2) == 2 || d.pwr.moves.get? (i + 2) == some PwrMove.toOff
    if off then d else (d.costEnd (i + 2)).domLeave (i + 2) true) d.queueReg

/-- Pins clamp, bursts end, other sews are cancelled. -/
def Dev.lockStop (d : Dev) (but : Option Nat) : Dev :=
  let d := (List.range 512).foldl (fun d c => if d.domOn (domPd (c / 32)) then d.park c d.tick else d) d
  ((List.range 128).foldl (fun d e => d.lockEnd e) d).sewsEnd but

/-- The volatile keys are gone, and every engine and the device read LOCKDOWN. -/
def Dev.lockMode (d : Dev) (src : Nat) : Dev :=
  let d := (d.st .SEC_STAT_DRAMKEY 0 0).st .SEC_STAT_STANDBY 0 0
  let d := (d.modThim (fun x => { x with storage := false, dramKey := 0, standby := 0 })).thimReady
  let d := (List.range 128).foldl (fun d e => if d.domOn (domK (e / 16)) then d.st .ENG_MODE_MODE e 5 else d) d
  let d := { d with modeChg := none }
  (d.setMode 5).st .HOST_MODE_LOCKSRC 0 src

/-- Enter LOCKDOWN, by sew (`src` 1) or by alarm (2). -/
def State.lockdown (s : State) (src : Nat) (but : Option Nat) : State :=
  ((s.onDev (·.lockStop but)).zeroRange dramBase (2 ^ 42)).onDev (fun d =>
    ((d.lockMode (if d.locked then d.rg .HOST_MODE_LOCKSRC 0 else src)).lockPower).cmdDone 8 [0, 0, 0, 0])

/-! ## Alarms (R453 to R457) -/

/-- Floor of a source. -/
def alarmFloor (k : Nat) : Nat := if k = 3 ∨ k = 6 then 2 else 0

/-- The level at which a source acts (R448, R453). -/
def Dev.alarmLevel (d : Dev) (k : Nat) : Nat :=
  if d.lc = 0 then alarmFloor k else max (alarmFloor k) (bitsOf (d.rg .SEC_ALRESP_LEVEL 0) (2 * k) 2)

/-- An acquisition unit that an erase stops: IDLE, with no further record (R455). -/
def Dev.acqStop (d : Dev) (u : Nat) : Dev :=
  if d.on .ACQ_CTRL_RING u || d.on .ACQ_CTRL_EXT u then
    (d.modAcq u (fun x => { x with samps := [], post := [], conds := [], trig := none, rcd := none, byEng := none })).st .ACQ_STAT_STATE u 0
  else d

/-- An AWG that an erase stops: IDLE, output 0. -/
def Dev.awgStop (d : Dev) (g : Nat) : Dev :=
  let d := if d.awgState g = 0 then d else d.awgIdle g d.tick
  d.modAwg g (fun x => { x with heads := [], lines := [], fetch := none, idle := 0, hist := [], ended := 0 })

/-- ALARM_ERASE (R455). -/
def State.alarmErase (s : State) : State :=
  let s := s.onDev (fun d =>
    let d := (List.range 128).foldl (fun d e => d.endFault e rSTREAMLOST false) d
    let d := (List.range 8).foldl (fun d g => if d.domOn domDsp then d.awgStop g else d) d
    let d := (List.range 16).foldl (fun d u => d.acqStop u) d
    let d := (List.range 128).foldl (fun d e => d.st .ENG_BOB_STAT_READY e 0) d
    let d := if d.thim.uns.isSome then
        ((d.modThim (fun x => { x with uns := none })).st .SEC_UNS_STAT_STATE 0 0).st .SEC_UNS_STAT_RESULT 0 8 else d
    let d := match d.cmd with
      | some c => if c.op = 5 ∨ c.op = 6 then d.cmdDone 8 [0, 0, 0, 0] else d
      | none => d
    d.freeRegions)
  (s.keyErase).zeroChip false

/-- ALARM_LOCK (R457). -/
def State.alarmLock (s : State) : State := s.alarmErase.lockdown 2 none

/-- A source becomes active: it acts unless its pending bit is still set. In one cycle the highest level acts once
(R454, R456). -/
def State.alarm (s : State) (k : Nat) : State :=
  let d := s.dev
  if bitOf (d.rg .SEC_ALPEND_PEND 0) k then s
  else
    let lv := d.alarmLevel k
    let rec_ := d.stamp (k + lv * 8)
    let s := s.onDev (fun d =>
      let d := ((d.logEv 0x04 0x10 k (rec_ % 2 ^ 96)).st .SEC_ALLAST_RECORD 0 rec_).bump .SEC_ALCNT_COUNT 0 1
      if 1 ≤ lv then (d.st .SEC_ALPEND_PEND 0 (d.rg .SEC_ALPEND_PEND 0 ||| 2 ^ k)).irq 196 else d)
    let now := cycleOf d.tick
    let acted := match d.thim.last with
      | some (c, l) => c == now && decide (lv ≤ l)
      | none => false
    if decide (lv < 2) || acted then s
    else
      let s := s.onDev (·.modThim (fun x => { x with last := some (now, lv) }))
      if lv = 2 then s.alarmErase else s.alarmLock

/-- A lasting source is active, or no longer. -/
def State.alarmIs (s : State) (k : Nat) (v : Bool) : State :=
  if !v then s.onDev (·.modThim (fun x => { x with active := x.active.filter (· ≠ k) }))
  else if s.dev.thim.active.contains k then s
  else (s.onDev (·.modThim (fun x => { x with active := k :: x.active }))).alarm k

/-- KEY_INTEGRITY_CHECK: `bad` are the slots that fail, `other` that another stored key fails. The first after a
whole-device reset is bring-up's (R413 step 3, R416, R441). -/
def State.keyCheck (s : State) (bad : List Nat) (other : Bool) : State :=
  let fails := other || bad.any (fun n => (s.dev.thim.slots.get? n).isSome)
  let s := s.onDev (fun d =>
    let first := !d.thim.storage && !d.locked
    let d := (d.modThim (fun x => { x with slots := x.slots.filter (fun p => !bad.contains p.1)
                                           storage := x.storage || first })).slotBits
    let d := d.st .SEC_STAT_KSOK 0 (b2n !fails)
    let d := if first then (d.newChal.newNonce).showIdentity else d
    (if first && fails then d.bootErr .HOST_BOOTERR_THIMBLE else d).thimReady)
  if fails then s.alarmIs 6 true else if s.dev.on .SEC_STAT_TRNGOK 0 then s.alarmIs 6 false else s

/-- TRNG_HEALTH_FAILURE (R441). -/
def State.trngFail (s : State) : State := (s.onDev (·.st .SEC_STAT_TRNGOK 0 0)).alarmIs 6 true

/-- SENSOR_READ: the filtered value, then TEMP (R426, R453). -/
def State.sensorRead (s : State) (k : Nat) (r : Int) : State :=
  let s := s.onDev (·.sensor k r)
  let hi := signed 8 (s.dev.rg .SEC_TALARM_HI 0) * 16
  let lo := signed 8 (s.dev.rg .SEC_TALARM_LO 0) * 16
  s.alarmIs 2 (s.dev.cal.reads.any (fun p =>
    let t := signed 16 (s.dev.rgi .CAL_TEMP_TNOW 0 p.1)
    decide (hi < t) || decide (t < lo)))

/-! ## Sealed images (R444 to R446) -/

/-- Bytes from DRAM byte address `x` for the unseal engine: none where a word is unreadable or a line cannot be read. -/
def State.unsRead (s : State) (x n : Nat) : Option (List Nat) × State :=
  let lo := x / 256
  let k := if n = 0 then 0 else (x + n - 1) / 256 - lo + 1
  if (List.range k).any (fun i => s.dev.dramPath (lo + i) == .faults) then (none, s.onDev (·.reportUninstalled 0x0D x))
  else
    let r := s.dev.readBytes s.mem 0x0D (dramBase + x) n
    (if r.2.1 then none else some r.1, { s with dev := r.2.2 })

/-- The unseal engine stops with a result. -/
def Dev.unsEnd (d : Dev) (res : Nat) : Dev :=
  ((d.modThim (fun x => { x with uns := none })).st .SEC_UNS_STAT_STATE 0 0).st .SEC_UNS_STAT_RESULT 0 res

/-- UNSEAL_GO. -/
def Dev.unsGo (d : Dev) (n : Nat) : Dev :=
  let d := d.st .SEC_UNS_CTRL_REGION 0 n
  if d.rg .SEC_UNS_STAT_STATE 0 ≠ 0 then d
  else if d.lc ≠ 1 ∧ d.lc ≠ 2 then d.st .SEC_UNS_STAT_RESULT 0 9
  else
    let u : Unseal := ⟨d.rg .SEC_UNS_SRC_ADDR 0 / 16 * 16, d.rg .SEC_UNS_DST_LINE 0, n⟩
    ((d.modThim (fun x => { x with uns := some u })).st .SEC_UNS_STAT_STATE 0 1).st .SEC_UNS_STAT_RESULT 0 0

/-- Length of the payload in an image's header. -/
def imgLen (h : List Nat) : Nat := leNat ((h.drop 16).take 8)

/-- Whether lines [a, a + n) and [b, b + m) meet. -/
def meets (a n b m : Nat) : Bool := decide (a < b + m) && decide (b < a + n)

/-- Whether the destination overlaps the source, an active region or the limits of the installed lines (R445). -/
def Dev.unsOverlap (d : Dev) (u : Unseal) (plen : Nat) : Bool :=
  let n := plen / 256
  let total := plen + 144
  let src := u.src / 256
  let k := (u.src + total - 1) / 256 - src + 1
  meets u.dst n src k || d.rgi .SEC_REG_CTRL_ACTIVE 0 u.region == 1
    || (List.range 16).any (fun i => d.rgi .SEC_REG_CTRL_ACTIVE 0 i == 1
        && meets u.dst n (d.rgi .SEC_REG_BASE_LINE 0 i) (d.rgi .SEC_REG_CTRL_LINES 0 i))
    || (n != 0 && ((d.lineAt u.dst).isNone || (d.lineAt (u.dst + n - 1)).isNone))

/-- Plain text of an image under its slot's key: the header is the additional authenticated data. -/
def imgOpen (k : ImpKey) (h l : List Nat) : Option (List Nat) :=
  let n := imgLen h
  Config.gcmOpen k.key ((h.drop 24).take 12) (h.take 64) ((l.drop 64).take n) ((l.drop (64 + n)).take 16)

/-- The checks of pass 1 on an image, in order (R445): none where it passes. -/
def Dev.imgFault (d : Dev) (l : List Nat) : Option Nat :=
  let n := imgLen l
  if leNat (l.take 4) ≠ 1 ∨ leNat ((l.drop 5).take 3) ≠ 0 ∨ leNat ((l.drop 36).take 28) ≠ 0 ∨ n % 256 ≠ 0 then some 2
  else match d.thim.slots.get? (l.getD 4 0) with
  | none => some 3
  | some k =>
    if leNat ((l.drop 8).take 8) < k.minver then some 4
    else if !Config.ecdsaVerify k.signer (leBytes 32 (Config.sha256 (l.take (80 + n)))) (leNat ((l.drop (80 + n)).take 64)) then some 5
    else if (imgOpen k l l).isNone then some 6
    else none

/-- UNSEAL_PASS1_COMPLETE: pass 2 begins when every check passes. It waits while a line of the image waits for its
port. -/
def State.unsPass1 (s : State) : State :=
  match s.dev.thim.uns with
  | none => s
  | some u =>
    if s.dev.rg .SEC_UNS_STAT_STATE 0 ≠ 1 ∨ s.dev.dramPath (u.src / 256) = .waits then s
    else match s.unsRead u.src 64 with
    | (none, s) => s.onDev (·.unsEnd 8)
    | (some h, s) =>
      let n := imgLen h
      if leNat (h.take 4) ≠ 1 ∨ n % 256 ≠ 0 then s.onDev (·.unsEnd 2)
      else if 2 ^ 38 < u.src + n + 144 then s.onDev (·.unsEnd 8)
      else match s.unsRead u.src (n + 144) with
      | (none, s) => s.onDev (·.unsEnd 8)
      | (some l, s) =>
        match s.dev.imgFault l with
        | some r => s.onDev (·.unsEnd r)
        | none =>
          if s.dev.unsOverlap u n then s.onDev (·.unsEnd 7)
          else s.onDev (fun d =>
            (((d.st .SEC_UNS_STAT_STATE 0 2).sti .SEC_REG_BASE_LINE 0 u.region u.dst).sti .SEC_REG_CTRL_LINES 0 u.region (n / 256)).sti
              .SEC_REG_CTRL_ACTIVE 0 u.region 1)

/-- A region is freed: its lines are still to be zeroed (R446). -/
def Dev.regFree (d : Dev) (n : Nat) : Dev :=
  if d.rgi .SEC_REG_CTRL_ACTIVE 0 n = 1 then d.modThim (fun x => { x with freed := x.freed.filter (· ≠ n) ++ [n] }) else d

/-- UNSEAL_PASS2_COMPLETE: the payload is in its region, or the region is freed. -/
def State.unsPass2 (s : State) : State :=
  match s.dev.thim.uns with
  | none => s
  | some u =>
    if s.dev.rg .SEC_UNS_STAT_STATE 0 ≠ 2 ∨ s.dev.dramPath (u.src / 256) = .waits ∨ s.dev.writePath u.dst = .waits then s
    else
      let fail := fun (s : State) (r : Nat) => s.onDev (fun d => (d.regFree u.region).unsEnd r)
      let n := s.dev.rgi .SEC_REG_CTRL_LINES 0 u.region * 256
      match s.unsRead u.src (n + 144) with
      | (none, s) => fail s 8
      | (some l, s) =>
        match (s.dev.thim.slots.get? (l.getD 4 0)).bind (fun k => imgOpen k l l) with
        | none => fail s 6
        | some p =>
          let s := (List.range (n / 256)).foldl (fun s i =>
            s.dramWrite 0x0D ((u.dst + i) * 256) ((p.drop (256 * i)).take 256) {}) s
          s.onDev (·.unsEnd 1)

/-- SEALED_REGION_ZEROED: the lines of a freed region are zero; the guard ends. -/
def State.regZeroed (s : State) (n : Nat) : State :=
  if !s.dev.thim.freed.contains n then s
  else
    let a := dramBase + s.dev.rgi .SEC_REG_BASE_LINE 0 n * 256
    (s.zeroRange a (a + s.dev.rgi .SEC_REG_CTRL_LINES 0 n * 256)).onDev (fun d =>
      (d.modThim (fun x => { x with freed := x.freed.filter (· ≠ n) })).sti .SEC_REG_CTRL_ACTIVE 0 n 0)

/-! ## Debug (R458, R459) -/

/-- Whether the life cycle lets a class be unlocked (R448). -/
def Dev.dbgAllowed (d : Dev) (cls : Nat) : Bool :=
  if d.lc ≤ 1 then true else if d.lc = 2 then cls == 1 else d.lc == 3

/-- Whether debug of a class may act now (R448, R459). -/
def Dev.dbgOpen (d : Dev) (cls : Nat) : Bool := d.lc ≤ 1 || d.rg .SEC_STAT_DBG 0 == cls

/-- DEBUG_TRY. A class that is refused counts no failure; the challenge is renewed after every TRY. -/
def State.dbgTry (s : State) (cls : Nat) : State :=
  let s := s.onDev (·.st .SEC_DBG_CTRL_CLASS 0 cls)
  let d := s.dev
  if d.on .SEC_DBG_STAT_BLOCKED 0 then s
  else if (cls ≠ 1 ∧ cls ≠ 2) ∨ !d.dbgAllowed cls ∨ (cls = 2 ∧ !d.quietDevice) then s.onDev (·.newChal)
  else
    let msg := leBytes 32 (d.rg .SEC_DBG_CHAL_CHAL 0) ++ leBytes 64 (d.rg .SEC_ID_PUB_KEY 0) ++ [cls]
    if Config.ecdsaVerify (d.rg .SEC_DBGKEY_KEY 0) (leBytes 32 (Config.sha256 msg)) (d.rg .SEC_DBG_RESP_SIG 0) then
      let s := if cls = 2 then s.wipe 1 else s
      s.onDev (fun d => ((d.st .SEC_DBG_STAT_FAILCNT 0 0).st .SEC_STAT_DBG 0 cls).newChal)
    else
      let n := min 3 (d.rg .SEC_DBG_STAT_FAILCNT 0 + 1)
      let s := s.onDev (fun d => ((d.st .SEC_DBG_STAT_FAILCNT 0 n).logEv 0x04 0x13 cls 0).newChal)
      if n = 3 then (s.onDev (fun d => (d.st .SEC_DBG_STAT_BLOCKED 0 1).modThim (fun x => { x with blockAt := d.tick }))).alarm 4
      else s

/-! ## Attestation (R460) -/

/-- ATTESTATION_GO. -/
def Dev.attGo (d : Dev) : Dev := if d.on .SEC_ATT_STAT_BUSY 0 then d else d.st .SEC_ATT_STAT_BUSY 0 1

/-- The slots as the quote digests them: valid bit, signer, MINVER, a byte string each. -/
def Dev.slotDigest (d : Dev) : List Nat :=
  (List.range 16).flatMap (fun n => match d.thim.slots.get? n with
    | some k => 1 :: leBytes 64 k.signer ++ leBytes 8 k.minver
    | none => 0 :: List.replicate 72 0)

/-- Bytes 0 to 191 of a quote. -/
def Dev.quoteBody (d : Dev) : List Nat :=
  leBytes 32 (d.rg .SEC_ATT_NONCE_NONCE 0) ++ leBytes 16 (d.stamp 0)
    ++ [d.lc, d.rg .SEC_STAT_DBG 0, d.rg .UCODE_VERSION_MINOR 0, d.rg .UCODE_VERSION_MAJOR 0]
    ++ leBytes 2 (d.rg .UCODE_VERSION_ROM_ID 0) ++ leBytes 2 (d.rg .SEC_KSLOT_VALID 0) ++ List.replicate 8 0
    ++ leBytes 32 (Config.sha256 d.slotDigest) ++ leBytes 64 Config.agreementKey ++ List.replicate 32 0

/-- ATTESTATION_QUOTE_READY. -/
def Dev.attReady (d : Dev) : Dev :=
  if !d.on .SEC_ATT_STAT_BUSY 0 then d
  else
    let b := d.quoteBody
    let sig := Config.ecdsaSign (leBytes 32 (Config.sha256 b)) d.free
    let d := { d with free := d.free + 1 }.st .SEC_ATT_QUOTE_QUOTE 0 (leNat (b ++ leBytes 64 sig))
    (d.st .SEC_ATT_STAT_BUSY 0 0).st .SEC_ATT_STAT_READY 0 1

/-! ## The commands -/

def execStandbyKeyReady (s : State) : Answer := .next (s.onDev (·.standby))
def execKeyIntegrityCheck (bad : List (Fin 16)) (other : Bool) (s : State) : Answer :=
  .next (s.keyCheck (bad.map (·.val)) other)
def execTrngHealthFailure (s : State) : Answer := .next s.trngFail
def execAlarmVolt (s : State) : Answer := .next (s.alarm 0)
def execAlarmClock (s : State) : Answer := .next (s.alarm 1)
def execAlarmMesh (s : State) : Answer := .next (s.alarm 3)
def execSensorRead (k : Fin 24) (reading : BitVec 16) (s : State) : Answer := .next (s.sensorRead k reading.toInt)
/-- ONCHIP_ZEROING_COMPLETE (R455). -/
def execOnchipZeroingComplete (s : State) : Answer := .next (s.onDev (·.st .SEC_STAT_WIPING 0 0))
def execUnsealGo (region : Fin 16) (s : State) : Answer := .next (s.onDev (·.unsGo region))
def execUnsealPass1Complete (s : State) : Answer := .next s.unsPass1
def execUnsealPass2Complete (s : State) : Answer := .next s.unsPass2
def execSealedRegionRelease (n : Fin 16) (s : State) : Answer := .next (s.onDev (·.regFree n))
def execSealedRegionZeroed (n : Fin 16) (s : State) : Answer := .next (s.regZeroed n)
def execDebugTry (cls : BitVec 2) (s : State) : Answer := .next (s.dbgTry cls.toNat)
/-- DEBUG_BLOCK_EXPIRE: 1 s after the failure that blocked TRY (R459). -/
def Dev.dbgUnblock (d : Dev) : Dev :=
  if d.on .SEC_DBG_STAT_BLOCKED 0 then (d.advanceTo (d.thim.blockAt + usTicks 1000000)).st .SEC_DBG_STAT_BLOCKED 0 0 else d

def execDebugBlockExpire (s : State) : Answer := .next (s.onDev (·.dbgUnblock))
/-- DEBUG_CLOSE (R459). -/
def execDebugClose (s : State) : Answer := .next (s.onDev (·.st .SEC_STAT_DBG 0 0))
def execAttestationGo (s : State) : Answer := .next (s.onDev (·.attGo))
def execAttestationQuoteReady (s : State) : Answer := .next (s.onDev (·.attReady))

end Sys2Proof.Machine
end

