-- ==== Sys2Proof/Machine/SewCmd.lean ====
section
/-!
DEFINITION. The commands of the sew groups: map writes, arms, cancels, vetoes, decisions, target cycles (R322 to R332,
R412, R418 to R420).
-/

namespace Sys2Proof.Machine

/-- Whether a group's STATE is ARMED or PENDING. -/
def Dev.sewBusy (d : Dev) (g : Nat) : Bool := d.rg .SEW_STATUS_STATE g == 1 || d.rg .SEW_STATUS_STATE g == 2

/-! ## SEW_GMAP (R322) -/

/-- A map word: its field and its index there. Words 0 to 15 map engines, 16 to 31 quads, 32 AWGs, 33 the device. -/
def gmapKey (w : Nat) : RegKey :=
  if w < 16 then ⟨.SEW_GMAP_ENG_MAP, 0, w⟩
  else if w < 32 then ⟨.SEW_GMAP_QUAD_MAP, 0, w - 16⟩
  else if w = 32 then ⟨.SEW_GMAP_AWG_MAP, 0, 0⟩
  else ⟨.SEW_GMAP_DEV_GROUP, 0, 0⟩

/-- A write of a map word: ignored when it would move a unit into or out of an ARMED or PENDING group. -/
def Dev.gmapWrite (d : Dev) (w v : Nat) : Dev :=
  let k := gmapKey w
  let old := d.key k
  let v := v % 2 ^ k.f.info.width
  let moved := fun (i : Nat) => bitsOf old (4 * i) 4 != bitsOf v (4 * i) 4
  if (List.range 8).any (fun i => moved i && (d.sewBusy (bitsOf old (4 * i) 4) || d.sewBusy (bitsOf v (4 * i) 4))) then
    d.st .SEW_GSTAT_MAPREJ 0 1
  else d.setKey k v

/-! ## Arm, cancel, veto (R325, R328, R329) -/

/-- Send READY or a veto for a tag: held here and posted on the Seam links. -/
def Dev.sewSend (d : Dev) (tag : Nat) (veto : Bool) : Dev :=
  (d.sewHold ⟨tag, d.pos, veto, d.nowNs⟩).seamPost none (.sew d.pos 0 tag veto (d.nowNs % 2 ^ 36))

/-- The veto that a Seam-synchronised group sends. -/
def Dev.sewVetoIf (d : Dev) (g : Nat) : Dev :=
  if d.on .SEW_CFG_SEAMSYNC g then d.sewSend (d.rg .SEW_CFG_TAG g) true else d

/-- Whether device time is later than the target less `ns`. -/
def Dev.laterThan (d : Dev) (target ns : Nat) : Bool := decide (target < d.nowFrac + ns * 65536)

/-- The target of group `g` in 1/65,536 ns of the present generation; none for an older generation than the last. -/
def Dev.sewTarget (d : Dev) (g : Nat) : Option Nat :=
  let t := d.rg .SEW_TGT_NS g * 65536
  if d.rg .SEW_CFG_GEN g = d.time.gen then some t
  else if d.rg .SEW_CFG_GEN g = d.rg .TIME_RB_DFR_FROMGEN 0 then some (moveT t d.time.delta)
  else none

/-- SEW_ARM. -/
def Dev.sewArm (d : Dev) (g : Nat) : Dev :=
  let sync := d.on .SEW_CFG_SEAMSYNC g
  if d.sewBusy g then (d.st .SEW_STATUS_BUSYREJ g 1).sewVetoIf g
  else if sync && !bitOf (d.rg .SEW_CFG_PART g) d.pos then (d.sewState g 8).sewVetoIf g
  else match d.sewTarget g with
  | none => (d.sewState g 6).sewVetoIf g
  | some t =>
    if d.laterThan t (if sync then 2000 else 256) then d.sewState g 4
    else
      let d := { d with sews := d.sews.put g ⟨t, !sync⟩ }.sewState g 1
      if sync then d.sewSend (d.rg .SEW_CFG_TAG g) false else d

/-- The armed sew of group `g`. -/
def Dev.sew (d : Dev) (g : Nat) : Sew := (d.sews.get? g).getD {}

/-- SEW_CANCEL. -/
def Dev.sewCancel (d : Dev) (g : Nat) : Dev :=
  let sync := d.on .SEW_CFG_SEAMSYNC g
  let before := decide (d.nowFrac + (if sync then 2000 else 256) * 65536 < (d.sew g).target)
  if d.rg .SEW_STATUS_STATE g = 1 ∧ before then (d.sewState g 7).sewVetoIf g else d.st .SEW_STATUS_BUSYREJ g 1

/-! ## Decision (R329) -/

/-- SEW_DECISION: READY from every position of PART and no veto, of the messages whose origin time is not after the send
deadline; those messages are spent. -/
def Dev.sewDecide (d : Dev) (g : Nat) : Dev :=
  let t := (d.sew g).target
  if d.rg .SEW_STATUS_STATE g ≠ 1 ∨ (d.sew g).decided then d
  else
    let d := d.advanceTo (d.tickOfFrac (t - 1000 * 65536))
    let mine := fun (m : SewMsg) => m.tag == d.rg .SEW_CFG_TAG g && decide ((m.origin + 2000) * 65536 ≤ t)
    let l := d.sewMsg.filter mine
    let d := { d with sewMsg := d.sewMsg.filter (fun m => !mine m) }
    let ok := (List.range 16).all (fun p => !bitOf (d.rg .SEW_CFG_PART g) p || l.any (fun m => m.pos == p && !m.veto))
    if ok && !l.any (·.veto) then { d with sews := d.sews.put g ⟨t, true⟩ } else d.sewState g 5

/-! ## The target cycle (R324, R326, R412, R418 to R420) -/

/-- Permitted mode changes (R418). -/
def modeAllowed (a b : Nat) : Bool :=
  match a with
  | 0 => 1 ≤ b && b ≤ 5
  | 1 => 2 ≤ b && b ≤ 5
  | 2 => b == 1 || (3 ≤ b && b ≤ 5)
  | 3 => b == 1 || b == 2 || b == 5
  | 4 => b == 1 || b == 5
  | _ => false

/-- What becomes of a dirty field at the target cycle: taken where its unit's domain is on, left for the unit in
retention, lost in one that is off. -/
def Dev.takeField (d : Dev) (g : Nat) (k : RegKey) : Dev :=
  let v := d.bast k
  let c := unitDom k
  if d.domOn c then { d with taken := d.taken ++ [⟨g, k, v, false⟩] }
  else if d.dom c = 2 ∨ d.pwr.moves.get? c = some .toOff then d
  else { d with kept := d.kept ++ [(k, v)] }

/-- A new mode is taken, refused, or the one in effect. -/
def Dev.takeMode (d : Dev) (g v : Nat) : Dev :=
  let old := d.rg .SEW_MODE_MODE 0
  if v = old then d
  else if !modeAllowed old v then (d.st .HOST_MODE_REJ 0 1).st .HOST_MODE_REJVAL 0 v
  else
    let l := (List.range 128).filter (fun e => d.domOn (domK (e / 16)))
    ({ d with modeChg := some (g, v, l) }.st .SEW_MODE_PENDING 0 1).st .HOST_MODE_PENDING 0 1

/-- An AWG start that a sew applies at once. -/
def State.awgSew (s : State) (t : Taken) : State :=
  s.onDev (fun d =>
    let d := d.markApplied (fun (x : Taken) => x.key == t.key)
    if t.val = 1 then d.awgStart s.mem t.key.u (d.rg .AWG_CTRL_ENTRY t.key.u) d.tick else d)

/-- The sew of group `g` applies now. -/
def State.sewApply (s : State) (g : Nat) : State :=
  let d := s.dev.sewState g 2
  let keys := d.dirty.filter (fun k => d.sewGroup k == g)
  let d := { d with dirty := d.dirty.filter (fun k => d.sewGroup k != g) }
  if keys.contains modeKey ∧ d.bast modeKey = 5 ∧ modeAllowed (d.rg .SEW_MODE_MODE 0) 5 then
    (State.lockdown { s with dev := d } 1 (some g)).onDev (·.sewState g 3)
  else
    let d := if keys.contains modeKey then d.takeMode g (d.bast modeKey) else d
    let d := (keys.filter (· ≠ modeKey)).foldl (fun d k => d.takeField g k) d
    let mine := d.taken.filter (fun (t : Taken) => t.grp == g)
    let d := (mine.filter (fun (t : Taken) => t.key.f.info.blk == .quad)).foldl (fun d (t : Taken) => d.st .PIN_QOWN_PENDING t.key.u 1) d
    let s := (mine.filter (fun (t : Taken) => t.key.f.info.blk == .awg)).foldl (fun s t => s.awgSew t) { s with dev := d }
    s.onDev (·.sewTry)

/-- SEW_TARGET_CYCLE: the first engine cycle at or after the target. Groups of lower number with the same target cycle
apply first; a Seam-synchronised sew is decided before. -/
def State.sewTargetCycle (s : State) (g : Nat) : State :=
  let s := s.onDev (·.sewDecide g)
  if s.dev.rg .SEW_STATUS_STATE g ≠ 1 then s
  else
    let t := s.dev.tickOfFrac (s.dev.sew g).target
    let l := (List.range g).filter (fun h => s.dev.rg .SEW_STATUS_STATE h == 1 && s.dev.tickOfFrac (s.dev.sew h).target == t)
    let s := l.foldl (fun s h => s.onDev (·.sewDecide h)) s
    let s := s.onDev (·.advanceTo t)
    (l ++ [g]).foldl (fun s h => if s.dev.rg .SEW_STATUS_STATE h = 1 then s.sewApply h else s) s

/-! ## The commands -/

def execSewGmapWrite (word : Fin 34) (value : BitVec 32) (s : State) : Answer := .next (s.onDev (·.gmapWrite word value.toNat))
def execSewArm (g : SgId) (s : State) : Answer := .next (s.onDev (·.sewArm g))
def execSewCancel (g : SgId) (s : State) : Answer := .next (s.onDev (·.sewCancel g))
/-- SEW_VETO (R329). -/
def execSewVeto (g : SgId) (s : State) : Answer := .next (s.onDev (fun d => d.sewSend (d.rg .SEW_CFG_TAG g) true))
def execSewDecision (g : SgId) (s : State) : Answer := .next (s.onDev (·.sewDecide g))
def execSewTargetCycle (g : SgId) (s : State) : Answer := .next (s.sewTargetCycle g)

end Sys2Proof.Machine
end

