-- ==== Sys2Proof/Machine/Reset.lean ====
section
/-!
DEFINITION. Resets, bring-up and what survives them (R406 to R415, R478, R494, R504).
-/

namespace Sys2Proof.Machine

/-! ## What a whole-device reset keeps (R411, R461, R520) -/

/-- Registers with a stored value: the life-cycle state, the RWL fields, the count of NVM writes. -/
def storedFields : List Field :=
  [.SEC_LC_STATE, .SEC_ALRESP_LEVEL, .SEC_TALARM_HI, .SEC_TALARM_LO, .SEC_DBGKEY_KEY, .CTR_SIGKEY_KEY, .CAL_NVMWR_COUNT]

/-- Registers that a device reset keeps beside them. -/
def causeFields : List Field :=
  [.HOST_RST_CAUSE_POR, .HOST_RST_CAUSE_PIN, .HOST_RST_CAUSE_REGPCIE, .HOST_RST_CAUSE_REGSMB, .HOST_RST_CAUSE_COUNT,
   .HOST_RST_CAUSE_SEQERR, .HOST_LOG_STAT_OVF]

/-- The block at the end of a whole-device reset that ends at tick `t`: what `power` loses beyond a device reset is the
event log and the reset cause. -/
def Dev.afterReset (d : Dev) (t : Nat) (power : Bool) : Dev :=
  { regs := d.regs.filter (fun p => storedFields.contains p.1.f || (!power && causeFields.contains p.1.f))
    tick := t, free := d.free, out := d.out, log := if power then [] else d.log
    time := { at_ := t }
    pwr := { ref := t }
    engs := d.engs.filterMap (fun p => if p.2.storeErr.isEmpty then none else some (p.1, { storeErr := p.2.storeErr }))
    thim := { slots := d.thim.slots } }

/-- Every memory but the calibration store is zero. -/
def State.afterReset (s : State) (t : Nat) (power : Bool) : State :=
  let keep := fun (a : Nat) => nvmBase ≤ a && a < smbSnap
  { s with mem := s.mem.filter (fun p => keep p.1), dev := s.dev.afterReset t power }

/-- Bits of HOST_RST_CAUSE. -/
inductive RstCause where
  | pin
  | pcie
  | smbus
  deriving DecidableEq, Repr

def RstCause.bit : RstCause → Nat
  | .pin => 1
  | .pcie => 2
  | .smbus => 3

/-- A device reset that ends at tick `t`; its entry is the log's (R499). -/
def State.deviceReset (s : State) (c : RstCause) (t : Nat) : State :=
  ((s.onDev (·.logEv 0x00 0x10 c.bit 0)).afterReset t false).onDev (fun d =>
    let d := d.st .HOST_RST_CAUSE_POR 0 0
    let d := d.st .HOST_RST_CAUSE_PIN 0 (b2n (c == .pin))
    let d := d.st .HOST_RST_CAUSE_REGPCIE 0 (b2n (c == .pcie))
    let d := d.st .HOST_RST_CAUSE_REGSMB 0 (b2n (c == .smbus))
    d.bump .HOST_RST_CAUSE_COUNT 0 1)

/-- SYS_RESET_N held low for `low` ticks: 1 µs or longer resets, 100 ns or shorter does not, between the two it may
(R407). -/
def State.sysReset (s : State) (low : Nat) : State :=
  if low ≤ 400000 then s
  else if 4000000 ≤ low then s.deviceReset .pin (s.dev.tick + low)
  else
    let r := s.dev.freeBit
    let s := { s with dev := r.2 }
    if r.1 then s.deviceReset .pin (s.dev.tick + low) else s

/-! ## The two-write sequence (R408) -/

/-- The window closes with SEQERR. -/
def Dev.seqErr (d : Dev) : Dev := ({ d with rstWin := none }.st .HOST_RST_CAUSE_SEQERR 0 1).logEv 0x00 0x11 16 0

/-- Whether the window is open now. -/
def Dev.rstOpen (d : Dev) : Bool :=
  match d.rstWin with
  | some t => decide (d.tick ≤ t)
  | none => false

def Dev.rstUnlock (d : Dev) (key : Nat) : Dev :=
  if key = 0x5A then { d with rstWin := some (d.tick + 1000 * cyc) } else d.seqErr

def State.rstGo (s : State) (key : Nat) (smb : Bool) : State :=
  if s.dev.rstOpen ∧ key = 0xA5 then
    s.deviceReset (if smb then .smbus else .pcie) (cycleOf s.dev.tick + cyc)
  else s.onDev (·.seqErr)

/-- Any other write to the HOST_ block breaks an open sequence. -/
def Dev.hostTouched (d : Dev) : Dev := if d.rstOpen then d.seqErr else d

/-- RST_WINDOW_EXPIRE. -/
def Dev.rstExpire (d : Dev) : Dev :=
  match d.rstWin with
  | some t => { d.advanceTo t with rstWin := none }
  | none => d

/-! ## Host-link reset (R409, R459, R478) -/

/-- CMD_STAT while a command runs: kept over the reset. -/
def cmdKept : List Field := [.CMD_STAT_BUSY, .CMD_STAT_OP, .CMD_STAT_CODE]

/-- HOST takes its reset values; a running command goes on; every cause reads 1 and its message waits for MSI-X. -/
def Dev.linkReset (d : Dev) : Dev :=
  let d := if d.rstOpen then d.seqErr else { d with rstWin := none }
  let d := d.prepRefuse domHost 0x12
  let kept := d.regs.filter (fun p => d.cmd.isSome && cmdKept.contains p.1.f)
  let tap := d.tap
  let d := (d.dropUnits domHost).dropRegs domHost
  let d := { d with regs := kept ++ d.regs, tap := tap, pba := List.range 204 }
  let d := d.ready .HOST_READY_HOST 0
  (d.st .HOST_IRQ_STAT_PEND 0 (2 ^ 204 - 1)).st .SEC_STAT_DBG 0 0

def State.linkReset (s : State) : State := (s.zeroDom domHost).onDev (·.linkReset)

/-- PCIE_LINK_UP. -/
def Dev.linkUp (d : Dev) : Dev := if d.domOn domHost then d.ready .HOST_READY_HOST 1 else d

/-! ## Bring-up (R413) -/

/-- PLL_RETURN_COMPLETE: the PLLs are locked to REFCLK; after a whole-device reset the wakes begin. -/
def Dev.pllDone (d : Dev) : Dev :=
  let d := d.pllBack
  if d.on .HOST_READY_TIMING 0 then d.bootWakes else d

/-- REFCLK_QUALIFY_TIMEOUT, 100 ms after the reference of bring-up: it goes on without REFCLK. -/
def Dev.refNone (d : Dev) : Dev :=
  if d.on .HOST_READY_TIMING 0 ∨ !d.pwr.boot then d
  else (d.advanceTo (d.pwr.ref + usTicks 100000)).refTimeout.bootWakes

/-! ## The commands -/

/-- POWER_ON_RESET: a rail fell below its limit; on release the block is as `State.reset`, but for what is stored. -/
def execPowerOnReset (s : State) : Answer := .next (s.afterReset s.dev.tick true)
def execSysResetN (low : Nat) (s : State) : Answer := .next (s.sysReset low)
def execHostRstUnlock (key : Byte) (s : State) : Answer := .next (s.onDev (·.rstUnlock key.toNat))
def execHostRstGo (key : Byte) (smb : Bool) (s : State) : Answer := .next (s.rstGo key.toNat smb)
def execRstWindowExpire (s : State) : Answer := .next (s.onDev (·.rstExpire))
def execHostLinkReset (s : State) : Answer := .next s.linkReset
def execPcieLinkUp (s : State) : Answer := .next (s.onDev (·.linkUp))
def execPllReturnComplete (s : State) : Answer := .next (s.onDev (fun d => d.timeStep (·.pllDone)))
def execRefclkQualifyTimeout (s : State) : Answer := .next (s.onDev (fun d => d.timeStep (·.refNone)))

end Sys2Proof.Machine
end

