-- ==== Sys2Proof/Machine/CmdPort.lean ====
section
/-!
DEFINITION. The command port and its commands (R250, R320, R369 to R373, R422 to R424, R432 to R436, R443, R449 to R451,
R485 to R488).
-/

namespace Sys2Proof.Machine

/-! ## Codes (R487) -/

def cOK : Nat := 1
def cBADOP : Nat := 2
def cBADARG : Nat := 3
def cMODE : Nat := 4
def cSTATE : Nat := 5
def cAUTH : Nat := 6
def cFAIL : Nat := 7
def cABORTED : Nat := 8

/-- The command ends: results, CODE, BUSY, vector 192, and its event-log entry (R485, R499). -/
def Dev.cmdEnd (d : Dev) (op code : Nat) (res : List Nat) : Dev :=
  let d := (List.range 4).foldl (fun d i => d.sti .CMD_RES_RES 0 i (res.getD i 0)) { d with cmd := none }
  (((d.st .CMD_STAT_CODE 0 code).st .CMD_STAT_BUSY 0 0).irq 192).logEv 0x01 0x10 op code

def State.cmdEnd (s : State) (op code : Nat) (res : List Nat) : State := s.onDev (·.cmdEnd op code res)

/-- A command that runs has its end fixed. -/
def State.cmdFix (s : State) (code : Nat) (res : List Nat) : State := s.onDev (·.cmdDone code res)

/-! ## TRAIN_DRAM (R369, R370, R373) -/

/-- The code a TRAIN_DRAM completes with at once, none when it runs. -/
def Dev.trainRefused (d : Dev) (a0 : Nat) : Option Nat :=
  let p := a0 % 2
  let st := d.rg .DRC_STAT_STATE p
  let ok := if bitOf a0 2 then st == 3 || st == 4 else st == 1 || st == 3 || st == 4 || st == 6
  if 8 ≤ a0 then some cBADARG
  else if !d.domOn (domDr p) ∨ !ok ∨ (d.drc p).retrain ∨ d.on .DRC_STAT_CFGERR p then some cSTATE
  else none

def Dev.trainCmd (d : Dev) (a0 : Nat) : Dev :=
  let p := a0 % 2
  let st := d.rg .DRC_STAT_STATE p
  let f := a0 / 2 % 2
  if bitOf a0 2 then (d.modDrc p (fun x => { x with retrain := true })).st .DRC_STAT_RETRAIN p 1
  else
    let t : Train := ⟨f, d.on .DRC_CFG_FSPBOTH p && f == 0 && (st == 1 || st == 6), true⟩
    if st = 4 then d.modDrc p (fun x => { x with wait := some t }) else d.trainStart p t

/-! ## CALIBRATE (R430 to R436) -/

def calSteps (a0 : Nat) : Nat := bitsOf a0 8 6
def calProf (a0 : Nat) : Nat := bitsOf a0 16 5
def calN (a0 : Nat) : Nat := bitsOf a0 32 32
def calDomains (a1 : Nat) : List Nat := (List.range 16).filter (fun k => bitOf a1 k)

/-- Bits of ARG0 and ARG1 that no field names. -/
def calUnused (a0 a1 : Nat) : Bool :=
  bitsOf a0 1 7 != 0 || bitsOf a0 14 2 != 0 || bitsOf a0 21 11 != 0 || bitsOf a1 19 13 != 0 || bitsOf a1 41 23 != 0

def Dev.calRefused (d : Dev) (a0 a1 a2 a3 : Nat) : Option Nat :=
  let ftc := bitOf a0 13
  let mode := d.rg .SEW_MODE_MODE 0
  if calUnused a0 a1 || a2 != 0 || a3 != 0 || calSteps a0 == 0 || (ftc && calSteps a0 != 32) || decide (calN a0 < 64)
    || decide (65536 < calN a0) then some cBADARG
  else if ftc then none
  else if (if bitOf a0 0 then mode ≠ 2 ∧ mode ≠ 3 else mode ≠ 3) then some cMODE
  else if (calDomains a1).any (fun k => !d.domUp (domPd k)) then some cSTATE
  else if bitOf a0 0 ∧ (calDomains a1).any (fun k => (pdQuads k).any (fun q => (d.quadOwner q).isSome)) then some cSTATE
  else none

/-- CALIBRATE begins: FTC collects from now on; step 1 re-trims each domain at once. The frames are those of its
sequence (R50). -/
def Dev.calStart (d : Dev) (m : List Host.Cell) (a0 a1 : Nat) (frames : List (Nat × Nat × Nat)) : Dev :=
  let d := { d with cal := { d.cal with ftc := [], ftcAt := d.tick, meas := [], wait := d.cal.wait ++ frames }, calRead := [] }
  let d := (List.range 16).foldl (fun d k => d.calFeed k) d
  if !bitOf a0 13 ∧ bitOf a0 8 then (calDomains a1).foldl (fun d k => (d.retrim_ m k).takeFree k) d else d

/-- Deskew values in ticks that a measurement gives: the mean then equals CAL_REFTAB, or the edge its programmed time. -/
def Dev.measDeskew (d : Dev) (x : CalMeas) : Int :=
  if x.path.val < 2 then (d.rgi .CAL_REFTAB_TICKS 0 x.ch : Int) - x.mean else -x.mean

/-- Whether a channel passes a path's measurement (R433). -/
def Dev.measOk (d : Dev) (n : Nat) (x : CalMeas) : Bool :=
  n ≤ x.edges && x.range ≤ 40 && (d.measDeskew x).natAbs ≤ 10000

/-- Paths that step `s` measures: CMH and CML, DRV, DEN. -/
def stepPaths (s : Nat) : List Nat := if s = 2 then [0, 1] else if s = 3 then [2] else [3]

/-- Where a path's value stands among the four of a PROFILE payload (DRV, DEN, CMH, CML). -/
def payloadPlace (path : Nat) : Nat := match path with | 0 => 2 | 1 => 3 | 2 => 0 | _ => 1

/-- Step `s` = 2 to 4 passes on domain `k`: every channel does, and no calibration read of the step failed (R48, R433). -/
def Dev.stepOk (d : Dev) (n s k : Nat) (l : List CalMeas) : Bool :=
  !d.calRead.any (fun r => r.1 == s && r.2.1 == k && r.2.2.isNone) && (List.range 32).all (fun j => (stepPaths s).all (fun p =>
    l.any (fun x => x.ch.val == 32 * k + j && x.path.val == p && d.measOk n x)))

/-- The values step `s` measured on domain `k` are kept. -/
def Dev.stepKeep (d : Dev) (s k : Nat) (l : List CalMeas) : Dev :=
  (l.filter (fun x => x.ch.val / 32 == k && (stepPaths s).contains x.path.val)).foldl (fun d x =>
    { d with cal := { d.cal with meas := d.cal.meas.put (x.ch.val, payloadPlace x.path.val) (d.measDeskew x) } }) d

/-- Bytes of a record of 16 + payload + 4 bytes, padded to its size (R423). -/
def recordBytes (type index unit seq size : Nat) (payload : List Nat) : List Nat :=
  let h := leBytes 16 (type + index * 2 ^ 8 + unit * 2 ^ 16 + seq * 2 ^ 32 + payload.length * 2 ^ 64)
  let b := h ++ payload ++ leBytes 4 (crc32 (h ++ payload))
  b ++ List.replicate (size - b.length) 0

/-- Write a record into the store; it is counted and logged (R422, R499). -/
def State.nvmPut (s : State) (a unit : Nat) (l : List Nat) : State :=
  ({ s with mem := memWrite s.mem a l }).onDev (fun d => (d.bump .CAL_NVMWR_COUNT 0 1).logEv 0x05 0x11 unit 0)

/-- The profile slot to write, and the SEQ after the newer one. -/
def profNext (m : List Host.Cell) (prof k : Nat) : Nat × Nat :=
  match profOk m prof 0 k, profOk m prof 1 k with
  | some a, some b => if a.1 < b.1 then (0, b.1 + 1) else (1, a.1 + 1)
  | some a, none => (1, a.1 + 1)
  | none, some b => (0, b.1 + 1)
  | none, none => (0, 1)

/-- Step 5: the domain's record of the profile: the values measured, else those of the record in use (log 71);
it is loaded at once when the profile is in use (R431). -/
def State.stepWrite (s : State) (prof k : Nat) : State :=
  let n := profNext s.mem prof k
  let old := match profPick s.mem prof k with
    | some p => p.2
    | none => []
  let pay := (List.range 32).flatMap (fun j =>
    (deskewOf old j).zipIdx.flatMap (fun v => leBytes 2 (unsigned 16 ((s.dev.cal.meas.get? (32 * k + j, v.2)).getD v.1))))
  let pay := pay ++ leBytes 2 (s.dev.rgi .CAL_TEMP_TNOW 0 k)
  let s := s.nvmPut (profRec prof n.1 k) k (recordBytes 2 prof k n.2 288 pay)
  if s.dev.profSel = some prof ∧ s.dev.domOn (domPd k) then s.onDev (fun d => (d.loadProfile s.mem k).takeFree k) else s

/-- One step over all named domains: those still in the running, and what it leaves. -/
def State.calStep (s : State) (a0 : Nat) (r : CmdEnd) (l : List Nat) (step : Nat) : List Nat × State :=
  if !bitOf (calSteps a0) (step - 1) then (l, s)
  else
    let bad := r.bad.map (·.val)
    let ok := l.filter (fun k => if step = 1 then true else if step = 5 then !bad.contains k else s.dev.stepOk (calN a0) step k r.meas)
    let s := if step = 5 then ok.foldl (fun s k => s.stepWrite (calProf a0) k) s
      else ok.foldl (fun s k => s.onDev (·.stepKeep step k r.meas)) s
    let bits := fun (x : List Nat) => (x.map (fun k => 2 ^ k)).foldl (· + ·) 0
    (ok, s.onDev (fun d => (d.sti .CAL_RES_PASS 0 (step - 1) (bits ok)).sti .CAL_RES_RUN 0 (step - 1) (bits l)))

/-- CALIBRATE ends (R433, R436). -/
def State.calEnd (s : State) (a0 a1 : Nat) (r : CmdEnd) : State :=
  if bitOf a0 13 then
    let l := s.dev.cal.ftc
    let sp := Config.rmsSpread l
    let pass := decide (calN a0 ≤ l.length) && decide (sp ≤ 0x1000)
    let s := s.onDev (fun d =>
      ((d.st .CAL_FTC_RES_FCENTRE 0 ((Config.circularMean l + 0x8000) % 65536)).st .CAL_FTC_RES_SPREAD 0 sp).st .CAL_FTC_RES_PASS 0 (b2n pass))
    s.cmdEnd 2 (if pass then cOK else cFAIL) []
  else
    let l := calDomains a1
    let e := [1, 2, 3, 4, 5].foldl (fun (a : List Nat × State) step => a.2.calStep a0 r a.1 step) (l, s)
    let s := e.2.onDev (fun d => l.foldl (fun d k => (List.range 32).foldl (fun d j => d.park (32 * k + j) d.tick) d) d)
    s.cmdEnd 2 (if e.1 = l then cOK else cFAIL) []

/-! ## SELFTEST (R250) -/

/-- Engines as two 64-bit results. -/
def engineBits (l : List Nat) : Nat × Nat :=
  let n := (l.map (fun e => 2 ^ e)).foldl (· + ·) 0
  (n % 2 ^ 64, n / 2 ^ 64)

def State.selfTestCmd (s : State) (a0 a1 : Nat) : State :=
  let m := a0 + a1 * 2 ^ 64
  let l := (List.range 128).filter (fun e => (m == 0 || bitOf m e) && s.dev.domOn (domK (e / 16)))
  let skip := l.filter (fun e => s.dev.estate e == 1 || s.dev.estate e == 2)
  let s := (l.filter (fun e => !skip.contains e)).foldl (fun s e => s.onDev (·.selfTest e)) s
  let err := engineBits (l.filter (fun e => !skip.contains e && s.dev.on .ENG_MC_STAT_IDERR e))
  let sk := engineBits skip
  s.cmdFix (if err = (0, 0) then cOK else cFAIL) [err.1, err.2, sk.1, sk.2]

/-! ## KEY_IMPORT (R443) -/

/-- A blob as the model lays it out: slot, MINVER, ephemeral key, ciphertext of content key and signer key, tag, and the
signature when the slot is valid (log 27). -/
def State.keyImport (s : State) (l : List Nat) : State :=
  let d := s.dev
  let slot := l.getD 0 0
  let minver := leNat ((l.drop 1).take 8)
  let eph := leNat ((l.drop 9).take 64)
  let body := l.take 185
  let key := Config.sha256 (leBytes 32 (Config.ecdhX eph) ++ leBytes 32 (d.rg .SEC_IMP_NONCE_NONCE 0) ++ [slot])
  let old := d.thim.slots.get? slot
  let plain := Config.gcmOpen key [] [] ((l.drop 73).take 96) ((l.drop 169).take 16)
  let sigOk := match old with
    | some k => Config.ecdsaVerify k.signer (leBytes 32 (Config.sha256 body)) (leNat ((l.drop 185).take 64))
    | none => true
  let verOk := match old with
    | some k => decide (k.minver ≤ minver)
    | none => true
  let s := s.onDev (·.newNonce)
  match plain with
  | some p =>
    if sigOk && verOk then
      let key := leNat (p.take 32)
      let s := s.onDev (fun d => (d.modThim (fun x =>
        { x with slots := if key = 0 then x.slots.del slot else x.slots.put slot ⟨key, leNat ((p.drop 32).take 64), minver⟩ })).slotBits)
      s.cmdEnd 5 cOK [slot]
    else s.cmdEnd 5 cAUTH []
  | none => s.cmdEnd 5 cAUTH []

/-! ## LIFECYCLE (R449, R450) -/

/-- Whether a transition exists, and whether it must be signed. -/
def lcTransition (a b : Nat) : Option Bool :=
  match a, b with
  | 0, 1 => some false
  | 1, 2 => some false
  | 2, 3 => some true
  | 3, 2 => some false
  | 1, 4 => some false
  | 3, 4 => some false
  | 2, 4 => some true
  | _, _ => none

/-- The engine's architected registers (R164) take their reset values. -/
def Dev.archReset (d : Dev) : Dev :=
  { d with regs := d.regs.filter (fun p => !(p.1.f.info.blk == .eng && 0x1000 ≤ p.1.f.info.off && p.1.f.info.off < 0x1200)) }

/-- The commit record and the wipe that follows (R411, R450). -/
def State.lcCommit (s : State) (target : Nat) : State :=
  let s := s.onDev (fun d =>
    let d := ((d.st .SEC_LC_STATE 0 target).showIdentity).modThim (fun x => { x with slots := [] })
    ((d.slotBits.freeRegions).archReset).logEv 0x04 0x12 target 0)
  s.keyReplace.zeroChip true

def State.lifecycle (s : State) (target : Nat) (sig : List Nat) : State :=
  let d := s.dev
  if !d.quietDevice then s.cmdEnd 6 cSTATE []
  else match lcTransition d.lc target with
  | none => (s.alarm 5).cmdEnd 6 cSTATE []
  | some signed =>
    if !signed then s
    else if d.lc = 2 ∧ target = 3 ∧ d.rg .SEC_DBGKEY_KEY 0 = 0 then (s.onDev (·.newChal)).cmdEnd 6 cSTATE []
    else
      let msg := leBytes 32 (d.rg .SEC_DBG_CHAL_CHAL 0) ++ leBytes 64 (d.rg .SEC_ID_PUB_KEY 0) ++ [target]
      let ok := Config.ecdsaVerify (d.rg .SEC_DBGKEY_KEY 0) (leBytes 32 (Config.sha256 msg)) (leNat (sig.take 64))
      let s := s.onDev (·.newChal)
      if ok then s else (s.alarm 5).cmdEnd 6 cAUTH []

/-! ## NVM_WRITE (R422, R423, R486) -/

/-- The fields of a record's header: TYPE, INDEX, UNIT, SEQ, LEN. -/
def recHead (l : List Nat) : Nat × Nat × Nat × Nat × Nat :=
  let h := leNat (l.take 16)
  (bitsOf h 0 8, bitsOf h 8 8, bitsOf h 16 9, bitsOf h 32 32, bitsOf h 64 32)

/-- Whether the header is one of R423 with its place and length in range. -/
def recFits (l : List Nat) : Bool :=
  let h := recHead l
  let x := leNat (l.take 16)
  20 ≤ l.length && bitsOf x 25 7 == 0 && bitsOf x 96 32 == 0 && 20 + h.2.2.2.2 ≤ l.length
    && (match h.1 with
      | 1 => h.2.1 ≤ 4 && h.2.2.2.2 == 160 && l.length ≤ 192
      | 2 => h.2.1 ≤ 31 && h.2.2.1 ≤ 15 && h.2.2.2.2 == 258 && l.length ≤ 288
      | 3 => l.length ≤ 1024
      | _ => false)

def Dev.nvmRefused (d : Dev) (l : List Nat) : Option Nat :=
  let t := (recHead l).1
  if !recFits l then some cBADARG
  else if t ≠ 2 ∧ (recordOf l).isNone then some cBADARG
  else if t ≠ 2 ∧ 1 < d.lc then some cSTATE
  else none

/-- The record is written; what does not read back fails. -/
def State.nvmWrite (s : State) (l : List Nat) (readBack : Bool) : State :=
  let h := recHead l
  let idx := h.2.1
  let unit := h.2.2.1
  let pad := fun (n : Nat) => l ++ List.replicate (n - l.length) 0
  let w : State × Nat := match h.1 with
    | 1 => (s.nvmPut (chanRec unit idx) unit (pad 192), h.2.2.2.1)
    | 2 =>
      let n := profNext s.mem idx unit
      let s := s.nvmPut (profRec idx n.1 unit) unit (recordBytes 2 idx unit n.2 288 ((l.drop 16).take 258))
      (if s.dev.profSel = some idx ∧ s.dev.domOn (domPd unit) then s.onDev (fun d => (d.loadProfile s.mem unit).takeFree unit) else s, n.2)
    | _ => (s.nvmPut (nvmBase + 0xC0000 + 1024 * idx) unit (pad 1024), h.2.2.2.1)
  w.1.cmdEnd 7 (if readBack then cOK else cFAIL) [w.2]

/-! ## The doorbell (R485, R486) -/

/-- A command starts, or completes at once. `a` are ARG0 to ARG3, `buf` CMD_BUF. -/
def State.cmdStart (s : State) (op : Nat) (a : List Nat) (buf : List Nat) (frames : List (Nat × Nat × Nat)) : State :=
  let a0 := a.getD 0 0
  let a1 := a.getD 1 0
  let rest := a.getD 2 0 != 0 || a.getD 3 0 != 0
  let no := fun (s : State) (c : Nat) => s.cmdEnd op c []
  if s.dev.locked then no s cMODE
  else match op with
  | 1 => if rest ∨ a1 ≠ 0 then no s cBADARG else match s.dev.trainRefused a0 with
    | some c => no s c
    | none => s.onDev (·.trainCmd a0)
  | 2 => match s.dev.calRefused a0 a1 (a.getD 2 0) (a.getD 3 0) with
    | some c => no s c
    | none => s.onDev (·.calStart s.mem a0 a1 frames)
  | 3 => if rest ∨ a1 ≠ 0 ∨ 2 < a0 then no s cBADARG
    else if !s.dev.quietDevice then no s cSTATE
    else (s.wipe a0).cmdFix cOK []
  | 4 => if rest then no s cBADARG else s.selfTestCmd a0 a1
  | 5 =>
    let n := a0 % 4096
    let valid := (s.dev.thim.slots.get? (buf.getD 0 0)).isSome
    if rest ∨ a1 ≠ 0 ∨ 4096 ≤ a0 ∨ n ≠ (if valid then 249 else 185) ∨ 16 ≤ buf.getD 0 0 then no (s.onDev (·.newNonce)) cBADARG
    else if s.dev.lc ≠ 1 ∧ s.dev.lc ≠ 2 then no (s.onDev (·.newNonce)) cSTATE
    else s
  | 6 => if rest ∨ a1 ≠ 0 ∨ 4 < a0 then no s cBADARG else s.lifecycle a0 buf
  | 7 =>
    if rest ∨ a1 ≠ 0 ∨ 4096 ≤ a0 then no s cBADARG
    else match s.dev.nvmRefused (buf.take a0) with
    | some c => no s c
    | none => s
  | 8 =>
    if rest ∨ 65536 ≤ a1 then no s cBADARG
    else if s.dev.rebaseOk then (s.onDev (fun d => d.timeStep (·.rebase a0 a1))).cmdFix cOK []
    else no s cSTATE
  | _ => no s cBADOP

/-- Where CMD_BUF lies. -/
def cmdBuf : Nat := 0x101000

/-- A doorbell: accepted unless a command runs. The command's arguments and buffer are those of that cycle. -/
def State.doorbell (s : State) (frames : List (Nat × Nat × Nat)) : State :=
  if !s.dev.domOn domHost then s.onDev (·.bump .PWR_ACCREJ_COUNT 0 1)
  else if s.dev.on .CMD_STAT_BUSY 0 || s.dev.quies.contains domHost then s.onDev (·.bump .CMD_IGNCNT_COUNT 0 1)
  else
    let op := s.dev.rg .CMD_OP_OP 0
    let a := (List.range 4).map (fun i => s.dev.rgi .CMD_ARG_ARG 0 i)
    let b := s.dev.readBytes s.mem 0x07 cmdBuf 4096
    let s := { s with dev := b.2.2 }
    let s := s.onDev (fun d => { (d.st .CMD_STAT_BUSY 0 1).st .CMD_STAT_OP 0 op with cmd := some ⟨op, a ++ b.1, none⟩ })
    s.cmdStart op a b.1 frames

/-- A host that writes OP, the arguments and the buffer, and rings the doorbell. -/
def State.order (s : State) (op : Nat) (a : List Nat) (buf : List Nat) (frames : List (Nat × Nat × Nat)) : State :=
  if !s.dev.domOn domHost ∨ s.dev.on .CMD_STAT_BUSY 0 then s.doorbell frames
  else
    let s := s.onDev (fun d => (List.range 4).foldl (fun d i => d.sti .CMD_ARG_ARG 0 i (a.getD i 0)) (d.st .CMD_OP_OP 0 op))
    (if buf.isEmpty then s else s.writeBytes 0x07 cmdBuf (buf.take 4096) {}).doorbell frames

/-- COMMAND_COMPLETE. -/
def State.cmdComplete (s : State) (r : CmdEnd) : State :=
  match s.dev.cmd with
  | none => s
  | some c =>
    let a0 := c.args.getD 0 0
    let buf := c.args.drop 4
    match c.done, c.op with
    | some e, op => (if op = 5 then s.onDev (·.newNonce) else s).cmdEnd op e.1 e.2
    | none, 2 => s.calEnd a0 (c.args.getD 1 0) r
    | none, 5 => s.keyImport (buf.take a0)
    | none, 6 => (s.lcCommit a0).cmdEnd 6 cOK []
    | none, 7 => s.nvmWrite (buf.take a0) r.readBack
    | none, _ => s

/-! ## The commands -/

def nats (l : List Byte) : List Nat := l.map (·.toNat)

def execTrainDram (a0 : Word) (s : State) : Answer := .next (s.order 1 [a0.toNat] [] [])
def execCalibrate (a0 a1 : Word) (frames : List CalFrame) (s : State) : Answer :=
  .next (s.order 2 [a0.toNat, a1.toNat] [] (frames.map (fun f => (f.step.val + 1, f.pd.val, f.frame.toNat))))
def execWipe (a0 : Word) (s : State) : Answer := .next (s.order 3 [a0.toNat] [] [])
def execSelftest (a0 a1 : Word) (s : State) : Answer := .next (s.order 4 [a0.toNat, a1.toNat] [] [])
def execKeyImport (a0 : Word) (blob : List Byte) (s : State) : Answer := .next (s.order 5 [a0.toNat] (nats blob) [])
def execLifecycle (a0 : Word) (sig : List Byte) (s : State) : Answer := .next (s.order 6 [a0.toNat] (nats sig) [])
def execNvmWrite (a0 : Word) (record : List Byte) (s : State) : Answer := .next (s.order 7 [a0.toNat] (nats record) [])
def execRebase (a0 a1 : Word) (s : State) : Answer := .next (s.order 8 [a0.toNat, a1.toNat] [] [])
def execCommandComplete (r : CmdEnd) (s : State) : Answer := .next (s.cmdComplete r)

end Sys2Proof.Machine
end

