-- ==== Sys2Proof/Machine/Contactor.lean ====
section
/-!
DEFINITION. Contactor wear and telemetry (R462 to R471).
-/

namespace Sys2Proof.Machine

/-! ## Thresholds and states (R463, R465) -/

/-- ⌈0.9 × RATED⌉. -/
def warnAt (rated : Nat) : Nat := (9 * rated + 9) / 10

/-- WARN and LIFE follow CTR_TDCNT against RATED; WARN raises the vector once. Without a verified record there is no
RATED to judge by. -/
def Dev.ctrJudge (d : Dev) : Dev :=
  let n := d.rg .CTR_TDCNT_COUNT 0
  let r := d.rg .CTR_RATED_RATED 0
  if r = 0 then d
  else
    let d := d.st .CTR_STAT_LIFE 0 (b2n (decide (r ≤ n)))
    let w := decide (warnAt r ≤ n)
    if w && !d.on .CTR_STAT_WARN 0 then (d.st .CTR_STAT_WARN 0 1).irq 197 else d.st .CTR_STAT_WARN 0 (b2n w)

/-- STATE; each change raises the vector. -/
def Dev.ctrState (d : Dev) (v : Nat) : Dev :=
  if d.rg .CTR_STAT_STATE 0 = v then d else (d.st .CTR_STAT_STATE 0 v).irq 197

/-- Whether bytes 0 to 63 are a valid record. -/
def ctrFormat (l : List Nat) : Bool :=
  leNat (l.take 4) == 1 && leNat ((l.drop 4).take 4) != 0 && decide (leNat ((l.drop 24).take 4) ≤ 2)
    && leNat ((l.drop 28).take 36) == 0

/-- Whether the signature holds under CTR_SIGKEY. -/
def Dev.ctrSigned (d : Dev) (l : List Nat) : Bool :=
  d.rg .CTR_SIGKEY_KEY 0 != 0
    && Config.ecdsaVerify (d.rg .CTR_SIGKEY_KEY 0) (leBytes 32 (Config.sha256 (l.take 64))) (leNat ((l.drop 64).take 64))

/-- SERIAL of a record. -/
def ctrSerial (l : List Nat) : Nat := leNat ((l.drop 8).take 16)

/-- A contactor with another SERIAL than the last one verified: the continuity counts and the pending touchdowns go. -/
def Dev.ctrOther (d : Dev) (serial : Nat) : Dev :=
  let d := d.forUnits 512 (fun d c => (d.st .PIN_CONT_FAILS c 0).st .PIN_CONT_RUNS c 0)
  (d.st .CTR_PEND_PEND 0 0).logEv 0x00 0x13 0 serial

/-- A verification that finds a verified contactor: its record counts from here on (log 28). Touchdowns that
no verified contactor preceded are discarded (R464). -/
def Dev.ctrVerified (d : Dev) (l : List Nat) : Dev :=
  let serial := ctrSerial l
  let d := match d.ctr.serial with
    | none => d.st .CTR_PEND_PEND 0 0
    | some x => if x = serial then d else d.ctrOther serial
  let d := { d with ctr := { d.ctr with serial := some serial } }
  let d := d.st .CTR_RATED_RATED 0 (leNat ((l.drop 4).take 4))
  let d := d.st .CTR_TDCNT_COUNT 0 (leNat ((l.drop 128).take 4) + d.rg .CTR_PEND_PEND 0)
  (d.ctrState 3).ctrJudge

/-- A write of CTR_CTRL.VERIFY orders a verification (R463). -/
def Dev.ctrOrder (d : Dev) : Dev := { d with ctr := { d.ctr with due := true } }

/-- What a verification finds: bytes 0 to 131 as read, or none where nothing acknowledges. -/
def Dev.ctrRead (d : Dev) (r : Option (List Nat)) : Dev :=
  match r with
  | none => d.ctrState 0
  | some l =>
    if l.length < 132 then d.ctrState 0
    else if ctrFormat l && d.ctrSigned l then d.ctrVerified l
    else
      let d := if d.rg .CTR_STAT_STATE 0 = 0 ∧ d.ctr.serial ≠ some (ctrSerial l) then d.st .CTR_PEND_PEND 0 0 else d
      d.ctrState (if ctrFormat l then 2 else 1)

/-- The verification that a whole-device reset or a write of CTR_CTRL.VERIFY has ordered (R463). -/
def Dev.ctrVerify (d : Dev) (r : Option (List Nat)) : Dev :=
  if d.ctr.due then { d with ctr := { d.ctr with due := false } }.ctrRead r else d

/-! ## Touchdowns (R464) -/

/-- One touchdown; none is counted in LOCKDOWN (R470). -/
def Dev.touchdown (d : Dev) : Dev :=
  if d.locked then d
  else
    let d := d.st .CTR_TDCNT_COUNT 0 (d.rg .CTR_TDCNT_COUNT 0 + 1)
    let d := if d.rg .CTR_PEND_PEND 0 = 0xFFFF then d.st .CTR_STAT_CNTERR 0 1
      else d.st .CTR_PEND_PEND 0 (d.rg .CTR_PEND_PEND 0 + 1)
    (d.logEv 0x00 0x14 0 (d.rg .CTR_TDCNT_COUNT 0)).ctrJudge

/-- A write of CTR_TD.TOUCH = 1. -/
def Dev.ctrTouch (d : Dev) : Dev :=
  if d.on .CTR_CTRL_TDSRC 0 then d.st .CTR_STAT_WREJ 0 1 else d.touchdown

/-- A rising edge on TD_IN that stays high for `high` ticks. -/
def Dev.tdEdge (d : Dev) (high : Nat) : Dev :=
  if !d.on .CTR_CTRL_TDSRC 0 || decide (high < 4000000) || d.locked then d
  else if d.ctr.edge.any (fun t => decide (d.tick < t + 4000000000)) then d.bump .CTR_STAT_BOUNCE 0 1
  else { d with ctr := { d.ctr with edge := some d.tick } }.touchdown

/-- The increment of one pending touchdown is written, and COUNT read back; none where nothing acknowledges. -/
def Dev.ctrCount (d : Dev) (r : Option Nat) : Dev :=
  if d.rg .CTR_PEND_PEND 0 = 0 ∨ d.rg .CTR_STAT_STATE 0 = 0 ∨ d.locked then d
  else match r with
  | none => d.ctrState 0
  | some n =>
    let d := (d.emit .ctrWrite).st .CTR_PEND_PEND 0 (d.rg .CTR_PEND_PEND 0 - 1)
    if n + d.rg .CTR_PEND_PEND 0 = d.rg .CTR_TDCNT_COUNT 0 then d else d.st .CTR_STAT_CNTERR 0 1

/-! ## Telemetry (R471) -/

/-- Lowest FOM of a lane since the last sample. -/
def Dev.lowFom (d : Dev) (n : Nat) : Nat := (d.lane n).low.getD (d.rg .LNK_LSTAT_FOM n)

/-- The 256 bytes of a sample; `rails` are the seven rails in mV. -/
def Dev.telSample (d : Dev) (rails : List Nat) : List Nat :=
  leBytes 16 (d.stamp 0)
    ++ (List.range 24).flatMap (fun k => leBytes 2 (d.rgi .CAL_TEMP_TNOW 0 k))
    ++ (List.range 7).flatMap (fun k => leBytes 2 (rails.getD k 0))
    ++ leBytes 4 (d.rg .PWR_STATE_LO_STATE 0) ++ leBytes 4 (d.rg .PWR_STATE_HI_STATE 0)
    ++ leBytes 16 (((List.range 128).filter (fun e => d.estate e == 2)).map (2 ^ ·)).sum
    ++ leBytes 2 (d.debtNs 0 * 16 / 1000) ++ leBytes 2 (d.debtNs 1 * 16 / 1000)
    ++ leBytes 4 (d.telCe.getD 0 0) ++ leBytes 4 (d.telCe.getD 1 0)
    ++ (List.range 34).map d.lowFom
    ++ leBytes 4 (d.rg .CTR_TDCNT_COUNT 0) ++ leBytes 2 (d.rg .SEC_ALCNT_COUNT 0)
    ++ List.replicate 102 0

/-- A sample is taken: TEL_LAST, and the ring while a port is READY and the ring has a size (log 29). -/
def State.telemetry (s : State) (rails : List Nat) : State :=
  if s.dev.locked then s
  else
    let l := s.dev.telSample rails
    let d := s.dev.st .TEL_LAST_SAMPLE 0 (leNat l)
    let d := Dev.forUnits { d with telCe := [0, 0] } 34 (fun d n => d.setLane n { d.lane n with low := none })
    let w := d.rg .TEL_WPTR_LINE 0
    let z := d.rg .TEL_RSIZE_LINES 0
    let line := d.rg .TEL_RBASE_LINE 0 + w
    if z = 0 ∨ (d.rg .DRC_STAT_STATE 0 ≠ 3 ∧ d.rg .DRC_STAT_STATE 1 ≠ 3) ∨ d.writePath line = .waits then
      { s with dev := d.bump .TEL_SKIP_COUNT 0 1 }
    else
      ({ s with dev := d.st .TEL_WPTR_LINE 0 (if z ≤ w + 1 then 0 else w + 1) }).dramWrite 0x0F (line * 256) l {}

/-- CTR_VERIFY: the answer of the contactor's memory. -/
def execCtrVerify (r : Option (List Byte)) (s : State) : Answer := .next (s.onDev (·.ctrVerify (r.map nats)))

/-- CTR_TOUCH. -/
def execCtrTouch (s : State) : Answer := .next (s.onDev (·.ctrTouch))

/-- TD_IN_EDGE: how long TD_IN stays high, in ticks. -/
def execTdInEdge (high : Nat) (s : State) : Answer := .next (s.onDev (·.tdEdge high))

/-- CTR_COUNT_WRITE: COUNT as read back. -/
def execCtrCountWrite (r : Option (BitVec 32)) (s : State) : Answer := .next (s.onDev (·.ctrCount (r.map (·.toNat))))

/-- TELEMETRY_SAMPLE: VDD_CORE, VDD_SRAM, VDD_AON, VDD_PIN, VDD_SER, VDD_DDQ, VDD_18 as measured, in mV. -/
def execTelemetrySample (rails : List (BitVec 16)) (s : State) : Answer := .next (s.telemetry (rails.map (·.toNat)))

end Sys2Proof.Machine
end

