-- ==== Sys2Proof/Machine/Followers.lean ====
section
/-!
DEFINITION. Follower timebases (R98 to R106).
-/

namespace Sys2Proof.Machine

/-- Loop bandwidth in kHz of a BW code (R100); 0 for a reserved code. -/
def ftBwKhz (c : Nat) : Nat :=
  match c with
  | 0 => 10
  | 1 => 20
  | 2 => 50
  | 3 => 100
  | 4 => 200
  | 5 => 500
  | 6 => 1000
  | 7 => 2000
  | 8 => 5000
  | 9 => 10000
  | _ => 0

/-- What FT_STAT.RANGE_ERR judges (R99, R100); it reads 0 until FT_CTRL or FT_NOM is first written (log 79). -/
def Dev.ftRange (d : Dev) (f : Nat) : Bool :=
  let n := d.rg .FT_NOM_NOM_KHZ f
  let b := ftBwKhz (d.rg .FT_CTRL_BW f)
  n < 10000 || 2000000 < n || b == 0 || n < 10 * b

/-- FT_STAT.IN_USE: a burst timed by this follower is running. -/
def Dev.ftInUse (d : Dev) (f : Nat) : Bool := (List.range 128).any (fun e => d.runs e && (d.eng e).tb == some (some f))

/-- A measured period lies within 5% of NOM_KHZ: the clock in kHz is 4·10^9 ticks/s · 256 / period / 1000. -/
def Dev.ftNear (d : Dev) (f period : Nat) : Bool :=
  let n := d.rg .FT_NOM_NOM_KHZ f
  let k := 4 * 10 ^ 9 * 256
  0 < period && 95 * n * period ≤ 100 * k && 100 * k ≤ 105 * n * period

/-- Whether the source channel gives edges: its pin domain is on and it is not parked (R43, R98). -/
def Dev.ftSeen (d : Dev) (f : Nat) : Bool :=
  d.domOn (domPd (d.rg .FT_CTRL_SRC_CH f / 32)) && (d.chan (d.rg .FT_CTRL_SRC_CH f)).mode != .park

/-- FT_FREQUENCY_MEASURED: `period` in 1/256 tick over 1,024 qualifying edges; within 5% the phase loop closes on the last of
them (R101). -/
def Dev.ftMeasured (d : Dev) (f period : Nat) : Dev :=
  if d.on .FT_CTRL_EN f && !d.on .FT_STAT_LOCKED f && !d.ftRange f && d.ftNear f period && d.ftSeen f then
    (d.st .FT_PERIOD_PERIOD f period).setFt f { d.ft f with closed := true }
  else d

/-- The peak phase error since the last read (R99). -/
def Dev.ftPeak (d : Dev) (f ph : Nat) : Dev := d.st .FT_PHERR_PEAK f (min 0xFFFF (max (d.rg .FT_PHERR_PEAK f) ph))

/-- Whether a phase error of `ph` ticks stays below 1/n of a tracked period. -/
def Dev.ftBelow (d : Dev) (f n ph : Nat) : Bool := ph * n * 256 < d.rg .FT_PERIOD_PERIOD f

/-- FT_LOCK: the largest phase error of the last 1,024 DUT cycles was `ph`, below 1/64 of a period (R101). -/
def Dev.ftLock (d : Dev) (f ph : Nat) : Dev :=
  if d.on .FT_CTRL_EN f && (d.ft f).closed && !d.on .FT_STAT_LOCKED f && !d.ftRange f && d.ftBelow f 64 ph then
    (d.st .FT_STAT_LOCKED f 1).ftPeak f ph
  else d

/-- Whether the event of a cause has happened (R104): the tracked period `period`, the least phase error of the last 64
cycles `ph`. The first cause declares loss at the end of four tracked periods without an edge. -/
def Dev.ftGone (d : Dev) (f period ph : Nat) : FtCause → Bool
  | .noEdge => true
  | .frequency => !d.ftNear f period
  | .phase => !d.ftBelow f 8 ph && ph * 8 * 256 != d.rg .FT_PERIOD_PERIOD f

/-- The tick at which four tracked periods have passed since the last qualifying edge (R104). -/
def Dev.ftSilent (d : Dev) (f : Nat) : Nat := (d.ft f).edge + ceilDiv (4 * d.rg .FT_PERIOD_PERIOD f) 256

/-- What a loss does (R105). The engines are told in the cycle of the declaration, of the at most 4 cycles that R105 gives
(log 80). -/
def Dev.ftDeclare (d : Dev) (f cause : Nat) : Dev :=
  let d := (d.st .FT_STAT_LOCKED f 0).st .FT_STAT_LOST f 1
  let d := (d.bump .FT_LOSS_CNT_COUNT f 1).setFt f { d.ft f with closed := false }
  let r := d.stamp (f + cause * 8)
  let d := ((d.st .FT_LOSS_TS_RECORD f r).logEv 0x29 0x10 f (r % 2 ^ 96)).irq (168 + f)
  d.forUnits 128 (fun d e => if d.runs e && (d.eng e).tb == some (some f) then d.endFault e rFTLOST false else d)

/-- FT_LOSS: the follower declares loss with its cause and tells every engine whose burst it times; their row in progress
is the last (R104, R105). A frequency out of range is the tracked period's, which stays. -/
def Dev.ftLoss (d : Dev) (f : Nat) (cause : FtCause) (period ph : Nat) : Dev :=
  if d.on .FT_CTRL_EN f && d.on .FT_STAT_LOCKED f && d.ftGone f period ph cause then
    let d := match cause with
      | .noEdge => d.advanceTo (d.ftSilent f)
      | .frequency => (d.st .FT_PERIOD_PERIOD f period).retime f
      | .phase => d.ftPeak f ph
    d.ftDeclare f cause.code
  else d

/-- A change of FT_CTRL or FT_NOM starts acquisition again (R101, R102). -/
def Dev.ftRestart (d : Dev) (f : Nat) : Dev := (d.st .FT_STAT_LOCKED f 0).setFt f { d.ft f with closed := false }

/-- A write of FT_CTRL or FT_NOM gives the follower settings to judge; one that changes them restarts it (R99, R101). -/
def Dev.ftWrite (d : Dev) (f : Nat) (diff : Bool) : Dev :=
  let d := d.setFt f { d.ft f with judged := true }
  if diff then d.ftRestart f else d

/-- FT_FREQUENCY_MEASURED. -/
def execFtFrequencyMeasured (f : FtId) (period : Nat) (s : State) : Answer := .next (s.onDev (·.ftMeasured f period))
/-- FT_LOCK. -/
def execFtLock (f : FtId) (phErr : Nat) (s : State) : Answer := .next (s.onDev (·.ftLock f phErr))
/-- FT_LOSS; causes of R104. -/
def execFtLoss (f : FtId) (cause : FtCause) (period : Nat) (s : State) (phErr : Nat := 0) : Answer :=
  .next (s.onDev (·.ftLoss f cause period phErr))

end Sys2Proof.Machine
end

