-- ==== Sys2Proof/Machine/Access.lean ====
section
/-!
DEFINITION. Reads of BAR0: which fields a range of bytes meets, what each shows, the memory windows, and the power
domains that govern them (R9, R10, R310, R391, R473, R485, R494 to R498).
-/

namespace Sys2Proof.Machine

/-- How an access comes in: the host's link, the SMBus target, DEBUG_REG, a DMA channel (R472, R479, R489, R493). -/
inductive Via where
  | pcie
  | smb
  | jtag
  | dma
  deriving DecidableEq, Repr

/-- The consumer an error report names (R27). -/
def Via.cons : Via → Nat
  | .dma => 0x09
  | _ => 0x07

/-! ## Addresses (R496, R497) -/

/-- Instances of field `f` that bytes `a` to `a + n - 1` meet, with the bit address of their lowest bit. -/
def fieldHits (b : Blk) (f : Field) (a n : Nat) : List (RegKey × Nat) :=
  let g := b.geom
  let i := f.info
  let u := (a - g.1) / g.2.1
  let o := g.1 + u * g.2.1 + i.off
  let k := if i.step = 0 then 0 else (a - o) / i.step
  [k, k + 1].filterMap (fun k =>
    let p := 8 * (o + k * i.step) + i.lsb
    if k < i.count ∧ p < 8 * (a + n) ∧ 8 * a < p + i.width then some (⟨f, u, k⟩, p) else none)

/-- Fields that bytes `a` to `a + n - 1` of BAR0 meet. -/
def hits (a n : Nat) : List (RegKey × Nat) :=
  (Blk.all.filter (fun b => decide (b.geom.1 ≤ a) && decide (a < b.geom.1 + b.geom.2.1 * b.geom.2.2))).flatMap
    (fun b => (Field.ofBlk b).flatMap (fun f => fieldHits b f a n))

/-- The memories of BAR0 (R473, R494, R495). -/
inductive Win where
  | msixTable
  | pba
  | snap
  | cmdBuf
  | seq (g : Nat)
  | acqRec
  | fail (e : Nat)
  | bob (e : Nat)
  | edge (c : Nat)
  | per (e : Nat)
  | prog (c b : Nat)
  deriving DecidableEq, Repr

/-- The memory that holds BAR0 byte `a`. -/
def winOf (a : Nat) : Option Win :=
  if 0x2000 ≤ a ∧ a < 0x3000 then some .msixTable
  else if 0x3000 ≤ a ∧ a < 0x3020 then some .pba
  else if 0x4000 ≤ a ∧ a < 0x5000 then some .snap
  else if cmdBuf ≤ a ∧ a < cmdBuf + 4096 then some .cmdBuf
  else if 0xA40000 ≤ a ∧ a < 0xAC0000 then some (.seq ((a - 0xA40000) / 0x10000))
  else if 0xE00000 ≤ a ∧ a < 0xE40000 then some .acqRec
  else if 0x1000000 ≤ a ∧ a < 0x1800000 then
    if a % 0x10000 < 0x8000 then none else some (.fail ((a - 0x1000000) / 0x10000))
  else if 0x1800000 ≤ a ∧ a < 0x2000000 then some (.bob ((a - 0x1800000) / 0x10000))
  else if 0x2800000 ≤ a ∧ a < 0x2880000 then some (.edge ((a - 0x2800000) / 1024))
  else if 0x2900000 ≤ a ∧ a < 0x2910000 then some (.per ((a - 0x2900000) / 512))
  else if 0x3000000 ≤ a ∧ a < 0x3800000 then some (.prog ((a - 0x3000000) / 0x100000) (a / 0x80000 % 2))
  else none

/-- The windows that accept every size up to the max payload size (R473). -/
def Win.anySize : Win → Bool
  | .msixTable => false
  | .pba => false
  | .snap => false
  | .cmdBuf => false
  | _ => true

/-- The power domain of a memory. -/
def Win.dom : Win → Nat
  | .seq _ => domDsp
  | .acqRec => domDsp
  | .fail e => domK (e / 16)
  | .bob e => domK (e / 16)
  | .edge c => domPd (c / 32)
  | .per e => domK (e / 16)
  | .prog c _ => domK c
  | _ => domHost

/-- Whether the size and alignment of an access are allowed (R473). A TLP crosses no 4 KiB boundary (log 30). -/
def sizeOk (a n : Nat) : Bool :=
  ((n == 4 || n == 8) && a % n == 0)
    || ((winOf a).any (·.anySize) && 0 < n && n ≤ 512 && a % 4096 + n ≤ 4096)

/-! ## What fields show -/

/-- Engines of cluster `c` for which bank `b` is in use (R171, R172). -/
def Dev.bankUsers (d : Dev) (c b : Nat) : Nat :=
  ((List.range 16).filter (fun i => d.eff .ENG_ENTRY_BANK (16 * c + i) == b
    || (d.runs (16 * c + i) && (d.eng (16 * c + i)).bank == b))).length

/-- Positions from which a message has come in the last 10 µs (R362). -/
def Dev.heardBits (d : Dev) : Nat :=
  (((List.range 16).filter (fun p => (d.heard.get? p).any (fun t => decide (d.tick < t + 40000000)))).map (2 ^ ·)).sum

/-- Fields of a lane that belong to its transmit half. -/
def txFields : List Field := [.LNK_LCTRL_TXPOL, .LNK_LTXEQ_PRE, .LNK_LTXEQ_POST, .LNK_LTXEQ_MAIN]

/-- Whether the field belongs to the half of a macro that a converter lane does not use (R337). PRBS serves both. -/
def otherHalf (k : RegKey) : Bool :=
  k.f.info.blk == .lane
    && ((18 ≤ k.u && k.u < 26 && txFields.contains k.f)
      || (26 ≤ k.u && !txFields.contains k.f && k.f != .LNK_LCTRL_PRBS))

/-- Cycles of the bobbin hold in progress that ENG_BOB_STALL has not counted yet. -/
def Dev.holdNow (d : Dev) (e : Nat) : Nat := if (d.eng e).miss.isSome then (d.tick - (d.eng e).missFrom) / cyc else 0

/-- Fields that the unit computes as they are read. -/
def Dev.shown (d : Dev) (k : RegKey) : Option Nat :=
  let u := k.u
  match k.f with
  | .PIN_INVALID_CNT_COUNT => some (((d.pairsTo u d.tick).invSettle u d.tick false).rg .PIN_INVALID_CNT_COUNT u)
  | .FEB_STAT_QDEPTH => some (d.feb u).depth
  | .FEB_STAT_BUSY => some (b2n (d.feb u).busy)
  | .ENG_QMASK_QUADS => some (d.qmask u)
  | .ENG_TIE_SCOPE => some (d.scope u)
  | .ENG_TIE_LATENCY => some (d.tieLat u)
  | .FT_STAT_RANGE_ERR => some (b2n ((d.ft u).judged && d.ftRange u))
  | .FT_STAT_IN_USE => some (b2n (d.ftInUse u))
  | .ENG_BOB_STAT_AHEAD => some (d.aheadLines u)
  | .ENG_BOB_STALL_COUNT => some (min (d.rg .ENG_BOB_STALL_COUNT u + d.holdNow u) 0xFFFFFFFF)
  | .ENG_BOB_STAT_INPANIC => some (b2n (d.inPanic u))
  | .ENG_FLOG_STAT_OCC => some (d.eng u).fbCnt
  | .ENG_FLOG_STAT_RINGFULL => some (b2n (d.rg .ENG_FLOG_SIZE_LINES u != 0 && d.ringFull u))
  | .PM_STAT_USERS0 => some (d.bankUsers u 0)
  | .PM_STAT_USERS1 => some (d.bankUsers u 1)
  | .PM_STAT_WR0 => some (b2n (d.bankUsers u 0 == 0))
  | .PM_STAT_WR1 => some (b2n (d.bankUsers u 1 == 0))
  | .ENG_TACK_STAT_COUNT => some (d.eng u).tacks.length
  | .ENG_TACK_HEAD_RECORD => some (((d.eng u).tacks.map (·.1)).headD 0)
  | .ENG_MC_STAT_CAREFUL_NOW => some (b2n ((d.runs u && (d.eng u).careful) || (d.eng u).recov.isSome || d.tick < (d.eng u).ceTo))
  | .ENG_FLAGS_EVENT => some (b2n (d.eventFlag u))
  | .ACQ_STAT_RINGFULL => some (b2n (d.rg .ACQ_RSIZE_LINES u != 0 && !d.ringRoom u))
  | .ACQ_STAT_INPANIC => some (b2n (d.acqPanicOf u))
  | .LNK_STAT_F => some (if d.on .LNK_CFG_EN u then d.lnkF u else 0)
  | .DDC_STAT_RUN => some (d.rg .DDC_CTRL_EN u)
  | .DDC_GD_GD2 => some (d.ddcGd2 u)
  | .DDC_OUTP_TS => some (d.ddcOutp u)
  | .AWG_TP_TP => some (d.awgTp u)
  | .AWG_GD_GD => some (d.awgGd u)
  | .AWG_STAT_INPANIC => some (b2n (d.awgPanicOf u))
  | .TIME_NOW_NS_NS => some d.nowNs
  | .TIME_NOW_AUX_FRAC => some (bitsOf d.time.aux 0 16)
  | .TIME_NOW_AUX_GEN => some (bitsOf d.time.aux 16 8)
  | .TIME_NOW_AUX_QUAL => some (bitsOf d.time.aux 24 4)
  | .TIME_STAT_QUAL => some d.quality
  | .TIME_STAT_SLEWING => some (b2n (d.time.slew != 0))
  | .TIME_STAT_MSEEN => some (b2n (d.time.master.isSome || d.time.server.isSome))
  | .TIME_STAT_REFLOST => some (b2n d.time.refLost)
  | .LNK_SD_STAT_HEARD => some d.heardBits
  | .DRC_CFG_INTLV => some (d.rg .DRC_CFG_INTLV 0)
  | .DRC_REF_DEBT_NS => some (d.debtNs u)
  | .HOST_LOG_STAT_COUNT => some d.log.length
  | .HOST_LOG_HEAD_ENTRY => some ((d.log.head?.map (·.bits)).getD 0)
  | _ => none

/-- Fields of the command port that still read while a command runs (R485). -/
def cmdSeen : List Field := [.CMD_STAT_BUSY, .CMD_STAT_OP, .CMD_STAT_CODE, .CMD_IGNCNT_COUNT]

/-- What a read of a field returns (R9, R10). -/
def Dev.readKey (d : Dev) (k : RegKey) : Nat :=
  let i := k.f.info
  if i.acc = .wo ∨ otherHalf k then 0
  else if i.blk = .cmd ∧ d.on .CMD_STAT_BUSY 0 ∧ !cmdSeen.contains k.f then 0
  else ((d.shown k).getD (d.key k)) % 2 ^ i.width

/-- Place a field's value at bit address `p` into an access that begins at byte `a`. -/
def placeBits (a p v : Nat) : Nat := if 8 * a ≤ p then v * 2 ^ (p - 8 * a) else v / 2 ^ (8 * a - p)

/-- The value of `n` bytes of registers from `a` on. -/
def Dev.regRead (d : Dev) (a n : Nat) : Nat := ((hits a n).map (fun h => placeBits a h.2 (d.readKey h.1))).sum % 2 ^ (8 * n)

/-- A counter that a running measurement feeds starts anew as a read clears it. -/
def Dev.readSettle (d : Dev) (k : RegKey) : Dev :=
  match k.f with
  | .PIN_INVALID_CNT_COUNT => (d.pairsTo k.u d.tick).invSettle k.u d.tick false
  | .ENG_BOB_STALL_COUNT => d.modEng k.u (fun x => { x with missFrom := x.missFrom + d.holdNow k.u * cyc })
  | _ => d

/-- A read clears RC fields (R9). -/
def Dev.regClear (d : Dev) (a n : Nat) : Dev :=
  (hits a n).foldl (fun d h => if h.1.f.info.acc = .rc ∧ (d.rg .CMD_STAT_BUSY 0 = 0 ∨ h.1.f.info.blk ≠ .cmd ∨ cmdSeen.contains h.1.f)
    then (d.readSettle h.1).setKey h.1 0 else d) d

/-- A read of TIME_NOW_NS latches the rest (R310). -/
def Dev.regLatch (d : Dev) (a n : Nat) : Dev := if (hits a n).any (fun h => h.1.f == .TIME_NOW_NS_NS) then d.timeNowRead else d

/-! ## Windows -/

/-- Word `w` of the MSI-X table; every vector's mask bit resets to 1. -/
def Dev.msixWord (d : Dev) (w : Nat) : Nat := (d.msix.get? w).getD (if w % 4 = 3 then 1 else 0)

/-- Bytes of the fail buffer of engine `e` from BAR0 byte `a` on, one code word at a time; a place whose record has been
spilled reads 0 (R26, R154, log 13). -/
def Dev.failBytes (d : Dev) (cons e a n : Nat) : List Nat × Bool × Dev :=
  let w := a / 16 * 16
  let m := (List.range (if n = 0 then 0 else (a + n - 1) / 16 - a / 16 + 1)).foldl (fun m j =>
    let k := (w + 16 * j - fbAddr e 0) / 16
    memWrite m (w + 16 * j) (leBytes 16 ((((d.eng e).recs.find? (·.1 == k)).map (·.2)).getD 0))) []
  d.readBytes m cons a n

/-- A read of `n` bytes of a memory: bytes, whether they are poisoned, and the state after it. -/
def State.winRead (s : State) (via : Via) (w : Win) (a n : Nat) : List Nat × Bool × State :=
  let through := fun (x : Nat) =>
    let r := s.dev.readBytes s.mem via.cons x n
    (r.1, r.2.1, { s with dev := r.2.2 })
  match w with
  | .msixTable => (((List.range (n / 4)).flatMap (fun j => leBytes 4 (s.dev.msixWord ((a - 0x2000) / 4 + j)))), false, s)
  | .pba => (leBytes n ((s.dev.pba.map (2 ^ ·)).sum / 2 ^ (8 * (a - 0x3000))), false, s)
  | .snap => (memRead s.mem (if via = .smb then smbSnap + (a - 0x4000) else a) n, false, s)
  | .cmdBuf => if s.dev.on .CMD_STAT_BUSY 0 then (List.replicate n 0, false, s) else through a
  | .acqRec => through (acqMem (s.dev.rg .ACQ_WINSEL_UNIT 0) + (a - 0xE00000))
  | .fail e =>
    let r := s.dev.failBytes via.cons e a n
    (r.1, r.2.1, { s with dev := if r.2.1 then r.2.2.st .ENG_RES_STAT_LOGINC e 1 else r.2.2 })
  | _ => through a

/-- Whether something answers at `a`, and its power domain. -/
def accessDom (a n : Nat) : Option Nat :=
  match winOf a with
  | some w => some w.dom
  | none => ((hits a n).head?).map (fun h => keyDom h.1)

/-- BADACC: HOST_STAT lies in HOST (R473, R494). -/
def Dev.badAcc (d : Dev) : Dev := if d.domOn domHost then d.st .HOST_STAT_BADACC 0 1 else d

/-- A BAR0 read of `n` bytes at `a`: bytes, whether they are poisoned, and the state after it. -/
def State.bar0Read (s : State) (via : Via) (a n : Nat) : List Nat × Bool × State :=
  let s := s.playedAt a
  let zero := List.replicate n 0
  if !sizeOk a n then (zero, false, s.onDev (·.badAcc))
  else match accessDom a n with
  | none => (zero, false, s)
  | some k =>
    if !s.dev.domOn k then (zero, false, s.onDev (·.bump .PWR_ACCREJ_COUNT 0 1))
    else match winOf a with
    | some w => s.winRead via w a n
    | none => (leBytes n (s.dev.regRead a n), false, s.onDev (fun d => (d.regLatch a n).regClear a n))

/-- READ_CLEAR: a host read of `n` bytes at BAR0 address `a` and its completion. -/
def execReadClear (a : BitVec 26) (n : BitVec 10) (s : State) : Answer :=
  let r := s.bar0Read .pcie a.toNat n.toNat
  .next (r.2.2.onDev (·.emit (.host r.1 r.2.1)))

end Sys2Proof.Machine
end

