-- ==== Sys2Proof/Machine/RegWrite.lean ====
section
/-!
DEFINITION. Writes of BAR0 registers: how each access type takes a write, which writes a unit ignores, and what a write
sets off (R9 to R13, R408, R485, and the register tables of each chapter).
-/

namespace Sys2Proof.Machine

/-- What a write gives one field: the value its bits make, merged where the write covers a part of it. -/
structure FieldWr where
  key : RegKey
  val : Nat
  deriving DecidableEq, Repr

/-- What a partial write is merged into. -/
def Dev.under (d : Dev) (k : RegKey) : Nat :=
  match k.f.info.acc with
  | .w1c => 0
  | .wo => if k.f = .SEC_DBG_RESP_SIG then d.key k else 0
  | .rwb => d.bast k
  | _ => d.key k

/-- The fields that `n` bytes of `v` at BAR0 byte `a` write. -/
def Dev.wrs (d : Dev) (a n v : Nat) : List FieldWr :=
  (hits a n).map (fun h =>
    let p := h.2
    let lo := max p (8 * a)
    let hi := min (p + h.1.f.info.width) (8 * (a + n))
    ⟨h.1, setBits (d.under h.1) (lo - p) (hi - lo) (bitsOf v (lo - 8 * a) (hi - lo))⟩)

/-! ## Writes that a unit ignores -/

/-- The registers of R164 and the APG settings: a host write is accepted in IDLE only (R165, R213). -/
def idleFields : List Field :=
  [.ENG_G, .ENG_L, .ENG_XA, .ENG_YA, .ENG_DG, .ENG_VP, .ENG_TS, .ENG_TAG, .ENG_PROG, .ENG_PC_ADDR,
   .ENG_PC_BANK, .ENG_FLAGS_FAIL, .ENG_FLAGS_MATCH, .ENG_FLAGS_ZERO, .ENG_FLAGS_CARRY, .ENG_FLAGS_EVENT, .ENG_FLAGS_TFAIL,
   .ENG_FLAGS_TMATCH, .ENG_EPC, .ENG_ESTAT_IE, .ENG_ESTAT_RESUME, .ENG_ESTAT_INHANDLER, .ENG_ESTAT_SZERO,
   .ENG_ESTAT_SCARRY, .ENG_ESTAT_EVNUM, .ENG_APG_CTRL_TROWS_M1,
   .ENG_APG_XMAX_XMAX, .ENG_APG_YMAX_YMAX, .ENG_APG_XSCR_XSCR, .ENG_APG_YSCR_YSCR, .ENG_APG_XDMASK_XDMASK,
   .ENG_APG_YDMASK_YDMASK, .ENG_APG_SEL_SEL]

def hemFields : List Field := [.ENG_HEM0_HEM, .ENG_HEM1_HEM, .ENG_HEM2_HEM, .ENG_HEM3_HEM]
def flogCtrl : List Field := [.ENG_FLOG_CTRL_EN, .ENG_FLOG_CTRL_CAPLOG, .ENG_FLOG_CTRL_SPILL]
def flogRing : List Field := [.ENG_FLOG_BASE_LINE, .ENG_FLOG_SIZE_LINES]
def acqMode : List Field := [.ACQ_CTRL_CONT, .ACQ_CTRL_EXT, .ACQ_CTRL_RING, .ACQ_CTRL_COUNT]

/-- Settings of an acquisition unit that are open in IDLE only (R260, R276). -/
def acqFixed : List Field :=
  [.ACQ_SRC_TYPE, .ACQ_SRC_DDC, .ACQ_SRC_SWIDTH, .ACQ_SRC_ENGINE, .ACQ_SRC_GROUP, .ACQ_SRC_CHAN, .ACQ_GRANT_ENGINE,
   .ACQ_GRANT_EN, .ACQ_PRE_SAMPLES, .ACQ_POST_SAMPLES, .ACQ_HOLD_MODE, .ACQ_HOLD_VALUE, .ACQ_TOUT_ENGINE,
   .ACQ_TOUT_TOENG, .ACQ_TOUT_STCH, .ACQ_TOUT_TOSEAM, .ACQ_RBASE_LINE, .ACQ_RSIZE_LINES, .ACQ_COND_CTRL_EN,
   .ACQ_COND_CTRL_TYPE, .ACQ_COND_CTRL_ARMBY, .ACQ_COND_CTRL_ARMBY_EN, .ACQ_COND_CTRL_P0, .ACQ_COND_P1, .ACQ_COND_P2]

def lnkFixed : List Field :=
  [.LNK_CFG_LCODE, .LNK_CFG_LBASE, .LNK_CFG_MM1, .LNK_CFG_SCODE, .LNK_CFG_NM1, .LNK_CFG_EM1, .LNK_CFG_SRONE]
def ddcFixed : List Field :=
  [.DDC_CTRL_COMPLEX, .DDC_CTRL_PHSYNC, .DDC_CTRL_LINK, .DDC_CTRL_CONV, .DDC_CTRL_CICM1, .DDC_CTRL_HB, .DDC_CTRL_RSEN,
   .DDC_CTRL_GENG, .DDC_CTRL_GEN]
def awgFixed : List Field := [.AWG_RATE_HB, .AWG_RATE_RSEN, .AWG_STEP_STEP, .AWG_OUT_LINK, .AWG_OUT_CONV]
def awgMode : List Field := [.AWG_CTRL_COMPLEX, .AWG_CTRL_GENG, .AWG_CTRL_GEN]
def drcCfg : List Field := [.DRC_CFG_POP, .DRC_CFG_RANKS, .DRC_CFG_DENS, .DRC_CFG_INTLV, .DRC_CFG_FSPBOTH]
def ftSet : List Field := [.FT_CTRL_EN, .FT_CTRL_SRC_CH, .FT_CTRL_SRC_CMP, .FT_CTRL_SRC_EDGE, .FT_CTRL_BW, .FT_NOM_NOM_KHZ]

/-- The value a write gives field `f` of the register of `w`, or the stored one. -/
def Dev.newOf (d : Dev) (ws : List FieldWr) (f : Field) (u : Nat) : Nat :=
  ((ws.find? (fun w => w.key == ⟨f, u, 0⟩)).map (·.val)).getD (d.rg f u)

/-- Whether a unit ignores the write of a field: `none` where it is taken, else the flag that tells of it, if any. Fields
that share a register with a command of their unit count as written when the write would change them (log 31). -/
def Dev.ignores (d : Dev) (ws : List FieldWr) (w : FieldWr) : Option (Option Field) :=
  let f := w.key.f
  let u := w.key.u
  let chg := w.val != d.key w.key
  let when_ := fun (b : Bool) (g : Field) => if b then some (some g) else none
  match f.info.blk with
  | .eng =>
    if idleFields.contains f then when_ (d.estate u != 0) .ENG_STAT_WREJ
    else if hemFields.contains f then when_ (d.streamBusy u) .ENG_BOB_STAT_WREJ
    else if f = .ENG_FLOG_LIMIT_LIMIT then when_ (d.runs u) .ENG_FLOG_STAT_WREJ
    else if flogRing.contains f then when_ (d.runs u || (d.eng u).fbOld != 0) .ENG_FLOG_STAT_WREJ
    else if flogCtrl.contains f then
      when_ (d.runs u || ((d.eng u).fbOld != 0 && d.on .ENG_FLOG_CTRL_SPILL u && d.newOf ws .ENG_FLOG_CTRL_SPILL u == 0))
        .ENG_FLOG_STAT_WREJ
    else none
  | .ft => when_ (ftSet.contains f && d.ftInUse u) .FT_STAT_BUSYREJ
  | .acq =>
    when_ (d.rg .ACQ_STAT_STATE u != 0 && (acqFixed.contains f || (acqMode.contains f && chg))) .ACQ_STAT_WREJ
  | .link =>
    when_ (d.on .LNK_CFG_EN u && (f == .LNK_TCONV_TC || f == .LNK_RBD_RBD || (lnkFixed.contains f && chg))) .LNK_STAT_WREJ
  | .ddc => when_ (d.on .DDC_CTRL_EN u && (f == .DDC_STEP_STEP || (ddcFixed.contains f && chg))) .DDC_STAT_WREJ
  | .awg =>
    when_ (d.awgState u != 0 && (awgFixed.contains f || (awgMode.contains f && chg))) .AWG_STAT_WREJ
  | .sewg =>
    when_ (d.sewBusy u && [Field.SEW_TGT_NS, .SEW_CFG_GEN, .SEW_CFG_SEAMSYNC, .SEW_CFG_TAG, .SEW_CFG_PART].contains f)
      .SEW_STATUS_WREJ
  | .sd =>
    when_ ((f == .LNK_SD_CFG_DOMAIN || f == .LNK_SD_CFG_POS) && (List.range 4).any (fun p => d.on .LNK_SP_CTRL_EN p))
      .LNK_SD_STAT_WREJ
  | .lane =>
    if f.info.acc ≠ .rw then none
    else if u < 8 then some (some .LNK_LSTAT_WREJ)
    else if otherHalf w.key then some none
    else when_ (rxEq.contains f && d.on .LNK_LCTRL_ADAPT u) .LNK_LSTAT_WREJ
  | .drc =>
    if drcCfg.contains f then
      if f = .DRC_CFG_INTLV ∧ u = 1 then some none
      else when_ (!([0, 1, 6].contains (d.rg .DRC_STAT_STATE u))) .DRC_STAT_WREJ
    else when_ ((f == .DRC_WQ_HIWM || f == .DRC_WQ_LOWM)
      && decide (d.newOf ws .DRC_WQ_HIWM u ≤ d.newOf ws .DRC_WQ_LOWM u)) .DRC_STAT_WREJ
  | .pwr => when_ (f == .PWR_INRUSH_BUDGET && decide (w.val < 60)) .PWR_REQ_STAT_WREJ
  | .dma => when_ ((f == .DMA_RBASE_ADDR || f == .DMA_RSIZE_LOG) && d.on .DMA_STAT_RUN u) .DMA_STAT_WREJ
  | .cmd => if d.on .CMD_STAT_BUSY 0 && f != .CMD_DOORBELL_GO then some none else none
  | _ => none

/-! ## The stored value -/

/-- RW fields whose write is an operation of its own. -/
def ownFields : List Field :=
  [.ENG_STR_BASE_LINE, .ENG_STR_LEN_LEN, .ENG_STR_CTRL_FORM, .ENG_STR_CTRL_MODE, .ENG_STR_CTRL_QUADS,
   .ENG_STR_CTRL_PREFILL, .ENG_STR_CTRL_PANIC, .LNK_CFG_EN, .DDC_CTRL_EN, .DDC_FTW_FTW, .LNK_SP_CTRL_EN, .LNK_LTXEQ_PRE,
   .LNK_LTXEQ_POST, .CAL_PROFILE_SEL, .CAL_PROFILE_EN, .TIME_DEVNUM_NUM, .TIME_CTRL_SRC, .SEW_GMAP_ENG_MAP,
   .SEW_GMAP_QUAD_MAP, .SEW_GMAP_AWG_MAP, .SEW_GMAP_DEV_GROUP]

/-- A field takes its write by its access type (R9 to R13). -/
def Dev.take (d : Dev) (w : FieldWr) : Dev :=
  let old := d.key w.key
  match w.key.f.info.acc with
  | .rw => if ownFields.contains w.key.f then d else d.setKey w.key (if w.key.f = .ENG_EV_EN_EN then w.val ||| 0x80 else w.val)
  | .w1c => d.setKey w.key (old - (old &&& w.val))
  | .rwb => d.baste w.key w.val
  | .rwl => if d.lc ≤ 1 then d.setKey w.key w.val else d
  | .wo => if w.key.f = .SEC_DBG_RESP_SIG then d.setKey w.key w.val else d
  | _ => d

/-! ## SNAPSHOT (R483) -/

/-- The register blocks that a copy must stay within: one engine, one channel, or one block of R496. -/
def snapBlocks : List (Nat × Nat) :=
  [(0, 0x5000), (0x100000, 0x102000), (0x200000, 0x200300), (0x300000, 0x302100), (0x400000, 0x400A00),
   (0x500000, 0x501800), (0x600000, 0x602000), (0x680000, 0x682000), (0x800000, 0x809008), (0xA00000, 0xAC0000),
   (0xC00000, 0xE40000), (0x2910000, 0x2910800)]

def snapBlock (a : Nat) : Option (Nat × Nat) :=
  if 0x1000000 ≤ a ∧ a < 0x1800000 then some (a / 0x10000 * 0x10000, a / 0x10000 * 0x10000 + 0x8000)
  else if 0x2000000 ≤ a ∧ a < 0x2800000 then some (a / 0x4000 * 0x4000, a / 0x4000 * 0x4000 + 0x4000)
  else snapBlocks.find? (fun r => decide (r.1 ≤ a) && decide (a < r.2))

/-- Whether a range is refused: not a multiple of 16, not within one block, or in a memory window. -/
def snapBad (a n : Nat) : Bool :=
  a % 16 != 0
    || !((snapBlock a).any (fun r => decide (a + n ≤ r.2)))
    || (List.range (n / 16)).any (fun j => (winOf (a + 16 * j)).any (·.anySize))

/-- Eight bytes as they stand, without the side of a read. -/
def State.peek (s : State) (via : Via) (a : Nat) : Nat :=
  match accessDom a 8 with
  | none => 0
  | some k =>
    if !s.dev.domOn k then 0
    else match winOf a with
    | some w => leNat (s.winRead via w a 8).1
    | none => s.dev.regRead a 8

/-- GO = 1: the copy goes to the buffer of the path that wrote it; with RCCLR the RC fields of the range clear in the
same cycle. -/
def State.snapshot (s : State) (via : Via) (a len16 : Nat) (rcclr : Bool) : State :=
  let n := 16 * (if len16 = 0 then 256 else len16)
  if snapBad a n then s.onDev (·.st .HOST_SNAP_CTRL_REFUSED 0 1)
  else
    let words := (List.range (n / 8)).map (fun j => s.peek via (a + 8 * j))
    let buf := if via = .smb then smbSnap else 0x4000
    let s := { s with mem := memWrite s.mem buf (words.flatMap (leBytes 8) ++ List.replicate (4096 - n) 0) }
    if rcclr then s.onDev (fun d => (List.range (n / 8)).foldl (fun d j =>
      if (accessDom (a + 8 * j) 8).all d.domOn then d.regClear (a + 8 * j) 8 else d) d) else s

/-! ## What a write sets off -/

/-- PRE and POST are clamped to their ranges (R340). -/
def Dev.txEq (d : Dev) (n : Nat) (f : Field) (v : Nat) : Dev :=
  let top := if f = .LNK_LTXEQ_PRE then 12 else 20
  let d := if top < v then (d.st f n top).st .LNK_LSTAT_WREJ n 1 else d.st f n v
  d.st .LNK_LTXEQ_MAIN n (64 - d.rg .LNK_LTXEQ_PRE n - d.rg .LNK_LTXEQ_POST n)

/-- The map word of a SEW_GMAP field. -/
def gmapWord (k : RegKey) : Nat :=
  match k.f with
  | .SEW_GMAP_ENG_MAP => k.i
  | .SEW_GMAP_QUAD_MAP => 16 + k.i
  | .SEW_GMAP_AWG_MAP => 32
  | _ => 33

/-- POP: the oldest tack record that was held before this cycle goes (R227). -/
def Dev.tackPop (d : Dev) (e : Nat) : Dev :=
  d.modEng e (fun x => { x with tacks := match x.tacks with
    | (_, t) :: l => if t < cycleOf d.tick then l else x.tacks
    | [] => [] })

/-- The oldest log entry goes. -/
def Dev.logPop (d : Dev) : Dev := { d with log := d.log.drop 1 }

/-- RESET of a DMA channel (R480): HALTED clears, HEAD is TAIL, a descriptor in progress ends. -/
def Dev.dmaReset (d : Dev) (c : Nat) : Dev :=
  { (((d.st .DMA_STAT_HALTED c 0).st .DMA_STAT_RUN c 0).st .DMA_HEAD_INDEX c (d.rg .DMA_TAIL_INDEX c)) with dmas := d.dmas.del c }

/-- What a write of field `w.key` sets off once every field of the access holds its value; `d0` is the state before. -/
def State.effect (s : State) (via : Via) (d0 : Dev) (ws : List FieldWr) (w : FieldWr) : State :=
  let u := w.key.u
  let v := w.val
  let one := fun (g : Dev → Dev) => if v = 1 then s.onDev g else s
  let diff := v != d0.key w.key
  match w.key.f with
  | .FEB_CTRL_FLUSH => one (·.febFlush u)
  | .FEB_HCMD_FRAME => s.onDev (·.febHcmd u v)
  | .ENG_CTRL_START => one (·.startOrder u)
  | .ENG_CTRL_HALT => one (·.halt u)
  | .ENG_CTRL_RESET => one (fun d => d.engReset u (d.newOf ws .ENG_CTRL_KEY u))
  | .ENG_EV_SET_HOST => one (·.raise u 0)
  | .ENG_TACK_POP_POP => one (·.tackPop u)
  | .ENG_MC_CTRL_CLRLIST => one (·.listClear u)
  | .PIN_EM_CTRL_CLR => one (·.emClear u)
  | .ENG_FLOG_BASE_LINE => s.onDev (fun d => (d.st .ENG_FLOG_WPTR_LINE u 0).st .ENG_FLOG_RPTR_LINE u 0)
  | .ENG_FLOG_SIZE_LINES => s.onDev (fun d => (d.st .ENG_FLOG_WPTR_LINE u 0).st .ENG_FLOG_RPTR_LINE u 0)
  | .FT_CTRL_EN => s.onDev (·.ftWrite u diff)
  | .FT_CTRL_SRC_CH => s.onDev (·.ftWrite u diff)
  | .FT_CTRL_SRC_CMP => s.onDev (·.ftWrite u diff)
  | .FT_CTRL_SRC_EDGE => s.onDev (·.ftWrite u diff)
  | .FT_CTRL_BW => s.onDev (·.ftWrite u diff)
  | .FT_NOM_NOM_KHZ => s.onDev (·.ftWrite u diff)
  | .ACQ_CTRL_ARM => one (·.acqArm u none)
  | .ACQ_CTRL_DISARM => if v = 1 then s.acqDisarm u else s
  | .ACQ_CTRL_FORCE => one (·.acqForce u)
  | .ACQ_CTRL_RELEASE => one (·.st .ACQ_STAT_HELD u 0)
  | .LNK_CFG_EN => if diff then s.onDev (fun d => if v = 1 then d.linkEnable u else d.linkDisable u) else s
  | .DDC_CTRL_EN => if diff then s.onDev (fun d => if v = 1 then d.ddcEnable u else d.st .DDC_CTRL_EN u 0) else s
  | .DDC_FTW_FTW => s.onDev (fun d => d.ddcHost u v)
  | .AWG_CTRL_START => one (fun d => d.awgStart s.mem u (d.rg .AWG_CTRL_ENTRY u) d.tick)
  | .AWG_CTRL_STOP => one (fun d => d.awgRequest u .stop d.tick)
  | .AWG_CTRL_PRIME => if v = 1 then s.awgPrime u (s.dev.rg .AWG_CTRL_ENTRY u) else s
  | .AWG_CTRL_FLUSH => one (·.awgFlush u)
  | .AWG_CTRL_JUMP => one (fun d => d.awgRequest u (.jump (d.rg .AWG_CTRL_ENTRY u) (d.on .AWG_CTRL_JMODE u)) d.tick)
  | .TIME_CTRL_SRC => s.onDev (fun d => d.timeStep (·.srcSelect v))
  | .TIME_DEVNUM_NUM => s.onDev (·.devnumWrite v)
  | .SEW_CMD_ARM => one (·.sewArm u)
  | .SEW_CMD_CANCEL => one (·.sewCancel u)
  | .SEW_CMD_VETO => one (fun d => d.sewSend (d.rg .SEW_CFG_TAG u) true)
  | .SEW_GMAP_ENG_MAP => s.onDev (·.gmapWrite (gmapWord w.key) v)
  | .SEW_GMAP_QUAD_MAP => s.onDev (·.gmapWrite (gmapWord w.key) v)
  | .SEW_GMAP_AWG_MAP => s.onDev (·.gmapWrite (gmapWord w.key) v)
  | .SEW_GMAP_DEV_GROUP => s.onDev (·.gmapWrite (gmapWord w.key) v)
  | .LNK_LCTRL_SLIP => one (·.slipWrite u)
  | .LNK_LCTRL_LOOP => if diff then s.onDev (·.laneChanged u) else s
  | .LNK_LTXEQ_PRE => s.onDev (·.txEq u .LNK_LTXEQ_PRE v)
  | .LNK_LTXEQ_POST => s.onDev (·.txEq u .LNK_LTXEQ_POST v)
  | .LNK_SP_CTRL_EN => s.onDev (·.portEnable u (v == 1))
  | .DRC_CFG_POP => s.onDev (·.drcConfig u)
  | .DRC_FSP_REQ => one (fun d => d.fspReq u (d.rg .DRC_FSP_TARGET u) (d.on .DRC_FSP_FORCE u))
  | .PWR_REQ_CTRL_GO => one (fun d => d.pwrGo (d.on .PWR_REQ_CTRL_TARGET 0) (via == .smb))
  | .PWR_WAKE_MASK => s.onDev (·.wakeMask v)
  | .HOST_RST_UNLOCK_KEY => s.onDev (·.rstUnlock v)
  | .HOST_RST_GO_KEY => s.rstGo v (via == .smb)
  | .HOST_SNAP_CTRL_GO =>
    if v = 1 then s.snapshot via (s.dev.rg .HOST_SNAP_CTRL_OFFSET 0) (s.dev.rg .HOST_SNAP_CTRL_LEN16 0) (s.dev.on .HOST_SNAP_CTRL_RCCLR 0)
    else s
  | .HOST_LOG_POP_POP => one (·.logPop)
  | .CAL_PROFILE_SEL => s.profSelect v (d0.newOf ws .CAL_PROFILE_EN 0 == 1)
  | .SEC_UNS_CTRL_GO => one (fun d => d.unsGo (d.rg .SEC_UNS_CTRL_REGION 0))
  | .SEC_REG_CTRL_REL => one (·.regFree w.key.i)
  | .SEC_ATT_CTRL_GO => one (·.attGo)
  | .SEC_DBG_CTRL_TRY => if v = 1 then s.dbgTry (s.dev.rg .SEC_DBG_CTRL_CLASS 0) else s
  | .SEC_DBG_CTRL_CLOSE => one (·.st .SEC_STAT_DBG 0 0)
  | .CTR_TD_TOUCH => one (·.ctrTouch)
  | .CTR_CTRL_VERIFY => one (·.ctrOrder)
  | .DMA_CTRL_RESET => one (·.dmaReset u)
  | .CMD_DOORBELL_GO => if v = 1 then s.doorbell [] else s
  | _ => s

/-! ## A write of registers -/

/-- The offsets of ENG_STR_BASE, ENG_STR_LEN and ENG_STR_CTRL (R120). -/
def isStream (a : Nat) : Bool := 0x1000000 ≤ a && a < 0x1800000 && 0x200 ≤ a % 0x10000 && a % 0x10000 < 0x214

/-- Registers named HOST_ whose write breaks the reset sequence (R408). -/
def breaksReset (ws : List FieldWr) : Bool :=
  ws.any (fun w => w.key.f.info.blk == .host && decide (w.key.f.info.off < 0x800)
    && w.key.f != .HOST_RST_UNLOCK_KEY && w.key.f != .HOST_RST_GO_KEY)

/-- `n` bytes of `v` are written to registers at BAR0 byte `a`, all fields as of one cycle (R473): those that their unit
ignores set its flag, the others take their value, and then each has its effect, lowest first. -/
def State.regWrite (s : State) (via : Via) (a n v : Nat) : State :=
  let d0 := s.dev
  let ws := d0.wrs a n v
  let s := if breaksReset ws then s.onDev (·.hostTouched) else s
  let s := if isStream a then s.onDev (·.streamWrite ((a - 0x1000000) / 0x10000) (a % 0x10000) n v) else s
  let ok := ws.filter (fun w => (d0.ignores ws w).isNone)
  let s := ws.foldl (fun s w =>
    match d0.ignores ws w with
    | some (some f) => s.onDev (·.st f w.key.u 1)
    | _ => s) s
  let s := ok.foldl (fun s w => s.onDev (·.take w)) s
  ok.foldl (fun s w => s.effect via d0 ws w) s

end Sys2Proof.Machine
end

