-- ==== Sys2Proof/Machine/Host.lean ====
section
/-!
DEFINITION. The host's accesses: BAR0 with its memory windows, BAR2, MSI-X, the SMBus target, and the word errors and
scrub of the coded memories (R23, R24, R32, R123, R171, R298, R446, R473 to R477, R483, R484, R489, R490).
-/

namespace Sys2Proof.Machine

/-! ## MSI-X (R477) -/

/-- Messages that wait and are open now go out, lowest vector first. -/
def Dev.msixSettle (d : Dev) : Dev :=
  let l := (List.range 256).filter (fun v => d.pba.contains v && d.msixOpen v)
  l.foldl (fun d v => d.emit (.msix v)) { d with pba := d.pba.filter (fun v => !l.contains v) }

/-- A write of a word of the table; of the vector control word only the mask bit is kept. -/
def Dev.msixWrite (d : Dev) (w v : Nat) : Dev := { d with msix := d.msix.put w (if w % 4 = 3 then v % 2 else v % 2 ^ 32) }.msixSettle

/-- MSI_X_UNMASK: a vector's mask bit, or the enable and the function mask of the capability. -/
def Dev.msixOp (d : Dev) : MsixOp → Dev
  | .vector v mask => d.msixWrite (4 * v + 3) (b2n mask)
  | .function en mask => { d with msixEn := en, msixFn := mask }.msixSettle

/-! ## Writes to memories -/

/-- Bytes for the sequence table, entry by entry. -/
def State.seqWrite (s : State) (g a : Nat) (l : List Nat) (h : Wr) : Nat → State
  | 0 => s
  | n + 1 =>
    if l.isEmpty then s
    else
      let o := a % 16
      let k := 16 - o
      State.seqWrite (s.awgSeqWrite g (a / 16 % 4096) o (l.take k) h) g (a + k) (l.drop k) h n

/-- Bytes for the edge table from address `a` on, the reserved bits [127:125] of each entry cleared (R76, R13). -/
def edgeBytes (a : Nat) (l : List Nat) : List Nat :=
  l.zipIdx.map (fun p => if (a + p.2) % 16 = 15 then p.1 % 32 else p.1)

/-- A write of bytes to a memory, by the memory's own rules. -/
def State.winWrite (s : State) (via : Via) (w : Win) (a : Nat) (l : List Nat) (h : Wr) : State :=
  match w with
  | .msixTable =>
    s.onDev (fun d => (List.range (l.length / 4)).foldl (fun d j =>
      d.msixWrite ((a - 0x2000) / 4 + j) (leNat ((l.drop (4 * j)).take 4))) d)
  | .pba => s
  | .snap => s
  | .acqRec => s
  | .fail _ => s
  | .cmdBuf => if s.dev.on .CMD_STAT_BUSY 0 then s else s.writeBytes via.cons a l h
  | .seq g => s.seqWrite g a l h (l.length / 16 + 2)
  | .bob e => s.windowWrite e (a % 65536) l h
  | .prog c b => if s.dev.bankUsers c b = 0 then s.writeBytes via.cons a l h else s.onDev (·.bump .PM_STAT_WREJ c 1)
  | .edge _ => s.writeBytes via.cons a (edgeBytes a l) h
  | .per _ => s.writeBytes via.cons a l h

/-- A BAR0 write (R473, R474): memory data that arrive poisoned stay so. -/
def State.bar0Write (s : State) (via : Via) (a : Nat) (l : List Nat) (h : Wr) : State :=
  let n := l.length
  let s := s.playedAt a
  if !sizeOk a n then s.onDev (·.badAcc)
  else match accessDom a n with
  | none => s
  | some k =>
    if !s.dev.domOn k then
      match (hits a n).find? (fun h => h.1.f == .FEB_HCMD_FRAME) with
      | some k => s.onDev (·.febHcmd k.1.u (leNat l))
      | none => s.onDev (·.bump .PWR_ACCREJ_COUNT 0 1)
    else match winOf a with
    | some w => s.winWrite via w a l h
    | none => s.regWrite via a n (leNat l)

/-! ## BAR2 (R475) -/

/-- Whether the port of a line is in a domain that is not on, while a DRAM key is present: the window acts under R391
(log 66). -/
def Dev.bar2Off (d : Dev) (line : Nat) : Bool :=
  d.on .HOST_READY_THIMBLE 0 && (d.lineAt line).any (fun p => !d.domOn (domDr p.1))

/-- One line's part of a read: bytes and whether they are poisoned. -/
def State.bar2Part (s : State) (x n : Nat) : List Nat × Bool × State :=
  if s.dev.bar2Off (x / 256) then (List.replicate n 0, false, s.onDev (·.bump .PWR_ACCREJ_COUNT 0 1))
  else if s.dev.sealed (x / 256) then (List.replicate n 0, true, s.onDev (·.bump .SEC_GUARDCNT_COUNT 0 1))
  else if s.dev.dramPath (x / 256) = .faults then (List.replicate n 0, true, s.onDev (·.reportUninstalled 0x08 x))
  else
    let r := s.dev.portRead s.mem 0x08 x n
    (r.1, r.2.1, { s with dev := r.2.2 })

/-- The parts of an access of `n` bytes at `x`, each within a line. -/
def lineParts (x n : Nat) : Nat → List (Nat × Nat)
  | 0 => []
  | f + 1 => if n = 0 then [] else
    let k := min n (256 - x % 256)
    (x, k) :: lineParts (x + k) (n - k) f

/-- DRAM byte address of a BAR2 offset. -/
def Dev.bar2 (d : Dev) (off : Nat) : Nat := d.rg .HOST_BAR2_BASE_BASE 0 * 2 ^ 21 + off

/-- BAR2_READ; while a port makes one of its lines wait, the read has not completed. -/
def State.bar2Read (s : State) (off n : Nat) : State :=
  let parts := lineParts (s.dev.bar2 off) n (n / 256 + 2)
  if parts.any (fun p => s.dev.dramPath (p.1 / 256) == .waits && !s.dev.bar2Off (p.1 / 256)) then s
  else
    let r := parts.foldl (fun (a : List Nat × Bool × State) p =>
      let q := a.2.2.bar2Part p.1 p.2
      (a.1 ++ q.1, a.2.1 || q.2.1, q.2.2)) ([], false, s)
    r.2.2.onDev (·.emit (.host r.1 r.2.1))

/-- One line's part of a write. -/
def State.bar2Put (s : State) (x : Nat) (l : List Nat) (h : Wr) : State :=
  if s.dev.bar2Off (x / 256) then s.onDev (·.bump .PWR_ACCREJ_COUNT 0 1)
  else if s.dev.sealed (x / 256) then s.onDev (·.bump .SEC_GUARDCNT_COUNT 0 1)
  else if (s.dev.lineAt (x / 256)).isNone then s.onDev (·.st .HOST_STAT_BAR2RANGE 0 1)
  else s.dramWrite 0x08 x l h

/-- BAR2_WRITE; it waits at its source as a whole. -/
def State.bar2Write (s : State) (off : Nat) (l : List Nat) (h : Wr) : State :=
  let x := s.dev.bar2 off
  let parts := lineParts x l.length (l.length / 256 + 2)
  if parts.any (fun p => s.dev.writePath (p.1 / 256) == .waits && !s.dev.bar2Off (p.1 / 256)) then s
  else parts.foldl (fun s p => s.bar2Put p.1 ((l.drop (p.1 - x)).take p.2) h) s

/-! ## Coded memories (R23, R32) -/

/-- First byte, number of words, and power domain of a coded memory. -/
def codedMem : CodedMem → Nat × Nat × Option Nat
  | .prog c => (progMem c 0 0, 65536, some (domK c))
  | .bobbin e => (bobMem e, 4096, some (domK (e / 16)))
  | .queue e => (eqMem e, 512, some (domK (e / 16)))
  | .edge ch => (edgeMem ch 0, 64, some (domPd (ch / 32)))
  | .period e => (perMem e 0, 32, some (domK (e / 16)))
  | .failBuf e => (fbAddr e 0, 2048, some (domK (e / 16)))
  | .acqMem u => (Sys2Proof.Machine.acqMem u, 16384, some domDsp)
  | .awgBuf g => (awgMem g, 16384, some domDsp)
  | .awgSeq g => (seqMem g 0, 4096, some domDsp)
  | .dram => (dramBase, 2 ^ 34, none)

/-- The code word `w` of a coded memory, where its memory holds contents now. -/
def Dev.codedWord (d : Dev) (m : CodedMem) (w : Nat) : Option Nat :=
  let p := codedMem m
  let a := p.1 + w % p.2.1 * 16
  match p.2.2 with
  | some k => if d.domOn k then some a else none
  | none => if d.installed (a - dramBase) then some a else none

/-- Error patterns join those a word already has; equal bits cancel. Symbols stay in ascending order. -/
def mergeErrs (old new : List (Nat × Nat)) : List (Nat × Nat) :=
  let at_ := fun (l : List (Nat × Nat)) (k : Nat) => (l.filter (·.1 == k)).foldl (fun v p => v ^^^ p.2 % 16) 0
  (List.range 36).filterMap (fun k =>
    let v : Nat := at_ old k ^^^ at_ new k
    if v = 0 then none else some (k, v))

/-- STORED_WORD_ERROR: symbols of a stored word change; a poisoned word stays recognised as poisoned. -/
def Dev.wordError (d : Dev) (m : CodedMem) (w : Nat) (l : List (Nat × Nat)) : Dev :=
  match d.codedWord m w with
  | none => d
  | some a =>
    if d.poison.contains a then d
    else
      let e := mergeErrs ((d.errs.get? a).getD []) l
      { d with errs := if e.isEmpty then d.errs.del a else d.errs.put a e }

/-- Scrub of a word of an emission queue: the row whose bytes it holds part of is read and rewritten; a word of no row is
read and rewritten as it is (R32). -/
def State.scrubQueue (s : State) (e a : Nat) : State :=
  match (s.dev.eng e).queue.find? (fun r => r.slot e ≤ a && a < r.slot e + 32) with
  | none => s.rewriteWord 0x0A a
  | some r =>
    let q := s.dev.readWord (memWrite [] (r.slot e) r.bytes) 0x0A a
    match q.1 with
    | none => { s with dev := q.2 }
    | some v =>
      let r' := r.withBytes (memRead (memWrite (memWrite [] (r.slot e) r.bytes) a (leBytes 16 v)) (r.slot e) 32)
      { s with dev := (q.2.markWord a false).modEng e (fun x =>
          { x with queue := x.queue.map (fun y => if y.vcnt = r.vcnt then r' else y) }) }

/-- SRAM_SCRUB_VISIT: the word is read and rewritten; nothing is reported of a clean word. -/
def State.scrubVisit (s : State) (m : CodedMem) (w : Nat) : State :=
  match m, s.dev.codedWord m w with
  | .dram, _ => s
  | _, none => s
  | .failBuf e, some a =>
    if (s.dev.errs.get? a).isNone && !s.dev.poison.contains a then s
    else
      let k := (a - fbAddr e 0) / 16
      let v := (((s.dev.eng e).recs.find? (·.1 == k)).map (·.2)).getD 0
      let r := s.dev.readWord (memWrite [] a (leBytes 16 v)) 0x0A a
      match r.1 with
      | some n => { s with dev := (r.2.markWord a false).modEng e (fun x =>
          { x with recs := x.recs.map (fun p => if p.1 = k then (k, n) else p) }) }
      | none => { s with dev := r.2 }
  | .queue e, some a => s.scrubQueue e a
  | _, some a => s.rewriteWord 0x0A a

/-! ## The SMBus target (R489, R490) -/

/-- The event log's oldest entry, removed as by POP; zeros when the log is empty. -/
def Dev.smbLog (d : Dev) : Dev := d.logPop.emit (.smb (some (leBytes 32 ((d.log.head?.map (·.bits)).getD 0))))

/-- REG_READ. -/
def State.smbRead (s : State) (a n : Nat) : State :=
  let r := s.bar0Read .smb a n
  r.2.2.onDev (·.emit (.smb (some r.1)))

/-! ## The commands -/

/-- REGISTER_WRITE: the host writes bytes at a BAR0 address; `ep` marks a TLP that carries data poisoning, `dup` a
disagreement of the two copies that encode a word merged by the write (R24). -/
def execRegisterWrite (addr : BitVec 26) (bytes : List Byte) (ep : Bool) (s : State) (dup : Bool := false) : Answer :=
  .next (s.bar0Write .pcie addr.toNat (nats bytes) { ep := ep, dup := dup })

/-- BASTED_WRITE: the same access, at a register with RWB fields; its other fields take the write by their own type. -/
def execBastedWrite (addr : BitVec 26) (bytes : List Byte) (s : State) : Answer :=
  .next (s.bar0Write .pcie addr.toNat (nats bytes) {})

/-- SRAM_SCRUB_VISIT. -/
def execSramScrubVisit (m : CodedMem) (word : BitVec 16) (s : State) : Answer :=
  .next ((s.playedAt (if m matches .awgBuf _ then 0xA20000 else 0)).scrubVisit m word.toNat)

/-- STORED_WORD_ERROR: wrong bits of each changed symbol. -/
def execStoredWordError (m : CodedMem) (word : BitVec 34) (errs : List (Fin 36 × BitVec 4)) (s : State) : Answer :=
  .next ((s.playedAt (if m matches .awgBuf _ then 0xA20000 else 0)).onDev
    (·.wordError m word.toNat (errs.map (fun e => (e.1.val, e.2.toNat)))))

/-- SNAPSHOT: the host, or the SMBus master, writes HOST_SNAP_CTRL with GO = 1. -/
def execSnapshot (off : BitVec 26) (len16 : Byte) (rcclr smb : Bool) (s : State) : Answer :=
  .next (s.bar0Write (if smb then .smb else .pcie) 0x300
    (leBytes 8 (off.toNat + len16.toNat * 2 ^ 26 + b2n rcclr * 2 ^ 34 + 2 ^ 35)) {})

/-- LOG_POP: the log lies in AON. -/
def execLogPop (s : State) : Answer := .next (s.onDev (fun d => d.hostTouched.logPop))

/-- BAR2_READ. -/
def execBar2Read (off : BitVec 32) (n : BitVec 13) (s : State) : Answer := .next (s.bar2Read off.toNat n.toNat)

/-- BAR2_WRITE. -/
def execBar2Write (off : BitVec 32) (bytes : List Byte) (ep : Bool) (s : State) (dup : Bool := false) : Answer :=
  .next (s.bar2Write off.toNat (nats bytes) { ep := ep, dup := dup })

/-- MSI_X_UNMASK: it needs HOST on. -/
def execMsiXUnmask (op : MsixOp) (s : State) : Answer :=
  .next (s.onDev (fun d => if d.domOn domHost then d.msixOp op else d.bump .PWR_ACCREJ_COUNT 0 1))

/-- An SMBus transaction for this device: its address match ends DOZE (R402). -/
def State.smbIn (s : State) : State := s.onDev (·.smbMatch (0x58 + Config.maddr % 8))

/-- SMB_REG_READ: 8 bytes with bit 31 of the offset set, else 4. -/
def execSmbRegRead (addr : BitVec 26) (eight : Bool) (s : State) : Answer :=
  .next (s.smbIn.smbRead addr.toNat (if eight then 8 else 4))

/-- SMB_REG_WRITE: 4 or 8 bytes; another block count is not acknowledged. -/
def execSmbRegWrite (addr : BitVec 26) (bytes : List Byte) (s : State) : Answer :=
  .next (if bytes.length = 4 ∨ bytes.length = 8 then (s.smbIn.bar0Write .smb addr.toNat (nats bytes) {})
    else s.smbIn.onDev (·.emit (.smb none)))

/-- SMB_TEL_READ. -/
def execSmbTelRead (half : Fin 2) (s : State) : Answer :=
  .next (s.smbIn.onDev (fun d => d.emit (.smb (some (leBytes 128 (d.rg .TEL_LAST_SAMPLE 0 / 2 ^ (1024 * half.val)))))))

/-- SMB_LOG_READ. -/
def execSmbLogRead (s : State) : Answer := .next (s.smbIn.onDev (·.smbLog))

/-- SMB_WAKE: as a write of PWR_WAKE. -/
def execSmbWake (mask : BitVec 32) (s : State) : Answer := .next (s.smbIn.onDev (·.wakeMask mask.toNat))

/-- SMB_STATUS: HOST_READY, HOST_MODE and TIME_STAT. -/
def execSmbStatus (s : State) : Answer :=
  .next (s.smbIn.onDev (fun d => d.emit (.smb (some
    (leBytes 8 (d.regRead 0x100 8) ++ leBytes 4 (d.regRead 0x120 4) ++ leBytes 4 (d.regRead 0x300014 4))))))

end Sys2Proof.Machine
end

