-- ==== Sys2Proof/Machine/DmaJtag.lean ====
section
/-!
DEFINITION. The DMA channels and the JTAG port (R479 to R482, R491 to R493).
-/

namespace Sys2Proof.Machine

/-! ## DMA (R479 to R481) -/

/-- Descriptors in a channel's ring. -/
def Dev.ringSize (d : Dev) (c : Nat) : Nat := 2 ^ (4 + min 12 (d.rg .DMA_RSIZE_LOG c))

/-- Whether every DMA write that the ports hold in their queues is complete (R481). -/
def Dev.dmaQuiet (d : Dev) : Bool :=
  (List.range 2).all (fun p => (d.drc p).writes.all (fun r => match r.src with | .dma _ => false | _ => true))

/-- The host address of the descriptor at HEAD. -/
def Dev.descAddr (d : Dev) (c : Nat) : Nat := d.rg .DMA_RBASE_ADDR c + 32 * d.rg .DMA_HEAD_INDEX c

/-- A descriptor ends with a code: STATUS is written to host memory, and the channel goes on or halts (R480). -/
def Dev.dmaEnd (d : Dev) (c code : Nat) (irq : Bool) : Dev :=
  let d := d.emit (.dma (d.descAddr c + 22) (leBytes 2 (1 + 2 * code)) false)
  let d := { d.st .DMA_STAT_RUN c 0 with dmas := d.dmas.del c }
  let d := if code = 0 then d else d.st .DMA_STAT_CODE c code
  let d := if 3 ≤ code then d.st .DMA_STAT_HALTED c 1
    else
      let d := d.st .DMA_HEAD_INDEX c ((d.rg .DMA_HEAD_INDEX c + 1) % d.ringSize c)
      if irq then d.st .DMA_STAT_DONE c 1 else d
  if irq || code != 0 then d.irq (184 + c) else d

/-- A reserved bit of a descriptor is set, or LEN or DADDR is outside its range. The bytes are those of R479. -/
def descBad (l : List Nat) : Bool :=
  let daddr := leNat ((l.drop 8).take 8)
  let len := leNat ((l.drop 16).take 4)
  let ctrl := leNat ((l.drop 20).take 2)
  len < 16 || len % 16 != 0 || ctrl ≥ 16 || leNat ((l.drop 24).take 8) != 0
    || (!bitOf ctrl 1 && decide (2 ^ 38 ≤ daddr))

/-- DMA_DESCRIPTOR_START: the channel reads the descriptor at HEAD; `none` where the host's completion fails. -/
def Dev.dmaStart (d : Dev) (c : Nat) (desc : Option (List Nat)) : Dev :=
  if !d.domUp domHost || !d.on .DMA_CTRL_EN c || d.on .DMA_STAT_HALTED c || d.on .DMA_STAT_RUN c
      || d.rg .DMA_HEAD_INDEX c == d.rg .DMA_TAIL_INDEX c % d.ringSize c then d
  else match desc with
  | none => d.dmaEnd c 6 false
  | some l =>
    let x : Dma := ⟨leNat (l.take 8), leNat ((l.drop 8).take 8), leNat ((l.drop 16).take 4), leNat ((l.drop 20).take 2)⟩
    if descBad l then d.dmaEnd c 3 (bitOf x.ctrl 2)
    else if bitOf x.ctrl 3 && !d.dmaQuiet then d
    else { d.st .DMA_STAT_RUN c 1 with dmas := d.dmas.put c x }

/-- The windows of R473 as regions without a gap, numbered. -/
def winRegion (a : Nat) : Option Nat :=
  match winOf a with
  | some (.seq _) => some 0
  | some .acqRec => some 1
  | some (.bob _) => some 2
  | some (.edge _) => some 3
  | some (.per _) => some 4
  | some (.prog _ _) => some 5
  | some (.fail e) => some (8 + e)
  | _ => none

/-- DADDR of SPACE 1 lies in a window with all its bytes. -/
def Dma.inWindow (x : Dma) : Bool := (winRegion x.daddr).isSome && winRegion x.daddr == winRegion (x.daddr + x.len - 1)

/-- The code of a descriptor is the first that was not OK. -/
def firstCode (a b : Nat) : Nat := if a = 0 then b else a

/-- Words of one line go to memory, each with its poison. -/
def State.dmaPut (s : State) (space : Bool) (x : Nat) (l : List Nat) (bad : List Bool) : State :=
  if space then
    (List.range (l.length / 16)).foldl (fun s j =>
      let y := x + 16 * j
      match winOf y with
      | some v =>
        if s.dev.domOn v.dom then s.winWrite .dma v y ((l.drop (16 * j)).take 16) { ep := bad.getD j false }
        else s.onDev (·.bump .PWR_ACCREJ_COUNT 0 1)
      | none => s) s
  else s.dramStore 0x09 x l bad

/-- One line of a transfer: its code, and the state after it. `j` is its number, `o` its place in the transfer. -/
def State.dmaLine (s : State) (x : Dma) (r : DmaData) (j o k : Nat) : Nat × State :=
  let y := x.daddr + o
  let toDev := !bitOf x.ctrl 0
  let space := bitOf x.ctrl 1
  if toDev && (r.err == some j || decide (r.data.length < o + k)) then (6, s)
  else if !space && (s.dev.lineAt (y / 256)).isNone then (5, s)
  else if !space && s.dev.sealed (y / 256) then
    let s := s.onDev (·.bump .SEC_GUARDCNT_COUNT 0 1)
    (2, if toDev then s else s.onDev (·.emit (.dma (x.haddr + o) (List.replicate k 0) true)))
  else if toDev then
    let bad := (r.bad.drop (o / 16)).take (k / 16)
    (b2n (bad.any id), s.dmaPut space y (nats ((r.data.drop o).take k)) bad)
  else
    let q := if space then
        match winOf y with
        | some v => if s.dev.domOn v.dom then s.winRead .dma v y k
            else (List.replicate k 0, false, s.onDev (·.bump .PWR_ACCREJ_COUNT 0 1))
        | none => (List.replicate k 0, false, s)
      else if s.dev.dramPath (y / 256) = .faults then (List.replicate k 0, true, s.onDev (·.reportUninstalled 0x09 y))
      else
        let p := s.dev.portWords s.mem 0x09 y (k / 16)
        (p.1, p.2.1.any id, { s with dev := p.2.2 })
    (b2n q.2.1, q.2.2.onDev (·.emit (.dma (x.haddr + o) q.1 q.2.1)))

/-- The lines of a transfer from number `j`, offset `o` on, until a code that halts: the code, and the state. -/
def State.dmaMove (s : State) (x : Dma) (r : DmaData) (code j o : Nat) : Nat → Nat × State
  | 0 => (code, s)
  | f + 1 =>
    if x.len ≤ o then (code, s)
    else
      let k := min (x.len - o) (256 - (x.daddr + o) % 256)
      let q := s.dmaLine x r j o k
      if 3 ≤ q.1 then q else State.dmaMove q.2 x r (firstCode code q.1) (j + 1) (o + k) f

/-- Whether a port makes a line of the transfer wait. -/
def Dev.dmaWaits (d : Dev) (x : Dma) : Bool :=
  !bitOf x.ctrl 1 && (lineParts x.daddr x.len (x.len / 256 + 2)).any (fun p =>
    (if bitOf x.ctrl 0 then d.dramPath (p.1 / 256) else d.writePath (p.1 / 256)) == .waits)

/-- DMA_DESCRIPTOR_COMPLETE: the descriptor in progress moves its data, and ends. -/
def State.dmaComplete (s : State) (c : Nat) (r : DmaData) : State :=
  match s.dev.dmas.get? c with
  | none => s
  | some x =>
    let irq := bitOf x.ctrl 2
    if bitOf x.ctrl 1 && !x.inWindow then s.onDev (·.dmaEnd c 3 irq)
    else if x.haddr % 16 ≠ 0 ∨ x.daddr % 16 ≠ 0 then s.onDev (·.dmaEnd c 4 irq)
    else if s.dev.dmaWaits x then s
    else
      let q := s.dmaMove x r 0 0 0 (x.len / 256 + 2)
      q.2.onDev (·.dmaEnd c q.1 irq)

/-! ## JTAG (R491 to R493) -/

/-- A boundary test begins: every burst is halted, lanes, links and ports go down, the DRAM ports are UNTRAINED and their
contents lost (R492). -/
def State.bscanBegin (s : State) : State :=
  let s := s.onDev (fun d =>
    let d := d.forUnits 128 (fun d e => d.halt e)
    let d := d.forUnits 34 (fun d n => ((d.st .LNK_LSTAT_LOCK n 0).st .LNK_LSTAT_BLOCK n 0).laneChanged n)
    let d := d.forUnits 8 (fun d r => d.linkState r 0)
    let d := d.forUnits 4 (fun d p => ({ d with seamQ := d.seamQ.del p }.setPort p {}).spState p 0)
    d.ready .HOST_READY_HOST 0)
  (List.range 2).foldl (fun s p =>
    if s.dev.rg .DRC_STAT_STATE p = 0 ∨ s.dev.rg .DRC_STAT_STATE p = 5 then s
    else (s.zeroPort p).onDev (fun d =>
      let byCmd := (d.drc p).train.any (·.byCmd)
      let d := d.setDrc p { no := (d.drc p).no }
      let d := if byCmd then d.cmdDone 7 [0, 0, 0, 0] else d
      (((d.st .DRC_STAT_FSPDEFER p 0).st .DRC_STAT_URGENT p 0).st .DRC_STAT_RETRAIN p 0).drcState p 1)) s

/-- Leaving a boundary test: lanes and ports restart as after a return from off (R390, R492; log 32). -/
def Dev.bscanEnd (d : Dev) : Dev :=
  let d := { d with tap := { d.tap with test := none }, ethSlow := [], ethAt := [(0, (false, d.tick)), (1, (false, d.tick))] }
  let d := [domSeam, domCnv].foldl (fun d k => if d.domOn k then (d.dropUnits k).dropRegs k else d) d
  d.forUnits 2 (fun d p => if d.rg .DRC_STAT_STATE p = 1 then d.drcBoot p else d)

/-- BOUNDARY_TEST_LOAD: outside BRINGUP and IDLE the instruction loads as BYPASS, which leaves a test in progress. -/
def State.bscanLoad (s : State) (t : BoundaryTest) : State :=
  if !s.dev.domOn domHost then s
  else if s.dev.rg .SEW_MODE_MODE 0 ≤ 1 then
    s.bscanBegin.onDev (fun d => { d with tap := { d.tap with test := some t } })
  else if s.dev.tap.test.isSome then s.onDev (·.bscanEnd)
  else s

/-- DEBUG_REG: an Update-DR accesses BAR0; the next Capture-DR gives the data read and whether the access was refused. -/
def State.debugReg (s : State) (write : Bool) (a v : Nat) : State :=
  let d := s.dev
  if !d.domOn domHost || !d.dbgOpen 1 || d.tap.test.isSome then s
  else
    let off := (accessDom a 8).any (fun k => !d.domOn k)
    let no := !sizeOk a 8 || off
    if write then
      (s.bar0Write .jtag a (leBytes 8 v) {}).onDev (fun d => { d with tap := { d.tap with data := 0, refused := no } })
    else
      let r := s.bar0Read .jtag a 8
      r.2.2.onDev (fun d => { d with tap := { d.tap with data := leNat r.1, refused := no } })

/-- JTAG_TRST: the TAP is reset; a boundary test is left. -/
def Dev.trst (d : Dev) : Dev := { (if d.tap.test.isSome then d.bscanEnd else d) with tap := {} }

/-! ## The commands -/

/-- DMA_DESCRIPTOR_START: the 32 bytes that the host's completion brings. -/
def execDmaDescriptorStart (c : DmaId) (desc : Option (List Byte)) (s : State) : Answer :=
  .next (s.onDev (·.dmaStart c (desc.map nats)))
/-- DMA_DESCRIPTOR_COMPLETE. -/
def execDmaDescriptorComplete (c : DmaId) (r : DmaData) (s : State) : Answer :=
  .next (if s.dev.domOn domHost then s.dmaComplete c r else s)
/-- DMA_RESET. -/
def execDmaReset (c : DmaId) (s : State) : Answer :=
  .next (s.onDev (fun d => if d.domOn domHost then d.dmaReset c else d.bump .PWR_ACCREJ_COUNT 0 1))
/-- BOUNDARY_TEST_LOAD. -/
def execBoundaryTestLoad (t : BoundaryTest) (s : State) : Answer := .next (s.bscanLoad t)
/-- BOUNDARY_TEST_EXIT. -/
def execBoundaryTestExit (s : State) : Answer := .next (s.onDev (fun d => if d.tap.test.isSome then d.bscanEnd else d))
/-- DEBUG_REG. -/
def execDebugReg (write : Bool) (addr : BitVec 26) (data : Word) (s : State) : Answer :=
  .next (s.debugReg write addr.toNat data.toNat)
/-- JTAG_TRST. -/
def execJtagTrst (s : State) : Answer := .next (s.onDev (·.trst))

end Sys2Proof.Machine
end

