-- ==== Sys2Proof/Machine/Dispatch.lean ====
section
/-!
DEFINITION. One arm per command: the meaning each row of the opcode table has.
-/

namespace Sys2Proof.Machine

def exec (i : Instr) (s : State) : Host.Outcome State Fault Refusal :=
  match i with
  | .registerWrite addr bytes ep dup => Sys2Proof.Machine.execRegisterWrite addr bytes ep s dup
  | .readClear a n => Sys2Proof.Machine.execReadClear a n s
  | .bastedWrite addr bytes => Sys2Proof.Machine.execBastedWrite addr bytes s
  | .refclkLost dt => Sys2Proof.Machine.execRefclkLost dt s
  | .refclkRestored => Sys2Proof.Machine.execRefclkRestored s
  | .pllReturnComplete => Sys2Proof.Machine.execPllReturnComplete s
  | .refclkQualifyTimeout => Sys2Proof.Machine.execRefclkQualifyTimeout s
  | .sramScrubVisit m word => Sys2Proof.Machine.execSramScrubVisit m word s
  | .comparatorInputChange c cmh cml dt => Sys2Proof.Machine.execComparatorInputChange c cmh cml dt s
  | .febFrameStart pd => Sys2Proof.Machine.execFebFrameStart pd s
  | .febFrameComplete pd di => Sys2Proof.Machine.execFebFrameComplete pd di s
  | .febHcmd pd frame => Sys2Proof.Machine.execFebHcmd pd frame s
  | .febFlush pd => Sys2Proof.Machine.execFebFlush pd s
  | .febEngineFrameQueue e => Sys2Proof.Machine.execFebEngineFrameQueue e s
  | .quadOwnershipApply q => Sys2Proof.Machine.execQuadOwnershipApply q s
  | .tieMembershipApply e => Sys2Proof.Machine.execTieMembershipApply e s
  | .cmpMaskApply e => Sys2Proof.Machine.execCmpMaskApply e s
  | .entryApply e => Sys2Proof.Machine.execEntryApply e s
  | .sewstartApply e => Sys2Proof.Machine.execSewstartApply e s
  | .modeApply e => Sys2Proof.Machine.execModeApply e s
  | .engStart e => Sys2Proof.Machine.execEngStart e s
  | .tieStartArrival e => Sys2Proof.Machine.execTieStartArrival e s
  | .tieEndArrival e => Sys2Proof.Machine.execTieEndArrival e s
  | .tieStallArrival e => Sys2Proof.Machine.execTieStallArrival e s
  | .tieBeat g => Sys2Proof.Machine.execTieBeat g s
  | .rowPinStart e => Sys2Proof.Machine.execRowPinStart e s
  | .edgeFire c => Sys2Proof.Machine.execEdgeFire c s
  | .strobeClose c => Sys2Proof.Machine.execStrobeClose c s
  | .flagVisible e => Sys2Proof.Machine.execFlagVisible e s
  | .ftFrequencyMeasured f period => Sys2Proof.Machine.execFtFrequencyMeasured f period s
  | .ftLock f phErr => Sys2Proof.Machine.execFtLock f phErr s
  | .ftLoss f cause period phErr => Sys2Proof.Machine.execFtLoss f cause period s phErr
  | .hemStateApply e => Sys2Proof.Machine.execHemStateApply e s
  | .resultPost e => Sys2Proof.Machine.execResultPost e s
  | .emissionDeadlineMiss e => Sys2Proof.Machine.execEmissionDeadlineMiss e s
  | .streamRegisterWrite e off size data => Sys2Proof.Machine.execStreamRegisterWrite e off size data s
  | .bobbinLoad e ctrl => Sys2Proof.Machine.execBobbinLoad e ctrl s
  | .bobbinHostfill e ctrl => Sys2Proof.Machine.execBobbinHostfill e ctrl s
  | .bobbinWindowWrite e off bytes ep dup => Sys2Proof.Machine.execBobbinWindowWrite e off bytes ep s dup
  | .bobbinRefillRequest c => Sys2Proof.Machine.execBobbinRefillRequest c s
  | .bobbinLineArrival e => Sys2Proof.Machine.execBobbinLineArrival e s
  | .failSpillLine e => Sys2Proof.Machine.execFailSpillLine e s
  | .pinEmClr c => Sys2Proof.Machine.execPinEmClr c s
  | .engHalt e => Sys2Proof.Machine.execEngHalt e s
  | .engReset e key => Sys2Proof.Machine.execEngReset e key s
  | .evSetHost e => Sys2Proof.Machine.execEvSetHost e s
  | .eventTaken e => Sys2Proof.Machine.execEventTaken e s
  | .branchDecision e => Sys2Proof.Machine.execBranchDecision e s
  | .pinAlignedAction e => Sys2Proof.Machine.execPinAlignedAction e s
  | .nop e => Sys2Proof.Machine.execNop e s
  | .brr e => Sys2Proof.Machine.execBrr e s
  | .call e => Sys2Proof.Machine.execCall e s
  | .br e => Sys2Proof.Machine.execBr e s
  | .ret e => Sys2Proof.Machine.execRet e s
  | .loopI e => Sys2Proof.Machine.execLoop e s
  | .endI e => Sys2Proof.Machine.execEnd e s
  | .eret e => Sys2Proof.Machine.execEret e s
  | .vec e n => Sys2Proof.Machine.execVec e s n
  | .vrpt e n => Sys2Proof.Machine.execVrpt e s n
  | .vpad e n => Sys2Proof.Machine.execVpad e s n
  | .vpset e => Sys2Proof.Machine.execVpset e s
  | .vpadd e => Sys2Proof.Machine.execVpadd e s
  | .sloop e => Sys2Proof.Machine.execSloop e s
  | .slend e => Sys2Proof.Machine.execSlend e s
  | .tagset e => Sys2Proof.Machine.execTagset e s
  | .tset e => Sys2Proof.Machine.execTset e s
  | .tsetr e => Sys2Proof.Machine.execTsetr e s
  | .lvli e => Sys2Proof.Machine.execLvli e s
  | .lvl e => Sys2Proof.Machine.execLvl e s
  | .dmask e => Sys2Proof.Machine.execDmask e s
  | .flog e => Sys2Proof.Machine.execFlog e s
  | .fclr e => Sys2Proof.Machine.execFclr e s
  | .sfail e => Sys2Proof.Machine.execSfail e s
  | .mwait e n => Sys2Proof.Machine.execMwait e s n
  | .mwaitDecision e => Sys2Proof.Machine.execMwaitDecision e s
  | .avec e n => Sys2Proof.Machine.execAvec e s n
  | .march e n => Sys2Proof.Machine.execMarch e s n
  | .ldi e => Sys2Proof.Machine.execLdi e s
  | .ldhi e => Sys2Proof.Machine.execLdhi e s
  | .cpy e => Sys2Proof.Machine.execCpy e s
  | .add e => Sys2Proof.Machine.execAdd e s
  | .addi e => Sys2Proof.Machine.execAddi e s
  | .sub e => Sys2Proof.Machine.execSub e s
  | .andI e => Sys2Proof.Machine.execAnd e s
  | .orI e => Sys2Proof.Machine.execOr e s
  | .xorI e => Sys2Proof.Machine.execXor e s
  | .notI e => Sys2Proof.Machine.execNot e s
  | .shl e => Sys2Proof.Machine.execShl e s
  | .shr e => Sys2Proof.Machine.execShr e s
  | .cmp e => Sys2Proof.Machine.execCmp e s
  | .cmpi e => Sys2Proof.Machine.execCmpi e s
  | .crcw e => Sys2Proof.Machine.execCrcw e s
  | .crc e n => Sys2Proof.Machine.execCrc e s n
  | .fill e n => Sys2Proof.Machine.execFill e s n
  | .movI e n => Sys2Proof.Machine.execMov e s n
  | .blkcmp e n => Sys2Proof.Machine.execBlkcmp e s n
  | .fence e => Sys2Proof.Machine.execFence e s
  | .fenceComplete e => Sys2Proof.Machine.execFenceComplete e s
  | .trd e => Sys2Proof.Machine.execTrd e s
  | .twait e n => Sys2Proof.Machine.execTwait e s n
  | .swait e n => Sys2Proof.Machine.execSwait e s n
  | .waitEnd e => Sys2Proof.Machine.execWaitEnd e s
  | .tack e => Sys2Proof.Machine.execTack e s
  | .trig e => Sys2Proof.Machine.execTrig e s
  | .trgw e n => Sys2Proof.Machine.execTrgw e s n
  | .acqarm e => Sys2Proof.Machine.execAcqarm e s
  | .awgs e => Sys2Proof.Machine.execAwgs e s
  | .awgp e => Sys2Proof.Machine.execAwgp e s
  | .awgj e => Sys2Proof.Machine.execAwgj e s
  | .ddcf e => Sys2Proof.Machine.execDdcf e s
  | .ei e => Sys2Proof.Machine.execEi e s
  | .diI e => Sys2Proof.Machine.execDi e s
  | .evclr e => Sys2Proof.Machine.execEvclr e s
  | .even e => Sys2Proof.Machine.execEven e s
  | .evwait e n => Sys2Proof.Machine.execEvwait e s n
  | .recoveryEnd e => Sys2Proof.Machine.execRecoveryEnd e s
  | .controlStoreScan e => Sys2Proof.Machine.execControlStoreScan e s
  | .clrlist e => Sys2Proof.Machine.execClrlist e s
  | .acqArm u => Sys2Proof.Machine.execAcqArm u s
  | .acqDisarm u => Sys2Proof.Machine.execAcqDisarm u s
  | .acqForce u => Sys2Proof.Machine.execAcqForce u s
  | .acqRelease u => Sys2Proof.Machine.execAcqRelease u s
  | .acqGrainDecide u => Sys2Proof.Machine.execAcqGrainDecide u s
  | .acqPostComplete u => Sys2Proof.Machine.execAcqPostComplete u s
  | .acqHoldoffEnd u => Sys2Proof.Machine.execAcqHoldoffEnd u s
  | .acqRearm u => Sys2Proof.Machine.execAcqRearm u s
  | .acqSpillLine u => Sys2Proof.Machine.execAcqSpillLine u s
  | .acqRecordComplete u => Sys2Proof.Machine.execAcqRecordComplete u s
  | .acqTimeCondition u slot => Sys2Proof.Machine.execAcqTimeCondition u slot s
  | .jesdLinkEnable r => Sys2Proof.Machine.execJesdLinkEnable r s
  | .sysrefEdge dt => Sys2Proof.Machine.execSysrefEdge dt s
  | .jesdMultiblockReceive r rateBad lanes => Sys2Proof.Machine.execJesdMultiblockReceive r rateBad lanes s
  | .ddcEnable c => Sys2Proof.Machine.execDdcEnable c s
  | .ddcFtwWrite c ftw => Sys2Proof.Machine.execDdcFtwWrite c ftw s
  | .ddcOutputSample c => Sys2Proof.Machine.execDdcOutputSample c s
  | .awgStart g e => Sys2Proof.Machine.execAwgStart g e s
  | .awgStop g => Sys2Proof.Machine.execAwgStop g s
  | .awgPrime g e => Sys2Proof.Machine.execAwgPrime g e s
  | .awgFlush g => Sys2Proof.Machine.execAwgFlush g s
  | .awgJump g e granule => Sys2Proof.Machine.execAwgJump g e granule s
  | .awgJumpEffect g => Sys2Proof.Machine.execAwgJumpEffect g s
  | .awgPrimeComplete g => Sys2Proof.Machine.execAwgPrimeComplete g s
  | .awgPlaybackStart g => Sys2Proof.Machine.execAwgPlaybackStart g s
  | .awgRefillLine g => Sys2Proof.Machine.execAwgRefillLine g s
  | .awgPlayEnd g => Sys2Proof.Machine.execAwgPlayEnd g s
  | .awgSampleUnderrun g => Sys2Proof.Machine.execAwgSampleUnderrun g s
  | .awgSeqEntryWrite g e off bytes ep dup => Sys2Proof.Machine.execAwgSeqEntryWrite g e off bytes ep s dup
  | .timeNowRead => Sys2Proof.Machine.execTimeNowRead s
  | .timeDevnumWrite num => Sys2Proof.Machine.execTimeDevnumWrite num s
  | .timeSourceSelect src => Sys2Proof.Machine.execTimeSourceSelect src s
  | .ticksyncEdge dt => Sys2Proof.Machine.execTicksyncEdge dt s
  | .ptpSync h twoStep origin => Sys2Proof.Machine.execPtpSync h twoStep origin s
  | .ptpFollowUp h origin => Sys2Proof.Machine.execPtpFollowUp h origin s
  | .ptpDelayReq h => Sys2Proof.Machine.execPtpDelayReq h s
  | .ptpDelayResp h receipt => Sys2Proof.Machine.execPtpDelayResp h receipt s
  | .ptpPdelayReq h => Sys2Proof.Machine.execPtpPdelayReq h s
  | .ptpPdelayResp h twoStep receipt => Sys2Proof.Machine.execPtpPdelayResp h twoStep receipt s
  | .ptpPdelayRespFollowUp h left => Sys2Proof.Machine.execPtpPdelayRespFollowUp h left s
  | .ptpAnnounce h a => Sys2Proof.Machine.execPtpAnnounce h a s
  | .ptpOtherMessage h => Sys2Proof.Machine.execPtpOtherMessage h s
  | .ptpMessageSend k => Sys2Proof.Machine.execPtpMessageSend k s
  | .ptpSourceTimeout => Sys2Proof.Machine.execPtpSourceTimeout s
  | .seamTimeSend => Sys2Proof.Machine.execSeamTimeSend s
  | .seamTimeReceive h srv coarse time gen qual corr => Sys2Proof.Machine.execSeamTimeReceive h srv coarse time gen qual corr s
  | .seamTimeTimeout => Sys2Proof.Machine.execSeamTimeTimeout s
  | .rebase a0 a1 => Sys2Proof.Machine.execRebase a0 a1 s
  | .sewGmapWrite word value => Sys2Proof.Machine.execSewGmapWrite word value s
  | .sewArm g => Sys2Proof.Machine.execSewArm g s
  | .sewCancel g => Sys2Proof.Machine.execSewCancel g s
  | .sewVeto g => Sys2Proof.Machine.execSewVeto g s
  | .sewDecision g => Sys2Proof.Machine.execSewDecision g s
  | .sewTargetCycle g => Sys2Proof.Machine.execSewTargetCycle g s
  | .seamSewReceive h tag veto origin => Sys2Proof.Machine.execSeamSewReceive h tag veto origin s
  | .laneSlip n => Sys2Proof.Machine.execLaneSlip n s
  | .laneSlipSearchStep n => Sys2Proof.Machine.execLaneSlipSearchStep n s
  | .laneBlockLockGain n => Sys2Proof.Machine.execLaneBlockLockGain n s
  | .laneBlockLockLoss n => Sys2Proof.Machine.execLaneBlockLockLoss n s
  | .laneFomWindow n fom => Sys2Proof.Machine.execLaneFomWindow n fom s
  | .laneDensityWindow n dens => Sys2Proof.Machine.execLaneDensityWindow n dens s
  | .ethRateFallback port => Sys2Proof.Machine.execEthRateFallback port s
  | .ethLinkDownRestart port => Sys2Proof.Machine.execEthLinkDownRestart port s
  | .seamPortEnable p => Sys2Proof.Machine.execSeamPortEnable p s
  | .seamLinkControlBlock p laneB inPhase domain pos dev tied => Sys2Proof.Machine.execSeamLinkControlBlock p laneB inPhase domain pos dev s tied
  | .seamPortTrained p foms trip => Sys2Proof.Machine.execSeamPortTrained p foms trip s
  | .seamMultiblockSend p => Sys2Proof.Machine.execSeamMultiblockSend p s
  | .seamTieReceive h g beat fail match_ pc per => Sys2Proof.Machine.execSeamTieReceive h g beat fail match_ pc per s
  | .seamTieEvtReceive h g beat cycle k => Sys2Proof.Machine.execSeamTieEvtReceive h g beat cycle k s
  | .seamTrigReceive h ch origin gen => Sys2Proof.Machine.execSeamTrigReceive h ch origin gen s
  | .tieFlagsApply => Sys2Proof.Machine.execTieFlagsApply s
  | .trainDram a0 => Sys2Proof.Machine.execTrainDram a0 s
  | .dramTrainingComplete p l => Sys2Proof.Machine.execDramTrainingComplete p l s
  | .dramRetrainSlice p fin => Sys2Proof.Machine.execDramRetrainSlice p fin s
  | .drcFspReq p target force => Sys2Proof.Machine.execDrcFspReq p target force s
  | .fspChangeStart p => Sys2Proof.Machine.execFspChangeStart p s
  | .fspChangeComplete p => Sys2Proof.Machine.execFspChangeComplete p s
  | .dramRequestAccept src line write off data ep => Sys2Proof.Machine.execDramRequestAccept src line write off data ep s
  | .dramRequestIssue p dup => Sys2Proof.Machine.execDramRequestIssue p s dup
  | .dramReadComplete p dup moved => Sys2Proof.Machine.execDramReadComplete p s dup moved
  | .refreshDue p rank => Sys2Proof.Machine.execRefreshDue p rank s
  | .urgentRefreshSequence p rank => Sys2Proof.Machine.execUrgentRefreshSequence p rank s
  | .dramTempRead p hot => Sys2Proof.Machine.execDramTempRead p hot s
  | .zqCalibration p rank => Sys2Proof.Machine.execZqCalibration p rank s
  | .dqsOscTracking p rank corr => Sys2Proof.Machine.execDqsOscTracking p rank corr s
  | .backgroundPromote p k => Sys2Proof.Machine.execBackgroundPromote p k s
  | .dramScrubRead p => Sys2Proof.Machine.execDramScrubRead p s
  | .dramZeroLine p dup => Sys2Proof.Machine.execDramZeroLine p s dup
  | .pwrReqGo off smb => Sys2Proof.Machine.execPwrReqGo off smb s
  | .pwrPrepareTimeout k => Sys2Proof.Machine.execPwrPrepareTimeout k s
  | .pwrPrepareDone => Sys2Proof.Machine.execPwrPrepareDone s
  | .pwrTransitionEnd k => Sys2Proof.Machine.execPwrTransitionEnd k s
  | .pwrReinitComplete k => Sys2Proof.Machine.execPwrReinitComplete k s
  | .pwrWake mask => Sys2Proof.Machine.execPwrWake mask s
  | .wakeAdmit => Sys2Proof.Machine.execWakeAdmit s
  | .perstNRise => Sys2Proof.Machine.execPerstNRise s
  | .aonDozeEnter => Sys2Proof.Machine.execAonDozeEnter s
  | .smbusAddressMatch addr => Sys2Proof.Machine.execSmbusAddressMatch addr s
  | .powerOnReset => Sys2Proof.Machine.execPowerOnReset s
  | .sysResetN low => Sys2Proof.Machine.execSysResetN low s
  | .hostRstUnlock key => Sys2Proof.Machine.execHostRstUnlock key s
  | .hostRstGo key smb => Sys2Proof.Machine.execHostRstGo key smb s
  | .rstWindowExpire => Sys2Proof.Machine.execRstWindowExpire s
  | .hostLinkReset => Sys2Proof.Machine.execHostLinkReset s
  | .pcieLinkUp => Sys2Proof.Machine.execPcieLinkUp s
  | .sensorRead k reading => Sys2Proof.Machine.execSensorRead k reading s
  | .retrimComputeDone k => Sys2Proof.Machine.execRetrimComputeDone k s
  | .calValuesApply q => Sys2Proof.Machine.execCalValuesApply q s
  | .calProfileSelect sel en => Sys2Proof.Machine.execCalProfileSelect sel en s
  | .calibrate a0 a1 frames => Sys2Proof.Machine.execCalibrate a0 a1 frames s
  | .wipe a0 => Sys2Proof.Machine.execWipe a0 s
  | .selftest a0 a1 => Sys2Proof.Machine.execSelftest a0 a1 s
  | .keyImport a0 blob => Sys2Proof.Machine.execKeyImport a0 blob s
  | .lifecycle a0 sig => Sys2Proof.Machine.execLifecycle a0 sig s
  | .nvmWrite a0 record => Sys2Proof.Machine.execNvmWrite a0 record s
  | .commandComplete r => Sys2Proof.Machine.execCommandComplete r s
  | .standbyKeyReady => Sys2Proof.Machine.execStandbyKeyReady s
  | .keyIntegrityCheck bad other => Sys2Proof.Machine.execKeyIntegrityCheck bad other s
  | .alarmVolt => Sys2Proof.Machine.execAlarmVolt s
  | .alarmClock => Sys2Proof.Machine.execAlarmClock s
  | .alarmMesh => Sys2Proof.Machine.execAlarmMesh s
  | .unsealGo region => Sys2Proof.Machine.execUnsealGo region s
  | .unsealPass1Complete => Sys2Proof.Machine.execUnsealPass1Complete s
  | .unsealPass2Complete => Sys2Proof.Machine.execUnsealPass2Complete s
  | .sealedRegionRelease n => Sys2Proof.Machine.execSealedRegionRelease n s
  | .sealedRegionZeroed n => Sys2Proof.Machine.execSealedRegionZeroed n s
  | .debugTry cls => Sys2Proof.Machine.execDebugTry cls s
  | .debugBlockExpire => Sys2Proof.Machine.execDebugBlockExpire s
  | .debugClose => Sys2Proof.Machine.execDebugClose s
  | .attestationGo => Sys2Proof.Machine.execAttestationGo s
  | .attestationQuoteReady => Sys2Proof.Machine.execAttestationQuoteReady s
  | .ctrVerify r => Sys2Proof.Machine.execCtrVerify r s
  | .ctrTouch => Sys2Proof.Machine.execCtrTouch s
  | .tdInEdge high => Sys2Proof.Machine.execTdInEdge high s
  | .ctrCountWrite r => Sys2Proof.Machine.execCtrCountWrite r s
  | .telemetrySample rails => Sys2Proof.Machine.execTelemetrySample rails s
  | .bar2Read off n => Sys2Proof.Machine.execBar2Read off n s
  | .bar2Write off bytes ep dup => Sys2Proof.Machine.execBar2Write off bytes ep s dup
  | .dmaDescriptorStart c desc => Sys2Proof.Machine.execDmaDescriptorStart c desc s
  | .dmaDescriptorComplete c r => Sys2Proof.Machine.execDmaDescriptorComplete c r s
  | .dmaReset c => Sys2Proof.Machine.execDmaReset c s
  | .snapshot off len16 rcclr smb => Sys2Proof.Machine.execSnapshot off len16 rcclr smb s
  | .logPop => Sys2Proof.Machine.execLogPop s
  | .smbRegRead addr eight => Sys2Proof.Machine.execSmbRegRead addr eight s
  | .smbRegWrite addr bytes => Sys2Proof.Machine.execSmbRegWrite addr bytes s
  | .smbTelRead half => Sys2Proof.Machine.execSmbTelRead half s
  | .smbLogRead => Sys2Proof.Machine.execSmbLogRead s
  | .smbWake mask => Sys2Proof.Machine.execSmbWake mask s
  | .smbStatus => Sys2Proof.Machine.execSmbStatus s
  | .boundaryTestLoad t => Sys2Proof.Machine.execBoundaryTestLoad t s
  | .boundaryTestExit => Sys2Proof.Machine.execBoundaryTestExit s
  | .debugReg write addr data => Sys2Proof.Machine.execDebugReg write addr data s
  | .jtagTrst => Sys2Proof.Machine.execJtagTrst s
  | .laneClockLockLoss n => Sys2Proof.Machine.execLaneClockLockLoss n s
  | .laneClockLockGain n => Sys2Proof.Machine.execLaneClockLockGain n s
  | .invalidSyncHeader n => Sys2Proof.Machine.execInvalidSyncHeader n s
  | .prbsBitError n => Sys2Proof.Machine.execPrbsBitError n s
  | .seamBlockCrcFail p => Sys2Proof.Machine.execSeamBlockCrcFail p s
  | .storedWordError m word errs => Sys2Proof.Machine.execStoredWordError m word errs s
  | .controlStoreError e store addr bits => Sys2Proof.Machine.execControlStoreError e store addr bits s
  | .trngHealthFailure => Sys2Proof.Machine.execTrngHealthFailure s
  | .onchipZeroingComplete => Sys2Proof.Machine.execOnchipZeroingComplete s
  | .msiXUnmask op => Sys2Proof.Machine.execMsiXUnmask op s

end Sys2Proof.Machine
end

