-- ==== Sys2Proof/Machine/Idle.lean ====
section
/-!
DEFINITION. What passes when no command waits: one engine cycle (log 33).
-/

namespace Sys2Proof.Machine

/-- One engine cycle: the clock moves on, and AON, which runs from the reference on, shows itself ready (R413). -/
def Dev.idle (d : Dev) : Dev := (d.advanceTo (d.tick + cyc)).ready .HOST_READY_AON 1

end Sys2Proof.Machine
end

