-- ==== Sys2Proof/Safety.lean ====
section
/-!
DEFINITION. What a sound state is, when a command completes, and in what block an instruction of an engine takes effect.
-/

namespace Sys2Proof.Machine

/-- The memory of the block is in its canonical form: addresses rise strictly and no zero byte is listed. -/
abbrev State.wf (s : State) : Prop := memWf s.mem = true

/-- The command is carried out: `exec` answers a next state, of which `P` holds. -/
def Completes (c : Instr) (s : State) (P : State → Prop) : Prop := ∃ t, exec c s = .next t ∧ P t

/-- The instruction word that engine `e` issues next, with the block at its issue: the engine may issue, the word is
readable, its entry word executes and it raises no ILLEGAL (R170, R231, R242). The clock is at the issue cycle, and the
engine's next issue cycle counts from it; an instruction that is resumed has taken up what its interruption kept. -/
def State.issuing (s : State) (e : Nat) : Option (Nat × Dev) :=
  if s.dev.canIssue e then
    match s.dev.fetch s.mem e with
    | (some w, d) =>
      match (d.issueTime e w).micro e w (d.startWords e w - 1 + b2n (d.emitsNext e w) + 1) with
      | (true, d) => if d.illegal e w then none else some (w, d.resumeHeld e w)
      | (false, _) => none
    | _ => none
  else none

/-- The control store of engine `e` holds no wrong bit, and its word list no entry (R232, R248). -/
def Dev.storeClean (d : Dev) (e : Nat) : Prop := (d.eng e).storeErr = [] ∧ d.rg .ENG_MC_STAT_LISTCNT e = 0

/-- Engine `e` issues the instruction `w` of class `cls` and operation `op`, and `d` is the block at its issue. Where the
instruction has a second word before its rows, iterations or hold, the control store is clean. -/
def Issues (s : State) (e cls op w : Nat) (d : Dev) : Prop :=
  s.issuing e = some (w, d) ∧ iCls w = cls ∧ iOp w = op ∧ ((s.dev.fetch s.mem e).2.startWords e w = 1 ∨ d.storeClean e)

/-- Register `rd` of engine `e` has taken the result `v`: its low bits (R165); of ESTAT only RESUME, SZERO and SCARRY take
theirs (R218). -/
def RdTakes (d : Dev) (e rd v : Nat) : Prop :=
  if rd = 0x3D then
    d.rg .ENG_ESTAT_RESUME e = v / 2 % 2 ∧ d.rg .ENG_ESTAT_SZERO e = v / 8 % 2 ∧ d.rg .ENG_ESTAT_SCARRY e = v / 16 % 2
  else d.reg e rd = v % 2 ^ regWidth rd

/-- The program counter of engine `e` has moved to the next address; in a delay region, where a branch may take effect
instead, this says nothing. -/
def PcNext (d t : Dev) (e : Nat) : Prop :=
  (d.eng e).br = none → t.rg .ENG_PC_ADDR e = (d.rg .ENG_PC_ADDR e + 1) % 2 ^ 16

/-- A flow instruction of engine `e` with this target, DELAY and decision: decided and without delay, control transfers at
once; otherwise a delay region opens at the next address (R179, R202). -/
def Branches (d t : Dev) (e target delay : Nat) (taken : Option Bool) : Prop :=
  match taken, delay with
  | some c, 0 => t.rg .ENG_PC_ADDR e = (if c then target else d.rg .ENG_PC_ADDR e + 1) % 2 ^ 16 ∧ (t.eng e).br = (d.eng e).br
  | _, _ => t.rg .ENG_PC_ADDR e = (d.rg .ENG_PC_ADDR e + 1) % 2 ^ 16 ∧
    ∃ b, (t.eng e).br = some b ∧ b.target = target ∧ b.after = d.rg .ENG_PC_ADDR e + 1 + delay ∧ b.left = delay ∧
      b.decided = taken

/-- The decision of a branch at its issue: a condition that is no result condition is read from the flags; a result
condition is known only before the burst's first row, from flags that are all 0 (R169, R179). -/
def Decides (d : Dev) (e c : Nat) (taken : Option Bool) : Prop :=
  (¬(1 ≤ c ∧ c ≤ 8) → taken = some (d.cond e c)) ∧
  ((1 ≤ c ∧ c ≤ 8) → (d.eng e).issued = 0 → taken = some (c % 2 == 0)) ∧
  ((1 ≤ c ∧ c ≤ 8) → (d.eng e).issued ≠ 0 → taken = none)

/-- The stored fields that a write to register `sp` of engine `e` may change (R164, R218): its own; three fields of ESTAT;
for VP also the pleat's progress, the loop window and the count of misses. -/
def regKeys (e sp : Nat) : List RegKey :=
  if sp < 0x20 then [⟨.ENG_G, e, sp⟩]
  else if sp < 0x30 then [⟨.ENG_L, e, sp - 0x20⟩]
  else match sp with
    | 0x30 => [⟨.ENG_XA, e, 0⟩]
    | 0x31 => [⟨.ENG_YA, e, 0⟩]
    | 0x32 => [⟨.ENG_DG, e, 0⟩]
    | 0x33 => [⟨.ENG_VP, e, 0⟩, ⟨.ENG_STR_PPOS_REP, e, 0⟩, ⟨.ENG_STR_PPOS_ROW, e, 0⟩, ⟨.ENG_BOB_LREM_ACTIVE, e, 0⟩,
        ⟨.ENG_BOB_LREM_HELD, e, 0⟩, ⟨.ENG_BOB_LREM_REM, e, 0⟩, ⟨.ENG_BOB_MISS_COUNT, e, 0⟩]
    | 0x36 => [⟨.ENG_TS, e, 0⟩]
    | 0x37 => [⟨.ENG_TAG, e, 0⟩]
    | 0x38 => [⟨.ENG_PROG, e, 0⟩]
    | 0x39 => [⟨.ENG_PROG, e, 1⟩]
    | 0x3A => [⟨.ENG_PROG, e, 2⟩]
    | 0x3B => [⟨.ENG_PROG, e, 3⟩]
    | 0x3C => [⟨.ENG_EPC, e, 0⟩]
    | 0x3D => [⟨.ENG_ESTAT_RESUME, e, 0⟩, ⟨.ENG_ESTAT_SZERO, e, 0⟩, ⟨.ENG_ESTAT_SCARRY, e, 0⟩]
    | _ => []

/-- The program counter, ZERO and CARRY of engine `e`. -/
def pcFlagKeys (e : Nat) : List RegKey := [⟨.ENG_PC_ADDR, e, 0⟩, ⟨.ENG_FLAGS_ZERO, e, 0⟩, ⟨.ENG_FLAGS_CARRY, e, 0⟩]

/-- The frame of a command: every register field outside `l` keeps its value, and every byte of memory its own. -/
def KeepsAllBut (l : List RegKey) (m : List Host.Cell) (d : Dev) (t : State) : Prop :=
  (∀ j, j ∉ l → t.dev.key j = d.key j) ∧ ∀ a, memGet t.mem a = memGet m a

/-- The commands whose effect may store to memory: writes of the host, the DMA and the debug port, scrubbers, spills and
refills, block operations, resets, power-down, zeroization and the command port. No other command changes a byte. -/
def mayStore : Instr → Bool
  | .registerWrite .. | .bastedWrite .. | .sramScrubVisit .. | .bobbinWindowWrite .. | .bobbinLineArrival ..
  | .failSpillLine .. | .crc .. | .fill .. | .movI .. | .blkcmp .. | .acqDisarm .. | .acqPostComplete ..
  | .acqSpillLine .. | .awgRefillLine .. | .awgPrime .. | .awgSeqEntryWrite .. | .rebase .. | .sewTargetCycle ..
  | .trainDram .. | .dramRequestAccept .. | .dramScrubRead .. | .dramZeroLine .. | .pwrTransitionEnd ..
  | .powerOnReset .. | .sysResetN .. | .hostRstGo .. | .hostLinkReset .. | .sensorRead .. | .calibrate ..
  | .wipe .. | .selftest .. | .keyImport .. | .lifecycle .. | .nvmWrite .. | .commandComplete ..
  | .keyIntegrityCheck .. | .alarmVolt .. | .alarmClock .. | .alarmMesh .. | .unsealPass2Complete ..
  | .sealedRegionZeroed .. | .debugTry .. | .telemetrySample .. | .bar2Write .. | .dmaDescriptorComplete ..
  | .snapshot .. | .smbRegWrite .. | .boundaryTestLoad .. | .debugReg .. | .trngHealthFailure .. => true
  | _ => false

end Sys2Proof.Machine
end

