-- ==== Sys2Proof/Certificates/Slice0/Obligations.lean ====
section
/-!
DEFINITION. The statements for the provers, over every command of the block and every kind of state it holds.
Where a clause says that a command leaves the state as it is and no rule says so, it is a choice of the model (log 1).
-/

open Sys2Proof Sys2Proof.Machine

/-- A step takes the command at the front of the queue: it is `exec` of that command on the state with the queue's rest. -/
def Obligations.StepRunsTheCommand : Prop := ∀ (c : Instr) (s : State),
  step { s with pending := c :: s.pending } = exec c s

/-- A step on an empty queue lets one engine cycle pass and shows AON ready. It is the model's choice (log 33). -/
def Obligations.EmptyQueuePassesACycle : Prop := ∀ s : State, s.pending = [] → ∃ t, step s = .next t ∧ t.pending = [] ∧
  t.mem = s.mem ∧ t.dev.tick = s.dev.tick + 4000 ∧ t.dev.rg .HOST_READY_AON 0 = 1 ∧
  ∀ j, j.f ≠ .HOST_READY_AON → j.f ≠ .HOST_IRQ_STAT_PEND → t.dev.key j = s.dev.key j

/-- Every command is carried out in every state, and leaves the commands that wait as they are: none is lost, none overtakes
another. A command that may store nothing to memory leaves every byte of it. -/
def Obligations.CommandsCompleteInOrder : Prop := ∀ (c : Instr) (s : State),
  Completes c s (fun t => t.pending = s.pending ∧ (mayStore c = false → t.mem = s.mem)) ∧
  ∃ t, step { s with pending := c :: s.pending } = .next t ∧ t.pending = s.pending

/-- Every step keeps the memory's canonical form: addresses rise strictly and no zero byte is listed. The choices of the
model in it: log 5, 6. -/
def Obligations.StepKeepsMemoryForm : Prop := ∀ s t : State, s.wf → step s = .next t → t.wf

/-- The block after power-on: no command waits, memory is in its form and zero, every register has its reset value, no
domain but AON is on, no burst runs, device time is 0 in generation 0 with quality UNSET (R306, R405, R407). The choices of
the model in it: log 5, 7, 9, 10, 11, 72, 85. -/
def Obligations.ResetState : Prop := let s := State.reset
  s.wf ∧ s.pending = [] ∧ (∀ a, memGet s.mem a = 0) ∧ (∀ j, s.dev.key j = j.reset) ∧ s.dev.domOn 0 = true ∧
  (∀ k : DomId, k ≠ 0 → s.dev.dom k = 3) ∧ (∀ e : EngId, s.dev.runs e = false ∧ s.dev.tied e = false) ∧
  s.dev.nowFrac = 0 ∧ s.dev.time.gen = 0 ∧ s.dev.quality = 4 ∧ s.dev.log = []

/-- After power-on reset, engine E(n) owns quad Q(n) and no other quad (R15). -/
def Obligations.PowerOnOwnership : Prop := ∀ (s : State) (n : EngId) (q : QuadId),
  Completes .powerOnReset s (fun t => (t.dev.quadOwner q = some n.val ↔ q = n) ∧ t.dev.quads n = [n.val])

/-- While any Seam port has EN = 1, the SEAM power domain, which is then on, refuses the prepare phase of a retention or
power-off request and names SEAM_ACTIVE (R360). The premises on wakes hold of a domain that is on. -/
def Obligations.SeamPortHoldsItsDomain : Prop := ∀ (s : State) (p : PortId) (off smb : Bool),
  let d := s.dev
  (d.rg .PWR_REQ_MASK_MASK 0).testBit 28 = true → d.on .LNK_SP_CTRL_EN p = true → d.domOn 28 = true →
  28 ∉ d.pwr.queue → (∀ c ∈ d.pwr.costs, c.1 ≠ 28) → d.rg .PWR_REQ_STAT_PHASE 0 ≠ 1 → d.rg .PWR_REQ_STAT_PHASE 0 ≠ 2 →
  Completes (.pwrReqGo off smb) s (fun t => t.dev.rg .PWR_REQ_STAT_PHASE 0 = 1 ∧ 28 ∉ t.dev.quies ∧
    ∃ x, t.dev.pwr.prep = some x ∧ (28, 0x0C) ∈ x.refused)

/-- Life thresholds of the contactor (R465): after every touchdown and every verification that is due, WARN reads 1 just
where the count has reached ⌈0.9 × RATED⌉, which raises vector 197 once, and LIFE where it has reached RATED. A RATED of 0
is no record's. -/
def Obligations.ContactorLife : Prop := ∀ (s : State) (high : Nat) (l : List Byte),
  let d := s.dev
  let bytes := l.map (·.toNat)
  let judged := fun (t : State) =>
    let n := t.dev.rg .CTR_TDCNT_COUNT 0
    let rated := t.dev.rg .CTR_RATED_RATED 0
    (t.dev.rg .CTR_STAT_WARN 0 = 1 ↔ 9 * rated ≤ 10 * n) ∧ (t.dev.rg .CTR_STAT_LIFE 0 = 1 ↔ rated ≤ n) ∧
    (d.on .CTR_STAT_WARN 0 = false → 9 * rated ≤ 10 * n → (t.dev.rg .HOST_IRQ_STAT_PEND 0).testBit 197 = true)
  let once := fun (t : State) => d.on .CTR_STAT_WARN 0 = true →
    (t.dev.rg .HOST_IRQ_STAT_PEND 0).testBit 197 = (d.rg .HOST_IRQ_STAT_PEND 0).testBit 197
  let counts := d.locked = false ∧ d.rg .CTR_RATED_RATED 0 ≠ 0
  (counts → d.on .CTR_CTRL_TDSRC 0 = false → Completes .ctrTouch s (fun t => judged t ∧ once t)) ∧
  (counts → d.on .CTR_CTRL_TDSRC 0 = true → 4000000 ≤ high → d.ctr.edge = none → Completes (.tdInEdge high) s (fun t =>
    judged t ∧ once t)) ∧
  (d.ctr.due = true → 132 ≤ l.length → ctrFormat bytes = true → d.ctrSigned bytes = true → Completes (.ctrVerify (some l)) s judged)

/-- LDI, LDHI, CPY, TRD, ADD, ADDI, SUB, CMP, CMPI, AND, OR, XOR, NOT, SHL, SHR and CRCW: what RD takes (R165, R217 to
R219), ZERO of what RD takes, CARRY out of the sum, as borrow, of the last bit shifted out, 0 for the logic instructions;
TRD reads device time in whole nanoseconds, or with f = 1 the fraction, generation and quality. -/
def Obligations.AluResults : Prop := ∀ (s : State) (e : EngId) (w : Nat) (d : Dev),
  let a := d.reg e (iRd w)
  let b := d.reg e (iRs w)
  let n := bitsOf (iImm w) 0 6
  let result := fun (t : State) (v : Nat) => RdTakes t.dev e (iRd w) v ∧
    t.dev.rg .ENG_FLAGS_ZERO e = b2n (v % 2 ^ regWidth (iRd w) == 0) ∧ PcNext d t.dev e
  (Issues s e 5 0 w d → Completes (.ldi e) s (fun t => RdTakes t.dev e (iRd w) (iImm w) ∧ PcNext d t.dev e)) ∧
  (Issues s e 5 1 w d → Completes (.ldhi e) s (fun t =>
    RdTakes t.dev e (iRd w) (d.reg e (iRd w) % 2 ^ 32 + iImm w * 2 ^ 32) ∧ PcNext d t.dev e)) ∧
  (Issues s e 5 2 w d → Completes (.cpy e) s (fun t =>
    RdTakes t.dev e (iRd w) (d.reg e (iRs w)) ∧ PcNext d t.dev e)) ∧
  (Issues s e 7 0 w d → Completes (.trd e) s (fun t =>
    RdTakes t.dev e (iRd w) (if bitOf (iMod w) 0 then d.nowFrac % 2 ^ 16 + d.time.gen * 2 ^ 16 + d.quality * 2 ^ 24
      else d.nowNs) ∧ PcNext d t.dev e)) ∧
  (Issues s e 5 3 w d → Completes (.add e) s (fun t =>
    RdTakes t.dev e (iRd w) ((d.reg e (iRd w) + d.reg e (iRs w)) % 2 ^ 64) ∧
    t.dev.rg .ENG_FLAGS_ZERO e = b2n ((d.reg e (iRd w) + d.reg e (iRs w)) % 2 ^ 64 % 2 ^ regWidth (iRd w) == 0) ∧
    t.dev.rg .ENG_FLAGS_CARRY e = (d.reg e (iRd w) + d.reg e (iRs w)) / 2 ^ 64 % 2 ∧ PcNext d t.dev e)) ∧
  (Issues s e 5 4 w d → Completes (.addi e) s (fun t =>
    RdTakes t.dev e (iRd w) ((d.reg e (iRd w) + iSimm w) % 2 ^ 64) ∧
    t.dev.rg .ENG_FLAGS_ZERO e = b2n ((d.reg e (iRd w) + iSimm w) % 2 ^ 64 % 2 ^ regWidth (iRd w) == 0) ∧
    t.dev.rg .ENG_FLAGS_CARRY e = (d.reg e (iRd w) + iSimm w) / 2 ^ 64 % 2 ∧ PcNext d t.dev e)) ∧
  (Issues s e 5 5 w d → Completes (.sub e) s (fun t =>
    RdTakes t.dev e (iRd w) ((d.reg e (iRd w) + 2 ^ 64 - d.reg e (iRs w) % 2 ^ 64) % 2 ^ 64) ∧
    t.dev.rg .ENG_FLAGS_ZERO e
      = b2n ((d.reg e (iRd w) + 2 ^ 64 - d.reg e (iRs w) % 2 ^ 64) % 2 ^ 64 % 2 ^ regWidth (iRd w) == 0) ∧
    t.dev.rg .ENG_FLAGS_CARRY e = b2n (d.reg e (iRd w) < d.reg e (iRs w) % 2 ^ 64) ∧ PcNext d t.dev e)) ∧
  (Issues s e 5 12 w d → Completes (.cmp e) s (fun t =>
    t.dev.rg .ENG_FLAGS_ZERO e = b2n ((d.reg e (iRd w) + 2 ^ 64 - d.reg e (iRs w) % 2 ^ 64) % 2 ^ 64 == 0) ∧
    t.dev.rg .ENG_FLAGS_CARRY e = b2n (d.reg e (iRd w) < d.reg e (iRs w) % 2 ^ 64) ∧
    PcNext d t.dev e)) ∧
  (Issues s e 5 13 w d → Completes (.cmpi e) s (fun t =>
    t.dev.rg .ENG_FLAGS_ZERO e = b2n ((d.reg e (iRd w) + 2 ^ 64 - iSimm w % 2 ^ 64) % 2 ^ 64 == 0) ∧
    t.dev.rg .ENG_FLAGS_CARRY e = b2n (d.reg e (iRd w) < iSimm w % 2 ^ 64) ∧
    PcNext d t.dev e)) ∧
  (Issues s e 5 6 w d → Completes (.andI e) s (fun t => result t (a &&& b) ∧ t.dev.rg .ENG_FLAGS_CARRY e = 0)) ∧
  (Issues s e 5 7 w d → Completes (.orI e) s (fun t => result t (a ||| b) ∧ t.dev.rg .ENG_FLAGS_CARRY e = 0)) ∧
  (Issues s e 5 8 w d → Completes (.xorI e) s (fun t => result t (a ^^^ b) ∧ t.dev.rg .ENG_FLAGS_CARRY e = 0)) ∧
  (Issues s e 5 9 w d → Completes (.notI e) s (fun t =>
    result t (2 ^ 64 - 1 - b % 2 ^ 64) ∧ t.dev.rg .ENG_FLAGS_CARRY e = 0)) ∧
  (Issues s e 5 10 w d → Completes (.shl e) s (fun t => result t (a * 2 ^ n % 2 ^ 64) ∧
    t.dev.rg .ENG_FLAGS_CARRY e = if n = 0 then 0 else a / 2 ^ (64 - n) % 2)) ∧
  (Issues s e 5 11 w d → Completes (.shr e) s (fun t => result t (a / 2 ^ n) ∧
    t.dev.rg .ENG_FLAGS_CARRY e = if n = 0 then 0 else a / 2 ^ (n - 1) % 2)) ∧
  (Issues s e 5 16 w d → Completes (.crcw e) s (fun t =>
    result t (crcBytes (iMod w % 4) a (leBytes (bitsOf (iMod w) 2 3 + 1) b))))

/-- NOP, BR, BRR, CALL, RET and LOOP: where control goes, what RD takes, ZERO (R179, R201 to R203). -/
def Obligations.FlowTransfers : Prop := ∀ (s : State) (e : EngId) (w : Nat) (d : Dev),
  let pc := d.rg .ENG_PC_ADDR e
  let n := d.reg e (iRd w)
  (Issues s e 0 0 w d → Completes (.nop e) s (fun t => PcNext d t.dev e)) ∧
  (Issues s e 0 3 w d → ∃ c, Decides d e (iCond w) c ∧
    Completes (.br e) s (fun t => Branches d t.dev e (iTarget w) (iDelay w) c)) ∧
  (Issues s e 0 1 w d → ∃ c, Decides d e (iCond w) c ∧
    Completes (.brr e) s (fun t => Branches d t.dev e (d.reg e (iRs w) % 2 ^ 16) (iDelay w) c)) ∧
  (Issues s e 0 2 w d → Completes (.call e) s (fun t =>
    Branches d t.dev e (iTarget w) (iDelay w) (some true) ∧ RdTakes t.dev e (iRd w) (pc + 1 + iDelay w))) ∧
  (Issues s e 0 4 w d → Completes (.ret e) s (fun t =>
    Branches d t.dev e (d.reg e (iRs w) % 2 ^ 16) (iDelay w) (some true))) ∧
  (Issues s e 0 5 w d → Completes (.loopI e) s (fun t =>
    Branches d t.dev e (iTarget w) (iDelay w) (some (n != 0 && n != 1)) ∧
    (n = 0 → t.dev.reg e (iRd w) = 0 ∧ t.dev.rg .ENG_FLAGS_ZERO e = 1) ∧
    (n ≠ 0 → RdTakes t.dev e (iRd w) (n - 1) ∧ t.dev.rg .ENG_FLAGS_ZERO e = b2n (n == 1))))

/-- VPSET, VPADD, SLOOP, SLEND: the stream position, the pleat's progress, the loop window (R116, R125, R206). TAGSET, TSET,
TSETR, DMASK, FLOG, SFAIL, FCLR: what a row that issues later carries, the mask, the burst's mark, the cleared flags of an
engine without a tie group and without flag changes on their way (R207, R209 to R211). LVLI, LVL, TACK, TRIG, AWGS, AWGP,
AWGJ, DDCF: the pin-aligned action waits for the anchor row (R198, R208, R226, R228, R229). EI, DI, EVCLR, EVEN: event
enables and pending bits; an event that arises in the cycle of its EVCLR stays pending, ILLEGAL stays enabled (R183,
R230). -/
def Obligations.ProgramSettings : Prop := ∀ (s : State) (e : EngId) (w : Nat) (d : Dev),
  let moves := fun (t : State) (v : Nat) => t.dev.rg .ENG_VP e = v % 2 ^ 38 ∧ t.dev.rg .ENG_STR_PPOS_REP e = 0 ∧
    t.dev.rg .ENG_STR_PPOS_ROW e = 0 ∧ PcNext d t.dev e
  let window := fun (t : State) (held rem active : Nat) => t.dev.rg .ENG_BOB_LREM_HELD e = held ∧
    t.dev.rg .ENG_BOB_LREM_REM e = rem ∧ t.dev.rg .ENG_BOB_LREM_ACTIVE e = active ∧ PcNext d t.dev e
  let v := d.reg e (iRs w)
  let waits := fun (c : Instr) (a : Pal) => Completes c s (fun t =>
    (t.dev.eng e).anch = (d.eng e).anch ++ [a] ∧ PcNext d t.dev e)
  (Issues s e 1 3 w d → Completes (.vpset e) s (fun t => moves t (d.reg e (iRs w)))) ∧
  (Issues s e 1 4 w d → Completes (.vpadd e) s (fun t => moves t (d.rg .ENG_VP e + iSimm w))) ∧
  (Issues s e 1 5 w d → Completes (.sloop e) s (fun t => window t 0 (iImm w % 2 ^ 32) 1 ∧
    t.dev.rg .ENG_BOB_LSTART_START e = d.reg e (iRd w) % 2 ^ 38 ∧ t.dev.rg .ENG_BOB_LEND_END e = d.reg e (iRs w) % 2 ^ 38 ∧
    t.dev.rg .ENG_VP e = d.rg .ENG_VP e)) ∧
  (Issues s e 1 6 w d → Completes (.slend e) s (fun t => window t 0 0 0 ∧ t.dev.rg .ENG_VP e = d.rg .ENG_VP e)) ∧
  (Issues s e 1 7 w d → Completes (.tagset e) s (fun t => t.dev.rg .ENG_TAG e = iImm w % 2 ^ 16 ∧ PcNext d t.dev e)) ∧
  (Issues s e 2 0 w d → Completes (.tset e) s (fun t => t.dev.rg .ENG_TS e = iMod w % 2 ^ 6 ∧ PcNext d t.dev e)) ∧
  (Issues s e 2 1 w d → Completes (.tsetr e) s (fun t => t.dev.rg .ENG_TS e = v % 2 ^ 6 ∧ PcNext d t.dev e)) ∧
  (Issues s e 3 0 w d → Completes (.dmask e) s (fun t => PcNext d t.dev e ∧ (t.dev.eng e).dmask =
    (if iMod w = 0 then v else if iMod w = 1 then (d.eng e).dmask ||| v else (d.eng e).dmask &&& (v ^^^ (2 ^ 64 - 1))))) ∧
  (Issues s e 3 1 w d → Completes (.flog e) s (fun t => PcNext d t.dev e ∧ (t.dev.eng e).susp = (iMod w == 0))) ∧
  (Issues s e 3 3 w d → Completes (.sfail e) s (fun t => PcNext d t.dev e ∧ (t.dev.eng e).mark = true)) ∧
  (Issues s e 3 2 w d → d.tied e = false → (d.eng e).flagQ = [] → Completes (.fclr e) s (fun t =>
    PcNext d t.dev e ∧ t.dev.rg .ENG_FLAGS_FAIL e = 0 ∧ t.dev.rg .ENG_FLAGS_TFAIL e = 0 ∧
    t.dev.rg .ENG_FLAGS_MATCH e = (if iMod w % 2 = 1 then 0 else b2n (d.on .ENG_FLAGS_MATCH e)) ∧
    t.dev.rg .ENG_FLAGS_TMATCH e = (if iMod w % 2 = 1 then 0 else b2n (d.on .ENG_FLAGS_MATCH e)))) ∧
  (Issues s e 2 2 w d → waits (.lvli e) (.lvl (2 * (e / 16) + iMod w) (iImm w))) ∧
  (Issues s e 2 3 w d → waits (.lvl e) (.lvl (2 * (e / 16) + iMod w) (v % 2 ^ 32))) ∧
  (Issues s e 7 3 w d → iMod w % 2 = 0 → waits (.tack e) (.tack (iImm w % 2 ^ 16))) ∧
  (Issues s e 8 0 w d → iMod w / 16 % 2 = 0 → waits (.trig e) (.trig (iMod w % 16))) ∧
  (Issues s e 9 0 w d → waits (.awgs e) (.awgs (iMod w) (iImm w % 2 ^ 12))) ∧
  (Issues s e 9 1 w d → waits (.awgp e) (.awgp (iMod w))) ∧
  (Issues s e 9 2 w d → waits (.awgj e) (.awgj (iMod w % 8) (iImm w % 2 ^ 12) (iMod w / 8 % 2 == 1))) ∧
  (Issues s e 9 3 w d → waits (.ddcf e) (.ddcf (iMod w) (v % 2 ^ 48))) ∧
  (Issues s e 10 0 w d → Completes (.ei e) s (fun t => t.dev.rg .ENG_ESTAT_IE e = 1 ∧ PcNext d t.dev e)) ∧
  (Issues s e 10 1 w d → Completes (.diI e) s (fun t => t.dev.rg .ENG_ESTAT_IE e = 0 ∧ PcNext d t.dev e)) ∧
  (Issues s e 10 2 w d → Completes (.evclr e) s (fun t => PcNext d t.dev e ∧
    ∀ k < 16, (t.dev.rg .ENG_EV_PEND_PEND e).testBit k = ((d.rg .ENG_EV_PEND_PEND e).testBit k && (k != iMod w ||
      (d.eng e).evFrom.any (fun p => p.k == k && cycleOf p.arose == cycleOf d.tick))))) ∧
  (Issues s e 10 3 w d → Completes (.even e) s (fun t => PcNext d t.dev e ∧
    ∀ k < 16, (t.dev.rg .ENG_EV_EN_EN e).testBit k = (k == 7 || (d.reg e (iRs w)).testBit k)))

/-- The frame of the ALU, flow, stream-position, row-setting, anchored and event-control instructions: of the register
fields, the program counter and those named may change, RD's, and ZERO and CARRY where the instruction sets them; CMP and
CMPI write no register; every other field and every byte of memory stays. The choices of the model in it: log 15. -/
def Obligations.InstructionFrames : Prop := ∀ (s : State) (e : EngId) (w : Nat) (d : Dev),
  let keeps := fun (c : Instr) (l : List RegKey) => Completes c s (KeepsAllBut (⟨.ENG_PC_ADDR, e, 0⟩ :: l) s.mem d)
  let f := fun (x : Field) => (⟨x, e, 0⟩ : RegKey)
  let window := [f .ENG_BOB_LREM_ACTIVE, f .ENG_BOB_LREM_HELD, f .ENG_BOB_LREM_REM]
  let rd := regKeys e (iRd w)
  let zc := [f .ENG_FLAGS_ZERO, f .ENG_FLAGS_CARRY]
  (Issues s e 5 0 w d → keeps (.ldi e) rd) ∧ (Issues s e 5 1 w d → keeps (.ldhi e) rd) ∧
  (Issues s e 5 2 w d → keeps (.cpy e) rd) ∧ (Issues s e 7 0 w d → keeps (.trd e) rd) ∧
  (Issues s e 5 3 w d → keeps (.add e) (zc ++ rd)) ∧ (Issues s e 5 4 w d → keeps (.addi e) (zc ++ rd)) ∧
  (Issues s e 5 5 w d → keeps (.sub e) (zc ++ rd)) ∧ (Issues s e 5 6 w d → keeps (.andI e) (zc ++ rd)) ∧
  (Issues s e 5 7 w d → keeps (.orI e) (zc ++ rd)) ∧ (Issues s e 5 8 w d → keeps (.xorI e) (zc ++ rd)) ∧
  (Issues s e 5 9 w d → keeps (.notI e) (zc ++ rd)) ∧ (Issues s e 5 10 w d → keeps (.shl e) (zc ++ rd)) ∧
  (Issues s e 5 11 w d → keeps (.shr e) (zc ++ rd)) ∧ (Issues s e 5 12 w d → keeps (.cmp e) zc) ∧
  (Issues s e 5 13 w d → keeps (.cmpi e) zc) ∧
  (Issues s e 5 16 w d → keeps (.crcw e) (f .ENG_FLAGS_ZERO :: rd)) ∧
  (Issues s e 0 0 w d → keeps (.nop e) []) ∧ (Issues s e 0 1 w d → keeps (.brr e) []) ∧
  (Issues s e 0 2 w d → keeps (.call e) (regKeys e (iRd w))) ∧ (Issues s e 0 3 w d → keeps (.br e) []) ∧
  (Issues s e 0 4 w d → keeps (.ret e) []) ∧
  (Issues s e 0 5 w d → keeps (.loopI e) (f .ENG_FLAGS_ZERO :: regKeys e (iRd w))) ∧
  (Issues s e 1 3 w d → keeps (.vpset e) (regKeys e 0x33)) ∧ (Issues s e 1 4 w d → keeps (.vpadd e) (regKeys e 0x33)) ∧
  (Issues s e 1 5 w d → keeps (.sloop e) (f .ENG_BOB_LSTART_START :: f .ENG_BOB_LEND_END :: window)) ∧
  (Issues s e 1 6 w d → keeps (.slend e) window) ∧ (Issues s e 1 7 w d → keeps (.tagset e) [f .ENG_TAG]) ∧
  (Issues s e 2 0 w d → keeps (.tset e) [f .ENG_TS]) ∧ (Issues s e 2 1 w d → keeps (.tsetr e) [f .ENG_TS]) ∧
  (Issues s e 2 2 w d → keeps (.lvli e) []) ∧ (Issues s e 2 3 w d → keeps (.lvl e) []) ∧
  (Issues s e 3 0 w d → keeps (.dmask e) []) ∧ (Issues s e 3 1 w d → keeps (.flog e) []) ∧
  (Issues s e 3 3 w d → keeps (.sfail e) []) ∧ (Issues s e 9 0 w d → keeps (.awgs e) []) ∧
  (Issues s e 9 1 w d → keeps (.awgp e) []) ∧ (Issues s e 9 2 w d → keeps (.awgj e) []) ∧
  (Issues s e 9 3 w d → keeps (.ddcf e) []) ∧ (Issues s e 10 0 w d → keeps (.ei e) [f .ENG_ESTAT_IE]) ∧
  (Issues s e 10 1 w d → keeps (.diI e) [f .ENG_ESTAT_IE]) ∧ (Issues s e 10 2 w d → keeps (.evclr e) [f .ENG_EV_PEND_PEND]) ∧
  (Issues s e 10 3 w d → keeps (.even e) [f .ENG_EV_EN_EN]) ∧ (Issues s e 6 3 w d → keeps (.fence e) [])

/-- VEC, VRPT, VPAD, AVEC, MARCH and MWAIT: PROG0 starts at the rows to emit, MARCH's XA and YA at one corner of the array,
AVEC's and MARCH's CARRY at 0; an instruction that ERET resumes keeps them. No rows end the instruction at once, MWAIT then
with ZERO and TIMEOUT; otherwise emission begins, and without room in the emission queue it holds at the same program
counter (R199, R204, R205, R212, R215, R216). The last row of a VEC completes it. A row that issues enters the queue last
with the vector count, timing set, tag, dynamic mask, fail-log state and pin-aligned actions that hold as it issues; the
anchor list is then empty (R78, R197, R198). The choices of the model in it: log 14, 34, 75. -/
def Obligations.RowsIssue : Prop := (∀ (s : State) (e : EngId) (w : Nat) (d : Dev),
    let fresh := (d.eng e).resumed = false
    let same := fun (t : State) => (t.dev.eng e).act = some w ∧ (t.dev.eng e).queue = (d.eng e).queue ∧
      t.dev.rg .ENG_PC_ADDR e = d.rg .ENG_PC_ADDR e
    let starts := fun (c : Nat → Instr) (P : State → Prop) =>
      Completes (c 0) s (fun t => same t ∧ P t ∧ ∀ k, exec (c k) s = exec (c k) t) ∧
      (255 ≤ (d.eng e).queue.length → ∀ k, Completes (c k) s (fun t => same t ∧ P t))
    let rows := fun (c : Nat → Instr) (n : Nat) =>
      let r := if (d.eng e).resumed then d.prog e 0 else n
      (r = 0 → ∀ k, Completes (c k) s (fun t => t.dev.prog e 0 = 0 ∧ PcNext d t.dev e)) ∧
      (r ≠ 0 → starts c (fun t => t.dev.prog e 0 = r))
    let n := if iMod w % 2 = 1 then d.reg e (iRs w) % 2 ^ 32 else iImm w
    let x := d.rg .ENG_APG_XMAX_XMAX e
    let y := d.rg .ENG_APG_YMAX_YMAX e
    let down := iMod w % 2 = 1
    (Issues s e 1 0 w d → rows (.vec e ·) n) ∧ (Issues s e 1 1 w d → rows (.vrpt e ·) n) ∧
    (Issues s e 1 2 w d → rows (.vpad e ·) (iImm w)) ∧ (Issues s e 4 0 w d → rows (.avec e ·) (iImm w)) ∧
    (Issues s e 4 0 w d → Completes (.avec e 0) s (fun t => t.dev.rg .ENG_FLAGS_CARRY e =
      if (d.eng e).resumed then d.rg .ENG_FLAGS_CARRY e else 0)) ∧
    (Issues s e 4 1 w d → fresh → Completes (.march e 0) s (fun t =>
      t.dev.rg .ENG_XA e = (if down then x else 0) % 2 ^ 32 ∧ t.dev.rg .ENG_YA e = (if down then y else 0) % 2 ^ 32 ∧
      t.dev.prog e 0 = (x + 1) * (y + 1) % 2 ^ 64 ∧ t.dev.prog e 1 = 0 ∧ t.dev.rg .ENG_FLAGS_CARRY e = 0 ∧
      ((x + 1) * (y + 1) % 2 ^ 64 = 0 → t.dev.rg .ENG_FLAGS_ZERO e = 1 ∧ PcNext d t.dev e))) ∧
    (Issues s e 4 1 w d → fresh → (x + 1) * (y + 1) % 2 ^ 64 ≠ 0 → starts (.march e ·) (fun t =>
      t.dev.prog e 0 = (x + 1) * (y + 1) % 2 ^ 64)) ∧
    (Issues s e 4 1 w d → ¬fresh → d.prog e 0 ≠ 0 → starts (.march e ·) (fun t => t.dev.prog e 0 = d.prog e 0 ∧
      t.dev.prog e 1 = d.prog e 1 ∧ t.dev.rg .ENG_XA e = d.rg .ENG_XA e ∧ t.dev.rg .ENG_YA e = d.rg .ENG_YA e)) ∧
    (Issues s e 3 4 w d → iImm w = 0 → ∀ k, Completes (.mwait e k) s (fun t => t.dev.rg .ENG_FLAGS_ZERO e = 1 ∧
      PcNext d t.dev e ∧ (t.dev.rg .ENG_EV_PEND_PEND e).testBit 1)) ∧
    (Issues s e 3 4 w d → iImm w ≠ 0 → fresh → starts (.mwait e ·) (fun t => t.dev.prog e 0 = iImm w ∧
      t.dev.prog e 1 = 2 ^ 64 - 1 ∧ t.dev.prog e 2 = (d.eng e).issued % 2 ^ 64)) ∧
    (Issues s e 3 4 w d → iImm w ≠ 0 → ¬fresh → starts (.mwait e ·) (fun t => ∀ i, t.dev.prog e i = d.prog e i))) ∧
  (∀ (s : State) (e : EngId) (w row k : Nat) (x y z : Dev), (s.dev.eng e).act = some w → iCls w = 1 → iOp w = 0 →
    s.dev.goesOn e = true → s.dev.storeClean e → s.dev.roomForTwo e = true → s.dev.prog e 0 = 1 →
    (s.dev.estate e = 1 ∨ s.dev.estate e = 2) →
    x = ((s.dev.advanceTo (s.dev.eng e).free).micro e w 1).2 → x.curRow s.mem e = (some row, y) →
    y.emitRow s.mem e row 0 (y.execCycle e) = (true, z) → Completes (.vec e (k + 1)) s (fun t =>
      t.dev.prog e 0 = 0 ∧ (t.dev.eng e).act = none ∧ (t.dev.eng e).queue = (z.eng e).queue ∧ PcNext s.dev t.dev e)) ∧
  (∀ (d t : Dev) (m : List Host.Cell) (e word pinw u : Nat),
    d.emitRow m e word pinw u = (true, t) → ∃ row, (t.eng e).queue = (d.eng e).queue ++ [row] ∧
      row.vcnt = (d.eng e).issued ∧ (t.eng e).issued = (d.eng e).issued + 1 ∧ row.tset = d.rg .ENG_TS e ∧
      row.tag = d.rg .ENG_TAG e ∧ row.word = word ∧ row.dmask = (d.eng e).dmask ∧ row.flog = !(d.eng e).susp ∧
      row.acts = (d.eng e).anch ∧ (t.eng e).anch = [] ∧ t.rg .ENG_CMP_DMASK_DMASK e = (d.eng e).dmask % 2 ^ 64)

/-- TWAIT, SWAIT, TRGW, EVWAIT and FENCE: PROG0 keeps the deadline (0 for no limit), TWAIT its target and generation; a
target already reached ends TWAIT at once with CARRY; otherwise the instruction holds, and without r no row is emitted; one
that ERET resumes keeps what PROG0 to PROG3 hold. WAIT_END and FENCE_COMPLETE: a wait without r whose condition is met ends
with ZERO 0, TWAIT with CARRY 0 too, SWAIT and TRGW consuming their event; one that meets its limit first ends then with
ZERO 1 and TIMEOUT; FENCE ends when its engine's writes are complete (R199, R223 to R225, R228, R230). The choices of the
model in it: log 34, 35. -/
def Obligations.Waits : Prop := ∀ (s : State) (e : EngId) (w : Nat) (d : Dev),
  let limit := if iImm w = 0 then 0 else (d.nowNs + 1000 * iImm w) % 2 ^ 64
  let fresh := (d.eng e).resumed = false
  let quiet := iMod w < 0x20
  let holds := fun (c : Nat → Instr) => ∀ k, (k = 0 ∨ quiet) → Completes (c k) s (fun t =>
    t.dev.prog e 0 = (if (d.eng e).resumed then d.prog e 0 else limit) ∧ (t.dev.eng e).act = some w ∧
    (fresh → (t.dev.eng e).waitFrom = d.tick) ∧ (t.dev.eng e).queue = (d.eng e).queue ∧
    t.dev.rg .ENG_PC_ADDR e = d.rg .ENG_PC_ADDR e ∧ t.mem = s.mem)
  let o := s.dev
  let ended := fun (t : State) => (t.dev.eng e).act = none ∧ PcNext o t.dev e
  let waiting := (o.eng e).act = some w ∧ o.goesOn e = true ∧ (o.eng e).recov = none ∧ quiet
  (Issues s e 7 1 w d → fresh → (quiet ∨ d.on .ENG_STR_CTRL_FORM e = false) → d.reg e (iRs w) % 2 ^ 64 ≤ d.nowNs →
    ∀ k, Completes (.twait e k) s (fun t => t.dev.rg .ENG_FLAGS_CARRY e = 1 ∧ t.dev.rg .ENG_FLAGS_ZERO e = 0 ∧
      PcNext d t.dev e)) ∧
  (Issues s e 7 1 w d → fresh → d.nowNs < d.reg e (iRs w) % 2 ^ 64 → holds (.twait e ·)) ∧
  (Issues s e 7 1 w d → fresh → d.nowNs < d.reg e (iRs w) % 2 ^ 64 → Completes (.twait e 0) s (fun t =>
    t.dev.prog e 1 = d.reg e (iRs w) % 2 ^ 64 ∧ t.dev.prog e 2 = d.time.gen % 2 ^ 64)) ∧
  (Issues s e 7 1 w d → ¬fresh → holds (.twait e ·)) ∧
  (Issues s e 7 2 w d → holds (.swait e ·)) ∧
  (Issues s e 8 1 w d → holds (.trgw e ·)) ∧
  (Issues s e 10 4 w d → holds (.evwait e ·)) ∧
  (Issues s e 6 3 w d → Completes (.fence e) s (fun t => (t.dev.eng e).act = some w ∧
    (fresh → (t.dev.eng e).waitFrom = d.tick) ∧ t.dev.rg .ENG_PC_ADDR e = d.rg .ENG_PC_ADDR e)) ∧
  (waiting → iCls w = 7 → iOp w = 1 → o.prog e 1 ≤ o.nowNs → Completes (.waitEnd e) s (fun t => ended t ∧
    t.dev.rg .ENG_FLAGS_ZERO e = 0 ∧ t.dev.rg .ENG_FLAGS_CARRY e = 0)) ∧
  (waiting → iCls w = 7 → iOp w = 2 → o.arose e 3 → Completes (.waitEnd e) s (fun t => ended t ∧
    t.dev.rg .ENG_FLAGS_ZERO e = 0 ∧ t.dev.rg .ENG_EV_PEND_PEND e = setBits (o.rg .ENG_EV_PEND_PEND e) 3 1 0 % 2 ^ 16)) ∧
  (waiting → iCls w = 8 → iOp w = 1 → o.arose e 2 → Completes (.waitEnd e) s (fun t => ended t ∧
    t.dev.rg .ENG_FLAGS_ZERO e = 0 ∧ t.dev.rg .ENG_EV_PEND_PEND e = setBits (o.rg .ENG_EV_PEND_PEND e) 2 1 0 % 2 ^ 16)) ∧
  (waiting → iCls w = 10 → iOp w = 4 → o.eventFlag e → Completes (.waitEnd e) s (fun t => ended t ∧
    t.dev.rg .ENG_FLAGS_ZERO e = 0 ∧ t.dev.rg .ENG_EV_PEND_PEND e = o.rg .ENG_EV_PEND_PEND e)) ∧
  (waiting → iCls w = 10 → iOp w = 4 → o.eventFlag e = false → o.prog e 0 ≠ 0 → Completes (.waitEnd e) s (fun t => ended t ∧
    t.dev.rg .ENG_FLAGS_ZERO e = 1 ∧ (t.dev.rg .ENG_EV_PEND_PEND e).testBit 1 ∧
    t.dev.tick = max o.tick (o.tickOfNs (o.prog e 0)))) ∧
  ((o.eng e).act = some w → iCls w = 6 → iOp w = 3 → Completes (.fenceComplete e) s ended)

/-- CRC, FILL, MOV and BLKCMP: a length of 0 completes with ZERO 1 and CARRY 0; a line that its port cannot serve yet holds
the instruction; a memory fault stops it with CARRY 1 and ZERO 0, PROG0 at the code word that faults; over a range inside
one code word, CRC folds its bytes into RD, FILL writes RD twice and MOV copies, each changing those 16 bytes of memory
alone, and BLKCMP of equal bytes sets ZERO; PROG1 reaches 0. A command that covers no iteration issues the instruction
alone; one that ERET resumes keeps what PROG0 to PROG3 hold (R199, R220 to R222). The choices of the model in it: log 34,
38. -/
def Obligations.BlockOperations : Prop := ∀ (s : State) (e : EngId) (w : Nat) (d : Dev),
  let fresh := (d.eng e).resumed = false
  let a := d.reg e (iRs w) % 2 ^ 38
  let n := d.reg e (iRs w + 1)
  let b := d.reg e (iRd w) % 2 ^ 38
  let some_ := fresh ∧ 0 < n ∧ n < 2 ^ 64
  let flags := fun (t : State) (z c : Nat) => t.dev.rg .ENG_FLAGS_ZERO e = z ∧ t.dev.rg .ENG_FLAGS_CARRY e = c ∧
    PcNext d t.dev e
  let empty := fun (c : Nat → Instr) => fresh → n = 0 → ∀ k, Completes (c k) s (fun t =>
    flags t 1 0 ∧ t.dev.prog e 0 = a ∧ t.dev.prog e 1 = 0 ∧ t.mem = s.mem)
  let holds := fun (c : Nat → Instr) (k : Nat) => Completes (c k) s (fun t => (t.dev.eng e).act = some w ∧ t.mem = s.mem ∧
    t.dev.rg .ENG_PC_ADDR e = d.rg .ENG_PC_ADDR e ∧
    t.dev.prog e 0 = (if (d.eng e).resumed then d.prog e 0 else a) ∧
    t.dev.prog e 1 = (if (d.eng e).resumed then d.prog e 1 else n % 2 ^ 64))
  let faulted := fun (c : Nat → Instr) (p : Nat) => ∀ k, Completes (c (k + 1)) s (fun t =>
    flags t 0 1 ∧ t.dev.prog e 0 = p ∧ t.dev.prog e 1 = n ∧ t.mem = s.mem)
  let near := (b + n - 1) % 2 ^ 38
  let open_ := fun (x : Nat) => d.awgGuard (x / 256) = none ∧ d.unzeroed (x / 256) = false ∧ d.errs = []
  let same := fun (t : State) (x : Nat) => ∀ y, (y < dramBase + x ∨ dramBase + x + 16 ≤ y) → memGet t.mem y = memGet s.mem y
  let one := fun (c : Nat → Instr) (P : State → Prop) => ∀ k, Completes (c (k + 1)) s (fun t => P t ∧ t.dev.prog e 1 = 0)
  let bytes := d.portRead s.mem 0x0B a n
  let other := d.portRead s.mem 0x0B b n
  (Issues s e 5 17 w d → empty (.crc e ·)) ∧ (Issues s e 6 0 w d → empty (.fill e ·)) ∧
  (Issues s e 6 1 w d → empty (.movI e ·)) ∧ (Issues s e 6 2 w d → empty (.blkcmp e ·)) ∧
  (Issues s e 5 17 w d → ¬(fresh ∧ n = 0) → holds (.crc e ·) 0) ∧ (Issues s e 6 0 w d → ¬(fresh ∧ n = 0) → holds (.fill e ·) 0) ∧
  (Issues s e 6 1 w d → ¬(fresh ∧ n = 0) → holds (.movI e ·) 0) ∧
  (Issues s e 6 2 w d → ¬(fresh ∧ n = 0) → holds (.blkcmp e ·) 0) ∧
  (∀ k, Issues s e 5 17 w d → some_ → d.blkPath a = .waits → holds (.crc e ·) k) ∧
  (∀ k, Issues s e 6 0 w d → some_ → d.blkInto a = .waits → holds (.fill e ·) k) ∧
  (∀ k, Issues s e 6 1 w d → some_ → (d.blkPath a = .waits ∨ d.blkInto b = .waits) → holds (.movI e ·) k) ∧
  (∀ k, Issues s e 6 2 w d → some_ → (d.blkPath a = .waits ∨ d.blkPath b = .waits) → holds (.blkcmp e ·) k) ∧
  (Issues s e 5 17 w d → some_ → d.blkPath a = .faults → faulted (.crc e ·) (a / 16 * 16)) ∧
  (Issues s e 6 0 w d → some_ → d.blkInto a = .faults → faulted (.fill e ·) a) ∧
  (Issues s e 6 1 w d → some_ → n ≤ 256 - a % 256 → d.blkPath a = .faults → d.blkInto b ≠ .waits → d.blkInto near ≠ .waits →
    faulted (.movI e ·) a) ∧
  (Issues s e 6 2 w d → some_ → n ≤ 256 - a % 256 → d.blkPath a = .faults → d.blkPath b ≠ .waits → d.blkPath near ≠ .waits →
    faulted (.blkcmp e ·) (a / 16 * 16)) ∧
  (Issues s e 5 17 w d → some_ → n ≤ 16 - a % 16 → iRd w < 0x34 → d.blkPath a = .served → bytes.2.1 = false →
    one (.crc e ·) (fun t => RdTakes t.dev e (iRd w) (crcBytes (iMod w % 4) (d.reg e (iRd w)) bytes.1) ∧
      flags t (b2n (t.dev.reg e (iRd w) == 0)) 0 ∧ t.mem = s.mem)) ∧
  (s.wf → Issues s e 6 0 w d → fresh → n = 16 → iRd w < 0x34 → d.blkInto a = .served → open_ a → one (.fill e ·) (fun t =>
    (∀ k < 16, memGet t.mem (dramBase + a + k) = d.reg e (iRd w) / 256 ^ (k % 8) % 256) ∧ same t a ∧
    t.dev.rg .ENG_FLAGS_CARRY e = 0 ∧ PcNext d t.dev e)) ∧
  (s.wf → Issues s e 6 1 w d → fresh → n = 16 → d.blkPath a = .served → d.blkInto b = .served → open_ a → open_ b →
    dramBase + a ∉ d.poison → one (.movI e ·) (fun t =>
      (∀ k < 16, memGet t.mem (dramBase + b + k) = memGet s.mem (dramBase + a + k)) ∧ same t b ∧
      t.dev.rg .ENG_FLAGS_CARRY e = 0 ∧ PcNext d t.dev e)) ∧
  (Issues s e 6 2 w d → some_ → n ≤ 16 - a % 16 → n ≤ 16 - b % 16 → d.blkPath a = .served → d.blkPath b = .served →
    bytes.2.1 = false → other.2.1 = false → bytes.1 = other.1 → one (.blkcmp e ·) (fun t => flags t 1 0 ∧ t.mem = s.mem))

/-- END and ENG_HALT: issue stops and the engine is in ENDING; after END queued rows run out and the end keeps the program's
mark, a halt by the host discards them; the end keeps its cause and its instant (R177, R187). -/
def Obligations.EndsOfIssue : Prop := ∀ (s : State) (e : EngId) (w : Nat) (d : Dev),
  let stopped := fun (d : Dev) (t : State) (reason : Nat) (drain : Bool) => t.dev.rg .ENG_STAT_STATE e = 3 ∧
    (t.dev.eng e).act = none ∧ (t.dev.eng e).br = none ∧ (t.dev.eng e).ending = some ⟨reason, e, d.tick, drain⟩
  (Issues s e 0 6 w d → Completes (.endI e) s (fun t => stopped d t 0 true ∧ (t.dev.eng e).queue = (d.eng e).queue ∧
    (t.dev.eng e).mark = ((d.eng e).mark || iMod w % 2 == 1))) ∧
  (s.dev.domOn (3 + e / 16) = true → (s.dev.estate e = 1 ∨ s.dev.estate e = 2) → (s.dev.eng e).ending = none →
    (s.dev.eng e).recov = none → s.dev.tied e = false → Completes (.engHalt e) s (fun t => stopped s.dev t 0x11 false ∧ (t.dev.eng e).queue = [])) ∧
  (s.dev.domOn (3 + e / 16) = true → s.dev.estate e ≠ 1 → s.dev.estate e ≠ 2 → exec (.engHalt e) s = .next s)

/-- EVENT_TAKEN, ERET and EV_SET_HOST: the lowest event that is pending, enabled and vectored is entered at a boundary or at
a restart point, which saves the program counter and the flags, with RESUME at a restart point, and clears the event and IE;
an EVWAIT is complete then; ERET restores what was saved, with RESUME the instruction at EPC going on from PROG0 to PROG3;
HOST is raised on a running untied engine (R182 to R185, R190, R230). The choices of the model in it: log 15, 34. -/
def Obligations.EventsAndReturn : Prop := ∀ (s : State) (e : EngId) (w : Nat) (d : Dev),
  let o := s.dev
  let can := fun (k : Nat) => k ≠ 7 ∧ (o.rg .ENG_EV_PEND_PEND e).testBit k ∧ (o.rg .ENG_EV_EN_EN e).testBit k ∧
    o.rgi .ENG_EV_VEC_VALID e k = 1 ∧ o.waitsOn e k = false ∧
    ∀ p, (o.eng e).evFrom.find? (·.k == k) = some p → p.from_ ≤ o.tick
  let stands := o.estate e = 2 ∧ (o.eng e).br = none ∧ (o.eng e).miss = none ∧ (o.eng e).recov = none ∧
    (o.eng e).pcOver = false ∧ o.on .ENG_ESTAT_IE e = true
  let entered := fun (k pc resume sz : Nat) => Completes (.eventTaken e) s (fun t => t.dev.rg .ENG_EPC e = pc % 2 ^ 16 ∧
      t.dev.rg .ENG_PC_ADDR e = o.rgi .ENG_EV_VEC_ADDR e k % 2 ^ 16 ∧ t.dev.rg .ENG_ESTAT_INHANDLER e = 1 ∧
      t.dev.rg .ENG_ESTAT_IE e = 0 ∧ t.dev.rg .ENG_ESTAT_RESUME e = resume ∧ t.dev.rg .ENG_ESTAT_EVNUM e = k ∧
      t.dev.rg .ENG_ESTAT_SZERO e = sz ∧ t.dev.rg .ENG_ESTAT_SCARRY e = o.rg .ENG_FLAGS_CARRY e % 2 ∧
      t.dev.rg .ENG_EV_PEND_PEND e = setBits (o.rg .ENG_EV_PEND_PEND e) k 1 0 % 2 ^ 16 ∧ (t.dev.eng e).act = none)
  (Issues s e 0 7 w d → Completes (.eret e) s (fun t =>
    t.dev.rg .ENG_FLAGS_ZERO e = d.rg .ENG_ESTAT_SZERO e % 2 ∧ t.dev.rg .ENG_FLAGS_CARRY e = d.rg .ENG_ESTAT_SCARRY e % 2 ∧
    t.dev.rg .ENG_ESTAT_INHANDLER e = 0 ∧ t.dev.rg .ENG_ESTAT_IE e = 1 ∧
    t.dev.rg .ENG_PC_ADDR e = d.rg .ENG_EPC e % 2 ^ 16 ∧ (t.dev.eng e).act = none ∧
    (t.dev.eng e).resumed = d.on .ENG_ESTAT_RESUME e ∧ t.mem = s.mem)) ∧
  (∀ k < 11, stands → (o.eng e).act = none →
    (∃ v, (o.fetch s.mem e).1 = some v ∧ (opUse (iCls v) (iOp v) (iMod v)).isSome) → can k → (∀ j < k, ¬can j) →
    entered k (o.rg .ENG_PC_ADDR e) (b2n (o.eng e).resumed) (o.rg .ENG_FLAGS_ZERO e % 2)) ∧
  (∀ k < 11, stands → (o.eng e).act = some w → (o.eng e).atPoint = true → isEmit w = false → isHoldEmit w = false →
    ¬(iCls w = 10 ∧ iOp w = 4) → can k → (∀ j < k, ¬can j) →
    entered k (o.rg .ENG_PC_ADDR e) 1 (o.rg .ENG_FLAGS_ZERO e % 2)) ∧
  (∀ k < 11, stands → (o.eng e).act = some w → (o.eng e).atPoint = true → iCls w = 10 → iOp w = 4 → iMod w < 0x20 →
    can k → (∀ j < k, ¬can j) → entered k (o.rg .ENG_PC_ADDR e + 1) 0 0) ∧
  (o.domOn (3 + e / 16) = true → o.tied e = false → o.runs e = true → Completes (.evSetHost e) s (fun t =>
    t.dev.rg .ENG_EV_PEND_PEND e = (o.rg .ENG_EV_PEND_PEND e ||| 1) % 2 ^ 16))

/-- BRANCH_DECISION, MWAIT_DECISION and FLAG_VISIBLE: a delayed branch is decided from the flags visible 40 cycles, and the
tie latency for a combined flag, after its row resolves; MWAIT ends on the first counted row that shows a match, with ZERO 0
and PROG1 at its vector count, or on the last one without, with ZERO 1; a fail on an untied engine sets FAIL and TFAIL
(R141, R179, R212). -/
def Obligations.Decisions : Prop := ∀ (s : State) (e : EngId) (w : Nat),
  let d := s.dev
  let x := d.eng e
  (∀ (b : Brn) (t0 : Nat), x.br = some b → b.decided = none → b.tr = some t0 →
    let due := t0 + 40 * 4000 + (if 5 ≤ b.cond then d.tieLat e * 4000 else 0)
    let y := (d.advanceTo due).flagsUpTo e due flagFuel
    (b.left = 0 → Completes (.branchDecision e) s (fun t => (t.dev.eng e).br = none ∧
      t.dev.rg .ENG_PC_ADDR e = (if y.cond e b.cond then b.target else b.after) % 2 ^ 16)) ∧
    (b.left ≠ 0 → Completes (.branchDecision e) s (fun t =>
      (t.dev.eng e).br = some { b with decided := some (y.cond e b.cond) }))) ∧
  (∀ v : Nat, x.act = some w → iCls w = 3 → iOp w = 4 → iMod w % 2 = 0 → d.goesOn e = true → x.recov = none → d.tick < x.free →
    x.judged = [(v, true)] → d.prog e 2 ≤ v → v < d.prog e 2 + iImm w → Completes (.mwaitDecision e) s (fun t =>
      t.dev.prog e 1 = v % 2 ^ 64 ∧ t.dev.rg .ENG_FLAGS_ZERO e = 0 ∧ (t.dev.eng e).act = none ∧ PcNext d t.dev e)) ∧
  (∀ v : Nat, x.act = some w → iCls w = 3 → iOp w = 4 → iMod w % 2 = 0 → d.goesOn e = true → x.recov = none → d.tick < x.free →
    x.judged = [(v, false)] → d.prog e 2 ≤ v → v + 1 = d.prog e 2 + iImm w →
    Completes (.mwaitDecision e) s (fun t => t.dev.prog e 1 = d.prog e 1 ∧ t.dev.rg .ENG_FLAGS_ZERO e = 1 ∧
      (t.dev.rg .ENG_EV_PEND_PEND e).testBit 1 ∧ (t.dev.eng e).act = none ∧ PcNext d t.dev e)) ∧
  (∀ t0 : Nat, d.tied e = false → x.flagQ = [⟨t0, false, .fail⟩, ⟨t0, true, .fail⟩] → Completes (.flagVisible e) s (fun t =>
    t.dev.rg .ENG_FLAGS_FAIL e = 1 ∧ t.dev.rg .ENG_FLAGS_TFAIL e = 1 ∧ (t.dev.eng e).flagQ = [] ∧
    t.dev.tick = max d.tick t0))

/-- TACK and TRIG at issue, ACQARM, and PIN_ALIGNED_ACTION: a tack record with the issue mark enters the engine's tack
queue, a pulse reaches the acquisition units at the issue cycle, a grant arms its unit; at the anchor row the oldest action
takes place (R198, R226 to R228). -/
def Obligations.IssueActions : Prop := ∀ (s : State) (e : EngId) (w : Nat) (d : Dev),
  let o := s.dev
  let now := d.execCycle e
  (Issues s e 7 3 w d → iMod w % 2 = 1 → (d.eng e).tacks.length < 16 → Completes (.tack e) s (fun t =>
    (t.dev.eng e).tacks = (d.eng e).tacks ++ [(d.stampAt now (e + iImm w % 2 ^ 16 * 2 ^ 7 + 2 ^ 24), now)] ∧ PcNext d t.dev e)) ∧
  (Issues s e 8 0 w d → iMod w / 16 % 2 = 1 → Completes (.trig e) s (fun t =>
    t.dev.acqs = (d.pulse e (iMod w % 16) now).acqs ∧ (t.dev.eng e).anch = (d.eng e).anch ∧ PcNext d t.dev e)) ∧
  (Issues s e 8 2 w d → Completes (.acqarm e) s (fun t => t.dev.acqs = (d.acqArm (iMod w) (some e)).acqs ∧
    t.dev.rg .ACQ_STAT_STATE (iMod w) = (d.acqArm (iMod w) (some e)).rg .ACQ_STAT_STATE (iMod w) ∧ PcNext d t.dev e)) ∧
  (∀ (pd f t0 : Nat) (norow : Bool) (rest : List (Pal × Nat × Bool)), (o.eng e).palDue = (.lvl pd f, t0, norow) :: rest →
    Completes (.pinAlignedAction e) s (fun t => (t.dev.eng e).palDue = rest ∧
      t.dev.febs = (o.febPush pd (.engine e) f).febs)) ∧
  (∀ (v t0 : Nat) (norow : Bool) (rest : List (Pal × Nat × Bool)), (o.eng e).palDue = (.tack v, t0, norow) :: rest →
    (o.eng e).tacks.length < 16 → Completes (.pinAlignedAction e) s (fun t => (t.dev.eng e).palDue = rest ∧
      (t.dev.eng e).tacks = (o.eng e).tacks ++ [(o.stampAt t0 (e + v % 2 ^ 16 * 2 ^ 7 + b2n norow * 2 ^ 23), t0)]))

/-- FEB_HCMD, FEB_FLUSH, FEB_FRAME_START, FEB_FRAME_COMPLETE and FEB_ENGINE_FRAME_QUEUE: a frame queues with its parity
where there is room, an engine's ahead of a host's of its cycle, else it is dropped and counted; frames begin at the queue's
head and leave it as they end; a read that fails parity is repeated once, taking no entry; a host read gives its data, or
PERR after a second parity failure; a domain that is not on gives nothing (R45 to R54). The choices of the model in it: log
70, 81. -/
def Obligations.FrontEndBus : Prop := ∀ (s : State) (pd : PdId) (e : EngId) (fr : BitVec 32) (di : BitVec 17) (h : FebFrame)
    (q : List FebFrame),
  let d := s.dev
  let x := d.feb pd
  let on := d.domOn (11 + pd) = true
  let up := on ∧ ¬(11 + pd.val) ∈ d.quies
  let odd := parityOf 17 di.toNat ≠ 0
  let earlier := fun (l : List FebFrame) => ∀ y ∈ l, cycleOf y.at_ < cycleOf d.tick
  let engines := fun (l : List FebFrame) => l.filter (fun y => y.src.rank < 128)
  (up → x.queue.length ≤ 8 → earlier x.queue → Completes (.febHcmd pd fr) s (fun t =>
    (t.dev.feb pd).queue = x.queue ++ [⟨.host, febParity fr.toNat, d.tick⟩] ∧ t.dev.regs = d.regs)) ∧
  (up → 8 < x.queue.length → Completes (.febHcmd pd fr) s (fun t => t.dev.febs = d.febs ∧
    t.dev.rg .FEB_STAT_HDROP pd = min (d.rg .FEB_STAT_HDROP pd + 1) 255)) ∧
  (d.domOn (11 + pd) = false → Completes (.febHcmd pd fr) s (fun t => t.dev.febs = d.febs ∧
    t.dev.rg .FEB_STAT_OFFREJ pd = 1)) ∧
  (on → (x.busy = false ∨ x.retry ≠ none) → d.cal.wait = [] → earlier x.queue → Completes (.febFlush pd) s (fun t =>
    t.dev.regs = d.regs ∧ (t.dev.feb pd).queue = engines x.queue)) ∧
  (on → x.busy = true → x.retry = none → x.queue = h :: q → d.cal.wait = [] → earlier q → Completes (.febFlush pd) s (fun t =>
    t.dev.regs = d.regs ∧ (t.dev.feb pd).queue = h :: engines q)) ∧
  (on → d.on .FEB_CTRL_EN pd = true → x.busy = false → x.queue = h :: q → Completes (.febFrameStart pd) s (fun t =>
    (t.dev.feb pd).busy = true ∧ (t.dev.feb pd).queue = x.queue ∧ t.dev.out = d.out ++ [.feb pd h.bits])) ∧
  (¬on → exec (.febFrameStart pd) s = .next s) ∧
  (x.busy = true → x.retry = none → x.queue = h :: q → d.cal.wait = [] → (febIsRead h.bits = false ∨ ¬on) →
    Completes (.febFrameComplete pd di) s (fun t => (t.dev.feb pd).busy = false ∧ (t.dev.feb pd).queue = q ∧
      t.dev.regs = d.regs ∧ t.dev.out = d.out)) ∧
  (on → x.busy = true → x.retry = none → x.queue = h :: q → h.src = .host → d.cal.wait = [] → febIsRead h.bits = true → ¬odd →
    Completes (.febFrameComplete pd di) s (fun t => (t.dev.feb pd).queue = q ∧ t.dev.rg .FEB_HRD_VALID pd = 1 ∧
      t.dev.rg .FEB_HRD_ERR pd = 0 ∧ t.dev.rg .FEB_HRD_DATA pd = di.toNat / 2)) ∧
  (on → x.busy = true → x.retry = none → x.queue = h :: q → d.cal.wait = [] → febIsRead h.bits = true → odd →
    Completes (.febFrameComplete pd di) s (fun t => (t.dev.feb pd) = { queue := q, busy := true, retry := some h } ∧
      t.dev.out = d.out ++ [.feb pd h.bits] ∧ t.dev.regs = d.regs)) ∧
  (on → x.busy = true → x.retry = some h → h.src = .host → d.cal.wait = [] → febIsRead h.bits = true → odd →
    Completes (.febFrameComplete pd di) s (fun t => (t.dev.feb pd).queue = x.queue ∧ t.dev.rg .FEB_STAT_PERR pd = 1 ∧
      t.dev.rg .FEB_HRD_VALID pd = 1 ∧ t.dev.rg .FEB_HRD_ERR pd = 1)) ∧
  (∀ (k f : Nat) (due : List (Nat × Nat)), (d.eng e).febDue = (k, f) :: due → (d.feb k).queue.length < 16 →
    d.on .FEB_CTRL_EN k = true → earlier (d.feb k).queue → Completes (.febEngineFrameQueue e) s (fun t =>
      (t.dev.eng e).febDue = due ∧ (t.dev.feb k).queue = (d.feb k).queue ++ [⟨.engine e, febParity f, d.tick⟩] ∧
      t.dev.regs = d.regs)) ∧
  (∀ (k f : Nat) (due : List (Nat × Nat)), (d.eng e).febDue = (k, f) :: due → d.on .FEB_CTRL_EN k = true →
    (d.feb k).queue = [h] → (d.feb k).busy = false → h.src = .host → cycleOf h.at_ = cycleOf d.tick →
    Completes (.febEngineFrameQueue e) s (fun t => (t.dev.feb k).queue = [⟨.engine e, febParity f, d.tick⟩, h]))

/-- COMPARATOR_INPUT_CHANGE, EDGE_FIRE, STROBE_CLOSE, ROW_PIN_START and PIN_EM_CLR: levels and drive edges take effect at
their tick; an edge that gives way to a later one on its pair is not produced and counts; a closing compare enters its row,
a failing one that is not masked sets LFAIL and its pin's bit and sends FAIL on its way; a row starts with its vector count;
CLR empties the edge-measure registers, and a shot of its cycle counts after it (R41, R73, R88, R91, R140, R147, R162). The
choices of the model in it: log 39, 41, 49, 82. -/
def Obligations.PinEvents : Prop := ∀ (s : State) (c : ChId) (e : EngId),
  let d := s.dev
  let x := d.chan c
  let clear := fun (f : State → Prop) => Completes (.pinEmClr c) s f
  (∀ (cmh cml : Bool) (dt : Nat), x.dly = [] → Completes (.comparatorInputChange c cmh cml dt) s (fun t =>
    (t.dev.chan c).atPin = (cmh, cml) ∧ (t.dev.chan c).drv = x.drv ∧ (t.dev.chan c).den = x.den ∧ t.dev.tick = d.tick + dt ∧
    (d.deskewVal c 2 = 0 → d.deskewVal c 3 = 0 → (t.dev.chan c).cmh = cmh ∧ (t.dev.chan c).cml = cml))) ∧
  (∀ (p : PEdge) (rest : List PEdge) (v : Bool), x.pend = p :: rest → p.act = .drv v → x.nearDrv = [] →
    (d.eng p.eng).ending = none → (d.eng p.eng).queue = [] → (∀ q ∈ rest, p.t + 800 ≤ q.t) →
    Completes (.edgeFire c) s (fun t => (t.dev.chan c).drv = v ∧ (t.dev.chan c).den = x.den ∧
      (t.dev.chan c).pend = rest ∧ t.dev.tick = max d.tick p.t ∧
      ∀ j, j ≠ ⟨.PIN_EDGE_MERGE_COUNT, c, 0⟩ → t.dev.key j = d.key j)) ∧
  (∀ (p : PEdge) (rest : List PEdge) (v : Bool), x.pend = p :: rest → p.act = .den v → x.nearDen = [] →
    (d.eng p.eng).ending = none → (d.eng p.eng).queue = [] → (∀ q ∈ rest, p.t + 800 ≤ q.t) →
    Completes (.edgeFire c) s (fun t => (t.dev.chan c).den = v ∧ (t.dev.chan c).drv = x.drv ∧
      (t.dev.chan c).pend = rest ∧ t.dev.tick = max d.tick p.t ∧
      ∀ j, j ≠ ⟨.PIN_EDGE_MERGE_COUNT, c, 0⟩ → t.dev.key j = d.key j)) ∧
  (∀ (p q : PEdge) (rest : List PEdge) (v w : Bool), x.pend = p :: q :: rest → p.act = .drv v → q.act = .drv w →
    (d.eng p.eng).ending = none → (d.eng p.eng).queue = [] → p.vcnt < q.vcnt → genOf p.gen ≠ genOf q.gen → p.t ≤ q.t →
    q.t < p.t + 800 → Completes (.edgeFire c) s (fun t => (t.dev.chan c).drv = x.drv ∧ (t.dev.chan c).den = x.den ∧
      (t.dev.chan c).pend = q :: rest ∧
      t.dev.rg .PIN_EDGE_MERGE_COUNT c = min (d.rg .PIN_EDGE_MERGE_COUNT c + 1) (2 ^ 32 - 1))) ∧
  (∀ (z : Strobe) (r : OpenRow), x.strobes = [z] → x.dly = [] → z.code ≠ 9 → z.code ≠ 13 → z.closes = z.opened →
    (d.eng z.eng).ending = none → (d.eng z.eng).unres = [r] → r.vcnt = z.vcnt → r.waiting = 2 → z.pin < 64 →
    let fails := z.cand.isSome && !z.masked
    let due := cycleOf (z.closes - d.rxLag c) + 160000
    Completes (.strobeClose c) s (fun t => (t.dev.chan c).strobes = [] ∧ t.dev.tick = max d.tick z.closes ∧
      (∃ o, (t.dev.eng z.eng).unres = [o] ∧ o.vcnt = r.vcnt ∧ o.waiting = 1 ∧ o.res.length = r.res.length + 1) ∧
      (fails = true → t.dev.rg .ENG_RES_STAT_LFAIL z.eng = 1 ∧ (t.dev.rg .ENG_RES_PF_FAILED z.eng).testBit z.pin = true ∧
        (t.dev.eng z.eng).flagQ = (d.eng z.eng).flagQ ++ [⟨due, false, .fail⟩, ⟨due + d.tieLat z.eng * 4000, true, .fail⟩]) ∧
      (fails = false → t.dev.rg .ENG_RES_STAT_LFAIL z.eng = d.rg .ENG_RES_STAT_LFAIL z.eng ∧
        (t.dev.eng z.eng).flagQ = (d.eng z.eng).flagQ))) ∧
  (∀ (r : Row) (rest : List Row) (n : Rat) (o : OpenRow), (d.eng e).queue = r :: rest → (d.eng e).next = some n →
    d.runs e = true → (d.eng e).hemDone = false → (d.eng e).act = none → (d.eng e).unres = [o] → o.waiting ≠ 0 →
    (d.readBytes (memWrite [] (r.slot e) r.bytes) 0x01 (r.slot e) 32).2.1 = false →
    (∀ k ∈ d.pins e, d.on .PIN_TCTRL_VIOL_ACT k = false) → Completes (.rowPinStart e) s (fun t =>
      t.dev.rg .ENG_RES_VCNT_VCNT e = (r.vcnt + 1) % 2 ^ 48 ∧ (t.dev.eng e).queue = rest ∧
      t.dev.tick = max d.tick (d.rowBegin e n) ∧ ∃ o', (t.dev.eng e).unres = [o, o'] ∧ o'.vcnt = r.vcnt ∧ o'.tset = r.tset ∧
        o'.tag = r.tag ∧ o'.started = roundTick (d.rowTick e n))) ∧
  (d.domOn (11 + c / 32) = true → x.shots = [] → clear (fun t => t.dev.rg .PIN_EM_COUNT_COUNT c = 0 ∧
    t.dev.rg .PIN_EM_SUM_SUM c = 0 ∧ t.dev.rg .PIN_EM_MIN_TIME c = 0xFFFFFF ∧ t.dev.rg .PIN_EM_MAX_TIME c = 0 ∧
    t.dev.rg .PIN_EM_LAST_TIME c = 0 ∧ t.dev.rg .PIN_EM_LAST_VALID c = 0)) ∧
  (∀ v < 2 ^ 24, d.domOn (11 + c / 32) = true → x.shots = [(cycleOf d.tick, v)] → clear (fun t =>
    t.dev.rg .PIN_EM_COUNT_COUNT c = 1 ∧ t.dev.rg .PIN_EM_SUM_SUM c = v ∧ t.dev.rg .PIN_EM_MIN_TIME c = v ∧
    t.dev.rg .PIN_EM_MAX_TIME c = v ∧ t.dev.rg .PIN_EM_LAST_TIME c = v ∧ t.dev.rg .PIN_EM_LAST_VALID c = 1))

/-- ENG_START and TIE_START_ARRIVAL: a start in IDLE that nothing refuses begins the burst at the entry address, with the
flags, VP, TS, TAG and the pending events at 0 and IE at 1; a start that finds a refusal posts NOT_RUN with its reason; a
start outside IDLE is counted and has no other effect (R174 to R176). The choices of the model in it: log 18, 37. -/
def Obligations.BurstStart : Prop := ∀ (s : State) (e : EngId) (r t0 : Nat),
  let d := s.dev
  let up := d.domOn (3 + e / 16) = true
  let starts := fun (t : State) => t.dev.rg .ENG_STAT_STATE e = 1 ∧ t.dev.rg .ENG_RES_STAT_RUNNING e = 1 ∧
    t.dev.rg .ENG_PC_ADDR e = d.eff .ENG_ENTRY_ADDR e % 2 ^ 16 ∧ t.dev.rg .ENG_FLAGS_FAIL e = 0 ∧
    t.dev.rg .ENG_FLAGS_MATCH e = 0 ∧ t.dev.rg .ENG_FLAGS_ZERO e = 0 ∧ t.dev.rg .ENG_FLAGS_CARRY e = 0 ∧
    t.dev.rg .ENG_VP e = 0 ∧ t.dev.rg .ENG_TS e = 0 ∧ t.dev.rg .ENG_TAG e = 0 ∧ t.dev.rg .ENG_EV_PEND_PEND e = 0 ∧
    t.dev.rg .ENG_ESTAT_IE e = 1 ∧ t.dev.rg .ENG_ESTAT_INHANDLER e = 0 ∧ (t.dev.eng e).queue = [] ∧
    (t.dev.eng e).ending = none
  let refused := fun (t : State) => t.dev.rg .ENG_RES_STAT_STATE e = 3 ∧ t.dev.rg .ENG_RES_STAT_REASON e = r % 2 ^ 8 ∧
    t.dev.rg .ENG_RES_BCNT_COUNT e = (d.rg .ENG_RES_BCNT_COUNT e + 1) % 2 ^ 32 ∧
    t.dev.rg .ENG_STAT_STATE e = d.rg .ENG_STAT_STATE e
  (up → d.tied e = false → d.startIgnored e = false → (d.eng e).tieStart = none → d.refusal [e] = none →
    Completes (.engStart e) s starts) ∧
  (up → d.tied e = false → d.startIgnored e = false → (d.eng e).tieStart = none → d.refusal [e] = some r →
    Completes (.engStart e) s refused) ∧
  (up → d.startIgnored e = true → Completes (.engStart e) s (fun t => t.dev.engs = d.engs ∧
    t.dev.rg .ENG_SREJ_COUNT e = min (d.rg .ENG_SREJ_COUNT e + 1) (2 ^ 16 - 1) ∧
    ∀ j, j ≠ ⟨.ENG_SREJ_COUNT, e, 0⟩ → t.dev.key j = d.key j)) ∧
  ((d.eng e).tieStart = some t0 →
    (List.range 128).filter (fun x => (d.eng x).tieStart == some t0 && d.grp x == d.grp e) = [e.val] →
    d.startIgnored e = false → d.refusal [e] = some r → up → Completes (.tieStartArrival e) s (fun t => refused t ∧
      (t.dev.eng e).tieStart = none ∧ t.dev.tick = max d.tick t0)) ∧
  ((d.eng e).tieStart = some t0 →
    (List.range 128).filter (fun x => (d.eng x).tieStart == some t0 && d.grp x == d.grp e) = [e.val] →
    d.startIgnored e = false → d.refusal [e] = none → Completes (.tieStartArrival e) s (fun t => starts t ∧
      (t.dev.eng e).tieStart = none ∧ t.dev.tick = max d.tick t0))

/-- TIE_END_ARRIVAL, TIE_STALL_ARRIVAL, TIE_BEAT, HEM_STATE_APPLY and RESULT_POST: a partner's fault ends the burst, a
partner's recovery holds issue for its cycles; at its instant the hem applies to the site; the result posts with the verdict
and leaves the engine IDLE, or FAULTED after an uncorrectable control-store word of its own or a self-test that failed in
ENDING (R38, R93, R129, R144, R145, R246, R250). The choices of the model in it: log 36, 45, 80. -/
def Obligations.BurstEnd : Prop := ∀ (s : State) (e : EngId),
  let d := s.dev
  let x := d.eng e
  (∀ (te : TieEnd) (rest : List TieEnd), x.tieEnd = te :: rest → x.ending = none → x.recov = none → d.runs e = true →
    Completes (.tieEndArrival e) s (fun t => t.dev.rg .ENG_STAT_STATE e = 3 ∧ (t.dev.eng e).tieEnd = rest ∧
      (t.dev.eng e).ending = some ⟨te.reason, te.from_, te.at_, false⟩ ∧ (t.dev.eng e).queue = [] ∧
      (t.dev.eng e).act = none ∧ t.dev.tick = max d.tick te.due)) ∧
  (∀ (t0 n : Nat) (rest : List (Nat × Nat)), x.tieStall = (t0, n) :: rest →
    let hold := max x.free (nextCycle t0) + n * 4000
    Completes (.tieStallArrival e) s (fun t =>
    t.dev.eng e = { x with tieStall := rest, free := hold, stallTo := hold } ∧ t.dev.regs = d.regs ∧
      t.dev.tick = max d.tick t0)) ∧
  (∀ (t0 : Nat) (o : Ending), d.hemInstant e = some t0 → x.hemDone = false → d.runs e = true → x.ending = some o →
    o.reason = 0 → (∀ c ∈ d.pins e, (d.chan c).strobes = []) → Completes (.hemStateApply e) s (fun t =>
      (t.dev.eng e).hemDone = true ∧ (t.dev.eng e).anch = [] ∧ t.dev.tick = max d.tick t0 ∧
      t.dev.rg .ENG_BOB_LREM_ACTIVE e = 0 ∧ t.dev.rg .ENG_STAT_STATE e = d.rg .ENG_STAT_STATE e)) ∧
  (d.runs e = true → x.hemDone = true → d.members e = [e.val] → x.unres = [] → x.tieEnd = [] → x.rst = false →
    Completes (.resultPost e) s (fun t => t.dev.rg .ENG_RES_STAT_STATE e = (d.verdict e).1 ∧
      t.dev.rg .ENG_RES_STAT_REASON e = (d.verdict e).2 % 2 ^ 8 ∧ t.dev.rg .ENG_RES_STAT_RUNNING e = 0 ∧
      t.dev.rg .ENG_RES_STAT_PROGFAIL e = b2n x.mark ∧
      t.dev.rg .ENG_RES_BCNT_COUNT e = (d.rg .ENG_RES_BCNT_COUNT e + 1) % 2 ^ 32 ∧
      (t.dev.eng e).ending = none ∧ t.dev.rg .ENG_STAT_STATE e = if x.ue || x.idFault then 4 else 0))

/-- ENG_RESET, RECOVERY_END, CONTROL_STORE_SCAN, CLRLIST and CONTROL_STORE_ERROR: the key resets an idle engine and a
running one only after its halt; a word listed as uncorrectable ends the burst with MC_UE; a microword that fails parity
begins a recovery, which reads it with care, and at its end normal service resumes and its record is written; the scan goes
on over all words and counts its passes; a corrected word enters the list, which CLRLIST empties; bits of a stored word
change (R189, R232, R245 to R249). The choices of the model in it: log 4, 19, 44. -/
def Obligations.ControlStores : Prop := ∀ (s : State) (e : EngId) (store a : Nat) (bits : List Nat),
  let d := s.dev
  let x := d.eng e
  let up := d.domOn (3 + e / 16) = true
  let n := x.scan % 6144
  let at_ := if n < 4096 then (0, n) else (1, n - 4096)
  let found := judge at_.1 at_.2 (x.wrongBits at_.1 at_.2)
  (up → d.estate e = 0 → x.recov = none → d.taken = [] → Completes (.engReset e 0xA5) s (fun t => t.dev.rg .ENG_STAT_STATE e = 0 ∧
    (∀ i < 32, t.dev.rgi .ENG_G e i = 0) ∧ (∀ i < 16, t.dev.rgi .ENG_L e i = 0) ∧ (∀ i < 4, t.dev.prog e i = 0) ∧
    t.dev.rg .ENG_VP e = 0 ∧ t.dev.rg .ENG_EV_EN_EN e = 0x80 ∧ t.dev.rg .ENG_EV_PEND_PEND e = 0 ∧
    t.dev.rg .ENG_PC_ADDR e = 0 ∧ t.dev.rg .ENG_ENTRY_ADDR e = 0 ∧ t.dev.rg .ENG_ENTRY_LEAD e = 128 ∧
    (t.dev.eng e).act = none ∧ t.dev.rg .ENG_RES_BCNT_COUNT e = d.rg .ENG_RES_BCNT_COUNT e)) ∧
  (up → d.tied e = false → d.estate e = 2 → x.recov = none → x.ending = none → Completes (.engReset e 0xA5) s (fun t =>
    t.dev.rg .ENG_STAT_STATE e = 3 ∧ (t.dev.eng e).rst = true ∧
    (t.dev.eng e).ending = some ⟨0x11, e, d.tick, false⟩)) ∧
  (∀ key : BitVec 8, up → key ≠ 0xA5 → exec (.engReset e key) s = .next s) ∧
  (∀ r : Recov, x.recov = some r → r.done = false → exec (.recoveryEnd e) s = .next s) ∧
  (∀ (r : Recov) (m : McRec), x.recov = some r → r.done = true → r.recs = [m] →
    (∀ u, d.rowDeadline e = some u → x.free ≤ u) → Completes (.recoveryEnd e) s (fun t =>
      t.dev.rg .ENG_MC_STAT_RECOV e = 0 ∧ (t.dev.eng e).recov = none ∧ t.dev.tick = max d.tick x.free ∧
      (t.dev.eng e).act = (if d.estate e = 1 ∨ d.estate e = 2 then x.act else none) ∧
      t.dev.rg .ENG_MC_REC_RECORD e = m.addr % 2 ^ 12 + m.store % 2 * 2 ^ 12 + m.kind % 8 * 2 ^ 13 + m.bit % 512 * 2 ^ 16 +
        m.listed % 2 * 2 ^ 25 + b2n (r.stall || x.ending.any (fun o => o.reason == 3)) * 2 ^ 26 + min r.words 64 * 2 ^ 29 +
        r.pc % 2 ^ 16 * 2 ^ 36 + x.bank % 2 * 2 ^ 52 + r.ns % 2 ^ 64 * 2 ^ 64)) ∧
  (∀ w rest : Nat, x.recov = none → d.listKind e (0, x.upc) = some 1 → d.runs e = true → x.ending = none →
    d.tied e = false → (d.micro e w rest).1 = false ∧ (d.micro e w rest).2.rg .ENG_MC_STAT_UE_SEEN e = 1 ∧
      (d.micro e w rest).2.rg .ENG_STAT_STATE e = 3 ∧
      ((d.micro e w rest).2.eng e).ending = some ⟨4, e, x.free, true⟩ ∧ ((d.micro e w rest).2.eng e).ue = true) ∧
  (∀ w rest b : Nat, x.recov = none → x.careful = false → d.rg .ENG_MC_STAT_LISTCNT e = 0 →
    parityFails 0 (x.wrongBits 0 x.upc) = true → judge 0 x.upc (x.wrongBits 0 x.upc) = .ce b →
    x.wrongBits 1 (uNano (Config.rom x.upc)) = [] → (d.micro e w rest).1 = true ∧
      (d.micro e w rest).2.rg .ENG_MC_STAT_PCNT e = min (d.rg .ENG_MC_STAT_PCNT e + 1) (2 ^ 16 - 1) ∧
      (d.micro e w rest).2.rg .ENG_MC_STAT_RECOV e = 1 ∧ ((d.micro e w rest).2.eng e).free = x.free + 8000 ∧
      ((d.micro e w rest).2.eng e).recov = some ⟨d.nsAt x.free, 1, [⟨0, x.upc, 1, b, 1⟩], false, x.ipc, false⟩ ∧
      (d.micro e w rest).2.rgi .ENG_MC_LIST_ADDR e 0 = x.upc % 2 ^ 12) ∧
  (up → found = .clean → Completes (.controlStoreScan e) s (fun t => t.dev.eng e = { x with scan := (n + 1) % 6144 } ∧
    t.dev.rg .ENG_MC_SCAN_PASSES e =
      (if n = 6143 then (d.rg .ENG_MC_SCAN_PASSES e + 1) % 2 ^ 32 else d.rg .ENG_MC_SCAN_PASSES e) ∧
    ∀ j, j ≠ ⟨.ENG_MC_SCAN_PASSES, e, 0⟩ → t.dev.key j = d.key j)) ∧
  (∀ b : Nat, up → found = .ce b → d.listAt e at_.1 at_.2 = none → d.rg .ENG_MC_STAT_LISTCNT e < 32 →
    let i := d.rg .ENG_MC_STAT_LISTCNT e
    Completes (.controlStoreScan e) s (fun t => t.dev.rg .ENG_MC_STAT_LISTCNT e = i + 1 ∧
      t.dev.rgi .ENG_MC_LIST_ADDR e i = at_.2 ∧ t.dev.rgi .ENG_MC_LIST_STORE e i = at_.1 ∧
      t.dev.rgi .ENG_MC_LIST_VALID e i = 1 ∧ t.dev.rgi .ENG_MC_LIST_KIND e i = 0 ∧
      t.dev.rgi .ENG_MC_LIST_BIT e i = b % 2 ^ 9 ∧ (t.dev.eng e).scan = (n + 1) % 6144)) ∧
  (up → Completes (.clrlist e) s (fun t => t.dev.rg .ENG_MC_STAT_LISTCNT e = 0 ∧ t.dev.rg .ENG_MC_STAT_LISTFULL e = 0 ∧
    (∀ i < 32, t.dev.rgi .ENG_MC_LIST_VALID e i = 0 ∧ t.dev.rgi .ENG_MC_LIST_ADDR e i = 0 ∧
      t.dev.rgi .ENG_MC_LIST_KIND e i = 0 ∧ t.dev.rgi .ENG_MC_LIST_BIT e i = 0) ∧ t.dev.engs = d.engs)) ∧
  (x.storeErr.Nodup → bits.Nodup → (store = 0 ∧ a < 4096 ∨ store = 1 ∧ a < 2048) →
    (∀ b ∈ bits, b < (if store = 0 then 45 else 257)) → Completes (.controlStoreError e store a bits) s (fun t =>
      t.dev.regs = d.regs ∧ ∀ z, z ∈ (t.dev.eng e).storeErr ↔
        (z ∈ x.storeErr ∧ ¬(z.1 = store ∧ z.2.1 = a ∧ z.2.2 ∈ bits)) ∨
        (z ∉ x.storeErr ∧ z.1 = store ∧ z.2.1 = a ∧ z.2.2 ∈ bits)))

/-- EMISSION_DEADLINE_MISS and TIE_BEAT: when no row is ready 8 cycles before the next start, the underrun is recorded and
ends the burst, with MC_STALL where a recovery is in progress and no line is absent; members of a group that agree at a beat
go on, members at different addresses end with DIVERGE (R37, R68, R128). The choices of the model in it: log 55, 80. -/
def Obligations.DeadlineAndBeat : Prop := ∀ (s : State) (e : EngId) (g : GrpId),
  let d := s.dev
  let x := d.eng e
  let members := (List.range 128).filter (fun y => d.tied y && d.grp y == g.val && d.runs y)
  (∀ due : Nat, d.rowDeadline e = some due → x.act = none → x.ending = none → x.recov = none → x.stallTo ≤ due →
    d.tied e = false → Completes (.emissionDeadlineMiss e) s (fun t =>
      t.dev.rg .ENG_URUN_VCNT_VCNT e = x.issued % 2 ^ 48 ∧ t.dev.rg .ENG_URUN_VP_VP e = d.rg .ENG_VP e % 2 ^ 38 ∧
      t.dev.rg .ENG_URUN_CNT_COUNT e = min (d.rg .ENG_URUN_CNT_COUNT e + 1) (2 ^ 16 - 1) ∧
      t.dev.rg .ENG_STAT_STATE e = 3 ∧ (t.dev.eng e).urun = some x.issued ∧ t.dev.tick = max d.tick due ∧
      (t.dev.eng e).ending = some ⟨5, e, due, true⟩)) ∧
  (∀ (due : Nat) (r : Recov), d.rowDeadline e = some due → x.act = none → x.ending = none → x.recov = some r → r.done = false →
    d.lineWanted e = none → d.tied e = false → Completes (.emissionDeadlineMiss e) s (fun t =>
      t.dev.rg .ENG_URUN_CNT_COUNT e = d.rg .ENG_URUN_CNT_COUNT e ∧ t.dev.rg .ENG_STAT_STATE e = 3 ∧
      t.dev.tick = max d.tick due ∧ (t.dev.eng e).ending = some ⟨3, e, due, true⟩)) ∧
  (d.rowDeadline e = none → exec (.emissionDeadlineMiss e) s = .next s) ∧
  (members = [e.val] → d.far.any (fun f => f.grp == g.val) = false → Completes (.tieBeat g) s (fun t =>
    t.dev.regs = d.regs ∧ t.dev.engs = d.engs ∧ t.mem = s.mem)) ∧
  (∀ y z : Nat, members = [y, z] → d.tieLat y = 4 → (d.eng y).ending = none → (d.eng z).ending = none →
    (d.eng y).beatPc = [] → (d.eng z).beatPc = [] → d.rg .ENG_PC_ADDR y ≠ d.rg .ENG_PC_ADDR z →
    Completes (.tieBeat g) s (fun t => t.dev.rg .ENG_STAT_STATE y = 3 ∧ t.dev.rg .ENG_STAT_STATE z = 3 ∧
      (t.dev.eng y).ending = some ⟨0x0F, y, t.dev.tick, false⟩ ∧
      (t.dev.eng z).ending = some ⟨0x0F, y, t.dev.tick, false⟩))

/-- STREAM_REGISTER_WRITE, BOBBIN_LOAD, BOBBIN_HOSTFILL, BOBBIN_WINDOW_WRITE, BOBBIN_REFILL_REQUEST and BOBBIN_LINE_ARRIVAL:
while idle a stream register takes its value and READY clears; LOAD empties the bobbin and starts fetching at offset 0,
HOSTFILL makes it ready, each with VP 0; while a burst runs or a load is in progress a write sets WREJ alone; a refill asks
for the next line, and an arriving line is stored in the bobbin (R120 to R127). The choices of the model in it: log 43,
77. -/
def Obligations.Bobbins : Prop := ∀ (s : State) (e : EngId) (ctrl : BitVec 32) (off data : Nat) (bytes : List Byte),
  let d := s.dev
  let x := d.eng e
  let up := d.domOn (3 + e / 16) = true
  let idle := d.streamBusy e = false
  let y := fun (k : Nat) => d.ctrlWrite e (setBits ctrl.toNat 8 2 k)
  let base := 0x1800000 + 0x10000 * e.val
  let inTime := ∀ u, d.rowDeadline e = some u → d.tick ≤ u
  let rejected := fun (t : State) => t.dev.rg .ENG_BOB_STAT_WREJ e = 1 ∧ t.mem = s.mem ∧
    ∀ j, j ≠ ⟨.ENG_BOB_STAT_WREJ, e, 0⟩ → t.dev.key j = d.key j
  let modes := fun (t : State) => t.dev.rg .ENG_STR_CTRL_FORM e = ctrl.toNat % 2 ∧
    t.dev.rg .ENG_STR_CTRL_MODE e = ctrl.toNat / 2 % 2 ∧ t.dev.rg .ENG_STR_CTRL_QUADS e = ctrl.toNat / 4 % 32 ∧
    t.dev.rg .ENG_STR_CTRL_PREFILL e = ctrl.toNat / 2 ^ 16 % 256 ∧ t.dev.rg .ENG_STR_CTRL_PANIC e = ctrl.toNat / 2 ^ 24
  (up → idle → Completes (.streamRegisterWrite e 0x208 8 data) s (fun t => t.dev.rg .ENG_STR_LEN_LEN e = data % 2 ^ 38 ∧
    t.dev.rg .ENG_BOB_STAT_READY e = 0)) ∧
  (up → idle → Completes (.streamRegisterWrite e 0x200 8 data) s (fun t =>
    t.dev.rg .ENG_STR_BASE_LINE e = data / 256 % 2 ^ 30 ∧ t.dev.rg .ENG_BOB_STAT_READY e = 0)) ∧
  (up → ¬idle → 0x200 ≤ off → off < 0x210 → Completes (.streamRegisterWrite e off 8 data) s rejected) ∧
  (up → idle → (y 1).loadBad e = false → ¬(3 + e.val / 16) ∈ d.quies → Completes (.bobbinLoad e ctrl) s (fun t => modes t ∧
    t.dev.rg .ENG_BOB_STAT_LOADING e = 1 ∧ t.dev.rg .ENG_BOB_STAT_READY e = 0 ∧ t.dev.rg .ENG_VP e = 0 ∧
    (t.dev.eng e).lines = [] ∧ (t.dev.eng e).reqs = [] ∧ (t.dev.eng e).fetch = 0)) ∧
  (up → idle → (y 1).loadBad e = true → Completes (.bobbinLoad e ctrl) s (fun t => modes t ∧
    t.dev.rg .ENG_BOB_STAT_LOAD_ERR e = 1 ∧ t.dev.rg .ENG_BOB_STAT_READY e = 0 ∧ t.dev.engs = d.engs)) ∧
  (up → ¬idle → Completes (.bobbinLoad e ctrl) s rejected) ∧
  (up → idle → (y 2).loadBad e = false → ctrl.toNat / 2 % 2 = 1 → Completes (.bobbinHostfill e ctrl) s (fun t => modes t ∧
    t.dev.rg .ENG_BOB_STAT_READY e = 1 ∧ t.dev.rg .ENG_VP e = 0)) ∧
  (up → idle → ctrl.toNat / 2 % 2 = 0 → Completes (.bobbinHostfill e ctrl) s (fun t =>
    t.dev.rg .ENG_BOB_STAT_LOAD_ERR e = 1 ∧ t.dev.rg .ENG_BOB_STAT_READY e = 0)) ∧
  (s.wf → up → idle → d.resident e = true → d.errs = [] → off + bytes.length ≤ 65536 →
    Completes (.bobbinWindowWrite e off bytes false false) s (fun t =>
      (∀ i < bytes.length, memGet t.mem (base + off + i) = (bytes.getD i 0).toNat) ∧
      ∀ a, (a < base + off ∨ base + off + bytes.length ≤ a) → memGet t.mem a = memGet s.mem a)) ∧
  (up → d.resident e = false → Completes (.bobbinWindowWrite e off bytes false false) s rejected) ∧
  (∀ c : CluId, d.domOn (3 + c) = true → d.refillPick c = some e.val → d.windowLarge e = false →
    Completes (.bobbinRefillRequest c) s (fun t => t.dev.regs = d.regs ∧
      t.dev.eng e = { x with reqs := x.reqs ++ [x.fetch], fetch := x.fetch + 1 })) ∧
  (∀ (n : Nat) (rest : List Nat), s.wf → up → inTime → x.reqs = n :: rest → x.miss = none → d.errs = [] → d.poison = [] →
    d.dramPath (d.rg .ENG_STR_BASE_LINE e + n) = .served → d.unzeroed (d.rg .ENG_STR_BASE_LINE e + n) = false → d.on .ENG_BOB_STAT_LOADING e = false →
    let from_ := dramBase + (d.rg .ENG_STR_BASE_LINE e + n) * 256
    let into := base + 256 * x.slotFor n
    Completes (.bobbinLineArrival e) s (fun t => t.dev.regs = d.regs ∧
      t.dev.eng e = { x with reqs := rest, lines := x.lines ++ [(n, x.slotFor n)] } ∧
      (∀ i < 256, memGet t.mem (into + i) = memGet s.mem (from_ + i)) ∧
      ∀ a, (a < into ∨ into + 256 ≤ a) → memGet t.mem a = memGet s.mem a)) ∧
  (∀ n : Nat, up → inTime → x.reqs = [n] → x.miss = none → d.dramPath (d.rg .ENG_STR_BASE_LINE e + n) ≠ .waits →
    d.on .ENG_BOB_STAT_LOADING e = true → d.windowLarge e = false → d.rg .ENG_STR_LEN_LEN e ≤ x.fetch * 256 →
    Completes (.bobbinLineArrival e) s (fun t => t.dev.rg .ENG_BOB_STAT_LOADING e = 0 ∧
      t.dev.rg .ENG_BOB_STAT_READY e = 1 ∧ (t.dev.eng e).reqs = []))

/-- FAIL_SPILL_LINE: on its engine's turn among the cluster's sixteen, sixteen records leave the fail buffer for the line at
WPTR of the ring in DRAM, and WPTR advances; when it is not the engine's turn nothing happens, and an engine has no turn
that does not spill, holds fewer than sixteen records or has its ring full (R157, R158). The choices of the model in it: log
13, 85. -/
def Obligations.FailSpill : Prop := ∀ (s : State) (e : EngId),
  let d := s.dev
  let x := d.eng e
  let n := d.rg .ENG_FLOG_SIZE_LINES e
  let p := d.rg .ENG_FLOG_WPTR_LINE e
  let line := d.rg .ENG_FLOG_BASE_LINE e + p
  let rec_ := fun (k : Nat) => (x.recs.find? (·.1 == (x.fbHead + k) % 2048)).elim 0 (·.2)
  (s.wf → d.spillTurn (e / 16) = some e.val → n < 2 ^ 32 → d.writePath line = .served → d.awgGuard line = none →
    d.unzeroed line = false → d.errs = [] → d.poison = [] → x.lost = none → Completes (.failSpillLine e) s (fun t =>
      t.dev.rg .ENG_FLOG_WPTR_LINE e = (p + 1) % n ∧ (t.dev.eng e).fbCnt = x.fbCnt - 16 ∧
      (t.dev.eng e).fbHead = (x.fbHead + 16) % 2048 ∧ t.dev.flTurn.get? (e / 16) = some (e.val % 16) ∧
      (∀ k < 16, ∀ i < 16, memGet t.mem (dramBase + line * 256 + 16 * k + i) = rec_ k / 256 ^ i % 256) ∧
      ∀ a, (a < dramBase + line * 256 ∨ dramBase + line * 256 + 256 ≤ a) → memGet t.mem a = memGet s.mem a)) ∧
  (d.spillTurn (e / 16) ≠ some e.val → exec (.failSpillLine e) s = .next s) ∧
  (d.on .ENG_FLOG_CTRL_SPILL e = false ∨ x.fbCnt < 16 ∨ n < 16 ∨ d.ringFull e = true → d.spillTurn (e / 16) ≠ some e.val)

/-- FT_FREQUENCY_MEASURED, FT_LOCK and FT_LOSS: a period within 5 % of nominal of a source that gives edges closes the loop,
which locks once the phase error has stayed below 1/64 of a period; one of the three events of a loss clears LOCKED, sets
LOST, counts, stamps and ends every burst the follower times with FT_LOST; nothing happens otherwise (R101, R104, R105). The
choices of the model in it: log 42, 79, 80. -/
def Obligations.Followers : Prop := ∀ (s : State) (f : FtId) (n ph : Nat) (cause : FtCause) (e : EngId),
  let d := s.dev
  let ready := d.on .FT_CTRL_EN f = true ∧ d.on .FT_STAT_LOCKED f = false ∧ d.ftRange f = false
  let running := d.on .FT_CTRL_EN f = true ∧ d.on .FT_STAT_LOCKED f = true
  let y := if cause = .noEdge then d.advanceTo (d.ftSilent f) else d
  (ready → d.ftNear f n = true → d.ftSeen f = true → Completes (.ftFrequencyMeasured f n) s (fun t =>
    t.dev.rg .FT_PERIOD_PERIOD f = n % 2 ^ 32 ∧ (t.dev.ft f).closed = true ∧
    ∀ j, j ≠ ⟨.FT_PERIOD_PERIOD, f, 0⟩ → t.dev.key j = d.key j)) ∧
  (ready → (d.ftNear f n = false ∨ d.ftSeen f = false) → exec (.ftFrequencyMeasured f n) s = .next s) ∧
  (ready → (d.ft f).closed = true → ph * 64 * 256 < d.rg .FT_PERIOD_PERIOD f → Completes (.ftLock f ph) s (fun t =>
    t.dev.rg .FT_STAT_LOCKED f = 1 ∧ t.dev.rg .FT_PHERR_PEAK f = min 0xFFFF (max (d.rg .FT_PHERR_PEAK f) ph))) ∧
  (d.rg .FT_PERIOD_PERIOD f ≤ ph * 64 * 256 → exec (.ftLock f ph) s = .next s) ∧
  (running → d.ftGone f n ph cause = true → Completes (.ftLoss f cause n ph) s (fun t =>
    t.dev.rg .FT_STAT_LOCKED f = 0 ∧ t.dev.rg .FT_STAT_LOST f = 1 ∧
    t.dev.rg .FT_LOSS_CNT_COUNT f = min (d.rg .FT_LOSS_CNT_COUNT f + 1) 0xFFFF ∧ (t.dev.ft f).closed = false ∧
    t.dev.rg .FT_LOSS_TS_RECORD f = y.stamp (f + cause.code * 8) % 2 ^ 128)) ∧
  (running → d.ftGone f n ph cause = true → d.runs e = true → (d.eng e).tb = some (some f.val) → (d.eng e).ending = none →
    Completes (.ftLoss f cause n ph) s (fun t => t.dev.rg .ENG_STAT_STATE e = 3 ∧ (t.dev.eng e).queue = [] ∧
      (t.dev.eng e).ending = some ⟨0x0D, e, y.tick, false⟩)) ∧
  (d.on .FT_STAT_LOCKED f = false → exec (.ftLoss f cause n ph) s = .next s) ∧
  (d.ftNear f n = true → exec (.ftLoss f .frequency n ph) s = .next s) ∧
  (ph * 8 * 256 ≤ d.rg .FT_PERIOD_PERIOD f → exec (.ftLoss f .phase n ph) s = .next s)

/-- QUAD_OWNERSHIP_APPLY, TIE_MEMBERSHIP_APPLY, CMP_MASK_APPLY, ENTRY_APPLY, SEWSTART_APPLY and MODE_APPLY: the last field a
PENDING sew has still to apply applies where no burst runs on the engines concerned; its register then reads the new value
and the sew is APPLIED; a quad goes to park state, an ARM of 1 orders a start and returns to 0, and with the last engine the
device's mode changes (R58, R59, R64, R139, R173, R174, R326, R419). The choices of the model in it: log 46. -/
def Obligations.SewApplication : Prop := ∀ (s : State) (g : SgId) (e : EngId) (f : Field) (v : Nat),
  let d := s.dev
  let one := fun (f : Field) => d.taken = [⟨g, ⟨f, e, 0⟩, v, false⟩] ∧ d.rg .SEW_STATUS_STATE g = 2 ∧ d.modeChg = none
  let applied := fun (t : State) (f : Field) => t.dev.rg f e = v % 2 ^ f.info.width ∧ t.dev.taken = [] ∧
    t.dev.rg .SEW_STATUS_STATE g = 3 ∧ t.dev.rg .SEW_STATUS_PENDCNT g = 0
  let waits := fun (t : State) (f : Field) => t.dev.taken = d.taken ∧ t.dev.rg f e = d.rg f e ∧
    t.dev.rg .SEW_STATUS_STATE g = 2
  let free := d.groupRuns e = false
  (f ∈ qownFields → one f → (d.quadOwners e).any d.groupRuns = false → Completes (.quadOwnershipApply e) s (fun t =>
    applied t f ∧ t.dev.rg .PIN_QOWN_PENDING e = 0 ∧
    ∀ c < 4, (t.dev.chan (4 * e + c)).drv = false ∧ (t.dev.chan (4 * e + c)).den = false)) ∧
  (f ∈ qownFields → one f → (d.quadOwners e).any d.groupRuns = true → Completes (.quadOwnershipApply e) s (fun t =>
    waits t f ∧ t.dev.chans = d.chans)) ∧
  (f ∈ tieFields → one f → free → d.nextGroupRuns e = false → Completes (.tieMembershipApply e) s (fun t => applied t f)) ∧
  (f ∈ tieFields → one f → (¬free ∨ d.nextGroupRuns e = true) → Completes (.tieMembershipApply e) s (fun t => waits t f)) ∧
  (one .ENG_CMP_MASK_MASK → free → Completes (.cmpMaskApply e) s (fun t => applied t .ENG_CMP_MASK_MASK)) ∧
  (one .ENG_CMP_MASK_MASK → ¬free → Completes (.cmpMaskApply e) s (fun t => waits t .ENG_CMP_MASK_MASK)) ∧
  (f ∈ entryFields → one f → free → Completes (.entryApply e) s (fun t => applied t f)) ∧
  (f ∈ entryFields → one f → ¬free → Completes (.entryApply e) s (fun t => waits t f)) ∧
  (one .ENG_SEWSTART_ARM → free → v = 1 → d.tied e = false → d.startIgnored e = false → (d.eng e).tieStart = none →
    d.refusal [e] = none → Completes (.sewstartApply e) s (fun t => t.dev.rg .ENG_SEWSTART_ARM e = 0 ∧
      t.dev.rg .ENG_STAT_STATE e = 1 ∧ t.dev.rg .SEW_STATUS_STATE g = 3 ∧ t.dev.taken = [])) ∧
  (one .ENG_SEWSTART_ARM → ¬free → Completes (.sewstartApply e) s (fun t => waits t .ENG_SEWSTART_ARM)) ∧
  (d.taken = [] → d.modeChg = some (g.val, v, [e.val]) → free → d.rg .SEW_STATUS_STATE g = 2 → Completes (.modeApply e) s (fun t =>
    t.dev.rg .ENG_MODE_MODE e = v % 2 ^ 3 ∧ t.dev.rg .SEW_MODE_MODE 0 = v % 2 ^ 3 ∧
    t.dev.rg .HOST_MODE_MODE 0 = v % 2 ^ 3 ∧ t.dev.rg .SEW_MODE_PENDING 0 = 0 ∧ t.dev.modeChg = none ∧
    t.dev.rg .SEW_STATUS_STATE g = 3)) ∧
  (∀ l : List Nat, d.taken = [] → d.modeChg = some (g.val, v, e.val :: l) → e.val ∉ l → l ≠ [] → free →
    Completes (.modeApply e) s (fun t => t.dev.rg .ENG_MODE_MODE e = v % 2 ^ 3 ∧
      t.dev.rg .SEW_MODE_MODE 0 = d.rg .SEW_MODE_MODE 0 ∧ t.dev.modeChg = some (g.val, v, l)))

/-- SEW_GMAP_WRITE, SEW_ARM, SEW_CANCEL, SEW_VETO, SEW_DECISION and SEW_TARGET_CYCLE: a map word moves units but not into or
out of a busy group; an arm is judged into ARMED, SEW_LATE, SEW_PART, SEW_GEN or BUSYREJ; a cancel in time cancels; the
decision wants READY from every position and no veto; at the target a dirty field is taken, and applies at once where no
burst runs (R322 to R326, R328, R329). The choices of the model in it: log 46. -/
def Obligations.SewCommands : Prop := ∀ (s : State) (g : SgId) (e : EngId) (word : Fin 34) (value : BitVec 32),
  let d := s.dev
  let k := gmapKey word
  let v := value.toNat % 2 ^ k.f.info.width
  let sync := d.on .SEW_CFG_SEAMSYNC g
  let early := if sync then 2000 else 256
  let judged := fun (c : Nat) (t : State) => t.dev.rg .SEW_STATUS_STATE g = c
  let held := d.sewMsg.filter (fun m => m.tag == d.rg .SEW_CFG_TAG g && decide ((m.origin + 2000) * 65536 ≤ (d.sew g).target))
  let agreed := (List.range 16).all (fun p => !bitOf (d.rg .SEW_CFG_PART g) p ||
    held.any (fun m => m.pos == p && !m.veto)) && !held.any (·.veto)
  ((∀ x : SgId, d.sewBusy x = false) → Completes (.sewGmapWrite word value) s (fun t => t.dev.key k = v ∧
    ∀ j, j ≠ k → t.dev.key j = d.key j)) ∧
  (∀ i < 8, bitsOf (d.key k) (4 * i) 4 ≠ bitsOf v (4 * i) 4 →
    (d.sewBusy (bitsOf (d.key k) (4 * i) 4) = true ∨ d.sewBusy (bitsOf v (4 * i) 4) = true) →
    Completes (.sewGmapWrite word value) s (fun t => t.dev.rg .SEW_GSTAT_MAPREJ 0 = 1 ∧
      ∀ j, j ≠ ⟨.SEW_GSTAT_MAPREJ, 0, 0⟩ → t.dev.key j = d.key j)) ∧
  (∀ x : Nat, d.sewBusy g = false → (sync = true → bitOf (d.rg .SEW_CFG_PART g) d.pos = true) → d.sewTarget g = some x →
    (d.laterThan x early = false → Completes (.sewArm g) s (fun t => judged 1 t ∧ t.dev.sew g = ⟨x, !sync⟩ ∧
      (sync = true → ⟨d.rg .SEW_CFG_TAG g, d.pos, false, d.nowNs⟩ ∈ t.dev.sewMsg))) ∧
    (d.laterThan x early = true → Completes (.sewArm g) s (judged 4))) ∧
  (d.sewBusy g = false → (sync = true → bitOf (d.rg .SEW_CFG_PART g) d.pos = true) → d.sewTarget g = none →
    Completes (.sewArm g) s (judged 6)) ∧
  (d.sewBusy g = false → sync = true → bitOf (d.rg .SEW_CFG_PART g) d.pos = false → Completes (.sewArm g) s (judged 8)) ∧
  (d.sewBusy g = true → Completes (.sewArm g) s (fun t => judged (d.rg .SEW_STATUS_STATE g) t ∧
    t.dev.rg .SEW_STATUS_BUSYREJ g = 1)) ∧
  (d.rg .SEW_STATUS_STATE g = 1 → d.nowFrac + early * 65536 < (d.sew g).target → Completes (.sewCancel g) s (judged 7)) ∧
  (d.rg .SEW_STATUS_STATE g ≠ 1 → Completes (.sewCancel g) s (fun t => judged (d.rg .SEW_STATUS_STATE g) t ∧
    t.dev.rg .SEW_STATUS_BUSYREJ g = 1)) ∧
  Completes (.sewVeto g) s (fun t => ⟨d.rg .SEW_CFG_TAG g, d.pos, true, d.nowNs⟩ ∈ t.dev.sewMsg ∧ t.dev.regs = d.regs) ∧
  (d.rg .SEW_STATUS_STATE g = 1 → (d.sew g).decided = false → agreed = true → Completes (.sewDecision g) s (fun t =>
    judged 1 t ∧ t.dev.sew g = ⟨(d.sew g).target, true⟩ ∧
    t.dev.tick = max d.tick (d.tickOfFrac ((d.sew g).target - 65536000)))) ∧
  (d.rg .SEW_STATUS_STATE g = 1 → (d.sew g).decided = false → agreed = false →
    Completes (.sewDecision g) s (judged 5)) ∧
  (d.rg .SEW_STATUS_STATE g = 1 → (d.sew g).decided = true → (∀ h : SgId, h < g → d.rg .SEW_STATUS_STATE h ≠ 1) →
    d.dirty = [⟨.ENG_CMP_MASK_MASK, e, 0⟩] → d.mapNib .SEW_GMAP_ENG_MAP e = g → d.domOn (3 + e / 16) = true →
    d.taken = [] → d.modeChg = none →
    (d.groupRuns e = false → Completes (.sewTargetCycle g) s (fun t => judged 3 t ∧ t.dev.dirty = [] ∧ t.dev.taken = [] ∧
      t.dev.rg .ENG_CMP_MASK_MASK e = d.bast ⟨.ENG_CMP_MASK_MASK, e, 0⟩ % 2 ^ 64 ∧
      t.dev.tick = max d.tick (d.tickOfFrac (d.sew g).target))) ∧
    (d.groupRuns e = true → Completes (.sewTargetCycle g) s (fun t => judged 2 t ∧ t.dev.dirty = [] ∧
      t.dev.taken = [⟨g, ⟨.ENG_CMP_MASK_MASK, e, 0⟩, d.bast ⟨.ENG_CMP_MASK_MASK, e, 0⟩, false⟩] ∧
      t.dev.rg .ENG_CMP_MASK_MASK e = d.rg .ENG_CMP_MASK_MASK e ∧ t.dev.rg .SEW_STATUS_PENDCNT g = 1)))

/-- ACQ_ARM, ACQ_DISARM, ACQ_FORCE, ACQ_RELEASE, ACQ_REARM, ACQ_HOLDOFF_END and ACQ_POST_COMPLETE: an arm goes to ARMED or
REARM or sets CFGERR; DISARM returns to IDLE with a record of POST truncated; FORCE meets the HOST slots; POST served sets
up the record and starts hold-off, which ends in REARM or IDLE; REARM becomes ARMED when there is room (R256 to R258, R260,
R268, R269, R271). The choices of the model in it: log 50. -/
def Obligations.AcquisitionStates : Prop := ∀ (s : State) (u : AcqId),
  let d := s.dev
  let x := d.acq u
  let up := d.domOn 27 = true
  let state := d.rg .ACQ_STAT_STATE u
  let becomes := fun (t : State) (n : Nat) => t.dev.rg .ACQ_STAT_STATE u = n
  let enters := fun (t : State) => becomes t 1 ∧ (t.dev.acq u).samps = [] ∧ (t.dev.acq u).post = [] ∧
    (t.dev.acq u).trig = none ∧ (t.dev.acq u).since = cycleOf d.tick
  let last := d.on .ACQ_CTRL_CONT u = false ∨ (d.rg .ACQ_CTRL_COUNT u ≠ 0 ∧ d.rg .ACQ_CTRL_COUNT u ≤ x.taken)
  let ends := fun (t : State) => (last → becomes t 0) ∧ (¬last → becomes t 4)
  (up → state = 0 → d.acqBad u = false → ¬27 ∈ d.quies →
    (d.acqFree u = true → Completes (.acqArm u) s enters) ∧
    (d.acqFree u = false → Completes (.acqArm u) s (fun t => becomes t 4 ∧ (t.dev.acq u).conds = []))) ∧
  (up → state = 0 → d.acqBad u = true → Completes (.acqArm u) s (fun t => becomes t 0 ∧
    t.dev.rg .ACQ_STAT_CFGERR u = 1 ∧ t.dev.acqs = d.acqs)) ∧
  (up → state ≠ 2 → Completes (.acqDisarm u) s (fun t => becomes t 0 ∧ (t.dev.acq u).conds = [] ∧
    (t.dev.acq u).samps = [] ∧ (t.dev.acq u).rcd = x.rcd ∧ t.mem = s.mem)) ∧
  (∀ g : AcqTrig, up → state = 2 → x.trig = some g → Completes (.acqDisarm u) s (fun t => becomes t 0 ∧
    (t.dev.acq u).trig = none ∧ (t.dev.acq u).rcd = some (d.acqHeader u g true).1)) ∧
  (∀ k : Nat, up → d.slotsOf u 6 = [k] → state ≠ 0 →
    let now := cycleOf d.tick
    x.since ≤ now → x.decided < d.grainClose u now → (d.tick : Rat) ≤ d.grainClose u now + x.delay * 4000 →
    Completes (.acqForce u) s (fun t => becomes t state ∧
      (t.dev.acq u).conds = x.conds ++ [⟨k, d.timeAt now, now⟩])) ∧
  (up → Completes (.acqRelease u) s (fun t => t.dev.rg .ACQ_STAT_HELD u = 0 ∧ t.dev.acqs = d.acqs)) ∧
  (state = 4 → d.acqFree u = true → Completes (.acqRearm u) s enters) ∧
  (state = 4 → d.acqFree u = false → exec (.acqRearm u) s = .next s) ∧
  (state = 3 → d.on .ACQ_HOLD_MODE u = false → Completes (.acqHoldoffEnd u) s (fun t => ends t ∧
    t.dev.tick = max d.tick (d.tickAt (x.hold + d.rg .ACQ_HOLD_VALUE u * 65536)).ceil.toNat)) ∧
  (state = 3 → d.on .ACQ_HOLD_MODE u = true → d.rg .ACQ_HOLD_VALUE u ≤ x.hold → Completes (.acqHoldoffEnd u) s ends) ∧
  (∀ g : AcqTrig, state = 2 → d.rg .ACQ_POST_SAMPLES u ≤ x.post.length → x.trig = some g →
    Completes (.acqPostComplete u) s (fun t => becomes t 3 ∧ (t.dev.acq u).rcd = some (d.acqHeader u g false).1 ∧
      (t.dev.acq u).seq = x.seq + 1 ∧ (t.dev.acq u).taken = x.taken + 1 ∧
      (t.dev.acq u).hold = if d.on .ACQ_HOLD_MODE u then 0 else d.nowFrac))

/-- ACQ_GRAIN_DECIDE, ACQ_SPILL_LINE, ACQ_RECORD_COMPLETE and ACQ_TIME_CONDITION: the earliest grain with a condition gives
the trigger of an armed unit and a miss of one that cannot take it; the record's lines and last its header go to the ring in
DRAM; with the header in place LAST and RECCNT follow; a TIME target is met and moves to its next repeat (R258, R259, R265,
R267, R270, R274). The choices of the model in it: log 20, 50. -/
def Obligations.AcquisitionRecords : Prop := ∀ (s : State) (u : AcqId) (slot : SlotId) (c : AcqCond) (r : AcqRec),
  let d := s.dev
  let x := d.acq u
  let state := d.rg .ACQ_STAT_STATE u
  let at_ := max d.tick (d.grainClose u c.tick + x.delay * 4000).ceil.toNat
  let plain := x.conds = [c] ∧ x.runs = [] ∧ d.slotsOf u 1 = [] ∧ d.slotEn u c.slot = true ∧
    d.rgi .ACQ_COND_CTRL_ARMBY_EN u c.slot = 0
  let line := fun (k : Nat) => d.rg .ACQ_RBASE_LINE u + (d.rg .ACQ_WPTR_LINE u + k) % max 1 (d.rg .ACQ_RSIZE_LINES u)
  let open_ := fun (k : Nat) => d.writePath (line k) = .served ∧ d.unzeroed (line k) = false ∧ d.awgGuard (line k) = none ∧
    d.errs = [] ∧ d.poison = []
  let gen := (d.time.inForce c.tick).1
  let stored := fun (t : State) (k : Nat) (b : Nat → Nat) =>
    (∀ i < 256, memGet t.mem (dramBase + line k * 256 + i) = b i) ∧
    ∀ a, (a < dramBase + line k * 256 ∨ dramBase + line k * 256 + 256 ≤ a) → memGet t.mem a = memGet s.mem a
  (plain → state = 1 → d.on .ACQ_TOUT_TOENG u = false → d.on .ACQ_TOUT_TOSEAM u = false →
    Completes (.acqGrainDecide u) s (fun t => t.dev.rg .ACQ_STAT_STATE u = 2 ∧ (t.dev.acq u).conds = [] ∧
      (t.dev.acq u).trig = 
        some ⟨d.stampThen c.t c.tick (d.acqSrc u), gen, 2 ^ c.slot, c.slot, d.inGen gen c.t, x.recMiss, x.recFm⟩ ∧
      t.dev.tick = at_)) ∧
  (plain → state = 4 → Completes (.acqGrainDecide u) s (fun t => t.dev.rg .ACQ_STAT_STATE u = 4 ∧
    (t.dev.acq u).conds = [] ∧ (t.dev.acq u).trig = x.trig ∧ (t.dev.acq u).recMiss = x.recMiss + 1 ∧
    t.dev.rg .ACQ_MISSED_COUNT u = min (d.rg .ACQ_MISSED_COUNT u + 1) (2 ^ 32 - 1) ∧ t.dev.tick = at_)) ∧
  (s.wf → d.domOn 27 = true → x.rcd = some r → r.ring = true → r.head = false → r.left = [] → open_ 0 →
    Completes (.acqSpillLine u) s (fun t => stored t 0 (fun i => r.header.getD i 0) ∧ (t.dev.acq u).rcd = some { r with head := true } ∧
      t.dev.rg .ACQ_WPTR_LINE u = (d.rg .ACQ_WPTR_LINE u + r.total) % max 1 (d.rg .ACQ_RSIZE_LINES u) % 2 ^ 32)) ∧
  (∀ (k : Nat) (rest : List Nat), s.wf → d.domOn 27 = true → x.rcd = some r → r.ring = true → r.head = false →
    r.left = k :: rest → open_ k → Completes (.acqSpillLine u) s (fun t =>
      stored t k (fun i => memGet s.mem (d.acqPlace u (256 * (k - 1)) + i)) ∧ (t.dev.acq u).rcd = some { r with left := rest } ∧
      t.dev.rg .ACQ_WPTR_LINE u = d.rg .ACQ_WPTR_LINE u)) ∧
  (x.rcd = some r → r.head = true → r.byEng = none → Completes (.acqRecordComplete u) s (fun t =>
    t.dev.rg .ACQ_LAST_RECORD u = r.h0 % 2 ^ 128 ∧ (t.dev.acq u).rcd = none ∧
    t.dev.rg .ACQ_STAT_RECCNT u = (d.rg .ACQ_STAT_RECCNT u + 1) % 2 ^ 24 ∧
    t.dev.rg .ACQ_STAT_HELD u = (if r.ring then d.rg .ACQ_STAT_HELD u else 1) ∧
    (t.dev.rg .HOST_IRQ_STAT_PEND 0).testBit (136 + u))) ∧
  (∀ (e : EngId), x.rcd = some r → r.head = true → r.byEng = some e.val → d.runs e = true →
    Completes (.acqRecordComplete u) s (fun t => (t.dev.rg .ENG_EV_PEND_PEND e).testBit 10 ∧
      t.dev.rg .ACQ_LAST_RECORD u = r.h0 % 2 ^ 128 ∧ (t.dev.acq u).rcd = none)) ∧
  (∀ t0 : Nat, x.targets.get? slot = some t0 → state ≠ 0 → Completes (.acqTimeCondition u slot) s (fun t =>
    t.dev.tick = max d.tick (d.tickOfFrac t0) ∧
    (t.dev.acq u).targets.get? slot = (let rep := bitsOf (d.rgi .ACQ_COND_P2 u slot) 24 40
      if rep = 0 then none else some (t0 + rep * 65536))))

/-- JESD_LINK_ENABLE, SYSREF_EDGE and JESD_MULTIBLOCK_RECEIVE: a link is enabled or sets CFGERR; the first SYSREF edge of an
enabled link aligns its LEMC and is stamped; with every lane in phase an aligned link reaches DATA, a lane out of phase
makes it DEGRADED, a rate error takes it back (R280 to R283). The choices of the model in it: log 53, 83. -/
def Obligations.ConverterLinks : Prop := ∀ (s : State) (r : LinkId) (dt : Nat) (rateBad : Bool) (lanes : List LaneMb),
  let d := s.dev
  let up := d.domOn 29 = true
  let live := up ∧ r.val < 4 ∧ d.on .LNK_CFG_EN r = true ∧ d.on .LNK_STAT_SRALIGNED r = true ∧ lanes.length = d.lnkL r ∧
    ∀ n ∈ d.lnkLanes r, d.laneUp n = true
  let errs := (lanes.filter (fun l => !l.crcOk)).length
  (up → d.on .LNK_CFG_EN r = false → d.lnkBad r = false → ¬29 ∈ d.quies → Completes (.jesdLinkEnable r) s (fun t =>
    t.dev.rg .LNK_CFG_EN r = 1 ∧ t.dev.rg .LNK_STAT_SRALIGNED r = 0 ∧ t.dev.rg .LNK_STAT_LANEOK r = 0 ∧
    (4 ≤ r.val → t.dev.rg .LNK_STAT_STATE r = 2) ∧
    (r.val < 4 → (∃ n ∈ d.lnkLanes r, d.on .LNK_LSTAT_LOCK n = false) → t.dev.rg .LNK_STAT_STATE r = 0))) ∧
  (up → d.on .LNK_CFG_EN r = false → d.lnkBad r = true → Completes (.jesdLinkEnable r) s (fun t =>
    t.dev.rg .LNK_STAT_CFGERR r = 1 ∧ t.dev.rg .LNK_CFG_EN r = d.rg .LNK_CFG_EN r ∧ t.dev.links = d.links)) ∧
  (up → d.on .LNK_CFG_EN r = true → exec (.jesdLinkEnable r) s = .next s) ∧
  (up → d.on .LNK_CFG_EN r = true → d.on .LNK_STAT_SRALIGNED r = false → Completes (.sysrefEdge dt) s (fun t =>
    t.dev.tick = max d.tick (ceilDiv (d.tick + dt) 1000 * 1000) ∧ t.dev.rg .LNK_STAT_SRALIGNED r = 1 ∧
    (t.dev.link r).tlTick = t.dev.tick ∧ (t.dev.link r).n = (if r.val < 4 then 0 else d.lemcSamples r) ∧
    t.dev.rg .LNK_LEMC_TS_RECORD r = t.dev.stampOf t.dev.nowFrac r % 2 ^ 128 ∧
    t.dev.rg .LNK_SRCNT_COUNT r = min (d.rg .LNK_SRCNT_COUNT r + 1) (2 ^ 32 - 1) ∧
    ((4 ≤ r.val ∨ (d.rg .LNK_STAT_STATE r = 2 ∧ d.on .LNK_STAT_RATEERR r = false)) → t.dev.rg .LNK_STAT_STATE r = 3))) ∧
  (up → d.on .LNK_CFG_EN r = true → d.on .LNK_STAT_SRALIGNED r = true → Completes (.sysrefEdge dt) s (fun t =>
    t.dev.link r = d.link r ∧ t.dev.rg .LNK_STAT_STATE r = d.rg .LNK_STAT_STATE r ∧
    t.dev.rg .LNK_SRCNT_COUNT r = min (d.rg .LNK_SRCNT_COUNT r + 1) (2 ^ 32 - 1))) ∧
  (live → rateBad = false → d.rg .LNK_STAT_STATE r = 2 → (∀ l ∈ lanes, l.inPhase = true) →
    Completes (.jesdMultiblockReceive r rateBad lanes) s (fun t => t.dev.rg .LNK_STAT_STATE r = 3 ∧
      t.dev.rg .LNK_STAT_LANEOK r = (2 ^ d.lnkL r - 1) % 2 ^ 8 ∧ t.dev.rg .LNK_STAT_RATEERR r = 0 ∧
      (errs ≠ 0 → t.dev.rg .LNK_CRCERR_COUNT r = min (d.rg .LNK_CRCERR_COUNT r + errs) (2 ^ 32 - 1)))) ∧
  (live → rateBad = false → d.rg .LNK_STAT_STATE r = 3 → (∃ l ∈ lanes, l.inPhase = false) →
    Completes (.jesdMultiblockReceive r rateBad lanes) s (fun t => t.dev.rg .LNK_STAT_STATE r = 4)) ∧
  (live → rateBad = true → d.rg .LNK_STAT_STATE r = 3 → Completes (.jesdMultiblockReceive r rateBad lanes) s (fun t =>
    t.dev.rg .LNK_STAT_STATE r = 2 ∧ t.dev.rg .LNK_STAT_RATEERR r = 1))

/-- DDC_ENABLE, DDC_FTW_WRITE and DDC_OUTPUT_SAMPLE: a chain is enabled from the link's next sample or sets CFGERR; a
frequency word waits for the next input sample; the oldest output reaches an armed unit that records the chain, in the
unit's sample form and with its mark (R254, R285, R287, R292). The choices of the model in it: log 52. -/
def Obligations.ReceiveChains : Prop := ∀ (s : State) (c : DdcId) (u : AcqId) (ftw : BitVec 48) (o : DdcOut)
    (rest : List DdcOut),
  let d := s.dev
  let x := d.ddc c
  let up := d.domOn 27 = true
  let sample := if d.on .ACQ_SRC_SWIDTH u then unsigned 32 (o.i * 256) + unsigned 32 (o.q * 256) * 2 ^ 32
    else unsigned 16 (round16 o.i).1 + unsigned 16 (round16 o.q).1 * 2 ^ 16
  (up → d.on .DDC_CTRL_EN c = false → d.ddcBad c = false → ¬27 ∈ d.quies → Completes (.ddcEnable c) s (fun t =>
    t.dev.rg .DDC_CTRL_EN c = 1 ∧ (t.dev.ddc c).start = (d.link (d.rg .DDC_CTRL_LINK c)).n ∧ (t.dev.ddc c).outs = [] ∧
    (t.dev.ddc c).phase = x.phase ∧ ∀ j, j ≠ ⟨.DDC_CTRL_EN, c, 0⟩ → t.dev.key j = d.key j)) ∧
  (up → d.on .DDC_CTRL_EN c = false → d.ddcBad c = true → Completes (.ddcEnable c) s (fun t =>
    t.dev.rg .DDC_STAT_CFGERR c = 1 ∧ t.dev.rg .DDC_CTRL_EN c = d.rg .DDC_CTRL_EN c ∧ t.dev.ddcs = d.ddcs)) ∧
  (up → Completes (.ddcFtwWrite c ftw) s (fun t => t.dev.rg .DDC_FTW_FTW c = ftw.toNat ∧
    t.dev.ddc c = { x with retune := (x.retune.filter (fun p => p.1 < cycleOf d.tick) ++ [(cycleOf d.tick, ftw.toNat)] ++
      (x.retune.filter (fun p => cycleOf d.tick ≤ p.1))) })) ∧
  (x.outs = o :: rest → d.rg .ACQ_SRC_TYPE u = 1 → d.rg .ACQ_SRC_DDC u = c → d.rg .ACQ_STAT_STATE u = 1 →
    Completes (.ddcOutputSample c) s (fun t => (t.dev.ddc c).outs = rest ∧
      (t.dev.acq u).samps = (d.acq u).samps ++ [⟨sample, o.t, o.tick, o.bad⟩] ∧
      (t.dev.acq u).grid = o.tick ∧ (o.bad = true → t.dev.rg .DDC_STAT_INVALID c = 1)))

/-- AWG_START, AWG_STOP, AWG_PRIME, AWG_FLUSH and AWG_JUMP, each on the machine in which all before now has been played: a
start outside playback begins at its entry or sets CFGERR; PRIME loads the head cache and starts refill; FLUSH empties both;
a jump or stop while playing waits for its effect point, or is late; requests in a wrong state set WREJ (R300 to R302). The
choices of the model in it: log 54, 83. -/
def Obligations.WaveformCommands : Prop := ∀ (s : State) (g : AwgId) (e : EntryId) (granule : Bool) (ent : AwgEntry),
  let d := s.dev
  let b := s.played.dev
  let c := (d.st .AWG_CTRL_ENTRY g e).playTo s.mem d.tick
  let up := d.domOn 27 = true
  let state := fun (t : State) (n : Nat) => t.dev.rg .AWG_STAT_STATE g = n
  let first := fun (t : State) (n : Nat) => (t.dev.awg g).plan.head? = some ⟨n, e, ent, 0⟩
  let kept := fun (f : Dev) (t : State) => t.dev.rg .AWG_STAT_WREJ g = 1 ∧ t.dev.awgs = f.awgs ∧ state t (f.awgState g)
  let taken := fun (t : State) (q : AwgReq) => ∀ p : Rat, b.awgEffect g q (b.awgAfter g b.tick) = some p →
    (t.dev.awg g).req = some (q, b.tick, some p) ∧ (t.dev.awg g).plan = (b.awg g).plan ∧ state t 3
  let late := fun (t : State) (q : AwgReq) => b.awgEffect g q (b.awgAfter g b.tick) = none →
    (t.dev.awg g).req = some (q, b.tick, b.awgLate g q (b.awgAfter g b.tick)) ∧ t.dev.rg .AWG_STAT_JUMP_LATE g = 1 ∧
    state t 3
  (up → c.awgState g ≠ 3 → c.awgBad g = false → ¬27 ∈ c.quies → (c.awg g).plan.head?.map (·.entry) ≠ some e.val →
    (c.awgEntry s.mem g e).1 = some ent → Completes (.awgStart g e) s (fun t => state t 3 ∧ first t (c.awg g).count ∧
      t.dev.rg .AWG_STAT_CUR g = e ∧ t.dev.rg .AWG_CTRL_ENTRY g = e ∧ (t.dev.awg g).start = some d.tick ∧
      (t.dev.awg g).count = (c.awg g).count + 1)) ∧
  (∀ (p : AwgPlay) (l : List AwgPlay), up → c.awgState g ≠ 3 → c.awgBad g = false → ¬27 ∈ c.quies →
    (c.awg g).plan = p :: l → p.entry = e →
    Completes (.awgStart g e) s (fun t => state t 3 ∧ t.dev.awg g = { c.awg g with start := some d.tick })) ∧
  (up → c.awgState g ≠ 3 → c.awgBad g = true → Completes (.awgStart g e) s (fun t => state t (c.awgState g) ∧
    t.dev.rg .AWG_STAT_CFGERR g = 1 ∧ t.dev.awgs = c.awgs)) ∧
  (up → c.awgState g = 3 → Completes (.awgStart g e) s (kept c)) ∧
  (b.domOn 27 = true → b.awgState g = 3 → (b.awg g).start = none → (b.awg g).req = none →
    Completes (.awgStop g) s (fun t => taken t .stop ∧ late t .stop)) ∧
  (b.domOn 27 = true → b.awgState g ≠ 3 → Completes (.awgStop g) s (kept b)) ∧
  (up → d.awgState g = 0 → d.errs = [] → (d.awgEntry s.mem g e).1 = some ent → Completes (.awgPrime g e) s (fun t => state t 1 ∧
    first t (d.awg g).count ∧ (t.dev.awg g).heads = (d.hcEntries s.mem g).1.take 16 ∧ t.dev.rg .AWG_CTRL_ENTRY g = e)) ∧
  (up → d.awgState g = 0 → d.errs = [] → (d.awgEntry s.mem g e).1 = none → Completes (.awgPrime g e) s (fun t => state t 0 ∧
    t.dev.rg .AWG_STAT_CFGERR g = 1 ∧ t.dev.rg .AWG_STAT_STOPPED g = 1 ∧ (t.dev.awg g).plan = [])) ∧
  (up → d.awgState g ≠ 0 → Completes (.awgPrime g e) s (kept d)) ∧
  (b.domOn 27 = true → b.awgState g = 0 ∨ b.awgState g = 2 → Completes (.awgFlush g) s (fun t => state t 0 ∧
    (t.dev.awg g).plan = [] ∧ (t.dev.awg g).lines = [] ∧ (t.dev.awg g).heads = [] ∧ (t.dev.awg g).idle = 0)) ∧
  (b.domOn 27 = true → b.awgState g ≠ 0 → b.awgState g ≠ 2 → Completes (.awgFlush g) s (kept b)) ∧
  (b.domOn 27 = true → b.awgState g = 3 → (b.awg g).start = none → (b.awg g).req = none →
    Completes (.awgJump g e granule) s (fun t => taken t (.jump e granule) ∧ late t (.jump e granule) ∧
      t.dev.rg .AWG_CTRL_JMODE g = b2n granule ∧ t.dev.rg .AWG_CTRL_ENTRY g = e)) ∧
  (b.domOn 27 = true → b.awgState g ≠ 3 → Completes (.awgJump g e granule) s (kept b))

/-- AWG_JUMP_EFFECT, AWG_PRIME_COMPLETE, AWG_PLAYBACK_START, AWG_REFILL_LINE, AWG_PLAY_END, AWG_SAMPLE_UNDERRUN and
AWG_SEQ_ENTRY_WRITE: at its effect point a stop ends playback and a jump begins its entry; the first sample leaves at a
frame boundary and is stamped; refill brings the next line; a play that ends gives way to the next or to IDLE; a sample
without data counts an underrun; an active entry ignores writes (R298 to R304). The choices of the model in it: log 54,
83. -/
def Obligations.WaveformPlayback : Prop := ∀ (s : State) (g : AwgId) (e : EntryId) (off : Fin 16) (bytes : List Byte)
    (ent : AwgEntry) (p : AwgPlay) (l : List AwgPlay) (t0 : Rat) (a : Nat) (granule ep dup : Bool),
  let d := s.dev
  let x := d.awg g
  let b := s.played.dev
  let y := b.awg g
  let playing := d.awgState g = 3
  let state := fun (t : State) (n : Nat) => t.dev.rg .AWG_STAT_STATE g = n
  let by_ := fun (t : State) (k : Rat) => t.dev.tick = max d.tick k.ceil.toNat
  let idle := fun (t : State) => state t 0 ∧ t.dev.rg .AWG_STAT_STOPPED g = 1 ∧ (t.dev.awg g).plan = [] ∧
    (t.dev.awg g).req = none
  let ends := x.t0 + (p.ent.gran * 64 : Nat) * d.tp g
  let w := 0xA40000 + 0x10000 * g.val + 16 * e.val
  (playing → x.req = some (.stop, a, some t0) → Completes (.awgJumpEffect g) s (fun t => idle t ∧ by_ t t0)) ∧
  (playing → x.req = some (.jump e granule, a, some t0) → x.wait = [] →
    (((d.playTo s.mem t0).advanceTo t0.ceil.toNat).awgEntry s.mem g e).1 = some ent →
    Completes (.awgJumpEffect g) s (fun t => state t 3 ∧ t.dev.rg .AWG_STAT_CUR g = e ∧ (t.dev.awg g).req = none ∧
      (t.dev.awg g).t0 = t0 ∧ (∃ q, (t.dev.awg g).plan.head? = some q ∧ q.entry = e ∧ q.ent = ent ∧ q.play = 0) ∧
      by_ t t0)) ∧
  (d.awgState g = 1 → 192 ≤ x.lines.length → Completes (.awgPrimeComplete g) s (fun t => state t 2 ∧
    t.dev.awgs = d.awgs)) ∧
  (d.awgState g = 1 → x.lines.length < 192 → x.fetch.isSome → exec (.awgPrimeComplete g) s = .next s) ∧
  (let r := 4 + d.rg .AWG_OUT_LINK g
   let f := b.tcTicks r * b.lnkS r
   let from_ : Rat := max ((a + 128000 : Nat) : Rat) (b.sendAt r).1
   let k := (b.link r).tlTick + (((from_ - (b.link r).tlTick) / f).ceil : Rat) * f
   y.start = some a → y.plan = p :: l → y.req = none → b.rg .LNK_STAT_STATE r = 3 → 0 < f →
    b.rg .AWG_OUT_LINK g = d.rg .AWG_OUT_LINK g →
    Completes (.awgPlaybackStart g) s (fun t => (t.dev.awg g).start = none ∧ (t.dev.awg g).t0 = k ∧
      (t.dev.awg g).sample = 0 ∧ (t.dev.awg g).at_ = 0 ∧ (t.dev.awg g).idle = p.ent.idle ∧
      t.dev.rg .AWG_STAT_CUR g = p.entry % 2 ^ 12 ∧ by_ t k)) ∧
  (∀ no n : Nat, let c := (b.awgDrop g).awgSeek s.mem g 64; let z := c.awg g; let line := p.ent.line + n
    let at_ := awgMem g + 65536 + 256 * z.slotFor
    z.fetch = some (no, n) → z.playNo no = some p → c.awgState g ≠ 0 → z.lines.length < 768 →
    c.dramPath line = .served → c.unzeroed line = false → c.errs = [] →
    Completes (.awgRefillLine g) s (fun t => (t.dev.awg g).lines = z.lines ++ [(no, n, z.slotFor)] ∧
      (∀ i < 256, memGet t.mem (at_ + i) = memGet s.mem (dramBase + line * 256 + i)) ∧
      (∀ i < 16, at_ + 16 * i ∈ t.dev.poison ↔ dramBase + line * 256 + 16 * i ∈ c.poison) ∧
      (∀ q, (q < at_ ∨ at_ + 256 ≤ q) → memGet t.mem q = memGet s.mem q))) ∧
  (playing → x.start = none → x.req = none → x.plan = p :: l → l ≠ [] → Completes (.awgPlayEnd g) s (fun t => state t 3 ∧
    (∀ q, l.head? = some q → (t.dev.awg g).plan.head? = some q ∧ t.dev.rg .AWG_STAT_CUR g = q.entry % 2 ^ 12) ∧
    (t.dev.awg g).t0 = ends ∧ by_ t ends)) ∧
  (playing → x.start = none → x.req = none → x.plan = [p] → p.ent.repM1 ≤ p.play → p.ent.stop = true →
    Completes (.awgPlayEnd g) s (fun t => idle t ∧ by_ t ends)) ∧
  (let k := max y.sample (if (b.tick : Rat) ≤ y.t0 then 0 else (((b.tick : Rat) - y.t0) / b.tp g).ceil.toNat)
   b.awgState g = 3 → y.start = none → y.plan = p :: l → k < p.ent.gran * 64 → b.awgHas g p k = false →
    Completes (.awgSampleUnderrun g) s (fun t => t.dev.rg .AWG_STAT_UNDERRUN g = 1 ∧ (t.dev.awg g).sample = k + 1 ∧
      t.dev.rg .AWG_URUN_COUNT g = min (b.rg .AWG_URUN_COUNT g + 1) (2 ^ 32 - 1) ∧ by_ t (y.t0 + k * b.tp g))) ∧
  (s.wf → d.domOn 27 = true → (x.active false).any (·.1 == e.val) = false → d.errs = [] → off.val + bytes.length ≤ 16 →
    Completes (.awgSeqEntryWrite g e off bytes ep dup) s (fun t =>
      (∀ i < bytes.length, memGet t.mem (w + off + i) = (bytes.getD i 0).toNat) ∧
      (bytes ≠ [] → ep = true → w ∈ t.dev.poison) ∧
      ∀ y, (y < w + off ∨ w + off + bytes.length ≤ y) → memGet t.mem y = memGet s.mem y)) ∧
  (d.domOn 27 = true → (x.active false).any (·.1 == e.val) = true →
    Completes (.awgSeqEntryWrite g e off bytes ep dup) s (fun t => t.mem = s.mem ∧
      t.dev.rg .AWG_SWREJ_SEQ g = min (d.rg .AWG_SWREJ_SEQ g + 1) 0xFFFF))

/-- REFCLK_LOST, REFCLK_RESTORED, TIME_NOW_READ, TIME_DEVNUM_WRITE, TIME_SOURCE_SELECT, TICKSYNC_EDGE, SEAM_TIME_SEND and
SEAM_TIME_TIMEOUT: a lost reference ends every running burst; the device number waits for every Seam port to be disabled; a
new source drops the old one; the first TICKSYNC edge aligns the coarse count, a later one is checked; a server sends its
time, and a silent server is dropped after 10 µs (R21, R310 to R312, R316 to R318). The choices of the model in it: log 56,
80. -/
def Obligations.TimeSources : Prop := ∀ (s : State) (dt : Nat) (num : BitVec 10) (src : BitVec 2) (e : EngId) (p : PortId),
  let d := s.dev
  let x := d.time
  (x.refLost = false → Completes (.refclkLost dt) s (fun t => t.dev.time.refLost = true ∧ t.dev.time.slew = 0 ∧
    t.dev.time.locked = 0 ∧ t.dev.rg .HOST_READY_TIMING 0 = 0 ∧ t.dev.tick = d.tick + dt ∧
    (d.runs e = true → (d.eng e).ending = none → t.dev.rg .ENG_STAT_STATE e = 3 ∧
      (t.dev.eng e).ending = some ⟨0x01, e, d.tick + dt, false⟩))) ∧
  (x.refLost = true → Completes .refclkRestored s (fun t => t.dev.time = x.change d.tick (fun y => { y with refLost := false }) ∧
    t.dev.engs = d.engs)) ∧
  Completes .timeNowRead s (fun t => t.dev.regs = d.regs ∧
    t.dev.time = { x with aux := d.nowFrac % 65536 + x.gen * 2 ^ 16 + d.quality * 2 ^ 24 }) ∧
  ((∀ q : PortId, d.on .LNK_SP_CTRL_EN q = false) → Completes (.timeDevnumWrite num) s (fun t =>
    t.dev.rg .TIME_DEVNUM_NUM 0 = num.toNat ∧ ∀ j, j ≠ ⟨.TIME_DEVNUM_NUM, 0, 0⟩ → t.dev.key j = d.key j)) ∧
  (d.on .LNK_SP_CTRL_EN p = true → Completes (.timeDevnumWrite num) s (fun t => t.dev.rg .TIME_DEVNUM_WREJ 0 = 1 ∧
    t.dev.rg .TIME_DEVNUM_NUM 0 = d.rg .TIME_DEVNUM_NUM 0)) ∧
  (d.rg .TIME_CTRL_SRC 0 ≠ src.toNat → Completes (.timeSourceSelect src) s (fun t =>
    t.dev.rg .TIME_CTRL_SRC 0 = src.toNat ∧ t.dev.time.locked = 0 ∧ t.dev.time.slew = 0 ∧ t.dev.time.master = none ∧
    t.dev.time.server = none ∧ t.dev.time.gen = x.gen ∧ t.dev.time.sub = x.sub)) ∧
  (d.rg .TIME_CTRL_SRC 0 = src.toNat → Completes (.timeSourceSelect src) s (fun t => t.dev.time = x)) ∧
  (x.synced = false → x.refLost = false → Completes (.ticksyncEdge dt) s (fun t => t.dev.tick = d.tick + dt ∧
    t.dev.time.synced = true ∧ t.dev.time.resync = false ∧ (t.dev.coarseAt t.dev.tick + 3) % 40000 ≤ 3 ∧
    t.dev.regs = d.regs)) ∧
  (x.synced = true → x.resync = false → d.coarseAt (d.tick + dt) % 40000 ≠ 0 → Completes (.ticksyncEdge dt) s (fun t =>
    t.dev.rg .TIME_STAT_TSYNC_ERR 0 = 1 ∧ t.dev.time.coarse = x.coarse)) ∧
  (d.on .TIME_CTRL_SERVE 0 = true → d.rg .TIME_CTRL_SRC 0 ≠ 2 → d.rg .LNK_SP_STAT_STATE p = 2 →
    Completes .seamTimeSend s (fun t => (d.tick, SeamMsg.time d.pos 0 (d.rg .TIME_DEVNUM_NUM 0) (d.coarseAt d.tick) d.nowFrac
      x.gen d.quality 0) ∈ (t.dev.seamQ.get? p).getD [])) ∧
  (d.on .TIME_CTRL_SERVE 0 = false → exec .seamTimeSend s = .next s) ∧
  (d.rg .TIME_CTRL_SRC 0 = 2 → x.server.isSome → Completes .seamTimeTimeout s (fun t => t.dev.time.server = none ∧
    t.dev.time.locked = 0 ∧ t.dev.time.slew = 0 ∧ t.dev.tick = max d.tick (x.lastMsg + 40000000)))

/-- PTP_SYNC, PTP_FOLLOW_UP, PTP_DELAY_REQ, PTP_DELAY_RESP, PTP_PDELAY_REQ, PTP_PDELAY_RESP and PTP_PDELAY_RESP_FOLLOW_UP: a
slave measures its offset with origin time, corrections, path delay and asymmetry; a master answers; the exchanges give the
mean path delay (R313 to R315). The choices of the model in it: log 2, 47. -/
def Obligations.PtpMessages : Prop := ∀ (s : State) (h : PtpHead) (two : Bool) (v : BitVec 80) (t1 t2 t3 : Int),
  let d := s.dev
  let x := d.time
  let port := b2n h.port
  let src := h.src.toNat
  let seq := h.seq.toNat
  let at_ : Int := v.toNat
  let mine := d.ptpMine port h.domain.toNat = true
  let follows := d.ptpFollows src = true
  let p2p := d.on .TIME_CTRL_P2P 0 = true
  let sent := fun (t : State) (k n : Nat) (a c : Int) => t.dev.out = d.out ++ [.ptp port k n a c]
  let delay := fun (t : State) (i : Int) => t.dev.rg .PTP_MPD_MPD 0 = unsigned 32 (i / 2 / 256)
  (mine → follows → two = true → Completes (.ptpSync h two v) s (fun t => t.dev.time.lastMsg = d.tick ∧
    ∃ a : Int, t.dev.time.sync = some ⟨src, seq, a, h.corr, 0⟩ ∧ (a - d.nowFrac).natAbs ≤ 131072)) ∧
  (mine → follows → two = false → Completes (.ptpSync h two v) s (fun t => t.dev.time.sync = none ∧
    ∃ a : Int, t.dev.time.last12 = some (at_ + h.corr, a) ∧
      t.dev.rg .TIME_OFFS_OFFS 0 = unsigned 64 (at_ + h.corr + d.mpd + d.asym - a))) ∧
  (¬(mine ∧ follows) → Completes (.ptpSync h two v) s (fun t => t.dev.time = x)) ∧
  (∀ y : PtpHalf, x.sync = some y → mine → follows → y.src = src → y.seq = seq → Completes (.ptpFollowUp h v) s (fun t =>
    t.dev.time.sync = none ∧ t.dev.time.last12 = some (at_ + y.corr + h.corr, y.at_) ∧
    t.dev.rg .TIME_OFFS_OFFS 0 = unsigned 64 (at_ + y.corr + h.corr + d.mpd + d.asym - y.at_))) ∧
  (mine → d.on .TIME_CTRL_MASTER 0 = true → ¬p2p → Completes (.ptpDelayReq h) s (fun t => t.dev.regs = d.regs ∧
    ∃ a : Int, sent t 3 seq a h.corr ∧ (a - d.nowFrac).natAbs ≤ 131072)) ∧
  (d.on .TIME_CTRL_MASTER 0 = false → exec (.ptpDelayReq h) s = .next s) ∧
  (x.dreq = some (seq, t3) → x.last12 = some (t1, t2) → mine → follows → ¬p2p → Completes (.ptpDelayResp h v) s (fun t =>
    delay t ((t2 - t1) + (at_ - h.corr - t3)) ∧ t.dev.time = { x with dreq := none })) ∧
  (mine → p2p → d.on .TIME_CTRL_TWOSTEP 0 = false → Completes (.ptpPdelayReq h) s (fun t => t.dev.regs = d.regs ∧
    ∃ turn : Int, 0 ≤ turn ∧ sent t 5 seq 0 (h.corr + turn))) ∧
  (mine → p2p → d.on .TIME_CTRL_TWOSTEP 0 = true → Completes (.ptpPdelayReq h) s (fun t => t.dev.regs = d.regs ∧
    ∃ a b : Int, a ≤ b ∧ t.dev.out = d.out ++ [.ptp port 5 seq a 0, .ptp port 6 seq b h.corr])) ∧
  (x.pdreq = some (seq, t1) → mine → p2p → two = false → Completes (.ptpPdelayResp h two v) s (fun t =>
    t.dev.time.pdreq = none ∧ ∃ a : Int, delay t (a - t1 - h.corr) ∧ (a - d.nowFrac).natAbs ≤ 131072)) ∧
  (x.pdreq = some (seq, t1) → mine → p2p → two = true → Completes (.ptpPdelayResp h two v) s (fun t =>
    t.dev.rg .PTP_MPD_MPD 0 = d.rg .PTP_MPD_MPD 0 ∧
    ∃ a : Int, t.dev.time = { x with pdResp := some ⟨src, seq, a, h.corr, v.toNat⟩ })) ∧
  (∀ y : PtpHalf, x.pdResp = some y → x.pdreq = some (seq, t1) → mine → y.src = src →
    Completes (.ptpPdelayRespFollowUp h v) s (fun t => t.dev.time = { x with pdResp := none, pdreq := none } ∧
      delay t ((y.at_ - t1) - (at_ - y.peer) - y.corr - h.corr)))

/-- PTP_ANNOUNCE, PTP_OTHER_MESSAGE, PTP_MESSAGE_SEND and PTP_SOURCE_TIMEOUT: the first or a better clock becomes the
master; other messages are discarded; a master sends Sync and Announce, a slave Delay_Req, a peer Pdelay_Req, each with the
next sequence number; a silent source unlocks (R313, R315). The choices of the model in it: log 2, 56. -/
def Obligations.PtpRoles : Prop := ∀ (s : State) (h : PtpHead) (a : PtpAnnounce),
  let d := s.dev
  let x := d.time
  let port := d.rg .TIME_CTRL_PORT 0
  let up := d.ethUp port = true
  let slave := d.rg .TIME_CTRL_SRC 0 = 1 ∧ d.on .TIME_CTRL_MASTER 0 = false
  let p2p := d.on .TIME_CTRL_P2P 0 = true
  let key := announceKey a h.src.toNat
  let heard := d.ptpMine (b2n h.port) h.domain.toNat = true
  let q := x.seq % 65536
  let late := x.lastMsg + 4 * logTicks (d.rg .PTP_INTV_SYNC 0)
  let gone := x.lastAnn + d.rg .PTP_INTV_ATO 0 * logTicks (d.rg .PTP_INTV_ANN 0)
  (heard → slave → (x.master = none ∨ ∃ m, x.master = some m ∧ lexLt key m.2 = true) → Completes (.ptpAnnounce h a) s (fun t =>
    t.dev.time.master = some (h.src.toNat, key) ∧ t.dev.time.lastAnn = d.tick ∧ t.dev.rg .PTP_GMID_ID 0 = a.gm.toNat)) ∧
  (∀ m, x.master = some m → m.1 ≠ h.src.toNat → lexLt key m.2 = false → exec (.ptpAnnounce h a) s = .next s) ∧
  (d.on .TIME_CTRL_MASTER 0 = true → exec (.ptpAnnounce h a) s = .next s) ∧
  exec (.ptpOtherMessage h) s = .next s ∧
  (up → d.on .TIME_CTRL_MASTER 0 = true → d.on .TIME_CTRL_TWOSTEP 0 = false → Completes (.ptpMessageSend .sync) s (fun t =>
    t.dev.time.seq = x.seq + 1 ∧ ∃ i : Int, t.dev.out = d.out ++ [.ptp port 0 q i 0])) ∧
  (up → d.on .TIME_CTRL_MASTER 0 = true → d.on .TIME_CTRL_TWOSTEP 0 = true → Completes (.ptpMessageSend .sync) s (fun t =>
    t.dev.time.seq = x.seq + 1 ∧ ∃ i : Int, t.dev.out = d.out ++ [.ptp port 0 q 0 0, .ptp port 1 q i 0])) ∧
  (up → d.on .TIME_CTRL_MASTER 0 = true → Completes (.ptpMessageSend .announce) s (fun t =>
    t.dev.time.seq = x.seq + 1 ∧ t.dev.out = d.out ++ [.ptp port 7 q 0 0])) ∧
  (up → slave → ¬p2p → x.master.isSome → Completes (.ptpMessageSend .delayReq) s (fun t => t.dev.time.seq = x.seq + 1 ∧
    ∃ i : Int, t.dev.time.dreq = some (q, i) ∧ t.dev.out = d.out ++ [.ptp port 2 q i 0])) ∧
  (up → p2p → Completes (.ptpMessageSend .pdelayReq) s (fun t => t.dev.time.seq = x.seq + 1 ∧
    ∃ i : Int, t.dev.time.pdreq = some (q, i) ∧ t.dev.out = d.out ++ [.ptp port 4 q i 0])) ∧
  (∀ k : PtpSend, d.ethUp port = false → exec (.ptpMessageSend k) s = .next s) ∧
  (d.rg .TIME_CTRL_SRC 0 = 1 → x.master.isSome → Completes .ptpSourceTimeout s (fun t => t.dev.time.locked = 0 ∧
    t.dev.time.slew = 0 ∧ t.dev.time.sync = none ∧ (gone ≤ late → t.dev.time.master = none) ∧
    (late < gone → t.dev.time.master = x.master) ∧ t.dev.tick = max d.tick (min late gone)))

/-- LANE_SLIP, LANE_SLIP_SEARCH_STEP, LANE_BLOCK_LOCK_GAIN, LANE_BLOCK_LOCK_LOSS, LANE_CLOCK_LOCK_GAIN,
LANE_CLOCK_LOCK_LOSS, LANE_FOM_WINDOW, LANE_DENSITY_WINDOW, INVALID_SYNC_HEADER, PRBS_BIT_ERROR, ETH_RATE_FALLBACK and
ETH_LINK_DOWN_RESTART: a slip moves one UI and wraps after 65; locks follow and a lost block lock is counted; sparse windows
freeze adaptation, which thaws after two dense ones; an Ethernet port falls back to the lower rate and starts again at the
higher (R339, R341 to R346). The choices of the model in it: log 58. -/
def Obligations.LanesFollow : Prop := ∀ (s : State) (n : LaneId) (v : Byte) (port : Fin 2),
  let d := s.dev
  let live := d.laneLive n = true
  let slipped := (d.rg .LNK_LSTAT_SLIPPOS n + 1) % 66
  let block := d.on .LNK_LSTAT_BLOCK n = true
  let prbs := d.on .LNK_LCTRL_PRBS n = true
  let auto := d.on .LNK_LCTRL_AUTOSLIP n = true
  let frozen := d.on .LNK_LSTAT_FROZEN n = true
  let sparse := v.toNat < d.rg .LNK_LCTRL_DTHR n
  let only := fun (t : State) (f : Field) => ∀ j, j ≠ ⟨f, n, 0⟩ → t.dev.key j = d.key j
  let counts := fun (t : State) (f : Field) => t.dev.rg f n = min (d.rg f n + 1) (2 ^ 32 - 1)
  let ethDown := d.domOn 2 = true ∧ d.on .LNK_LSTAT_BLOCK (8 + port) = false
  (d.domOn (laneDom n) = true → 8 ≤ n.val → n.val < 26 → ¬auto → Completes (.laneSlip n) s (fun t =>
    t.dev.rg .LNK_LSTAT_SLIPPOS n = slipped ∧ only t .LNK_LSTAT_SLIPPOS)) ∧
  (d.domOn (laneDom n) = true → n.val < 26 → (n.val < 8 ∨ auto) → Completes (.laneSlip n) s (fun t =>
    t.dev.rg .LNK_LSTAT_WREJ n = 1 ∧ only t .LNK_LSTAT_WREJ)) ∧
  (live → auto → ¬block → ¬prbs → Completes (.laneSlipSearchStep n) s (fun t =>
    t.dev.rg .LNK_LSTAT_SLIPPOS n = slipped ∧ only t .LNK_LSTAT_SLIPPOS)) ∧
  (live → ¬block → ¬prbs → Completes (.laneBlockLockGain n) s (fun t => t.dev.rg .LNK_LSTAT_BLOCK n = 1)) ∧
  (live → prbs → exec (.laneBlockLockGain n) s = .next s) ∧
  (live → block → ¬prbs → Completes (.laneBlockLockLoss n) s (fun t => t.dev.rg .LNK_LSTAT_BLOCK n = 0 ∧
    t.dev.rg .LNK_LSTAT_LOSS n = 1 ∧ counts t .LNK_LLOSS_COUNT)) ∧
  (live → d.on .LNK_LSTAT_LOCK n = false → Completes (.laneClockLockGain n) s (fun t => t.dev.rg .LNK_LSTAT_LOCK n = 1)) ∧
  (live → d.on .LNK_LSTAT_LOCK n = true → Completes (.laneClockLockLoss n) s (fun t => t.dev.rg .LNK_LSTAT_LOCK n = 0)) ∧
  (live → ¬frozen → d.adapts n = false → Completes (.laneFomWindow n v) s (fun t => t.dev.rg .LNK_LSTAT_FOM n = v.toNat ∧
    only t .LNK_LSTAT_FOM)) ∧
  (live → d.adapts n = true → Completes (.laneFomWindow n v) s (fun t => t.dev.rg .LNK_LSTAT_FOM n = v.toNat ∧
    ∀ j, j.f ∉ .LNK_LSTAT_FOM :: rxEq → t.dev.key j = d.key j)) ∧
  (live → frozen → exec (.laneFomWindow n v) s = .next s) ∧
  (live → sparse → ¬frozen → Completes (.laneDensityWindow n v) s (fun t => t.dev.rg .LNK_LSTAT_DENS n = v.toNat ∧
    t.dev.rg .LNK_LSTAT_FROZEN n = 1 ∧ counts t .LNK_LFRZ_COUNT)) ∧
  (live → ¬sparse → frozen → Completes (.laneDensityWindow n v) s (fun t => t.dev.rg .LNK_LSTAT_DENS n = v.toNat ∧
    t.dev.rg .LNK_LSTAT_FROZEN n = (if 1 ≤ (d.lane n).run then 0 else 1) ∧
    (t.dev.lane n).run = if 1 ≤ (d.lane n).run then 0 else 1)) ∧
  (live → ¬sparse → ¬frozen → Completes (.laneDensityWindow n v) s (fun t => t.dev.rg .LNK_LSTAT_DENS n = v.toNat ∧
    (t.dev.lane n).good = rxEq.map (fun f => d.rg f n) ∧ only t .LNK_LSTAT_DENS)) ∧
  (live → ¬prbs → Completes (.invalidSyncHeader n) s (fun t => counts t .LNK_LERR_COUNT ∧ only t .LNK_LERR_COUNT)) ∧
  (live → prbs → Completes (.prbsBitError n) s (fun t => counts t .LNK_LPRBS_COUNT ∧ only t .LNK_LPRBS_COUNT)) ∧
  (ethDown → Completes (.ethRateFallback port) s (fun t => port.val ∈ t.dev.ethSlow ∧ t.dev.regs = d.regs)) ∧
  (ethDown → Completes (.ethLinkDownRestart port) s (fun t => port.val ∉ t.dev.ethSlow ∧ t.dev.regs = d.regs))

/-- SEAM_PORT_ENABLE, SEAM_LINK_CONTROL_BLOCK, SEAM_PORT_TRAINED, SEAM_MULTIBLOCK_SEND and SEAM_BLOCK_CRC_FAIL: an enabled
port trains, learns its neighbour or reports a conflict, and with both lanes is FULL, with one HALF; at the boundary its
messages leave; a block whose CRC fails is counted (R348 to R350, R352, R358). The choices of the model in it: log 22,
57. -/
def Obligations.SeamPorts : Prop := ∀ (s : State) (p : PortId) (laneB inPhase : Bool) (domain : BitVec 16) (pos : Fin 16)
    (dev : BitVec 10) (tied : List (Fin 16 × GrpId)) (foms : List Byte) (trip : Nat),
  let d := s.dev
  let up := d.domOn 28 = true
  let state := d.rg .LNK_SP_STAT_STATE p
  let becomes := fun (t : State) (k : Nat) => t.dev.rg .LNK_SP_STAT_STATE p = k
  let block := Instr.seamLinkControlBlock p laneB inPhase domain pos dev tied
  let knows := fun (t : State) => ∀ q : Nat, ∀ k : Nat,
    t.dev.far.any (fun f => f.pos == q && f.grp == k) = tied.any (fun x => x.1.val == q && x.2.val == k)
  let serves := d.seamLane (10 + 2 * p + b2n laneB) = true
  let best := txSettings.getD (argMax (foms.map (·.toNat))) (0, 0)
  (up → d.on .LNK_SP_CTRL_EN p = false → ¬28 ∈ d.quies → Completes (.seamPortEnable p) s (fun t => becomes t 1 ∧
    t.dev.rg .LNK_SP_CTRL_EN p = 1 ∧ t.dev.port p = {} ∧ t.dev.seamQ.get? p = none)) ∧
  (up → d.on .LNK_SP_CTRL_EN p = true → exec (.seamPortEnable p) s = .next s) ∧
  (serves → state = 1 → d.portConflict p domain.toNat pos dev.toNat = false → Completes block s (fun t => becomes t 1 ∧
    t.dev.rg .LNK_SP_STAT_NPOS p = pos ∧ t.dev.rg .LNK_SP_STAT_NDEV p = dev.toNat ∧ (t.dev.port p).met = true ∧
    knows t)) ∧
  (serves → state = 1 → domain.toNat ≠ d.rg .LNK_SD_CFG_DOMAIN 0 → Completes block s (fun t => becomes t 1 ∧
    t.dev.rg .LNK_SP_STAT_DOMERR p = 1 ∧ (t.dev.port p).met = false)) ∧
  (serves → state = 3 → inPhase = true → d.seamLanes p = 2 → Completes block s (fun t => becomes t 2 ∧ knows t)) ∧
  (state = 1 → (d.port p).met = true → d.seamLanes p ≠ 0 → Completes (.seamPortTrained p foms trip) s (fun t =>
    becomes t (if d.seamLanes p = 2 then 2 else 3) ∧ t.dev.rg .LNK_SP_LAT_LAT p = 8 * trip % 2 ^ 16 ∧
    t.dev.rg .LNK_LTXEQ_PRE (10 + 2 * p) = best.1 ∧ t.dev.rg .LNK_LTXEQ_POST (11 + 2 * p) = best.2)) ∧
  (up → d.on .LNK_SP_CTRL_EN p = true → state = 0 → Completes (.seamMultiblockSend p) s (fun t => becomes t 1 ∧
    (t.dev.port p).seq = (d.port p).seq + 1 ∧ t.dev.tick = d.nextMultiblock)) ∧
  (up → d.on .LNK_SP_CTRL_EN p = true → state = 2 → d.seamLanes p = 2 → (d.seamQ.get? p).getD [] = [] →
    Completes (.seamMultiblockSend p) s (fun t => becomes t 2 ∧ (t.dev.port p).seq = (d.port p).seq + 1 ∧
      t.dev.tick = d.nextMultiblock)) ∧
  (∀ m : SeamMsg, up → d.on .LNK_SP_CTRL_EN p = true → state = 2 → d.seamLanes p = 2 →
    (d.seamQ.get? p).getD [] = [(d.tick, m)] → Completes (.seamMultiblockSend p) s (fun t => becomes t 2 ∧
      t.dev.seamQ.get? p = some [] ∧ t.dev.out.getLast? = some (.seam p (m.leave (d.nextMultiblock - d.tick))))) ∧
  (up → d.on .LNK_SP_CTRL_EN p = true → state = 2 → d.seamLanes p = 1 → Completes (.seamMultiblockSend p) s (fun t =>
    becomes t 3 ∧ t.dev.rg .LNK_SP_HALF_COUNT p = min (d.rg .LNK_SP_HALF_COUNT p + 1) (2 ^ 32 - 1))) ∧
  (up → Completes (.seamBlockCrcFail p) s (fun t => ∀ j, t.dev.key j = if j = ⟨.LNK_SP_ERR_CRCERR, p, 0⟩ then
    min (d.rg .LNK_SP_ERR_CRCERR p + 1) 0xFFFF else d.key j))

/-- SEAM_TIE_RECEIVE, SEAM_TIE_EVT_RECEIVE, SEAM_TRIG_RECEIVE, SEAM_SEW_RECEIVE, SEAM_TIME_RECEIVE and TIE_FLAGS_APPLY: a
new message is seen once, passed on within four hops, and acts: tie traffic waits for its instant, a trigger meets the SEAM
slots, a READY or veto is held, a time measures the offset; tie flags become visible 40 cycles later (R67, R264, R317, R329,
R353, R354). The choices of the model in it: log 21. -/
def Obligations.SeamMessages : Prop := ∀ (s : State) (h : SeamHead) (g : GrpId) (beat : Fin 64) (cycle : Fin 16)
    (fail mat pc : BitVec 16) (per : BitVec 40) (ch : Fin 16) (at_ : BitVec 80) (tag gen : Byte) (veto : Bool)
    (low : BitVec 36) (srv : BitVec 10) (coarse : Nat) (q : BitVec 4) (corr : BitVec 32) (k : TieKind),
  let d := s.dev
  let tie := SeamMsg.tie h.pos h.hops g beat fail.toNat mat.toNat pc.toNat per.toNat
  let evt := SeamMsg.tieEvt h.pos h.hops g beat cycle k.code k.arg
  let open_ := fun (m : SeamMsg) => d.domOn 28 = true ∧ d.rg .LNK_SP_STAT_STATE h.port = 2 ∧
    d.seen.any (fun x => x.2.same m) = false
  let passed := fun (t : State) (m : SeamMsg) => h.hops.val < 4 → ∀ p : PortId, p ≠ h.port →
    d.rg .LNK_SP_STAT_STATE p = 2 → (d.tick, m.further) ∈ (t.dev.seamQ.get? p).getD []
  let sew := SeamMsg.sew h.pos h.hops tag.toNat veto low.toNat
  let time := SeamMsg.time h.pos h.hops srv.toNat coarse at_.toNat gen.toNat q.toNat
    (corr.toNat + d.rg .LNK_SP_LAT_LAT h.port)
  let due := d.beatTick beat + 640000
  (open_ tie → d.tick ≤ due → Completes (.seamTieReceive h g beat fail mat pc per) s (fun t => passed t tie ∧
    (due, tie) ∈ t.dev.tieIn ∧ (g.val, h.pos.val, beat.val, d.tick) ∈ t.dev.tieGot ∧ t.dev.regs = d.regs)) ∧
  (open_ evt → d.tick ≤ due + cycle * 4000 → Completes (.seamTieEvtReceive h g beat cycle k) s (fun t => passed t evt ∧
    (due + cycle * 4000, evt) ∈ t.dev.tieIn ∧ t.dev.regs = d.regs)) ∧
  (∀ (u : AcqId) (n : Nat), open_ (.trig h.pos h.hops ch at_.toNat gen.toNat) → gen.toNat = d.time.gen →
    d.slotsOf u 4 = [n] → bitsOf (d.slotP0 u n) 0 4 = ch → d.rg .ACQ_STAT_STATE u ≠ 0 →
    ((d.acq u).since : Rat) ≤ d.tickAt at_.toNat → (d.acq u).decided < d.grainClose u (d.tickAt at_.toNat) →
    (d.tick : Rat) ≤ d.grainClose u (d.tickAt at_.toNat) + (d.acq u).delay * 4000 →
    Completes (.seamTrigReceive h ch at_ gen) s (fun t => passed t (.trig h.pos h.hops ch at_.toNat gen.toNat) ∧
      (t.dev.acq u).conds = (d.acq u).conds ++ [⟨n, at_.toNat, d.tickAt at_.toNat⟩])) ∧
  (open_ sew → Completes (.seamSewReceive h tag veto low) s (fun t => passed t sew ∧
    ⟨tag.toNat, h.pos, veto, d.nearNs low.toNat⟩ ∈ t.dev.sewMsg ∧ t.dev.regs = d.regs)) ∧
  (open_ time → d.rg .TIME_CTRL_SRC 0 = 2 → d.time.server = none →
    Completes (.seamTimeReceive h srv coarse at_ gen q corr) s (fun t => passed t time ∧
      t.dev.time.server = some srv.toNat ∧ t.dev.rg .TIME_OFFS_OFFS 0 = unsigned 64
        ((at_.toNat : Int) + (corr.toNat + d.rg .LNK_SP_LAT_LAT h.port) * 256 - d.nowFrac))) ∧
  (d.domOn 28 = false → exec (.seamSewReceive h tag veto low) s = .next s) ∧
  (∀ (t0 : Nat) (e : EngId), d.tieIn = [(t0, .tieEvt h.pos 0 g beat cycle 3 0)] → d.tied e = true → d.grp e = g →
    d.runs e = true → Completes .tieFlagsApply s (fun t => t.dev.tieIn = [] ∧ t.dev.tick = max d.tick t0 ∧
      (t.dev.rg .ENG_EV_PEND_PEND e).testBit 0)) ∧
  (∀ t0 : Nat, d.tick ≤ t0 → d.tieIn = [(t0, tie)] → d.far = [⟨g, h.pos, 0, false, false⟩] → d.farQ = [] →
    d.tieRunning g = [] → bitOf fail.toNat (d.beatAt t0).2 = true → Completes .tieFlagsApply s (fun t =>
      t.dev.farQ = [⟨g, h.pos, t0 + 160000, true, bitOf mat.toNat (d.beatAt t0).2⟩] ∧ t.dev.tick = t0))

/-- DRAM_TRAINING_COMPLETE, DRAM_RETRAIN_SLICE, DRC_FSP_REQ, FSP_CHANGE_START and FSP_CHANGE_COMPLETE: a training with eyes
wide enough on every group stores the delays of each and makes the port READY, a narrow eye makes it FAILED; a set-point
request waits for a quiet point or FORCE, then the stored delays are loaded or a training follows (R367 to R370, R372 to
R374). The choices of the model in it: log 60. -/
def Obligations.DramTraining : Prop := ∀ (s : State) (p : DramId) (l : List Sweep) (t₀ : Train) (c : CmdRun) (k : BitVec 1)
    (force : Bool),
  let d := s.dev
  let up := d.domOn (30 + p.val) = true
  let x := d.drc p
  let state := d.rg .DRC_STAT_STATE p
  let eyes := ((d.groups p).zip l).map (fun x => (x.1, eyeOf x.2.rd.toNat 0 512, eyeOf x.2.wr.toNat 0 512))
  let wide := ∀ x ∈ eyes, 24 ≤ x.2.1.1 ∧ 24 ≤ x.2.2.1
  let trains := state = 2 ∧ x.train = some t₀ ∧ l.length = (d.groups p).length
  let opens := d.on .HOST_READY_THIMBLE 0 = true ∧ x.zero = false
  let becomes := fun (t : State) (v : Nat) => t.dev.rg .DRC_STAT_STATE p = v
  let valid := fun (d : Dev) => d.rg (if k = 0 then .DRC_FSP_VALID0 else .DRC_FSP_VALID1) p
  let alone := d.on .DRC_CFG_INTLV 0 = false
  (trains → wide → opens → t₀.both = false → t₀.fsp < 2 → Completes (.dramTrainingComplete p l) s (fun t => becomes t 3 ∧
    (t.dev.drc p).train = none ∧ t.dev.rg .DRC_STAT_FSP p = t₀.fsp ∧
    t.dev.rg (if t₀.fsp = 0 then .DRC_FSP_VALID0 else .DRC_FSP_VALID1) p = 1 ∧
    ∀ x ∈ eyes, t.dev.rgi .DRC_TRES_RDLY p (tres t₀.fsp x.1.1 x.1.2) = x.2.1.2 % 2 ^ 9 ∧
      t.dev.rgi .DRC_TRES_WDLY p (tres t₀.fsp x.1.1 x.1.2) = x.2.2.2 % 2 ^ 9 ∧
      t.dev.rgi .DRC_TRES_VALID p (tres t₀.fsp x.1.1 x.1.2) = 1)) ∧
  (trains → ¬wide → Completes (.dramTrainingComplete p l) s (fun t => becomes t 6 ∧ (t.dev.drc p).train = none)) ∧
  (x.train = none → Completes (.dramTrainingComplete p l) s (fun t => t = s)) ∧
  (up → x.retrain = true → state = 3 → d.anyPanic p = false → exec (.dramRetrainSlice p none) s = .next s) ∧
  (up → x.retrain = true → state = 3 → d.anyPanic p = true → exec (.dramRetrainSlice p (some l)) s = .next s) ∧
  (up → x.retrain = true → state = 3 → d.anyPanic p = false → d.cmd = some c → l.length < (d.groups p).length →
    Completes (.dramRetrainSlice p (some l)) s (fun t => becomes t 3 ∧ (t.dev.drc p).retrain = false ∧
      t.dev.rg .DRC_STAT_RETRAIN p = 0 ∧ t.dev.cmd = some { c with done := some (7, [1, 0, 0, 0]) })) ∧
  (up → alone → d.fspNow p ≠ k.toNat → Completes (.drcFspReq p k force) s (fun t =>
    (t.dev.drc p).want = some k.toNat ∧ t.dev.rg .DRC_STAT_FSPDEFER p = 1 ∧ t.dev.rg .DRC_FSP_TARGET p = k.toNat ∧
    t.dev.rg .DRC_FSP_FORCE p = b2n force ∧ becomes t state)) ∧
  (¬up → Completes (.drcFspReq p k force) s (fun t => ∀ j, t.dev.key j = if j = ⟨.PWR_ACCREJ_COUNT, 0, 0⟩ then
    min (d.rg .PWR_ACCREJ_COUNT 0 + 1) (2 ^ Field.PWR_ACCREJ_COUNT.info.width - 1) else d.key j)) ∧
  (up → alone → x.want = some k.toNat → x.retrain = false → state = 3 → d.rg .DRC_STAT_FSP p ≠ k.toNat →
    (d.on .DRC_FSP_FORCE p = true ∨ d.rtActive p = false) → Completes (.fspChangeStart p) s (fun t => becomes t 4 ∧
      t.dev.rg .DRC_STAT_FSPDEFER p = 0 ∧ (t.dev.drc p).want = none ∧ (t.dev.drc p).goes = some k.toNat)) ∧
  (up → alone → x.want = some k.toNat → d.on .DRC_FSP_FORCE p = false → d.rtActive p = true →
    exec (.fspChangeStart p) s = .next s) ∧
  (up → opens → x.goes = some k.toNat → x.wait = none → state = 4 → valid d = 1 →
    Completes (.fspChangeComplete p) s (fun t => becomes t 3 ∧ t.dev.rg .DRC_STAT_FSP p = k.toNat ∧
      (t.dev.drc p).goes = none)) ∧
  (up → x.goes = some k.toNat → state = 4 → valid d = 0 → Completes (.fspChangeComplete p) s (fun t =>
    becomes t 2 ∧ (t.dev.drc p).goes = none ∧ (t.dev.drc p).train = some ⟨k.toNat, false, false⟩))

/-- DRAM_TEMP_READ, ZQ_CALIBRATION, DQS_OSC_TRACKING, BACKGROUND_PROMOTE, REFRESH_DUE, URGENT_REFRESH_SEQUENCE and
DRAM_SCRUB_READ: a hot device halves tREFI, four cool readings restore it; tracking beyond the limit is flagged; a refresh
falls due at tREFI of debt, an urgent sequence starts at four; the scrub steps line by line (R363, R371, R377 to R381). The
choices of the model in it: log 23, 24, 59. -/
def Obligations.DramUpkeep : Prop := ∀ (s : State) (p : DramId) (rank : Fin 2) (h : Fin 72) (hot : List (Fin 72))
    (corr : List Int) (k : DramBg),
  let d := s.dev
  let x := d.drc p
  let ready := d.domOn (30 + p.val) = true ∧ d.rg .DRC_STAT_STATE p = 3
  let here := rank.val ≤ d.rg .DRC_CFG_RANKS p
  let r := rank.val
  let line := d.rg .DRC_SCRUB_POS_LINE p
  let due := d.tickOfFrac (x.mark.getD r 0 + d.trefi p).toNat
  let far := d.tickOfFrac (x.mark.getD r 0 + (4 * d.trefi p : Nat)).toNat
  (ready → Completes (.dramTempRead p (h :: hot)) s (fun t => t.dev.rg .DRC_STAT_HOT p = 1 ∧ t.dev.rg .DRC_TEMP_VALID p = 1 ∧
    t.dev.rg .DRC_REF_TREFI_NS p = 1950 ∧ t.dev.rg .DRC_TEMP_DEV p = (hot.map (·.val)).foldl min h.val ∧
    (t.dev.drc p).cool = 0)) ∧
  (ready → x.cool + 1 < 4 → Completes (.dramTempRead p []) s (fun t => t.dev.rg .DRC_TEMP_VALID p = 0 ∧
    (t.dev.drc p).cool = x.cool + 1 ∧ t.dev.rg .DRC_REF_TREFI_NS p = d.rg .DRC_REF_TREFI_NS p)) ∧
  (ready → 4 ≤ x.cool + 1 → Completes (.dramTempRead p []) s (fun t => t.dev.rg .DRC_STAT_HOT p = 0 ∧
    t.dev.rg .DRC_REF_TREFI_NS p = 3900)) ∧
  (ready → here → d.bgGoes p .zq = true → Completes (.zqCalibration p rank) s (fun t => t.dev.out = d.out ++ [.zq p r] ∧ t.dev.regs = d.regs ∧
    .zq ∉ (t.dev.drc p).promo)) ∧
  (ready → here → d.bgGoes p .tracking = true → corr.length ≤ 36 → (∃ v ∈ corr, d.rg .DRC_TRK_LIMIT p < v.natAbs) →
    Completes (.dqsOscTracking p rank corr) s (fun t => t.dev.rg .DRC_STAT_TRKLIM p = 1 ∧
      ∀ j v, corr[j]? = some v → (t.dev.drc p).corr.get? (r, j) = some v)) ∧
  (ready → here → d.bgGoes p .tracking = true → x.corr = [] → corr = [] → Completes (.dqsOscTracking p rank corr) s (fun t =>
    t.dev.rg .DRC_TRK_MAXOFF p = 0 ∧ t.dev.rg .DRC_STAT_TRKLIM p = d.rg .DRC_STAT_TRKLIM p)) ∧
  (ready → Completes (.backgroundPromote p k) s (fun t => t.dev.regs = d.regs ∧
    (t.dev.drc p).promo = x.promo.filter (· ≠ k) ++ [k])) ∧
  (ready → here → Completes (.refreshDue p rank) s (fun t => r ∈ (t.dev.drc p).due ∧ t.dev.tick = max d.tick due ∧
    t.dev.regs = d.regs)) ∧
  (ready → here → r ∉ x.urgent → Completes (.urgentRefreshSequence p rank) s (fun t => r ∈ (t.dev.drc p).urgent ∧
    t.dev.rg .DRC_STAT_URGENT p = 1 ∧ t.dev.rg .DRC_REF_CNT_URGSEQ p = min (d.rg .DRC_REF_CNT_URGSEQ p + 1) 0xFFFF ∧
    t.dev.tick = max d.tick far)) ∧
  (ready → d.portLines p ≠ 0 → d.scrubGoes p = true → d.errs = [] → Completes (.dramScrubRead p) s (fun t => t.mem = s.mem ∧
    t.dev.rg .DRC_SCRUB_POS_LINE p = (if d.portLines p ≤ line + 1 then 0 else (line + 1) % 2 ^ 30) ∧
    t.dev.rg .DRC_SCRUB_POS_PASSES p =
      if d.portLines p ≤ line + 1 then (d.rg .DRC_SCRUB_POS_PASSES p + 1) % 2 ^ 32 else d.rg .DRC_SCRUB_POS_PASSES p))

/-- DRAM_REQUEST_ACCEPT, DRAM_REQUEST_ISSUE, DRAM_READ_COMPLETE and DRAM_ZERO_LINE: a request joins its port's queue, waits
at its source when the queue is full, and is turned away from a sealed line; an accepted write is in memory at once; an
urgent refresh goes before requests; a read delivers its line; zeroing clears the line at the watermark; a word whose two
copies disagree in a duplicated step is poisoned (R29, R365, R375, R376, R379, R382, R383, R446). The choices of the model
in it: log 59, 70. -/
def Obligations.DramTraffic : Prop := ∀ (s : State) (p : DramId) (src : DramSrc) (line : BitVec 30) (write ep : Bool) (off : Byte)
    (data : List Byte) (q : Nat) (r : DramReq) (k : Nat) (dup : Option (Fin 16)) (moved : List (Fin 36 × Bool)),
  let d := s.dev
  let x := d.drc p
  let n := line.toNat
  let ready := d.domOn (30 + p.val) = true ∧ d.rg .DRC_STAT_STATE p = 3
  let passes := (dramGuarded src && d.sealed n) = false
  let req := fun (w : Bool) => (⟨x.no, src, n, w, 0⟩ : DramReq)
  let keeps := fun (t : State) (lo hi : Nat) => ∀ a, (a < lo ∨ hi ≤ a) → memGet t.mem a = memGet s.mem a
  let wm := max (d.rg .DRC_ZERO_WM p) (d.sysLine p 0)
  let queued := x.writes.any (·.line == n) = true
  let poisoned := fun (t : State) (line : Nat) => ∀ i < 16, dramBase + line * 256 + 16 * i ∈ t.dev.poison
  (dramGuarded src = true → d.sealed n = true → Completes (.dramRequestAccept src line write off data ep) s (fun t =>
    t.mem = s.mem ∧ t.dev.out = d.out ∧ t.dev.drcs = d.drcs ∧
    t.dev.rg .SEC_GUARDCNT_COUNT 0 = min (d.rg .SEC_GUARDCNT_COUNT 0 + 1) (2 ^ Field.SEC_GUARDCNT_COUNT.info.width - 1))) ∧
  (passes → d.lineAt n = some (p.val, q) → d.dramPath n = .served → d.unzeroed n = false → ¬queued → x.reads.length < 128 →
    Completes (.dramRequestAccept src line false off data ep) s (fun t => t.mem = s.mem ∧ t.dev.regs = d.regs ∧
      (t.dev.drc p).reads = x.reads ++ [req false])) ∧
  (passes → d.lineAt n = some (p.val, q) → d.dramPath n = .served → d.unzeroed n = false → ¬queued → 128 ≤ x.reads.length →
    exec (.dramRequestAccept src line false off data ep) s = .next s) ∧
  (s.wf → passes → d.lineAt n = some (p.val, q) → d.writePath n = .served → x.writes.length < 64 → d.awgGuard n = none → d.unzeroed n = false → d.errs = [] →
    off.toNat % 16 = 0 → data.length = 16 → Completes (.dramRequestAccept src line true off data ep) s (fun t =>
      (t.dev.drc p).writes = x.writes ++ [req true] ∧
      (∀ j, (h : j < data.length) → memGet t.mem (dramBase + n * 256 + off.toNat + j) = data[j].toNat) ∧
      keeps t (dramBase + n * 256 + off.toNat) (dramBase + n * 256 + off.toNat + 16))) ∧
  (passes → d.lineAt n = some (p.val, q) → d.writePath n = .served → 64 ≤ x.writes.length →
    exec (.dramRequestAccept src line true off data ep) s = .next s) ∧
  (passes → d.lineAt n = some (p.val, q) → d.dramPath n = .served → d.unzeroed n = false → queued → d.errs = [] → d.poison = [] →
    Completes (.dramRequestAccept src line false off data ep) s (fun t => t.mem = s.mem ∧ t.dev.out = d.out ++
      [.dramData p src n (memRead s.mem (dramBase + n * 256) 256) (List.replicate 16 false)])) ∧
  (passes → d.dramPath n = .served → d.unzeroed n = true → Completes (.dramRequestAccept src line false off data ep) s
    (fun t => t.mem = s.mem ∧ ∃ k, t.dev.out = d.out ++ [.dramData k src n (List.replicate 256 0) (List.replicate 16 false)])) ∧
  (passes → d.dramPath n = .waits → exec (.dramRequestAccept src line false off data ep) s = .next s) ∧
  (passes → d.lineAt n = none → Completes (.dramRequestAccept src line false off data ep) s (fun t => t.mem = s.mem ∧
    .dramData 0 src n (List.replicate 256 0) (List.replicate 16 true) ∈ t.dev.out)) ∧
  (ready → x.urgent = [k] → 4 * d.trefi p ≤ d.debt p k → Completes (.dramRequestIssue p dup) s (fun t =>
    t.dev.out = d.out ++ [.refresh p k] ∧ (t.dev.drc p).reads = x.reads ∧ (t.dev.drc p).writes = x.writes)) ∧
  (ready → x.urgent = [] → x.due = [k] → x.reads = [] → x.writes = [] → d.trefi p ≤ d.debt p k →
    Completes (.dramRequestIssue p dup) s (fun t => t.dev.out = d.out ++ [.refresh p k] ∧ (t.dev.drc p).due = [])) ∧
  (ready → x.urgent = [] → x.due = [] → x.reads = [r] → x.writes = [] → x.promo = [] → r.write = false →
    Completes (.dramRequestIssue p dup) s (fun t => (t.dev.drc p).reads = [] ∧ (t.dev.drc p).flight = x.flight ++ [r] ∧
      t.mem = s.mem)) ∧
  (ready → x.urgent = [] → x.due = [] → x.reads = [] → x.writes = [r] → x.promo = [] → r.write = true →
    Completes (.dramRequestIssue p dup) s (fun t => (t.dev.drc p).writes = [] ∧ t.mem = s.mem ∧
      (dup.isSome → poisoned t r.line))) ∧
  (ready → x.flight = [r] → d.dramPath r.line = .served → d.unzeroed r.line = false → d.errs = [] → d.poison = [] →
    Completes (.dramReadComplete p dup moved) s (fun t => (t.dev.drc p).flight = [] ∧ t.mem = s.mem ∧
      t.dev.out.getLast? = some (.dramData p r.src r.line (memRead s.mem (dramBase + r.line * 256) 256)
        (List.replicate 16 dup.isSome)) ∧ (moved = [] → dup = none → t.dev.regs = d.regs))) ∧
  (s.wf → ready → d.bgIdle p = true → d.on .DRC_ZERO_ACTIVE p = true → d.lineAt wm = some (p.val, q) → d.ahead = [] →
    Completes (.dramZeroLine p dup) s (fun t => (dup.isSome → poisoned t wm) ∧
      (∀ a, dramBase + wm * 256 ≤ a → a < dramBase + wm * 256 + 256 → memGet t.mem a = 0) ∧
      keeps t (dramBase + wm * 256) (dramBase + wm * 256 + 256) ∧ t.dev.rg .DRC_ZERO_WM p = d.sysLine p (q + 1) % 2 ^ 30 ∧
      t.dev.rg .DRC_ZERO_ACTIVE p = if d.portLines p ≤ q + 1 then 0 else 1))

/-- The command port's doorbell: counted and dropped while HOST is not on or a command runs; in LOCKDOWN every command ends
MODE; TRAIN_DRAM, CALIBRATE, WIPE, SELFTEST, KEY_IMPORT, LIFECYCLE, NVM_WRITE and REBASE end at once with the code of what
forbids them, or run with BUSY 1 (R250, R320, R369, R370, R422, R432, R443, R449 to R451, R485 to R488). The choices of the
model in it: log 64, 71. -/
def Obligations.CommandPort : Prop := ∀ (s : State) (a0 a1 : Word) (fr : List CalFrame) (l : List Byte),
  let d := s.dev
  let n := a0.toNat
  let m := a1.toNat
  let ready := d.domOn 1 = true ∧ d.on .CMD_STAT_BUSY 0 = false
  let takes := ready ∧ 1 ∉ d.quies ∧ d.errs = [] ∧ d.poison = [] ∧ d.locked = false
  let all := [(1, Instr.trainDram a0), (2, .calibrate a0 a1 fr), (3, .wipe a0), (4, .selftest a0 a1), (5, .keyImport a0 l),
    (6, .lifecycle a0 l), (7, .nvmWrite a0 l), (8, .rebase a0 a1)]
  let ends := fun (t : State) (op code : Nat) => t.dev.rg .CMD_STAT_CODE 0 = code ∧ t.dev.rg .CMD_STAT_BUSY 0 = 0 ∧
    t.dev.rg .CMD_STAT_OP 0 = op ∧ t.dev.cmd = none ∧ ∀ i < 4, t.dev.rgi .CMD_RES_RES 0 i = 0
  let runs := fun (t : State) (op : Nat) (e : Option (Nat × List Nat)) => t.dev.rg .CMD_STAT_BUSY 0 = 1 ∧
    t.dev.rg .CMD_STAT_OP 0 = op ∧ ∃ c, t.dev.cmd = some c ∧ c.op = op ∧ c.done = e ∧ c.args.getD 0 0 = n
  let p := n % 2
  let st := d.rg .DRC_STAT_STATE p
  (∀ x ∈ all, d.domOn 1 = false → Completes x.2 s (fun t => t.dev.cmd = d.cmd ∧ t.mem = s.mem ∧
    ∀ j, j ≠ ⟨.PWR_ACCREJ_COUNT, 0, 0⟩ → t.dev.key j = d.key j)) ∧
  (∀ x ∈ all, d.domOn 1 = true → d.on .CMD_STAT_BUSY 0 = true → Completes x.2 s (fun t => t.dev.cmd = d.cmd ∧ t.mem = s.mem ∧
    t.dev.rg .CMD_IGNCNT_COUNT 0 = min (d.rg .CMD_IGNCNT_COUNT 0 + 1) 0xFFFF ∧
    ∀ j, j ≠ ⟨.CMD_IGNCNT_COUNT, 0, 0⟩ → t.dev.key j = d.key j)) ∧
  (∀ x ∈ all, ready → 1 ∉ d.quies → d.errs = [] → d.poison = [] → d.locked = true →
    Completes x.2 s (fun t => ends t x.1 4)) ∧
  (takes → 8 ≤ n → Completes (.trainDram a0) s (fun t => ends t 1 3)) ∧
  (takes → n < 8 → d.domOn (30 + p) = false → Completes (.trainDram a0) s (fun t => ends t 1 5)) ∧
  (takes → n < 4 → d.domOn (30 + p) = true → st = 1 → (d.drc p).retrain = false → d.on .DRC_STAT_CFGERR p = false →
    Completes (.trainDram a0) s (fun t => runs t 1 none ∧ t.dev.rg .DRC_STAT_STATE p = 2 ∧ (t.dev.drc p).train =
      some ⟨n / 2, d.on .DRC_CFG_FSPBOTH p && n / 2 == 0, true⟩)) ∧
  (takes → 4 ≤ n → n < 8 → d.domOn (30 + p) = true → st = 3 → (d.drc p).retrain = false → d.on .DRC_STAT_CFGERR p = false →
    Completes (.trainDram a0) s (fun t => runs t 1 none ∧ t.dev.rg .DRC_STAT_STATE p = 3 ∧ t.dev.rg .DRC_STAT_RETRAIN p = 1 ∧
      (t.dev.drc p).retrain = true)) ∧
  (∀ k, takes → d.calRefused n m 0 0 = some k → Completes (.calibrate a0 a1 fr) s (fun t => ends t 2 k)) ∧
  (takes → d.calRefused n m 0 0 = none → Completes (.calibrate a0 a1 fr) s (fun t => runs t 2 none)) ∧
  (takes → 2 < n → Completes (.wipe a0) s (fun t => ends t 3 3 ∧ t.mem = s.mem)) ∧
  (takes → n ≤ 2 → d.quietDevice = false → Completes (.wipe a0) s (fun t => ends t 3 5 ∧ t.mem = s.mem)) ∧
  (takes → s.wf → n ≤ 2 → d.quietDevice = true → Completes (.wipe a0) s (fun t => runs t 3 (some (1, [])) ∧
    (∀ a, dramBase ≤ a → a < 2 ^ 42 → memGet t.mem a = 0) ∧
    t.dev.thim.slots = if n = 1 then d.thim.slots else [])) ∧
  (takes → (∀ e, (d.eng e).storeErr = []) → (∀ e, d.estate e = 0) → (∀ e, d.on .ENG_MC_STAT_IDERR e = false) →
    Completes (.selftest a0 a1) s (fun t => runs t 4 (some (1, [0, 0, 0, 0])) ∧ t.mem = s.mem)) ∧
  (takes → 4096 ≤ n → Completes (.keyImport a0 l) s (fun t => ends t 5 3 ∧
    t.dev.rg .SEC_IMP_NONCE_NONCE 0 = Config.trng d.free % 2 ^ Field.SEC_IMP_NONCE_NONCE.info.width)) ∧
  (takes → s.wf → n = 185 → l.length = 185 → (l.getD 0 0).toNat < 16 → d.thim.slots.get? (l.getD 0 0).toNat = none → d.lc ≠ 1 → d.lc ≠ 2 →
    Completes (.keyImport a0 l) s (fun t => ends t 5 5)) ∧
  (takes → s.wf → n = 185 → l.length = 185 → (l.getD 0 0).toNat < 16 → d.thim.slots.get? (l.getD 0 0).toNat = none → d.lc = 1 →
    Completes (.keyImport a0 l) s (fun t => runs t 5 none ∧ t.dev.thim = d.thim)) ∧
  (takes → 4 < n → Completes (.lifecycle a0 l) s (fun t => ends t 6 3)) ∧
  (takes → n ≤ 4 → d.quietDevice = false → Completes (.lifecycle a0 l) s (fun t => ends t 6 5)) ∧
  (takes → n ≤ 4 → d.quietDevice = true → lcTransition d.lc n = none → Completes (.lifecycle a0 l) s (fun t => ends t 6 5)) ∧
  (takes → n ≤ 4 → d.quietDevice = true → lcTransition d.lc n = some false → Completes (.lifecycle a0 l) s (fun t =>
    runs t 6 none ∧ t.dev.lc = d.lc)) ∧
  (takes → 4096 ≤ n → Completes (.nvmWrite a0 l) s (fun t => ends t 7 3)) ∧
  (takes → s.wf → n = l.length → 0 < n → n < 4096 → d.nvmRefused (l.map (·.toNat)) = none → Completes (.nvmWrite a0 l) s (fun t =>
    runs t 7 none)) ∧
  (takes → s.wf → n = l.length → 0 < n → n < 4096 → (∃ k, d.nvmRefused (l.map (·.toNat)) = some k) → Completes (.nvmWrite a0 l) s (fun t =>
    ends t 7 ((d.nvmRefused (l.map (·.toNat))).getD 0))) ∧
  (takes → 65536 ≤ m → Completes (.rebase a0 a1) s (fun t => ends t 8 3 ∧ t.dev.time = d.time)) ∧
  (takes → m < 65536 → d.rebaseOk = false → Completes (.rebase a0 a1) s (fun t => ends t 8 5 ∧ t.dev.time = d.time)) ∧
  (takes → m < 65536 → d.rg .TIME_CTRL_SRC 0 = 0 → Completes (.rebase a0 a1) s (fun t => runs t 8 (some (1, [])) ∧
    t.dev.time.sub = (n * 65536 + m : Nat) * subUnit ∧ t.dev.time.gen = nextGen d.time.gen ∧ t.dev.time.set_ = true))

/-- COMMAND_COMPLETE: a command whose end is fixed gives its code and results and is idle again; LIFECYCLE commits its
target and destroys the import keys, NVM_WRITE counts and fails where the record does not read back, CALIBRATE's FTC
collection passes by count and spread (R422, R433, R436, R443, R450, R485, R487). The choices of the model in it: log 64. -/
def Obligations.CommandEnds : Prop := ∀ (s : State) (r : CmdEnd) (c : CmdRun),
  let d := s.dev
  let n := c.args.getD 0 0
  let ends := fun (t : State) (code : Nat) => t.dev.rg .CMD_STAT_CODE 0 = code ∧ t.dev.rg .CMD_STAT_BUSY 0 = 0 ∧ t.dev.cmd = none
  let runs := d.cmd = some c
  let head := recHead ((c.args.drop 4).take n)
  (d.cmd = none → exec (.commandComplete r) s = .next s) ∧
  (∀ k l, runs → c.done = some (k, l) → k < 256 → Completes (.commandComplete r) s (fun t => ends t k ∧ t.mem = s.mem ∧
    ∀ i < 4, t.dev.rgi .CMD_RES_RES 0 i = l.getD i 0 % 2 ^ 64)) ∧
  (runs → c.done = none → c.op = 6 → n ≤ 4 → Completes (.commandComplete r) s (fun t => ends t 1 ∧ t.dev.lc = n ∧
    t.dev.thim.slots = [])) ∧
  (runs → c.done = none → c.op = 5 → Completes (.commandComplete r) s (fun t => (ends t 1 ∨ ends t 6) ∧ t.mem = s.mem ∧
    ∀ k, k ≠ ((c.args.drop 4).take n).getD 0 0 → t.dev.thim.slots.get? k = d.thim.slots.get? k)) ∧
  (runs → c.done = none → c.op = 7 → head.1 = 1 → Completes (.commandComplete r) s (fun t =>
    ends t (if r.readBack then 1 else 7) ∧
    t.dev.rg .CAL_NVMWR_COUNT 0 = min (d.rg .CAL_NVMWR_COUNT 0 + 1) (2 ^ Field.CAL_NVMWR_COUNT.info.width - 1))) ∧
  (runs → c.done = none → c.op = 2 → n / 2 ^ 13 % 2 = 1 → Completes (.commandComplete r) s (fun t => t.mem = s.mem ∧
    ((calN n ≤ d.cal.ftc.length ∧ Config.rmsSpread d.cal.ftc ≤ 0x1000) →
      ends t 1 ∧ t.dev.rg .CAL_FTC_RES_PASS 0 = 1) ∧
    (¬(calN n ≤ d.cal.ftc.length ∧ Config.rmsSpread d.cal.ftc ≤ 0x1000) → ends t 7 ∧ t.dev.rg .CAL_FTC_RES_PASS 0 = 0)))

/-- PWR_REQ_GO, PWR_PREPARE_TIMEOUT and PWR_PREPARE_DONE: a request in which every domain judges, refused by the lowest
domain's code or committing to the transition of its domains; a second request is refused; a silent domain refuses with
TIMEOUT (R393 to R396). The choices of the model in it: log 61. -/
def Obligations.PowerRequests : Prop := ∀ (s : State) (k : DomId) (off smb : Bool) (m code a : Nat),
  let d := s.dev
  let out := fun (t : State) => t.dev.tick = max d.tick (a + max 10 (d.rg .PWR_PREP_TMO_US 0) * 4000000)
  let phase := d.rg .PWR_REQ_STAT_PHASE 0
  let mask := d.rg .PWR_REQ_MASK_MASK 0
  let verdict := fun (k : Nat) => (d.refusals k off smb).find? (·.2)
  let target := if off then 2 else 1
  let is := fun (t : State) (v : Nat) => t.dev.rg .PWR_REQ_STAT_PHASE 0 = v
  ((phase = 1 ∨ phase = 2) → Completes (.pwrReqGo off smb) s (fun t => is t phase ∧ t.dev.rg .PWR_REQ_STAT_WREJ 0 = 1 ∧
    t.dev.pwr = d.pwr ∧ t.dev.quies = d.quies)) ∧
  (phase ≠ 1 → phase ≠ 2 → Completes (.pwrReqGo off smb) s (fun t => is t 1 ∧
    t.dev.rg .PWR_REQ_CTRL_TARGET 0 = b2n off ∧ ∃ p, t.dev.pwr.prep = some p ∧ p.mask = mask ∧ p.off = off ∧
      ∀ j < 32, mask.testBit j → (verdict j = none → j ∈ t.dev.quies ∧ ∀ x ∈ p.refused, x.1 ≠ j) ∧
        ∀ x, verdict j = some x → (j, x.1) ∈ p.refused ∧ j ∉ t.dev.quies)) ∧
  (d.pwr.prep = some ⟨2 ^ k.val, off, [], a⟩ → Completes (.pwrPrepareTimeout k) s (fun t => t.dev.regs = d.regs ∧
    t.dev.pwr = { d.pwr with prep := some ⟨2 ^ k.val, off, [(k.val, 0x11)], a⟩ } ∧ out t)) ∧
  (d.pwr.prep = some ⟨2 ^ k.val, off, [(k.val, code)], a⟩ → code ≤ 0x11 → Completes (.pwrPrepareTimeout k) s (fun t =>
    t.dev.regs = d.regs ∧ t.dev.pwr = d.pwr ∧ out t)) ∧
  (d.pwr.prep = none → exec (.pwrPrepareTimeout k) s = .next s ∧ exec .pwrPrepareDone s = .next s) ∧
  (d.pwr.prep = some ⟨m, off, [(k.val, code)], a⟩ → code < 256 → Completes .pwrPrepareDone s (fun t => is t 4 ∧ t.dev.quies = [] ∧
    t.dev.pwr.prep = none ∧ t.dev.rg .PWR_REQ_STAT_FIRST 0 = k ∧ t.dev.rg .PWR_REQ_STAT_REASON 0 = code ∧
    t.dev.rg .PWR_REQ_REFUSED_MASK 0 = 2 ^ k.val ∧ ∀ j, t.dev.dom j = d.dom j)) ∧
  (d.pwr.prep = some ⟨2 ^ k.val, off, [], a⟩ → d.dom k ≠ target → Completes .pwrPrepareDone s (fun t => is t 2 ∧
    t.dev.dom k = 3 ∧ t.dev.pwr.commit = [k.val] ∧ t.dev.pwr.prep = none ∧ t.dev.quies = [] ∧
    t.dev.pwr.moves.get? k.val = some (if off then .toOff else .toRet) ∧ t.mem = s.mem)) ∧
  (d.pwr.prep = some ⟨2 ^ k.val, off, [], a⟩ → d.dom k = target → Completes .pwrPrepareDone s (fun t => is t 3 ∧
    t.dev.pwr.commit = [] ∧ ∀ j, t.dev.dom j = d.dom j))

/-- PWR_TRANSITION_END, PWR_REINIT_COMPLETE, PWR_WAKE, WAKE_ADMIT, PERST_N_RISE, AON_DOZE_ENTER and SMBUS_ADDRESS_MATCH:
where a transition ends, what off loses, when a wake is queued and admitted within the inrush budget, and DOZE (R389, R390,
R398 to R402, R411). Values that a sew left for a domain, and instructions that wait, are none here. The choices of the
model in it: log 61. -/
def Obligations.PowerStates : Prop := ∀ (s : State) (k : DomId) (mask : BitVec 32) (addr : BitVec 7),
  let d := s.dev
  let x := d.pwr
  let moving := x.moves.get? k.val
  let quiet := d.kept = [] ∧ ∀ e, (d.eng e).act = none
  let now := fun (t : State) (v : Nat) => t.dev.dom k = v ∧ t.dev.pwr.moves.get? k.val = none
  let cost := d.rg .PWR_INRUSH_INUSE 0 + wakeCost k (d.dom k == 1)
  let held := x.queue.contains k.val || d.wakeHeld k
  let low := ∀ i, 1 ≤ i → i < 32 → (d.dom i = 1 ∨ d.dom i = 2)
  let mine := addr.toNat = 0x58 + Config.maddr % 8
  (moving = some .toRet → Completes (.pwrTransitionEnd k) s (fun t => now t 1 ∧ t.mem = s.mem)) ∧
  (moving = some .toRet → x.commit = [k.val] → Completes (.pwrTransitionEnd k) s (fun t =>
    t.dev.rg .PWR_REQ_STAT_PHASE 0 = 3 ∧ t.dev.pwr.commit = [])) ∧
  (moving = some .toOff → Completes (.pwrTransitionEnd k) s (fun t => now t 2 ∧
    (2 ≤ k.val → ∀ j, keyDom j = k → j.f ∉ drcKept → t.dev.key j = j.reset))) ∧
  (quiet → moving = some .fromRet → Completes (.pwrTransitionEnd k) s (fun t => now t 0)) ∧
  (moving = some .fromOff → Completes (.pwrTransitionEnd k) s (fun t => t.dev.pwr.moves.get? k.val = some .reinit ∧
    ∀ c ∈ t.dev.pwr.costs, c.1 ≠ k)) ∧
  (moving = none → exec (.pwrTransitionEnd k) s = .next s) ∧
  (quiet → moving = some .reinit → (30 ≤ k.val → d.rg .DRC_STAT_STATE (k.val - 30) ≠ 2) →
    Completes (.pwrReinitComplete k) s (fun t => now t 0 ∧ t.mem = s.mem)) ∧
  (quiet → moving = some .reinit → 30 ≤ k.val → d.rg .DRC_STAT_STATE (k.val - 30) = 2 →
    Completes (.pwrReinitComplete k) s (fun t => t = s)) ∧
  (d.locked = true → Completes (.pwrWake mask) s (fun t => t.dev.rg .PWR_REQ_STAT_WREJ 0 = 1 ∧ t.dev.pwr = x)) ∧
  (d.locked = false → mask.toNat = 2 ^ k.val → x.prep = none → d.domOn k = false → held = false → x.queue = [] →
    Completes (.pwrWake mask) s (fun t => t.dev.pwr.queue = [k.val] ∧ t.dev.rg .PWR_QUEUE_MASK 0 = 2 ^ k.val)) ∧
  (d.locked = false → mask.toNat = 2 ^ k.val → x.prep = none → (d.domOn k = true ∨ d.wakeHeld k = true) →
    Completes (.pwrWake mask) s (fun t => t.dev.pwr.queue = x.queue)) ∧
  (x.queue = [k.val] → moving = none → cost ≤ d.rg .PWR_INRUSH_BUDGET 0 → Completes .wakeAdmit s (fun t => t.dev.dom k = 3 ∧
    t.dev.pwr.queue = [] ∧ t.dev.rg .PWR_INRUSH_INUSE 0 = cost % 2 ^ 10 ∧ t.dev.rg .PWR_QUEUE_MASK 0 = 0 ∧
    t.dev.pwr.moves.get? k.val = some (if d.dom k = 1 then .fromRet else .fromOff))) ∧
  (x.queue = [k.val] → d.rg .PWR_INRUSH_BUDGET 0 < cost → Completes .wakeAdmit s (fun t => t = s)) ∧
  (d.locked = false → x.prep = none → d.domOn 1 = false → d.wakeHeld 1 = false → Completes .perstNRise s (fun t =>
    t.dev.pwr.doze = false ∧ 1 ∈ t.dev.pwr.queue)) ∧
  (low → d.on .PWR_AON_DOZE 0 = true → Completes .aonDozeEnter s (fun t => t.dev.pwr = { x with doze := true } ∧
    t.dev.regs = d.regs)) ∧
  (¬low → exec .aonDozeEnter s = .next s) ∧
  (mine → x.doze = true → Completes (.smbusAddressMatch addr) s (fun t => t.dev.pwr = { x with doze := false } ∧
    t.dev.rg .PWR_AON_WOKE 0 = 1)) ∧
  (¬mine ∨ x.doze = false → exec (.smbusAddressMatch addr) s = .next s)

/-- POWER_ON_RESET, SYS_RESET_N, HOST_RST_UNLOCK, HOST_RST_GO, RST_WINDOW_EXPIRE, HOST_LINK_RESET, PCIE_LINK_UP,
PLL_RETURN_COMPLETE and REFCLK_QUALIFY_TIMEOUT: every register but the stored ones takes its reset value, memory but the
calibration store is zero, and the cause is kept; a reset by registers takes the two writes in order; a host-link reset
touches HOST alone; bring-up wakes every domain (R406 to R413, R461, R478). The choices of the model in it: log 5, 7, 72. -/
def Obligations.Resets : Prop := ∀ (s : State) (low t₀ : Nat) (key : Byte) (smb : Bool),
  let d := s.dev
  let zeroed := fun (t : State) => ∀ a, memGet t.mem a = if nvmBase ≤ a ∧ a < smbSnap then memGet s.mem a else 0
  let keeps := fun (t : State) => ∀ j, j.f ∈ storedFields → t.dev.key j = d.key j
  let cause := fun (t : State) (pin pcie smbus : Nat) => t.dev.rg .HOST_RST_CAUSE_POR 0 = 0 ∧
    t.dev.rg .HOST_RST_CAUSE_PIN 0 = pin ∧ t.dev.rg .HOST_RST_CAUSE_REGPCIE 0 = pcie ∧
    t.dev.rg .HOST_RST_CAUSE_REGSMB 0 = smbus ∧ t.dev.rg .HOST_RST_CAUSE_COUNT 0 = min (d.rg .HOST_RST_CAUSE_COUNT 0 + 1) 255
  let reset := fun (t : State) => zeroed t ∧ keeps t ∧ t.dev.thim = { slots := d.thim.slots } ∧ t.dev.pwr = { ref := t.dev.tick } ∧
    ∀ j, j.f ∉ storedFields → j.f ∉ causeFields → t.dev.key j = j.reset
  let refused := fun (t : State) => t.dev.rg .HOST_RST_CAUSE_SEQERR 0 = 1 ∧ t.dev.rstWin = none ∧ t.mem = s.mem
  let wakes := fun (t : State) => t.dev.pwr.boot = false ∧ ∀ k : DomId, 1 ≤ k.val → d.domOn k = false → k.val ∈ t.dev.pwr.queue ∨ d.wakeHeld k = true
  (s.wf → Completes .powerOnReset s (fun t => reset t ∧ t.dev.log = [] ∧ t.dev.rg .HOST_RST_CAUSE_POR 0 = 1 ∧
    t.pending = s.pending)) ∧
  (s.wf → 4000000 ≤ low → Completes (.sysResetN low) s (fun t => reset t ∧ cause t 1 0 0 ∧ t.dev.tick = d.tick + low)) ∧
  (low ≤ 400000 → exec (.sysResetN low) s = .next s) ∧
  (s.wf → 400000 < low → low < 4000000 → Completes (.sysResetN low) s (fun t => (reset t ∧ cause t 1 0 0) ∨
    t = { s with dev := { d with free := d.free + 1 } })) ∧
  (key.toNat = 0x5A → Completes (.hostRstUnlock key) s (fun t => t.dev.rstWin = some (d.tick + 1000 * cyc) ∧
    t.dev.regs = d.regs ∧ t.mem = s.mem)) ∧
  (key.toNat ≠ 0x5A → Completes (.hostRstUnlock key) s refused) ∧
  (s.wf → d.rstWin = some t₀ → d.tick ≤ t₀ → key.toNat = 0xA5 → Completes (.hostRstGo key smb) s (fun t => reset t ∧
    cause t 0 (b2n (!smb)) (b2n smb) ∧ t.dev.rstWin = none)) ∧
  (d.rstOpen = false ∨ key.toNat ≠ 0xA5 → Completes (.hostRstGo key smb) s refused) ∧
  (d.rstWin = some t₀ → Completes .rstWindowExpire s (fun t => t.dev.rstWin = none ∧ t.dev.tick = max d.tick t₀ ∧
    t.dev.regs = d.regs)) ∧
  (d.rstWin = none → exec .rstWindowExpire s = .next s) ∧
  (d.rstWin = none → Completes .hostLinkReset s (fun t => t.dev.rg .HOST_IRQ_STAT_PEND 0 = 2 ^ 204 - 1 ∧
    (∀ v < 204, v ∈ t.dev.pba) ∧ t.dev.rg .HOST_READY_HOST 0 = 0 ∧ t.dev.rg .SEC_STAT_DBG 0 = 0 ∧ t.dev.msix = [] ∧
    t.dev.dmas = [] ∧ t.dev.cmd = d.cmd ∧
    (∀ j, keyDom j = 1 → j.f ∉ cmdKept → j.f ≠ .HOST_IRQ_STAT_PEND → t.dev.key j = j.reset) ∧
    ∀ j, keyDom j ≠ 1 → j.f ≠ .HOST_READY_HOST → j.f ≠ .SEC_STAT_DBG → t.dev.key j = d.key j)) ∧
  (d.domOn 1 = true → Completes .pcieLinkUp s (fun t => t.dev.rg .HOST_READY_HOST 0 = 1)) ∧
  (d.domOn 1 = false → exec .pcieLinkUp s = .next s) ∧
  (d.time.refLost = false → Completes .pllReturnComplete s (fun t => t.dev.rg .HOST_READY_TIMING 0 = 1 ∧
    (d.pwr.boot = true → wakes t) ∧ (d.pwr.boot = false → t.dev.pwr = d.pwr))) ∧
  (d.on .HOST_READY_TIMING 0 = false → d.pwr.boot = true → Completes .refclkQualifyTimeout s (fun t => wakes t ∧
    t.dev.time.refLost = true ∧ t.dev.rg .HOST_BOOTERR_REFCLK 0 = 1)) ∧
  (d.on .HOST_READY_TIMING 0 = true → Completes .refclkQualifyTimeout s (fun t => t.dev.time = d.time ∧ t.dev.pwr = d.pwr))

/-- SENSOR_READ, RETRIM_COMPUTE_DONE, CAL_PROFILE_SELECT and CAL_VALUES_APPLY: a sensor shows the mean of its last sixteen
readings and a temperature beyond its limits is an alarm source; a re-trim brings new values for every quad of its domain; a
profile that a domain lacks is refused; a free quad takes the newest values (R424, R426 to R431, R453). The choices of the
model in it: log 26. -/
def Obligations.Calibration : Prop := ∀ (s : State) (i : Fin 24) (r : BitVec 16) (k : PdId) (sel : BitVec 5)
    (q : QuadId),
  let d := s.dev
  let l := (r.toInt :: (d.cal.reads.get? i.val).getD []).take 16
  let mean := l.foldl (· + ·) 0 / (l.length : Int)
  let fits := fun (v : Nat) => signed 8 (d.rg .SEC_TALARM_LO 0) * 16 ≤ signed 16 v ∧ signed 16 v ≤ signed 8 (d.rg .SEC_TALARM_HI 0) * 16
  let on := d.domOn (11 + k.val) = true
  let due := d.cal.due.contains k.val
  let lacks := ∃ j : PdId, d.domOn (11 + j.val) = true ∧ profPick s.mem sel.toNat j = none
  let free := d.quadFree q && d.domOn (11 + q.val / 8)
  (fits (unsigned 16 mean) → (∀ p ∈ d.cal.reads, p.1 ≠ i.val → fits (d.rgi .CAL_TEMP_TNOW 0 p.1)) → Completes (.sensorRead i r) s
    (fun t => t.dev.rgi .CAL_TEMP_TNOW 0 i = unsigned 16 mean ∧ t.dev.cal.reads.get? i.val = some l ∧ 2 ∉ t.dev.thim.active ∧
      t.mem = s.mem)) ∧
  (¬fits (unsigned 16 mean) → Completes (.sensorRead i r) s (fun t => 2 ∈ t.dev.thim.active)) ∧
  (on → due = true → d.calRuns k = false → Completes (.retrimComputeDone k) s (fun t =>
    t.dev.rgi .CAL_TEMP_TCALC 0 k = d.rgi .CAL_TEMP_TNOW 0 k % 2 ^ 16 ∧ k.val ∉ t.dev.cal.due ∧
    (∀ q ∈ pdQuads k, q ∈ t.dev.cal.old) ∧ t.dev.cal.used = d.cal.used ∧
    t.dev.rg .CAL_RTCNT_COUNT 0 = min (d.rg .CAL_RTCNT_COUNT 0 + 1) (2 ^ 32 - 1))) ∧
  (due = false → exec (.retrimComputeDone k) s = .next s) ∧
  (lacks → Completes (.calProfileSelect sel true) s (fun t => t.dev.rg .CAL_STAT_WREJ 0 = 1 ∧ t.dev.cal = d.cal ∧
    ∀ j, j ≠ ⟨.CAL_STAT_WREJ, 0, 0⟩ → t.dev.key j = d.key j)) ∧
  (¬lacks → Completes (.calProfileSelect sel true) s (fun t => t.dev.rg .CAL_PROFILE_SEL 0 = sel.toNat ∧
    t.dev.rg .CAL_PROFILE_EN 0 = 1 ∧ ∀ p, on → profPick s.mem sel.toNat k = some p → ∀ j < 32,
      t.dev.cal.prof.get? (32 * k.val + j) = some (deskewOf p.2 j))) ∧
  (Completes (.calProfileSelect sel false) s (fun t => t.dev.rg .CAL_PROFILE_SEL 0 = sel.toNat ∧
    t.dev.rg .CAL_PROFILE_EN 0 = 0 ∧ (on → ∀ j < 32, t.dev.cal.prof.get? (32 * k.val + j) = some [0, 0, 0, 0]))) ∧
  (free = true → d.cal.old.contains q.val = true → Completes (.calValuesApply q) s (fun t => q.val ∉ t.dev.cal.old ∧
    t.dev.cal.used.get? q.val = some (signed 16 (d.rgi .CAL_TEMP_TCALC 0 (q.val / 8))) ∧
    ∀ c ∈ quadChans q, t.dev.rg .PIN_CAL_STAT_DRIFT c = 0 ∧
      t.dev.cal.deskew.get? c = some ((d.cal.prof.get? c).getD [0, 0, 0, 0]))) ∧
  (free = false ∨ d.cal.old.contains q.val = false → exec (.calValuesApply q) s = .next s)

/-- CTR_VERIFY, CTR_TOUCH, TD_IN_EDGE, CTR_COUNT_WRITE and TELEMETRY_SAMPLE: the contactor's state after a verification, its
touchdowns and their counting, and a sample in TEL_LAST and at the ring's write pointer; in LOCKDOWN nothing is counted or
sampled (R462 to R465, R470, R471). The choices of the model in it: log 28, 29. -/
def Obligations.ContactorAndTelemetry : Prop := ∀ (s : State) (l : List Byte) (high : Nat) (n : BitVec 32)
    (rails : List (BitVec 16)),
  let d := s.dev
  let bytes := l.map (·.toNat)
  let rated := leNat ((bytes.drop 4).take 4)
  let due := d.ctr.due = true
  let count := (leNat ((bytes.drop 128).take 4) + if d.ctr.serial = none then 0 else d.rg .CTR_PEND_PEND 0) % 2 ^ 32
  let is := fun (t : State) (v : Nat) => t.dev.rg .CTR_STAT_STATE 0 = v
  let open_ := d.locked = false
  let pend := d.rg .CTR_PEND_PEND 0
  let one := fun (t : State) => t.dev.rg .CTR_TDCNT_COUNT 0 = (d.rg .CTR_TDCNT_COUNT 0 + 1) % 2 ^ 32 ∧
    (pend < 0xFFFF → t.dev.rg .CTR_PEND_PEND 0 = pend + 1) ∧
    (pend = 0xFFFF → t.dev.rg .CTR_PEND_PEND 0 = pend ∧ t.dev.rg .CTR_STAT_CNTERR 0 = 1)
  let bySrc := d.on .CTR_CTRL_TDSRC 0 = true
  let writes := open_ ∧ pend ≠ 0 ∧ pend < 2 ^ 16 ∧ d.rg .CTR_STAT_STATE 0 ≠ 0
  let sample := d.telSample (rails.map (·.toNat))
  let w := d.rg .TEL_WPTR_LINE 0
  let z := d.rg .TEL_RSIZE_LINES 0
  let line := d.rg .TEL_RBASE_LINE 0 + w
  let a := dramBase + line * 256
  (due → Completes (.ctrVerify none) s (fun t => is t 0 ∧ t.dev.rg .CTR_PEND_PEND 0 = pend ∧ t.dev.ctr.due = false)) ∧
  (due → l.length < 132 → Completes (.ctrVerify (some l)) s (fun t => is t 0)) ∧
  (due → 132 ≤ l.length → ctrFormat bytes = false → Completes (.ctrVerify (some l)) s (fun t => is t 1)) ∧
  (due → 132 ≤ l.length → ctrFormat bytes = true → d.ctrSigned bytes = false → Completes (.ctrVerify (some l)) s (fun t => is t 2)) ∧
  (due → 132 ≤ l.length → ctrFormat bytes = true → d.ctrSigned bytes = true →
    (d.ctr.serial = none ∨ d.ctr.serial = some (ctrSerial bytes)) → Completes (.ctrVerify (some l)) s (fun t => is t 3 ∧
      t.dev.ctr.serial = some (ctrSerial bytes) ∧ t.dev.rg .CTR_RATED_RATED 0 = rated ∧ t.dev.rg .CTR_TDCNT_COUNT 0 = count ∧
      t.dev.rg .CTR_STAT_LIFE 0 = b2n (rated ≤ count) ∧ t.dev.rg .CTR_STAT_WARN 0 = b2n (warnAt rated ≤ count))) ∧
  (bySrc → Completes .ctrTouch s (fun t => ∀ j, t.dev.key j = if j = ⟨.CTR_STAT_WREJ, 0, 0⟩ then 1 else d.key j)) ∧
  (¬bySrc → open_ → Completes .ctrTouch s one) ∧
  (¬bySrc → ¬open_ → exec .ctrTouch s = .next s) ∧
  (bySrc → 4000000 ≤ high → open_ → d.ctr.edge = none → Completes (.tdInEdge high) s (fun t => one t ∧
    t.dev.ctr.edge = some d.tick)) ∧
  (bySrc → 4000000 ≤ high → open_ → d.ctr.edge = some d.tick → Completes (.tdInEdge high) s (fun t =>
    t.dev.rg .CTR_TDCNT_COUNT 0 = d.rg .CTR_TDCNT_COUNT 0 ∧
    t.dev.rg .CTR_STAT_BOUNCE 0 = min (d.rg .CTR_STAT_BOUNCE 0 + 1) 0xFFFF)) ∧
  ((¬bySrc ∨ high < 4000000 ∨ ¬open_) → exec (.tdInEdge high) s = .next s) ∧
  (writes → Completes (.ctrCountWrite (some n)) s (fun t => t.dev.out = d.out ++ [.ctrWrite] ∧
    t.dev.rg .CTR_PEND_PEND 0 = pend - 1 ∧
    (n.toNat + (pend - 1) ≠ d.rg .CTR_TDCNT_COUNT 0 → t.dev.rg .CTR_STAT_CNTERR 0 = 1))) ∧
  (writes → Completes (.ctrCountWrite none) s (fun t => is t 0 ∧ t.dev.rg .CTR_PEND_PEND 0 = pend)) ∧
  (pend = 0 → exec (.ctrCountWrite none) s = .next s) ∧
  (open_ → z = 0 → Completes (.telemetrySample rails) s (fun t => t.mem = s.mem ∧
    t.dev.rg .TEL_LAST_SAMPLE 0 = leNat sample % 2 ^ 2048 ∧
    t.dev.rg .TEL_SKIP_COUNT 0 = min (d.rg .TEL_SKIP_COUNT 0 + 1) (2 ^ 32 - 1))) ∧
  (s.wf → open_ → 0 < z → d.rg .DRC_STAT_STATE 0 = 3 → d.writePath line = .served → d.awgGuard line = none →
    d.unzeroed line = false → d.errs = [] → Completes (.telemetrySample rails) s (fun t => t.dev.rg .TEL_WPTR_LINE 0 = (if z ≤ w + 1 then 0 else (w + 1) % 2 ^ 32) ∧
      t.dev.rg .TEL_LAST_SAMPLE 0 = leNat sample % 2 ^ 2048 ∧
      (∀ j < 256, memGet t.mem (a + j) = sample.getD j 0 % 256) ∧
      ∀ x, (x < a ∨ a + 256 ≤ x) → memGet t.mem x = memGet s.mem x)) ∧
  (¬open_ → exec (.telemetrySample rails) s = .next s) ∧
  (¬due → exec (.ctrVerify none) s = .next s ∧ exec (.ctrVerify (some l)) s = .next s)

/-- STANDBY_KEY_READY, KEY_INTEGRITY_CHECK, TRNG_HEALTH_FAILURE, ALARM_VOLT, ALARM_CLOCK, ALARM_MESH and
ONCHIP_ZEROING_COMPLETE: a key where one is missing, else a standby; a failed check drops its slots and raises an alarm
source; an alarm counts, its pending bit holds further action off, an erase destroys keys and DRAM contents, a lock enters
LOCKDOWN (R413, R439 to R441, R453 to R457). The choices of the model in it: log 62. -/
def Obligations.KeysAndAlarms : Prop := ∀ (s : State) (n : Fin 16) (k : Fin 7),
  let d := s.dev
  let alarm : Nat → Instr := fun k => if k = 0 then .alarmVolt else if k = 1 then .alarmClock else .alarmMesh
  let calm := d.taken = [] ∧ d.modeChg = none
  let source := k.val = 0 ∨ k.val = 1 ∨ k.val = 3
  let pending := (d.rg .SEC_ALPEND_PEND 0).testBit k.val = true
  let level := d.alarmLevel k.val
  let counts := fun (t : State) => t.dev.rg .SEC_ALCNT_COUNT 0 = min (d.rg .SEC_ALCNT_COUNT 0 + 1) 0xFFFF
  let marks := fun (t : State) => (t.dev.rg .SEC_ALPEND_PEND 0).testBit k.val = true
  let erased := fun (t : State) => t.dev.thim.slots = [] ∧ t.dev.rg .SEC_KSLOT_VALID 0 = 0 ∧ t.dev.thim.uns = none ∧
    t.dev.rg .SEC_STAT_WIPING 0 = 1 ∧ ∀ a, dramBase ≤ a → a < 2 ^ 42 → memGet t.mem a = 0
  (d.locked = true → Completes .standbyKeyReady s (fun t => t = s)) ∧
  (d.locked = false → d.on .SEC_STAT_DRAMKEY 0 = true → Completes .standbyKeyReady s (fun t =>
    t.dev.rg .SEC_STAT_STANDBY 0 = 1 ∧ t.dev.rg .SEC_STAT_TRNGOK 0 = 1 ∧ t.dev.rg .SEC_STAT_DRAMKEY 0 = 1)) ∧
  (d.locked = false → d.on .SEC_STAT_DRAMKEY 0 = false → Completes .standbyKeyReady s (fun t =>
    t.dev.rg .SEC_STAT_DRAMKEY 0 = 1 ∧ t.dev.rg .SEC_STAT_TRNGOK 0 = 1 ∧
    t.dev.rg .SEC_STAT_STANDBY 0 = d.rg .SEC_STAT_STANDBY 0)) ∧
  (d.thim.storage = true → Completes (.keyIntegrityCheck [] false) s (fun t => t.dev.rg .SEC_STAT_KSOK 0 = 1 ∧
    t.dev.thim.slots = d.thim.slots ∧ (d.on .SEC_STAT_TRNGOK 0 = true → 6 ∉ t.dev.thim.active))) ∧
  (calm → (d.thim.slots.get? n.val).isSome → Completes (.keyIntegrityCheck [n] false) s (fun t =>
    t.dev.rg .SEC_STAT_KSOK 0 = 0 ∧ t.dev.thim.slots.get? n.val = none ∧ 6 ∈ t.dev.thim.active)) ∧
  (calm → Completes (.keyIntegrityCheck [] true) s (fun t => t.dev.rg .SEC_STAT_KSOK 0 = 0 ∧ 6 ∈ t.dev.thim.active)) ∧
  (calm → Completes .trngHealthFailure s (fun t => t.dev.rg .SEC_STAT_TRNGOK 0 = 0 ∧ 6 ∈ t.dev.thim.active)) ∧
  (source → pending → exec (alarm k) s = .next s) ∧
  (source → ¬pending → level = 0 → Completes (alarm k) s (fun t => counts t ∧ t.mem = s.mem ∧ t.dev.thim = d.thim ∧
    t.dev.rg .SEC_ALPEND_PEND 0 = d.rg .SEC_ALPEND_PEND 0)) ∧
  (source → ¬pending → level = 1 → Completes (alarm k) s (fun t => counts t ∧ marks t ∧ t.mem = s.mem ∧
    t.dev.thim = d.thim)) ∧
  (s.wf → calm → source → ¬pending → level = 2 → d.thim.last = none → Completes (alarm k) s (fun t => counts t ∧ marks t ∧
    erased t ∧ t.dev.thim.last = some (cycleOf d.tick, 2))) ∧
  (source → ¬pending → level = 2 → d.thim.last = some (cycleOf d.tick, 2) → Completes (alarm k) s (fun t => counts t ∧
    marks t ∧ t.mem = s.mem ∧ t.dev.thim = d.thim)) ∧
  (s.wf → calm → source → ¬pending → level = 3 → d.thim.last = none → d.locked = false → Completes (alarm k) s (fun t => counts t ∧
    marks t ∧ erased t ∧ t.dev.locked = true ∧ t.dev.rg .HOST_MODE_LOCKSRC 0 = 2 ∧ t.dev.rg .SEC_STAT_DRAMKEY 0 = 0)) ∧
  (Completes .onchipZeroingComplete s (fun t => t.mem = s.mem ∧
    ∀ j, t.dev.key j = if j = ⟨.SEC_STAT_WIPING, 0, 0⟩ then 0 else d.key j))

/-- UNSEAL_GO, UNSEAL_PASS1_COMPLETE, UNSEAL_PASS2_COMPLETE, SEALED_REGION_RELEASE and SEALED_REGION_ZEROED: an unseal
starts where the life cycle lets it, pass 1 ends with the first check that fails or opens the guarded region, pass 2 stores
the payload or frees the region; a freed region is zeroed before its guard ends (R444 to R446). The choices of the model in
it: log 62, 63. -/
def Obligations.SealedImages : Prop := ∀ (s : State) (n : Fin 16) (u : Unseal) (p : List Nat),
  let d := s.dev
  let state := d.rg .SEC_UNS_STAT_STATE 0
  let ends := fun (t : State) (r : Nat) => t.dev.rg .SEC_UNS_STAT_STATE 0 = 0 ∧ t.dev.rg .SEC_UNS_STAT_RESULT 0 = r ∧
    t.dev.thim.uns = none
  let clean := d.errs = [] ∧ d.poison = [] ∧ d.on .DRC_ZERO_ACTIVE 0 = false ∧ d.on .DRC_ZERO_ACTIVE 1 = false
  let reads := fun (len : Nat) => ∀ i, u.src / 256 ≤ i → i ≤ (u.src + len - 1) / 256 → d.dramPath i = .served
  let img := fun (len : Nat) => memRead s.mem (dramBase + u.src) len
  let len := imgLen (img 64)
  let pass1 := clean ∧ d.thim.uns = some u ∧ state = 1 ∧ u.src + len + 144 ≤ 2 ^ 38
  let lines := d.rgi .SEC_REG_CTRL_LINES 0 u.region
  let pass2 := clean ∧ d.thim.uns = some u ∧ state = 2 ∧ reads (lines * 256 + 144) ∧ d.writePath u.dst = .served
  let whole := img (lines * 256 + 144)
  let plain := (d.thim.slots.get? (whole.getD 4 0)).bind (fun k => imgOpen k whole whole)
  let base := dramBase + d.rgi .SEC_REG_BASE_LINE 0 n * 256
  let size := d.rgi .SEC_REG_CTRL_LINES 0 n * 256
  (state ≠ 0 → Completes (.unsealGo n) s (fun t => t.dev.thim = d.thim ∧ t.dev.rg .SEC_UNS_STAT_STATE 0 = state)) ∧
  (state = 0 → d.lc ≠ 1 → d.lc ≠ 2 → Completes (.unsealGo n) s (fun t => t.dev.thim = d.thim ∧
    t.dev.rg .SEC_UNS_STAT_RESULT 0 = 9 ∧ t.dev.rg .SEC_UNS_STAT_STATE 0 = 0)) ∧
  (state = 0 → d.lc = 1 ∨ d.lc = 2 → Completes (.unsealGo n) s (fun t => t.dev.rg .SEC_UNS_STAT_STATE 0 = 1 ∧
    t.dev.rg .SEC_UNS_STAT_RESULT 0 = 0 ∧
    t.dev.thim.uns = some ⟨d.rg .SEC_UNS_SRC_ADDR 0 / 16 * 16, d.rg .SEC_UNS_DST_LINE 0, n⟩)) ∧
  (d.thim.uns = none → exec .unsealPass1Complete s = .next s ∧ exec .unsealPass2Complete s = .next s) ∧
  (d.thim.uns = some u → state = 1 → d.dramPath (u.src / 256) = .faults → Completes .unsealPass1Complete s (fun t =>
    ends t 8 ∧ t.mem = s.mem)) ∧
  (d.dramPath (u.src / 256) = .waits → d.thim.uns = some u → exec .unsealPass1Complete s = .next s ∧
    exec .unsealPass2Complete s = .next s) ∧
  (pass1 → reads 64 → leNat ((img 64).take 4) ≠ 1 ∨ len % 256 ≠ 0 → Completes .unsealPass1Complete s (fun t => ends t 2 ∧
    t.mem = s.mem)) ∧
  (∀ r, pass1 → reads (len + 144) → leNat ((img 64).take 4) = 1 → len % 256 = 0 → d.imgFault (img (len + 144)) = some r →
    Completes .unsealPass1Complete s (fun t => ends t r ∧ t.mem = s.mem)) ∧
  (pass1 → reads (len + 144) → leNat ((img 64).take 4) = 1 → len % 256 = 0 → d.imgFault (img (len + 144)) = none →
    d.unsOverlap u len = true → Completes .unsealPass1Complete s (fun t => ends t 7 ∧ t.mem = s.mem)) ∧
  (pass1 → reads (len + 144) → leNat ((img 64).take 4) = 1 → len % 256 = 0 → d.imgFault (img (len + 144)) = none →
    d.unsOverlap u len = false → Completes .unsealPass1Complete s (fun t => t.dev.rg .SEC_UNS_STAT_STATE 0 = 2 ∧
      t.dev.rgi .SEC_REG_BASE_LINE 0 u.region = u.dst % 2 ^ 30 ∧ t.dev.rgi .SEC_REG_CTRL_LINES 0 u.region = len / 256 % 2 ^ 30 ∧
      t.dev.rgi .SEC_REG_CTRL_ACTIVE 0 u.region = 1 ∧ t.dev.thim.uns = some u ∧ t.mem = s.mem)) ∧
  (pass2 → plain = none → Completes .unsealPass2Complete s (fun t => ends t 6 ∧ t.mem = s.mem ∧
    (d.rgi .SEC_REG_CTRL_ACTIVE 0 u.region = 1 → u.region ∈ t.dev.thim.freed))) ∧
  (s.wf → pass2 → lines = 1 → plain = some p → p.length = 256 → d.awgGuard u.dst = none →
    Completes .unsealPass2Complete s (fun t => ends t 1 ∧ t.dev.thim.freed = d.thim.freed ∧
      (∀ j < 256, memGet t.mem (dramBase + u.dst * 256 + j) = p.getD j 0 % 256) ∧
      ∀ a, (a < dramBase + u.dst * 256 ∨ dramBase + u.dst * 256 + 256 ≤ a) → memGet t.mem a = memGet s.mem a)) ∧
  (d.rgi .SEC_REG_CTRL_ACTIVE 0 n = 1 → Completes (.sealedRegionRelease n) s (fun t => n.val ∈ t.dev.thim.freed ∧
    t.dev.regs = d.regs ∧ t.mem = s.mem)) ∧
  (d.rgi .SEC_REG_CTRL_ACTIVE 0 n ≠ 1 → exec (.sealedRegionRelease n) s = .next s) ∧
  (s.wf → d.thim.freed.contains n.val = true → Completes (.sealedRegionZeroed n) s (fun t => n.val ∉ t.dev.thim.freed ∧
    t.dev.rgi .SEC_REG_CTRL_ACTIVE 0 n = 0 ∧ ∀ a, memGet t.mem a = if base ≤ a ∧ a < base + size then 0 else memGet s.mem a)) ∧
  (d.thim.freed.contains n.val = false → exec (.sealedRegionZeroed n) s = .next s)

/-- DEBUG_TRY, DEBUG_BLOCK_EXPIRE, DEBUG_CLOSE, ATTESTATION_GO and ATTESTATION_QUOTE_READY: a signature over the challenge
opens a class, the third failure in a row blocks further tries, every try that is judged renews the challenge; a quote
answers one request (R448, R458 to R460). The choices of the model in it: log 62, 63. -/
def Obligations.DebugAndAttestation : Prop := ∀ (s : State) (cls : BitVec 2),
  let d := s.dev
  let c := cls.toNat
  let msg := leBytes 32 (d.rg .SEC_DBG_CHAL_CHAL 0) ++ leBytes 64 (d.rg .SEC_ID_PUB_KEY 0) ++ [c]
  let signed := Config.ecdsaVerify (d.rg .SEC_DBGKEY_KEY 0) (leBytes 32 (Config.sha256 msg)) (d.rg .SEC_DBG_RESP_SIG 0)
  let free := d.on .SEC_DBG_STAT_BLOCKED 0 = false
  let fails := d.rg .SEC_DBG_STAT_FAILCNT 0
  let renewed := fun (t : State) => t.dev.rg .SEC_DBG_CHAL_CHAL 0 = Config.trng d.free % 2 ^ 256 ∧ t.dev.free = d.free + 1
  let only := fun (t : State) (f : Field) (v : Nat) => t.mem = s.mem ∧
    ∀ j, t.dev.key j = if j = ⟨f, 0, 0⟩ then v else d.key j
  let busy := d.on .SEC_ATT_STAT_BUSY 0 = true
  (¬free → Completes (.debugTry cls) s (fun t => only t .SEC_DBG_CTRL_CLASS c ∧ t.dev.free = d.free)) ∧
  (free → ((c ≠ 1 ∧ c ≠ 2) ∨ d.dbgAllowed c = false ∨ (c = 2 ∧ d.quietDevice = false)) → Completes (.debugTry cls) s (fun t => renewed t ∧
    t.dev.rg .SEC_STAT_DBG 0 = d.rg .SEC_STAT_DBG 0 ∧ t.dev.rg .SEC_DBG_STAT_FAILCNT 0 = fails)) ∧
  (free → c = 1 → d.dbgAllowed 1 = true → signed = true → Completes (.debugTry cls) s (fun t => renewed t ∧
    t.dev.rg .SEC_STAT_DBG 0 = 1 ∧ t.dev.rg .SEC_DBG_STAT_FAILCNT 0 = 0 ∧ t.mem = s.mem)) ∧
  (s.wf → free → c = 2 → d.dbgAllowed 2 = true → d.quietDevice = true → signed = true → Completes (.debugTry cls) s (fun t =>
    renewed t ∧ t.dev.rg .SEC_STAT_DBG 0 = 2 ∧ ∀ a, dramBase ≤ a → a < 2 ^ 42 → memGet t.mem a = 0)) ∧
  (free → c = 1 → d.dbgAllowed 1 = true → signed = false → fails < 2 → Completes (.debugTry cls) s (fun t => renewed t ∧
    t.dev.rg .SEC_STAT_DBG 0 = d.rg .SEC_STAT_DBG 0 ∧ t.dev.rg .SEC_DBG_STAT_FAILCNT 0 = fails + 1 ∧
    t.dev.rg .SEC_DBG_STAT_BLOCKED 0 = d.rg .SEC_DBG_STAT_BLOCKED 0)) ∧
  (free → c = 1 → d.dbgAllowed 1 = true → signed = false → 2 ≤ fails → d.taken = [] → d.modeChg = none → Completes (.debugTry cls) s (fun t =>
    t.dev.rg .SEC_DBG_STAT_FAILCNT 0 = 3 ∧ t.dev.rg .SEC_DBG_STAT_BLOCKED 0 = 1 ∧ t.dev.thim.blockAt = d.tick)) ∧
  Completes .debugBlockExpire s (fun t => only t .SEC_DBG_STAT_BLOCKED 0 ∧
    (¬free → t.dev.tick = max d.tick (d.thim.blockAt + 4000000000000))) ∧
  Completes .debugClose s (fun t => only t .SEC_STAT_DBG 0) ∧
  (¬busy → Completes .attestationGo s (fun t => only t .SEC_ATT_STAT_BUSY 1)) ∧ (busy → exec .attestationGo s = .next s) ∧
  (busy → Completes .attestationQuoteReady s (fun t => t.dev.rg .SEC_ATT_STAT_BUSY 0 = 0 ∧
    t.dev.rg .SEC_ATT_STAT_READY 0 = 1 ∧ t.dev.free = d.free + 1 ∧ t.dev.rg .SEC_ATT_QUOTE_QUOTE 0 = leNat (d.quoteBody ++
      leBytes 64 (Config.ecdsaSign (leBytes 32 (Config.sha256 d.quoteBody)) d.free)) % 2 ^ 2048)) ∧
  (¬busy → exec .attestationQuoteReady s = .next s)

/-- REGISTER_WRITE, BASTED_WRITE and READ_CLEAR: an access of a wrong size, at a hole or in a domain that is not on has no
effect but its mark; RW takes the value, W1C clears, RO ignores, RWL is open until sealed, RC clears as it is read, RWB goes
to the basted copy alone; a pattern bank in use refuses a write (R9 to R13, R171, R391, R473). One register stands for each
type. The choices of the model in it: log 31, 70. -/
def Obligations.RegisterAccess : Prop := ∀ (s : State) (addr : BitVec 26) (l : List Byte) (ep dup : Bool) (n : BitVec 10) (k : Nat)
    (c : CluId) (b : Fin 2) (i : Nat),
  let a := addr.toNat
  let d := (s.playedAt a).dev
  let v := leNat (l.map (·.toNat))
  let sets := fun (t : State) (f : Field) (x : Nat) => t.mem = s.mem ∧ ∀ j, t.dev.key j = if j = ⟨f, 0, 0⟩ then x else d.key j
  let more := fun (f : Field) => min (d.rg f 0 + 1) (2 ^ f.info.width - 1)
  let write := Instr.registerWrite addr l ep dup
  let four := l.length = 4 ∧ d.rstWin = none
  let bank := a = progMem c b i ∧ l.length = 8 ∧ i < 65536 ∧ d.domOn (3 + c.val) = true
  (sizeOk a l.length = false → Completes write s (fun t => sets t .HOST_STAT_BADACC 1)) ∧
  (sizeOk a l.length = true → accessDom a l.length = none → Completes write s (fun t => t = s.playedAt a)) ∧
  (sizeOk a l.length = true → accessDom a l.length = some k → d.domOn k = false →
    (∀ h ∈ hits a l.length, h.1.f ≠ .FEB_HCMD_FRAME) → Completes write s (fun t =>
      sets t .PWR_ACCREJ_COUNT (more .PWR_ACCREJ_COUNT))) ∧
  (four → a = 0x908 → d.domOn 0 = true → Completes write s (fun t => sets t .TEL_RSIZE_LINES v)) ∧
  (four → a = 0x48 → d.domOn 1 = true → d.rg .HOST_STAT_BADACC 0 = 1 → v % 4 = 1 → Completes write s (fun t =>
    t.dev.rg .HOST_STAT_BADACC 0 = 0 ∧ t.mem = s.mem ∧ ∀ j, j.f ≠ .HOST_STAT_BADACC → j.f ≠ .HOST_STAT_BAR2RANGE →
      t.dev.key j = d.key j)) ∧
  (four → a = 0x48 → d.domOn 1 = true → d.rg .HOST_STAT_BADACC 0 = 1 → v % 4 = 0 → Completes write s (fun t =>
    t.dev.rg .HOST_STAT_BADACC 0 = 1)) ∧
  (four → a = 0x200018 → d.domOn 0 = true → Completes write s (fun t => t.mem = s.mem ∧ ∀ j, t.dev.key j = d.key j)) ∧
  (four → a = 0x400030 → d.domOn 0 = true → d.lc ≤ 1 → Completes write s (fun t =>
    t.dev.rg .SEC_TALARM_HI 0 = v % 256 ∧ t.dev.rg .SEC_TALARM_LO 0 = v / 256 % 256)) ∧
  (four → a = 0x400030 → d.domOn 0 = true → 1 < d.lc → Completes write s (fun t => ∀ j, t.dev.key j = d.key j)) ∧
  (s.wf → bank → d.bankUsers c b = 0 → d.errs = [] → d.poison = [] → Completes write s (fun t =>
    (∀ j, (h : j < l.length) → memGet t.mem (a + j) = l[j].toNat) ∧
    ∀ x, (x < a ∨ a + 8 ≤ x) → memGet t.mem x = memGet s.mem x)) ∧
  (bank → d.bankUsers c b ≠ 0 → Completes write s (fun t => t.mem = s.mem ∧ t.dev.rg .PM_STAT_WREJ c = min (d.rg .PM_STAT_WREJ c + 1) 0xFFFF)) ∧
  (sizeOk a l.length = true → accessDom a l.length = some k → d.domOn k = true → winOf a = none →
    (∀ h ∈ hits a l.length, h.1.f.info.acc = .rwb) → Completes (.bastedWrite addr l) s (fun t => t.mem = s.mem ∧
      (∀ j, t.dev.key j = d.key j) ∧ ∀ w ∈ d.wrs a l.length v,
        t.dev.bast w.key = w.val % 2 ^ w.key.f.info.width ∧ w.key ∈ t.dev.dirty)) ∧
  (sizeOk a n.toNat = false → Completes (.readClear addr n) s (fun t => sets t .HOST_STAT_BADACC 1 ∧
    t.dev.out = d.out ++ [.host (List.replicate n.toNat 0) false])) ∧
  (sizeOk a n.toNat = true → accessDom a n.toNat = some k → d.domOn k = false → Completes (.readClear addr n) s (fun t =>
    sets t .PWR_ACCREJ_COUNT (more .PWR_ACCREJ_COUNT) ∧ t.dev.out = d.out ++ [.host (List.replicate n.toNat 0) false])) ∧
  (a = 0x20002C → n.toNat = 4 → d.domOn 0 = true → Completes (.readClear addr n) s (fun t => sets t .PWR_ACCREJ_COUNT 0 ∧
    t.dev.out = d.out ++ [.host (leBytes 4 (d.rg .PWR_ACCREJ_COUNT 0)) false])) ∧
  (a = 0x908 → n.toNat = 4 → d.domOn 0 = true → Completes (.readClear addr n) s (fun t => t.mem = s.mem ∧
    (∀ j, t.dev.key j = d.key j) ∧ t.dev.out = d.out ++ [.host (leBytes 4 (d.rg .TEL_RSIZE_LINES 0)) false]))

/-- SNAPSHOT, LOG_POP, BAR2_READ, BAR2_WRITE, SRAM_SCRUB_VISIT and STORED_WORD_ERROR: a copy of registers in its path's
buffer; the oldest log entry goes; DRAM through BAR2, with waits, guards and reports; a visited word is corrected in place,
clean words are left; error patterns join and cancel (R23, R32, R446, R475, R483, R484). The choices of the model in it: log
3, 66, 70. -/
def Obligations.HostMemory : Prop := ∀ (s : State) (addr : BitVec 26) (len : Byte) (rcclr smb : Bool) (off : BitVec 32)
    (n : BitVec 13) (l : List Byte) (ep dup : Bool) (m : CodedMem) (w : BitVec 16) (w' : BitVec 34) (k : Fin 36) (v : BitVec 4) (a : Nat),
  let d := s.dev
  let buf := if smb then smbSnap else 0x4000
  let x := d.rg .HOST_BAR2_BASE_BASE 0 * 2 ^ 21 + off.toNat
  let line := x / 256
  let here := d.bar2Off line = false
  let reads := 0 < n.toNat ∧ x % 256 + n.toNat ≤ 256
  let writes := l.length = 16 ∧ x % 16 = 0
  let clean := d.errs = [] ∧ d.poison = []
  let guard := fun (t : State) => t.mem = s.mem ∧
    t.dev.rg .SEC_GUARDCNT_COUNT 0 = min (d.rg .SEC_GUARDCNT_COUNT 0 + 1) (2 ^ Field.SEC_GUARDCNT_COUNT.info.width - 1)
  let scrubs := m ≠ .dram ∧ ∀ e, m ≠ .failBuf e ∧ m ≠ .queue e
  (s.wf → d.domOn 1 = true → d.domOn 0 = true → d.rstWin = none → addr.toNat = 0x200000 → len.toNat = 1 →
    Completes (.snapshot addr len rcclr smb) s (fun t =>
      (∀ j < 4, memGet t.mem (buf + j) = d.rg .PWR_REQ_MASK_MASK 0 / 256 ^ j % 256) ∧
      (∀ j, 16 ≤ j → j < 4096 → memGet t.mem (buf + j) = 0) ∧
      ∀ y, (y < buf ∨ buf + 4096 ≤ y) → memGet t.mem y = memGet s.mem y)) ∧
  (d.domOn 1 = true → d.rstWin = none → addr.toNat % 16 ≠ 0 → Completes (.snapshot addr len rcclr smb) s (fun t =>
    t.dev.rg .HOST_SNAP_CTRL_REFUSED 0 = 1 ∧ t.mem = s.mem)) ∧
  (d.rstWin = none → Completes .logPop s (fun t => t.dev.log = d.log.drop 1 ∧ t.dev.regs = d.regs ∧ t.mem = s.mem)) ∧
  (reads → here → d.dramPath line = .waits → exec (.bar2Read off n) s = .next s) ∧
  (reads → clean → here → d.dramPath line = .served → d.unzeroed line = false → d.sealed line = false → Completes (.bar2Read off n) s (fun t =>
    t.mem = s.mem ∧ t.dev.regs = d.regs ∧ t.dev.out = d.out ++ [.host (memRead s.mem (dramBase + x) n.toNat) false])) ∧
  (reads → here → d.dramPath line ≠ .waits → d.sealed line = true → Completes (.bar2Read off n) s (fun t => guard t ∧
    t.dev.out = d.out ++ [.host (List.replicate n.toNat 0) true])) ∧
  (writes → here → d.writePath line = .waits → exec (.bar2Write off l ep dup) s = .next s) ∧
  (s.wf → writes → here → d.writePath line = .served → d.sealed line = false → d.awgGuard line = none →
    d.unzeroed line = false → d.errs = [] →
    Completes (.bar2Write off l ep dup) s (fun t => (∀ j, (h : j < l.length) → memGet t.mem (dramBase + x + j) = l[j].toNat) ∧
      (∀ y, (y < dramBase + x ∨ dramBase + x + 16 ≤ y) → memGet t.mem y = memGet s.mem y) ∧
      (dramBase + x ∈ t.dev.poison ↔ ep = true))) ∧
  (writes → here → d.writePath line ≠ .waits → d.sealed line = true → Completes (.bar2Write off l ep dup) s guard) ∧
  (writes → d.lineAt line = none → d.sealed line = false → Completes (.bar2Write off l ep dup) s (fun t => t.mem = s.mem ∧
    t.dev.rg .HOST_STAT_BAR2RANGE 0 = 1)) ∧
  (reads → ¬here → Completes (.bar2Read off n) s (fun t => t.mem = s.mem ∧ t.dev.out = d.out ++ [.host (List.replicate n.toNat 0) false] ∧
    t.dev.rg .PWR_ACCREJ_COUNT 0 = min (d.rg .PWR_ACCREJ_COUNT 0 + 1) (2 ^ Field.PWR_ACCREJ_COUNT.info.width - 1))) ∧
  (writes → ¬here → Completes (.bar2Write off l ep dup) s (fun t => t.mem = s.mem ∧
    t.dev.rg .PWR_ACCREJ_COUNT 0 = min (d.rg .PWR_ACCREJ_COUNT 0 + 1) (2 ^ Field.PWR_ACCREJ_COUNT.info.width - 1))) ∧
  ((∀ y, d.codedWord m w.toNat = some y → d.errs.get? y = none) → exec (.sramScrubVisit m w) s = .next s) ∧
  (s.wf → scrubs → d.codedWord m w.toNat = some a → d.errs.get? a = some [(k.val, v.toNat)] → a ∉ d.poison →
    Completes (.sramScrubVisit m w) s (fun t => t.dev.errs.get? a = none ∧ ∀ y, memGet t.mem y = memGet s.mem y)) ∧
  (scrubs → d.codedWord m w.toNat = some a → a ∉ d.poison → (∃ p q, d.errs.get? a = some [p, q]) →
    Completes (.sramScrubVisit m w) s (fun t => a ∈ t.dev.poison ∧ t.mem = s.mem)) ∧
  (d.codedWord m w'.toNat = none → exec (.storedWordError m w' [(k, v)]) s = .next s) ∧
  (d.codedWord m w'.toNat = some a → a ∉ d.poison → d.errs.get? a = none → v ≠ 0 → Completes (.storedWordError m w' [(k, v)]) s
    (fun t => t.dev.errs.get? a = some [(k.val, v.toNat)] ∧ t.dev.regs = d.regs ∧ t.mem = s.mem)) ∧
  (d.codedWord m w'.toNat = some a → a ∉ d.poison → d.errs.get? a = some [(k.val, v.toNat)] →
    Completes (.storedWordError m w' [(k, v)]) s (fun t => t.dev.errs.get? a = none ∧ t.mem = s.mem))

/-- SMB_REG_READ, SMB_REG_WRITE, SMB_TEL_READ, SMB_LOG_READ, SMB_WAKE, SMB_STATUS and MSI_X_UNMASK: what the SMBus target
returns or does not acknowledge, and the message that an unmasked vector owes (R477, R489, R490). The choices of the model
in it: log 8. -/
def Obligations.SideBand : Prop := ∀ (s : State) (addr : BitVec 26) (eight : Bool) (l : List Byte) (half : Fin 2)
    (mask : BitVec 32) (v : Fin 256) (n : LogEntry) (m : List LogEntry) (masked : Bool),
  let d := s.smbIn.dev
  let p := (s.smbIn.playedAt addr.toNat).dev
  let h := s.dev
  let answers := fun (t : State) (b : Option (List Nat)) => t.dev.out = d.out ++ [.smb b]
  let kept := fun (t : State) => t.mem = s.mem ∧ ∀ j, t.dev.key j = d.key j
  let same := fun (t : State) => t.mem = s.mem ∧ ∀ j, t.dev.key j = h.key j
  (addr.toNat = 0x908 → d.domOn 0 = true → Completes (.smbRegRead addr false) s (fun t => kept t ∧
    answers t (some (leBytes 4 (d.rg .TEL_RSIZE_LINES 0))))) ∧
  (sizeOk addr.toNat (if eight then 8 else 4) = false → Completes (.smbRegRead addr eight) s (fun t =>
    t.dev.out = p.out ++ [.smb (some (List.replicate (if eight then 8 else 4) 0))] ∧ t.dev.rg .HOST_STAT_BADACC 0 = 1)) ∧
  (l.length ≠ 4 → l.length ≠ 8 → Completes (.smbRegWrite addr l) s (fun t => kept t ∧ answers t none)) ∧
  (l.length = 4 → addr.toNat = 0x908 → d.domOn 0 = true → d.rstWin = none → Completes (.smbRegWrite addr l) s (fun t =>
    t.mem = s.mem ∧ ∀ j, t.dev.key j = if j = ⟨.TEL_RSIZE_LINES, 0, 0⟩ then leNat (l.map (·.toNat)) else d.key j)) ∧
  Completes (.smbTelRead half) s (fun t => kept t ∧
    answers t (some (leBytes 128 (d.rg .TEL_LAST_SAMPLE 0 / 2 ^ (1024 * half.val))))) ∧
  (d.log = n :: m → Completes .smbLogRead s (fun t => kept t ∧ t.dev.log = m ∧ answers t (some (leBytes 32 n.bits)))) ∧
  (d.log = [] → Completes .smbLogRead s (fun t => kept t ∧ t.dev.log = [] ∧ answers t (some (List.replicate 32 0)))) ∧
  Completes (.smbWake mask) s (fun t => exec (.pwrWake mask) s.smbIn = .next t) ∧
  Completes .smbStatus s (fun t => kept t ∧ ∃ b, b.length = 16 ∧ answers t (some b)) ∧
  (h.domOn 1 = true → v.val ∈ h.pba → h.msixEn = true → h.msixFn = false → Completes (.msiXUnmask (.vector v false)) s (fun t =>
    same t ∧ .msix v.val ∈ t.dev.out ∧ v.val ∉ t.dev.pba)) ∧
  (h.domOn 1 = true → Completes (.msiXUnmask (.vector v true)) s (fun t => same t ∧ t.dev.msixOpen v = false)) ∧
  (h.domOn 1 = true → Completes (.msiXUnmask (.function false masked)) s (fun t => same t ∧ t.dev.out = h.out ∧
    t.dev.pba = h.pba ∧ t.dev.msixOpen v = false)) ∧
  (h.domOn 1 = false → Completes (.msiXUnmask (.function true masked)) s (fun t => t.dev.pba = h.pba ∧
    t.dev.rg .PWR_ACCREJ_COUNT 0 = min (h.rg .PWR_ACCREJ_COUNT 0 + 1) (2 ^ 32 - 1)))

/-- DMA_DESCRIPTOR_START, DMA_DESCRIPTOR_COMPLETE and DMA_RESET: a channel with work reads its descriptor; a bad one halts
with its code; one that completes has moved its data, written its status and advanced HEAD; RESET drops what is in progress
(R479 to R481). The choices of the model in it: log 65. -/
def Obligations.DmaChannels : Prop := ∀ (s : State) (c : DmaId) (l : List Byte) (r : DmaData) (x : Dma),
  let d := s.dev
  let bytes := l.map (·.toNat)
  let head := d.rg .DMA_HEAD_INDEX c
  let tail := d.rg .DMA_TAIL_INDEX c
  let next := (head + 1) % d.ringSize c
  let idle := d.domUp 1 = true ∧ d.on .DMA_CTRL_EN c = true ∧ d.on .DMA_STAT_HALTED c = false ∧ d.on .DMA_STAT_RUN c = false
  let work := idle ∧ head ≠ tail % d.ringSize c
  let halts := fun (t : State) (k : Nat) => t.dev.rg .DMA_STAT_HALTED c = 1 ∧ t.dev.rg .DMA_STAT_CODE c = k ∧
    t.dev.rg .DMA_STAT_RUN c = 0 ∧ t.dev.dmas.get? c.val = none ∧ t.dev.rg .DMA_HEAD_INDEX c = head ∧ t.mem = s.mem
  let ctrl := leNat ((bytes.drop 20).take 2)
  let runs := d.domOn 1 = true ∧ d.dmas.get? c.val = some x
  let line := x.daddr / 256
  let short := runs ∧ x.len = 16 ∧ x.haddr % 16 = 0 ∧ x.daddr % 16 = 0
  let ends := fun (t : State) => t.dev.rg .DMA_STAT_RUN c = 0 ∧ t.dev.dmas.get? c.val = none ∧ t.dev.rg .DMA_HEAD_INDEX c = next ∧
    t.dev.rg .DMA_STAT_HALTED c = d.rg .DMA_STAT_HALTED c
  let status := Out.dma (d.descAddr c + 22) [1, 0] false
  (¬idle ∨ head = tail % d.ringSize c → exec (.dmaDescriptorStart c (some l)) s = .next s) ∧
  (work → Completes (.dmaDescriptorStart c none) s (fun t => halts t 6)) ∧
  (work → descBad bytes = true → Completes (.dmaDescriptorStart c (some l)) s (fun t => halts t 3)) ∧
  (work → descBad bytes = false → ctrl / 8 % 2 = 0 → Completes (.dmaDescriptorStart c (some l)) s (fun t =>
    t.dev.rg .DMA_STAT_RUN c = 1 ∧ t.mem = s.mem ∧ t.dev.dmas.get? c.val =
      some ⟨leNat (bytes.take 8), leNat ((bytes.drop 8).take 8), leNat ((bytes.drop 16).take 4), ctrl⟩)) ∧
  (d.dmas.get? c.val = none → exec (.dmaDescriptorComplete c r) s = .next s) ∧
  (runs → x.ctrl / 2 % 2 = 0 → x.haddr % 16 ≠ 0 ∨ x.daddr % 16 ≠ 0 → Completes (.dmaDescriptorComplete c r) s (fun t => halts t 4)) ∧
  (short → x.ctrl = 0 → d.writePath line = .waits → exec (.dmaDescriptorComplete c r) s = .next s) ∧
  (s.wf → short → x.ctrl = 0 → d.writePath line = .served → d.sealed line = false → d.awgGuard line = none →
    d.unzeroed line = false → d.errs = [] → r.data.length = 16 → r.bad = [] → r.err = none → Completes (.dmaDescriptorComplete c r) s (fun t => ends t ∧
      t.dev.out = d.out ++ [status] ∧
      (∀ j, (h : j < r.data.length) → memGet t.mem (dramBase + x.daddr + j) = r.data[j].toNat) ∧
      ∀ y, (y < dramBase + x.daddr ∨ dramBase + x.daddr + 16 ≤ y) → memGet t.mem y = memGet s.mem y)) ∧
  (short → x.ctrl = 1 → d.dramPath line = .served → d.unzeroed line = false → d.sealed line = false → d.errs = [] → d.poison = [] →
    Completes (.dmaDescriptorComplete c r) s (fun t => ends t ∧ t.mem = s.mem ∧
      t.dev.out = d.out ++ [.dma x.haddr (memRead s.mem (dramBase + x.daddr) 16) false, status])) ∧
  (short → x.ctrl = 0 → d.lineAt line = none → r.data.length = 16 → r.err = none →
    Completes (.dmaDescriptorComplete c r) s (fun t => halts t 5)) ∧
  (d.domOn 1 = true → Completes (.dmaReset c) s (fun t => t.dev.rg .DMA_STAT_HALTED c = 0 ∧ t.dev.rg .DMA_STAT_RUN c = 0 ∧
    t.dev.rg .DMA_HEAD_INDEX c = tail % 2 ^ 16 ∧ t.dev.dmas.get? c.val = none ∧ t.mem = s.mem)) ∧
  (d.domOn 1 = false → Completes (.dmaReset c) s (fun t => t.dev.dmas = d.dmas ∧
    t.dev.rg .PWR_ACCREJ_COUNT 0 = min (d.rg .PWR_ACCREJ_COUNT 0 + 1) (2 ^ 32 - 1)))

/-- BOUNDARY_TEST_LOAD, BOUNDARY_TEST_EXIT, DEBUG_REG and JTAG_TRST: in BRINGUP and IDLE a boundary test takes lanes, links
and ports down and the DRAM ports untrained, elsewhere the instruction is BYPASS; leaving one restarts them; open debug
reaches BAR0 (R491 to R493). The choices of the model in it: log 32, 67. -/
def Obligations.TestAccess : Prop := ∀ (s : State) (test : BoundaryTest) (n : LaneId) (p : PortId) (q : DramId) (write : Bool)
    (addr : BitVec 26) (v : Word),
  let d := s.dev
  let mode := d.rg .SEW_MODE_MODE 0
  let open_ := d.domOn 1 = true ∧ d.dbgOpen 1 = true ∧ d.tap.test = none ∧ d.rstWin = none
  let left := fun (t : State) => t.dev.tap.test = none ∧ t.dev.ethSlow = [] ∧ (d.domOn 28 = true → t.dev.ports = [] ∧ t.dev.seamQ = []) ∧
    (d.rg .DRC_STAT_STATE q = 1 → d.on .DRC_CFG_POP q = true → d.rg .DRC_CFG_DENS q = 1 → d.on .DRC_STAT_CFGERR q = false → t.dev.rg .DRC_STAT_STATE q = 2)
  (d.taken = [] → d.domOn 1 = true → mode ≤ 1 → Completes (.boundaryTestLoad test) s (fun t => t.dev.tap.test = some test ∧
    t.dev.rg .LNK_LSTAT_LOCK n = 0 ∧ t.dev.rg .LNK_LSTAT_BLOCK n = 0 ∧ t.dev.rg .LNK_SP_STAT_STATE p = 0 ∧
    t.dev.rg .HOST_READY_HOST 0 = 0 ∧
    (d.rg .DRC_STAT_STATE q ≠ 0 → d.rg .DRC_STAT_STATE q ≠ 5 → t.dev.rg .DRC_STAT_STATE q = 1))) ∧
  (d.domOn 1 = true → 1 < mode → d.tap.test = none → exec (.boundaryTestLoad test) s = .next s) ∧
  (d.domOn 1 = true → 1 < mode → d.tap.test.isSome → Completes (.boundaryTestLoad test) s left) ∧
  (d.domOn 1 = false → exec (.boundaryTestLoad test) s = .next s) ∧
  (d.tap.test.isSome → Completes .boundaryTestExit s left) ∧
  (d.tap.test = none → Completes .boundaryTestExit s (fun t => t = s)) ∧
  (open_ → sizeOk addr.toNat 8 = false → Completes (.debugReg write addr v) s (fun t => t.dev.tap = ⟨none, 0, true⟩ ∧
    t.dev.rg .HOST_STAT_BADACC 0 = 1 ∧ t.mem = s.mem)) ∧
  (open_ → d.domOn 0 = true → addr.toNat = 0x908 → Completes (.debugReg true addr v) s (fun t =>
    t.dev.tap = ⟨none, 0, false⟩ ∧ t.dev.rg .TEL_RSIZE_LINES 0 = v.toNat % 2 ^ 32 ∧
    t.dev.rg .TEL_WPTR_LINE 0 = d.rg .TEL_WPTR_LINE 0)) ∧
  (open_ → d.domOn 0 = true → addr.toNat = 0x908 → Completes (.debugReg false addr v) s (fun t => t.dev.regs = d.regs ∧
    t.dev.tap = ⟨none, d.rg .TEL_RSIZE_LINES 0 % 2 ^ 32 + d.rg .TEL_WPTR_LINE 0 % 2 ^ 32 * 2 ^ 32, false⟩)) ∧
  (d.dbgOpen 1 = false → Completes (.debugReg write addr v) s (fun t => t = s)) ∧
  (Completes .jtagTrst s (fun t => t.dev.tap = {} ∧ (d.tap.test.isSome → left t) ∧
    (d.tap.test = none → t.dev.regs = d.regs)))
end

