-- ==== Sys2Proof/Laws/State.lean ====
section
/-!
SUPPORT. What an update of the state leaves alone, field by field; reading back what was written.
-/

namespace Sys2Proof.Machine

/-! ## Sparse tables -/

section
variable {κ α : Type} [DecidableEq κ]

theorem AMap.get?_del_self (m : AMap κ α) (k : κ) : AMap.get? (m.del k) k = none := by
  induction m with
  | nil => rfl
  | cons p m ih =>
    by_cases h : p.1 = k
    · simpa [AMap.del, h] using ih
    · simpa [AMap.del, h, AMap.get?] using ih

theorem AMap.get?_del_ne (m : AMap κ α) {k j : κ} (h : k ≠ j) : AMap.get? (m.del k) j = AMap.get? m j := by
  induction m with
  | nil => rfl
  | cons p m ih =>
    by_cases hp : p.1 = k
    · have hj : p.1 ≠ j := hp ▸ h
      rw [show AMap.del (p :: m) k = AMap.del m k by simp [AMap.del, hp], ih]
      simp [AMap.get?, hj]
    · rw [show AMap.del (p :: m) k = p :: AMap.del m k by simp [AMap.del, hp]]
      simp only [AMap.get?, ih]

@[simp] theorem AMap.get?_put_self (m : AMap κ α) (k : κ) (v : α) : AMap.get? (m.put k v) k = some v := by
  simp [AMap.put, AMap.get?]

theorem AMap.get?_put_ne (m : AMap κ α) {k j : κ} (v : α) (h : k ≠ j) :
    AMap.get? (m.put k v) j = AMap.get? m j := by
  simp [AMap.put, AMap.get?, h, AMap.get?_del_ne m h]

end

variable (d : Dev)

/-! ## Registers -/

@[simp] theorem Dev.key_setKey_self (k : RegKey) (v : Nat) : (d.setKey k v).key k = v % 2 ^ k.f.info.width := by
  simp [Dev.key, Dev.setKey]

theorem Dev.key_setKey_ne {k j : RegKey} (v : Nat) (h : k ≠ j) : (d.setKey k v).key j = d.key j := by
  simp [Dev.key, Dev.setKey, AMap.get?_put_ne _ _ h]

theorem Dev.key_setKey (k j : RegKey) (v : Nat) :
    (d.setKey k v).key j = if k = j then v % 2 ^ k.f.info.width else d.key j := by
  by_cases h : k = j
  · subst h; simp
  · simp [h, Dev.key_setKey_ne d v h]

@[simp] theorem Dev.rg_st_self (f : Field) (u v : Nat) : (d.st f u v).rg f u = v % 2 ^ f.info.width :=
  Dev.key_setKey_self d _ v

theorem Dev.key_st (f : Field) (u v : Nat) (j : RegKey) :
    (d.st f u v).key j = if (⟨f, u, 0⟩ : RegKey) = j then v % 2 ^ f.info.width else d.key j :=
  Dev.key_setKey d _ j v

theorem Dev.key_sti (f : Field) (u i v : Nat) (j : RegKey) :
    (d.sti f u i v).key j = if (⟨f, u, i⟩ : RegKey) = j then v % 2 ^ f.info.width else d.key j :=
  Dev.key_setKey d _ j v

/-- A store into another field leaves a field alone. -/
theorem Dev.key_st_ne {f : Field} {j : RegKey} (u v : Nat) (h : f ≠ j.f) : (d.st f u v).key j = d.key j :=
  Dev.key_setKey_ne d v (fun e => h (by rw [← e]))

theorem Dev.key_sti_ne {f : Field} {j : RegKey} (u i v : Nat) (h : f ≠ j.f) : (d.sti f u i v).key j = d.key j :=
  Dev.key_setKey_ne d v (fun e => h (by rw [← e]))

/-- A field holds no more than its width. -/
theorem Dev.rg_st_lt (f : Field) (u v : Nat) : (d.st f u v).rg f u < 2 ^ f.info.width := by
  rw [Dev.rg_st_self]; exact Nat.mod_lt _ (by positivity)

/-! ## Units -/

@[simp] theorem Dev.eng_setEng_self (u : Nat) (x : Eng) : (d.setEng u x).eng u = x := by
  simp [Dev.eng, Dev.setEng]
theorem Dev.eng_setEng_ne {u j : Nat} (x : Eng) (h : u ≠ j) : (d.setEng u x).eng j = d.eng j := by
  simp [Dev.eng, Dev.setEng, AMap.get?_put_ne _ _ h]

@[simp] theorem Dev.chan_setChan_self (u : Nat) (x : Chan) : (d.setChan u x).chan u = x := by
  simp [Dev.chan, Dev.setChan]
theorem Dev.chan_setChan_ne {u j : Nat} (x : Chan) (h : u ≠ j) : (d.setChan u x).chan j = d.chan j := by
  simp [Dev.chan, Dev.setChan, AMap.get?_put_ne _ _ h]

@[simp] theorem Dev.feb_setFeb_self (u : Nat) (x : Feb) : (d.setFeb u x).feb u = x := by
  simp [Dev.feb, Dev.setFeb]
theorem Dev.feb_setFeb_ne {u j : Nat} (x : Feb) (h : u ≠ j) : (d.setFeb u x).feb j = d.feb j := by
  simp [Dev.feb, Dev.setFeb, AMap.get?_put_ne _ _ h]

@[simp] theorem Dev.acq_setAcq_self (u : Nat) (x : Acq) : (d.setAcq u x).acq u = x := by
  simp [Dev.acq, Dev.setAcq]
theorem Dev.acq_setAcq_ne {u j : Nat} (x : Acq) (h : u ≠ j) : (d.setAcq u x).acq j = d.acq j := by
  simp [Dev.acq, Dev.setAcq, AMap.get?_put_ne _ _ h]

@[simp] theorem Dev.link_setLink_self (u : Nat) (x : Link) : (d.setLink u x).link u = x := by
  simp [Dev.link, Dev.setLink]
theorem Dev.link_setLink_ne {u j : Nat} (x : Link) (h : u ≠ j) : (d.setLink u x).link j = d.link j := by
  simp [Dev.link, Dev.setLink, AMap.get?_put_ne _ _ h]

@[simp] theorem Dev.ddc_setDdc_self (u : Nat) (x : Ddc) : (d.setDdc u x).ddc u = x := by
  simp [Dev.ddc, Dev.setDdc]
theorem Dev.ddc_setDdc_ne {u j : Nat} (x : Ddc) (h : u ≠ j) : (d.setDdc u x).ddc j = d.ddc j := by
  simp [Dev.ddc, Dev.setDdc, AMap.get?_put_ne _ _ h]

@[simp] theorem Dev.awg_setAwg_self (u : Nat) (x : Awg) : (d.setAwg u x).awg u = x := by
  simp [Dev.awg, Dev.setAwg]
theorem Dev.awg_setAwg_ne {u j : Nat} (x : Awg) (h : u ≠ j) : (d.setAwg u x).awg j = d.awg j := by
  simp [Dev.awg, Dev.setAwg, AMap.get?_put_ne _ _ h]

@[simp] theorem Dev.ft_setFt_self (u : Nat) (x : Ft) : (d.setFt u x).ft u = x := by
  simp [Dev.ft, Dev.setFt]
theorem Dev.ft_setFt_ne {u j : Nat} (x : Ft) (h : u ≠ j) : (d.setFt u x).ft j = d.ft j := by
  simp [Dev.ft, Dev.setFt, AMap.get?_put_ne _ _ h]

/-! ## What each update leaves alone -/

@[simp] theorem Dev.setKey_taken (k : RegKey) (v : Nat) : (d.setKey k v).taken = d.taken := rfl
@[simp] theorem Dev.setKey_tick (k : RegKey) (v : Nat) : (d.setKey k v).tick = d.tick := rfl
@[simp] theorem Dev.setKey_free (k : RegKey) (v : Nat) : (d.setKey k v).free = d.free := rfl
@[simp] theorem Dev.setKey_time (k : RegKey) (v : Nat) : (d.setKey k v).time = d.time := rfl
@[simp] theorem Dev.setKey_log (k : RegKey) (v : Nat) : (d.setKey k v).log = d.log := rfl
@[simp] theorem Dev.setKey_out (k : RegKey) (v : Nat) : (d.setKey k v).out = d.out := rfl
@[simp] theorem Dev.setKey_engs (k : RegKey) (v : Nat) : (d.setKey k v).engs = d.engs := rfl
@[simp] theorem Dev.setKey_chans (k : RegKey) (v : Nat) : (d.setKey k v).chans = d.chans := rfl
@[simp] theorem Dev.setKey_febs (k : RegKey) (v : Nat) : (d.setKey k v).febs = d.febs := rfl
@[simp] theorem Dev.setKey_fts (k : RegKey) (v : Nat) : (d.setKey k v).fts = d.fts := rfl
@[simp] theorem Dev.setKey_acqs (k : RegKey) (v : Nat) : (d.setKey k v).acqs = d.acqs := rfl
@[simp] theorem Dev.setKey_links (k : RegKey) (v : Nat) : (d.setKey k v).links = d.links := rfl
@[simp] theorem Dev.setKey_ddcs (k : RegKey) (v : Nat) : (d.setKey k v).ddcs = d.ddcs := rfl
@[simp] theorem Dev.setKey_awgs (k : RegKey) (v : Nat) : (d.setKey k v).awgs = d.awgs := rfl
@[simp] theorem Dev.setKey_poison (k : RegKey) (v : Nat) : (d.setKey k v).poison = d.poison := rfl

@[simp] theorem Dev.setEng_regs (e : Nat) (x : Eng) : (d.setEng e x).regs = d.regs := rfl
@[simp] theorem Dev.setEng_taken (e : Nat) (x : Eng) : (d.setEng e x).taken = d.taken := rfl
@[simp] theorem Dev.setEng_tick (e : Nat) (x : Eng) : (d.setEng e x).tick = d.tick := rfl
@[simp] theorem Dev.setEng_free (e : Nat) (x : Eng) : (d.setEng e x).free = d.free := rfl
@[simp] theorem Dev.setEng_time (e : Nat) (x : Eng) : (d.setEng e x).time = d.time := rfl
@[simp] theorem Dev.setEng_log (e : Nat) (x : Eng) : (d.setEng e x).log = d.log := rfl
@[simp] theorem Dev.setEng_out (e : Nat) (x : Eng) : (d.setEng e x).out = d.out := rfl
@[simp] theorem Dev.setEng_chans (e : Nat) (x : Eng) : (d.setEng e x).chans = d.chans := rfl
@[simp] theorem Dev.setEng_febs (e : Nat) (x : Eng) : (d.setEng e x).febs = d.febs := rfl
@[simp] theorem Dev.setEng_fts (e : Nat) (x : Eng) : (d.setEng e x).fts = d.fts := rfl
@[simp] theorem Dev.setEng_acqs (e : Nat) (x : Eng) : (d.setEng e x).acqs = d.acqs := rfl
@[simp] theorem Dev.setEng_links (e : Nat) (x : Eng) : (d.setEng e x).links = d.links := rfl
@[simp] theorem Dev.setEng_ddcs (e : Nat) (x : Eng) : (d.setEng e x).ddcs = d.ddcs := rfl
@[simp] theorem Dev.setEng_awgs (e : Nat) (x : Eng) : (d.setEng e x).awgs = d.awgs := rfl
@[simp] theorem Dev.setEng_poison (e : Nat) (x : Eng) : (d.setEng e x).poison = d.poison := rfl

@[simp] theorem Dev.setChan_regs (c : Nat) (x : Chan) : (d.setChan c x).regs = d.regs := rfl
@[simp] theorem Dev.setChan_taken (c : Nat) (x : Chan) : (d.setChan c x).taken = d.taken := rfl
@[simp] theorem Dev.setChan_tick (c : Nat) (x : Chan) : (d.setChan c x).tick = d.tick := rfl
@[simp] theorem Dev.setChan_free (c : Nat) (x : Chan) : (d.setChan c x).free = d.free := rfl
@[simp] theorem Dev.setChan_time (c : Nat) (x : Chan) : (d.setChan c x).time = d.time := rfl
@[simp] theorem Dev.setChan_log (c : Nat) (x : Chan) : (d.setChan c x).log = d.log := rfl
@[simp] theorem Dev.setChan_out (c : Nat) (x : Chan) : (d.setChan c x).out = d.out := rfl
@[simp] theorem Dev.setChan_engs (c : Nat) (x : Chan) : (d.setChan c x).engs = d.engs := rfl
@[simp] theorem Dev.setChan_febs (c : Nat) (x : Chan) : (d.setChan c x).febs = d.febs := rfl
@[simp] theorem Dev.setChan_fts (c : Nat) (x : Chan) : (d.setChan c x).fts = d.fts := rfl
@[simp] theorem Dev.setChan_acqs (c : Nat) (x : Chan) : (d.setChan c x).acqs = d.acqs := rfl
@[simp] theorem Dev.setChan_links (c : Nat) (x : Chan) : (d.setChan c x).links = d.links := rfl
@[simp] theorem Dev.setChan_ddcs (c : Nat) (x : Chan) : (d.setChan c x).ddcs = d.ddcs := rfl
@[simp] theorem Dev.setChan_awgs (c : Nat) (x : Chan) : (d.setChan c x).awgs = d.awgs := rfl
@[simp] theorem Dev.setChan_poison (c : Nat) (x : Chan) : (d.setChan c x).poison = d.poison := rfl

@[simp] theorem Dev.setFeb_regs (k : Nat) (x : Feb) : (d.setFeb k x).regs = d.regs := rfl
@[simp] theorem Dev.setFeb_taken (k : Nat) (x : Feb) : (d.setFeb k x).taken = d.taken := rfl
@[simp] theorem Dev.setFeb_tick (k : Nat) (x : Feb) : (d.setFeb k x).tick = d.tick := rfl
@[simp] theorem Dev.setFeb_free (k : Nat) (x : Feb) : (d.setFeb k x).free = d.free := rfl
@[simp] theorem Dev.setFeb_time (k : Nat) (x : Feb) : (d.setFeb k x).time = d.time := rfl
@[simp] theorem Dev.setFeb_log (k : Nat) (x : Feb) : (d.setFeb k x).log = d.log := rfl
@[simp] theorem Dev.setFeb_out (k : Nat) (x : Feb) : (d.setFeb k x).out = d.out := rfl
@[simp] theorem Dev.setFeb_engs (k : Nat) (x : Feb) : (d.setFeb k x).engs = d.engs := rfl
@[simp] theorem Dev.setFeb_chans (k : Nat) (x : Feb) : (d.setFeb k x).chans = d.chans := rfl
@[simp] theorem Dev.setFeb_fts (k : Nat) (x : Feb) : (d.setFeb k x).fts = d.fts := rfl
@[simp] theorem Dev.setFeb_acqs (k : Nat) (x : Feb) : (d.setFeb k x).acqs = d.acqs := rfl
@[simp] theorem Dev.setFeb_links (k : Nat) (x : Feb) : (d.setFeb k x).links = d.links := rfl
@[simp] theorem Dev.setFeb_ddcs (k : Nat) (x : Feb) : (d.setFeb k x).ddcs = d.ddcs := rfl
@[simp] theorem Dev.setFeb_awgs (k : Nat) (x : Feb) : (d.setFeb k x).awgs = d.awgs := rfl
@[simp] theorem Dev.setFeb_poison (k : Nat) (x : Feb) : (d.setFeb k x).poison = d.poison := rfl

@[simp] theorem Dev.setAcq_regs (u : Nat) (x : Acq) : (d.setAcq u x).regs = d.regs := rfl
@[simp] theorem Dev.setAcq_taken (u : Nat) (x : Acq) : (d.setAcq u x).taken = d.taken := rfl
@[simp] theorem Dev.setAcq_tick (u : Nat) (x : Acq) : (d.setAcq u x).tick = d.tick := rfl
@[simp] theorem Dev.setAcq_free (u : Nat) (x : Acq) : (d.setAcq u x).free = d.free := rfl
@[simp] theorem Dev.setAcq_time (u : Nat) (x : Acq) : (d.setAcq u x).time = d.time := rfl
@[simp] theorem Dev.setAcq_log (u : Nat) (x : Acq) : (d.setAcq u x).log = d.log := rfl
@[simp] theorem Dev.setAcq_out (u : Nat) (x : Acq) : (d.setAcq u x).out = d.out := rfl
@[simp] theorem Dev.setAcq_engs (u : Nat) (x : Acq) : (d.setAcq u x).engs = d.engs := rfl
@[simp] theorem Dev.setAcq_chans (u : Nat) (x : Acq) : (d.setAcq u x).chans = d.chans := rfl
@[simp] theorem Dev.setAcq_febs (u : Nat) (x : Acq) : (d.setAcq u x).febs = d.febs := rfl
@[simp] theorem Dev.setAcq_fts (u : Nat) (x : Acq) : (d.setAcq u x).fts = d.fts := rfl
@[simp] theorem Dev.setAcq_links (u : Nat) (x : Acq) : (d.setAcq u x).links = d.links := rfl
@[simp] theorem Dev.setAcq_ddcs (u : Nat) (x : Acq) : (d.setAcq u x).ddcs = d.ddcs := rfl
@[simp] theorem Dev.setAcq_awgs (u : Nat) (x : Acq) : (d.setAcq u x).awgs = d.awgs := rfl
@[simp] theorem Dev.setAcq_poison (u : Nat) (x : Acq) : (d.setAcq u x).poison = d.poison := rfl

@[simp] theorem Dev.setLink_regs (r : Nat) (x : Link) : (d.setLink r x).regs = d.regs := rfl
@[simp] theorem Dev.setLink_taken (r : Nat) (x : Link) : (d.setLink r x).taken = d.taken := rfl
@[simp] theorem Dev.setLink_tick (r : Nat) (x : Link) : (d.setLink r x).tick = d.tick := rfl
@[simp] theorem Dev.setLink_free (r : Nat) (x : Link) : (d.setLink r x).free = d.free := rfl
@[simp] theorem Dev.setLink_time (r : Nat) (x : Link) : (d.setLink r x).time = d.time := rfl
@[simp] theorem Dev.setLink_log (r : Nat) (x : Link) : (d.setLink r x).log = d.log := rfl
@[simp] theorem Dev.setLink_out (r : Nat) (x : Link) : (d.setLink r x).out = d.out := rfl
@[simp] theorem Dev.setLink_engs (r : Nat) (x : Link) : (d.setLink r x).engs = d.engs := rfl
@[simp] theorem Dev.setLink_chans (r : Nat) (x : Link) : (d.setLink r x).chans = d.chans := rfl
@[simp] theorem Dev.setLink_febs (r : Nat) (x : Link) : (d.setLink r x).febs = d.febs := rfl
@[simp] theorem Dev.setLink_fts (r : Nat) (x : Link) : (d.setLink r x).fts = d.fts := rfl
@[simp] theorem Dev.setLink_acqs (r : Nat) (x : Link) : (d.setLink r x).acqs = d.acqs := rfl
@[simp] theorem Dev.setLink_ddcs (r : Nat) (x : Link) : (d.setLink r x).ddcs = d.ddcs := rfl
@[simp] theorem Dev.setLink_awgs (r : Nat) (x : Link) : (d.setLink r x).awgs = d.awgs := rfl
@[simp] theorem Dev.setLink_poison (r : Nat) (x : Link) : (d.setLink r x).poison = d.poison := rfl

@[simp] theorem Dev.setDdc_regs (u : Nat) (x : Ddc) : (d.setDdc u x).regs = d.regs := rfl
@[simp] theorem Dev.setDdc_taken (u : Nat) (x : Ddc) : (d.setDdc u x).taken = d.taken := rfl
@[simp] theorem Dev.setDdc_tick (u : Nat) (x : Ddc) : (d.setDdc u x).tick = d.tick := rfl
@[simp] theorem Dev.setDdc_free (u : Nat) (x : Ddc) : (d.setDdc u x).free = d.free := rfl
@[simp] theorem Dev.setDdc_time (u : Nat) (x : Ddc) : (d.setDdc u x).time = d.time := rfl
@[simp] theorem Dev.setDdc_log (u : Nat) (x : Ddc) : (d.setDdc u x).log = d.log := rfl
@[simp] theorem Dev.setDdc_out (u : Nat) (x : Ddc) : (d.setDdc u x).out = d.out := rfl
@[simp] theorem Dev.setDdc_engs (u : Nat) (x : Ddc) : (d.setDdc u x).engs = d.engs := rfl
@[simp] theorem Dev.setDdc_chans (u : Nat) (x : Ddc) : (d.setDdc u x).chans = d.chans := rfl
@[simp] theorem Dev.setDdc_febs (u : Nat) (x : Ddc) : (d.setDdc u x).febs = d.febs := rfl
@[simp] theorem Dev.setDdc_fts (u : Nat) (x : Ddc) : (d.setDdc u x).fts = d.fts := rfl
@[simp] theorem Dev.setDdc_acqs (u : Nat) (x : Ddc) : (d.setDdc u x).acqs = d.acqs := rfl
@[simp] theorem Dev.setDdc_links (u : Nat) (x : Ddc) : (d.setDdc u x).links = d.links := rfl
@[simp] theorem Dev.setDdc_awgs (u : Nat) (x : Ddc) : (d.setDdc u x).awgs = d.awgs := rfl
@[simp] theorem Dev.setDdc_poison (u : Nat) (x : Ddc) : (d.setDdc u x).poison = d.poison := rfl

@[simp] theorem Dev.setAwg_regs (g : Nat) (x : Awg) : (d.setAwg g x).regs = d.regs := rfl
@[simp] theorem Dev.setAwg_taken (g : Nat) (x : Awg) : (d.setAwg g x).taken = d.taken := rfl
@[simp] theorem Dev.setAwg_tick (g : Nat) (x : Awg) : (d.setAwg g x).tick = d.tick := rfl
@[simp] theorem Dev.setAwg_free (g : Nat) (x : Awg) : (d.setAwg g x).free = d.free := rfl
@[simp] theorem Dev.setAwg_time (g : Nat) (x : Awg) : (d.setAwg g x).time = d.time := rfl
@[simp] theorem Dev.setAwg_log (g : Nat) (x : Awg) : (d.setAwg g x).log = d.log := rfl
@[simp] theorem Dev.setAwg_out (g : Nat) (x : Awg) : (d.setAwg g x).out = d.out := rfl
@[simp] theorem Dev.setAwg_engs (g : Nat) (x : Awg) : (d.setAwg g x).engs = d.engs := rfl
@[simp] theorem Dev.setAwg_chans (g : Nat) (x : Awg) : (d.setAwg g x).chans = d.chans := rfl
@[simp] theorem Dev.setAwg_febs (g : Nat) (x : Awg) : (d.setAwg g x).febs = d.febs := rfl
@[simp] theorem Dev.setAwg_fts (g : Nat) (x : Awg) : (d.setAwg g x).fts = d.fts := rfl
@[simp] theorem Dev.setAwg_acqs (g : Nat) (x : Awg) : (d.setAwg g x).acqs = d.acqs := rfl
@[simp] theorem Dev.setAwg_links (g : Nat) (x : Awg) : (d.setAwg g x).links = d.links := rfl
@[simp] theorem Dev.setAwg_ddcs (g : Nat) (x : Awg) : (d.setAwg g x).ddcs = d.ddcs := rfl
@[simp] theorem Dev.setAwg_poison (g : Nat) (x : Awg) : (d.setAwg g x).poison = d.poison := rfl

@[simp] theorem Dev.setFt_regs (f : Nat) (x : Ft) : (d.setFt f x).regs = d.regs := rfl
@[simp] theorem Dev.setFt_taken (f : Nat) (x : Ft) : (d.setFt f x).taken = d.taken := rfl
@[simp] theorem Dev.setFt_tick (f : Nat) (x : Ft) : (d.setFt f x).tick = d.tick := rfl
@[simp] theorem Dev.setFt_free (f : Nat) (x : Ft) : (d.setFt f x).free = d.free := rfl
@[simp] theorem Dev.setFt_time (f : Nat) (x : Ft) : (d.setFt f x).time = d.time := rfl
@[simp] theorem Dev.setFt_log (f : Nat) (x : Ft) : (d.setFt f x).log = d.log := rfl
@[simp] theorem Dev.setFt_out (f : Nat) (x : Ft) : (d.setFt f x).out = d.out := rfl
@[simp] theorem Dev.setFt_engs (f : Nat) (x : Ft) : (d.setFt f x).engs = d.engs := rfl
@[simp] theorem Dev.setFt_chans (f : Nat) (x : Ft) : (d.setFt f x).chans = d.chans := rfl
@[simp] theorem Dev.setFt_febs (f : Nat) (x : Ft) : (d.setFt f x).febs = d.febs := rfl
@[simp] theorem Dev.setFt_acqs (f : Nat) (x : Ft) : (d.setFt f x).acqs = d.acqs := rfl
@[simp] theorem Dev.setFt_links (f : Nat) (x : Ft) : (d.setFt f x).links = d.links := rfl
@[simp] theorem Dev.setFt_ddcs (f : Nat) (x : Ft) : (d.setFt f x).ddcs = d.ddcs := rfl
@[simp] theorem Dev.setFt_awgs (f : Nat) (x : Ft) : (d.setFt f x).awgs = d.awgs := rfl
@[simp] theorem Dev.setFt_poison (f : Nat) (x : Ft) : (d.setFt f x).poison = d.poison := rfl

@[simp] theorem Dev.emit_regs (o : Out) : (d.emit o).regs = d.regs := rfl
@[simp] theorem Dev.emit_taken (o : Out) : (d.emit o).taken = d.taken := rfl
@[simp] theorem Dev.emit_tick (o : Out) : (d.emit o).tick = d.tick := rfl
@[simp] theorem Dev.emit_free (o : Out) : (d.emit o).free = d.free := rfl
@[simp] theorem Dev.emit_time (o : Out) : (d.emit o).time = d.time := rfl
@[simp] theorem Dev.emit_log (o : Out) : (d.emit o).log = d.log := rfl
@[simp] theorem Dev.emit_engs (o : Out) : (d.emit o).engs = d.engs := rfl
@[simp] theorem Dev.emit_chans (o : Out) : (d.emit o).chans = d.chans := rfl
@[simp] theorem Dev.emit_febs (o : Out) : (d.emit o).febs = d.febs := rfl
@[simp] theorem Dev.emit_fts (o : Out) : (d.emit o).fts = d.fts := rfl
@[simp] theorem Dev.emit_acqs (o : Out) : (d.emit o).acqs = d.acqs := rfl
@[simp] theorem Dev.emit_links (o : Out) : (d.emit o).links = d.links := rfl
@[simp] theorem Dev.emit_ddcs (o : Out) : (d.emit o).ddcs = d.ddcs := rfl
@[simp] theorem Dev.emit_awgs (o : Out) : (d.emit o).awgs = d.awgs := rfl
@[simp] theorem Dev.emit_poison (o : Out) : (d.emit o).poison = d.poison := rfl

@[simp] theorem Dev.setEng_key (e : Nat) (x : Eng) (j : RegKey) : (d.setEng e x).key j = d.key j := rfl
@[simp] theorem Dev.setChan_key (c : Nat) (x : Chan) (j : RegKey) : (d.setChan c x).key j = d.key j := rfl
@[simp] theorem Dev.setFeb_key (k : Nat) (x : Feb) (j : RegKey) : (d.setFeb k x).key j = d.key j := rfl
@[simp] theorem Dev.setAcq_key (u : Nat) (x : Acq) (j : RegKey) : (d.setAcq u x).key j = d.key j := rfl
@[simp] theorem Dev.setLink_key (r : Nat) (x : Link) (j : RegKey) : (d.setLink r x).key j = d.key j := rfl
@[simp] theorem Dev.setDdc_key (u : Nat) (x : Ddc) (j : RegKey) : (d.setDdc u x).key j = d.key j := rfl
@[simp] theorem Dev.setAwg_key (g : Nat) (x : Awg) (j : RegKey) : (d.setAwg g x).key j = d.key j := rfl
@[simp] theorem Dev.setFt_key (f : Nat) (x : Ft) (j : RegKey) : (d.setFt f x).key j = d.key j := rfl
@[simp] theorem Dev.emit_key (o : Out) (j : RegKey) : (d.emit o).key j = d.key j := rfl

@[simp] theorem Dev.setKey_eng (k : RegKey) (v : Nat) (i : Nat) : (d.setKey k v).eng i = d.eng i := rfl
@[simp] theorem Dev.setKey_chan (k : RegKey) (v : Nat) (i : Nat) : (d.setKey k v).chan i = d.chan i := rfl
@[simp] theorem Dev.setKey_feb (k : RegKey) (v : Nat) (i : Nat) : (d.setKey k v).feb i = d.feb i := rfl
@[simp] theorem Dev.setKey_acq (k : RegKey) (v : Nat) (i : Nat) : (d.setKey k v).acq i = d.acq i := rfl
@[simp] theorem Dev.setKey_link (k : RegKey) (v : Nat) (i : Nat) : (d.setKey k v).link i = d.link i := rfl
@[simp] theorem Dev.setKey_ddc (k : RegKey) (v : Nat) (i : Nat) : (d.setKey k v).ddc i = d.ddc i := rfl
@[simp] theorem Dev.setKey_awg (k : RegKey) (v : Nat) (i : Nat) : (d.setKey k v).awg i = d.awg i := rfl
@[simp] theorem Dev.setKey_ft (k : RegKey) (v : Nat) (i : Nat) : (d.setKey k v).ft i = d.ft i := rfl
@[simp] theorem Dev.setEng_chan (e : Nat) (x : Eng) (i : Nat) : (d.setEng e x).chan i = d.chan i := rfl
@[simp] theorem Dev.setEng_feb (e : Nat) (x : Eng) (i : Nat) : (d.setEng e x).feb i = d.feb i := rfl
@[simp] theorem Dev.setEng_acq (e : Nat) (x : Eng) (i : Nat) : (d.setEng e x).acq i = d.acq i := rfl
@[simp] theorem Dev.setEng_link (e : Nat) (x : Eng) (i : Nat) : (d.setEng e x).link i = d.link i := rfl
@[simp] theorem Dev.setEng_ddc (e : Nat) (x : Eng) (i : Nat) : (d.setEng e x).ddc i = d.ddc i := rfl
@[simp] theorem Dev.setEng_awg (e : Nat) (x : Eng) (i : Nat) : (d.setEng e x).awg i = d.awg i := rfl
@[simp] theorem Dev.setEng_ft (e : Nat) (x : Eng) (i : Nat) : (d.setEng e x).ft i = d.ft i := rfl
@[simp] theorem Dev.setChan_eng (c : Nat) (x : Chan) (i : Nat) : (d.setChan c x).eng i = d.eng i := rfl
@[simp] theorem Dev.setChan_feb (c : Nat) (x : Chan) (i : Nat) : (d.setChan c x).feb i = d.feb i := rfl
@[simp] theorem Dev.setChan_acq (c : Nat) (x : Chan) (i : Nat) : (d.setChan c x).acq i = d.acq i := rfl
@[simp] theorem Dev.setChan_link (c : Nat) (x : Chan) (i : Nat) : (d.setChan c x).link i = d.link i := rfl
@[simp] theorem Dev.setChan_ddc (c : Nat) (x : Chan) (i : Nat) : (d.setChan c x).ddc i = d.ddc i := rfl
@[simp] theorem Dev.setChan_awg (c : Nat) (x : Chan) (i : Nat) : (d.setChan c x).awg i = d.awg i := rfl
@[simp] theorem Dev.setChan_ft (c : Nat) (x : Chan) (i : Nat) : (d.setChan c x).ft i = d.ft i := rfl
@[simp] theorem Dev.setFeb_eng (k : Nat) (x : Feb) (i : Nat) : (d.setFeb k x).eng i = d.eng i := rfl
@[simp] theorem Dev.setFeb_chan (k : Nat) (x : Feb) (i : Nat) : (d.setFeb k x).chan i = d.chan i := rfl
@[simp] theorem Dev.setFeb_acq (k : Nat) (x : Feb) (i : Nat) : (d.setFeb k x).acq i = d.acq i := rfl
@[simp] theorem Dev.setFeb_link (k : Nat) (x : Feb) (i : Nat) : (d.setFeb k x).link i = d.link i := rfl
@[simp] theorem Dev.setFeb_ddc (k : Nat) (x : Feb) (i : Nat) : (d.setFeb k x).ddc i = d.ddc i := rfl
@[simp] theorem Dev.setFeb_awg (k : Nat) (x : Feb) (i : Nat) : (d.setFeb k x).awg i = d.awg i := rfl
@[simp] theorem Dev.setFeb_ft (k : Nat) (x : Feb) (i : Nat) : (d.setFeb k x).ft i = d.ft i := rfl
@[simp] theorem Dev.setAcq_eng (u : Nat) (x : Acq) (i : Nat) : (d.setAcq u x).eng i = d.eng i := rfl
@[simp] theorem Dev.setAcq_chan (u : Nat) (x : Acq) (i : Nat) : (d.setAcq u x).chan i = d.chan i := rfl
@[simp] theorem Dev.setAcq_feb (u : Nat) (x : Acq) (i : Nat) : (d.setAcq u x).feb i = d.feb i := rfl
@[simp] theorem Dev.setAcq_link (u : Nat) (x : Acq) (i : Nat) : (d.setAcq u x).link i = d.link i := rfl
@[simp] theorem Dev.setAcq_ddc (u : Nat) (x : Acq) (i : Nat) : (d.setAcq u x).ddc i = d.ddc i := rfl
@[simp] theorem Dev.setAcq_awg (u : Nat) (x : Acq) (i : Nat) : (d.setAcq u x).awg i = d.awg i := rfl
@[simp] theorem Dev.setAcq_ft (u : Nat) (x : Acq) (i : Nat) : (d.setAcq u x).ft i = d.ft i := rfl
@[simp] theorem Dev.setLink_eng (r : Nat) (x : Link) (i : Nat) : (d.setLink r x).eng i = d.eng i := rfl
@[simp] theorem Dev.setLink_chan (r : Nat) (x : Link) (i : Nat) : (d.setLink r x).chan i = d.chan i := rfl
@[simp] theorem Dev.setLink_feb (r : Nat) (x : Link) (i : Nat) : (d.setLink r x).feb i = d.feb i := rfl
@[simp] theorem Dev.setLink_acq (r : Nat) (x : Link) (i : Nat) : (d.setLink r x).acq i = d.acq i := rfl
@[simp] theorem Dev.setLink_ddc (r : Nat) (x : Link) (i : Nat) : (d.setLink r x).ddc i = d.ddc i := rfl
@[simp] theorem Dev.setLink_awg (r : Nat) (x : Link) (i : Nat) : (d.setLink r x).awg i = d.awg i := rfl
@[simp] theorem Dev.setLink_ft (r : Nat) (x : Link) (i : Nat) : (d.setLink r x).ft i = d.ft i := rfl
@[simp] theorem Dev.setDdc_eng (u : Nat) (x : Ddc) (i : Nat) : (d.setDdc u x).eng i = d.eng i := rfl
@[simp] theorem Dev.setDdc_chan (u : Nat) (x : Ddc) (i : Nat) : (d.setDdc u x).chan i = d.chan i := rfl
@[simp] theorem Dev.setDdc_feb (u : Nat) (x : Ddc) (i : Nat) : (d.setDdc u x).feb i = d.feb i := rfl
@[simp] theorem Dev.setDdc_acq (u : Nat) (x : Ddc) (i : Nat) : (d.setDdc u x).acq i = d.acq i := rfl
@[simp] theorem Dev.setDdc_link (u : Nat) (x : Ddc) (i : Nat) : (d.setDdc u x).link i = d.link i := rfl
@[simp] theorem Dev.setDdc_awg (u : Nat) (x : Ddc) (i : Nat) : (d.setDdc u x).awg i = d.awg i := rfl
@[simp] theorem Dev.setDdc_ft (u : Nat) (x : Ddc) (i : Nat) : (d.setDdc u x).ft i = d.ft i := rfl
@[simp] theorem Dev.setAwg_eng (g : Nat) (x : Awg) (i : Nat) : (d.setAwg g x).eng i = d.eng i := rfl
@[simp] theorem Dev.setAwg_chan (g : Nat) (x : Awg) (i : Nat) : (d.setAwg g x).chan i = d.chan i := rfl
@[simp] theorem Dev.setAwg_feb (g : Nat) (x : Awg) (i : Nat) : (d.setAwg g x).feb i = d.feb i := rfl
@[simp] theorem Dev.setAwg_acq (g : Nat) (x : Awg) (i : Nat) : (d.setAwg g x).acq i = d.acq i := rfl
@[simp] theorem Dev.setAwg_link (g : Nat) (x : Awg) (i : Nat) : (d.setAwg g x).link i = d.link i := rfl
@[simp] theorem Dev.setAwg_ddc (g : Nat) (x : Awg) (i : Nat) : (d.setAwg g x).ddc i = d.ddc i := rfl
@[simp] theorem Dev.setAwg_ft (g : Nat) (x : Awg) (i : Nat) : (d.setAwg g x).ft i = d.ft i := rfl
@[simp] theorem Dev.setFt_eng (f : Nat) (x : Ft) (i : Nat) : (d.setFt f x).eng i = d.eng i := rfl
@[simp] theorem Dev.setFt_chan (f : Nat) (x : Ft) (i : Nat) : (d.setFt f x).chan i = d.chan i := rfl
@[simp] theorem Dev.setFt_feb (f : Nat) (x : Ft) (i : Nat) : (d.setFt f x).feb i = d.feb i := rfl
@[simp] theorem Dev.setFt_acq (f : Nat) (x : Ft) (i : Nat) : (d.setFt f x).acq i = d.acq i := rfl
@[simp] theorem Dev.setFt_link (f : Nat) (x : Ft) (i : Nat) : (d.setFt f x).link i = d.link i := rfl
@[simp] theorem Dev.setFt_ddc (f : Nat) (x : Ft) (i : Nat) : (d.setFt f x).ddc i = d.ddc i := rfl
@[simp] theorem Dev.setFt_awg (f : Nat) (x : Ft) (i : Nat) : (d.setFt f x).awg i = d.awg i := rfl
@[simp] theorem Dev.emit_eng (o : Out) (i : Nat) : (d.emit o).eng i = d.eng i := rfl
@[simp] theorem Dev.emit_chan (o : Out) (i : Nat) : (d.emit o).chan i = d.chan i := rfl
@[simp] theorem Dev.emit_feb (o : Out) (i : Nat) : (d.emit o).feb i = d.feb i := rfl
@[simp] theorem Dev.emit_acq (o : Out) (i : Nat) : (d.emit o).acq i = d.acq i := rfl
@[simp] theorem Dev.emit_link (o : Out) (i : Nat) : (d.emit o).link i = d.link i := rfl
@[simp] theorem Dev.emit_ddc (o : Out) (i : Nat) : (d.emit o).ddc i = d.ddc i := rfl
@[simp] theorem Dev.emit_awg (o : Out) (i : Nat) : (d.emit o).awg i = d.awg i := rfl
@[simp] theorem Dev.emit_ft (o : Out) (i : Nat) : (d.emit o).ft i = d.ft i := rfl

/-! ## The state around the block -/

variable (s : State) (g : Dev → Dev)

@[simp] theorem State.onDev_mem : (s.onDev g).mem = s.mem := rfl
@[simp] theorem State.onDev_pending : (s.onDev g).pending = s.pending := rfl
@[simp] theorem State.onDev_dev : (s.onDev g).dev = g s.dev := rfl

end Sys2Proof.Machine
end

