-- ==== Sys2Proof/Laws/Report.lean ====
section
/-!
SUPPORT. What interrupts, event-log entries, error reports and reads of stored words leave alone.
-/

namespace Sys2Proof.Machine

/-- The register fields that an interrupt cause, a log entry, an error report or a read of a stored word may change. -/
def reportFields : List Field :=
  [.HOST_IRQ_STAT_PEND, .HOST_LOG_STAT_OVF, .DRC_CECNT_COUNT, .DRC_CESYM_COUNT, .DRC_STAT_SUSPECT, .DRC_DUPMIS_COUNT,
    .DRC_UECNT_COUNT]

/-- Everything but the fields of `reportFields`, the log, the messages sent and the marks of stored words is as before. -/
structure Reports (d t : Dev) : Prop where
  key  : ∀ j : RegKey, j.f ∉ reportFields → t.key j = d.key j
  engs : t.engs = d.engs
  tick : t.tick = d.tick
  time : t.time = d.time
  chans : t.chans = d.chans
  taken : t.taken = d.taken
  far : t.far = d.far

variable {d d' t : Dev}

theorem Reports.refl (d : Dev) : Reports d d := ⟨fun _ _ => rfl, rfl, rfl, rfl, rfl, rfl, rfl⟩

theorem Reports.trans (h : Reports d d') (h' : Reports d' t) : Reports d t :=
  ⟨fun j hj => (h'.key j hj).trans (h.key j hj), h'.engs.trans h.engs, h'.tick.trans h.tick, h'.time.trans h.time,
    h'.chans.trans h.chans, h'.taken.trans h.taken, h'.far.trans h.far⟩

theorem Dev.setKey_reports (d : Dev) (k : RegKey) (v : Nat) (h : k.f ∈ reportFields) : Reports d (d.setKey k v) :=
  ⟨fun _ hj => Dev.key_setKey_ne d v (fun e => hj (e ▸ h)), rfl, rfl, rfl, rfl, rfl, rfl⟩

theorem Dev.send_reports (d : Dev) (v : Nat) : Reports d (d.send v) := by
  unfold Dev.send
  split <;> exact ⟨fun _ _ => rfl, rfl, rfl, rfl, rfl, rfl, rfl⟩

theorem Dev.irq_reports (d : Dev) (v : Nat) : Reports d (d.irq v) := by
  unfold Dev.irq
  dsimp only
  split
  · exact Reports.refl d
  · exact (Dev.setKey_reports d _ _ (show Field.HOST_IRQ_STAT_PEND ∈ reportFields by decide)).trans (Dev.send_reports _ _)

theorem Dev.logStamped_reports (d : Dev) (st b k u p : Nat) : Reports d (d.logStamped st b k u p) := by
  have hl : ∀ l, Reports d { d with log := l } := fun _ => ⟨fun _ _ => rfl, rfl, rfl, rfl, rfl, rfl, rfl⟩
  have ho : ∀ x : Dev, Reports x (x.st .HOST_LOG_STAT_OVF 0 1) := fun x =>
    Dev.setKey_reports x _ _ (show Field.HOST_LOG_STAT_OVF ∈ reportFields by decide)
  unfold Dev.logStamped
  dsimp only
  repeat' split
  · exact (hl _).trans (Dev.irq_reports _ _)
  · exact hl _
  · exact (hl _).trans (ho _)
  · exact ((hl _).trans (ho _)).trans (Dev.irq_reports _ _)

theorem Dev.logEv_reports (d : Dev) (b k u p : Nat) : Reports d (d.logEv b k u p) := Dev.logStamped_reports ..

theorem Reports.foldl {α : Type} (g : Dev → α → Dev) (hg : ∀ d a, Reports d (g d a)) : ∀ (l : List α) (d : Dev),
    Reports d (l.foldl g d)
  | [], d => Reports.refl d
  | a :: l, d => (hg d a).trans (Reports.foldl g hg l (g d a))

theorem Dev.report_reports (d : Dev) (k : ErrKind) (a cons : Nat) (syms : List Nat) : Reports d (d.report k a cons syms) := by
  have hs : ∀ (x : Dev) (f : Field) (u i v : Nat), f ∈ reportFields → Reports x (x.sti f u i v) :=
    fun x f u i v h => Dev.setKey_reports x _ _ h
  have ht : ∀ (x : Dev) l, Reports x { x with telCe := l } := fun _ _ => ⟨fun _ _ => rfl, rfl, rfl, rfl, rfl, rfl, rfl⟩
  unfold Dev.report
  dsimp only
  have h0 := Dev.logEv_reports d (d.place a).1 k.code (d.place a).2.1
    ((d.place a).2.2 % 2 ^ 38 + symMask syms * 2 ^ 38 + cons * 2 ^ 74)
  refine h0.trans ?_
  split
  · split
    · refine ((hs _ .DRC_CECNT_COUNT _ _ _ (by decide)).trans (ht _ _)).trans (Reports.foldl _ (fun x a => ?_) _ _)
      generalize 36 * _ + a = i
      split
      · exact (((hs _ .DRC_CESYM_COUNT _ _ _ (by decide)).trans (hs _ .DRC_STAT_SUSPECT _ _ _ (by decide))).trans
          (Dev.irq_reports _ _)).trans (Dev.logEv_reports _ _ _ _ _)
      · exact hs _ .DRC_CESYM_COUNT _ _ _ (by decide)
    · exact hs _ .DRC_DUPMIS_COUNT _ _ _ (by decide)
    · exact hs _ .DRC_UECNT_COUNT _ _ _ (by decide)
  · exact Reports.refl _

theorem Dev.wroteBack_reports (d : Dev) (w : Nat) : Reports d (d.wroteBack w) := by
  unfold Dev.wroteBack
  split
  · exact Reports.refl d
  · exact ⟨fun _ _ => rfl, rfl, rfl, rfl, rfl, rfl, rfl⟩

theorem Dev.readWord_reports (d : Dev) (m : List Host.Cell) (cons a : Nat) : Reports d (d.readWord m cons a).2 := by
  have hp : ∀ p q, Reports d { d with poison := p, errs := q } := fun _ _ => ⟨fun _ _ => rfl, rfl, rfl, rfl, rfl, rfl, rfl⟩
  unfold Dev.readWord
  dsimp only
  split
  · exact Reports.refl d
  · exact (Dev.wroteBack_reports d _).trans (Dev.report_reports ..)
  · split
    · exact Reports.refl d
    · exact Dev.report_reports ..
  · exact (hp (a / 16 * 16 :: d.poison) (d.errs.del (a / 16 * 16))).trans (Dev.report_reports _ .ue _ cons [])
  · exact Dev.report_reports ..

theorem Dev.readWords_reports (m : List Host.Cell) (cons : Nat) : ∀ (n : Nat) (d : Dev) (a : Nat),
    Reports d (d.readWords m cons a n).2.2
  | 0, d, _ => Reports.refl d
  | n + 1, d, a => (Dev.readWord_reports d m cons a).trans (Dev.readWords_reports m cons n _ (a + 16))

/-- Reading stored bytes changes nothing but what an error report changes. -/
theorem Dev.readBytes_reports (d : Dev) (m : List Host.Cell) (cons a n : Nat) : Reports d (d.readBytes m cons a n).2.2 :=
  Dev.readWords_reports ..

theorem Reports.rg (h : Reports d t) (f : Field) (u : Nat) (hf : f ∉ reportFields) : t.rg f u = d.rg f u := h.key ⟨f, u, 0⟩ hf

theorem Reports.eng (h : Reports d t) (e : Nat) : t.eng e = d.eng e := by rw [Dev.eng, h.engs]; rfl

end Sys2Proof.Machine
end

