-- ==== Sys2Proof/Laws/Issue.lean ====
section
/-!
SUPPORT. An instruction that issues acts by its body on the block at its issue; what its words after that leave alone.
-/

namespace Sys2Proof.Machine

@[simp] theorem Dev.modEng_key (d : Dev) (e : Nat) (g : Eng → Eng) (j : RegKey) : (d.modEng e g).key j = d.key j := rfl
@[simp] theorem Dev.modEng_rg (d : Dev) (e : Nat) (g : Eng → Eng) (f : Field) (u : Nat) : (d.modEng e g).rg f u = d.rg f u :=
  rfl
@[simp] theorem Dev.modEng_eng_self (d : Dev) (e : Nat) (g : Eng → Eng) : (d.modEng e g).eng e = g (d.eng e) := by
  simp [Dev.modEng]

/-! ## Words that change only where the engine stands -/

/-- Of the block, only where engine `e` stands has changed: its next issue cycle, its place in the microcode, its
recovery and whether an instruction is to be resumed. -/
structure Settles (e : Nat) (d t : Dev) : Prop where
  rest   : t = { d with engs := t.engs }
  self   : ∃ a b c f g h i, t.eng e =
    { d.eng e with free := a, ceTo := b, atPoint := c, upc := f, uctr := g, resumed := h, recov := i }
  others : ∀ j, j ≠ e → t.eng j = d.eng j

variable {e : Nat} {d d' t : Dev}

theorem Settles.refl (d : Dev) : Settles e d d := ⟨rfl, ⟨_, _, _, _, _, _, _, rfl⟩, fun _ _ => rfl⟩

theorem Settles.trans (h : Settles e d d') (h' : Settles e d' t) : Settles e d t := by
  refine ⟨?_, ?_, fun j hj => (h'.others j hj).trans (h.others j hj)⟩
  · conv_lhs => rw [h'.rest, h.rest]
  · obtain ⟨_, _, _, _, _, _, _, h1⟩ := h.self
    obtain ⟨_, _, _, _, _, _, _, h2⟩ := h'.self
    rw [h2, h1]
    exact ⟨_, _, _, _, _, _, _, rfl⟩

theorem Settles.key (h : Settles e d t) (j : RegKey) : t.key j = d.key j := by rw [h.rest]; rfl

theorem Settles.rg (h : Settles e d t) (f : Field) (u : Nat) : t.rg f u = d.rg f u := h.key _

theorem Settles.tick (h : Settles e d t) : t.tick = d.tick := by rw [h.rest]

/-- What does not look at where the engine stands is as before. -/
theorem Settles.proj {α : Type} (h : Settles e d t) (p : Eng → α)
    (hp : ∀ (x : Eng) a b c f g k i,
      p { x with free := a, ceTo := b, atPoint := c, upc := f, uctr := g, resumed := k, recov := i } = p x) :
    p (t.eng e) = p (d.eng e) := by
  obtain ⟨_, _, _, _, _, _, _, h⟩ := h.self
  rw [h, hp]

theorem Settles.clean (h : Settles e d t) (c : d.storeClean e) : t.storeClean e :=
  ⟨(h.proj (·.storeErr) (fun _ _ _ _ _ _ _ _ => rfl)).trans c.1, (h.rg _ _).trans c.2⟩

theorem Dev.setEng_settles {x : Eng} (h : ∃ a b c f g k i, x =
    { d.eng e with free := a, ceTo := b, atPoint := c, upc := f, uctr := g, resumed := k, recov := i }) :
    Settles e d (d.setEng e x) :=
  ⟨rfl, by rw [Dev.eng_setEng_self]; exact h, fun _ hj => Dev.eng_setEng_ne d _ (fun q => hj q.symm)⟩

theorem Dev.modEng_settles {g : Eng → Eng} (h : ∀ x, ∃ a b c f n k i, g x =
    { x with free := a, ceTo := b, atPoint := c, upc := f, uctr := n, resumed := k, recov := i }) :
    Settles e d (d.modEng e g) := Dev.setEng_settles (h _)

theorem Dev.point_settles (d : Dev) (e : Nat) : Settles e d (d.point e) :=
  Dev.modEng_settles (fun _ => ⟨_, _, _, _, _, _, _, rfl⟩)

theorem Dev.microNext_settles (d : Dev) (e w : Nat) : Settles e d (d.microNext e w) := by
  unfold Dev.microNext
  dsimp only
  have h : Settles e d (d.setEng e { d.eng e with uctr := if uCtrDec (Config.rom (d.eng e).upc) then (d.eng e).uctr - 1 else
      (d.eng e).uctr }) := Dev.setEng_settles ⟨_, _, _, _, _, _, _, rfl⟩
  exact h.trans (Dev.modEng_settles (fun _ => ⟨_, _, _, _, _, _, _, rfl⟩))

theorem Dev.listKind_clean (h : d.storeClean e) (w : Nat × Nat) : d.listKind e w = none := by
  simp [Dev.listKind, Dev.listAt, h.2]

theorem Eng.wrongBits_nil {x : Eng} (h : x.storeErr = []) (s a : Nat) : x.wrongBits s a = [] := by simp [Eng.wrongBits, h]

theorem parityFails_nil (s : Nat) : parityFails s [] = false := by simp [parityFails]

theorem Dev.careRead_clean (h : d.storeClean e) (w : Nat × Nat) : d.careRead e false w = (false, none, d) := by
  simp [Dev.careRead, Eng.wrongBits_nil h.1, judge]

theorem Dev.careWord_clean (h : d.storeClean e) (w : Nat) (a b : Nat × Nat) :
    (d.careWord e w [] [a, b]).1 = true ∧ Settles e d (d.careWord e w [] [a, b]).2 := by
  have hm : ∀ (x : Dev) (i j k l m : Nat), x.mcRecords e [] i j k l m = x := fun _ _ _ _ _ _ => rfl
  unfold Dev.careWord
  simp only [List.foldl_cons, List.foldl_nil, List.contains_nil, Dev.careRead_clean h, Bool.or_false, Option.toList_none,
    List.append_nil, Bool.false_eq_true, if_false, hm, ite_self, true_and]
  exact (Dev.modEng_settles (fun _ => ⟨_, _, _, _, _, _, _, rfl⟩)).trans (Dev.microNext_settles ..)

/-- With a clean control store a microword executes. -/
theorem Dev.micro_clean (h : d.storeClean e) (w n : Nat) : (d.micro e w n).1 = true ∧ Settles e d (d.micro e w n).2 := by
  unfold Dev.micro
  simp only [Dev.listKind_clean h, Eng.wrongBits_nil h.1, parityFails_nil, List.filter_cons, List.filter_nil]
  simp only [Bool.false_eq_true, if_false, List.isEmpty_nil, Bool.not_true, List.any_cons, List.any_nil, Bool.or_false, ite_self,
    show ((none : Option Nat) == some 1) = false from rfl, show ((none : Option Nat) == some 0) = false from rfl]
  split
  · exact Dev.careWord_clean h ..
  · exact ⟨rfl, (Dev.setEng_settles ⟨_, _, _, _, _, _, _, rfl⟩).trans (Dev.microNext_settles ..)⟩

theorem Dev.micros_clean (w : Nat) : ∀ (n k : Nat) {d : Dev}, d.storeClean e →
    (d.micros e w n k).1 = true ∧ Settles e d (d.micros e w n k).2
  | _, 0, d, _ => ⟨rfl, Settles.refl d⟩
  | n, k + 1, d, h => by
    have h1 := Dev.micro_clean h w (k + 1 + n)
    have h2 := Dev.micros_clean w n k (h1.2.clean h)
    unfold Dev.micros
    dsimp only
    rw [if_pos h1.1]
    exact ⟨h2.1, h1.2.trans h2.2⟩

theorem Dev.started_settles (d : Dev) (e w : Nat) : Settles e d (d.started e w) := by
  unfold Dev.started
  dsimp only
  have h : Settles e d (d.modEng e (fun x => { x with resumed := x.resumed && (iCls w == 0 && iOp w == 7) })) :=
    Dev.modEng_settles (fun _ => ⟨_, _, _, _, _, _, _, rfl⟩)
  split
  · exact h
  · exact h.trans (Dev.point_settles ..)

/-- The one lemma about `Dev.issue`: what an issuing instruction does is its body, applied to the block at its issue; then
only where the engine stands changes. A body of an instruction with more words leaves a clean store clean. -/
theorem Dev.issue_of_issues {s : State} {e cls op w : Nat} {d : Dev} (body : Body) (h : Issues s e cls op w d)
    (hb : (s.dev.fetch s.mem e).2.startWords e w ≠ 1 → d.storeClean e → (body s.mem d e w).storeClean e) :
    Settles e (body s.mem d e w) (s.dev.issue s.mem e cls op body) := by
  obtain ⟨h, hc, ho, hk⟩ := h
  unfold State.issuing at h
  unfold Dev.issue
  split at h
  · rename_i hi
    rw [hi]
    split at h
    · rename_i w' d' hf
      split at h
      · rename_i d1 hs
        split at h
        · exact absurd h (by simp)
        · rename_i hl
          obtain ⟨rfl, rfl⟩ := Prod.mk.inj (Option.some.inj h)
          have hco : ¬(iCls w' ≠ cls ∨ iOp w' ≠ op) := by simp [hc, ho]
          rw [hf] at hk hb ⊢
          subst hc ho
          simp only [Bool.not_true, Bool.false_eq_true, if_false, hco, hs, hl]
          have hm : ((body s.mem (d1.resumeHeld e w') e w').micros e w'
                (d'.startWords e w' - 1 + b2n (d'.emitsNext e w') + 1 - d'.startWords e w') (d'.startWords e w' - 1)).1 = true ∧
              Settles e (body s.mem (d1.resumeHeld e w') e w') ((body s.mem (d1.resumeHeld e w') e w').micros e w'
                (d'.startWords e w' - 1 + b2n (d'.emitsNext e w') + 1 - d'.startWords e w') (d'.startWords e w' - 1)).2 := by
            by_cases h1 : d'.startWords e w' = 1
            · rw [h1]
              exact ⟨rfl, Settles.refl _⟩
            · exact Dev.micros_clean w' _ _ (hb h1 (hk.resolve_left h1))
          rw [if_pos hm.1]
          exact hm.2.trans (Dev.started_settles ..)
      · exact absurd h (by simp)
    · exact absurd h (by simp)
  · exact absurd h (by simp)

/-! ## The engine at its issue -/

/-- What the words of an issuing instruction leave of its engine, machine checks included: its state and what it holds
beside its registers, but for where it stands. -/
structure Checks (e : Nat) (d t : Dev) : Prop where
  state : t.rg .ENG_STAT_STATE e = d.rg .ENG_STAT_STATE e
  self  : ∃ a b c f g h i, t.eng e =
    { d.eng e with free := a, ceTo := b, atPoint := c, upc := f, uctr := g, resumed := h, recov := i }

theorem Settles.checks (h : Settles e d t) : Checks e d t := ⟨h.rg _ _, h.self⟩

theorem Checks.of_engs (h : t.engs = d.engs) (hs : t.rg .ENG_STAT_STATE e = d.rg .ENG_STAT_STATE e) : Checks e d t :=
  ⟨hs, by rw [show t.eng e = d.eng e by rw [Dev.eng, h]; rfl]; exact ⟨_, _, _, _, _, _, _, rfl⟩⟩

theorem Checks.refl (d : Dev) : Checks e d d := (Settles.refl d).checks

theorem Checks.trans (h : Checks e d d') (h' : Checks e d' t) : Checks e d t := by
  refine ⟨h'.state.trans h.state, ?_⟩
  obtain ⟨_, _, _, _, _, _, _, h1⟩ := h.self
  obtain ⟨_, _, _, _, _, _, _, h2⟩ := h'.self
  rw [h2, h1]
  exact ⟨_, _, _, _, _, _, _, rfl⟩

theorem Checks.proj {α : Type} (h : Checks e d t) (p : Eng → α)
    (hp : ∀ (x : Eng) a b c f g k i,
      p { x with free := a, ceTo := b, atPoint := c, upc := f, uctr := g, resumed := k, recov := i } = p x) :
    p (t.eng e) = p (d.eng e) := by
  obtain ⟨_, _, _, _, _, _, _, h⟩ := h.self
  rw [h, hp]

theorem Reports.checks (h : Reports d t) : Checks e d t := Checks.of_engs h.engs (h.rg _ _ (by decide))

theorem Dev.setKey_checks (d : Dev) (k : RegKey) (v : Nat) (h : k.f ≠ .ENG_STAT_STATE) : Checks e d (d.setKey k v) :=
  Checks.of_engs rfl (Dev.key_setKey_ne d v (fun x => h (by rw [x])))

theorem Dev.listEnter_checks (d : Dev) (u store addr : Nat) (bit : Option Nat) :
    Checks e d (d.listEnter u store addr bit).2 := by
  have hs : ∀ (x : Dev) (f : Field) (u i v : Nat), f ≠ .ENG_STAT_STATE → Checks e x (x.sti f u i v) :=
    fun x f u i v h => Dev.setKey_checks x _ _ h
  have ht : ∀ (x : Dev) (f : Field) (u v : Nat), f ≠ .ENG_STAT_STATE → Checks e x (x.st f u v) :=
    fun x f u v h => Dev.setKey_checks x _ _ h
  unfold Dev.listEnter
  dsimp only
  split
  · split
    · exact (hs _ .ENG_MC_LIST_KIND _ _ _ (by decide)).trans (hs _ .ENG_MC_LIST_BIT _ _ _ (by decide))
    · exact Checks.refl d
  · split
    · exact Checks.refl d
    · exact ((((((hs _ .ENG_MC_LIST_ADDR _ _ _ (by decide)).trans (hs _ .ENG_MC_LIST_STORE _ _ _ (by decide))).trans
        (hs _ .ENG_MC_LIST_VALID _ _ _ (by decide))).trans (hs _ .ENG_MC_LIST_KIND _ _ _ (by decide))).trans
        (hs _ .ENG_MC_LIST_BIT _ _ _ (by decide))).trans (ht _ .ENG_MC_STAT_LISTCNT _ _ (by decide))).trans
        (ht _ .ENG_MC_STAT_LISTFULL _ _ (by decide))

theorem Dev.mcRecord_checks (d : Dev) (u a b c f g h i j k l m : Nat) : Checks e d (d.mcRecord u a b c f g h i j k l m) :=
  ((Dev.setKey_checks d _ _ (show Field.ENG_MC_REC_RECORD ≠ .ENG_STAT_STATE by decide)).trans
    (Dev.logStamped_reports _ _ _ _ _ _).checks).trans (Dev.irq_reports _ _).checks

theorem Dev.mcRecords_checks (u a b c f g : Nat) : ∀ (l : List McRec) (d : Dev), Checks e d (d.mcRecords u l a b c f g)
  | [], d => Checks.refl d
  | _ :: l, d => (Dev.mcRecord_checks d ..).trans (Dev.mcRecords_checks u a b c f g l _)

theorem Dev.careRead_checks (d : Dev) (u : Nat) (b : Bool) (w : Nat × Nat) : Checks e d (d.careRead u b w).2.2 := by
  unfold Dev.careRead
  repeat' split
  all_goals first
    | exact Checks.refl d
    | exact Dev.listEnter_checks ..

/-- A careful read that lets its word execute. -/
theorem Dev.careWord_checks {w : Nat} {failed ws : List (Nat × Nat)} (h : (d.careWord e w failed ws).1 = true) :
    Checks e d (d.careWord e w failed ws).2 := by
  have hf : ∀ (l : List (Nat × Nat)) (a : Bool × List McRec × Dev),
      Checks e a.2.2 (l.foldl (fun (a : Bool × List McRec × Dev) v =>
        let q := a.2.2.careRead e (failed.contains v) v
        (a.1 || q.1, a.2.1 ++ q.2.1.toList, q.2.2)) a).2.2 := by
    intro l
    induction l with
    | nil => exact fun a => Checks.refl _
    | cons v l ih =>
      exact fun a => (Dev.careRead_checks a.2.2 e (failed.contains v) v).trans
        (ih (a.1 || (a.2.2.careRead e (failed.contains v) v).1,
          a.2.1 ++ (a.2.2.careRead e (failed.contains v) v).2.1.toList, (a.2.2.careRead e (failed.contains v) v).2.2))
  unfold Dev.careWord at h ⊢
  dsimp only at h ⊢
  split
  · rename_i hr
    rw [if_pos hr] at h
    exact absurd h (by simp)
  · refine (hf ws (false, [], d)).trans (Checks.trans ?_ ((Dev.modEng_settles fun _ => ⟨_, _, _, _, _, _, _, rfl⟩).checks.trans
      (Dev.microNext_settles ..).checks))
    split
    · exact Checks.refl _
    · exact Dev.mcRecords_checks ..

/-- A Seam message changes registers, engines and the clock nowhere. -/
theorem Dev.seamPost_keeps (d : Dev) (skip : Option Nat) (m : SeamMsg) :
    (d.seamPost skip m).regs = d.regs ∧ (d.seamPost skip m).engs = d.engs ∧ (d.seamPost skip m).tick = d.tick := by
  have hf : ∀ (l : List Nat) (x : Dev), (∀ g : Dev → Nat → Dev, (∀ y p, (g y p).regs = y.regs ∧ (g y p).engs = y.engs ∧
      (g y p).tick = y.tick) → (l.foldl g x).regs = x.regs ∧ (l.foldl g x).engs = x.engs ∧ (l.foldl g x).tick = x.tick) := by
    intro l
    induction l with
    | nil => exact fun _ _ _ => ⟨rfl, rfl, rfl⟩
    | cons p l ih =>
      intro x g hg
      obtain ⟨a, b, c⟩ := ih (g x p) g hg
      obtain ⟨a', b', c'⟩ := hg x p
      exact ⟨a.trans a', b.trans b', c.trans c'⟩
  unfold Dev.seamPost
  refine hf _ _ _ (fun y p => ?_)
  split <;> exact ⟨rfl, rfl, rfl⟩

theorem Dev.tieTell_checks (d : Dev) (u k n : Nat) : Checks e d (d.tieTell u k n) := by
  unfold Dev.tieTell
  dsimp only
  split
  · obtain ⟨h, h', -⟩ := Dev.seamPost_keeps d none (.tieEvt d.pos 0 (d.grp u) (d.beatAt d.tick).1 (d.beatAt d.tick).2 k n)
    exact Checks.of_engs h' (by simp only [Dev.rg, Dev.key, h])
  · exact Checks.refl d

theorem Dev.stallPartners_checks (d : Dev) (e n t : Nat) : Checks e d (d.stallPartners e n t) := by
  unfold Dev.stallPartners
  have hf : ∀ (l : List Nat) (x : Dev), Checks e x (l.foldl (fun d x => if x = e then d else
      d.modEng x (fun y => { y with tieStall := y.tieStall ++ [(t + d.tieLat e * cyc, n)] })) x) := fun l => by
    induction l with
    | nil => exact Checks.refl
    | cons v l ih =>
      intro x
      refine Checks.trans ?_ (ih _)
      dsimp only
      split
      · exact Checks.refl _
      · rename_i hv
        exact ⟨rfl, by rw [Dev.modEng, Dev.eng_setEng_ne _ _ hv]; exact ⟨_, _, _, _, _, _, _, rfl⟩⟩
  split
  · exact Checks.refl d
  · exact (hf _ _).trans (Dev.tieTell_checks ..)

/-- A microword that executes, with or without a machine check. -/
theorem Dev.micro_checks {w n : Nat} (h : (d.micro e w n).1 = true) : Checks e d (d.micro e w n).2 := by
  have hm : ∀ k, Checks e d (d.machineCheck e k) := fun k => by
    unfold Dev.machineCheck
    dsimp only
    refine Checks.trans ?_ (Dev.stallPartners_checks ..)
    refine Checks.trans ?_ (Dev.modEng_settles fun _ => ⟨_, _, _, _, _, _, _, rfl⟩).checks
    exact (Dev.setKey_checks _ _ _ (show Field.ENG_MC_STAT_PCNT ≠ .ENG_STAT_STATE by decide)).trans
      (Dev.setKey_checks _ _ _ (show Field.ENG_MC_STAT_RECOV ≠ .ENG_STAT_STATE by decide))
  revert h
  unfold Dev.micro
  dsimp only
  repeat' split
  all_goals first
    | exact fun h => absurd h Bool.false_ne_true
    | exact fun h => (hm _).trans (Dev.careWord_checks h)
    | exact Dev.careWord_checks
    | exact fun _ => ((Dev.setEng_settles ⟨_, _, _, _, _, _, _, rfl⟩).trans (Dev.microNext_settles ..)).checks

theorem Dev.issueTime_keeps (d : Dev) (e w : Nat) : (d.issueTime e w).rg .ENG_STAT_STATE e = d.rg .ENG_STAT_STATE e ∧
    ((d.issueTime e w).eng e).act = (d.eng e).act ∧ ((d.issueTime e w).eng e).miss = (d.eng e).miss := by
  have ha : ∀ k, (d.advanceTo k).regs = d.regs ∧ (d.advanceTo k).engs = d.engs := fun k => by
    unfold Dev.advanceTo
    split <;> exact ⟨rfl, rfl⟩
  unfold Dev.issueTime
  dsimp only
  rw [Dev.modEng_eng_self, Dev.modEng_rg]
  refine ⟨by simp only [Dev.rg, Dev.key, (ha _).1], ?_, ?_⟩ <;> simp only [Dev.eng, (ha _).2]

/-- Taking up what an interruption kept changes no register but PROG0 to PROG3, and of the engine only this. -/
theorem Dev.resumeHeld_keeps (d : Dev) (e w : Nat) : (∀ j, j.f ≠ .ENG_PROG → (d.resumeHeld e w).key j = d.key j) ∧
    ∃ a b c, (d.resumeHeld e w).eng e = { d.eng e with waitFrom := a, blkBad := b, held := c } := by
  have hp : ∀ (x : Dev) (i v : Nat) (j : RegKey), j.f ≠ .ENG_PROG → (x.setProg e i v).key j = x.key j :=
    fun x i v j hj => Dev.key_setKey_ne x _ (fun q => hj (by rw [← q]))
  have hc : ∀ (x : Dev) (v : Int), (∀ j, j.f ≠ .ENG_PROG → (x.carryWait e w v).key j = x.key j) ∧
      (x.carryWait e w v).eng e = x.eng e := fun x v => by
    unfold Dev.carryWait
    dsimp only
    repeat' split
    all_goals refine ⟨fun j hj => ?_, rfl⟩
    all_goals simp only [hp _ _ _ j hj]
  unfold Dev.resumeHeld
  dsimp only
  repeat' split
  · exact ⟨fun _ _ => rfl, _, _, _, rfl⟩
  · exact ⟨fun _ _ => rfl, _, _, _, Dev.eng_setEng_self ..⟩
  · exact ⟨fun j hj => hp _ _ _ j hj, _, _, _, Dev.eng_setEng_self ..⟩
  · exact ⟨fun j hj => ((hc _ _).1 j hj).trans (hp _ _ _ j hj), _, _, _, (hc _ _).2.trans (Dev.eng_setEng_self ..)⟩
  · exact ⟨fun _ _ => rfl, _, _, _, Dev.eng_setEng_self ..⟩
  · exact ⟨fun j hj => (hc _ _).1 j hj, _, _, _, (hc _ _).2.trans (Dev.eng_setEng_self ..)⟩

/-- An engine that issues is in STARTING or RUNNING, with no instruction under way and no line missing. -/
theorem Issues.running {s : State} {e cls op w : Nat} {d : Dev} (h : Issues s e cls op w d) :
    (d.estate e = 1 ∨ d.estate e = 2) ∧ (d.eng e).act = none ∧ (d.eng e).miss = none := by
  have h := h.1
  unfold State.issuing at h
  split at h
  · rename_i hc
    unfold Dev.canIssue at hc
    simp only [Bool.and_eq_true, Bool.or_eq_true, beq_iff_eq, Option.isNone_iff_eq_none] at hc
    split at h
    · rename_i w' d1 hf
      have h1 : Checks e s.dev d1 := by
        rw [show d1 = (s.dev.fetch s.mem e).2 by rw [hf]]
        exact (Dev.readBytes_reports ..).checks
      split at h
      · rename_i d2 hs
        split at h
        · exact absurd h (by simp)
        · obtain ⟨rfl, rfl⟩ := Prod.mk.inj (Option.some.inj h)
          have h2 : Checks e (d1.issueTime e w') d2 := by
            have := Dev.micro_checks (d := d1.issueTime e w') (e := e) (w := w')
              (n := d1.startWords e w' - 1 + b2n (d1.emitsNext e w') + 1) (by rw [hs])
            rwa [hs] at this
          obtain ⟨hi, hi', hi2⟩ := Dev.issueTime_keeps d1 e w'
          obtain ⟨hr, a, b, c, hr'⟩ := Dev.resumeHeld_keeps d2 e w'
          have hst : (d2.resumeHeld e w').rg .ENG_STAT_STATE e = s.dev.rg .ENG_STAT_STATE e :=
            (hr _ (show Field.ENG_STAT_STATE ≠ .ENG_PROG by decide)).trans (h2.state.trans (hi.trans h1.state))
          refine ⟨?_, ?_, ?_⟩
          · show (d2.resumeHeld e w').rg .ENG_STAT_STATE e = 1 ∨ (d2.resumeHeld e w').rg .ENG_STAT_STATE e = 2
            rw [hst]
            exact hc.1.1.1.1.1.1
          · rw [hr']
            exact (h2.proj (·.act) fun _ _ _ _ _ _ _ _ => rfl).trans
              (hi'.trans ((h1.proj (·.act) fun _ _ _ _ _ _ _ _ => rfl).trans hc.1.1.1.1.1.2))
          · rw [hr']
            exact (h2.proj (·.miss) fun _ _ _ _ _ _ _ _ => rfl).trans
              (hi2.trans ((h1.proj (·.miss) fun _ _ _ _ _ _ _ _ => rfl).trans hc.1.1.1.2))
      · exact absurd h (by simp)
    · exact absurd h (by simp)
  · exact absurd h (by simp)

end Sys2Proof.Machine
end

