-- ==== Sys2Proof/Laws/Engine.lean ====
section
/-!
SUPPORT. What the shared steps of an engine's instructions leave alone, and what they write.
-/

namespace Sys2Proof.Machine

variable (d : Dev) (e : Nat)

theorem Dev.setPc_key (a : Nat) (j : RegKey) :
    (d.setPc e a).key j = if (⟨.ENG_PC_ADDR, e, 0⟩ : RegKey) = j then a % 2 ^ 16 else d.key j := by
  simp only [Dev.setPc, Dev.modEng_key, Dev.key_st]
  rfl

/-- An instruction region changes no register but the program counter. -/
theorem Dev.region_key {j : RegKey} (h : Field.ENG_PC_ADDR ≠ j.f) : (d.region e).key j = d.key j := by
  unfold Dev.region
  repeat' split
  all_goals first
    | rfl
    | (rw [Dev.setPc_key, if_neg (fun e => h (by rw [← e]))]; rfl)

/-- Without a delay region the region step does nothing. -/
theorem Dev.region_none (h : (d.eng e).br = none) : d.region e = d := by
  unfold Dev.region
  rw [h]

/-- Completing an instruction changes no register but the program counter. -/
theorem Dev.finish_key {j : RegKey} (h : Field.ENG_PC_ADDR ≠ j.f) : (d.finish e).key j = d.key j := by
  unfold Dev.finish
  rw [(Dev.point_settles _ _).key, Dev.region_key _ _ h, Dev.setPc_key, if_neg (fun e => h (by rw [← e]))]
  rfl

/-- Completing an instruction outside a delay region moves the program counter to the next address. -/
theorem Dev.finish_pc (h : (d.eng e).br = none) : (d.finish e).rg .ENG_PC_ADDR e = (d.rg .ENG_PC_ADDR e + 1) % 2 ^ 16 := by
  unfold Dev.finish
  rw [(Dev.point_settles _ _).rg, Dev.region_none]
  · simp only [Dev.rg, Dev.setPc_key, if_pos]
    rfl
  · simp only [Dev.setPc, Dev.modEng_eng_self]
    simpa [Dev.st, Dev.modEng] using h

/-- The end of a loop window writes only its register LREM. -/
theorem Dev.endWindow_key {j : RegKey} (h : Field.ENG_BOB_LREM_ACTIVE ≠ j.f) (h' : Field.ENG_BOB_LREM_HELD ≠ j.f)
    (h2 : Field.ENG_BOB_LREM_REM ≠ j.f) : (d.endWindow e).key j = d.key j := by
  unfold Dev.endWindow
  simp [Dev.key_st_ne _ _ _ h, Dev.key_st_ne _ _ _ h', Dev.key_st_ne _ _ _ h2]

@[simp] theorem Dev.release_key (j : RegKey) : (d.release e).key j = d.key j := by
  unfold Dev.release
  split <;> rfl

theorem Dev.rg_st_ne (x : Dev) {f g : Field} (u v j : Nat) (h : f ≠ g) : (x.st f u v).rg g j = x.rg g j :=
  Dev.key_st_ne x (j := ⟨g, j, 0⟩) _ _ h

theorem Dev.finish_rg (x : Dev) (e : Nat) {f : Field} (u : Nat) (h : Field.ENG_PC_ADDR ≠ f) :
    (x.finish e).rg f u = x.rg f u := Dev.finish_key _ _ h

theorem Dev.release_rg (x : Dev) (e : Nat) (f : Field) (u : Nat) : (x.release e).rg f u = x.rg f u := Dev.release_key x e _

theorem Dev.release_br (x : Dev) (e : Nat) : ((x.release e).eng e).br = (x.eng e).br := by
  unfold Dev.release
  split <;> simp [Dev.modEng]

/-- Completing an instruction changes, of what the engine holds beside its registers, only these. -/
theorem Dev.finish_eng (x : Dev) (e : Nat) : ∃ b p r,
    (x.finish e).eng e = { x.eng e with act := none, br := b, pcOver := p, atPoint := true, recov := r } := by
  have hsp : ∀ (y : Dev) (a : Nat), ∃ p, (y.setPc e a).eng e = { y.eng e with pcOver := p } := fun y a => by
    unfold Dev.setPc
    rw [Dev.modEng_eng_self]
    exact ⟨_, rfl⟩
  have hr : ∀ y : Dev, ∃ b p, (y.region e).eng e = { y.eng e with br := b, pcOver := p } := fun y => by
    unfold Dev.region
    split
    · exact ⟨_, _, rfl⟩
    · split
      · split
        · obtain ⟨p, hp⟩ := hsp (y.modEng e (fun x => { x with br := none })) _
          rw [hp, Dev.modEng_eng_self]
          exact ⟨_, _, rfl⟩
        · rw [Dev.modEng_eng_self]; exact ⟨_, _, rfl⟩
      · rw [Dev.modEng_eng_self]; exact ⟨_, _, rfl⟩
  unfold Dev.finish Dev.point
  rw [Dev.modEng_eng_self]
  obtain ⟨b, p, h⟩ := hr ((x.modEng e (fun x => { x with act := none })).setPc e (x.nextPc e))
  obtain ⟨q, hq⟩ := hsp (x.modEng e (fun x => { x with act := none })) (x.nextPc e)
  rw [h, hq, Dev.modEng_eng_self]
  exact ⟨_, _, _, rfl⟩

/-- The rest of what the engine holds stays when an instruction completes. -/
theorem Dev.finish_proj {α : Type} (x : Dev) (e : Nat) (p : Eng → α)
    (hp : ∀ (y : Eng) b o r, p { y with act := none, br := b, pcOver := o, atPoint := true, recov := r } = p y) :
    p ((x.finish e).eng e) = p (x.eng e) := by
  obtain ⟨b, o, r, h⟩ := Dev.finish_eng x e
  rw [h, hp]

theorem Dev.modEng_proj {α : Type} (x : Dev) (e : Nat) (g : Eng → Eng) (p : Eng → α) :
    p ((x.modEng e g).eng e) = p (g (x.eng e)) := by rw [Dev.modEng_eng_self]

theorem Dev.region_tick (x : Dev) (e : Nat) : (x.region e).tick = x.tick := by
  unfold Dev.region
  repeat' split
  all_goals rfl

theorem Dev.finish_tick (x : Dev) (e : Nat) : (x.finish e).tick = x.tick := by
  unfold Dev.finish
  rw [(Dev.point_settles _ _).tick, Dev.region_tick]
  rfl

/-- An instruction complete leaves a clean control store clean. -/
theorem Dev.finish_clean {x : Dev} {e : Nat} (h : x.storeClean e) : (x.finish e).storeClean e :=
  ⟨(Dev.finish_proj x e (·.storeErr) fun _ _ _ _ => rfl).trans h.1,
    (Dev.finish_rg x e e (show Field.ENG_PC_ADDR ≠ .ENG_MC_STAT_LISTCNT by decide)).trans h.2⟩

/-- Moving the clock moves device time with it and nothing else. -/
theorem Dev.advanceTo_keeps (x : Dev) (k : Nat) :
    (x.advanceTo k).regs = x.regs ∧ (x.advanceTo k).engs = x.engs ∧ (x.advanceTo k).tick = max x.tick k := by
  unfold Dev.advanceTo
  split
  · exact ⟨rfl, rfl, by dsimp only; omega⟩
  · exact ⟨rfl, rfl, by omega⟩

theorem Dev.advanceTo_rg (x : Dev) (k : Nat) (f : Field) (u : Nat) : (x.advanceTo k).rg f u = x.rg f u := by
  simp only [Dev.rg, Dev.key, (Dev.advanceTo_keeps x k).1]

theorem Dev.advanceTo_eng (x : Dev) (k u : Nat) : (x.advanceTo k).eng u = x.eng u := by
  simp only [Dev.eng, (Dev.advanceTo_keeps x k).2.1]

end Sys2Proof.Machine
end

