-- ==== Sys2Proof/Laws/Alu.lean ====
section
/-!
SUPPORT. Writing the register that a specifier names, and what an issuing instruction's word must be.
-/

namespace Sys2Proof.Machine

variable (d : Dev) (e : Nat)

/-- An instruction that issues is not ILLEGAL. -/
theorem Issues.legal {s : State} {e cls op w : Nat} {d : Dev} (h : Issues s e cls op w d) : wordIllegal w = false := by
  have h := h.1
  unfold State.issuing at h
  repeat' split at h
  all_goals first
    | contradiction
    | (obtain ⟨h1, -⟩ := Prod.mk.inj (Option.some.inj h)
       subst h1
       have hl : ¬Dev.illegal _ e _ = true := ‹_›
       unfold Dev.illegal at hl
       simp only [Bool.or_eq_true, not_or, Bool.not_eq_true] at hl
       exact hl.1)

/-- The RD of a word that is legal and writes it names a register that can be written (R164, R231). -/
theorem rd_of_legal {w : Nat} {u : OpUse} (h : wordIllegal w = false) (hu : opUse (iCls w) (iOp w) (iMod w) = some u)
    (hr : u.rd = true) (hw : writesRd (iCls w) (iOp w) = true) :
    iRd w < 0x3E ∧ iRd w ≠ 0x34 ∧ iRd w ≠ 0x35 := by
  unfold wordIllegal at h
  rw [hu] at h
  simp only [Bool.or_eq_false_iff, hr, hw, Bool.true_and, decide_eq_false_iff_not, beq_eq_false_iff_ne] at h
  refine ⟨?_, ?_, ?_⟩ <;> simp only [and_assoc] at h <;> omega

/-- A register keeps what the fields under it keep. -/
theorem Dev.reg_congr {d d' : Dev} {e sp : Nat} (hs : sp ≠ 0x34) (h : ∀ j : RegKey, Field.ENG_PC_ADDR ≠ j.f → d'.key j = d.key j) :
    d'.reg e sp = d.reg e sp := by
  have hr : ∀ f u, Field.ENG_PC_ADDR ≠ f → d'.rg f u = d.rg f u := fun f u hf => h ⟨f, u, 0⟩ hf
  have hi : ∀ f u i, Field.ENG_PC_ADDR ≠ f → d'.rgi f u i = d.rgi f u i := fun f u i hf => h ⟨f, u, i⟩ hf
  unfold Dev.reg
  split
  · exact hi _ _ _ (by decide)
  · split
    · exact hi _ _ _ (by decide)
    · split
      all_goals first
        | contradiction
        | exact hr _ _ (by decide)
        | exact hi _ _ _ (by decide)
        | rfl
        | (simp only [Dev.flags, Dev.estat, Dev.eventFlag]
           rw [hr _ _ (by decide), hr _ _ (by decide), hr _ _ (by decide), hr _ _ (by decide), hr _ _ (by decide),
             hr _ _ (by decide)]
           try rw [hr _ _ (by decide), hr _ _ (by decide)])

/-! ## Moving VP -/

/-- A move of VP writes, of the loop window, only its register LREM. -/
theorem Dev.windowMove_keeps (a b : Nat) : (d.windowMove e a b).engs = d.engs ∧
    ∀ j, j ≠ ⟨.ENG_BOB_LREM_ACTIVE, e, 0⟩ → j ≠ ⟨.ENG_BOB_LREM_HELD, e, 0⟩ → j ≠ ⟨.ENG_BOB_LREM_REM, e, 0⟩ →
      (d.windowMove e a b).key j = d.key j := by
  have hk : ∀ (x : Dev) (f : Field) (n : Nat) (j : RegKey), j ≠ ⟨f, e, 0⟩ → (x.st f e n).key j = x.key j :=
    fun x f n j hn => Dev.key_setKey_ne x n (Ne.symm hn)
  unfold Dev.windowMove
  repeat' split
  all_goals refine ⟨rfl, fun j h1 h2 h3 => ?_⟩
  all_goals first
    | rfl
    | rw [hk _ .ENG_BOB_LREM_HELD _ j h2, hk _ .ENG_BOB_LREM_REM _ j h3]
    | rw [Dev.endWindow, hk _ .ENG_BOB_LREM_REM _ j h3, hk _ .ENG_BOB_LREM_HELD _ j h2, hk _ .ENG_BOB_LREM_ACTIVE _ j h1]

/-- A miss changes two registers, and of the engine what it holds of the stream. -/
theorem Dev.missAt_keeps (n : Nat) : (∃ a b c l q f, (d.missAt e n).eng e =
      { d.eng e with miss := a, missed := b, missFrom := c, lines := l, reqs := q, fetch := f }) ∧
    ∀ j, j ≠ ⟨.ENG_BOB_LREM_REM, e, 0⟩ → j ≠ ⟨.ENG_BOB_MISS_COUNT, e, 0⟩ → (d.missAt e n).key j = d.key j := by
  have hk : ∀ (x : Dev) (f : Field) (n : Nat) (j : RegKey), j ≠ ⟨f, e, 0⟩ → (x.st f e n).key j = x.key j :=
    fun x f n j hn => Dev.key_setKey_ne x n (Ne.symm hn)
  have hs : ∀ (x : Dev) (y : Eng) (j : RegKey), (x.setEng e y).key j = x.key j := fun _ _ _ => rfl
  unfold Dev.missAt Dev.bump
  exact ⟨⟨_, _, _, _, _, _, Dev.eng_setEng_self ..⟩, fun j h1 h2 => by rw [hk _ _ _ j h2, hs, hk _ _ _ j h1]⟩

/-- Moving VP changes no other field than VP, the pleat's progress, the loop window and the count of misses. -/
theorem Dev.vpSet_keeps (v : Nat) {j : RegKey} (h : j ∉ regKeys e 0x33) : (d.vpSet e v).key j = d.key j := by
  have hk : ∀ (x : Dev) (f : Field) (n : Nat), j ≠ ⟨f, e, 0⟩ → (x.st f e n).key j = x.key j :=
    fun x f n hn => Dev.key_setKey_ne x n (Ne.symm hn)
  simp only [regKeys, Nat.reduceLT, if_false, List.mem_cons, List.not_mem_nil, or_false, not_or] at h
  obtain ⟨h1, h2, h3, h4, h5, h6, h7⟩ := h
  have h0 : ((((((d.st .ENG_VP e (v % 2 ^ 38)).st .ENG_STR_PPOS_REP e 0).st .ENG_STR_PPOS_ROW e 0).modEng e
      (fun x => { x with pleat := none })).windowMove e (d.rg .ENG_VP e) (v % 2 ^ 38)).release e).key j = d.key j := by
    rw [Dev.release_key, (Dev.windowMove_keeps _ e _ _).2 j h4 h5 h6, Dev.modEng_key, hk _ _ _ h3, hk _ _ _ h2, hk _ _ _ h1]
  unfold Dev.vpSet
  dsimp only
  split
  · rw [(Dev.missAt_keeps _ e _).2 j h6 h7]
    exact h0
  · exact h0

theorem Dev.vpSet_vp (v : Nat) : (d.vpSet e v).rg .ENG_VP e = v % 2 ^ 38 := by
  have hk : ∀ (x : Dev) (f : Field) (n : Nat), f ≠ .ENG_VP → (x.st f e n).rg .ENG_VP e = x.rg .ENG_VP e :=
    fun x f n hf => Dev.key_st_ne x _ _ hf
  have h0 : ((((((d.st .ENG_VP e (v % 2 ^ 38)).st .ENG_STR_PPOS_REP e 0).st .ENG_STR_PPOS_ROW e 0).modEng e
      (fun x => { x with pleat := none })).windowMove e (d.rg .ENG_VP e) (v % 2 ^ 38)).release e).rg .ENG_VP e = v % 2 ^ 38 := by
    rw [Dev.release_rg]
    refine ((Dev.windowMove_keeps _ e _ _).2 _ (by simp) (by simp) (by simp)).trans ?_
    show (Dev.modEng _ e _).rg .ENG_VP e = _
    rw [Dev.modEng_rg, hk _ _ _ (by decide), hk _ _ _ (by decide), Dev.rg_st_self]
    exact Nat.mod_mod _ _
  unfold Dev.vpSet
  dsimp only
  split
  · exact ((Dev.missAt_keeps _ e _).2 _ (by simp) (by simp)).trans h0
  · exact h0

/-- Moving VP changes of the engine only what it holds of the stream. -/
theorem Dev.vpSet_eng (v : Nat) : ∃ p a b c l q f, (d.vpSet e v).eng e =
    { d.eng e with pleat := p, miss := a, missed := b, missFrom := c, lines := l, reqs := q, fetch := f } := by
  have hr : ∀ x : Dev, ∃ l, (x.release e).eng e = { x.eng e with lines := l } := fun x => by
    unfold Dev.release
    split
    · exact ⟨_, rfl⟩
    · exact ⟨_, Dev.modEng_eng_self ..⟩
  have hw : ∀ x : Dev, ∀ a b, (x.windowMove e a b).eng e = x.eng e := fun x a b => by
    rw [Dev.eng, (Dev.windowMove_keeps x e a b).1]; rfl
  unfold Dev.vpSet
  dsimp only
  obtain ⟨l, h⟩ := hr (((((d.st .ENG_VP e (v % 2 ^ 38)).st .ENG_STR_PPOS_REP e 0).st .ENG_STR_PPOS_ROW e 0).modEng e
      (fun x => { x with pleat := none })).windowMove e (d.rg .ENG_VP e) (v % 2 ^ 38))
  rw [hw, Dev.modEng_eng_self] at h
  split
  · obtain ⟨⟨_, _, _, _, _, _, h'⟩, -⟩ := Dev.missAt_keeps (((((((d.st .ENG_VP e (v % 2 ^ 38)).st .ENG_STR_PPOS_REP e 0).st
      .ENG_STR_PPOS_ROW e 0).modEng e (fun x => { x with pleat := none })).windowMove e (d.rg .ENG_VP e) (v % 2 ^ 38)).release e))
      e (v % 2 ^ 38 / 256)
    rw [h', h]
    exact ⟨_, _, _, _, _, _, _, rfl⟩
  · rw [h]
    exact ⟨_, _, _, _, _, _, _, rfl⟩

/-- The register that a specifier names takes the low bits of a result (R165); ESTAT takes three of its fields (R218). -/
theorem Dev.setReg_takes {sp : Nat} (v : Nat) (h : sp < 0x3E) (h1 : sp ≠ 0x34) (h2 : sp ≠ 0x35) :
    RdTakes (d.setReg e sp v) e sp v := by
  unfold RdTakes
  split
  · subst sp
    have hk : ∀ (x : Dev) (f g : Field) (n : Nat), f ≠ g → (x.st f e n).rg g e = x.rg g e :=
      fun x f g n hf => Dev.key_st_ne x _ _ hf
    show (((d.st .ENG_ESTAT_RESUME e (v / 2)).st .ENG_ESTAT_SZERO e (v / 8)).st .ENG_ESTAT_SCARRY e (v / 16)).rg
        .ENG_ESTAT_RESUME e = _ ∧
      (((d.st .ENG_ESTAT_RESUME e (v / 2)).st .ENG_ESTAT_SZERO e (v / 8)).st .ENG_ESTAT_SCARRY e (v / 16)).rg
        .ENG_ESTAT_SZERO e = _ ∧
      (((d.st .ENG_ESTAT_RESUME e (v / 2)).st .ENG_ESTAT_SZERO e (v / 8)).st .ENG_ESTAT_SCARRY e (v / 16)).rg
        .ENG_ESTAT_SCARRY e = _
    refine ⟨?_, ?_, Dev.rg_st_self _ _ _ _⟩
    · rw [hk _ _ _ _ (by decide), hk _ _ _ _ (by decide)]
      exact Dev.rg_st_self _ _ _ _
    · rw [hk _ _ _ _ (by decide)]
      exact Dev.rg_st_self _ _ _ _
  · by_cases a : sp < 0x20
    · unfold Dev.reg Dev.setReg regWidth
      simp only [a, if_true]
      exact Dev.key_setKey_self _ _ _
    · by_cases b : sp < 0x30
      · have c : sp < 0x32 := by omega
        unfold Dev.reg Dev.setReg regWidth
        simp only [a, b, c, if_true, if_false]
        exact Dev.key_setKey_self _ _ _
      · obtain rfl | rfl | rfl | rfl | rfl | rfl | rfl | rfl | rfl | rfl | rfl : sp = 0x30 ∨ sp = 0x31 ∨ sp = 0x32 ∨
            sp = 0x33 ∨ sp = 0x36 ∨ sp = 0x37 ∨ sp = 0x38 ∨ sp = 0x39 ∨ sp = 0x3A ∨ sp = 0x3B ∨ sp = 0x3C := by omega
        · exact Dev.rg_st_self d .ENG_XA e v
        · exact Dev.rg_st_self d .ENG_YA e v
        · exact Dev.rg_st_self d .ENG_DG e v
        · exact Dev.vpSet_vp d e v
        · exact Dev.rg_st_self d .ENG_TS e v
        · exact Dev.rg_st_self d .ENG_TAG e v
        · exact Dev.key_setKey_self d ⟨.ENG_PROG, e, 0⟩ v
        · exact Dev.key_setKey_self d ⟨.ENG_PROG, e, 1⟩ v
        · exact Dev.key_setKey_self d ⟨.ENG_PROG, e, 2⟩ v
        · exact Dev.key_setKey_self d ⟨.ENG_PROG, e, 3⟩ v
        · exact Dev.rg_st_self d .ENG_EPC e v

/-- What a destination holds does not depend on the program counter nor on ZERO and CARRY. -/
theorem RdTakes.of_keys {d d' : Dev} {e rd v : Nat} (h1 : rd ≠ 0x34) (h2 : rd ≠ 0x35)
    (h : ∀ j : RegKey, Field.ENG_PC_ADDR ≠ j.f → Field.ENG_FLAGS_ZERO ≠ j.f → Field.ENG_FLAGS_CARRY ≠ j.f →
      d'.key j = d.key j) (t : RdTakes d e rd v) : RdTakes d' e rd v := by
  have hr : ∀ f u, Field.ENG_PC_ADDR ≠ f → Field.ENG_FLAGS_ZERO ≠ f → Field.ENG_FLAGS_CARRY ≠ f → d'.rg f u = d.rg f u :=
    fun f u => h ⟨f, u, 0⟩
  have hi : ∀ f u i, Field.ENG_PC_ADDR ≠ f → Field.ENG_FLAGS_ZERO ≠ f → Field.ENG_FLAGS_CARRY ≠ f →
      d'.rgi f u i = d.rgi f u i := fun f u i => h ⟨f, u, i⟩
  unfold RdTakes at *
  split
  · rw [if_pos ‹_›] at t
    rw [hr _ _ (by decide) (by decide) (by decide), hr _ _ (by decide) (by decide) (by decide),
      hr _ _ (by decide) (by decide) (by decide)]
    exact t
  · rw [if_neg ‹_›] at t
    rw [← t]
    unfold Dev.reg
    repeat' split
    all_goals first
      | contradiction
      | rfl
      | exact hr _ _ (by decide) (by decide) (by decide)
      | exact hi _ _ _ (by decide) (by decide) (by decide)

theorem Dev.setZC_key (z c : Nat) {j : RegKey} (h1 : Field.ENG_FLAGS_ZERO ≠ j.f) (h2 : Field.ENG_FLAGS_CARRY ≠ j.f) :
    (d.setZC e z c).key j = d.key j := by
  rw [Dev.setZC, Dev.key_st_ne _ _ _ h2, Dev.key_st_ne _ _ _ h1]

theorem Dev.setZC_zero (z c : Nat) : (d.setZC e z c).rg .ENG_FLAGS_ZERO e = z % 2 :=
  (Dev.key_st_ne (j := ⟨.ENG_FLAGS_ZERO, e, 0⟩) _ _ _ (show Field.ENG_FLAGS_CARRY ≠ .ENG_FLAGS_ZERO by decide)).trans
    (Dev.rg_st_self _ _ _ _)

theorem Dev.setZC_carry (z c : Nat) : (d.setZC e z c).rg .ENG_FLAGS_CARRY e = c % 2 := Dev.rg_st_self _ _ _ _

theorem b2n_mod (b : Bool) : b2n b % 2 = b2n b := by cases b <;> rfl

@[simp] theorem Dev.setReg_eng (sp v : Nat) (h : sp ≠ 0x33) : (d.setReg e sp v).engs = d.engs := by
  unfold Dev.setReg
  repeat' split
  all_goals first | rfl | contradiction

/-- Writing a register leaves what the engine holds beside its stream as it is. -/
theorem Dev.setReg_proj {α : Type} (sp v : Nat) (p : Eng → α)
    (hp : ∀ (x : Eng) a b c f l q n,
      p { x with pleat := a, miss := b, missed := c, missFrom := f, lines := l, reqs := q, fetch := n } = p x) :
    p ((d.setReg e sp v).eng e) = p (d.eng e) := by
  by_cases h : sp = 0x33
  · subst h
    obtain ⟨_, _, _, _, _, _, _, h⟩ := Dev.vpSet_eng d e v
    show p ((d.vpSet e v).eng e) = _
    rw [h, hp]
  · simp only [Dev.eng, Dev.setReg_eng d e sp v h]

/-- Writing a register leaves a delay region as it is. -/
theorem Dev.setReg_br (sp v : Nat) : ((d.setReg e sp v).eng e).br = (d.eng e).br :=
  Dev.setReg_proj d e sp v (·.br) fun _ _ _ _ _ _ _ _ => rfl

/-- The program counter after an instruction outside a delay region (R170, R202). -/
theorem PcNext.finish {d x : Dev} {e : Nat} (hb : (x.eng e).br = (d.eng e).br)
    (hp : x.rg .ENG_PC_ADDR e = d.rg .ENG_PC_ADDR e) : PcNext d (x.finish e) e :=
  fun h => by rw [Dev.finish_pc _ _ (hb.trans h), hp]

/-- Writing a register does not move the program counter. -/
theorem Dev.setReg_pc (sp v : Nat) : (d.setReg e sp v).rg .ENG_PC_ADDR e = d.rg .ENG_PC_ADDR e := by
  have hk : ∀ (x : Dev) (f : Field) (n : Nat), f ≠ .ENG_PC_ADDR → (x.st f e n).rg .ENG_PC_ADDR e = x.rg .ENG_PC_ADDR e :=
    fun x f n hf => Dev.key_st_ne x _ _ hf
  have hi : ∀ (x : Dev) (f : Field) (i n : Nat), f ≠ .ENG_PC_ADDR →
      (x.sti f e i n).rg .ENG_PC_ADDR e = x.rg .ENG_PC_ADDR e := fun x f i n hf => Dev.key_sti_ne x _ _ _ hf
  have hv : (d.vpSet e v).rg .ENG_PC_ADDR e = d.rg .ENG_PC_ADDR e := Dev.vpSet_keeps d e v (by simp [regKeys])
  unfold Dev.setReg
  repeat' split
  all_goals first
    | exact hi _ _ _ _ (by decide)
    | exact hk _ _ _ (by decide)
    | exact hv
    | rfl
    | (rw [hk _ _ _ (by decide), hk _ _ _ (by decide), hk _ _ _ (by decide)])

/-- The RD of an issuing instruction that writes it names a register that can be written. -/
theorem Issues.rd {s : State} {e cls op w : Nat} {d : Dev} (h : Issues s e cls op w d) (u : Nat → OpUse)
    (hu : ∀ m, opUse cls op m = some (u m)) (hr : ∀ m, (u m).rd = true) (hw : writesRd cls op = true) :
    iRd w < 0x3E ∧ iRd w ≠ 0x34 ∧ iRd w ≠ 0x35 := by
  have hl := h.legal
  obtain ⟨-, rfl, rfl, -⟩ := h
  exact rd_of_legal hl (hu _) (hr _) hw

/-- An ALU result with its flags, and the instruction complete (R165, R217). -/
theorem Dev.alu_finish (rd v c : Nat) (h : rd < 0x3E ∧ rd ≠ 0x34 ∧ rd ≠ 0x35) :
    RdTakes ((d.alu e rd v c).finish e) e rd v ∧
    ((d.alu e rd v c).finish e).rg .ENG_FLAGS_ZERO e = b2n (v % 2 ^ regWidth rd == 0) ∧
    ((d.alu e rd v c).finish e).rg .ENG_FLAGS_CARRY e = c % 2 ∧ PcNext d ((d.alu e rd v c).finish e) e := by
  refine ⟨?_, ?_, ?_, ?_⟩
  · exact RdTakes.of_keys h.2.1 h.2.2 (fun j h1 h2 h3 => (Dev.finish_key _ _ h1).trans (Dev.setZC_key _ _ _ _ h2 h3))
      (Dev.setReg_takes d e v h.1 h.2.1 h.2.2)
  · exact (Dev.finish_key _ _ (show Field.ENG_PC_ADDR ≠ .ENG_FLAGS_ZERO by decide)).trans
      ((Dev.setZC_zero _ _ _ _).trans (b2n_mod _))
  · exact (Dev.finish_key _ _ (show Field.ENG_PC_ADDR ≠ .ENG_FLAGS_CARRY by decide)).trans (Dev.setZC_carry _ _ _ _)
  · refine PcNext.finish (Dev.setReg_br d e rd v) ?_
    exact (Dev.setZC_key (d.setReg e rd v) e _ _ (j := ⟨.ENG_PC_ADDR, e, 0⟩)
      (show Field.ENG_FLAGS_ZERO ≠ .ENG_PC_ADDR by decide) (show Field.ENG_FLAGS_CARRY ≠ .ENG_PC_ADDR by decide)).trans
      (Dev.setReg_pc d e rd v)

/-- A write to a register changes no other field than `regKeys` tells. -/
theorem Dev.setReg_keeps (sp v : Nat) {j : RegKey} (h : j ∉ regKeys e sp) : (d.setReg e sp v).key j = d.key j := by
  have hk : ∀ (x : Dev) (k : RegKey) (n : Nat), j ≠ k → (x.setKey k n).key j = x.key j :=
    fun x k n hn => Dev.key_setKey_ne x n (Ne.symm hn)
  by_cases hv : sp = 0x33
  · subst hv
    exact Dev.vpSet_keeps d e v h
  · unfold regKeys at h
    unfold Dev.setReg
    repeat' split at h
    all_goals try simp only [List.mem_cons, List.not_mem_nil, or_false, not_or] at h
    all_goals first
      | contradiction
      | (simp only [*, if_true, if_false]; exact hk _ _ _ h)
      | (simp only [*, if_false]; exact (hk _ _ _ h.2.2).trans ((hk _ _ _ h.2.1).trans (hk _ _ _ h.1)))
      | simp only [*, if_false]

/-- Completing an instruction changes the program counter alone. -/
theorem Dev.finish_keeps {j : RegKey} (h : j ≠ ⟨.ENG_PC_ADDR, e, 0⟩) : (d.finish e).key j = d.key j := by
  have hp : ∀ (x : Dev) (a : Nat), (x.setPc e a).key j = x.key j := fun x a => by
    rw [Dev.setPc_key, if_neg (Ne.symm h)]
  have hr : ∀ x : Dev, (x.region e).key j = x.key j := fun x => by
    unfold Dev.region
    repeat' split
    all_goals first | rfl | (rw [hp]; rfl)
  unfold Dev.finish
  rw [(Dev.point_settles _ _).key, hr, hp]
  rfl

/-- An ALU result with its flags changes RD's fields, ZERO, CARRY and the program counter alone. -/
theorem Dev.alu_finish_keeps (rd v c : Nat) {j : RegKey} (h : j ∉ pcFlagKeys e ++ regKeys e rd) :
    ((d.alu e rd v c).finish e).key j = d.key j := by
  simp only [pcFlagKeys, List.cons_append, List.nil_append, List.mem_cons, not_or] at h
  rw [Dev.finish_keeps _ _ h.1, Dev.alu, Dev.setZC]
  exact (Dev.key_setKey_ne _ _ (Ne.symm h.2.2.1)).trans ((Dev.key_setKey_ne _ _ (Ne.symm h.2.1)).trans
    (Dev.setReg_keeps d e rd v h.2.2.2))

end Sys2Proof.Machine
end

