-- ==== Sys2Proof/Laws/Frame.lean ====
section
/-!
SUPPORT. What an update leaves alone, as simp lemmas: an accessor reads through an update of another part of the block, and
interrupts, log entries and the clock leave everything else alone.
-/

namespace Sys2Proof.Machine

/-! ## An accessor over an update of another part -/

@[simp] theorem Dev.mk_key (d : Dev) (j : RegKey) {x1 x2 x3 x4 x5 x6 x7 x8 x9 x10 x11 x12 x13 x14 x15 x16 x17 x18 x19
    x20 x21 x22 x23 x24 x25 x26 x27 x28 x29 x30 x31 x32 x33 x34 x35 x36 x37 x38 x39 x40 x41 x42 x43 x44 x45 x46 x47 x48
    x49 x50 x51} : Dev.key (Dev.mk d.regs x1 x2 x3 x4 x5 x6 x7 x8 x9 x10 x11 x12 x13 x14 x15 x16 x17 x18 x19 x20 x21
    x22 x23 x24 x25 x26 x27 x28 x29 x30 x31 x32 x33 x34 x35 x36 x37 x38 x39 x40 x41 x42 x43 x44 x45 x46 x47 x48 x49 x50
    x51) j = d.key j := rfl
@[simp] theorem Dev.mk_eng (d : Dev) (j : Nat) {x0 x1 x2 x3 x4 x5 x6 x7 x8 x9 x10 x11 x12 x13 x14 x16 x17 x18 x19 x20
    x21 x22 x23 x24 x25 x26 x27 x28 x29 x30 x31 x32 x33 x34 x35 x36 x37 x38 x39 x40 x41 x42 x43 x44 x45 x46 x47 x48 x49
    x50 x51} : Dev.eng (Dev.mk x0 x1 x2 x3 x4 x5 x6 x7 x8 x9 x10 x11 x12 x13 x14 d.engs x16 x17 x18 x19 x20 x21 x22 x23
    x24 x25 x26 x27 x28 x29 x30 x31 x32 x33 x34 x35 x36 x37 x38 x39 x40 x41 x42 x43 x44 x45 x46 x47 x48 x49 x50 x51) j
    = d.eng j := rfl
@[simp] theorem Dev.mk_chan (d : Dev) (j : Nat) {x0 x1 x2 x3 x4 x5 x6 x7 x8 x9 x10 x11 x12 x13 x14 x15 x16 x18 x19 x20
    x21 x22 x23 x24 x25 x26 x27 x28 x29 x30 x31 x32 x33 x34 x35 x36 x37 x38 x39 x40 x41 x42 x43 x44 x45 x46 x47 x48 x49
    x50 x51} : Dev.chan (Dev.mk x0 x1 x2 x3 x4 x5 x6 x7 x8 x9 x10 x11 x12 x13 x14 x15 x16 d.chans x18 x19 x20 x21 x22
    x23 x24 x25 x26 x27 x28 x29 x30 x31 x32 x33 x34 x35 x36 x37 x38 x39 x40 x41 x42 x43 x44 x45 x46 x47 x48 x49 x50
    x51) j = d.chan j := rfl
@[simp] theorem Dev.mk_feb (d : Dev) (j : Nat) {x0 x1 x2 x3 x4 x5 x6 x7 x8 x9 x10 x11 x12 x13 x14 x15 x16 x17 x19 x20
    x21 x22 x23 x24 x25 x26 x27 x28 x29 x30 x31 x32 x33 x34 x35 x36 x37 x38 x39 x40 x41 x42 x43 x44 x45 x46 x47 x48 x49
    x50 x51} : Dev.feb (Dev.mk x0 x1 x2 x3 x4 x5 x6 x7 x8 x9 x10 x11 x12 x13 x14 x15 x16 x17 d.febs x19 x20 x21 x22 x23
    x24 x25 x26 x27 x28 x29 x30 x31 x32 x33 x34 x35 x36 x37 x38 x39 x40 x41 x42 x43 x44 x45 x46 x47 x48 x49 x50 x51) j
    = d.feb j := rfl
@[simp] theorem Dev.mk_ft (d : Dev) (j : Nat) {x0 x1 x2 x3 x4 x5 x6 x7 x8 x9 x10 x11 x12 x13 x14 x15 x16 x17 x18 x20
    x21 x22 x23 x24 x25 x26 x27 x28 x29 x30 x31 x32 x33 x34 x35 x36 x37 x38 x39 x40 x41 x42 x43 x44 x45 x46 x47 x48 x49
    x50 x51} : Dev.ft (Dev.mk x0 x1 x2 x3 x4 x5 x6 x7 x8 x9 x10 x11 x12 x13 x14 x15 x16 x17 x18 d.fts x20 x21 x22 x23
    x24 x25 x26 x27 x28 x29 x30 x31 x32 x33 x34 x35 x36 x37 x38 x39 x40 x41 x42 x43 x44 x45 x46 x47 x48 x49 x50 x51) j
    = d.ft j := rfl
@[simp] theorem Dev.mk_acq (d : Dev) (j : Nat) {x0 x1 x2 x3 x4 x5 x6 x7 x8 x9 x10 x11 x12 x13 x14 x15 x16 x17 x18 x19
    x20 x21 x22 x23 x24 x25 x27 x28 x29 x30 x31 x32 x33 x34 x35 x36 x37 x38 x39 x40 x41 x42 x43 x44 x45 x46 x47 x48 x49
    x50 x51} : Dev.acq (Dev.mk x0 x1 x2 x3 x4 x5 x6 x7 x8 x9 x10 x11 x12 x13 x14 x15 x16 x17 x18 x19 x20 x21 x22 x23
    x24 x25 d.acqs x27 x28 x29 x30 x31 x32 x33 x34 x35 x36 x37 x38 x39 x40 x41 x42 x43 x44 x45 x46 x47 x48 x49 x50 x51)
    j = d.acq j := rfl
@[simp] theorem Dev.mk_link (d : Dev) (j : Nat) {x0 x1 x2 x3 x4 x5 x6 x7 x8 x9 x10 x11 x12 x13 x14 x15 x16 x17 x18 x19
    x20 x21 x22 x23 x24 x25 x26 x28 x29 x30 x31 x32 x33 x34 x35 x36 x37 x38 x39 x40 x41 x42 x43 x44 x45 x46 x47 x48 x49
    x50 x51} : Dev.link (Dev.mk x0 x1 x2 x3 x4 x5 x6 x7 x8 x9 x10 x11 x12 x13 x14 x15 x16 x17 x18 x19 x20 x21 x22 x23
    x24 x25 x26 d.links x28 x29 x30 x31 x32 x33 x34 x35 x36 x37 x38 x39 x40 x41 x42 x43 x44 x45 x46 x47 x48 x49 x50
    x51) j = d.link j := rfl
@[simp] theorem Dev.mk_ddc (d : Dev) (j : Nat) {x0 x1 x2 x3 x4 x5 x6 x7 x8 x9 x10 x11 x12 x13 x14 x15 x16 x17 x18 x19
    x20 x21 x22 x23 x24 x25 x26 x27 x29 x30 x31 x32 x33 x34 x35 x36 x37 x38 x39 x40 x41 x42 x43 x44 x45 x46 x47 x48 x49
    x50 x51} : Dev.ddc (Dev.mk x0 x1 x2 x3 x4 x5 x6 x7 x8 x9 x10 x11 x12 x13 x14 x15 x16 x17 x18 x19 x20 x21 x22 x23
    x24 x25 x26 x27 d.ddcs x29 x30 x31 x32 x33 x34 x35 x36 x37 x38 x39 x40 x41 x42 x43 x44 x45 x46 x47 x48 x49 x50 x51)
    j = d.ddc j := rfl
@[simp] theorem Dev.mk_awg (d : Dev) (j : Nat) {x0 x1 x2 x3 x4 x5 x6 x7 x8 x9 x10 x11 x12 x13 x14 x15 x16 x17 x18 x19
    x20 x21 x22 x23 x24 x25 x26 x27 x28 x30 x31 x32 x33 x34 x35 x36 x37 x38 x39 x40 x41 x42 x43 x44 x45 x46 x47 x48 x49
    x50 x51} : Dev.awg (Dev.mk x0 x1 x2 x3 x4 x5 x6 x7 x8 x9 x10 x11 x12 x13 x14 x15 x16 x17 x18 x19 x20 x21 x22 x23
    x24 x25 x26 x27 x28 d.awgs x30 x31 x32 x33 x34 x35 x36 x37 x38 x39 x40 x41 x42 x43 x44 x45 x46 x47 x48 x49 x50 x51)
    j = d.awg j := rfl
@[simp] theorem Dev.mk_lane (d : Dev) (j : Nat) {x0 x1 x2 x3 x4 x5 x6 x7 x8 x9 x10 x11 x12 x13 x14 x15 x16 x17 x18 x19
    x20 x21 x22 x23 x24 x25 x26 x27 x28 x29 x30 x31 x32 x33 x34 x35 x36 x37 x38 x40 x41 x42 x43 x44 x45 x46 x47 x48 x49
    x50 x51} : Dev.lane (Dev.mk x0 x1 x2 x3 x4 x5 x6 x7 x8 x9 x10 x11 x12 x13 x14 x15 x16 x17 x18 x19 x20 x21 x22 x23
    x24 x25 x26 x27 x28 x29 x30 x31 x32 x33 x34 x35 x36 x37 x38 d.lanes x40 x41 x42 x43 x44 x45 x46 x47 x48 x49 x50
    x51) j = d.lane j := rfl
@[simp] theorem Dev.mk_port (d : Dev) (j : Nat) {x0 x1 x2 x3 x4 x5 x6 x7 x8 x9 x10 x11 x12 x13 x14 x15 x16 x17 x18 x19
    x20 x21 x22 x23 x24 x25 x26 x27 x28 x29 x30 x31 x32 x33 x34 x35 x36 x38 x39 x40 x41 x42 x43 x44 x45 x46 x47 x48 x49
    x50 x51} : Dev.port (Dev.mk x0 x1 x2 x3 x4 x5 x6 x7 x8 x9 x10 x11 x12 x13 x14 x15 x16 x17 x18 x19 x20 x21 x22 x23
    x24 x25 x26 x27 x28 x29 x30 x31 x32 x33 x34 x35 x36 d.ports x38 x39 x40 x41 x42 x43 x44 x45 x46 x47 x48 x49 x50
    x51) j = d.port j := rfl
@[simp] theorem Dev.mk_drc (d : Dev) (j : Nat) {x0 x1 x2 x3 x4 x5 x6 x7 x8 x9 x10 x11 x12 x13 x14 x15 x16 x17 x18 x19
    x20 x21 x22 x23 x24 x25 x26 x27 x28 x29 x30 x31 x32 x33 x34 x35 x36 x37 x38 x39 x41 x42 x43 x44 x45 x46 x47 x48 x49
    x50 x51} : Dev.drc (Dev.mk x0 x1 x2 x3 x4 x5 x6 x7 x8 x9 x10 x11 x12 x13 x14 x15 x16 x17 x18 x19 x20 x21 x22 x23
    x24 x25 x26 x27 x28 x29 x30 x31 x32 x33 x34 x35 x36 x37 x38 x39 d.drcs x41 x42 x43 x44 x45 x46 x47 x48 x49 x50 x51)
    j = d.drc j := rfl
@[simp] theorem Dev.mk_sew (d : Dev) (j : Nat) {x0 x1 x2 x3 x4 x5 x6 x7 x8 x9 x10 x11 x12 x13 x14 x15 x16 x17 x18 x19
    x20 x22 x23 x24 x25 x26 x27 x28 x29 x30 x31 x32 x33 x34 x35 x36 x37 x38 x39 x40 x41 x42 x43 x44 x45 x46 x47 x48 x49
    x50 x51} : Dev.sew (Dev.mk x0 x1 x2 x3 x4 x5 x6 x7 x8 x9 x10 x11 x12 x13 x14 x15 x16 x17 x18 x19 x20 d.sews x22 x23
    x24 x25 x26 x27 x28 x29 x30 x31 x32 x33 x34 x35 x36 x37 x38 x39 x40 x41 x42 x43 x44 x45 x46 x47 x48 x49 x50 x51) j
    = d.sew j := rfl

variable (d : Dev)

/-! ## Registers -/

@[simp] theorem Dev.setKey_basted (k : RegKey) (v : Nat) : (d.setKey k v).basted = d.basted := rfl
@[simp] theorem Dev.setKey_dirty (k : RegKey) (v : Nat) : (d.setKey k v).dirty = d.dirty := rfl
@[simp] theorem Dev.setKey_msix (k : RegKey) (v : Nat) : (d.setKey k v).msix = d.msix := rfl
@[simp] theorem Dev.setKey_pba (k : RegKey) (v : Nat) : (d.setKey k v).pba = d.pba := rfl
@[simp] theorem Dev.setKey_msixEn (k : RegKey) (v : Nat) : (d.setKey k v).msixEn = d.msixEn := rfl
@[simp] theorem Dev.setKey_msixFn (k : RegKey) (v : Nat) : (d.setKey k v).msixFn = d.msixFn := rfl
@[simp] theorem Dev.setKey_errs (k : RegKey) (v : Nat) : (d.setKey k v).errs = d.errs := rfl
@[simp] theorem Dev.setKey_sewMsg (k : RegKey) (v : Nat) : (d.setKey k v).sewMsg = d.sewMsg := rfl
@[simp] theorem Dev.setKey_sews (k : RegKey) (v : Nat) : (d.setKey k v).sews = d.sews := rfl
@[simp] theorem Dev.setKey_modeChg (k : RegKey) (v : Nat) : (d.setKey k v).modeChg = d.modeChg := rfl
@[simp] theorem Dev.setKey_far (k : RegKey) (v : Nat) : (d.setKey k v).far = d.far := rfl
@[simp] theorem Dev.setKey_farQ (k : RegKey) (v : Nat) : (d.setKey k v).farQ = d.farQ := rfl
@[simp] theorem Dev.setKey_calRead (k : RegKey) (v : Nat) : (d.setKey k v).calRead = d.calRead := rfl
@[simp] theorem Dev.setKey_ahead (k : RegKey) (v : Nat) : (d.setKey k v).ahead = d.ahead := rfl
@[simp] theorem Dev.setKey_seamQ (k : RegKey) (v : Nat) : (d.setKey k v).seamQ = d.seamQ := rfl
@[simp] theorem Dev.setKey_seen (k : RegKey) (v : Nat) : (d.setKey k v).seen = d.seen := rfl
@[simp] theorem Dev.setKey_tieIn (k : RegKey) (v : Nat) : (d.setKey k v).tieIn = d.tieIn := rfl
@[simp] theorem Dev.setKey_tieGot (k : RegKey) (v : Nat) : (d.setKey k v).tieGot = d.tieGot := rfl
@[simp] theorem Dev.setKey_ethSlow (k : RegKey) (v : Nat) : (d.setKey k v).ethSlow = d.ethSlow := rfl
@[simp] theorem Dev.setKey_flTurn (k : RegKey) (v : Nat) : (d.setKey k v).flTurn = d.flTurn := rfl
@[simp] theorem Dev.setKey_ethAt (k : RegKey) (v : Nat) : (d.setKey k v).ethAt = d.ethAt := rfl
@[simp] theorem Dev.setKey_ports (k : RegKey) (v : Nat) : (d.setKey k v).ports = d.ports := rfl
@[simp] theorem Dev.setKey_heard (k : RegKey) (v : Nat) : (d.setKey k v).heard = d.heard := rfl
@[simp] theorem Dev.setKey_lanes (k : RegKey) (v : Nat) : (d.setKey k v).lanes = d.lanes := rfl
@[simp] theorem Dev.setKey_drcs (k : RegKey) (v : Nat) : (d.setKey k v).drcs = d.drcs := rfl
@[simp] theorem Dev.setKey_pwr (k : RegKey) (v : Nat) : (d.setKey k v).pwr = d.pwr := rfl
@[simp] theorem Dev.setKey_quies (k : RegKey) (v : Nat) : (d.setKey k v).quies = d.quies := rfl
@[simp] theorem Dev.setKey_kept (k : RegKey) (v : Nat) : (d.setKey k v).kept = d.kept := rfl
@[simp] theorem Dev.setKey_rstWin (k : RegKey) (v : Nat) : (d.setKey k v).rstWin = d.rstWin := rfl
@[simp] theorem Dev.setKey_cal (k : RegKey) (v : Nat) : (d.setKey k v).cal = d.cal := rfl
@[simp] theorem Dev.setKey_thim (k : RegKey) (v : Nat) : (d.setKey k v).thim = d.thim := rfl
@[simp] theorem Dev.setKey_ctr (k : RegKey) (v : Nat) : (d.setKey k v).ctr = d.ctr := rfl
@[simp] theorem Dev.setKey_cmd (k : RegKey) (v : Nat) : (d.setKey k v).cmd = d.cmd := rfl
@[simp] theorem Dev.setKey_dmas (k : RegKey) (v : Nat) : (d.setKey k v).dmas = d.dmas := rfl
@[simp] theorem Dev.setKey_tap (k : RegKey) (v : Nat) : (d.setKey k v).tap = d.tap := rfl
@[simp] theorem Dev.setKey_telCe (k : RegKey) (v : Nat) : (d.setKey k v).telCe = d.telCe := rfl
@[simp] theorem Dev.setKey_lane (k : RegKey) (v i : Nat) : (d.setKey k v).lane i = d.lane i := rfl
@[simp] theorem Dev.setKey_port (k : RegKey) (v i : Nat) : (d.setKey k v).port i = d.port i := rfl
@[simp] theorem Dev.setKey_drc (k : RegKey) (v i : Nat) : (d.setKey k v).drc i = d.drc i := rfl
@[simp] theorem Dev.setKey_sew (k : RegKey) (v i : Nat) : (d.setKey k v).sew i = d.sew i := rfl

@[simp] theorem Dev.setEng_basted (e : Nat) (x : Eng) : (d.setEng e x).basted = d.basted := rfl
@[simp] theorem Dev.setEng_dirty (e : Nat) (x : Eng) : (d.setEng e x).dirty = d.dirty := rfl
@[simp] theorem Dev.setEng_msix (e : Nat) (x : Eng) : (d.setEng e x).msix = d.msix := rfl
@[simp] theorem Dev.setEng_pba (e : Nat) (x : Eng) : (d.setEng e x).pba = d.pba := rfl
@[simp] theorem Dev.setEng_msixEn (e : Nat) (x : Eng) : (d.setEng e x).msixEn = d.msixEn := rfl
@[simp] theorem Dev.setEng_msixFn (e : Nat) (x : Eng) : (d.setEng e x).msixFn = d.msixFn := rfl
@[simp] theorem Dev.setEng_errs (e : Nat) (x : Eng) : (d.setEng e x).errs = d.errs := rfl
@[simp] theorem Dev.setEng_sewMsg (e : Nat) (x : Eng) : (d.setEng e x).sewMsg = d.sewMsg := rfl
@[simp] theorem Dev.setEng_sews (e : Nat) (x : Eng) : (d.setEng e x).sews = d.sews := rfl
@[simp] theorem Dev.setEng_modeChg (e : Nat) (x : Eng) : (d.setEng e x).modeChg = d.modeChg := rfl
@[simp] theorem Dev.setEng_far (e : Nat) (x : Eng) : (d.setEng e x).far = d.far := rfl
@[simp] theorem Dev.setEng_farQ (e : Nat) (x : Eng) : (d.setEng e x).farQ = d.farQ := rfl
@[simp] theorem Dev.setEng_calRead (e : Nat) (x : Eng) : (d.setEng e x).calRead = d.calRead := rfl
@[simp] theorem Dev.setEng_ahead (e : Nat) (x : Eng) : (d.setEng e x).ahead = d.ahead := rfl
@[simp] theorem Dev.setEng_seamQ (e : Nat) (x : Eng) : (d.setEng e x).seamQ = d.seamQ := rfl
@[simp] theorem Dev.setEng_seen (e : Nat) (x : Eng) : (d.setEng e x).seen = d.seen := rfl
@[simp] theorem Dev.setEng_tieIn (e : Nat) (x : Eng) : (d.setEng e x).tieIn = d.tieIn := rfl
@[simp] theorem Dev.setEng_tieGot (e : Nat) (x : Eng) : (d.setEng e x).tieGot = d.tieGot := rfl
@[simp] theorem Dev.setEng_ethSlow (e : Nat) (x : Eng) : (d.setEng e x).ethSlow = d.ethSlow := rfl
@[simp] theorem Dev.setEng_flTurn (e : Nat) (x : Eng) : (d.setEng e x).flTurn = d.flTurn := rfl
@[simp] theorem Dev.setEng_ethAt (e : Nat) (x : Eng) : (d.setEng e x).ethAt = d.ethAt := rfl
@[simp] theorem Dev.setEng_ports (e : Nat) (x : Eng) : (d.setEng e x).ports = d.ports := rfl
@[simp] theorem Dev.setEng_heard (e : Nat) (x : Eng) : (d.setEng e x).heard = d.heard := rfl
@[simp] theorem Dev.setEng_lanes (e : Nat) (x : Eng) : (d.setEng e x).lanes = d.lanes := rfl
@[simp] theorem Dev.setEng_drcs (e : Nat) (x : Eng) : (d.setEng e x).drcs = d.drcs := rfl
@[simp] theorem Dev.setEng_pwr (e : Nat) (x : Eng) : (d.setEng e x).pwr = d.pwr := rfl
@[simp] theorem Dev.setEng_quies (e : Nat) (x : Eng) : (d.setEng e x).quies = d.quies := rfl
@[simp] theorem Dev.setEng_kept (e : Nat) (x : Eng) : (d.setEng e x).kept = d.kept := rfl
@[simp] theorem Dev.setEng_rstWin (e : Nat) (x : Eng) : (d.setEng e x).rstWin = d.rstWin := rfl
@[simp] theorem Dev.setEng_cal (e : Nat) (x : Eng) : (d.setEng e x).cal = d.cal := rfl
@[simp] theorem Dev.setEng_thim (e : Nat) (x : Eng) : (d.setEng e x).thim = d.thim := rfl
@[simp] theorem Dev.setEng_ctr (e : Nat) (x : Eng) : (d.setEng e x).ctr = d.ctr := rfl
@[simp] theorem Dev.setEng_cmd (e : Nat) (x : Eng) : (d.setEng e x).cmd = d.cmd := rfl
@[simp] theorem Dev.setEng_dmas (e : Nat) (x : Eng) : (d.setEng e x).dmas = d.dmas := rfl
@[simp] theorem Dev.setEng_tap (e : Nat) (x : Eng) : (d.setEng e x).tap = d.tap := rfl
@[simp] theorem Dev.setEng_telCe (e : Nat) (x : Eng) : (d.setEng e x).telCe = d.telCe := rfl
@[simp] theorem Dev.setChan_basted (c : Nat) (x : Chan) : (d.setChan c x).basted = d.basted := rfl
@[simp] theorem Dev.setChan_dirty (c : Nat) (x : Chan) : (d.setChan c x).dirty = d.dirty := rfl
@[simp] theorem Dev.setChan_msix (c : Nat) (x : Chan) : (d.setChan c x).msix = d.msix := rfl
@[simp] theorem Dev.setChan_pba (c : Nat) (x : Chan) : (d.setChan c x).pba = d.pba := rfl
@[simp] theorem Dev.setChan_msixEn (c : Nat) (x : Chan) : (d.setChan c x).msixEn = d.msixEn := rfl
@[simp] theorem Dev.setChan_msixFn (c : Nat) (x : Chan) : (d.setChan c x).msixFn = d.msixFn := rfl
@[simp] theorem Dev.setChan_errs (c : Nat) (x : Chan) : (d.setChan c x).errs = d.errs := rfl
@[simp] theorem Dev.setChan_sewMsg (c : Nat) (x : Chan) : (d.setChan c x).sewMsg = d.sewMsg := rfl
@[simp] theorem Dev.setChan_sews (c : Nat) (x : Chan) : (d.setChan c x).sews = d.sews := rfl
@[simp] theorem Dev.setChan_modeChg (c : Nat) (x : Chan) : (d.setChan c x).modeChg = d.modeChg := rfl
@[simp] theorem Dev.setChan_far (c : Nat) (x : Chan) : (d.setChan c x).far = d.far := rfl
@[simp] theorem Dev.setChan_farQ (c : Nat) (x : Chan) : (d.setChan c x).farQ = d.farQ := rfl
@[simp] theorem Dev.setChan_calRead (c : Nat) (x : Chan) : (d.setChan c x).calRead = d.calRead := rfl
@[simp] theorem Dev.setChan_ahead (c : Nat) (x : Chan) : (d.setChan c x).ahead = d.ahead := rfl
@[simp] theorem Dev.setChan_seamQ (c : Nat) (x : Chan) : (d.setChan c x).seamQ = d.seamQ := rfl
@[simp] theorem Dev.setChan_seen (c : Nat) (x : Chan) : (d.setChan c x).seen = d.seen := rfl
@[simp] theorem Dev.setChan_tieIn (c : Nat) (x : Chan) : (d.setChan c x).tieIn = d.tieIn := rfl
@[simp] theorem Dev.setChan_tieGot (c : Nat) (x : Chan) : (d.setChan c x).tieGot = d.tieGot := rfl
@[simp] theorem Dev.setChan_ethSlow (c : Nat) (x : Chan) : (d.setChan c x).ethSlow = d.ethSlow := rfl
@[simp] theorem Dev.setChan_flTurn (c : Nat) (x : Chan) : (d.setChan c x).flTurn = d.flTurn := rfl
@[simp] theorem Dev.setChan_ethAt (c : Nat) (x : Chan) : (d.setChan c x).ethAt = d.ethAt := rfl
@[simp] theorem Dev.setChan_ports (c : Nat) (x : Chan) : (d.setChan c x).ports = d.ports := rfl
@[simp] theorem Dev.setChan_heard (c : Nat) (x : Chan) : (d.setChan c x).heard = d.heard := rfl
@[simp] theorem Dev.setChan_lanes (c : Nat) (x : Chan) : (d.setChan c x).lanes = d.lanes := rfl
@[simp] theorem Dev.setChan_drcs (c : Nat) (x : Chan) : (d.setChan c x).drcs = d.drcs := rfl
@[simp] theorem Dev.setChan_pwr (c : Nat) (x : Chan) : (d.setChan c x).pwr = d.pwr := rfl
@[simp] theorem Dev.setChan_quies (c : Nat) (x : Chan) : (d.setChan c x).quies = d.quies := rfl
@[simp] theorem Dev.setChan_kept (c : Nat) (x : Chan) : (d.setChan c x).kept = d.kept := rfl
@[simp] theorem Dev.setChan_rstWin (c : Nat) (x : Chan) : (d.setChan c x).rstWin = d.rstWin := rfl
@[simp] theorem Dev.setChan_cal (c : Nat) (x : Chan) : (d.setChan c x).cal = d.cal := rfl
@[simp] theorem Dev.setChan_thim (c : Nat) (x : Chan) : (d.setChan c x).thim = d.thim := rfl
@[simp] theorem Dev.setChan_ctr (c : Nat) (x : Chan) : (d.setChan c x).ctr = d.ctr := rfl
@[simp] theorem Dev.setChan_cmd (c : Nat) (x : Chan) : (d.setChan c x).cmd = d.cmd := rfl
@[simp] theorem Dev.setChan_dmas (c : Nat) (x : Chan) : (d.setChan c x).dmas = d.dmas := rfl
@[simp] theorem Dev.setChan_tap (c : Nat) (x : Chan) : (d.setChan c x).tap = d.tap := rfl
@[simp] theorem Dev.setChan_telCe (c : Nat) (x : Chan) : (d.setChan c x).telCe = d.telCe := rfl
@[simp] theorem Dev.setFeb_basted (k : Nat) (x : Feb) : (d.setFeb k x).basted = d.basted := rfl
@[simp] theorem Dev.setFeb_dirty (k : Nat) (x : Feb) : (d.setFeb k x).dirty = d.dirty := rfl
@[simp] theorem Dev.setFeb_msix (k : Nat) (x : Feb) : (d.setFeb k x).msix = d.msix := rfl
@[simp] theorem Dev.setFeb_pba (k : Nat) (x : Feb) : (d.setFeb k x).pba = d.pba := rfl
@[simp] theorem Dev.setFeb_msixEn (k : Nat) (x : Feb) : (d.setFeb k x).msixEn = d.msixEn := rfl
@[simp] theorem Dev.setFeb_msixFn (k : Nat) (x : Feb) : (d.setFeb k x).msixFn = d.msixFn := rfl
@[simp] theorem Dev.setFeb_errs (k : Nat) (x : Feb) : (d.setFeb k x).errs = d.errs := rfl
@[simp] theorem Dev.setFeb_sewMsg (k : Nat) (x : Feb) : (d.setFeb k x).sewMsg = d.sewMsg := rfl
@[simp] theorem Dev.setFeb_sews (k : Nat) (x : Feb) : (d.setFeb k x).sews = d.sews := rfl
@[simp] theorem Dev.setFeb_modeChg (k : Nat) (x : Feb) : (d.setFeb k x).modeChg = d.modeChg := rfl
@[simp] theorem Dev.setFeb_far (k : Nat) (x : Feb) : (d.setFeb k x).far = d.far := rfl
@[simp] theorem Dev.setFeb_farQ (k : Nat) (x : Feb) : (d.setFeb k x).farQ = d.farQ := rfl
@[simp] theorem Dev.setFeb_calRead (k : Nat) (x : Feb) : (d.setFeb k x).calRead = d.calRead := rfl
@[simp] theorem Dev.setFeb_ahead (k : Nat) (x : Feb) : (d.setFeb k x).ahead = d.ahead := rfl
@[simp] theorem Dev.setFeb_seamQ (k : Nat) (x : Feb) : (d.setFeb k x).seamQ = d.seamQ := rfl
@[simp] theorem Dev.setFeb_seen (k : Nat) (x : Feb) : (d.setFeb k x).seen = d.seen := rfl
@[simp] theorem Dev.setFeb_tieIn (k : Nat) (x : Feb) : (d.setFeb k x).tieIn = d.tieIn := rfl
@[simp] theorem Dev.setFeb_tieGot (k : Nat) (x : Feb) : (d.setFeb k x).tieGot = d.tieGot := rfl
@[simp] theorem Dev.setFeb_ethSlow (k : Nat) (x : Feb) : (d.setFeb k x).ethSlow = d.ethSlow := rfl
@[simp] theorem Dev.setFeb_flTurn (k : Nat) (x : Feb) : (d.setFeb k x).flTurn = d.flTurn := rfl
@[simp] theorem Dev.setFeb_ethAt (k : Nat) (x : Feb) : (d.setFeb k x).ethAt = d.ethAt := rfl
@[simp] theorem Dev.setFeb_ports (k : Nat) (x : Feb) : (d.setFeb k x).ports = d.ports := rfl
@[simp] theorem Dev.setFeb_heard (k : Nat) (x : Feb) : (d.setFeb k x).heard = d.heard := rfl
@[simp] theorem Dev.setFeb_lanes (k : Nat) (x : Feb) : (d.setFeb k x).lanes = d.lanes := rfl
@[simp] theorem Dev.setFeb_drcs (k : Nat) (x : Feb) : (d.setFeb k x).drcs = d.drcs := rfl
@[simp] theorem Dev.setFeb_pwr (k : Nat) (x : Feb) : (d.setFeb k x).pwr = d.pwr := rfl
@[simp] theorem Dev.setFeb_quies (k : Nat) (x : Feb) : (d.setFeb k x).quies = d.quies := rfl
@[simp] theorem Dev.setFeb_kept (k : Nat) (x : Feb) : (d.setFeb k x).kept = d.kept := rfl
@[simp] theorem Dev.setFeb_rstWin (k : Nat) (x : Feb) : (d.setFeb k x).rstWin = d.rstWin := rfl
@[simp] theorem Dev.setFeb_cal (k : Nat) (x : Feb) : (d.setFeb k x).cal = d.cal := rfl
@[simp] theorem Dev.setFeb_thim (k : Nat) (x : Feb) : (d.setFeb k x).thim = d.thim := rfl
@[simp] theorem Dev.setFeb_ctr (k : Nat) (x : Feb) : (d.setFeb k x).ctr = d.ctr := rfl
@[simp] theorem Dev.setFeb_cmd (k : Nat) (x : Feb) : (d.setFeb k x).cmd = d.cmd := rfl
@[simp] theorem Dev.setFeb_dmas (k : Nat) (x : Feb) : (d.setFeb k x).dmas = d.dmas := rfl
@[simp] theorem Dev.setFeb_tap (k : Nat) (x : Feb) : (d.setFeb k x).tap = d.tap := rfl
@[simp] theorem Dev.setFeb_telCe (k : Nat) (x : Feb) : (d.setFeb k x).telCe = d.telCe := rfl
@[simp] theorem Dev.setAcq_basted (u : Nat) (x : Acq) : (d.setAcq u x).basted = d.basted := rfl
@[simp] theorem Dev.setAcq_dirty (u : Nat) (x : Acq) : (d.setAcq u x).dirty = d.dirty := rfl
@[simp] theorem Dev.setAcq_msix (u : Nat) (x : Acq) : (d.setAcq u x).msix = d.msix := rfl
@[simp] theorem Dev.setAcq_pba (u : Nat) (x : Acq) : (d.setAcq u x).pba = d.pba := rfl
@[simp] theorem Dev.setAcq_msixEn (u : Nat) (x : Acq) : (d.setAcq u x).msixEn = d.msixEn := rfl
@[simp] theorem Dev.setAcq_msixFn (u : Nat) (x : Acq) : (d.setAcq u x).msixFn = d.msixFn := rfl
@[simp] theorem Dev.setAcq_errs (u : Nat) (x : Acq) : (d.setAcq u x).errs = d.errs := rfl
@[simp] theorem Dev.setAcq_sewMsg (u : Nat) (x : Acq) : (d.setAcq u x).sewMsg = d.sewMsg := rfl
@[simp] theorem Dev.setAcq_sews (u : Nat) (x : Acq) : (d.setAcq u x).sews = d.sews := rfl
@[simp] theorem Dev.setAcq_modeChg (u : Nat) (x : Acq) : (d.setAcq u x).modeChg = d.modeChg := rfl
@[simp] theorem Dev.setAcq_far (u : Nat) (x : Acq) : (d.setAcq u x).far = d.far := rfl
@[simp] theorem Dev.setAcq_farQ (u : Nat) (x : Acq) : (d.setAcq u x).farQ = d.farQ := rfl
@[simp] theorem Dev.setAcq_calRead (u : Nat) (x : Acq) : (d.setAcq u x).calRead = d.calRead := rfl
@[simp] theorem Dev.setAcq_ahead (u : Nat) (x : Acq) : (d.setAcq u x).ahead = d.ahead := rfl
@[simp] theorem Dev.setAcq_seamQ (u : Nat) (x : Acq) : (d.setAcq u x).seamQ = d.seamQ := rfl
@[simp] theorem Dev.setAcq_seen (u : Nat) (x : Acq) : (d.setAcq u x).seen = d.seen := rfl
@[simp] theorem Dev.setAcq_tieIn (u : Nat) (x : Acq) : (d.setAcq u x).tieIn = d.tieIn := rfl
@[simp] theorem Dev.setAcq_tieGot (u : Nat) (x : Acq) : (d.setAcq u x).tieGot = d.tieGot := rfl
@[simp] theorem Dev.setAcq_ethSlow (u : Nat) (x : Acq) : (d.setAcq u x).ethSlow = d.ethSlow := rfl
@[simp] theorem Dev.setAcq_flTurn (u : Nat) (x : Acq) : (d.setAcq u x).flTurn = d.flTurn := rfl
@[simp] theorem Dev.setAcq_ethAt (u : Nat) (x : Acq) : (d.setAcq u x).ethAt = d.ethAt := rfl
@[simp] theorem Dev.setAcq_ports (u : Nat) (x : Acq) : (d.setAcq u x).ports = d.ports := rfl
@[simp] theorem Dev.setAcq_heard (u : Nat) (x : Acq) : (d.setAcq u x).heard = d.heard := rfl
@[simp] theorem Dev.setAcq_lanes (u : Nat) (x : Acq) : (d.setAcq u x).lanes = d.lanes := rfl
@[simp] theorem Dev.setAcq_drcs (u : Nat) (x : Acq) : (d.setAcq u x).drcs = d.drcs := rfl
@[simp] theorem Dev.setAcq_pwr (u : Nat) (x : Acq) : (d.setAcq u x).pwr = d.pwr := rfl
@[simp] theorem Dev.setAcq_quies (u : Nat) (x : Acq) : (d.setAcq u x).quies = d.quies := rfl
@[simp] theorem Dev.setAcq_kept (u : Nat) (x : Acq) : (d.setAcq u x).kept = d.kept := rfl
@[simp] theorem Dev.setAcq_rstWin (u : Nat) (x : Acq) : (d.setAcq u x).rstWin = d.rstWin := rfl
@[simp] theorem Dev.setAcq_cal (u : Nat) (x : Acq) : (d.setAcq u x).cal = d.cal := rfl
@[simp] theorem Dev.setAcq_thim (u : Nat) (x : Acq) : (d.setAcq u x).thim = d.thim := rfl
@[simp] theorem Dev.setAcq_ctr (u : Nat) (x : Acq) : (d.setAcq u x).ctr = d.ctr := rfl
@[simp] theorem Dev.setAcq_cmd (u : Nat) (x : Acq) : (d.setAcq u x).cmd = d.cmd := rfl
@[simp] theorem Dev.setAcq_dmas (u : Nat) (x : Acq) : (d.setAcq u x).dmas = d.dmas := rfl
@[simp] theorem Dev.setAcq_tap (u : Nat) (x : Acq) : (d.setAcq u x).tap = d.tap := rfl
@[simp] theorem Dev.setAcq_telCe (u : Nat) (x : Acq) : (d.setAcq u x).telCe = d.telCe := rfl
@[simp] theorem Dev.setLink_basted (r : Nat) (x : Link) : (d.setLink r x).basted = d.basted := rfl
@[simp] theorem Dev.setLink_dirty (r : Nat) (x : Link) : (d.setLink r x).dirty = d.dirty := rfl
@[simp] theorem Dev.setLink_msix (r : Nat) (x : Link) : (d.setLink r x).msix = d.msix := rfl
@[simp] theorem Dev.setLink_pba (r : Nat) (x : Link) : (d.setLink r x).pba = d.pba := rfl
@[simp] theorem Dev.setLink_msixEn (r : Nat) (x : Link) : (d.setLink r x).msixEn = d.msixEn := rfl
@[simp] theorem Dev.setLink_msixFn (r : Nat) (x : Link) : (d.setLink r x).msixFn = d.msixFn := rfl
@[simp] theorem Dev.setLink_errs (r : Nat) (x : Link) : (d.setLink r x).errs = d.errs := rfl
@[simp] theorem Dev.setLink_sewMsg (r : Nat) (x : Link) : (d.setLink r x).sewMsg = d.sewMsg := rfl
@[simp] theorem Dev.setLink_sews (r : Nat) (x : Link) : (d.setLink r x).sews = d.sews := rfl
@[simp] theorem Dev.setLink_modeChg (r : Nat) (x : Link) : (d.setLink r x).modeChg = d.modeChg := rfl
@[simp] theorem Dev.setLink_far (r : Nat) (x : Link) : (d.setLink r x).far = d.far := rfl
@[simp] theorem Dev.setLink_farQ (r : Nat) (x : Link) : (d.setLink r x).farQ = d.farQ := rfl
@[simp] theorem Dev.setLink_calRead (r : Nat) (x : Link) : (d.setLink r x).calRead = d.calRead := rfl
@[simp] theorem Dev.setLink_ahead (r : Nat) (x : Link) : (d.setLink r x).ahead = d.ahead := rfl
@[simp] theorem Dev.setLink_seamQ (r : Nat) (x : Link) : (d.setLink r x).seamQ = d.seamQ := rfl
@[simp] theorem Dev.setLink_seen (r : Nat) (x : Link) : (d.setLink r x).seen = d.seen := rfl
@[simp] theorem Dev.setLink_tieIn (r : Nat) (x : Link) : (d.setLink r x).tieIn = d.tieIn := rfl
@[simp] theorem Dev.setLink_tieGot (r : Nat) (x : Link) : (d.setLink r x).tieGot = d.tieGot := rfl
@[simp] theorem Dev.setLink_ethSlow (r : Nat) (x : Link) : (d.setLink r x).ethSlow = d.ethSlow := rfl
@[simp] theorem Dev.setLink_flTurn (r : Nat) (x : Link) : (d.setLink r x).flTurn = d.flTurn := rfl
@[simp] theorem Dev.setLink_ethAt (r : Nat) (x : Link) : (d.setLink r x).ethAt = d.ethAt := rfl
@[simp] theorem Dev.setLink_ports (r : Nat) (x : Link) : (d.setLink r x).ports = d.ports := rfl
@[simp] theorem Dev.setLink_heard (r : Nat) (x : Link) : (d.setLink r x).heard = d.heard := rfl
@[simp] theorem Dev.setLink_lanes (r : Nat) (x : Link) : (d.setLink r x).lanes = d.lanes := rfl
@[simp] theorem Dev.setLink_drcs (r : Nat) (x : Link) : (d.setLink r x).drcs = d.drcs := rfl
@[simp] theorem Dev.setLink_pwr (r : Nat) (x : Link) : (d.setLink r x).pwr = d.pwr := rfl
@[simp] theorem Dev.setLink_quies (r : Nat) (x : Link) : (d.setLink r x).quies = d.quies := rfl
@[simp] theorem Dev.setLink_kept (r : Nat) (x : Link) : (d.setLink r x).kept = d.kept := rfl
@[simp] theorem Dev.setLink_rstWin (r : Nat) (x : Link) : (d.setLink r x).rstWin = d.rstWin := rfl
@[simp] theorem Dev.setLink_cal (r : Nat) (x : Link) : (d.setLink r x).cal = d.cal := rfl
@[simp] theorem Dev.setLink_thim (r : Nat) (x : Link) : (d.setLink r x).thim = d.thim := rfl
@[simp] theorem Dev.setLink_ctr (r : Nat) (x : Link) : (d.setLink r x).ctr = d.ctr := rfl
@[simp] theorem Dev.setLink_cmd (r : Nat) (x : Link) : (d.setLink r x).cmd = d.cmd := rfl
@[simp] theorem Dev.setLink_dmas (r : Nat) (x : Link) : (d.setLink r x).dmas = d.dmas := rfl
@[simp] theorem Dev.setLink_tap (r : Nat) (x : Link) : (d.setLink r x).tap = d.tap := rfl
@[simp] theorem Dev.setLink_telCe (r : Nat) (x : Link) : (d.setLink r x).telCe = d.telCe := rfl
@[simp] theorem Dev.setDdc_basted (u : Nat) (x : Ddc) : (d.setDdc u x).basted = d.basted := rfl
@[simp] theorem Dev.setDdc_dirty (u : Nat) (x : Ddc) : (d.setDdc u x).dirty = d.dirty := rfl
@[simp] theorem Dev.setDdc_msix (u : Nat) (x : Ddc) : (d.setDdc u x).msix = d.msix := rfl
@[simp] theorem Dev.setDdc_pba (u : Nat) (x : Ddc) : (d.setDdc u x).pba = d.pba := rfl
@[simp] theorem Dev.setDdc_msixEn (u : Nat) (x : Ddc) : (d.setDdc u x).msixEn = d.msixEn := rfl
@[simp] theorem Dev.setDdc_msixFn (u : Nat) (x : Ddc) : (d.setDdc u x).msixFn = d.msixFn := rfl
@[simp] theorem Dev.setDdc_errs (u : Nat) (x : Ddc) : (d.setDdc u x).errs = d.errs := rfl
@[simp] theorem Dev.setDdc_sewMsg (u : Nat) (x : Ddc) : (d.setDdc u x).sewMsg = d.sewMsg := rfl
@[simp] theorem Dev.setDdc_sews (u : Nat) (x : Ddc) : (d.setDdc u x).sews = d.sews := rfl
@[simp] theorem Dev.setDdc_modeChg (u : Nat) (x : Ddc) : (d.setDdc u x).modeChg = d.modeChg := rfl
@[simp] theorem Dev.setDdc_far (u : Nat) (x : Ddc) : (d.setDdc u x).far = d.far := rfl
@[simp] theorem Dev.setDdc_farQ (u : Nat) (x : Ddc) : (d.setDdc u x).farQ = d.farQ := rfl
@[simp] theorem Dev.setDdc_calRead (u : Nat) (x : Ddc) : (d.setDdc u x).calRead = d.calRead := rfl
@[simp] theorem Dev.setDdc_ahead (u : Nat) (x : Ddc) : (d.setDdc u x).ahead = d.ahead := rfl
@[simp] theorem Dev.setDdc_seamQ (u : Nat) (x : Ddc) : (d.setDdc u x).seamQ = d.seamQ := rfl
@[simp] theorem Dev.setDdc_seen (u : Nat) (x : Ddc) : (d.setDdc u x).seen = d.seen := rfl
@[simp] theorem Dev.setDdc_tieIn (u : Nat) (x : Ddc) : (d.setDdc u x).tieIn = d.tieIn := rfl
@[simp] theorem Dev.setDdc_tieGot (u : Nat) (x : Ddc) : (d.setDdc u x).tieGot = d.tieGot := rfl
@[simp] theorem Dev.setDdc_ethSlow (u : Nat) (x : Ddc) : (d.setDdc u x).ethSlow = d.ethSlow := rfl
@[simp] theorem Dev.setDdc_flTurn (u : Nat) (x : Ddc) : (d.setDdc u x).flTurn = d.flTurn := rfl
@[simp] theorem Dev.setDdc_ethAt (u : Nat) (x : Ddc) : (d.setDdc u x).ethAt = d.ethAt := rfl
@[simp] theorem Dev.setDdc_ports (u : Nat) (x : Ddc) : (d.setDdc u x).ports = d.ports := rfl
@[simp] theorem Dev.setDdc_heard (u : Nat) (x : Ddc) : (d.setDdc u x).heard = d.heard := rfl
@[simp] theorem Dev.setDdc_lanes (u : Nat) (x : Ddc) : (d.setDdc u x).lanes = d.lanes := rfl
@[simp] theorem Dev.setDdc_drcs (u : Nat) (x : Ddc) : (d.setDdc u x).drcs = d.drcs := rfl
@[simp] theorem Dev.setDdc_pwr (u : Nat) (x : Ddc) : (d.setDdc u x).pwr = d.pwr := rfl
@[simp] theorem Dev.setDdc_quies (u : Nat) (x : Ddc) : (d.setDdc u x).quies = d.quies := rfl
@[simp] theorem Dev.setDdc_kept (u : Nat) (x : Ddc) : (d.setDdc u x).kept = d.kept := rfl
@[simp] theorem Dev.setDdc_rstWin (u : Nat) (x : Ddc) : (d.setDdc u x).rstWin = d.rstWin := rfl
@[simp] theorem Dev.setDdc_cal (u : Nat) (x : Ddc) : (d.setDdc u x).cal = d.cal := rfl
@[simp] theorem Dev.setDdc_thim (u : Nat) (x : Ddc) : (d.setDdc u x).thim = d.thim := rfl
@[simp] theorem Dev.setDdc_ctr (u : Nat) (x : Ddc) : (d.setDdc u x).ctr = d.ctr := rfl
@[simp] theorem Dev.setDdc_cmd (u : Nat) (x : Ddc) : (d.setDdc u x).cmd = d.cmd := rfl
@[simp] theorem Dev.setDdc_dmas (u : Nat) (x : Ddc) : (d.setDdc u x).dmas = d.dmas := rfl
@[simp] theorem Dev.setDdc_tap (u : Nat) (x : Ddc) : (d.setDdc u x).tap = d.tap := rfl
@[simp] theorem Dev.setDdc_telCe (u : Nat) (x : Ddc) : (d.setDdc u x).telCe = d.telCe := rfl
@[simp] theorem Dev.setAwg_basted (g : Nat) (x : Awg) : (d.setAwg g x).basted = d.basted := rfl
@[simp] theorem Dev.setAwg_dirty (g : Nat) (x : Awg) : (d.setAwg g x).dirty = d.dirty := rfl
@[simp] theorem Dev.setAwg_msix (g : Nat) (x : Awg) : (d.setAwg g x).msix = d.msix := rfl
@[simp] theorem Dev.setAwg_pba (g : Nat) (x : Awg) : (d.setAwg g x).pba = d.pba := rfl
@[simp] theorem Dev.setAwg_msixEn (g : Nat) (x : Awg) : (d.setAwg g x).msixEn = d.msixEn := rfl
@[simp] theorem Dev.setAwg_msixFn (g : Nat) (x : Awg) : (d.setAwg g x).msixFn = d.msixFn := rfl
@[simp] theorem Dev.setAwg_errs (g : Nat) (x : Awg) : (d.setAwg g x).errs = d.errs := rfl
@[simp] theorem Dev.setAwg_sewMsg (g : Nat) (x : Awg) : (d.setAwg g x).sewMsg = d.sewMsg := rfl
@[simp] theorem Dev.setAwg_sews (g : Nat) (x : Awg) : (d.setAwg g x).sews = d.sews := rfl
@[simp] theorem Dev.setAwg_modeChg (g : Nat) (x : Awg) : (d.setAwg g x).modeChg = d.modeChg := rfl
@[simp] theorem Dev.setAwg_far (g : Nat) (x : Awg) : (d.setAwg g x).far = d.far := rfl
@[simp] theorem Dev.setAwg_farQ (g : Nat) (x : Awg) : (d.setAwg g x).farQ = d.farQ := rfl
@[simp] theorem Dev.setAwg_calRead (g : Nat) (x : Awg) : (d.setAwg g x).calRead = d.calRead := rfl
@[simp] theorem Dev.setAwg_ahead (g : Nat) (x : Awg) : (d.setAwg g x).ahead = d.ahead := rfl
@[simp] theorem Dev.setAwg_seamQ (g : Nat) (x : Awg) : (d.setAwg g x).seamQ = d.seamQ := rfl
@[simp] theorem Dev.setAwg_seen (g : Nat) (x : Awg) : (d.setAwg g x).seen = d.seen := rfl
@[simp] theorem Dev.setAwg_tieIn (g : Nat) (x : Awg) : (d.setAwg g x).tieIn = d.tieIn := rfl
@[simp] theorem Dev.setAwg_tieGot (g : Nat) (x : Awg) : (d.setAwg g x).tieGot = d.tieGot := rfl
@[simp] theorem Dev.setAwg_ethSlow (g : Nat) (x : Awg) : (d.setAwg g x).ethSlow = d.ethSlow := rfl
@[simp] theorem Dev.setAwg_flTurn (g : Nat) (x : Awg) : (d.setAwg g x).flTurn = d.flTurn := rfl
@[simp] theorem Dev.setAwg_ethAt (g : Nat) (x : Awg) : (d.setAwg g x).ethAt = d.ethAt := rfl
@[simp] theorem Dev.setAwg_ports (g : Nat) (x : Awg) : (d.setAwg g x).ports = d.ports := rfl
@[simp] theorem Dev.setAwg_heard (g : Nat) (x : Awg) : (d.setAwg g x).heard = d.heard := rfl
@[simp] theorem Dev.setAwg_lanes (g : Nat) (x : Awg) : (d.setAwg g x).lanes = d.lanes := rfl
@[simp] theorem Dev.setAwg_drcs (g : Nat) (x : Awg) : (d.setAwg g x).drcs = d.drcs := rfl
@[simp] theorem Dev.setAwg_pwr (g : Nat) (x : Awg) : (d.setAwg g x).pwr = d.pwr := rfl
@[simp] theorem Dev.setAwg_quies (g : Nat) (x : Awg) : (d.setAwg g x).quies = d.quies := rfl
@[simp] theorem Dev.setAwg_kept (g : Nat) (x : Awg) : (d.setAwg g x).kept = d.kept := rfl
@[simp] theorem Dev.setAwg_rstWin (g : Nat) (x : Awg) : (d.setAwg g x).rstWin = d.rstWin := rfl
@[simp] theorem Dev.setAwg_cal (g : Nat) (x : Awg) : (d.setAwg g x).cal = d.cal := rfl
@[simp] theorem Dev.setAwg_thim (g : Nat) (x : Awg) : (d.setAwg g x).thim = d.thim := rfl
@[simp] theorem Dev.setAwg_ctr (g : Nat) (x : Awg) : (d.setAwg g x).ctr = d.ctr := rfl
@[simp] theorem Dev.setAwg_cmd (g : Nat) (x : Awg) : (d.setAwg g x).cmd = d.cmd := rfl
@[simp] theorem Dev.setAwg_dmas (g : Nat) (x : Awg) : (d.setAwg g x).dmas = d.dmas := rfl
@[simp] theorem Dev.setAwg_tap (g : Nat) (x : Awg) : (d.setAwg g x).tap = d.tap := rfl
@[simp] theorem Dev.setAwg_telCe (g : Nat) (x : Awg) : (d.setAwg g x).telCe = d.telCe := rfl
@[simp] theorem Dev.setFt_basted (f : Nat) (x : Ft) : (d.setFt f x).basted = d.basted := rfl
@[simp] theorem Dev.setFt_dirty (f : Nat) (x : Ft) : (d.setFt f x).dirty = d.dirty := rfl
@[simp] theorem Dev.setFt_msix (f : Nat) (x : Ft) : (d.setFt f x).msix = d.msix := rfl
@[simp] theorem Dev.setFt_pba (f : Nat) (x : Ft) : (d.setFt f x).pba = d.pba := rfl
@[simp] theorem Dev.setFt_msixEn (f : Nat) (x : Ft) : (d.setFt f x).msixEn = d.msixEn := rfl
@[simp] theorem Dev.setFt_msixFn (f : Nat) (x : Ft) : (d.setFt f x).msixFn = d.msixFn := rfl
@[simp] theorem Dev.setFt_errs (f : Nat) (x : Ft) : (d.setFt f x).errs = d.errs := rfl
@[simp] theorem Dev.setFt_sewMsg (f : Nat) (x : Ft) : (d.setFt f x).sewMsg = d.sewMsg := rfl
@[simp] theorem Dev.setFt_sews (f : Nat) (x : Ft) : (d.setFt f x).sews = d.sews := rfl
@[simp] theorem Dev.setFt_modeChg (f : Nat) (x : Ft) : (d.setFt f x).modeChg = d.modeChg := rfl
@[simp] theorem Dev.setFt_far (f : Nat) (x : Ft) : (d.setFt f x).far = d.far := rfl
@[simp] theorem Dev.setFt_farQ (f : Nat) (x : Ft) : (d.setFt f x).farQ = d.farQ := rfl
@[simp] theorem Dev.setFt_calRead (f : Nat) (x : Ft) : (d.setFt f x).calRead = d.calRead := rfl
@[simp] theorem Dev.setFt_ahead (f : Nat) (x : Ft) : (d.setFt f x).ahead = d.ahead := rfl
@[simp] theorem Dev.setFt_seamQ (f : Nat) (x : Ft) : (d.setFt f x).seamQ = d.seamQ := rfl
@[simp] theorem Dev.setFt_seen (f : Nat) (x : Ft) : (d.setFt f x).seen = d.seen := rfl
@[simp] theorem Dev.setFt_tieIn (f : Nat) (x : Ft) : (d.setFt f x).tieIn = d.tieIn := rfl
@[simp] theorem Dev.setFt_tieGot (f : Nat) (x : Ft) : (d.setFt f x).tieGot = d.tieGot := rfl
@[simp] theorem Dev.setFt_ethSlow (f : Nat) (x : Ft) : (d.setFt f x).ethSlow = d.ethSlow := rfl
@[simp] theorem Dev.setFt_flTurn (f : Nat) (x : Ft) : (d.setFt f x).flTurn = d.flTurn := rfl
@[simp] theorem Dev.setFt_ethAt (f : Nat) (x : Ft) : (d.setFt f x).ethAt = d.ethAt := rfl
@[simp] theorem Dev.setFt_ports (f : Nat) (x : Ft) : (d.setFt f x).ports = d.ports := rfl
@[simp] theorem Dev.setFt_heard (f : Nat) (x : Ft) : (d.setFt f x).heard = d.heard := rfl
@[simp] theorem Dev.setFt_lanes (f : Nat) (x : Ft) : (d.setFt f x).lanes = d.lanes := rfl
@[simp] theorem Dev.setFt_drcs (f : Nat) (x : Ft) : (d.setFt f x).drcs = d.drcs := rfl
@[simp] theorem Dev.setFt_pwr (f : Nat) (x : Ft) : (d.setFt f x).pwr = d.pwr := rfl
@[simp] theorem Dev.setFt_quies (f : Nat) (x : Ft) : (d.setFt f x).quies = d.quies := rfl
@[simp] theorem Dev.setFt_kept (f : Nat) (x : Ft) : (d.setFt f x).kept = d.kept := rfl
@[simp] theorem Dev.setFt_rstWin (f : Nat) (x : Ft) : (d.setFt f x).rstWin = d.rstWin := rfl
@[simp] theorem Dev.setFt_cal (f : Nat) (x : Ft) : (d.setFt f x).cal = d.cal := rfl
@[simp] theorem Dev.setFt_thim (f : Nat) (x : Ft) : (d.setFt f x).thim = d.thim := rfl
@[simp] theorem Dev.setFt_ctr (f : Nat) (x : Ft) : (d.setFt f x).ctr = d.ctr := rfl
@[simp] theorem Dev.setFt_cmd (f : Nat) (x : Ft) : (d.setFt f x).cmd = d.cmd := rfl
@[simp] theorem Dev.setFt_dmas (f : Nat) (x : Ft) : (d.setFt f x).dmas = d.dmas := rfl
@[simp] theorem Dev.setFt_tap (f : Nat) (x : Ft) : (d.setFt f x).tap = d.tap := rfl
@[simp] theorem Dev.setFt_telCe (f : Nat) (x : Ft) : (d.setFt f x).telCe = d.telCe := rfl
@[simp] theorem Dev.emit_basted (o : Out) : (d.emit o).basted = d.basted := rfl
@[simp] theorem Dev.emit_dirty (o : Out) : (d.emit o).dirty = d.dirty := rfl
@[simp] theorem Dev.emit_msix (o : Out) : (d.emit o).msix = d.msix := rfl
@[simp] theorem Dev.emit_pba (o : Out) : (d.emit o).pba = d.pba := rfl
@[simp] theorem Dev.emit_msixEn (o : Out) : (d.emit o).msixEn = d.msixEn := rfl
@[simp] theorem Dev.emit_msixFn (o : Out) : (d.emit o).msixFn = d.msixFn := rfl
@[simp] theorem Dev.emit_errs (o : Out) : (d.emit o).errs = d.errs := rfl
@[simp] theorem Dev.emit_sewMsg (o : Out) : (d.emit o).sewMsg = d.sewMsg := rfl
@[simp] theorem Dev.emit_sews (o : Out) : (d.emit o).sews = d.sews := rfl
@[simp] theorem Dev.emit_modeChg (o : Out) : (d.emit o).modeChg = d.modeChg := rfl
@[simp] theorem Dev.emit_far (o : Out) : (d.emit o).far = d.far := rfl
@[simp] theorem Dev.emit_farQ (o : Out) : (d.emit o).farQ = d.farQ := rfl
@[simp] theorem Dev.emit_calRead (o : Out) : (d.emit o).calRead = d.calRead := rfl
@[simp] theorem Dev.emit_ahead (o : Out) : (d.emit o).ahead = d.ahead := rfl
@[simp] theorem Dev.emit_seamQ (o : Out) : (d.emit o).seamQ = d.seamQ := rfl
@[simp] theorem Dev.emit_seen (o : Out) : (d.emit o).seen = d.seen := rfl
@[simp] theorem Dev.emit_tieIn (o : Out) : (d.emit o).tieIn = d.tieIn := rfl
@[simp] theorem Dev.emit_tieGot (o : Out) : (d.emit o).tieGot = d.tieGot := rfl
@[simp] theorem Dev.emit_ethSlow (o : Out) : (d.emit o).ethSlow = d.ethSlow := rfl
@[simp] theorem Dev.emit_flTurn (o : Out) : (d.emit o).flTurn = d.flTurn := rfl
@[simp] theorem Dev.emit_ethAt (o : Out) : (d.emit o).ethAt = d.ethAt := rfl
@[simp] theorem Dev.emit_ports (o : Out) : (d.emit o).ports = d.ports := rfl
@[simp] theorem Dev.emit_heard (o : Out) : (d.emit o).heard = d.heard := rfl
@[simp] theorem Dev.emit_lanes (o : Out) : (d.emit o).lanes = d.lanes := rfl
@[simp] theorem Dev.emit_drcs (o : Out) : (d.emit o).drcs = d.drcs := rfl
@[simp] theorem Dev.emit_pwr (o : Out) : (d.emit o).pwr = d.pwr := rfl
@[simp] theorem Dev.emit_quies (o : Out) : (d.emit o).quies = d.quies := rfl
@[simp] theorem Dev.emit_kept (o : Out) : (d.emit o).kept = d.kept := rfl
@[simp] theorem Dev.emit_rstWin (o : Out) : (d.emit o).rstWin = d.rstWin := rfl
@[simp] theorem Dev.emit_cal (o : Out) : (d.emit o).cal = d.cal := rfl
@[simp] theorem Dev.emit_thim (o : Out) : (d.emit o).thim = d.thim := rfl
@[simp] theorem Dev.emit_ctr (o : Out) : (d.emit o).ctr = d.ctr := rfl
@[simp] theorem Dev.emit_cmd (o : Out) : (d.emit o).cmd = d.cmd := rfl
@[simp] theorem Dev.emit_dmas (o : Out) : (d.emit o).dmas = d.dmas := rfl
@[simp] theorem Dev.emit_tap (o : Out) : (d.emit o).tap = d.tap := rfl
@[simp] theorem Dev.emit_telCe (o : Out) : (d.emit o).telCe = d.telCe := rfl
@[simp] theorem Dev.emit_lane (o : Out) (i : Nat) : (d.emit o).lane i = d.lane i := rfl
@[simp] theorem Dev.emit_port (o : Out) (i : Nat) : (d.emit o).port i = d.port i := rfl
@[simp] theorem Dev.emit_drc (o : Out) (i : Nat) : (d.emit o).drc i = d.drc i := rfl
@[simp] theorem Dev.emit_sew (o : Out) (i : Nat) : (d.emit o).sew i = d.sew i := rfl
@[simp] theorem Dev.emit_out (o : Out) : (d.emit o).out = d.out ++ [o] := rfl

/-! ## Interrupts, log entries and the clock -/

/-- Everything but registers, the log, what was sent and the pending bits is as before. -/
structure Dev.Tells (d t : Dev) : Prop where
  key : ∀ j : RegKey, j.f ∉ reportFields → t.key j = d.key j
  rest : ∃ r l o p, t = { d with regs := r, log := l, out := o, pba := p }

theorem Dev.Tells.refl (d : Dev) : Dev.Tells d d := ⟨fun _ _ => rfl, _, _, _, _, rfl⟩

theorem Dev.Tells.trans {a b c : Dev} (h : Dev.Tells a b) (h' : Dev.Tells b c) : Dev.Tells a c := by
  refine ⟨fun j hj => (h'.key j hj).trans (h.key j hj), ?_⟩
  obtain ⟨r, l, o, p, e⟩ := h.rest
  obtain ⟨r', l', o', p', e'⟩ := h'.rest
  exact ⟨r', l', o', p', by rw [e', e]⟩

theorem Dev.setKey_tells (k : RegKey) (v : Nat) (h : k.f ∈ reportFields) : Dev.Tells d (d.setKey k v) :=
  ⟨fun _ hj => Dev.key_setKey_ne d v (fun e => hj (e ▸ h)), _, _, _, _, rfl⟩

theorem Dev.send_tells (v : Nat) : Dev.Tells d (d.send v) := by
  unfold Dev.send
  split <;> exact ⟨fun _ _ => rfl, _, _, _, _, rfl⟩

theorem Dev.irq_tells (v : Nat) : Dev.Tells d (d.irq v) := by
  unfold Dev.irq
  dsimp only
  split
  · exact Dev.Tells.refl d
  · exact (Dev.setKey_tells d _ _ (show Field.HOST_IRQ_STAT_PEND ∈ reportFields by decide)).trans (Dev.send_tells _ _)

theorem Dev.logStamped_tells (st b k u p : Nat) : Dev.Tells d (d.logStamped st b k u p) := by
  have hl : ∀ l, Dev.Tells d { d with log := l } := fun _ => ⟨fun _ _ => rfl, _, _, _, _, rfl⟩
  have ho : ∀ x : Dev, Dev.Tells x (x.st .HOST_LOG_STAT_OVF 0 1) := fun x =>
    Dev.setKey_tells x _ _ (show Field.HOST_LOG_STAT_OVF ∈ reportFields by decide)
  unfold Dev.logStamped
  dsimp only
  repeat' split
  · exact (hl _).trans (Dev.irq_tells _ _)
  · exact hl _
  · exact (hl _).trans (ho _)
  · exact ((hl _).trans (ho _)).trans (Dev.irq_tells _ _)

theorem Dev.logEv_tells (b k u p : Nat) : Dev.Tells d (d.logEv b k u p) := Dev.logStamped_tells ..

/-- Moving the clock moves device time with it and nothing else. -/
theorem Dev.advanceTo_clock (k : Nat) : ∃ n t, d.advanceTo k = { d with tick := n, time := t } := by
  unfold Dev.advanceTo
  split
  · exact ⟨_, _, rfl⟩
  · exact ⟨d.tick, d.time, rfl⟩

@[simp] theorem Dev.send_key (v : Nat) {j : RegKey} (h : j.f ∉ reportFields) : (d.send v).key j = d.key j :=
  (Dev.send_tells d v).key j h
@[simp] theorem Dev.send_basted (v : Nat) : (d.send v).basted = d.basted := by
  obtain ⟨_, _, _, _, h⟩ := (Dev.send_tells d v).rest; rw [h]
@[simp] theorem Dev.send_dirty (v : Nat) : (d.send v).dirty = d.dirty := by
  obtain ⟨_, _, _, _, h⟩ := (Dev.send_tells d v).rest; rw [h]
@[simp] theorem Dev.send_taken (v : Nat) : (d.send v).taken = d.taken := by
  obtain ⟨_, _, _, _, h⟩ := (Dev.send_tells d v).rest; rw [h]
@[simp] theorem Dev.send_tick (v : Nat) : (d.send v).tick = d.tick := by
  obtain ⟨_, _, _, _, h⟩ := (Dev.send_tells d v).rest; rw [h]
@[simp] theorem Dev.send_free (v : Nat) : (d.send v).free = d.free := by
  obtain ⟨_, _, _, _, h⟩ := (Dev.send_tells d v).rest; rw [h]
@[simp] theorem Dev.send_time (v : Nat) : (d.send v).time = d.time := by
  obtain ⟨_, _, _, _, h⟩ := (Dev.send_tells d v).rest; rw [h]
@[simp] theorem Dev.send_msix (v : Nat) : (d.send v).msix = d.msix := by
  obtain ⟨_, _, _, _, h⟩ := (Dev.send_tells d v).rest; rw [h]
@[simp] theorem Dev.send_msixEn (v : Nat) : (d.send v).msixEn = d.msixEn := by
  obtain ⟨_, _, _, _, h⟩ := (Dev.send_tells d v).rest; rw [h]
@[simp] theorem Dev.send_msixFn (v : Nat) : (d.send v).msixFn = d.msixFn := by
  obtain ⟨_, _, _, _, h⟩ := (Dev.send_tells d v).rest; rw [h]
@[simp] theorem Dev.send_poison (v : Nat) : (d.send v).poison = d.poison := by
  obtain ⟨_, _, _, _, h⟩ := (Dev.send_tells d v).rest; rw [h]
@[simp] theorem Dev.send_errs (v : Nat) : (d.send v).errs = d.errs := by
  obtain ⟨_, _, _, _, h⟩ := (Dev.send_tells d v).rest; rw [h]
@[simp] theorem Dev.send_engs (v : Nat) : (d.send v).engs = d.engs := by
  obtain ⟨_, _, _, _, h⟩ := (Dev.send_tells d v).rest; rw [h]
@[simp] theorem Dev.send_eng (v : Nat) (i : Nat) : (d.send v).eng i = d.eng i := by
  obtain ⟨_, _, _, _, h⟩ := (Dev.send_tells d v).rest; rw [h]; rfl
@[simp] theorem Dev.send_chans (v : Nat) : (d.send v).chans = d.chans := by
  obtain ⟨_, _, _, _, h⟩ := (Dev.send_tells d v).rest; rw [h]
@[simp] theorem Dev.send_chan (v : Nat) (i : Nat) : (d.send v).chan i = d.chan i := by
  obtain ⟨_, _, _, _, h⟩ := (Dev.send_tells d v).rest; rw [h]; rfl
@[simp] theorem Dev.send_febs (v : Nat) : (d.send v).febs = d.febs := by
  obtain ⟨_, _, _, _, h⟩ := (Dev.send_tells d v).rest; rw [h]
@[simp] theorem Dev.send_feb (v : Nat) (i : Nat) : (d.send v).feb i = d.feb i := by
  obtain ⟨_, _, _, _, h⟩ := (Dev.send_tells d v).rest; rw [h]; rfl
@[simp] theorem Dev.send_fts (v : Nat) : (d.send v).fts = d.fts := by
  obtain ⟨_, _, _, _, h⟩ := (Dev.send_tells d v).rest; rw [h]
@[simp] theorem Dev.send_ft (v : Nat) (i : Nat) : (d.send v).ft i = d.ft i := by
  obtain ⟨_, _, _, _, h⟩ := (Dev.send_tells d v).rest; rw [h]; rfl
@[simp] theorem Dev.send_sewMsg (v : Nat) : (d.send v).sewMsg = d.sewMsg := by
  obtain ⟨_, _, _, _, h⟩ := (Dev.send_tells d v).rest; rw [h]
@[simp] theorem Dev.send_sews (v : Nat) : (d.send v).sews = d.sews := by
  obtain ⟨_, _, _, _, h⟩ := (Dev.send_tells d v).rest; rw [h]
@[simp] theorem Dev.send_sew (v : Nat) (i : Nat) : (d.send v).sew i = d.sew i := by
  obtain ⟨_, _, _, _, h⟩ := (Dev.send_tells d v).rest; rw [h]; rfl
@[simp] theorem Dev.send_modeChg (v : Nat) : (d.send v).modeChg = d.modeChg := by
  obtain ⟨_, _, _, _, h⟩ := (Dev.send_tells d v).rest; rw [h]
@[simp] theorem Dev.send_far (v : Nat) : (d.send v).far = d.far := by
  obtain ⟨_, _, _, _, h⟩ := (Dev.send_tells d v).rest; rw [h]
@[simp] theorem Dev.send_farQ (v : Nat) : (d.send v).farQ = d.farQ := by
  obtain ⟨_, _, _, _, h⟩ := (Dev.send_tells d v).rest; rw [h]
@[simp] theorem Dev.send_calRead (v : Nat) : (d.send v).calRead = d.calRead := by
  obtain ⟨_, _, _, _, h⟩ := (Dev.send_tells d v).rest; rw [h]
@[simp] theorem Dev.send_acqs (v : Nat) : (d.send v).acqs = d.acqs := by
  obtain ⟨_, _, _, _, h⟩ := (Dev.send_tells d v).rest; rw [h]
@[simp] theorem Dev.send_acq (v : Nat) (i : Nat) : (d.send v).acq i = d.acq i := by
  obtain ⟨_, _, _, _, h⟩ := (Dev.send_tells d v).rest; rw [h]; rfl
@[simp] theorem Dev.send_links (v : Nat) : (d.send v).links = d.links := by
  obtain ⟨_, _, _, _, h⟩ := (Dev.send_tells d v).rest; rw [h]
@[simp] theorem Dev.send_link (v : Nat) (i : Nat) : (d.send v).link i = d.link i := by
  obtain ⟨_, _, _, _, h⟩ := (Dev.send_tells d v).rest; rw [h]; rfl
@[simp] theorem Dev.send_ddcs (v : Nat) : (d.send v).ddcs = d.ddcs := by
  obtain ⟨_, _, _, _, h⟩ := (Dev.send_tells d v).rest; rw [h]
@[simp] theorem Dev.send_ddc (v : Nat) (i : Nat) : (d.send v).ddc i = d.ddc i := by
  obtain ⟨_, _, _, _, h⟩ := (Dev.send_tells d v).rest; rw [h]; rfl
@[simp] theorem Dev.send_awgs (v : Nat) : (d.send v).awgs = d.awgs := by
  obtain ⟨_, _, _, _, h⟩ := (Dev.send_tells d v).rest; rw [h]
@[simp] theorem Dev.send_awg (v : Nat) (i : Nat) : (d.send v).awg i = d.awg i := by
  obtain ⟨_, _, _, _, h⟩ := (Dev.send_tells d v).rest; rw [h]; rfl
@[simp] theorem Dev.send_ahead (v : Nat) : (d.send v).ahead = d.ahead := by
  obtain ⟨_, _, _, _, h⟩ := (Dev.send_tells d v).rest; rw [h]
@[simp] theorem Dev.send_seamQ (v : Nat) : (d.send v).seamQ = d.seamQ := by
  obtain ⟨_, _, _, _, h⟩ := (Dev.send_tells d v).rest; rw [h]
@[simp] theorem Dev.send_seen (v : Nat) : (d.send v).seen = d.seen := by
  obtain ⟨_, _, _, _, h⟩ := (Dev.send_tells d v).rest; rw [h]
@[simp] theorem Dev.send_tieIn (v : Nat) : (d.send v).tieIn = d.tieIn := by
  obtain ⟨_, _, _, _, h⟩ := (Dev.send_tells d v).rest; rw [h]
@[simp] theorem Dev.send_tieGot (v : Nat) : (d.send v).tieGot = d.tieGot := by
  obtain ⟨_, _, _, _, h⟩ := (Dev.send_tells d v).rest; rw [h]
@[simp] theorem Dev.send_ethSlow (v : Nat) : (d.send v).ethSlow = d.ethSlow := by
  obtain ⟨_, _, _, _, h⟩ := (Dev.send_tells d v).rest; rw [h]
@[simp] theorem Dev.send_flTurn (v : Nat) : (d.send v).flTurn = d.flTurn := by
  obtain ⟨_, _, _, _, h⟩ := (Dev.send_tells d v).rest; rw [h]
@[simp] theorem Dev.send_ethAt (v : Nat) : (d.send v).ethAt = d.ethAt := by
  obtain ⟨_, _, _, _, h⟩ := (Dev.send_tells d v).rest; rw [h]
@[simp] theorem Dev.send_ports (v : Nat) : (d.send v).ports = d.ports := by
  obtain ⟨_, _, _, _, h⟩ := (Dev.send_tells d v).rest; rw [h]
@[simp] theorem Dev.send_port (v : Nat) (i : Nat) : (d.send v).port i = d.port i := by
  obtain ⟨_, _, _, _, h⟩ := (Dev.send_tells d v).rest; rw [h]; rfl
@[simp] theorem Dev.send_heard (v : Nat) : (d.send v).heard = d.heard := by
  obtain ⟨_, _, _, _, h⟩ := (Dev.send_tells d v).rest; rw [h]
@[simp] theorem Dev.send_lanes (v : Nat) : (d.send v).lanes = d.lanes := by
  obtain ⟨_, _, _, _, h⟩ := (Dev.send_tells d v).rest; rw [h]
@[simp] theorem Dev.send_lane (v : Nat) (i : Nat) : (d.send v).lane i = d.lane i := by
  obtain ⟨_, _, _, _, h⟩ := (Dev.send_tells d v).rest; rw [h]; rfl
@[simp] theorem Dev.send_drcs (v : Nat) : (d.send v).drcs = d.drcs := by
  obtain ⟨_, _, _, _, h⟩ := (Dev.send_tells d v).rest; rw [h]
@[simp] theorem Dev.send_drc (v : Nat) (i : Nat) : (d.send v).drc i = d.drc i := by
  obtain ⟨_, _, _, _, h⟩ := (Dev.send_tells d v).rest; rw [h]; rfl
@[simp] theorem Dev.send_pwr (v : Nat) : (d.send v).pwr = d.pwr := by
  obtain ⟨_, _, _, _, h⟩ := (Dev.send_tells d v).rest; rw [h]
@[simp] theorem Dev.send_quies (v : Nat) : (d.send v).quies = d.quies := by
  obtain ⟨_, _, _, _, h⟩ := (Dev.send_tells d v).rest; rw [h]
@[simp] theorem Dev.send_kept (v : Nat) : (d.send v).kept = d.kept := by
  obtain ⟨_, _, _, _, h⟩ := (Dev.send_tells d v).rest; rw [h]
@[simp] theorem Dev.send_rstWin (v : Nat) : (d.send v).rstWin = d.rstWin := by
  obtain ⟨_, _, _, _, h⟩ := (Dev.send_tells d v).rest; rw [h]
@[simp] theorem Dev.send_cal (v : Nat) : (d.send v).cal = d.cal := by
  obtain ⟨_, _, _, _, h⟩ := (Dev.send_tells d v).rest; rw [h]
@[simp] theorem Dev.send_thim (v : Nat) : (d.send v).thim = d.thim := by
  obtain ⟨_, _, _, _, h⟩ := (Dev.send_tells d v).rest; rw [h]
@[simp] theorem Dev.send_ctr (v : Nat) : (d.send v).ctr = d.ctr := by
  obtain ⟨_, _, _, _, h⟩ := (Dev.send_tells d v).rest; rw [h]
@[simp] theorem Dev.send_cmd (v : Nat) : (d.send v).cmd = d.cmd := by
  obtain ⟨_, _, _, _, h⟩ := (Dev.send_tells d v).rest; rw [h]
@[simp] theorem Dev.send_dmas (v : Nat) : (d.send v).dmas = d.dmas := by
  obtain ⟨_, _, _, _, h⟩ := (Dev.send_tells d v).rest; rw [h]
@[simp] theorem Dev.send_tap (v : Nat) : (d.send v).tap = d.tap := by
  obtain ⟨_, _, _, _, h⟩ := (Dev.send_tells d v).rest; rw [h]
@[simp] theorem Dev.send_telCe (v : Nat) : (d.send v).telCe = d.telCe := by
  obtain ⟨_, _, _, _, h⟩ := (Dev.send_tells d v).rest; rw [h]
@[simp] theorem Dev.irq_key (v : Nat) {j : RegKey} (h : j.f ∉ reportFields) : (d.irq v).key j = d.key j :=
  (Dev.irq_tells d v).key j h
@[simp] theorem Dev.irq_basted (v : Nat) : (d.irq v).basted = d.basted := by
  obtain ⟨_, _, _, _, h⟩ := (Dev.irq_tells d v).rest; rw [h]
@[simp] theorem Dev.irq_dirty (v : Nat) : (d.irq v).dirty = d.dirty := by
  obtain ⟨_, _, _, _, h⟩ := (Dev.irq_tells d v).rest; rw [h]
@[simp] theorem Dev.irq_taken (v : Nat) : (d.irq v).taken = d.taken := by
  obtain ⟨_, _, _, _, h⟩ := (Dev.irq_tells d v).rest; rw [h]
@[simp] theorem Dev.irq_tick (v : Nat) : (d.irq v).tick = d.tick := by
  obtain ⟨_, _, _, _, h⟩ := (Dev.irq_tells d v).rest; rw [h]
@[simp] theorem Dev.irq_free (v : Nat) : (d.irq v).free = d.free := by
  obtain ⟨_, _, _, _, h⟩ := (Dev.irq_tells d v).rest; rw [h]
@[simp] theorem Dev.irq_time (v : Nat) : (d.irq v).time = d.time := by
  obtain ⟨_, _, _, _, h⟩ := (Dev.irq_tells d v).rest; rw [h]
@[simp] theorem Dev.irq_msix (v : Nat) : (d.irq v).msix = d.msix := by
  obtain ⟨_, _, _, _, h⟩ := (Dev.irq_tells d v).rest; rw [h]
@[simp] theorem Dev.irq_msixEn (v : Nat) : (d.irq v).msixEn = d.msixEn := by
  obtain ⟨_, _, _, _, h⟩ := (Dev.irq_tells d v).rest; rw [h]
@[simp] theorem Dev.irq_msixFn (v : Nat) : (d.irq v).msixFn = d.msixFn := by
  obtain ⟨_, _, _, _, h⟩ := (Dev.irq_tells d v).rest; rw [h]
@[simp] theorem Dev.irq_poison (v : Nat) : (d.irq v).poison = d.poison := by
  obtain ⟨_, _, _, _, h⟩ := (Dev.irq_tells d v).rest; rw [h]
@[simp] theorem Dev.irq_errs (v : Nat) : (d.irq v).errs = d.errs := by
  obtain ⟨_, _, _, _, h⟩ := (Dev.irq_tells d v).rest; rw [h]
@[simp] theorem Dev.irq_engs (v : Nat) : (d.irq v).engs = d.engs := by
  obtain ⟨_, _, _, _, h⟩ := (Dev.irq_tells d v).rest; rw [h]
@[simp] theorem Dev.irq_eng (v : Nat) (i : Nat) : (d.irq v).eng i = d.eng i := by
  obtain ⟨_, _, _, _, h⟩ := (Dev.irq_tells d v).rest; rw [h]; rfl
@[simp] theorem Dev.irq_chans (v : Nat) : (d.irq v).chans = d.chans := by
  obtain ⟨_, _, _, _, h⟩ := (Dev.irq_tells d v).rest; rw [h]
@[simp] theorem Dev.irq_chan (v : Nat) (i : Nat) : (d.irq v).chan i = d.chan i := by
  obtain ⟨_, _, _, _, h⟩ := (Dev.irq_tells d v).rest; rw [h]; rfl
@[simp] theorem Dev.irq_febs (v : Nat) : (d.irq v).febs = d.febs := by
  obtain ⟨_, _, _, _, h⟩ := (Dev.irq_tells d v).rest; rw [h]
@[simp] theorem Dev.irq_feb (v : Nat) (i : Nat) : (d.irq v).feb i = d.feb i := by
  obtain ⟨_, _, _, _, h⟩ := (Dev.irq_tells d v).rest; rw [h]; rfl
@[simp] theorem Dev.irq_fts (v : Nat) : (d.irq v).fts = d.fts := by
  obtain ⟨_, _, _, _, h⟩ := (Dev.irq_tells d v).rest; rw [h]
@[simp] theorem Dev.irq_ft (v : Nat) (i : Nat) : (d.irq v).ft i = d.ft i := by
  obtain ⟨_, _, _, _, h⟩ := (Dev.irq_tells d v).rest; rw [h]; rfl
@[simp] theorem Dev.irq_sewMsg (v : Nat) : (d.irq v).sewMsg = d.sewMsg := by
  obtain ⟨_, _, _, _, h⟩ := (Dev.irq_tells d v).rest; rw [h]
@[simp] theorem Dev.irq_sews (v : Nat) : (d.irq v).sews = d.sews := by
  obtain ⟨_, _, _, _, h⟩ := (Dev.irq_tells d v).rest; rw [h]
@[simp] theorem Dev.irq_sew (v : Nat) (i : Nat) : (d.irq v).sew i = d.sew i := by
  obtain ⟨_, _, _, _, h⟩ := (Dev.irq_tells d v).rest; rw [h]; rfl
@[simp] theorem Dev.irq_modeChg (v : Nat) : (d.irq v).modeChg = d.modeChg := by
  obtain ⟨_, _, _, _, h⟩ := (Dev.irq_tells d v).rest; rw [h]
@[simp] theorem Dev.irq_far (v : Nat) : (d.irq v).far = d.far := by
  obtain ⟨_, _, _, _, h⟩ := (Dev.irq_tells d v).rest; rw [h]
@[simp] theorem Dev.irq_farQ (v : Nat) : (d.irq v).farQ = d.farQ := by
  obtain ⟨_, _, _, _, h⟩ := (Dev.irq_tells d v).rest; rw [h]
@[simp] theorem Dev.irq_calRead (v : Nat) : (d.irq v).calRead = d.calRead := by
  obtain ⟨_, _, _, _, h⟩ := (Dev.irq_tells d v).rest; rw [h]
@[simp] theorem Dev.irq_acqs (v : Nat) : (d.irq v).acqs = d.acqs := by
  obtain ⟨_, _, _, _, h⟩ := (Dev.irq_tells d v).rest; rw [h]
@[simp] theorem Dev.irq_acq (v : Nat) (i : Nat) : (d.irq v).acq i = d.acq i := by
  obtain ⟨_, _, _, _, h⟩ := (Dev.irq_tells d v).rest; rw [h]; rfl
@[simp] theorem Dev.irq_links (v : Nat) : (d.irq v).links = d.links := by
  obtain ⟨_, _, _, _, h⟩ := (Dev.irq_tells d v).rest; rw [h]
@[simp] theorem Dev.irq_link (v : Nat) (i : Nat) : (d.irq v).link i = d.link i := by
  obtain ⟨_, _, _, _, h⟩ := (Dev.irq_tells d v).rest; rw [h]; rfl
@[simp] theorem Dev.irq_ddcs (v : Nat) : (d.irq v).ddcs = d.ddcs := by
  obtain ⟨_, _, _, _, h⟩ := (Dev.irq_tells d v).rest; rw [h]
@[simp] theorem Dev.irq_ddc (v : Nat) (i : Nat) : (d.irq v).ddc i = d.ddc i := by
  obtain ⟨_, _, _, _, h⟩ := (Dev.irq_tells d v).rest; rw [h]; rfl
@[simp] theorem Dev.irq_awgs (v : Nat) : (d.irq v).awgs = d.awgs := by
  obtain ⟨_, _, _, _, h⟩ := (Dev.irq_tells d v).rest; rw [h]
@[simp] theorem Dev.irq_awg (v : Nat) (i : Nat) : (d.irq v).awg i = d.awg i := by
  obtain ⟨_, _, _, _, h⟩ := (Dev.irq_tells d v).rest; rw [h]; rfl
@[simp] theorem Dev.irq_ahead (v : Nat) : (d.irq v).ahead = d.ahead := by
  obtain ⟨_, _, _, _, h⟩ := (Dev.irq_tells d v).rest; rw [h]
@[simp] theorem Dev.irq_seamQ (v : Nat) : (d.irq v).seamQ = d.seamQ := by
  obtain ⟨_, _, _, _, h⟩ := (Dev.irq_tells d v).rest; rw [h]
@[simp] theorem Dev.irq_seen (v : Nat) : (d.irq v).seen = d.seen := by
  obtain ⟨_, _, _, _, h⟩ := (Dev.irq_tells d v).rest; rw [h]
@[simp] theorem Dev.irq_tieIn (v : Nat) : (d.irq v).tieIn = d.tieIn := by
  obtain ⟨_, _, _, _, h⟩ := (Dev.irq_tells d v).rest; rw [h]
@[simp] theorem Dev.irq_tieGot (v : Nat) : (d.irq v).tieGot = d.tieGot := by
  obtain ⟨_, _, _, _, h⟩ := (Dev.irq_tells d v).rest; rw [h]
@[simp] theorem Dev.irq_ethSlow (v : Nat) : (d.irq v).ethSlow = d.ethSlow := by
  obtain ⟨_, _, _, _, h⟩ := (Dev.irq_tells d v).rest; rw [h]
@[simp] theorem Dev.irq_flTurn (v : Nat) : (d.irq v).flTurn = d.flTurn := by
  obtain ⟨_, _, _, _, h⟩ := (Dev.irq_tells d v).rest; rw [h]
@[simp] theorem Dev.irq_ethAt (v : Nat) : (d.irq v).ethAt = d.ethAt := by
  obtain ⟨_, _, _, _, h⟩ := (Dev.irq_tells d v).rest; rw [h]
@[simp] theorem Dev.irq_ports (v : Nat) : (d.irq v).ports = d.ports := by
  obtain ⟨_, _, _, _, h⟩ := (Dev.irq_tells d v).rest; rw [h]
@[simp] theorem Dev.irq_port (v : Nat) (i : Nat) : (d.irq v).port i = d.port i := by
  obtain ⟨_, _, _, _, h⟩ := (Dev.irq_tells d v).rest; rw [h]; rfl
@[simp] theorem Dev.irq_heard (v : Nat) : (d.irq v).heard = d.heard := by
  obtain ⟨_, _, _, _, h⟩ := (Dev.irq_tells d v).rest; rw [h]
@[simp] theorem Dev.irq_lanes (v : Nat) : (d.irq v).lanes = d.lanes := by
  obtain ⟨_, _, _, _, h⟩ := (Dev.irq_tells d v).rest; rw [h]
@[simp] theorem Dev.irq_lane (v : Nat) (i : Nat) : (d.irq v).lane i = d.lane i := by
  obtain ⟨_, _, _, _, h⟩ := (Dev.irq_tells d v).rest; rw [h]; rfl
@[simp] theorem Dev.irq_drcs (v : Nat) : (d.irq v).drcs = d.drcs := by
  obtain ⟨_, _, _, _, h⟩ := (Dev.irq_tells d v).rest; rw [h]
@[simp] theorem Dev.irq_drc (v : Nat) (i : Nat) : (d.irq v).drc i = d.drc i := by
  obtain ⟨_, _, _, _, h⟩ := (Dev.irq_tells d v).rest; rw [h]; rfl
@[simp] theorem Dev.irq_pwr (v : Nat) : (d.irq v).pwr = d.pwr := by
  obtain ⟨_, _, _, _, h⟩ := (Dev.irq_tells d v).rest; rw [h]
@[simp] theorem Dev.irq_quies (v : Nat) : (d.irq v).quies = d.quies := by
  obtain ⟨_, _, _, _, h⟩ := (Dev.irq_tells d v).rest; rw [h]
@[simp] theorem Dev.irq_kept (v : Nat) : (d.irq v).kept = d.kept := by
  obtain ⟨_, _, _, _, h⟩ := (Dev.irq_tells d v).rest; rw [h]
@[simp] theorem Dev.irq_rstWin (v : Nat) : (d.irq v).rstWin = d.rstWin := by
  obtain ⟨_, _, _, _, h⟩ := (Dev.irq_tells d v).rest; rw [h]
@[simp] theorem Dev.irq_cal (v : Nat) : (d.irq v).cal = d.cal := by
  obtain ⟨_, _, _, _, h⟩ := (Dev.irq_tells d v).rest; rw [h]
@[simp] theorem Dev.irq_thim (v : Nat) : (d.irq v).thim = d.thim := by
  obtain ⟨_, _, _, _, h⟩ := (Dev.irq_tells d v).rest; rw [h]
@[simp] theorem Dev.irq_ctr (v : Nat) : (d.irq v).ctr = d.ctr := by
  obtain ⟨_, _, _, _, h⟩ := (Dev.irq_tells d v).rest; rw [h]
@[simp] theorem Dev.irq_cmd (v : Nat) : (d.irq v).cmd = d.cmd := by
  obtain ⟨_, _, _, _, h⟩ := (Dev.irq_tells d v).rest; rw [h]
@[simp] theorem Dev.irq_dmas (v : Nat) : (d.irq v).dmas = d.dmas := by
  obtain ⟨_, _, _, _, h⟩ := (Dev.irq_tells d v).rest; rw [h]
@[simp] theorem Dev.irq_tap (v : Nat) : (d.irq v).tap = d.tap := by
  obtain ⟨_, _, _, _, h⟩ := (Dev.irq_tells d v).rest; rw [h]
@[simp] theorem Dev.irq_telCe (v : Nat) : (d.irq v).telCe = d.telCe := by
  obtain ⟨_, _, _, _, h⟩ := (Dev.irq_tells d v).rest; rw [h]
@[simp] theorem Dev.logStamped_key (st b k u p : Nat) {j : RegKey} (h : j.f ∉ reportFields) : (d.logStamped st b k u p).key j = d.key j :=
  (Dev.logStamped_tells d st b k u p).key j h
@[simp] theorem Dev.logStamped_basted (st b k u p : Nat) : (d.logStamped st b k u p).basted = d.basted := by
  obtain ⟨_, _, _, _, h⟩ := (Dev.logStamped_tells d st b k u p).rest; rw [h]
@[simp] theorem Dev.logStamped_dirty (st b k u p : Nat) : (d.logStamped st b k u p).dirty = d.dirty := by
  obtain ⟨_, _, _, _, h⟩ := (Dev.logStamped_tells d st b k u p).rest; rw [h]
@[simp] theorem Dev.logStamped_taken (st b k u p : Nat) : (d.logStamped st b k u p).taken = d.taken := by
  obtain ⟨_, _, _, _, h⟩ := (Dev.logStamped_tells d st b k u p).rest; rw [h]
@[simp] theorem Dev.logStamped_tick (st b k u p : Nat) : (d.logStamped st b k u p).tick = d.tick := by
  obtain ⟨_, _, _, _, h⟩ := (Dev.logStamped_tells d st b k u p).rest; rw [h]
@[simp] theorem Dev.logStamped_free (st b k u p : Nat) : (d.logStamped st b k u p).free = d.free := by
  obtain ⟨_, _, _, _, h⟩ := (Dev.logStamped_tells d st b k u p).rest; rw [h]
@[simp] theorem Dev.logStamped_time (st b k u p : Nat) : (d.logStamped st b k u p).time = d.time := by
  obtain ⟨_, _, _, _, h⟩ := (Dev.logStamped_tells d st b k u p).rest; rw [h]
@[simp] theorem Dev.logStamped_msix (st b k u p : Nat) : (d.logStamped st b k u p).msix = d.msix := by
  obtain ⟨_, _, _, _, h⟩ := (Dev.logStamped_tells d st b k u p).rest; rw [h]
@[simp] theorem Dev.logStamped_msixEn (st b k u p : Nat) : (d.logStamped st b k u p).msixEn = d.msixEn := by
  obtain ⟨_, _, _, _, h⟩ := (Dev.logStamped_tells d st b k u p).rest; rw [h]
@[simp] theorem Dev.logStamped_msixFn (st b k u p : Nat) : (d.logStamped st b k u p).msixFn = d.msixFn := by
  obtain ⟨_, _, _, _, h⟩ := (Dev.logStamped_tells d st b k u p).rest; rw [h]
@[simp] theorem Dev.logStamped_poison (st b k u p : Nat) : (d.logStamped st b k u p).poison = d.poison := by
  obtain ⟨_, _, _, _, h⟩ := (Dev.logStamped_tells d st b k u p).rest; rw [h]
@[simp] theorem Dev.logStamped_errs (st b k u p : Nat) : (d.logStamped st b k u p).errs = d.errs := by
  obtain ⟨_, _, _, _, h⟩ := (Dev.logStamped_tells d st b k u p).rest; rw [h]
@[simp] theorem Dev.logStamped_engs (st b k u p : Nat) : (d.logStamped st b k u p).engs = d.engs := by
  obtain ⟨_, _, _, _, h⟩ := (Dev.logStamped_tells d st b k u p).rest; rw [h]
@[simp] theorem Dev.logStamped_eng (st b k u p : Nat) (i : Nat) : (d.logStamped st b k u p).eng i = d.eng i := by
  obtain ⟨_, _, _, _, h⟩ := (Dev.logStamped_tells d st b k u p).rest; rw [h]; rfl
@[simp] theorem Dev.logStamped_chans (st b k u p : Nat) : (d.logStamped st b k u p).chans = d.chans := by
  obtain ⟨_, _, _, _, h⟩ := (Dev.logStamped_tells d st b k u p).rest; rw [h]
@[simp] theorem Dev.logStamped_chan (st b k u p : Nat) (i : Nat) : (d.logStamped st b k u p).chan i = d.chan i := by
  obtain ⟨_, _, _, _, h⟩ := (Dev.logStamped_tells d st b k u p).rest; rw [h]; rfl
@[simp] theorem Dev.logStamped_febs (st b k u p : Nat) : (d.logStamped st b k u p).febs = d.febs := by
  obtain ⟨_, _, _, _, h⟩ := (Dev.logStamped_tells d st b k u p).rest; rw [h]
@[simp] theorem Dev.logStamped_feb (st b k u p : Nat) (i : Nat) : (d.logStamped st b k u p).feb i = d.feb i := by
  obtain ⟨_, _, _, _, h⟩ := (Dev.logStamped_tells d st b k u p).rest; rw [h]; rfl
@[simp] theorem Dev.logStamped_fts (st b k u p : Nat) : (d.logStamped st b k u p).fts = d.fts := by
  obtain ⟨_, _, _, _, h⟩ := (Dev.logStamped_tells d st b k u p).rest; rw [h]
@[simp] theorem Dev.logStamped_ft (st b k u p : Nat) (i : Nat) : (d.logStamped st b k u p).ft i = d.ft i := by
  obtain ⟨_, _, _, _, h⟩ := (Dev.logStamped_tells d st b k u p).rest; rw [h]; rfl
@[simp] theorem Dev.logStamped_sewMsg (st b k u p : Nat) : (d.logStamped st b k u p).sewMsg = d.sewMsg := by
  obtain ⟨_, _, _, _, h⟩ := (Dev.logStamped_tells d st b k u p).rest; rw [h]
@[simp] theorem Dev.logStamped_sews (st b k u p : Nat) : (d.logStamped st b k u p).sews = d.sews := by
  obtain ⟨_, _, _, _, h⟩ := (Dev.logStamped_tells d st b k u p).rest; rw [h]
@[simp] theorem Dev.logStamped_sew (st b k u p : Nat) (i : Nat) : (d.logStamped st b k u p).sew i = d.sew i := by
  obtain ⟨_, _, _, _, h⟩ := (Dev.logStamped_tells d st b k u p).rest; rw [h]; rfl
@[simp] theorem Dev.logStamped_modeChg (st b k u p : Nat) : (d.logStamped st b k u p).modeChg = d.modeChg := by
  obtain ⟨_, _, _, _, h⟩ := (Dev.logStamped_tells d st b k u p).rest; rw [h]
@[simp] theorem Dev.logStamped_far (st b k u p : Nat) : (d.logStamped st b k u p).far = d.far := by
  obtain ⟨_, _, _, _, h⟩ := (Dev.logStamped_tells d st b k u p).rest; rw [h]
@[simp] theorem Dev.logStamped_farQ (st b k u p : Nat) : (d.logStamped st b k u p).farQ = d.farQ := by
  obtain ⟨_, _, _, _, h⟩ := (Dev.logStamped_tells d st b k u p).rest; rw [h]
@[simp] theorem Dev.logStamped_calRead (st b k u p : Nat) : (d.logStamped st b k u p).calRead = d.calRead := by
  obtain ⟨_, _, _, _, h⟩ := (Dev.logStamped_tells d st b k u p).rest; rw [h]
@[simp] theorem Dev.logStamped_acqs (st b k u p : Nat) : (d.logStamped st b k u p).acqs = d.acqs := by
  obtain ⟨_, _, _, _, h⟩ := (Dev.logStamped_tells d st b k u p).rest; rw [h]
@[simp] theorem Dev.logStamped_acq (st b k u p : Nat) (i : Nat) : (d.logStamped st b k u p).acq i = d.acq i := by
  obtain ⟨_, _, _, _, h⟩ := (Dev.logStamped_tells d st b k u p).rest; rw [h]; rfl
@[simp] theorem Dev.logStamped_links (st b k u p : Nat) : (d.logStamped st b k u p).links = d.links := by
  obtain ⟨_, _, _, _, h⟩ := (Dev.logStamped_tells d st b k u p).rest; rw [h]
@[simp] theorem Dev.logStamped_link (st b k u p : Nat) (i : Nat) : (d.logStamped st b k u p).link i = d.link i := by
  obtain ⟨_, _, _, _, h⟩ := (Dev.logStamped_tells d st b k u p).rest; rw [h]; rfl
@[simp] theorem Dev.logStamped_ddcs (st b k u p : Nat) : (d.logStamped st b k u p).ddcs = d.ddcs := by
  obtain ⟨_, _, _, _, h⟩ := (Dev.logStamped_tells d st b k u p).rest; rw [h]
@[simp] theorem Dev.logStamped_ddc (st b k u p : Nat) (i : Nat) : (d.logStamped st b k u p).ddc i = d.ddc i := by
  obtain ⟨_, _, _, _, h⟩ := (Dev.logStamped_tells d st b k u p).rest; rw [h]; rfl
@[simp] theorem Dev.logStamped_awgs (st b k u p : Nat) : (d.logStamped st b k u p).awgs = d.awgs := by
  obtain ⟨_, _, _, _, h⟩ := (Dev.logStamped_tells d st b k u p).rest; rw [h]
@[simp] theorem Dev.logStamped_awg (st b k u p : Nat) (i : Nat) : (d.logStamped st b k u p).awg i = d.awg i := by
  obtain ⟨_, _, _, _, h⟩ := (Dev.logStamped_tells d st b k u p).rest; rw [h]; rfl
@[simp] theorem Dev.logStamped_ahead (st b k u p : Nat) : (d.logStamped st b k u p).ahead = d.ahead := by
  obtain ⟨_, _, _, _, h⟩ := (Dev.logStamped_tells d st b k u p).rest; rw [h]
@[simp] theorem Dev.logStamped_seamQ (st b k u p : Nat) : (d.logStamped st b k u p).seamQ = d.seamQ := by
  obtain ⟨_, _, _, _, h⟩ := (Dev.logStamped_tells d st b k u p).rest; rw [h]
@[simp] theorem Dev.logStamped_seen (st b k u p : Nat) : (d.logStamped st b k u p).seen = d.seen := by
  obtain ⟨_, _, _, _, h⟩ := (Dev.logStamped_tells d st b k u p).rest; rw [h]
@[simp] theorem Dev.logStamped_tieIn (st b k u p : Nat) : (d.logStamped st b k u p).tieIn = d.tieIn := by
  obtain ⟨_, _, _, _, h⟩ := (Dev.logStamped_tells d st b k u p).rest; rw [h]
@[simp] theorem Dev.logStamped_tieGot (st b k u p : Nat) : (d.logStamped st b k u p).tieGot = d.tieGot := by
  obtain ⟨_, _, _, _, h⟩ := (Dev.logStamped_tells d st b k u p).rest; rw [h]
@[simp] theorem Dev.logStamped_ethSlow (st b k u p : Nat) : (d.logStamped st b k u p).ethSlow = d.ethSlow := by
  obtain ⟨_, _, _, _, h⟩ := (Dev.logStamped_tells d st b k u p).rest; rw [h]
@[simp] theorem Dev.logStamped_flTurn (st b k u p : Nat) : (d.logStamped st b k u p).flTurn = d.flTurn := by
  obtain ⟨_, _, _, _, h⟩ := (Dev.logStamped_tells d st b k u p).rest; rw [h]
@[simp] theorem Dev.logStamped_ethAt (st b k u p : Nat) : (d.logStamped st b k u p).ethAt = d.ethAt := by
  obtain ⟨_, _, _, _, h⟩ := (Dev.logStamped_tells d st b k u p).rest; rw [h]
@[simp] theorem Dev.logStamped_ports (st b k u p : Nat) : (d.logStamped st b k u p).ports = d.ports := by
  obtain ⟨_, _, _, _, h⟩ := (Dev.logStamped_tells d st b k u p).rest; rw [h]
@[simp] theorem Dev.logStamped_port (st b k u p : Nat) (i : Nat) : (d.logStamped st b k u p).port i = d.port i := by
  obtain ⟨_, _, _, _, h⟩ := (Dev.logStamped_tells d st b k u p).rest; rw [h]; rfl
@[simp] theorem Dev.logStamped_heard (st b k u p : Nat) : (d.logStamped st b k u p).heard = d.heard := by
  obtain ⟨_, _, _, _, h⟩ := (Dev.logStamped_tells d st b k u p).rest; rw [h]
@[simp] theorem Dev.logStamped_lanes (st b k u p : Nat) : (d.logStamped st b k u p).lanes = d.lanes := by
  obtain ⟨_, _, _, _, h⟩ := (Dev.logStamped_tells d st b k u p).rest; rw [h]
@[simp] theorem Dev.logStamped_lane (st b k u p : Nat) (i : Nat) : (d.logStamped st b k u p).lane i = d.lane i := by
  obtain ⟨_, _, _, _, h⟩ := (Dev.logStamped_tells d st b k u p).rest; rw [h]; rfl
@[simp] theorem Dev.logStamped_drcs (st b k u p : Nat) : (d.logStamped st b k u p).drcs = d.drcs := by
  obtain ⟨_, _, _, _, h⟩ := (Dev.logStamped_tells d st b k u p).rest; rw [h]
@[simp] theorem Dev.logStamped_drc (st b k u p : Nat) (i : Nat) : (d.logStamped st b k u p).drc i = d.drc i := by
  obtain ⟨_, _, _, _, h⟩ := (Dev.logStamped_tells d st b k u p).rest; rw [h]; rfl
@[simp] theorem Dev.logStamped_pwr (st b k u p : Nat) : (d.logStamped st b k u p).pwr = d.pwr := by
  obtain ⟨_, _, _, _, h⟩ := (Dev.logStamped_tells d st b k u p).rest; rw [h]
@[simp] theorem Dev.logStamped_quies (st b k u p : Nat) : (d.logStamped st b k u p).quies = d.quies := by
  obtain ⟨_, _, _, _, h⟩ := (Dev.logStamped_tells d st b k u p).rest; rw [h]
@[simp] theorem Dev.logStamped_kept (st b k u p : Nat) : (d.logStamped st b k u p).kept = d.kept := by
  obtain ⟨_, _, _, _, h⟩ := (Dev.logStamped_tells d st b k u p).rest; rw [h]
@[simp] theorem Dev.logStamped_rstWin (st b k u p : Nat) : (d.logStamped st b k u p).rstWin = d.rstWin := by
  obtain ⟨_, _, _, _, h⟩ := (Dev.logStamped_tells d st b k u p).rest; rw [h]
@[simp] theorem Dev.logStamped_cal (st b k u p : Nat) : (d.logStamped st b k u p).cal = d.cal := by
  obtain ⟨_, _, _, _, h⟩ := (Dev.logStamped_tells d st b k u p).rest; rw [h]
@[simp] theorem Dev.logStamped_thim (st b k u p : Nat) : (d.logStamped st b k u p).thim = d.thim := by
  obtain ⟨_, _, _, _, h⟩ := (Dev.logStamped_tells d st b k u p).rest; rw [h]
@[simp] theorem Dev.logStamped_ctr (st b k u p : Nat) : (d.logStamped st b k u p).ctr = d.ctr := by
  obtain ⟨_, _, _, _, h⟩ := (Dev.logStamped_tells d st b k u p).rest; rw [h]
@[simp] theorem Dev.logStamped_cmd (st b k u p : Nat) : (d.logStamped st b k u p).cmd = d.cmd := by
  obtain ⟨_, _, _, _, h⟩ := (Dev.logStamped_tells d st b k u p).rest; rw [h]
@[simp] theorem Dev.logStamped_dmas (st b k u p : Nat) : (d.logStamped st b k u p).dmas = d.dmas := by
  obtain ⟨_, _, _, _, h⟩ := (Dev.logStamped_tells d st b k u p).rest; rw [h]
@[simp] theorem Dev.logStamped_tap (st b k u p : Nat) : (d.logStamped st b k u p).tap = d.tap := by
  obtain ⟨_, _, _, _, h⟩ := (Dev.logStamped_tells d st b k u p).rest; rw [h]
@[simp] theorem Dev.logStamped_telCe (st b k u p : Nat) : (d.logStamped st b k u p).telCe = d.telCe := by
  obtain ⟨_, _, _, _, h⟩ := (Dev.logStamped_tells d st b k u p).rest; rw [h]
@[simp] theorem Dev.logEv_key (b k u p : Nat) {j : RegKey} (h : j.f ∉ reportFields) : (d.logEv b k u p).key j = d.key j :=
  (Dev.logEv_tells d b k u p).key j h
@[simp] theorem Dev.logEv_basted (b k u p : Nat) : (d.logEv b k u p).basted = d.basted := by
  obtain ⟨_, _, _, _, h⟩ := (Dev.logEv_tells d b k u p).rest; rw [h]
@[simp] theorem Dev.logEv_dirty (b k u p : Nat) : (d.logEv b k u p).dirty = d.dirty := by
  obtain ⟨_, _, _, _, h⟩ := (Dev.logEv_tells d b k u p).rest; rw [h]
@[simp] theorem Dev.logEv_taken (b k u p : Nat) : (d.logEv b k u p).taken = d.taken := by
  obtain ⟨_, _, _, _, h⟩ := (Dev.logEv_tells d b k u p).rest; rw [h]
@[simp] theorem Dev.logEv_tick (b k u p : Nat) : (d.logEv b k u p).tick = d.tick := by
  obtain ⟨_, _, _, _, h⟩ := (Dev.logEv_tells d b k u p).rest; rw [h]
@[simp] theorem Dev.logEv_free (b k u p : Nat) : (d.logEv b k u p).free = d.free := by
  obtain ⟨_, _, _, _, h⟩ := (Dev.logEv_tells d b k u p).rest; rw [h]
@[simp] theorem Dev.logEv_time (b k u p : Nat) : (d.logEv b k u p).time = d.time := by
  obtain ⟨_, _, _, _, h⟩ := (Dev.logEv_tells d b k u p).rest; rw [h]
@[simp] theorem Dev.logEv_msix (b k u p : Nat) : (d.logEv b k u p).msix = d.msix := by
  obtain ⟨_, _, _, _, h⟩ := (Dev.logEv_tells d b k u p).rest; rw [h]
@[simp] theorem Dev.logEv_msixEn (b k u p : Nat) : (d.logEv b k u p).msixEn = d.msixEn := by
  obtain ⟨_, _, _, _, h⟩ := (Dev.logEv_tells d b k u p).rest; rw [h]
@[simp] theorem Dev.logEv_msixFn (b k u p : Nat) : (d.logEv b k u p).msixFn = d.msixFn := by
  obtain ⟨_, _, _, _, h⟩ := (Dev.logEv_tells d b k u p).rest; rw [h]
@[simp] theorem Dev.logEv_poison (b k u p : Nat) : (d.logEv b k u p).poison = d.poison := by
  obtain ⟨_, _, _, _, h⟩ := (Dev.logEv_tells d b k u p).rest; rw [h]
@[simp] theorem Dev.logEv_errs (b k u p : Nat) : (d.logEv b k u p).errs = d.errs := by
  obtain ⟨_, _, _, _, h⟩ := (Dev.logEv_tells d b k u p).rest; rw [h]
@[simp] theorem Dev.logEv_engs (b k u p : Nat) : (d.logEv b k u p).engs = d.engs := by
  obtain ⟨_, _, _, _, h⟩ := (Dev.logEv_tells d b k u p).rest; rw [h]
@[simp] theorem Dev.logEv_eng (b k u p : Nat) (i : Nat) : (d.logEv b k u p).eng i = d.eng i := by
  obtain ⟨_, _, _, _, h⟩ := (Dev.logEv_tells d b k u p).rest; rw [h]; rfl
@[simp] theorem Dev.logEv_chans (b k u p : Nat) : (d.logEv b k u p).chans = d.chans := by
  obtain ⟨_, _, _, _, h⟩ := (Dev.logEv_tells d b k u p).rest; rw [h]
@[simp] theorem Dev.logEv_chan (b k u p : Nat) (i : Nat) : (d.logEv b k u p).chan i = d.chan i := by
  obtain ⟨_, _, _, _, h⟩ := (Dev.logEv_tells d b k u p).rest; rw [h]; rfl
@[simp] theorem Dev.logEv_febs (b k u p : Nat) : (d.logEv b k u p).febs = d.febs := by
  obtain ⟨_, _, _, _, h⟩ := (Dev.logEv_tells d b k u p).rest; rw [h]
@[simp] theorem Dev.logEv_feb (b k u p : Nat) (i : Nat) : (d.logEv b k u p).feb i = d.feb i := by
  obtain ⟨_, _, _, _, h⟩ := (Dev.logEv_tells d b k u p).rest; rw [h]; rfl
@[simp] theorem Dev.logEv_fts (b k u p : Nat) : (d.logEv b k u p).fts = d.fts := by
  obtain ⟨_, _, _, _, h⟩ := (Dev.logEv_tells d b k u p).rest; rw [h]
@[simp] theorem Dev.logEv_ft (b k u p : Nat) (i : Nat) : (d.logEv b k u p).ft i = d.ft i := by
  obtain ⟨_, _, _, _, h⟩ := (Dev.logEv_tells d b k u p).rest; rw [h]; rfl
@[simp] theorem Dev.logEv_sewMsg (b k u p : Nat) : (d.logEv b k u p).sewMsg = d.sewMsg := by
  obtain ⟨_, _, _, _, h⟩ := (Dev.logEv_tells d b k u p).rest; rw [h]
@[simp] theorem Dev.logEv_sews (b k u p : Nat) : (d.logEv b k u p).sews = d.sews := by
  obtain ⟨_, _, _, _, h⟩ := (Dev.logEv_tells d b k u p).rest; rw [h]
@[simp] theorem Dev.logEv_sew (b k u p : Nat) (i : Nat) : (d.logEv b k u p).sew i = d.sew i := by
  obtain ⟨_, _, _, _, h⟩ := (Dev.logEv_tells d b k u p).rest; rw [h]; rfl
@[simp] theorem Dev.logEv_modeChg (b k u p : Nat) : (d.logEv b k u p).modeChg = d.modeChg := by
  obtain ⟨_, _, _, _, h⟩ := (Dev.logEv_tells d b k u p).rest; rw [h]
@[simp] theorem Dev.logEv_far (b k u p : Nat) : (d.logEv b k u p).far = d.far := by
  obtain ⟨_, _, _, _, h⟩ := (Dev.logEv_tells d b k u p).rest; rw [h]
@[simp] theorem Dev.logEv_farQ (b k u p : Nat) : (d.logEv b k u p).farQ = d.farQ := by
  obtain ⟨_, _, _, _, h⟩ := (Dev.logEv_tells d b k u p).rest; rw [h]
@[simp] theorem Dev.logEv_calRead (b k u p : Nat) : (d.logEv b k u p).calRead = d.calRead := by
  obtain ⟨_, _, _, _, h⟩ := (Dev.logEv_tells d b k u p).rest; rw [h]
@[simp] theorem Dev.logEv_acqs (b k u p : Nat) : (d.logEv b k u p).acqs = d.acqs := by
  obtain ⟨_, _, _, _, h⟩ := (Dev.logEv_tells d b k u p).rest; rw [h]
@[simp] theorem Dev.logEv_acq (b k u p : Nat) (i : Nat) : (d.logEv b k u p).acq i = d.acq i := by
  obtain ⟨_, _, _, _, h⟩ := (Dev.logEv_tells d b k u p).rest; rw [h]; rfl
@[simp] theorem Dev.logEv_links (b k u p : Nat) : (d.logEv b k u p).links = d.links := by
  obtain ⟨_, _, _, _, h⟩ := (Dev.logEv_tells d b k u p).rest; rw [h]
@[simp] theorem Dev.logEv_link (b k u p : Nat) (i : Nat) : (d.logEv b k u p).link i = d.link i := by
  obtain ⟨_, _, _, _, h⟩ := (Dev.logEv_tells d b k u p).rest; rw [h]; rfl
@[simp] theorem Dev.logEv_ddcs (b k u p : Nat) : (d.logEv b k u p).ddcs = d.ddcs := by
  obtain ⟨_, _, _, _, h⟩ := (Dev.logEv_tells d b k u p).rest; rw [h]
@[simp] theorem Dev.logEv_ddc (b k u p : Nat) (i : Nat) : (d.logEv b k u p).ddc i = d.ddc i := by
  obtain ⟨_, _, _, _, h⟩ := (Dev.logEv_tells d b k u p).rest; rw [h]; rfl
@[simp] theorem Dev.logEv_awgs (b k u p : Nat) : (d.logEv b k u p).awgs = d.awgs := by
  obtain ⟨_, _, _, _, h⟩ := (Dev.logEv_tells d b k u p).rest; rw [h]
@[simp] theorem Dev.logEv_awg (b k u p : Nat) (i : Nat) : (d.logEv b k u p).awg i = d.awg i := by
  obtain ⟨_, _, _, _, h⟩ := (Dev.logEv_tells d b k u p).rest; rw [h]; rfl
@[simp] theorem Dev.logEv_ahead (b k u p : Nat) : (d.logEv b k u p).ahead = d.ahead := by
  obtain ⟨_, _, _, _, h⟩ := (Dev.logEv_tells d b k u p).rest; rw [h]
@[simp] theorem Dev.logEv_seamQ (b k u p : Nat) : (d.logEv b k u p).seamQ = d.seamQ := by
  obtain ⟨_, _, _, _, h⟩ := (Dev.logEv_tells d b k u p).rest; rw [h]
@[simp] theorem Dev.logEv_seen (b k u p : Nat) : (d.logEv b k u p).seen = d.seen := by
  obtain ⟨_, _, _, _, h⟩ := (Dev.logEv_tells d b k u p).rest; rw [h]
@[simp] theorem Dev.logEv_tieIn (b k u p : Nat) : (d.logEv b k u p).tieIn = d.tieIn := by
  obtain ⟨_, _, _, _, h⟩ := (Dev.logEv_tells d b k u p).rest; rw [h]
@[simp] theorem Dev.logEv_tieGot (b k u p : Nat) : (d.logEv b k u p).tieGot = d.tieGot := by
  obtain ⟨_, _, _, _, h⟩ := (Dev.logEv_tells d b k u p).rest; rw [h]
@[simp] theorem Dev.logEv_ethSlow (b k u p : Nat) : (d.logEv b k u p).ethSlow = d.ethSlow := by
  obtain ⟨_, _, _, _, h⟩ := (Dev.logEv_tells d b k u p).rest; rw [h]
@[simp] theorem Dev.logEv_flTurn (b k u p : Nat) : (d.logEv b k u p).flTurn = d.flTurn := by
  obtain ⟨_, _, _, _, h⟩ := (Dev.logEv_tells d b k u p).rest; rw [h]
@[simp] theorem Dev.logEv_ethAt (b k u p : Nat) : (d.logEv b k u p).ethAt = d.ethAt := by
  obtain ⟨_, _, _, _, h⟩ := (Dev.logEv_tells d b k u p).rest; rw [h]
@[simp] theorem Dev.logEv_ports (b k u p : Nat) : (d.logEv b k u p).ports = d.ports := by
  obtain ⟨_, _, _, _, h⟩ := (Dev.logEv_tells d b k u p).rest; rw [h]
@[simp] theorem Dev.logEv_port (b k u p : Nat) (i : Nat) : (d.logEv b k u p).port i = d.port i := by
  obtain ⟨_, _, _, _, h⟩ := (Dev.logEv_tells d b k u p).rest; rw [h]; rfl
@[simp] theorem Dev.logEv_heard (b k u p : Nat) : (d.logEv b k u p).heard = d.heard := by
  obtain ⟨_, _, _, _, h⟩ := (Dev.logEv_tells d b k u p).rest; rw [h]
@[simp] theorem Dev.logEv_lanes (b k u p : Nat) : (d.logEv b k u p).lanes = d.lanes := by
  obtain ⟨_, _, _, _, h⟩ := (Dev.logEv_tells d b k u p).rest; rw [h]
@[simp] theorem Dev.logEv_lane (b k u p : Nat) (i : Nat) : (d.logEv b k u p).lane i = d.lane i := by
  obtain ⟨_, _, _, _, h⟩ := (Dev.logEv_tells d b k u p).rest; rw [h]; rfl
@[simp] theorem Dev.logEv_drcs (b k u p : Nat) : (d.logEv b k u p).drcs = d.drcs := by
  obtain ⟨_, _, _, _, h⟩ := (Dev.logEv_tells d b k u p).rest; rw [h]
@[simp] theorem Dev.logEv_drc (b k u p : Nat) (i : Nat) : (d.logEv b k u p).drc i = d.drc i := by
  obtain ⟨_, _, _, _, h⟩ := (Dev.logEv_tells d b k u p).rest; rw [h]; rfl
@[simp] theorem Dev.logEv_pwr (b k u p : Nat) : (d.logEv b k u p).pwr = d.pwr := by
  obtain ⟨_, _, _, _, h⟩ := (Dev.logEv_tells d b k u p).rest; rw [h]
@[simp] theorem Dev.logEv_quies (b k u p : Nat) : (d.logEv b k u p).quies = d.quies := by
  obtain ⟨_, _, _, _, h⟩ := (Dev.logEv_tells d b k u p).rest; rw [h]
@[simp] theorem Dev.logEv_kept (b k u p : Nat) : (d.logEv b k u p).kept = d.kept := by
  obtain ⟨_, _, _, _, h⟩ := (Dev.logEv_tells d b k u p).rest; rw [h]
@[simp] theorem Dev.logEv_rstWin (b k u p : Nat) : (d.logEv b k u p).rstWin = d.rstWin := by
  obtain ⟨_, _, _, _, h⟩ := (Dev.logEv_tells d b k u p).rest; rw [h]
@[simp] theorem Dev.logEv_cal (b k u p : Nat) : (d.logEv b k u p).cal = d.cal := by
  obtain ⟨_, _, _, _, h⟩ := (Dev.logEv_tells d b k u p).rest; rw [h]
@[simp] theorem Dev.logEv_thim (b k u p : Nat) : (d.logEv b k u p).thim = d.thim := by
  obtain ⟨_, _, _, _, h⟩ := (Dev.logEv_tells d b k u p).rest; rw [h]
@[simp] theorem Dev.logEv_ctr (b k u p : Nat) : (d.logEv b k u p).ctr = d.ctr := by
  obtain ⟨_, _, _, _, h⟩ := (Dev.logEv_tells d b k u p).rest; rw [h]
@[simp] theorem Dev.logEv_cmd (b k u p : Nat) : (d.logEv b k u p).cmd = d.cmd := by
  obtain ⟨_, _, _, _, h⟩ := (Dev.logEv_tells d b k u p).rest; rw [h]
@[simp] theorem Dev.logEv_dmas (b k u p : Nat) : (d.logEv b k u p).dmas = d.dmas := by
  obtain ⟨_, _, _, _, h⟩ := (Dev.logEv_tells d b k u p).rest; rw [h]
@[simp] theorem Dev.logEv_tap (b k u p : Nat) : (d.logEv b k u p).tap = d.tap := by
  obtain ⟨_, _, _, _, h⟩ := (Dev.logEv_tells d b k u p).rest; rw [h]
@[simp] theorem Dev.logEv_telCe (b k u p : Nat) : (d.logEv b k u p).telCe = d.telCe := by
  obtain ⟨_, _, _, _, h⟩ := (Dev.logEv_tells d b k u p).rest; rw [h]
@[simp] theorem Dev.advanceTo_regs (k : Nat) : (d.advanceTo k).regs = d.regs := by
  obtain ⟨_, _, h⟩ := Dev.advanceTo_clock d k; rw [h]
@[simp] theorem Dev.advanceTo_basted (k : Nat) : (d.advanceTo k).basted = d.basted := by
  obtain ⟨_, _, h⟩ := Dev.advanceTo_clock d k; rw [h]
@[simp] theorem Dev.advanceTo_dirty (k : Nat) : (d.advanceTo k).dirty = d.dirty := by
  obtain ⟨_, _, h⟩ := Dev.advanceTo_clock d k; rw [h]
@[simp] theorem Dev.advanceTo_taken (k : Nat) : (d.advanceTo k).taken = d.taken := by
  obtain ⟨_, _, h⟩ := Dev.advanceTo_clock d k; rw [h]
@[simp] theorem Dev.advanceTo_free (k : Nat) : (d.advanceTo k).free = d.free := by
  obtain ⟨_, _, h⟩ := Dev.advanceTo_clock d k; rw [h]
@[simp] theorem Dev.advanceTo_log (k : Nat) : (d.advanceTo k).log = d.log := by
  obtain ⟨_, _, h⟩ := Dev.advanceTo_clock d k; rw [h]
@[simp] theorem Dev.advanceTo_out (k : Nat) : (d.advanceTo k).out = d.out := by
  obtain ⟨_, _, h⟩ := Dev.advanceTo_clock d k; rw [h]
@[simp] theorem Dev.advanceTo_msix (k : Nat) : (d.advanceTo k).msix = d.msix := by
  obtain ⟨_, _, h⟩ := Dev.advanceTo_clock d k; rw [h]
@[simp] theorem Dev.advanceTo_pba (k : Nat) : (d.advanceTo k).pba = d.pba := by
  obtain ⟨_, _, h⟩ := Dev.advanceTo_clock d k; rw [h]
@[simp] theorem Dev.advanceTo_msixEn (k : Nat) : (d.advanceTo k).msixEn = d.msixEn := by
  obtain ⟨_, _, h⟩ := Dev.advanceTo_clock d k; rw [h]
@[simp] theorem Dev.advanceTo_msixFn (k : Nat) : (d.advanceTo k).msixFn = d.msixFn := by
  obtain ⟨_, _, h⟩ := Dev.advanceTo_clock d k; rw [h]
@[simp] theorem Dev.advanceTo_poison (k : Nat) : (d.advanceTo k).poison = d.poison := by
  obtain ⟨_, _, h⟩ := Dev.advanceTo_clock d k; rw [h]
@[simp] theorem Dev.advanceTo_errs (k : Nat) : (d.advanceTo k).errs = d.errs := by
  obtain ⟨_, _, h⟩ := Dev.advanceTo_clock d k; rw [h]
@[simp] theorem Dev.advanceTo_engs (k : Nat) : (d.advanceTo k).engs = d.engs := by
  obtain ⟨_, _, h⟩ := Dev.advanceTo_clock d k; rw [h]
@[simp] theorem Dev.advanceTo_chans (k : Nat) : (d.advanceTo k).chans = d.chans := by
  obtain ⟨_, _, h⟩ := Dev.advanceTo_clock d k; rw [h]
@[simp] theorem Dev.advanceTo_chan (k i : Nat) : (d.advanceTo k).chan i = d.chan i := by
  obtain ⟨_, _, h⟩ := Dev.advanceTo_clock d k; rw [h]; rfl
@[simp] theorem Dev.advanceTo_febs (k : Nat) : (d.advanceTo k).febs = d.febs := by
  obtain ⟨_, _, h⟩ := Dev.advanceTo_clock d k; rw [h]
@[simp] theorem Dev.advanceTo_feb (k i : Nat) : (d.advanceTo k).feb i = d.feb i := by
  obtain ⟨_, _, h⟩ := Dev.advanceTo_clock d k; rw [h]; rfl
@[simp] theorem Dev.advanceTo_fts (k : Nat) : (d.advanceTo k).fts = d.fts := by
  obtain ⟨_, _, h⟩ := Dev.advanceTo_clock d k; rw [h]
@[simp] theorem Dev.advanceTo_ft (k i : Nat) : (d.advanceTo k).ft i = d.ft i := by
  obtain ⟨_, _, h⟩ := Dev.advanceTo_clock d k; rw [h]; rfl
@[simp] theorem Dev.advanceTo_sewMsg (k : Nat) : (d.advanceTo k).sewMsg = d.sewMsg := by
  obtain ⟨_, _, h⟩ := Dev.advanceTo_clock d k; rw [h]
@[simp] theorem Dev.advanceTo_sews (k : Nat) : (d.advanceTo k).sews = d.sews := by
  obtain ⟨_, _, h⟩ := Dev.advanceTo_clock d k; rw [h]
@[simp] theorem Dev.advanceTo_sew (k i : Nat) : (d.advanceTo k).sew i = d.sew i := by
  obtain ⟨_, _, h⟩ := Dev.advanceTo_clock d k; rw [h]; rfl
@[simp] theorem Dev.advanceTo_modeChg (k : Nat) : (d.advanceTo k).modeChg = d.modeChg := by
  obtain ⟨_, _, h⟩ := Dev.advanceTo_clock d k; rw [h]
@[simp] theorem Dev.advanceTo_far (k : Nat) : (d.advanceTo k).far = d.far := by
  obtain ⟨_, _, h⟩ := Dev.advanceTo_clock d k; rw [h]
@[simp] theorem Dev.advanceTo_farQ (k : Nat) : (d.advanceTo k).farQ = d.farQ := by
  obtain ⟨_, _, h⟩ := Dev.advanceTo_clock d k; rw [h]
@[simp] theorem Dev.advanceTo_calRead (k : Nat) : (d.advanceTo k).calRead = d.calRead := by
  obtain ⟨_, _, h⟩ := Dev.advanceTo_clock d k; rw [h]
@[simp] theorem Dev.advanceTo_acqs (k : Nat) : (d.advanceTo k).acqs = d.acqs := by
  obtain ⟨_, _, h⟩ := Dev.advanceTo_clock d k; rw [h]
@[simp] theorem Dev.advanceTo_acq (k i : Nat) : (d.advanceTo k).acq i = d.acq i := by
  obtain ⟨_, _, h⟩ := Dev.advanceTo_clock d k; rw [h]; rfl
@[simp] theorem Dev.advanceTo_links (k : Nat) : (d.advanceTo k).links = d.links := by
  obtain ⟨_, _, h⟩ := Dev.advanceTo_clock d k; rw [h]
@[simp] theorem Dev.advanceTo_link (k i : Nat) : (d.advanceTo k).link i = d.link i := by
  obtain ⟨_, _, h⟩ := Dev.advanceTo_clock d k; rw [h]; rfl
@[simp] theorem Dev.advanceTo_ddcs (k : Nat) : (d.advanceTo k).ddcs = d.ddcs := by
  obtain ⟨_, _, h⟩ := Dev.advanceTo_clock d k; rw [h]
@[simp] theorem Dev.advanceTo_ddc (k i : Nat) : (d.advanceTo k).ddc i = d.ddc i := by
  obtain ⟨_, _, h⟩ := Dev.advanceTo_clock d k; rw [h]; rfl
@[simp] theorem Dev.advanceTo_awgs (k : Nat) : (d.advanceTo k).awgs = d.awgs := by
  obtain ⟨_, _, h⟩ := Dev.advanceTo_clock d k; rw [h]
@[simp] theorem Dev.advanceTo_awg (k i : Nat) : (d.advanceTo k).awg i = d.awg i := by
  obtain ⟨_, _, h⟩ := Dev.advanceTo_clock d k; rw [h]; rfl
@[simp] theorem Dev.advanceTo_ahead (k : Nat) : (d.advanceTo k).ahead = d.ahead := by
  obtain ⟨_, _, h⟩ := Dev.advanceTo_clock d k; rw [h]
@[simp] theorem Dev.advanceTo_seamQ (k : Nat) : (d.advanceTo k).seamQ = d.seamQ := by
  obtain ⟨_, _, h⟩ := Dev.advanceTo_clock d k; rw [h]
@[simp] theorem Dev.advanceTo_seen (k : Nat) : (d.advanceTo k).seen = d.seen := by
  obtain ⟨_, _, h⟩ := Dev.advanceTo_clock d k; rw [h]
@[simp] theorem Dev.advanceTo_tieIn (k : Nat) : (d.advanceTo k).tieIn = d.tieIn := by
  obtain ⟨_, _, h⟩ := Dev.advanceTo_clock d k; rw [h]
@[simp] theorem Dev.advanceTo_tieGot (k : Nat) : (d.advanceTo k).tieGot = d.tieGot := by
  obtain ⟨_, _, h⟩ := Dev.advanceTo_clock d k; rw [h]
@[simp] theorem Dev.advanceTo_ethSlow (k : Nat) : (d.advanceTo k).ethSlow = d.ethSlow := by
  obtain ⟨_, _, h⟩ := Dev.advanceTo_clock d k; rw [h]
@[simp] theorem Dev.advanceTo_flTurn (k : Nat) : (d.advanceTo k).flTurn = d.flTurn := by
  obtain ⟨_, _, h⟩ := Dev.advanceTo_clock d k; rw [h]
@[simp] theorem Dev.advanceTo_ethAt (k : Nat) : (d.advanceTo k).ethAt = d.ethAt := by
  obtain ⟨_, _, h⟩ := Dev.advanceTo_clock d k; rw [h]
@[simp] theorem Dev.advanceTo_ports (k : Nat) : (d.advanceTo k).ports = d.ports := by
  obtain ⟨_, _, h⟩ := Dev.advanceTo_clock d k; rw [h]
@[simp] theorem Dev.advanceTo_port (k i : Nat) : (d.advanceTo k).port i = d.port i := by
  obtain ⟨_, _, h⟩ := Dev.advanceTo_clock d k; rw [h]; rfl
@[simp] theorem Dev.advanceTo_heard (k : Nat) : (d.advanceTo k).heard = d.heard := by
  obtain ⟨_, _, h⟩ := Dev.advanceTo_clock d k; rw [h]
@[simp] theorem Dev.advanceTo_lanes (k : Nat) : (d.advanceTo k).lanes = d.lanes := by
  obtain ⟨_, _, h⟩ := Dev.advanceTo_clock d k; rw [h]
@[simp] theorem Dev.advanceTo_lane (k i : Nat) : (d.advanceTo k).lane i = d.lane i := by
  obtain ⟨_, _, h⟩ := Dev.advanceTo_clock d k; rw [h]; rfl
@[simp] theorem Dev.advanceTo_drcs (k : Nat) : (d.advanceTo k).drcs = d.drcs := by
  obtain ⟨_, _, h⟩ := Dev.advanceTo_clock d k; rw [h]
@[simp] theorem Dev.advanceTo_drc (k i : Nat) : (d.advanceTo k).drc i = d.drc i := by
  obtain ⟨_, _, h⟩ := Dev.advanceTo_clock d k; rw [h]; rfl
@[simp] theorem Dev.advanceTo_pwr (k : Nat) : (d.advanceTo k).pwr = d.pwr := by
  obtain ⟨_, _, h⟩ := Dev.advanceTo_clock d k; rw [h]
@[simp] theorem Dev.advanceTo_quies (k : Nat) : (d.advanceTo k).quies = d.quies := by
  obtain ⟨_, _, h⟩ := Dev.advanceTo_clock d k; rw [h]
@[simp] theorem Dev.advanceTo_kept (k : Nat) : (d.advanceTo k).kept = d.kept := by
  obtain ⟨_, _, h⟩ := Dev.advanceTo_clock d k; rw [h]
@[simp] theorem Dev.advanceTo_rstWin (k : Nat) : (d.advanceTo k).rstWin = d.rstWin := by
  obtain ⟨_, _, h⟩ := Dev.advanceTo_clock d k; rw [h]
@[simp] theorem Dev.advanceTo_cal (k : Nat) : (d.advanceTo k).cal = d.cal := by
  obtain ⟨_, _, h⟩ := Dev.advanceTo_clock d k; rw [h]
@[simp] theorem Dev.advanceTo_thim (k : Nat) : (d.advanceTo k).thim = d.thim := by
  obtain ⟨_, _, h⟩ := Dev.advanceTo_clock d k; rw [h]
@[simp] theorem Dev.advanceTo_ctr (k : Nat) : (d.advanceTo k).ctr = d.ctr := by
  obtain ⟨_, _, h⟩ := Dev.advanceTo_clock d k; rw [h]
@[simp] theorem Dev.advanceTo_cmd (k : Nat) : (d.advanceTo k).cmd = d.cmd := by
  obtain ⟨_, _, h⟩ := Dev.advanceTo_clock d k; rw [h]
@[simp] theorem Dev.advanceTo_dmas (k : Nat) : (d.advanceTo k).dmas = d.dmas := by
  obtain ⟨_, _, h⟩ := Dev.advanceTo_clock d k; rw [h]
@[simp] theorem Dev.advanceTo_tap (k : Nat) : (d.advanceTo k).tap = d.tap := by
  obtain ⟨_, _, h⟩ := Dev.advanceTo_clock d k; rw [h]
@[simp] theorem Dev.advanceTo_telCe (k : Nat) : (d.advanceTo k).telCe = d.telCe := by
  obtain ⟨_, _, h⟩ := Dev.advanceTo_clock d k; rw [h]
@[simp] theorem Dev.advanceTo_key (k : Nat) (j : RegKey) : (d.advanceTo k).key j = d.key j := by
  obtain ⟨_, _, h⟩ := Dev.advanceTo_clock d k; rw [h]; rfl
@[simp] theorem Dev.advanceTo_tick (k : Nat) : (d.advanceTo k).tick = max d.tick k := by
  unfold Dev.advanceTo; split <;> (try dsimp only) <;> omega

/-! ## A command that acts on the block alone -/

/-- A command that only acts on the block completes with what that action gives. -/
theorem Completes.onDev {c : Instr} {s : State} {P : State → Prop} {g : Dev → Dev} (hx : exec c s = .next (s.onDev g))
    (h : P { s with dev := g s.dev }) : Completes c s P := ⟨_, hx, h⟩

end Sys2Proof.Machine
end

