-- ==== Sys2Proof/Laws/Memory.lean ====
section
/-!
SUPPORT. The memory list: reading back what was written, and that every operation on it keeps its canonical form.
-/

namespace Sys2Proof.Machine

/-! ## The canonical form as a proposition -/

theorem memWfFrom_cons (lo : Option Nat) (a : Nat) (v : Byte) (m : List Host.Cell) :
    memWfFrom lo ((a, v) :: m) = true ↔ (∀ l, lo = some l → l < a) ∧ v ≠ 0 ∧ memWfFrom (some a) m = true := by
  cases lo <;> simp [memWfFrom, and_assoc]

/-- A lower bound may be lowered. -/
theorem memWfFrom_mono {a b : Nat} (h : a ≤ b) : ∀ {m : List Host.Cell}, memWfFrom (some b) m = true →
    memWfFrom (some a) m = true
  | [], _ => rfl
  | (c, v) :: m, hm => by
    rw [memWfFrom_cons] at hm ⊢
    refine ⟨fun l hl => ?_, hm.2⟩
    have := hm.1 b rfl
    cases hl
    omega

theorem memWfFrom_none {a : Nat} : ∀ {m : List Host.Cell}, memWfFrom (some a) m = true → memWf m = true
  | [], _ => rfl
  | (c, v) :: m, hm => by
    rw [memWf, memWfFrom_cons]
    rw [memWfFrom_cons] at hm
    exact ⟨fun l hl => by simp at hl, hm.2⟩

/-! ## Writing keeps the form -/

theorem memPut_wfFrom (a : Nat) (v : Byte) : ∀ (lo : Option Nat) (m : List Host.Cell), (∀ l, lo = some l → l < a) →
    memWfFrom lo m = true → memWfFrom lo (memPut m a v) = true
  | lo, [], hlo, _ => by
    unfold memPut
    split
    · rfl
    · rw [memWfFrom_cons]
      exact ⟨hlo, ‹_›, rfl⟩
  | lo, (b, w) :: m, hlo, hm => by
    have hm' := (memWfFrom_cons lo b w m).1 hm
    unfold memPut
    split
    · split
      · exact hm
      · rw [memWfFrom_cons]
        refine ⟨hlo, ‹_›, ?_⟩
        rw [memWfFrom_cons]
        exact ⟨fun l hl => by cases hl; assumption, hm'.2⟩
    · split
      · subst a
        split
        · cases lo with
          | none => exact memWfFrom_none hm'.2.2
          | some l => exact memWfFrom_mono (Nat.le_of_lt (hm'.1 l rfl)) hm'.2.2
        · rw [memWfFrom_cons]
          exact ⟨hlo, ‹_›, hm'.2.2⟩
      · rw [memWfFrom_cons]
        refine ⟨hm'.1, hm'.2.1, memPut_wfFrom a v (some b) m (fun l hl => ?_) hm'.2.2⟩
        cases hl
        omega

/-- Writing a byte keeps the canonical form. -/
theorem memPut_wf {m : List Host.Cell} (a : Nat) (v : Byte) (h : memWf m = true) : memWf (memPut m a v) = true :=
  memPut_wfFrom a v none m (by simp) h

/-- Writing bytes keeps the canonical form. -/
theorem memWrite_wf (l : List Nat) : ∀ {m : List Host.Cell} (a : Nat), memWf m = true → memWf (memWrite m a l) = true := by
  induction l with
  | nil => exact fun _ h => h
  | cons b l ih => exact fun a h => ih (a + 1) (memPut_wf a _ h)

theorem memWfFrom_filter (p : Host.Cell → Bool) : ∀ (lo : Option Nat) (m : List Host.Cell), memWfFrom lo m = true →
    memWfFrom lo (m.filter p) = true
  | _, [], _ => rfl
  | lo, (b, w) :: m, hm => by
    have hm' := (memWfFrom_cons lo b w m).1 hm
    have ih := memWfFrom_filter p (some b) m hm'.2.2
    by_cases hp : p (b, w) = true
    · rw [List.filter_cons_of_pos hp, memWfFrom_cons]
      exact ⟨hm'.1, hm'.2.1, ih⟩
    · rw [List.filter_cons_of_neg hp]
      cases lo with
      | none => exact memWfFrom_none ih
      | some l => exact memWfFrom_mono (Nat.le_of_lt (hm'.1 l rfl)) ih

/-- Dropping addresses (zeroing them) keeps the canonical form. -/
theorem memWf_filter {m : List Host.Cell} (p : Host.Cell → Bool) (h : memWf m = true) : memWf (m.filter p) = true :=
  memWfFrom_filter p none m h

/-! ## Reading -/

theorem memGet_of_lt {a b : Nat} (h : a ≤ b) : ∀ {m : List Host.Cell}, memWfFrom (some b) m = true → memGet m a = 0
  | [], _ => rfl
  | (c, v) :: m, hm => by
    have := ((memWfFrom_cons _ c v m).1 hm).1 b rfl
    have h1 : c ≠ a := by omega
    have h2 : a < c := by omega
    simp [memGet, h1, h2]

theorem memGet_memPut_from (a : Nat) (v : Byte) : ∀ (lo : Option Nat) (m : List Host.Cell), memWfFrom lo m = true →
    ∀ x, memGet (memPut m a v) x = if x = a then v.toNat else memGet m x
  | _, [], _, x => by
    by_cases hv : v = 0#8
    · subst hv; simp [memPut, memGet]
    · by_cases h : a = x
      · simp [memPut, hv, memGet, h]
      · by_cases h2 : x < a <;> simp [memPut, hv, memGet, h, Ne.symm h]
  | lo, (b, w) :: m, hm, x => by
    have hm' := (memWfFrom_cons lo b w m).1 hm
    unfold memPut
    split
    · rename_i hab
      split
      · rename_i hv
        subst hv
        by_cases hx : x = a
        · subst hx
          have : b ≠ x := by omega
          simp [memGet, this, hab]
        · simp [hx]
      · by_cases hx : x = a
        · subst hx; simp [memGet]
        · by_cases hlt : x < a
          · have h1 : b ≠ x := by omega
            have h2 : x < b := by omega
            simp [memGet, Ne.symm hx, hx, hlt, h1, h2]
          · simp [memGet, Ne.symm hx, hx, hlt]
    · split
      · rename_i hab
        subst hab
        split
        · rename_i hv
          subst hv
          by_cases hx : x = a
          · subst hx
            simpa using memGet_of_lt (Nat.le_refl _) hm'.2.2
          · by_cases hlt : x < a
            · have := memGet_of_lt (Nat.le_of_lt hlt) hm'.2.2
              simp [memGet, hx, Ne.symm hx, hlt, this]
            · simp [memGet, hx, Ne.symm hx, hlt]
        · by_cases hx : x = a
          · subst hx; simp [memGet]
          · simp [memGet, hx, Ne.symm hx]
      · rename_i h1 h2
        have ih := memGet_memPut_from a v (some b) m hm'.2.2 x
        by_cases hb : b = x
        · subst hb
          have : b ≠ a := fun h => h2 h.symm
          simp [memGet, this]
        · by_cases hlt : x < b
          · have : x ≠ a := by omega
            simp [memGet, hb, hlt, this]
          · simp [memGet, hb, hlt, ih]

/-- What a written byte reads as, and that every other byte reads as before. -/
theorem memGet_memPut {m : List Host.Cell} (h : memWf m = true) (a : Nat) (v : Byte) (x : Nat) :
    memGet (memPut m a v) x = if x = a then v.toNat else memGet m x :=
  memGet_memPut_from a v none m h x

/-- A write leaves every byte outside it as it was. -/
theorem memGet_memWrite_out (l : List Nat) : ∀ {m : List Host.Cell} (a x : Nat), memWf m = true →
    (x < a ∨ a + l.length ≤ x) → memGet (memWrite m a l) x = memGet m x := by
  induction l with
  | nil => intros; rfl
  | cons b l ih =>
    intro m a x h hx
    simp only [List.length_cons] at hx
    rw [memWrite, ih (a + 1) x (memPut_wf a _ h) (by omega), memGet_memPut h, if_neg (by omega)]

/-- A write leaves its bytes where they were to go. -/
theorem memGet_memWrite_in (l : List Nat) : ∀ {m : List Host.Cell} (a i : Nat), memWf m = true → (hi : i < l.length) →
    memGet (memWrite m a l) (a + i) = l[i] % 256 := by
  induction l with
  | nil => intro m a i _ hi; simp at hi
  | cons b l ih =>
    intro m a i h hi
    rw [memWrite]
    cases i with
    | zero =>
      rw [memGet_memWrite_out l (a + 1) (a + 0) (memPut_wf a _ h) (by omega), memGet_memPut h]
      simp
    | succ i =>
      have := ih (a + 1) i (memPut_wf a (BitVec.ofNat 8 b) h) (by simpa using hi)
      rw [show a + (i + 1) = a + 1 + i by omega, this]
      simp

end Sys2Proof.Machine
end

