-- ==== Sys2Proof/Laws/Kept.lean ====
section
/-!
SUPPORT. Every operation on the state keeps the queue of commands as it is and the memory in its canonical form.
-/

namespace Sys2Proof.Machine

/-- From `s` to `t` the queue is the same, and a canonical memory stays canonical. -/
def Kept (s t : State) : Prop := t.pending = s.pending ∧ (memWf s.mem = true → memWf t.mem = true)

variable {s0 : State}

theorem Kept.refl (s : State) : Kept s s := ⟨rfl, id⟩

/-- What happens to the block beside queue and memory does not matter. -/
theorem Kept.withDev {s : State} (d : Dev) (h : Kept s0 s) : Kept s0 ⟨s.pending, s.mem, d⟩ := h

theorem Kept.write {p : List Instr} {m : List Host.Cell} {d : Dev} (a : Nat) (l : List Nat)
    (h : Kept s0 ⟨p, m, d⟩) : Kept s0 ⟨p, memWrite m a l, d⟩ := ⟨h.1, fun w => memWrite_wf l a (h.2 w)⟩

theorem Kept.filter {p : List Instr} {m : List Host.Cell} {d : Dev} (q : Host.Cell → Bool)
    (h : Kept s0 ⟨p, m, d⟩) : Kept s0 ⟨p, m.filter q, d⟩ := ⟨h.1, fun w => memWf_filter q (h.2 w)⟩

/-- A fold of kept steps is kept. -/
theorem Kept.foldl {β : Type} (f : State → β → State) (hf : ∀ t x, Kept s0 t → Kept s0 (f t x)) :
    ∀ (l : List β) (s : State), Kept s0 s → Kept s0 (l.foldl f s)
  | [], _, h => h
  | x :: l, s, h => Kept.foldl f hf l (f s x) (hf s x h)

variable {s : State}


theorem State.onDev_kept (g : Dev → Dev) (h : Kept s0 s) : Kept s0 (s.onDev g) := h

theorem State.writeWord_kept (cons w o : Nat) (l : List Nat) (v : Wr)
    (h : Kept s0 s) : Kept s0 (s.writeWord cons w o l v) := by
  unfold State.writeWord
  dsimp only
  repeat' first
    | with_reducible apply Kept.write
    | (with_reducible refine Kept.withDev _ ?_; with_reducible assumption)
    | split

theorem State.writeFuel_kept (cons : Nat) (v : Wr) (n : Nat) : ∀ {s : State} (a : Nat) (l : List Nat),
    Kept s0 s → Kept s0 (s.writeFuel cons a l v n) := by
  induction n with
  | zero => exact fun _ _ h => h
  | succ n ih =>
    intro s a l h
    unfold State.writeFuel
    split
    · exact h
    · exact ih _ _ (State.writeWord_kept _ _ _ _ _ h)

theorem State.writeBytes_kept (cons a : Nat) (l : List Nat) (v : Wr)
    (h : Kept s0 s) : Kept s0 (s.writeBytes cons a l v) := by
  unfold State.writeBytes
  repeat' first | with_reducible assumption | with_reducible apply State.writeFuel_kept

theorem State.rewriteWord_kept (cons a : Nat) (h : Kept s0 s) : Kept s0 (s.rewriteWord cons a) := by
  unfold State.rewriteWord
  dsimp only
  repeat' first
    | with_reducible apply Kept.write
    | (with_reducible refine Kept.withDev _ ?_; with_reducible assumption)
    | split

theorem State.storeWords_kept (a : Nat) (l : List Nat) (bad : List Bool)
    (h : Kept s0 s) : Kept s0 (s.storeWords a l bad) := by
  unfold State.storeWords
  repeat' first
    | with_reducible apply Kept.write
    | (with_reducible refine Kept.withDev _ ?_; with_reducible assumption)

theorem State.zeroRange_kept (lo hi : Nat) (h : Kept s0 s) : Kept s0 (s.zeroRange lo hi) := by
  unfold State.zeroRange
  repeat' first
    | with_reducible apply Kept.filter
    | (with_reducible refine Kept.withDev _ ?_; with_reducible assumption)

theorem State.zeroAhead_kept (line : Nat) (h : Kept s0 s) : Kept s0 (s.zeroAhead line) := by
  unfold State.zeroAhead
  repeat' first
    | with_reducible assumption
    | with_reducible apply State.onDev_kept
    | with_reducible apply State.zeroRange_kept
    | split

theorem State.lineMerge_kept (a o n : Nat) (h : Kept s0 s) : Kept s0 (s.lineMerge a o n) := by
  unfold State.lineMerge
  repeat' first
    | with_reducible assumption
    | with_reducible apply State.rewriteWord_kept
    | (with_reducible refine Kept.foldl _ (fun t x ht => ?_) _ _ ?_)
    | split

theorem State.dupLine_kept (a : Nat) (k : Fin 16) (h : Kept s0 s) : Kept s0 (s.dupLine a k) := by
  unfold State.dupLine
  repeat' first | with_reducible assumption | with_reducible apply State.onDev_kept

theorem State.dramWrite_kept (cons x : Nat) (l : List Nat) (v : Wr)
    (h : Kept s0 s) : Kept s0 (s.dramWrite cons x l v) := by
  unfold State.dramWrite
  dsimp only
  repeat' first
    | with_reducible assumption
    | with_reducible apply State.onDev_kept
    | with_reducible apply State.writeBytes_kept
    | with_reducible apply State.zeroAhead_kept
    | with_reducible apply State.lineMerge_kept
    | split

theorem State.dramStore_kept (cons x : Nat) (l : List Nat) (bad : List Bool)
    (h : Kept s0 s) : Kept s0 (s.dramStore cons x l bad) := by
  unfold State.dramStore
  dsimp only
  repeat' first
    | with_reducible assumption
    | with_reducible apply State.onDev_kept
    | with_reducible apply State.storeWords_kept
    | with_reducible apply State.zeroAhead_kept
    | with_reducible apply State.lineMerge_kept
    | split

theorem State.failSpill_kept (e : Nat) (h : Kept s0 s) : Kept s0 (s.failSpill e) := by
  unfold State.failSpill
  dsimp only
  repeat' first
    | (with_reducible refine Kept.withDev _ ?_
       first
         | with_reducible assumption
         | with_reducible apply State.onDev_kept
         | with_reducible apply State.dramStore_kept)
    | split

theorem State.movInto_kept (e : Nat) (l : List Nat) (bad : List Bool)
    (h : Kept s0 s) : Kept s0 (s.movInto e l bad).2 := by
  unfold State.movInto
  dsimp only
  repeat' first
    | with_reducible assumption
    | with_reducible apply State.onDev_kept
    | with_reducible apply State.dramStore_kept
    | split

theorem State.movLine_kept (e n : Nat) (h : Kept s0 s) : Kept s0 (s.movLine e n).2 := by
  unfold State.movLine
  dsimp only
  repeat' first
    | (with_reducible refine Kept.withDev _ ?_
       first
         | with_reducible assumption
         | with_reducible apply State.onDev_kept
         | with_reducible apply State.movInto_kept)
    | split

theorem State.fillLine_kept (e w n : Nat) (h : Kept s0 s) : Kept s0 (s.fillLine e w n).2 := by
  unfold State.fillLine
  dsimp only
  repeat' first
    | with_reducible assumption
    | with_reducible apply State.onDev_kept
    | with_reducible apply State.dramWrite_kept
    | split

theorem State.blkCycle_kept (e w : Nat) (h : Kept s0 s) : Kept s0 (s.blkCycle e w).2 := by
  unfold State.blkCycle
  dsimp only
  repeat' first
    | (with_reducible refine Kept.withDev _ ?_
       first
         | with_reducible assumption
         | with_reducible apply State.onDev_kept
         | with_reducible apply State.movLine_kept
         | with_reducible apply State.fillLine_kept)
    | split

theorem State.runBlock_kept (e n : Nat) : ∀ {s : State}, Kept s0 s → Kept s0 (s.runBlock e n) := by
  induction n with
  | zero => exact fun h => h
  | succ n ih =>
    intro s h
    unfold State.runBlock
    dsimp only
    repeat' split
    all_goals first
      | exact h
      | exact ih (State.blkCycle_kept _ _ h)
      | exact State.blkCycle_kept _ _ h

theorem State.issueBlock_kept (e cls op n : Nat) (body : Body)
    (h : Kept s0 s) : Kept s0 (s.issueBlock e cls op n body) := by
  unfold State.issueBlock
  dsimp only
  repeat' first
    | with_reducible assumption
    | with_reducible apply State.onDev_kept
    | with_reducible apply State.runBlock_kept
    | split

theorem State.lineFetch_kept (e n : Nat) (rest : List Nat) (h : Kept s0 s) : Kept s0 (s.lineFetch e n rest) := by
  unfold State.lineFetch
  repeat' first
    | (with_reducible refine Kept.withDev _ ?_
       first
         | with_reducible assumption
         | with_reducible apply State.onDev_kept
         | with_reducible apply State.storeWords_kept)

theorem State.lineArrival_kept (e : Nat) (h : Kept s0 s) : Kept s0 (s.lineArrival e) := by
  unfold State.lineArrival
  dsimp only
  repeat' first
    | with_reducible assumption
    | with_reducible apply State.onDev_kept
    | with_reducible apply State.lineFetch_kept
    | split

theorem State.windowWrite_kept (e off : Nat) (l : List Nat) (v : Wr)
    (h : Kept s0 s) : Kept s0 (s.windowWrite e off l v) := by
  unfold State.windowWrite
  repeat' first
    | with_reducible assumption
    | with_reducible apply State.onDev_kept
    | with_reducible apply State.writeBytes_kept
    | split

theorem State.onEng_kept (e : Nat) (g : State → State) (hg : ∀ t, Kept s0 t → Kept s0 (g t)) (h : Kept s0 s) :
    Kept s0 (s.onEng e g) := by
  unfold State.onEng
  repeat' first | with_reducible assumption | apply hg | with_reducible apply State.onDev_kept | split

theorem State.acqKeep_kept (u k : Nat) (l : List AcqSample) (h : Kept s0 s) : Kept s0 (s.acqKeep u k l) := by
  unfold State.acqKeep
  repeat' first
    | with_reducible apply Kept.write
    | (with_reducible refine Kept.withDev _ ?_; with_reducible assumption)

theorem State.acqClose_kept (u : Nat) (trunc : Bool) (h : Kept s0 s) : Kept s0 (s.acqClose u trunc) := by
  unfold State.acqClose
  dsimp only
  repeat' first
    | (with_reducible refine Kept.withDev _ ?_
       first
         | with_reducible assumption
         | with_reducible apply State.storeWords_kept
         | with_reducible apply State.acqKeep_kept
         | with_reducible refine Kept.foldl _ (fun t x ht => ?_) _ _ ?_)
    | split

theorem State.acqPostComplete_kept (u : Nat) (h : Kept s0 s) : Kept s0 (s.acqPostComplete u) := by
  unfold State.acqPostComplete
  dsimp only
  repeat' first
    | with_reducible assumption
    | with_reducible apply State.onDev_kept
    | with_reducible apply State.acqClose_kept
    | split

theorem State.acqDisarm_kept (u : Nat) (h : Kept s0 s) : Kept s0 (s.acqDisarm u) := by
  unfold State.acqDisarm
  repeat' first
    | with_reducible assumption
    | with_reducible apply State.onDev_kept
    | with_reducible apply State.acqClose_kept
    | split

theorem State.acqPut_kept (u k : Nat) (l : List Nat) (bad : Bool) (h : Kept s0 s) : Kept s0 (s.acqPut u k l bad) := by
  unfold State.acqPut
  repeat' first | with_reducible assumption | with_reducible apply State.dramStore_kept

theorem State.acqFetch_kept (u k : Nat) (h : Kept s0 s) : Kept s0 (s.acqFetch u k).2.2 := by
  unfold State.acqFetch
  repeat' first | (with_reducible refine Kept.withDev _ ?_; first | with_reducible assumption)

theorem State.acqSpill_kept (u : Nat) (h : Kept s0 s) : Kept s0 (s.acqSpill u) := by
  unfold State.acqSpill
  dsimp only
  repeat' first
    | with_reducible assumption
    | with_reducible apply State.onDev_kept
    | with_reducible apply State.acqKeep_kept
    | with_reducible apply State.acqPut_kept
    | with_reducible apply State.acqFetch_kept
    | split

theorem State.played_kept (h : Kept s0 s) : Kept s0 s.played := by
  unfold State.played
  repeat' first | with_reducible assumption | with_reducible apply State.onDev_kept

theorem State.playedAt_kept (a : Nat) (h : Kept s0 s) : Kept s0 (s.playedAt a) := by
  unfold State.playedAt
  repeat' first | with_reducible assumption | with_reducible apply State.played_kept | split

theorem State.awgRefill_kept (g : Nat) (h : Kept s0 s) : Kept s0 (s.awgRefill g) := by
  unfold State.awgRefill
  dsimp only
  repeat' first
    | (with_reducible refine Kept.withDev _ ?_
       first
         | with_reducible assumption
         | with_reducible apply State.onDev_kept
         | with_reducible apply State.storeWords_kept
         | with_reducible apply State.played_kept)
    | split

theorem State.headLines_kept (g i : Nat) (p : Nat × AwgEntry) (h : Kept s0 s) : Kept s0 (s.headLines g i p) := by
  unfold State.headLines
  repeat' first
    | (with_reducible refine Kept.withDev _ ?_
       first
         | with_reducible assumption
         | with_reducible apply State.storeWords_kept
         | with_reducible refine Kept.foldl _ (fun t x ht => ?_) _ _ ?_)

theorem State.awgPrime_kept (g e : Nat) (h : Kept s0 s) : Kept s0 (s.awgPrime g e) := by
  unfold State.awgPrime
  repeat' first
    | (with_reducible refine Kept.withDev _ ?_
       first
         | with_reducible assumption
         | with_reducible apply State.onDev_kept
         | with_reducible apply State.played_kept
         | with_reducible apply State.headLines_kept
         | with_reducible refine Kept.foldl _ (fun t x ht => ?_) _ _ ?_)
    | split

theorem State.awgSeqWrite_kept (g e o : Nat) (l : List Nat) (v : Wr)
    (h : Kept s0 s) : Kept s0 (s.awgSeqWrite g e o l v) := by
  unfold State.awgSeqWrite
  repeat' first
    | with_reducible assumption
    | with_reducible apply State.onDev_kept
    | with_reducible apply State.writeBytes_kept
    | split

theorem State.reqAccept_kept (src : DramSrc) (line : Nat) (write : Bool) (off : Nat) (l : List Nat) (v : Wr)
    (h : Kept s0 s) : Kept s0 (s.reqAccept src line write off l v) := by
  unfold State.reqAccept
  dsimp only
  repeat' first
    | (with_reducible refine Kept.withDev _ ?_
       first
         | with_reducible assumption
         | with_reducible apply State.onDev_kept
         | with_reducible apply State.dramWrite_kept)
    | split

theorem State.reqOut_kept (p : Nat) (r : DramReq) (dup : Option (Fin 16))
    (h : Kept s0 s) : Kept s0 (s.reqOut p r dup) := by
  unfold State.reqOut
  repeat' first
    | with_reducible assumption
    | with_reducible apply State.onDev_kept
    | with_reducible apply State.dupLine_kept
    | split

theorem State.reqIssue_kept (p : Nat) (dup : Option (Fin 16)) (h : Kept s0 s) : Kept s0 (s.reqIssue p dup) := by
  unfold State.reqIssue
  dsimp only
  repeat' first
    | with_reducible assumption
    | with_reducible apply State.onDev_kept
    | with_reducible apply State.reqOut_kept
    | split

theorem State.readComplete_kept (p : Nat) (dup : Option (Fin 16)) (moved : List (Nat × Bool))
    (h : Kept s0 s) : Kept s0 (s.readComplete p dup moved) := by
  unfold State.readComplete
  repeat' first | (with_reducible refine Kept.withDev _ ?_; first | with_reducible assumption) | split

theorem State.scrubWord_kept (a : Nat) (h : Kept s0 s) : Kept s0 (s.scrubWord a) := by
  unfold State.scrubWord
  repeat' first | with_reducible assumption | with_reducible apply State.rewriteWord_kept

theorem State.scrubRead_kept (p : Nat) (h : Kept s0 s) : Kept s0 (s.scrubRead p) := by
  unfold State.scrubRead
  dsimp only
  repeat' first
    | with_reducible assumption
    | with_reducible apply State.onDev_kept
    | with_reducible apply State.scrubWord_kept
    | (with_reducible refine Kept.foldl _ (fun t x ht => ?_) _ _ ?_)
    | split

theorem State.zeroLine_kept (p : Nat) (dup : Option (Fin 16)) (h : Kept s0 s) : Kept s0 (s.zeroLine p dup) := by
  unfold State.zeroLine
  dsimp only
  repeat' first
    | with_reducible assumption
    | with_reducible apply State.onDev_kept
    | with_reducible apply State.zeroRange_kept
    | with_reducible apply State.dupLine_kept
    | split

theorem State.onPort_kept (p : Nat) (g : Dev → Dev) (h : Kept s0 s) : Kept s0 (s.onPort p g) := by
  unfold State.onPort
  repeat' first | with_reducible assumption | with_reducible apply State.onDev_kept | split

theorem State.profSelect_kept (sel : Nat) (en : Bool) (h : Kept s0 s) : Kept s0 (s.profSelect sel en) := by
  unfold State.profSelect
  dsimp only
  repeat' first | with_reducible assumption | with_reducible apply State.onDev_kept | split

theorem State.zeroDom_kept (k : Nat) (h : Kept s0 s) : Kept s0 (s.zeroDom k) := by
  unfold State.zeroDom
  repeat' first
    | with_reducible assumption
    | with_reducible apply State.zeroRange_kept
    | (with_reducible refine Kept.foldl _ (fun t x ht => ?_) _ _ ?_)

theorem State.zeroPort_kept (p : Nat) (h : Kept s0 s) : Kept s0 (s.zeroPort p) := by
  unfold State.zeroPort
  repeat' first
    | with_reducible apply Kept.filter
    | (with_reducible refine Kept.withDev _ ?_; with_reducible assumption)

theorem State.domLose_kept (k : Nat) (h : Kept s0 s) : Kept s0 (s.domLose k) := by
  unfold State.domLose
  repeat' first
    | with_reducible assumption
    | with_reducible apply State.onDev_kept
    | with_reducible apply State.zeroDom_kept
    | with_reducible apply State.zeroPort_kept
    | split

theorem State.keptApply_kept (k : Nat) (h : Kept s0 s) : Kept s0 (s.keptApply k) := by
  unfold State.keptApply
  repeat' first
    | with_reducible assumption
    | with_reducible apply State.onDev_kept
    | (with_reducible refine Kept.foldl _ (fun t x ht => ?_) _ _ ?_)
    | split

theorem State.reinit_kept (k : Nat) (h : Kept s0 s) : Kept s0 (s.reinit k) := by
  unfold State.reinit
  repeat' first
    | with_reducible assumption
    | with_reducible apply State.onDev_kept
    | with_reducible apply State.keptApply_kept
    | split

theorem State.transEnd_kept (k : Nat) (h : Kept s0 s) : Kept s0 (s.transEnd k) := by
  unfold State.transEnd
  dsimp only
  repeat' first
    | with_reducible assumption
    | with_reducible apply State.onDev_kept
    | with_reducible apply State.domLose_kept
    | with_reducible apply State.keptApply_kept
    | split

theorem State.keyReplace_kept (h : Kept s0 s) : Kept s0 s.keyReplace := by
  unfold State.keyReplace
  repeat' first
    | with_reducible assumption
    | with_reducible apply State.onDev_kept
    | with_reducible apply State.zeroRange_kept

theorem State.keyErase_kept (h : Kept s0 s) : Kept s0 s.keyErase := by
  unfold State.keyErase
  repeat' first
    | with_reducible assumption
    | with_reducible apply State.onDev_kept
    | with_reducible apply State.keyReplace_kept

theorem State.zeroChip_kept (all : Bool) (h : Kept s0 s) : Kept s0 (s.zeroChip all) := by
  unfold State.zeroChip
  repeat' first
    | with_reducible assumption
    | with_reducible apply State.onDev_kept
    | with_reducible apply State.zeroRange_kept
    | (with_reducible refine Kept.foldl _ (fun t x ht => ?_) _ _ ?_)
    | split

theorem State.wipe_kept (scope : Nat) (h : Kept s0 s) : Kept s0 (s.wipe scope) := by
  unfold State.wipe
  repeat' first
    | with_reducible assumption
    | with_reducible apply State.onDev_kept
    | with_reducible apply State.keyReplace_kept
    | with_reducible apply State.keyErase_kept
    | with_reducible apply State.zeroChip_kept
    | split

theorem State.lockdown_kept (src : Nat) (but : Option Nat) (h : Kept s0 s) : Kept s0 (s.lockdown src but) := by
  unfold State.lockdown
  repeat' first
    | with_reducible assumption
    | with_reducible apply State.onDev_kept
    | with_reducible apply State.zeroRange_kept

theorem State.alarmErase_kept (h : Kept s0 s) : Kept s0 s.alarmErase := by
  unfold State.alarmErase
  repeat' first
    | with_reducible assumption
    | with_reducible apply State.onDev_kept
    | with_reducible apply State.keyErase_kept
    | with_reducible apply State.zeroChip_kept

theorem State.alarmLock_kept (h : Kept s0 s) : Kept s0 s.alarmLock := by
  unfold State.alarmLock
  repeat' first
    | with_reducible assumption
    | with_reducible apply State.lockdown_kept
    | with_reducible apply State.alarmErase_kept

theorem State.alarm_kept (k : Nat) (h : Kept s0 s) : Kept s0 (s.alarm k) := by
  unfold State.alarm
  dsimp only
  repeat' first
    | with_reducible assumption
    | with_reducible apply State.onDev_kept
    | with_reducible apply State.alarmErase_kept
    | with_reducible apply State.alarmLock_kept
    | split

theorem State.alarmIs_kept (k : Nat) (v : Bool) (h : Kept s0 s) : Kept s0 (s.alarmIs k v) := by
  unfold State.alarmIs
  repeat' first
    | with_reducible assumption
    | with_reducible apply State.onDev_kept
    | with_reducible apply State.alarm_kept
    | split

theorem State.keyCheck_kept (bad : List Nat) (other : Bool) (h : Kept s0 s) : Kept s0 (s.keyCheck bad other) := by
  unfold State.keyCheck
  dsimp only
  repeat' first
    | with_reducible assumption
    | with_reducible apply State.onDev_kept
    | with_reducible apply State.alarmIs_kept
    | split

theorem State.trngFail_kept (h : Kept s0 s) : Kept s0 s.trngFail := by
  unfold State.trngFail
  repeat' first
    | with_reducible assumption
    | with_reducible apply State.onDev_kept
    | with_reducible apply State.alarmIs_kept

theorem State.sensorRead_kept (k : Nat) (r : Int) (h : Kept s0 s) : Kept s0 (s.sensorRead k r) := by
  unfold State.sensorRead
  repeat' first
    | with_reducible assumption
    | with_reducible apply State.onDev_kept
    | with_reducible apply State.alarmIs_kept

theorem State.unsRead_kept (x n : Nat) (h : Kept s0 s) : Kept s0 (s.unsRead x n).2 := by
  unfold State.unsRead
  dsimp only
  repeat' first
    | (with_reducible refine Kept.withDev _ ?_
       first
         | with_reducible assumption
         | with_reducible apply State.onDev_kept)
    | split

theorem State.unsRead_to {x n : Nat} {r : Option (List Nat)} {t u : State} (e : t.unsRead x n = (r, u))
    (h : Kept s0 t) : Kept s0 u := by
  have := State.unsRead_kept x n h
  rwa [e] at this

theorem State.unsPass1_kept (h : Kept s0 s) : Kept s0 s.unsPass1 := by
  unfold State.unsPass1
  dsimp only
  repeat' first
    | with_reducible assumption
    | with_reducible apply State.onDev_kept
    | refine State.unsRead_to (by assumption) ?_
    | split

theorem State.unsPass2_kept (h : Kept s0 s) : Kept s0 s.unsPass2 := by
  unfold State.unsPass2
  dsimp only
  repeat' first
    | with_reducible assumption
    | with_reducible apply State.onDev_kept
    | with_reducible apply State.dramWrite_kept
    | (with_reducible refine Kept.foldl _ (fun t x ht => ?_) _ _ ?_)
    | refine State.unsRead_to (by assumption) ?_
    | split

theorem State.regZeroed_kept (n : Nat) (h : Kept s0 s) : Kept s0 (s.regZeroed n) := by
  unfold State.regZeroed
  repeat' first
    | with_reducible assumption
    | with_reducible apply State.onDev_kept
    | with_reducible apply State.zeroRange_kept
    | split

theorem State.dbgTry_kept (cls : Nat) (h : Kept s0 s) : Kept s0 (s.dbgTry cls) := by
  unfold State.dbgTry
  dsimp only
  repeat' first
    | with_reducible assumption
    | with_reducible apply State.onDev_kept
    | with_reducible apply State.wipe_kept
    | with_reducible apply State.alarm_kept
    | split

theorem State.awgSew_kept (t : Taken) (h : Kept s0 s) : Kept s0 (s.awgSew t) := by
  unfold State.awgSew
  repeat' first | with_reducible assumption | with_reducible apply State.onDev_kept

theorem State.sewApply_kept (g : Nat) (h : Kept s0 s) : Kept s0 (s.sewApply g) := by
  unfold State.sewApply
  dsimp only
  repeat' first
    | (with_reducible refine Kept.withDev _ ?_
       first
         | with_reducible assumption
         | with_reducible apply State.onDev_kept
         | with_reducible apply State.lockdown_kept
         | with_reducible apply State.awgSew_kept
         | with_reducible refine Kept.foldl _ (fun t x ht => ?_) _ _ ?_)
    | split

theorem State.sewTargetCycle_kept (g : Nat) (h : Kept s0 s) : Kept s0 (s.sewTargetCycle g) := by
  unfold State.sewTargetCycle
  dsimp only
  repeat' first
    | with_reducible assumption
    | with_reducible apply State.onDev_kept
    | with_reducible apply State.sewApply_kept
    | (with_reducible refine Kept.foldl _ (fun t x ht => ?_) _ _ ?_)
    | split

theorem State.afterReset_kept (t : Nat) (power : Bool) (h : Kept s0 s) : Kept s0 (s.afterReset t power) := by
  unfold State.afterReset
  repeat' first
    | with_reducible apply Kept.filter
    | (with_reducible refine Kept.withDev _ ?_; with_reducible assumption)

theorem State.deviceReset_kept (c : RstCause) (t : Nat) (h : Kept s0 s) : Kept s0 (s.deviceReset c t) := by
  unfold State.deviceReset
  repeat' first
    | with_reducible assumption
    | with_reducible apply State.onDev_kept
    | with_reducible apply State.afterReset_kept

theorem State.sysReset_kept (low : Nat) (h : Kept s0 s) : Kept s0 (s.sysReset low) := by
  unfold State.sysReset
  dsimp only
  repeat' first
    | (with_reducible refine Kept.withDev _ ?_
       first
         | with_reducible assumption
         | with_reducible apply State.deviceReset_kept)
    | split

theorem State.rstGo_kept (key : Nat) (smb : Bool) (h : Kept s0 s) : Kept s0 (s.rstGo key smb) := by
  unfold State.rstGo
  repeat' first
    | with_reducible assumption
    | with_reducible apply State.onDev_kept
    | with_reducible apply State.deviceReset_kept
    | split

theorem State.linkReset_kept (h : Kept s0 s) : Kept s0 s.linkReset := by
  unfold State.linkReset
  repeat' first
    | with_reducible assumption
    | with_reducible apply State.onDev_kept
    | with_reducible apply State.zeroDom_kept

theorem State.cmdEnd_kept (op code : Nat) (res : List Nat) (h : Kept s0 s) : Kept s0 (s.cmdEnd op code res) := by
  unfold State.cmdEnd
  repeat' first | with_reducible assumption | with_reducible apply State.onDev_kept

theorem State.cmdFix_kept (code : Nat) (res : List Nat) (h : Kept s0 s) : Kept s0 (s.cmdFix code res) := by
  unfold State.cmdFix
  repeat' first | with_reducible assumption | with_reducible apply State.onDev_kept

theorem State.nvmPut_kept (a unit : Nat) (l : List Nat) (h : Kept s0 s) : Kept s0 (s.nvmPut a unit l) := by
  unfold State.nvmPut
  repeat' first | with_reducible assumption | with_reducible apply Kept.write | with_reducible apply State.onDev_kept

theorem State.stepWrite_kept (prof k : Nat) (h : Kept s0 s) : Kept s0 (s.stepWrite prof k) := by
  unfold State.stepWrite
  dsimp only
  repeat' first
    | with_reducible assumption
    | with_reducible apply State.onDev_kept
    | with_reducible apply State.nvmPut_kept
    | split

theorem State.calStep_kept (a0 : Nat) (r : CmdEnd) (l : List Nat) (step : Nat)
    (h : Kept s0 s) : Kept s0 (s.calStep a0 r l step).2 := by
  unfold State.calStep
  repeat' first
    | with_reducible assumption
    | with_reducible apply State.onDev_kept
    | with_reducible apply State.stepWrite_kept
    | (with_reducible refine Kept.foldl _ (fun t x ht => ?_) _ _ ?_)
    | split

theorem State.calStep_fold_kept (a0 : Nat) (r : CmdEnd) (l : List Nat) : ∀ (a : List Nat × State), Kept s0 a.2 →
    Kept s0 (l.foldl (fun a step => State.calStep a.2 a0 r a.1 step) a).2 := by
  induction l with
  | nil => exact fun _ h => h
  | cons x l ih => exact fun a h => ih _ (State.calStep_kept _ _ _ _ h)

theorem State.calEnd_kept (a0 a1 : Nat) (r : CmdEnd) (h : Kept s0 s) : Kept s0 (s.calEnd a0 a1 r) := by
  unfold State.calEnd
  repeat' first
    | with_reducible assumption
    | with_reducible apply State.onDev_kept
    | with_reducible apply State.cmdEnd_kept
    | exact State.calStep_fold_kept _ _ _ _ h
    | split

theorem State.selfTestCmd_kept (a0 a1 : Nat) (h : Kept s0 s) : Kept s0 (s.selfTestCmd a0 a1) := by
  unfold State.selfTestCmd
  repeat' first
    | with_reducible assumption
    | with_reducible apply State.onDev_kept
    | with_reducible apply State.cmdFix_kept
    | (with_reducible refine Kept.foldl _ (fun t x ht => ?_) _ _ ?_)

theorem State.keyImport_kept (l : List Nat) (h : Kept s0 s) : Kept s0 (s.keyImport l) := by
  unfold State.keyImport
  dsimp only
  repeat' first
    | with_reducible assumption
    | with_reducible apply State.onDev_kept
    | with_reducible apply State.cmdEnd_kept
    | split

theorem State.lcCommit_kept (target : Nat) (h : Kept s0 s) : Kept s0 (s.lcCommit target) := by
  unfold State.lcCommit
  repeat' first
    | with_reducible assumption
    | with_reducible apply State.onDev_kept
    | with_reducible apply State.keyReplace_kept
    | with_reducible apply State.zeroChip_kept

theorem State.lifecycle_kept (target : Nat) (sig : List Nat) (h : Kept s0 s) : Kept s0 (s.lifecycle target sig) := by
  unfold State.lifecycle
  dsimp only
  repeat' first
    | with_reducible assumption
    | with_reducible apply State.onDev_kept
    | with_reducible apply State.alarm_kept
    | with_reducible apply State.cmdEnd_kept
    | split

theorem State.nvmWrite_kept (l : List Nat) (readBack : Bool) (h : Kept s0 s) : Kept s0 (s.nvmWrite l readBack) := by
  unfold State.nvmWrite
  dsimp only
  repeat' first
    | with_reducible assumption
    | with_reducible apply State.onDev_kept
    | with_reducible apply State.cmdEnd_kept
    | with_reducible apply State.nvmPut_kept
    | split

theorem State.cmdStart_kept (op : Nat) (a : List Nat) (buf : List Nat) (frames : List (Nat × Nat × Nat))
    (h : Kept s0 s) : Kept s0 (s.cmdStart op a buf frames) := by
  unfold State.cmdStart
  dsimp only
  repeat' first
    | with_reducible assumption
    | with_reducible apply State.onDev_kept
    | with_reducible apply State.wipe_kept
    | with_reducible apply State.cmdEnd_kept
    | with_reducible apply State.cmdFix_kept
    | with_reducible apply State.selfTestCmd_kept
    | with_reducible apply State.lifecycle_kept
    | split

theorem State.doorbell_kept (frames : List (Nat × Nat × Nat)) (h : Kept s0 s) : Kept s0 (s.doorbell frames) := by
  unfold State.doorbell
  repeat' first
    | (with_reducible refine Kept.withDev _ ?_
       first
         | with_reducible assumption
         | with_reducible apply State.onDev_kept
         | with_reducible apply State.cmdStart_kept)
    | split

theorem State.order_kept (op : Nat) (a : List Nat) (buf : List Nat) (frames : List (Nat × Nat × Nat))
    (h : Kept s0 s) : Kept s0 (s.order op a buf frames) := by
  unfold State.order
  repeat' first
    | with_reducible assumption
    | with_reducible apply State.onDev_kept
    | with_reducible apply State.writeBytes_kept
    | with_reducible apply State.doorbell_kept
    | split

theorem State.cmdComplete_kept (r : CmdEnd) (h : Kept s0 s) : Kept s0 (s.cmdComplete r) := by
  unfold State.cmdComplete
  repeat' first
    | with_reducible assumption
    | with_reducible apply State.onDev_kept
    | with_reducible apply State.cmdEnd_kept
    | with_reducible apply State.calEnd_kept
    | with_reducible apply State.keyImport_kept
    | with_reducible apply State.lcCommit_kept
    | with_reducible apply State.nvmWrite_kept
    | split

theorem State.telemetry_kept (rails : List Nat) (h : Kept s0 s) : Kept s0 (s.telemetry rails) := by
  unfold State.telemetry
  dsimp only
  repeat' first
    | (with_reducible refine Kept.withDev _ ?_
       first
         | with_reducible assumption
         | with_reducible apply State.dramWrite_kept)
    | split

theorem State.winRead_kept (via : Via) (w : Win) (a n : Nat) (h : Kept s0 s) : Kept s0 (s.winRead via w a n).2.2 := by
  unfold State.winRead
  repeat' first | (with_reducible refine Kept.withDev _ ?_; first | with_reducible assumption) | split

theorem State.bar0Read_kept (via : Via) (a n : Nat) (h : Kept s0 s) : Kept s0 (s.bar0Read via a n).2.2 := by
  unfold State.bar0Read
  dsimp only
  repeat' first
    | with_reducible assumption
    | with_reducible apply State.onDev_kept
    | with_reducible apply State.playedAt_kept
    | with_reducible apply State.winRead_kept
    | split

theorem State.snapshot_kept (via : Via) (a len16 : Nat) (rcclr : Bool)
    (h : Kept s0 s) : Kept s0 (s.snapshot via a len16 rcclr) := by
  unfold State.snapshot
  dsimp only
  repeat' first
    | with_reducible assumption
    | with_reducible apply Kept.write
    | with_reducible apply State.onDev_kept
    | split

theorem State.effect_kept (via : Via) (d0 : Dev) (ws : List FieldWr) (w : FieldWr)
    (h : Kept s0 s) : Kept s0 (s.effect via d0 ws w) := by
  unfold State.effect
  dsimp only
  repeat' first
    | with_reducible assumption
    | with_reducible apply State.onDev_kept
    | with_reducible apply State.acqDisarm_kept
    | with_reducible apply State.awgPrime_kept
    | with_reducible apply State.profSelect_kept
    | with_reducible apply State.dbgTry_kept
    | with_reducible apply State.rstGo_kept
    | with_reducible apply State.doorbell_kept
    | with_reducible apply State.snapshot_kept
    | split

theorem State.regWrite_kept (via : Via) (a n v : Nat) (h : Kept s0 s) : Kept s0 (s.regWrite via a n v) := by
  unfold State.regWrite
  repeat' first
    | with_reducible assumption
    | with_reducible apply State.onDev_kept
    | with_reducible apply State.effect_kept
    | (with_reducible refine Kept.foldl _ (fun t x ht => ?_) _ _ ?_)
    | split

theorem State.seqWrite_kept (g : Nat) (v : Wr) (n : Nat) : ∀ {s : State} (a : Nat) (l : List Nat),
    Kept s0 s → Kept s0 (s.seqWrite g a l v n) := by
  induction n with
  | zero => exact fun _ _ h => h
  | succ n ih =>
    intro s a l h
    unfold State.seqWrite
    split
    · exact h
    · exact ih _ _ (State.awgSeqWrite_kept _ _ _ _ _ h)

theorem State.winWrite_kept (via : Via) (w : Win) (a : Nat) (l : List Nat) (v : Wr)
    (h : Kept s0 s) : Kept s0 (s.winWrite via w a l v) := by
  unfold State.winWrite
  repeat' first
    | with_reducible assumption
    | with_reducible apply State.onDev_kept
    | with_reducible apply State.writeBytes_kept
    | with_reducible apply State.windowWrite_kept
    | with_reducible apply State.seqWrite_kept
    | split

theorem State.bar0Write_kept (via : Via) (a : Nat) (l : List Nat) (v : Wr)
    (h : Kept s0 s) : Kept s0 (s.bar0Write via a l v) := by
  unfold State.bar0Write
  dsimp only
  repeat' first
    | with_reducible assumption
    | with_reducible apply State.onDev_kept
    | with_reducible apply State.playedAt_kept
    | with_reducible apply State.regWrite_kept
    | with_reducible apply State.winWrite_kept
    | split

theorem State.bar2Part_kept (x n : Nat) (h : Kept s0 s) : Kept s0 (s.bar2Part x n).2.2 := by
  unfold State.bar2Part
  repeat' first
    | (with_reducible refine Kept.withDev _ ?_
       first
         | with_reducible assumption
         | with_reducible apply State.onDev_kept)
    | split

theorem State.bar2Part_fold_kept (l : List (Nat × Nat)) : ∀ (a : List Nat × Bool × State), Kept s0 a.2.2 →
    Kept s0 (l.foldl (fun a p => (a.1 ++ (a.2.2.bar2Part p.1 p.2).1, a.2.1 || (a.2.2.bar2Part p.1 p.2).2.1,
      (a.2.2.bar2Part p.1 p.2).2.2)) a).2.2 := by
  induction l with
  | nil => exact fun _ h => h
  | cons x l ih => exact fun a h => ih _ (State.bar2Part_kept _ _ h)

theorem State.bar2Read_kept (off n : Nat) (h : Kept s0 s) : Kept s0 (s.bar2Read off n) := by
  unfold State.bar2Read
  dsimp only
  repeat' first | with_reducible assumption | exact State.bar2Part_fold_kept _ _ h | split

theorem State.bar2Put_kept (x : Nat) (l : List Nat) (v : Wr) (h : Kept s0 s) : Kept s0 (s.bar2Put x l v) := by
  unfold State.bar2Put
  repeat' first
    | with_reducible assumption
    | with_reducible apply State.onDev_kept
    | with_reducible apply State.dramWrite_kept
    | split

theorem State.bar2Write_kept (off : Nat) (l : List Nat) (v : Wr) (h : Kept s0 s) : Kept s0 (s.bar2Write off l v) := by
  unfold State.bar2Write
  dsimp only
  repeat' first
    | with_reducible assumption
    | with_reducible apply State.bar2Put_kept
    | (with_reducible refine Kept.foldl _ (fun t x ht => ?_) _ _ ?_)
    | split

theorem State.scrubQueue_kept (e a : Nat) (h : Kept s0 s) : Kept s0 (s.scrubQueue e a) := by
  unfold State.scrubQueue
  dsimp only
  repeat' first
    | (with_reducible refine Kept.withDev _ ?_
       first
         | with_reducible assumption
         | with_reducible apply State.rewriteWord_kept)
    | split

theorem State.scrubVisit_kept (m : CodedMem) (w : Nat) (h : Kept s0 s) : Kept s0 (s.scrubVisit m w) := by
  unfold State.scrubVisit
  dsimp only
  repeat' first
    | (with_reducible refine Kept.withDev _ ?_
       first
         | with_reducible assumption
         | with_reducible apply State.rewriteWord_kept
         | with_reducible apply State.scrubQueue_kept)
    | split

theorem State.smbRead_kept (a n : Nat) (h : Kept s0 s) : Kept s0 (s.smbRead a n) := by
  unfold State.smbRead
  repeat' first
    | with_reducible assumption
    | with_reducible apply State.onDev_kept
    | with_reducible apply State.bar0Read_kept

theorem State.smbIn_kept (h : Kept s0 s) : Kept s0 s.smbIn := by
  unfold State.smbIn
  repeat' first | with_reducible assumption | with_reducible apply State.onDev_kept

theorem State.dmaPut_kept (space : Bool) (x : Nat) (l : List Nat) (bad : List Bool)
    (h : Kept s0 s) : Kept s0 (s.dmaPut space x l bad) := by
  unfold State.dmaPut
  dsimp only
  repeat' first
    | with_reducible assumption
    | with_reducible apply State.onDev_kept
    | with_reducible apply State.dramStore_kept
    | with_reducible apply State.winWrite_kept
    | (with_reducible refine Kept.foldl _ (fun t x ht => ?_) _ _ ?_)
    | split

theorem State.dmaLine_kept (x : Dma) (r : DmaData) (j o k : Nat)
    (h : Kept s0 s) : Kept s0 (s.dmaLine x r j o k).2 := by
  unfold State.dmaLine
  dsimp only
  repeat' first
    | (with_reducible refine Kept.withDev _ ?_
       first
         | with_reducible assumption
         | with_reducible apply State.onDev_kept
         | with_reducible apply State.winRead_kept
         | with_reducible apply State.dmaPut_kept)
    | split

theorem State.dmaMove_kept (x : Dma) (r : DmaData) (n : Nat) : ∀ {s : State} (code j o : Nat), Kept s0 s →
    Kept s0 (s.dmaMove x r code j o n).2 := by
  induction n with
  | zero => exact fun _ _ _ h => h
  | succ n ih =>
    intro s code j o h
    unfold State.dmaMove
    dsimp only
    split
    · exact h
    · split
      · exact State.dmaLine_kept _ _ _ _ _ h
      · exact ih _ _ _ (State.dmaLine_kept _ _ _ _ _ h)

theorem State.dmaComplete_kept (c : Nat) (r : DmaData) (h : Kept s0 s) : Kept s0 (s.dmaComplete c r) := by
  unfold State.dmaComplete
  repeat' first
    | with_reducible assumption
    | with_reducible apply State.onDev_kept
    | exact State.dmaMove_kept _ _ _ _ _ _ h
    | split

theorem State.bscanBegin_kept (h : Kept s0 s) : Kept s0 s.bscanBegin := by
  unfold State.bscanBegin
  repeat' first
    | with_reducible assumption
    | with_reducible apply State.onDev_kept
    | with_reducible apply State.zeroPort_kept
    | (with_reducible refine Kept.foldl _ (fun t x ht => ?_) _ _ ?_)
    | split

theorem State.bscanLoad_kept (t : BoundaryTest) (h : Kept s0 s) : Kept s0 (s.bscanLoad t) := by
  unfold State.bscanLoad
  repeat' first
    | with_reducible assumption
    | with_reducible apply State.onDev_kept
    | with_reducible apply State.bscanBegin_kept
    | split

theorem State.debugReg_kept (write : Bool) (a v : Nat) (h : Kept s0 s) : Kept s0 (s.debugReg write a v) := by
  unfold State.debugReg
  dsimp only
  repeat' first
    | with_reducible assumption
    | with_reducible apply State.onDev_kept
    | with_reducible apply State.bar0Read_kept
    | with_reducible apply State.bar0Write_kept
    | split

end Sys2Proof.Machine
end

