-- ==== Sys2Proof/WellFormed.lean ====
section
/-!
DEFINITION. The well-formed commands: bounds of the spec on operands that their types do not already carry.
-/

namespace Sys2Proof

/-- A list no longer than `n` and not empty. -/
def upTo (n : Nat) (l : List α) : Bool := !l.isEmpty && decide (l.length ≤ n)

/-- Whether a command's operands lie within the bounds of the spec. -/
def Instr.wellFormed : Instr → Bool
  -- a TLP carries 1 to 512 bytes (R472)
  | .registerWrite _ bytes _ _ => upTo 512 bytes
  | .bastedWrite _ bytes => upTo 8 bytes
  | .bar2Write _ bytes _ _ => upTo 512 bytes
  -- a read request asks for 1 to 4,096 bytes (R472)
  | .bar2Read _ n => decide (0 < n.toNat) && decide (n.toNat ≤ 4096)
  -- an entry has 16 bytes (R298), a bobbin 64 KiB (R123)
  | .awgSeqEntryWrite _ _ off bytes _ _ => upTo (16 - off) bytes
  | .bobbinWindowWrite _ off bytes _ _ => decide (off < 65536) && upTo (65536 - off) bytes
  -- the write of a register is one of 4 or 8 bytes (R473)
  | .streamRegisterWrite _ off size data =>
    (size == 4 || size == 8) && off % size == 0 && decide (data < 2 ^ (8 * size))
  | .smbRegWrite _ bytes => bytes.length == 4 || bytes.length == 8
  -- a link has 1, 2, 4 or 8 lanes (R278)
  | .jesdMultiblockReceive _ _ lanes => [1, 2, 4, 8].contains lanes.length
  -- a control store has 4,096 microwords of 45 bits and 2,048 nano-words of 257 bits (R232)
  | .controlStoreError _ store addr bits =>
    (store == 0 && decide (addr < 4096) && bits.all (fun b => decide (b < 45)))
      || (store == 1 && decide (addr < 2048) && bits.all (fun b => decide (b < 257)))
  -- the contactor's record has 132 bytes (R462), a descriptor 32 (R479), the command buffer 4 KiB (R495)
  | .ctrVerify r => r.all (fun l => l.length == 132)
  | .dmaDescriptorStart _ desc => desc.all (fun l => l.length == 32)
  | .keyImport _ blob => decide (blob.length ≤ 4096)
  | .nvmWrite _ record => decide (record.length ≤ 4096)
  | .lifecycle _ sig => decide (sig.length ≤ 64)
  -- seven rails (R471)
  | .telemetrySample rails => rails.length == 7
  -- the search tries nine settings (R350)
  | .seamPortTrained _ foms _ => foms.length == 9
  | _ => true

end Sys2Proof
end

