-- ==== Sys2Proof/Tests/Slice0.lean ====
section
/-!
SUPPORT. Small tests of the model against the spec's own numbers, and for every statement the states that meet what its clauses
suppose: one conjunct for each clause.
-/

namespace Sys2Proof.Tests

open Sys2Proof.Machine

-- One theorem at a time, since the kernel's checks of all of them at once take too much memory.
set_option Elab.async false

/-! ## The states of the witnesses -/

/-- Every power domain of the block is on. -/
def on : Dev := (({} : Dev).st .PWR_STATE_LO_STATE 0 0).st .PWR_STATE_HI_STATE 0 0

/-- Engine 0 is active. -/
def running : Dev := on.st .ENG_STAT_STATE 0 2

/-- DRAM port 0 is trained and the sealed store is ready. -/
def dram : Dev := (((on.st .DRC_STAT_STATE 0 3).st .HOST_READY_THIMBLE 0 1).st .DRC_CFG_POP 0 1).st .DRC_CFG_DENS 0 1

/-- The block `d` with the instruction word `w` at address 0 of engine 0's program. -/
def prog (w : Nat) (d : Dev) : State := ⟨[], memWrite [] (progMem 0 0 0) (leBytes 8 w), d⟩

/-- The block at the issue of engine `e`'s next instruction. -/
def at_ (s : State) (e : Nat) : Dev := ((s.issuing e).getD (0, {})).2

/-- The `n` bytes of `x`, the lowest first. -/
def leList (n x : Nat) : List Byte := (leBytes n x).map (BitVec.ofNat 8)

theorem pair_some {p : Option Nat × Dev} (h : p.1.isSome = true) : p = (some (p.1.getD 99), p.2) := by
  obtain ⟨_ | a, b⟩ := p
  · cases h
  · rfl

theorem pair_true {p : Bool × Dev} (h : p.1 = true) : p = (true, p.2) := by
  obtain ⟨a, b⟩ := p
  cases h; rfl

/-- A block that does not doze has nothing to do at an address match. -/
theorem smbIn_awake {s : State} (h : s.dev.pwr.doze = false) : s.smbIn = s := by
  simp [State.smbIn, State.onDev, Dev.smbMatch, h]

theorem issues_at {s : State} {e c o w : Nat} (h : (s.issuing e).map (·.1) = some w ∧ iCls w = c ∧ iOp w = o ∧
    ((s.dev.fetch s.mem e).2.startWords e w = 1 ∨
      ((at_ s e).eng e).storeErr = [] ∧ (at_ s e).rg .ENG_MC_STAT_LISTCNT e = 0)) :
    Issues s e c o w (at_ s e) := by
  obtain ⟨h, hc, ho, hk⟩ := h
  refine ⟨?_, hc, ho, hk⟩
  unfold at_
  cases hs : s.issuing e with
  | none => simp [hs] at h
  | some p => simp [hs] at h; subst h; rfl

/-! ## Operands that are not well formed, one for each check -/

theorem test_wf_registerWrite : (Instr.registerWrite 0x40 [] false false).wellFormed = false := by decide
theorem test_wf_bastedWrite : (Instr.bastedWrite 0x40 (List.replicate 9 0)).wellFormed = false := by decide
theorem test_wf_bar2Write : (Instr.bar2Write 0 [] false false).wellFormed = false := by decide
theorem test_wf_bar2Read : (Instr.bar2Read 0 4097).wellFormed = false := by decide
theorem test_wf_awgSeqEntryWrite : (Instr.awgSeqEntryWrite 0 0 15 [1, 2] false false).wellFormed = false := by decide
theorem test_wf_bobbinWindowWrite : (Instr.bobbinWindowWrite 0 65535 [1, 2] false false).wellFormed = false := by decide
theorem test_wf_streamRegisterWrite : (Instr.streamRegisterWrite 0 0x204 8 0).wellFormed = false := by decide
theorem test_wf_smbRegWrite : (Instr.smbRegWrite 0x40 [1, 2]).wellFormed = false := by decide
theorem test_wf_jesdMultiblockReceive :
    (Instr.jesdMultiblockReceive 0 false [⟨true, true, []⟩, ⟨true, true, []⟩, ⟨true, true, []⟩]).wellFormed = false := by decide
theorem test_wf_controlStoreError : (Instr.controlStoreError 0 0 4096 [3]).wellFormed = false ∧
    (Instr.controlStoreError 0 1 5 [257]).wellFormed = false := by decide
theorem test_wf_ctrVerify : (Instr.ctrVerify (some [1, 2, 3])).wellFormed = false := by decide
theorem test_wf_dmaDescriptorStart : (Instr.dmaDescriptorStart 0 (some [0])).wellFormed = false := by decide
theorem test_wf_keyImport : (Instr.keyImport 0 (List.replicate 4097 0)).wellFormed = false := by decide +kernel
theorem test_wf_nvmWrite : (Instr.nvmWrite 0 (List.replicate 4097 0)).wellFormed = false := by decide +kernel
theorem test_wf_lifecycle : (Instr.lifecycle 0 (List.replicate 65 0)).wellFormed = false := by decide
theorem test_wf_telemetrySample : (Instr.telemetrySample [0]).wellFormed = false := by decide
theorem test_wf_seamPortTrained : (Instr.seamPortTrained 0 [1] 4).wellFormed = false := by decide

/-! ## Worked examples of the spec -/

/-- The block after a command; the empty block where there is none. -/
def after (c : Instr) (s : State) : Dev :=
  match exec c s with
  | .next t => t.dev
  | _ => {}

/-- After reset CH301 belongs to E075 ("Worked example: locating one pin"). -/
theorem test_reset_owner : State.reset.dev.quads 75 = [75] := by decide +kernel

/-- The edge entry of CH301, TSET5 stands at 0x0284_B450 ("Worked example: one edge entry"). -/
theorem test_edge_address : edgeMem 301 5 = 0x0284B450 := by decide

/-- The period entry of E075, TSET5 stands at 0x0290_9628 (R74). -/
theorem test_period_address : perMem 75 5 = 0x02909628 := by decide

/-- Phase-mode edge 0x1C000 lies at 17,500 ticks of a period of 10,000 and at 35,000 of one of 20,000 (R80). -/
theorem test_phase_edge : edgeOff true 0x1C000 10000 = 17500 ∧ edgeOff true 0x1C000 20000 = 35000 ∧
    edgeOff false 0x01D4C 20000 = 7500 := by decide +kernel

/-- DRAM byte address 0x1234_5600 lies in line 596,518 of port B (R365). -/
theorem test_dram_line :
    ((dram |>.st .DRC_CFG_INTLV 0 1 |>.st .DRC_CFG_RANKS 1 1 |>.st .DRC_CFG_POP 1 1).lineAt (0x12345600 / 256)) =
      some (1, 596518) := by decide +kernel

/-- The offset of CH301 at 53.5 °C is 816 (R425). -/
theorem test_interpolate : interpolate 768 880 1 (535 * 16 / 10) = 816 := by decide

/-- CRC-32 of "123456789" is 0xCBF4_3926 (R219). -/
theorem test_crc : crc32 [0x31, 0x32, 0x33, 0x34, 0x35, 0x36, 0x37, 0x38, 0x39] = 0xCBF43926 := by decide +kernel

/-- Step 3 of the worked example of R219: CRCW G5, G7, 0, 0 after the first eight bytes. -/
theorem test_crcw :
    (after (.crcw 0) (prog (5 * 2 ^ 60 + 16 * 2 ^ 54 + 5 * 2 ^ 48 + 7 * 2 ^ 42)
      (running |>.sti .ENG_G 0 5 (crcBytes 0 0xFFFFFFFF [0x31, 0x32, 0x33, 0x34, 0x35, 0x36, 0x37, 0x38])
        |>.sti .ENG_G 0 7 0x39))).reg 0 5 ^^^ 0xFFFFFFFF = 0xCBF43926 := by decide +kernel

/-- ADD G5, G7 carries out of bit 63 (R217). -/
theorem test_add_carries :
    let d := after (.add 0) (prog (5 * 2 ^ 60 + 3 * 2 ^ 54 + 5 * 2 ^ 48 + 7 * 2 ^ 42)
      (running |>.sti .ENG_G 0 5 (2 ^ 64 - 1) |>.sti .ENG_G 0 7 1))
    d.reg 0 5 = 0 ∧ d.rg .ENG_FLAGS_ZERO 0 = 1 ∧ d.rg .ENG_FLAGS_CARRY 0 = 1 := by dsimp only; decide +kernel

/-- SUB G5, G5: the source is the destination. -/
theorem test_sub_self :
    let d := after (.sub 0) (prog (5 * 2 ^ 60 + 5 * 2 ^ 54 + 5 * 2 ^ 48 + 5 * 2 ^ 42) (running |>.sti .ENG_G 0 5 77))
    d.reg 0 5 = 0 ∧ d.rg .ENG_FLAGS_ZERO 0 = 1 ∧ d.rg .ENG_FLAGS_CARRY 0 = 0 := by dsimp only; decide +kernel

/-- The word 0x2080_0001_3254_1900 of E032 sends the frame 0x3254_1900 to PD5 (the worked example of class 0x2). -/
theorem test_lvli_frame :
    ((after (.lvli 32) ⟨[], memWrite [] (progMem 2 0 0) (leBytes 8 0x2080000132541900), on |>.st .ENG_STAT_STATE 32 2
      |>.st .PIN_QOWN_OWNER 40 0⟩).eng 32).anch = [.lvl 5 0x32541900] := by decide +kernel

/-! ## What the statements suppose is met -/

/-- A block with no command waiting. -/
theorem witness_EmptyQueuePassesACycle : State.reset.pending = [] := rfl

/-- A state whose step keeps the form of its memory. -/
theorem witness_StepKeepsMemoryForm : ∃ s t : State, s.wf ∧ step s = .next t :=
  ⟨State.reset, _, by decide, rfl⟩

/-- What each clause of `ResetState` supposes is met. -/
theorem witness_ResetState :
    (let k : DomId := 7
     k ≠ 0) := by
  · dsimp only; decide +kernel

/-- What each clause of `SeamPortHoldsItsDomain` supposes is met. -/
theorem witness_SeamPortHoldsItsDomain :
    (let p : PortId := 1
     let s : State := ⟨[], [], on |>.st .LNK_SP_CTRL_EN p 1 |>.setDom 28 0 |>.st .PWR_REQ_MASK_MASK 0 (2 ^ 28)⟩
     let d := s.dev
     (d.rg .PWR_REQ_MASK_MASK 0).testBit 28 = true ∧ d.on .LNK_SP_CTRL_EN p = true ∧ d.domOn 28 = true ∧ 28 ∉ d.pwr.queue ∧
       ((∀ c ∈ d.pwr.costs, c.1 ≠ 28)) ∧ d.rg .PWR_REQ_STAT_PHASE 0 ≠ 1 ∧ d.rg .PWR_REQ_STAT_PHASE 0 ≠ 2) := by
  · dsimp only; decide +kernel

/-- What each clause of `ContactorLife` supposes is met; what supposes a value of an unknown constant is left out. -/
theorem witness_ContactorLife :
    (let s : State := ⟨[], [], on |>.st .CTR_CTRL_TDSRC 0 0 |>.st .CTR_RATED_RATED 0 10 |>.st .CTR_TDCNT_COUNT 0 8⟩
     let d := s.dev
     let counts := d.locked = false ∧ d.rg .CTR_RATED_RATED 0 ≠ 0
     counts ∧ d.on .CTR_CTRL_TDSRC 0 = false) ∧
    (let high : Nat := 4000000
     let s : State := ⟨[], [], on |>.st .CTR_CTRL_TDSRC 0 1 |>.st .CTR_RATED_RATED 0 10 |>.st .CTR_TDCNT_COUNT 0 8⟩
     let d := s.dev
     let counts := d.locked = false ∧ d.rg .CTR_RATED_RATED 0 ≠ 0
     counts ∧ d.on .CTR_CTRL_TDSRC 0 = true ∧ 4000000 ≤ high ∧ d.ctr.edge = none) ∧
    (let l : List Byte := leList 132 (1 + 10 * 2 ^ 32)
     let s : State := ⟨[], [], on⟩
     let d := s.dev
     let bytes := l.map (·.toNat)
     d.ctr.due = true ∧ 132 ≤ l.length ∧ ctrFormat bytes = true) := by
  refine ⟨?_, ?_, ?_⟩
  · dsimp only; decide +kernel
  · dsimp only; decide +kernel
  · dsimp only; decide +kernel

/-- What each clause of `AluResults` supposes is met. -/
theorem witness_AluResults :
    (let e : EngId := 0
     let w : Nat := 5 * 2 ^ 60 + 0 * 2 ^ 54 + 0
     let s : State := prog w (running)
     let d : Dev := at_ s e
     Issues s e 5 0 w d) ∧
    (let e : EngId := 0
     let w : Nat := 5 * 2 ^ 60 + 1 * 2 ^ 54 + 0
     let s : State := prog w (running)
     let d : Dev := at_ s e
     Issues s e 5 1 w d) ∧
    (let e : EngId := 0
     let w : Nat := 5 * 2 ^ 60 + 2 * 2 ^ 54 + 0
     let s : State := prog w (running)
     let d : Dev := at_ s e
     Issues s e 5 2 w d) ∧
    (let e : EngId := 0
     let w : Nat := 7 * 2 ^ 60 + 0 * 2 ^ 54 + 0
     let s : State := prog w (running)
     let d : Dev := at_ s e
     Issues s e 7 0 w d) ∧
    (let e : EngId := 0
     let w : Nat := 5 * 2 ^ 60 + 3 * 2 ^ 54 + 0
     let s : State := prog w (running)
     let d : Dev := at_ s e
     Issues s e 5 3 w d) ∧
    (let e : EngId := 0
     let w : Nat := 5 * 2 ^ 60 + 4 * 2 ^ 54 + 0
     let s : State := prog w (running)
     let d : Dev := at_ s e
     Issues s e 5 4 w d) ∧
    (let e : EngId := 0
     let w : Nat := 5 * 2 ^ 60 + 5 * 2 ^ 54 + 0
     let s : State := prog w (running)
     let d : Dev := at_ s e
     Issues s e 5 5 w d) ∧
    (let e : EngId := 0
     let w : Nat := 5 * 2 ^ 60 + 12 * 2 ^ 54 + 0
     let s : State := prog w (running)
     let d : Dev := at_ s e
     Issues s e 5 12 w d) ∧
    (let e : EngId := 0
     let w : Nat := 5 * 2 ^ 60 + 13 * 2 ^ 54 + 0
     let s : State := prog w (running)
     let d : Dev := at_ s e
     Issues s e 5 13 w d) ∧
    (let e : EngId := 0
     let w : Nat := 5 * 2 ^ 60 + 6 * 2 ^ 54 + 0
     let s : State := prog w (running)
     let d : Dev := at_ s e
     Issues s e 5 6 w d) ∧
    (let e : EngId := 0
     let w : Nat := 5 * 2 ^ 60 + 7 * 2 ^ 54 + 0
     let s : State := prog w (running)
     let d : Dev := at_ s e
     Issues s e 5 7 w d) ∧
    (let e : EngId := 0
     let w : Nat := 5 * 2 ^ 60 + 8 * 2 ^ 54 + 0
     let s : State := prog w (running)
     let d : Dev := at_ s e
     Issues s e 5 8 w d) ∧
    (let e : EngId := 0
     let w : Nat := 5 * 2 ^ 60 + 9 * 2 ^ 54 + 0
     let s : State := prog w (running)
     let d : Dev := at_ s e
     Issues s e 5 9 w d) ∧
    (let e : EngId := 0
     let w : Nat := 5 * 2 ^ 60 + 10 * 2 ^ 54 + 0
     let s : State := prog w (running)
     let d : Dev := at_ s e
     Issues s e 5 10 w d) ∧
    (let e : EngId := 0
     let w : Nat := 5 * 2 ^ 60 + 11 * 2 ^ 54 + 0
     let s : State := prog w (running)
     let d : Dev := at_ s e
     Issues s e 5 11 w d) ∧
    (let e : EngId := 0
     let w : Nat := 5 * 2 ^ 60 + 16 * 2 ^ 54 + 0
     let s : State := prog w (running)
     let d : Dev := at_ s e
     Issues s e 5 16 w d) := by
  refine ⟨?_, ?_, ?_, ?_, ?_, ?_, ?_, ?_, ?_, ?_, ?_, ?_, ?_, ?_, ?_, ?_⟩
  · dsimp only; exact issues_at (by decide +kernel)
  · dsimp only; exact issues_at (by decide +kernel)
  · dsimp only; exact issues_at (by decide +kernel)
  · dsimp only; exact issues_at (by decide +kernel)
  · dsimp only; exact issues_at (by decide +kernel)
  · dsimp only; exact issues_at (by decide +kernel)
  · dsimp only; exact issues_at (by decide +kernel)
  · dsimp only; exact issues_at (by decide +kernel)
  · dsimp only; exact issues_at (by decide +kernel)
  · dsimp only; exact issues_at (by decide +kernel)
  · dsimp only; exact issues_at (by decide +kernel)
  · dsimp only; exact issues_at (by decide +kernel)
  · dsimp only; exact issues_at (by decide +kernel)
  · dsimp only; exact issues_at (by decide +kernel)
  · dsimp only; exact issues_at (by decide +kernel)
  · dsimp only; exact issues_at (by decide +kernel)

/-- What each clause of `FlowTransfers` supposes is met. -/
theorem witness_FlowTransfers :
    (let e : EngId := 0
     let w : Nat := 0 * 2 ^ 60 + 0 * 2 ^ 54 + 0
     let s : State := prog w (running)
     let d : Dev := at_ s e
     Issues s e 0 0 w d) ∧
    (let e : EngId := 0
     let w : Nat := 0 * 2 ^ 60 + 3 * 2 ^ 54 + 0
     let s : State := prog w (running)
     let d : Dev := at_ s e
     Issues s e 0 3 w d) ∧
    (let e : EngId := 0
     let w : Nat := 0 * 2 ^ 60 + 1 * 2 ^ 54 + 2 * 2 ^ 42 + 3 * 2 ^ 16
     let s : State := prog w (running |>.sti .ENG_G 0 2 9)
     let d : Dev := at_ s e
     Issues s e 0 1 w d) ∧
    (let e : EngId := 0
     let w : Nat := 0 * 2 ^ 60 + 2 * 2 ^ 54 + 0
     let s : State := prog w (running)
     let d : Dev := at_ s e
     Issues s e 0 2 w d) ∧
    (let e : EngId := 0
     let w : Nat := 0 * 2 ^ 60 + 4 * 2 ^ 54 + 0
     let s : State := prog w (running)
     let d : Dev := at_ s e
     Issues s e 0 4 w d) ∧
    (let e : EngId := 0
     let w : Nat := 0 * 2 ^ 60 + 5 * 2 ^ 54 + 0x21 * 2 ^ 48 + 5
     let s : State := prog w (running |>.sti .ENG_L 0 1 3)
     let d : Dev := at_ s e
     Issues s e 0 5 w d) := by
  refine ⟨?_, ?_, ?_, ?_, ?_, ?_⟩
  · dsimp only; exact issues_at (by decide +kernel)
  · dsimp only; exact issues_at (by decide +kernel)
  · dsimp only; exact issues_at (by decide +kernel)
  · dsimp only; exact issues_at (by decide +kernel)
  · dsimp only; exact issues_at (by decide +kernel)
  · dsimp only; exact issues_at (by decide +kernel)

/-- What each clause of `ProgramSettings` supposes is met. -/
theorem witness_ProgramSettings :
    (let e : EngId := 0
     let w : Nat := 1 * 2 ^ 60 + 3 * 2 ^ 54 + 0
     let s : State := prog w (running)
     let d : Dev := at_ s e
     Issues s e 1 3 w d) ∧
    (let e : EngId := 0
     let w : Nat := 1 * 2 ^ 60 + 4 * 2 ^ 54 + 0
     let s : State := prog w (running)
     let d : Dev := at_ s e
     Issues s e 1 4 w d) ∧
    (let e : EngId := 0
     let w : Nat := 1 * 2 ^ 60 + 5 * 2 ^ 54 + 1 * 2 ^ 48 + 2 * 2 ^ 42 + 3
     let s : State := prog w (running |>.sti .ENG_G 0 1 0x1000 |>.sti .ENG_G 0 2 0x2000)
     let d : Dev := at_ s e
     Issues s e 1 5 w d) ∧
    (let e : EngId := 0
     let w : Nat := 1 * 2 ^ 60 + 6 * 2 ^ 54 + 0
     let s : State := prog w (running)
     let d : Dev := at_ s e
     Issues s e 1 6 w d) ∧
    (let e : EngId := 0
     let w : Nat := 1 * 2 ^ 60 + 7 * 2 ^ 54 + 0
     let s : State := prog w (running)
     let d : Dev := at_ s e
     Issues s e 1 7 w d) ∧
    (let e : EngId := 0
     let w : Nat := 2 * 2 ^ 60 + 0 * 2 ^ 54 + 0
     let s : State := prog w (running)
     let d : Dev := at_ s e
     Issues s e 2 0 w d) ∧
    (let e : EngId := 0
     let w : Nat := 2 * 2 ^ 60 + 1 * 2 ^ 54 + 0
     let s : State := prog w (running)
     let d : Dev := at_ s e
     Issues s e 2 1 w d) ∧
    (let e : EngId := 0
     let w : Nat := 3 * 2 ^ 60 + 0 * 2 ^ 54 + 0
     let s : State := prog w (running)
     let d : Dev := at_ s e
     Issues s e 3 0 w d) ∧
    (let e : EngId := 0
     let w : Nat := 3 * 2 ^ 60 + 1 * 2 ^ 54 + 0
     let s : State := prog w (running)
     let d : Dev := at_ s e
     Issues s e 3 1 w d) ∧
    (let e : EngId := 0
     let w : Nat := 3 * 2 ^ 60 + 3 * 2 ^ 54 + 0
     let s : State := prog w (running)
     let d : Dev := at_ s e
     Issues s e 3 3 w d) ∧
    (let e : EngId := 0
     let w : Nat := 3 * 2 ^ 60 + 2 * 2 ^ 54 + 0
     let s : State := prog w (running |>.st .ENG_TIE_TIED e 0 |>.modEng e (fun z => { z with flagQ := [] }))
     let d : Dev := at_ s e
     Issues s e 3 2 w d ∧ d.tied e = false ∧ (d.eng e).flagQ = []) ∧
    (let e : EngId := 0
     let w : Nat := 2 * 2 ^ 60 + 2 * 2 ^ 54 + 0
     let s : State := prog w (running)
     let d : Dev := at_ s e
     Issues s e 2 2 w d) ∧
    (let e : EngId := 0
     let w : Nat := 2 * 2 ^ 60 + 3 * 2 ^ 54 + 0
     let s : State := prog w (running)
     let d : Dev := at_ s e
     Issues s e 2 3 w d) ∧
    (let e : EngId := 0
     let w : Nat := 7 * 2 ^ 60 + 3 * 2 ^ 54 + 0
     let s : State := prog w (running)
     let d : Dev := at_ s e
     Issues s e 7 3 w d ∧ iMod w % 2 = 0) ∧
    (let e : EngId := 0
     let w : Nat := 8 * 2 ^ 60 + 0 * 2 ^ 54 + 0
     let s : State := prog w (running)
     let d : Dev := at_ s e
     Issues s e 8 0 w d ∧ iMod w / 16 % 2 = 0) ∧
    (let e : EngId := 0
     let w : Nat := 9 * 2 ^ 60 + 0 * 2 ^ 54 + 0
     let s : State := prog w (running |>.st .AWG_CTRL_GEN 0 1 |>.st .DDC_CTRL_GEN 0 1)
     let d : Dev := at_ s e
     Issues s e 9 0 w d) ∧
    (let e : EngId := 0
     let w : Nat := 9 * 2 ^ 60 + 1 * 2 ^ 54 + 0
     let s : State := prog w (running |>.st .AWG_CTRL_GEN 0 1 |>.st .DDC_CTRL_GEN 0 1)
     let d : Dev := at_ s e
     Issues s e 9 1 w d) ∧
    (let e : EngId := 0
     let w : Nat := 9 * 2 ^ 60 + 2 * 2 ^ 54 + 0
     let s : State := prog w (running |>.st .AWG_CTRL_GEN 0 1 |>.st .DDC_CTRL_GEN 0 1)
     let d : Dev := at_ s e
     Issues s e 9 2 w d) ∧
    (let e : EngId := 0
     let w : Nat := 9 * 2 ^ 60 + 3 * 2 ^ 54 + 0
     let s : State := prog w (running |>.st .AWG_CTRL_GEN 0 1 |>.st .DDC_CTRL_GEN 0 1)
     let d : Dev := at_ s e
     Issues s e 9 3 w d) ∧
    (let e : EngId := 0
     let w : Nat := 10 * 2 ^ 60 + 0 * 2 ^ 54 + 0
     let s : State := prog w (running)
     let d : Dev := at_ s e
     Issues s e 10 0 w d) ∧
    (let e : EngId := 0
     let w : Nat := 10 * 2 ^ 60 + 1 * 2 ^ 54 + 0
     let s : State := prog w (running)
     let d : Dev := at_ s e
     Issues s e 10 1 w d) ∧
    (let e : EngId := 0
     let w : Nat := 10 * 2 ^ 60 + 2 * 2 ^ 54 + 0
     let s : State := prog w (running)
     let d : Dev := at_ s e
     Issues s e 10 2 w d) ∧
    (let e : EngId := 0
     let w : Nat := 10 * 2 ^ 60 + 3 * 2 ^ 54 + 0
     let s : State := prog w (running)
     let d : Dev := at_ s e
     Issues s e 10 3 w d) := by
  refine ⟨?_, ?_, ?_, ?_, ?_, ?_, ?_, ?_, ?_, ?_, ?_, ?_, ?_, ?_, ?_, ?_, ?_, ?_, ?_, ?_, ?_, ?_, ?_⟩
  · dsimp only; exact issues_at (by decide +kernel)
  · dsimp only; exact issues_at (by decide +kernel)
  · dsimp only; exact issues_at (by decide +kernel)
  · dsimp only; exact issues_at (by decide +kernel)
  · dsimp only; exact issues_at (by decide +kernel)
  · dsimp only; exact issues_at (by decide +kernel)
  · dsimp only; exact issues_at (by decide +kernel)
  · dsimp only; exact issues_at (by decide +kernel)
  · dsimp only; exact issues_at (by decide +kernel)
  · dsimp only; exact issues_at (by decide +kernel)
  · dsimp only; exact ⟨issues_at (by decide +kernel), by decide +kernel, by decide +kernel⟩
  · dsimp only; exact issues_at (by decide +kernel)
  · dsimp only; exact issues_at (by decide +kernel)
  · dsimp only; exact ⟨issues_at (by decide +kernel), by decide +kernel⟩
  · dsimp only; exact ⟨issues_at (by decide +kernel), by decide +kernel⟩
  · dsimp only; exact issues_at (by decide +kernel)
  · dsimp only; exact issues_at (by decide +kernel)
  · dsimp only; exact issues_at (by decide +kernel)
  · dsimp only; exact issues_at (by decide +kernel)
  · dsimp only; exact issues_at (by decide +kernel)
  · dsimp only; exact issues_at (by decide +kernel)
  · dsimp only; exact issues_at (by decide +kernel)
  · dsimp only; exact issues_at (by decide +kernel)

/-- What each clause of `InstructionFrames` supposes is met. -/
theorem witness_InstructionFrames :
    (let e : EngId := 0
     let w : Nat := 5 * 2 ^ 60 + 0 * 2 ^ 54 + 0
     let s : State := prog w (running)
     let d : Dev := at_ s e
     Issues s e 5 0 w d) ∧
    (let e : EngId := 0
     let w : Nat := 5 * 2 ^ 60 + 1 * 2 ^ 54 + 0
     let s : State := prog w (running)
     let d : Dev := at_ s e
     Issues s e 5 1 w d) ∧
    (let e : EngId := 0
     let w : Nat := 5 * 2 ^ 60 + 2 * 2 ^ 54 + 0
     let s : State := prog w (running)
     let d : Dev := at_ s e
     Issues s e 5 2 w d) ∧
    (let e : EngId := 0
     let w : Nat := 7 * 2 ^ 60 + 0 * 2 ^ 54 + 0
     let s : State := prog w (running)
     let d : Dev := at_ s e
     Issues s e 7 0 w d) ∧
    (let e : EngId := 0
     let w : Nat := 5 * 2 ^ 60 + 3 * 2 ^ 54 + 0
     let s : State := prog w (running)
     let d : Dev := at_ s e
     Issues s e 5 3 w d) ∧
    (let e : EngId := 0
     let w : Nat := 5 * 2 ^ 60 + 4 * 2 ^ 54 + 0
     let s : State := prog w (running)
     let d : Dev := at_ s e
     Issues s e 5 4 w d) ∧
    (let e : EngId := 0
     let w : Nat := 5 * 2 ^ 60 + 5 * 2 ^ 54 + 0
     let s : State := prog w (running)
     let d : Dev := at_ s e
     Issues s e 5 5 w d) ∧
    (let e : EngId := 0
     let w : Nat := 5 * 2 ^ 60 + 6 * 2 ^ 54 + 0
     let s : State := prog w (running)
     let d : Dev := at_ s e
     Issues s e 5 6 w d) ∧
    (let e : EngId := 0
     let w : Nat := 5 * 2 ^ 60 + 7 * 2 ^ 54 + 0
     let s : State := prog w (running)
     let d : Dev := at_ s e
     Issues s e 5 7 w d) ∧
    (let e : EngId := 0
     let w : Nat := 5 * 2 ^ 60 + 8 * 2 ^ 54 + 0
     let s : State := prog w (running)
     let d : Dev := at_ s e
     Issues s e 5 8 w d) ∧
    (let e : EngId := 0
     let w : Nat := 5 * 2 ^ 60 + 9 * 2 ^ 54 + 0
     let s : State := prog w (running)
     let d : Dev := at_ s e
     Issues s e 5 9 w d) ∧
    (let e : EngId := 0
     let w : Nat := 5 * 2 ^ 60 + 10 * 2 ^ 54 + 0
     let s : State := prog w (running)
     let d : Dev := at_ s e
     Issues s e 5 10 w d) ∧
    (let e : EngId := 0
     let w : Nat := 5 * 2 ^ 60 + 11 * 2 ^ 54 + 0
     let s : State := prog w (running)
     let d : Dev := at_ s e
     Issues s e 5 11 w d) ∧
    (let e : EngId := 0
     let w : Nat := 5 * 2 ^ 60 + 12 * 2 ^ 54 + 0
     let s : State := prog w (running)
     let d : Dev := at_ s e
     Issues s e 5 12 w d) ∧
    (let e : EngId := 0
     let w : Nat := 5 * 2 ^ 60 + 13 * 2 ^ 54 + 0
     let s : State := prog w (running)
     let d : Dev := at_ s e
     Issues s e 5 13 w d) ∧
    (let e : EngId := 0
     let w : Nat := 5 * 2 ^ 60 + 16 * 2 ^ 54 + 0
     let s : State := prog w (running)
     let d : Dev := at_ s e
     Issues s e 5 16 w d) ∧
    (let e : EngId := 0
     let w : Nat := 0 * 2 ^ 60 + 0 * 2 ^ 54 + 0
     let s : State := prog w (running)
     let d : Dev := at_ s e
     Issues s e 0 0 w d) ∧
    (let e : EngId := 0
     let w : Nat := 0 * 2 ^ 60 + 1 * 2 ^ 54 + 0
     let s : State := prog w (running)
     let d : Dev := at_ s e
     Issues s e 0 1 w d) ∧
    (let e : EngId := 0
     let w : Nat := 0 * 2 ^ 60 + 2 * 2 ^ 54 + 0
     let s : State := prog w (running)
     let d : Dev := at_ s e
     Issues s e 0 2 w d) ∧
    (let e : EngId := 0
     let w : Nat := 0 * 2 ^ 60 + 3 * 2 ^ 54 + 0
     let s : State := prog w (running)
     let d : Dev := at_ s e
     Issues s e 0 3 w d) ∧
    (let e : EngId := 0
     let w : Nat := 0 * 2 ^ 60 + 4 * 2 ^ 54 + 0
     let s : State := prog w (running)
     let d : Dev := at_ s e
     Issues s e 0 4 w d) ∧
    (let e : EngId := 0
     let w : Nat := 0 * 2 ^ 60 + 5 * 2 ^ 54 + 0x21 * 2 ^ 48 + 5
     let s : State := prog w (running |>.sti .ENG_L 0 1 3)
     let d : Dev := at_ s e
     Issues s e 0 5 w d) ∧
    (let e : EngId := 0
     let w : Nat := 1 * 2 ^ 60 + 3 * 2 ^ 54 + 0
     let s : State := prog w (running)
     let d : Dev := at_ s e
     Issues s e 1 3 w d) ∧
    (let e : EngId := 0
     let w : Nat := 1 * 2 ^ 60 + 4 * 2 ^ 54 + 0
     let s : State := prog w (running)
     let d : Dev := at_ s e
     Issues s e 1 4 w d) ∧
    (let e : EngId := 0
     let w : Nat := 1 * 2 ^ 60 + 5 * 2 ^ 54 + 1 * 2 ^ 48 + 2 * 2 ^ 42 + 3
     let s : State := prog w (running |>.sti .ENG_G 0 1 0x1000 |>.sti .ENG_G 0 2 0x2000)
     let d : Dev := at_ s e
     Issues s e 1 5 w d) ∧
    (let e : EngId := 0
     let w : Nat := 1 * 2 ^ 60 + 6 * 2 ^ 54 + 0
     let s : State := prog w (running)
     let d : Dev := at_ s e
     Issues s e 1 6 w d) ∧
    (let e : EngId := 0
     let w : Nat := 1 * 2 ^ 60 + 7 * 2 ^ 54 + 0
     let s : State := prog w (running)
     let d : Dev := at_ s e
     Issues s e 1 7 w d) ∧
    (let e : EngId := 0
     let w : Nat := 2 * 2 ^ 60 + 0 * 2 ^ 54 + 0
     let s : State := prog w (running)
     let d : Dev := at_ s e
     Issues s e 2 0 w d) ∧
    (let e : EngId := 0
     let w : Nat := 2 * 2 ^ 60 + 1 * 2 ^ 54 + 0
     let s : State := prog w (running)
     let d : Dev := at_ s e
     Issues s e 2 1 w d) ∧
    (let e : EngId := 0
     let w : Nat := 2 * 2 ^ 60 + 2 * 2 ^ 54 + 0
     let s : State := prog w (running)
     let d : Dev := at_ s e
     Issues s e 2 2 w d) ∧
    (let e : EngId := 0
     let w : Nat := 2 * 2 ^ 60 + 3 * 2 ^ 54 + 0
     let s : State := prog w (running)
     let d : Dev := at_ s e
     Issues s e 2 3 w d) ∧
    (let e : EngId := 0
     let w : Nat := 3 * 2 ^ 60 + 0 * 2 ^ 54 + 0
     let s : State := prog w (running)
     let d : Dev := at_ s e
     Issues s e 3 0 w d) ∧
    (let e : EngId := 0
     let w : Nat := 3 * 2 ^ 60 + 1 * 2 ^ 54 + 0
     let s : State := prog w (running)
     let d : Dev := at_ s e
     Issues s e 3 1 w d) ∧
    (let e : EngId := 0
     let w : Nat := 3 * 2 ^ 60 + 3 * 2 ^ 54 + 0
     let s : State := prog w (running)
     let d : Dev := at_ s e
     Issues s e 3 3 w d) ∧
    (let e : EngId := 0
     let w : Nat := 9 * 2 ^ 60 + 0 * 2 ^ 54 + 0
     let s : State := prog w (running |>.st .AWG_CTRL_GEN 0 1 |>.st .DDC_CTRL_GEN 0 1)
     let d : Dev := at_ s e
     Issues s e 9 0 w d) ∧
    (let e : EngId := 0
     let w : Nat := 9 * 2 ^ 60 + 1 * 2 ^ 54 + 0
     let s : State := prog w (running |>.st .AWG_CTRL_GEN 0 1 |>.st .DDC_CTRL_GEN 0 1)
     let d : Dev := at_ s e
     Issues s e 9 1 w d) ∧
    (let e : EngId := 0
     let w : Nat := 9 * 2 ^ 60 + 2 * 2 ^ 54 + 0
     let s : State := prog w (running |>.st .AWG_CTRL_GEN 0 1 |>.st .DDC_CTRL_GEN 0 1)
     let d : Dev := at_ s e
     Issues s e 9 2 w d) ∧
    (let e : EngId := 0
     let w : Nat := 9 * 2 ^ 60 + 3 * 2 ^ 54 + 0
     let s : State := prog w (running |>.st .AWG_CTRL_GEN 0 1 |>.st .DDC_CTRL_GEN 0 1)
     let d : Dev := at_ s e
     Issues s e 9 3 w d) ∧
    (let e : EngId := 0
     let w : Nat := 10 * 2 ^ 60 + 0 * 2 ^ 54 + 0
     let s : State := prog w (running)
     let d : Dev := at_ s e
     Issues s e 10 0 w d) ∧
    (let e : EngId := 0
     let w : Nat := 10 * 2 ^ 60 + 1 * 2 ^ 54 + 0
     let s : State := prog w (running)
     let d : Dev := at_ s e
     Issues s e 10 1 w d) ∧
    (let e : EngId := 0
     let w : Nat := 10 * 2 ^ 60 + 2 * 2 ^ 54 + 0
     let s : State := prog w (running)
     let d : Dev := at_ s e
     Issues s e 10 2 w d) ∧
    (let e : EngId := 0
     let w : Nat := 10 * 2 ^ 60 + 3 * 2 ^ 54 + 0
     let s : State := prog w (running)
     let d : Dev := at_ s e
     Issues s e 10 3 w d) ∧
    (let e : EngId := 0
     let w : Nat := 6 * 2 ^ 60 + 3 * 2 ^ 54 + 0
     let s : State := prog w (running)
     let d : Dev := at_ s e
     Issues s e 6 3 w d) := by
  refine ⟨?_, ?_, ?_, ?_, ?_, ?_, ?_, ?_, ?_, ?_, ?_, ?_, ?_, ?_, ?_, ?_, ?_, ?_, ?_, ?_, ?_, ?_, ?_, ?_, ?_, ?_, ?_, ?_, ?_, ?_, ?_, ?_, ?_, ?_, ?_, ?_, ?_, ?_, ?_, ?_, ?_, ?_, ?_⟩
  · dsimp only; exact issues_at (by decide +kernel)
  · dsimp only; exact issues_at (by decide +kernel)
  · dsimp only; exact issues_at (by decide +kernel)
  · dsimp only; exact issues_at (by decide +kernel)
  · dsimp only; exact issues_at (by decide +kernel)
  · dsimp only; exact issues_at (by decide +kernel)
  · dsimp only; exact issues_at (by decide +kernel)
  · dsimp only; exact issues_at (by decide +kernel)
  · dsimp only; exact issues_at (by decide +kernel)
  · dsimp only; exact issues_at (by decide +kernel)
  · dsimp only; exact issues_at (by decide +kernel)
  · dsimp only; exact issues_at (by decide +kernel)
  · dsimp only; exact issues_at (by decide +kernel)
  · dsimp only; exact issues_at (by decide +kernel)
  · dsimp only; exact issues_at (by decide +kernel)
  · dsimp only; exact issues_at (by decide +kernel)
  · dsimp only; exact issues_at (by decide +kernel)
  · dsimp only; exact issues_at (by decide +kernel)
  · dsimp only; exact issues_at (by decide +kernel)
  · dsimp only; exact issues_at (by decide +kernel)
  · dsimp only; exact issues_at (by decide +kernel)
  · dsimp only; exact issues_at (by decide +kernel)
  · dsimp only; exact issues_at (by decide +kernel)
  · dsimp only; exact issues_at (by decide +kernel)
  · dsimp only; exact issues_at (by decide +kernel)
  · dsimp only; exact issues_at (by decide +kernel)
  · dsimp only; exact issues_at (by decide +kernel)
  · dsimp only; exact issues_at (by decide +kernel)
  · dsimp only; exact issues_at (by decide +kernel)
  · dsimp only; exact issues_at (by decide +kernel)
  · dsimp only; exact issues_at (by decide +kernel)
  · dsimp only; exact issues_at (by decide +kernel)
  · dsimp only; exact issues_at (by decide +kernel)
  · dsimp only; exact issues_at (by decide +kernel)
  · dsimp only; exact issues_at (by decide +kernel)
  · dsimp only; exact issues_at (by decide +kernel)
  · dsimp only; exact issues_at (by decide +kernel)
  · dsimp only; exact issues_at (by decide +kernel)
  · dsimp only; exact issues_at (by decide +kernel)
  · dsimp only; exact issues_at (by decide +kernel)
  · dsimp only; exact issues_at (by decide +kernel)
  · dsimp only; exact issues_at (by decide +kernel)
  · dsimp only; exact issues_at (by decide +kernel)

/-- What each clause of `RowsIssue` supposes is met. -/
theorem witness_RowsIssue :
    (let e : EngId := 0
     let w : Nat := 1 * 2 ^ 60 + 0 * 2 ^ 54 + 3
     let s : State := prog w (running)
     let d : Dev := at_ s e
     Issues s e 1 0 w d) ∧
    (let e : EngId := 0
     let w : Nat := 1 * 2 ^ 60 + 1 * 2 ^ 54 + 3
     let s : State := prog w (running)
     let d : Dev := at_ s e
     Issues s e 1 1 w d) ∧
    (let e : EngId := 0
     let w : Nat := 1 * 2 ^ 60 + 2 * 2 ^ 54 + 3
     let s : State := prog w (running)
     let d : Dev := at_ s e
     Issues s e 1 2 w d) ∧
    (let e : EngId := 0
     let w : Nat := 4 * 2 ^ 60 + 0 * 2 ^ 54 + 3
     let s : State := prog w (running)
     let d : Dev := at_ s e
     Issues s e 4 0 w d) ∧
    (let e : EngId := 0
     let w : Nat := 4 * 2 ^ 60 + 0 * 2 ^ 54 + 0
     let s : State := prog w (running)
     let d : Dev := at_ s e
     Issues s e 4 0 w d) ∧
    (let e : EngId := 0
     let w : Nat := 4 * 2 ^ 60 + 1 * 2 ^ 54 + 0
     let s : State := prog w (running |>.modEng e (fun z => { z with resumed := false }))
     let d : Dev := at_ s e
     let fresh := (d.eng e).resumed = false
     Issues s e 4 1 w d ∧ fresh) ∧
    (let e : EngId := 0
     let w : Nat := 4 * 2 ^ 60 + 1 * 2 ^ 54 + 0
     let s : State := prog w (running |>.modEng e (fun z => { z with resumed := false }))
     let d : Dev := at_ s e
     let fresh := (d.eng e).resumed = false
     let x := d.rg .ENG_APG_XMAX_XMAX e
     let y := d.rg .ENG_APG_YMAX_YMAX e
     Issues s e 4 1 w d ∧ fresh ∧ (x + 1) * (y + 1) % 2 ^ 64 ≠ 0) ∧
    (let e : EngId := 0
     let w : Nat := 4 * 2 ^ 60 + 1 * 2 ^ 54 + 0
     let s : State := prog w (running |>.modEng 0 (fun z => { z with resumed := true }) |>.sti .ENG_PROG 0 0 5)
     let d : Dev := at_ s e
     let fresh := (d.eng e).resumed = false
     Issues s e 4 1 w d ∧ ¬fresh ∧ d.prog e 0 ≠ 0) ∧
    (let e : EngId := 0
     let w : Nat := 3 * 2 ^ 60 + 4 * 2 ^ 54 + 0
     let s : State := prog w (running)
     let d : Dev := at_ s e
     Issues s e 3 4 w d ∧ iImm w = 0) ∧
    (let e : EngId := 0
     let w : Nat := 3 * 2 ^ 60 + 4 * 2 ^ 54 + 5
     let s : State := prog w (running |>.modEng e (fun z => { z with resumed := false }))
     let d : Dev := at_ s e
     let fresh := (d.eng e).resumed = false
     Issues s e 3 4 w d ∧ iImm w ≠ 0 ∧ fresh) ∧
    (let e : EngId := 0
     let w : Nat := 3 * 2 ^ 60 + 4 * 2 ^ 54 + 5
     let s : State := prog w (running |>.modEng 0 (fun z => { z with resumed := true }))
     let d : Dev := at_ s e
     let fresh := (d.eng e).resumed = false
     Issues s e 3 4 w d ∧ iImm w ≠ 0 ∧ ¬fresh) ∧
    (let e : EngId := 0
     let w : Nat := 2 ^ 60 + 1
     let s : State := ⟨[], memWrite [] (perMem 0 0) (leBytes 8 4000), running |>.st .ENG_STR_CTRL_MODE 0 1 |>.st
         .ENG_STR_CTRL_QUADS 0 1 |>.st .ENG_STR_LEN_LEN 0 64 |>.sti .ENG_PROG 0 0 1 |>.modEng 0 (fun z =>
         { z with act := some w })⟩
     let row : Nat := (((s.dev.advanceTo (s.dev.eng e).free).micro e w 1).2.curRow s.mem e).1.getD 99
     let x : Dev := ((s.dev.advanceTo (s.dev.eng e).free).micro e w 1).2
     let y : Dev := (x.curRow s.mem e).2
     let z : Dev := ((x.curRow s.mem e).2.emitRow s.mem e row 0 ((x.curRow s.mem e).2.execCycle e)).2
     (s.dev.eng e).act = some w ∧ iCls w = 1 ∧ iOp w = 0 ∧ s.dev.goesOn e = true ∧ s.dev.storeClean e ∧ s.dev.roomForTwo e =
       true ∧ s.dev.prog e 0 = 1 ∧ ((s.dev.estate e = 1 ∨ s.dev.estate e = 2)) ∧ x = ((s.dev.advanceTo (s.dev.eng
       e).free).micro e w 1).2 ∧ x.curRow s.mem e = (some row, y) ∧ y.emitRow s.mem e row 0 (y.execCycle e) = (true, z)) ∧
    (let d : Dev := on |>.st .ENG_STAT_STATE 0 2
     let m : List Host.Cell := memWrite [] (perMem 0 0) (leBytes 8 4000)
     let e : Nat := 0
     let word : Nat := 1
     let pinw : Nat := 0
     let u : Nat := 0
     let t : Dev := (d.emitRow m e word pinw u).2
     d.emitRow m e word pinw u = (true, t)) := by
  refine ⟨?_, ?_, ?_, ?_, ?_, ?_, ?_, ?_, ?_, ?_, ?_, ?_, ?_⟩
  · dsimp only; exact issues_at (by decide +kernel)
  · dsimp only; exact issues_at (by decide +kernel)
  · dsimp only; exact issues_at (by decide +kernel)
  · dsimp only; exact issues_at (by decide +kernel)
  · dsimp only; exact issues_at (by decide +kernel)
  · dsimp only; exact ⟨issues_at (by decide +kernel), by decide +kernel⟩
  · dsimp only; exact ⟨issues_at (by decide +kernel), by decide +kernel, by decide +kernel⟩
  · dsimp only; exact ⟨issues_at (by decide +kernel), by decide +kernel, by decide +kernel⟩
  · dsimp only; exact ⟨issues_at (by decide +kernel), by decide +kernel⟩
  · dsimp only; exact ⟨issues_at (by decide +kernel), by decide +kernel, by decide +kernel⟩
  · dsimp only; exact ⟨issues_at (by decide +kernel), by decide +kernel, by decide +kernel⟩
  · dsimp only; exact ⟨by decide +kernel, by decide +kernel, by decide +kernel, by decide +kernel, ⟨by decide +kernel, by decide +kernel⟩, by decide +kernel, by decide +kernel, by decide +kernel, rfl, pair_some (by decide +kernel), pair_true (by decide +kernel)⟩
  · dsimp only; decide +kernel

/-- `RowsIssue` with rows to issue and a full queue. -/
theorem witness_RowsIssue_full :
    (let w : Nat := 1 * 2 ^ 60 + 5
     let row : Row := ⟨3, 0, 0, 0, 0, true, .fixed 4000, [], [], []⟩
     let s : State := prog w (running |>.modEng 0 (fun z => { z with queue := List.replicate 255 row }))
     let d : Dev := at_ s 0
     Issues s 0 1 0 w d ∧ iImm w ≠ 0 ∧ 255 ≤ (d.eng 0).queue.length) := by
  dsimp only; exact ⟨issues_at (by decide +kernel), by decide +kernel, by decide +kernel⟩

/-- What each clause of `Waits` supposes is met. -/
theorem witness_Waits :
    (let e : EngId := 0
     let w : Nat := 7 * 2 ^ 60 + 1 * 2 ^ 54 + 0
     let s : State := prog w (running |>.modEng e (fun z => { z with resumed := false }))
     let d : Dev := at_ s e
     let fresh := (d.eng e).resumed = false
     let quiet := iMod w < 0x20
     Issues s e 7 1 w d ∧ fresh ∧ ((quiet ∨ d.on .ENG_STR_CTRL_FORM e = false)) ∧ d.reg e (iRs w) % 2 ^ 64 ≤ d.nowNs) ∧
    (let e : EngId := 0
     let w : Nat := 7 * 2 ^ 60 + 1 * 2 ^ 54 + 2 * 2 ^ 42 + 5
     let s : State := prog w (running |>.sti .ENG_G 0 2 1000 |>.modEng e (fun z => { z with resumed := false }))
     let d : Dev := at_ s e
     let fresh := (d.eng e).resumed = false
     Issues s e 7 1 w d ∧ fresh ∧ d.nowNs < d.reg e (iRs w) % 2 ^ 64) ∧
    (let e : EngId := 0
     let w : Nat := 7 * 2 ^ 60 + 1 * 2 ^ 54 + 5
     let s : State := prog w (running |>.modEng 0 (fun z => { z with resumed := true }))
     let d : Dev := at_ s e
     let fresh := (d.eng e).resumed = false
     Issues s e 7 1 w d ∧ ¬fresh) ∧
    (let e : EngId := 0
     let w : Nat := 7 * 2 ^ 60 + 2 * 2 ^ 54 + 0
     let s : State := prog w (running)
     let d : Dev := at_ s e
     Issues s e 7 2 w d) ∧
    (let e : EngId := 0
     let w : Nat := 8 * 2 ^ 60 + 1 * 2 ^ 54 + 0
     let s : State := prog w (running)
     let d : Dev := at_ s e
     Issues s e 8 1 w d) ∧
    (let e : EngId := 0
     let w : Nat := 10 * 2 ^ 60 + 4 * 2 ^ 54 + 0
     let s : State := prog w (running)
     let d : Dev := at_ s e
     Issues s e 10 4 w d) ∧
    (let e : EngId := 0
     let w : Nat := 6 * 2 ^ 60 + 3 * 2 ^ 54 + 0
     let s : State := prog w (running)
     let d : Dev := at_ s e
     Issues s e 6 3 w d) ∧
    (let e : EngId := 17
     let w : Nat := 7 * 2 ^ 60 + 1 * 2 ^ 54
     let s : State := ⟨[], [], on |>.st .ENG_STAT_STATE 17 2 |>.modEng 17 (fun z => { z with act := some w })⟩
     let quiet := iMod w < 0x20
     let o := s.dev
     let waiting := (o.eng e).act = some w ∧ o.goesOn e = true ∧ (o.eng e).recov = none ∧ quiet
     waiting ∧ iCls w = 7 ∧ iOp w = 1 ∧ o.prog e 1 ≤ o.nowNs) ∧
    (let e : EngId := 17
     let w : Nat := 7 * 2 ^ 60 + 2 * 2 ^ 54
     let s : State := ⟨[], [], on |>.st .ENG_STAT_STATE 17 2 |>.modEng 17 (fun z =>
         { z with act := some w, evFrom := [⟨3, 0, 0, 0⟩] }) |>.st .ENG_EV_PEND_PEND 17 8⟩
     let quiet := iMod w < 0x20
     let o := s.dev
     let waiting := (o.eng e).act = some w ∧ o.goesOn e = true ∧ (o.eng e).recov = none ∧ quiet
     waiting ∧ iCls w = 7 ∧ iOp w = 2 ∧ o.arose e 3) ∧
    (let e : EngId := 17
     let w : Nat := 8 * 2 ^ 60 + 1 * 2 ^ 54
     let s : State := ⟨[], [], on |>.st .ENG_STAT_STATE 17 2 |>.modEng 17 (fun z =>
         { z with act := some w, evFrom := [⟨2, 0, 0, 0⟩] }) |>.st .ENG_EV_PEND_PEND 17 4⟩
     let quiet := iMod w < 0x20
     let o := s.dev
     let waiting := (o.eng e).act = some w ∧ o.goesOn e = true ∧ (o.eng e).recov = none ∧ quiet
     waiting ∧ iCls w = 8 ∧ iOp w = 1 ∧ o.arose e 2) ∧
    (let e : EngId := 17
     let w : Nat := 10 * 2 ^ 60 + 4 * 2 ^ 54
     let s : State := ⟨[], [], on |>.st .ENG_STAT_STATE 17 2 |>.modEng 17 (fun z => { z with act := some w }) |>.st
         .ENG_EV_PEND_PEND 17 4 |>.st .ENG_EV_EN_EN 17 0x84⟩
     let quiet := iMod w < 0x20
     let o := s.dev
     let waiting := (o.eng e).act = some w ∧ o.goesOn e = true ∧ (o.eng e).recov = none ∧ quiet
     waiting ∧ iCls w = 10 ∧ iOp w = 4 ∧ o.eventFlag e) ∧
    (let e : EngId := 17
     let w : Nat := 10 * 2 ^ 60 + 4 * 2 ^ 54
     let s : State := ⟨[], [], on |>.st .ENG_STAT_STATE 17 2 |>.modEng 17 (fun z => { z with act := some w }) |>.sti .ENG_PROG 17
         0 500⟩
     let quiet := iMod w < 0x20
     let o := s.dev
     let waiting := (o.eng e).act = some w ∧ o.goesOn e = true ∧ (o.eng e).recov = none ∧ quiet
     waiting ∧ iCls w = 10 ∧ iOp w = 4 ∧ o.eventFlag e = false ∧ o.prog e 0 ≠ 0) ∧
    (let e : EngId := 17
     let w : Nat := 6 * 2 ^ 60 + 3 * 2 ^ 54
     let s : State := ⟨[], [], on |>.st .ENG_STAT_STATE 17 2 |>.modEng 17 (fun z => { z with act := some w })⟩
     let o := s.dev
     (o.eng e).act = some w ∧ iCls w = 6 ∧ iOp w = 3) := by
  refine ⟨?_, ?_, ?_, ?_, ?_, ?_, ?_, ?_, ?_, ?_, ?_, ?_, ?_⟩
  · dsimp only; exact ⟨issues_at (by decide +kernel), by decide +kernel, by decide +kernel, by decide +kernel⟩
  · dsimp only; exact ⟨issues_at (by decide +kernel), by decide +kernel, by decide +kernel⟩
  · dsimp only; exact ⟨issues_at (by decide +kernel), by decide +kernel⟩
  · dsimp only; exact issues_at (by decide +kernel)
  · dsimp only; exact issues_at (by decide +kernel)
  · dsimp only; exact issues_at (by decide +kernel)
  · dsimp only; exact issues_at (by decide +kernel)
  · dsimp only; decide +kernel
  · dsimp only; decide +kernel
  · dsimp only; decide +kernel
  · dsimp only; decide +kernel
  · dsimp only; decide +kernel
  · dsimp only; decide +kernel

/-- What each clause of `BlockOperations` supposes is met. -/
theorem witness_BlockOperations :
    (let e : EngId := 0
     let w : Nat := 5 * 2 ^ 60 + 17 * 2 ^ 54 + 4 * 2 ^ 48 + 2 * 2 ^ 42
     let s : State := prog w (running)
     let d : Dev := at_ s e
     Issues s e 5 17 w d) ∧
    (let e : EngId := 0
     let w : Nat := 6 * 2 ^ 60 + 0 * 2 ^ 54 + 4 * 2 ^ 48 + 2 * 2 ^ 42
     let s : State := prog w (running)
     let d : Dev := at_ s e
     Issues s e 6 0 w d) ∧
    (let e : EngId := 0
     let w : Nat := 6 * 2 ^ 60 + 1 * 2 ^ 54 + 4 * 2 ^ 48 + 2 * 2 ^ 42
     let s : State := prog w (running)
     let d : Dev := at_ s e
     Issues s e 6 1 w d) ∧
    (let e : EngId := 0
     let w : Nat := 6 * 2 ^ 60 + 2 * 2 ^ 54 + 4 * 2 ^ 48 + 2 * 2 ^ 42
     let s : State := prog w (running)
     let d : Dev := at_ s e
     Issues s e 6 2 w d) ∧
    (let e : EngId := 0
     let w : Nat := 5 * 2 ^ 60 + 17 * 2 ^ 54 + 4 * 2 ^ 48 + 2 * 2 ^ 42
     let s : State := prog w (running |>.sti .ENG_G 0 3 16)
     let d : Dev := at_ s e
     let fresh := (d.eng e).resumed = false
     let n := d.reg e (iRs w + 1)
     Issues s e 5 17 w d ∧ (¬(fresh ∧ n = 0))) ∧
    (let e : EngId := 0
     let w : Nat := 6 * 2 ^ 60 + 0 * 2 ^ 54 + 4 * 2 ^ 48 + 2 * 2 ^ 42
     let s : State := prog w (running |>.sti .ENG_G 0 3 16)
     let d : Dev := at_ s e
     let fresh := (d.eng e).resumed = false
     let n := d.reg e (iRs w + 1)
     Issues s e 6 0 w d ∧ (¬(fresh ∧ n = 0))) ∧
    (let e : EngId := 0
     let w : Nat := 6 * 2 ^ 60 + 1 * 2 ^ 54 + 4 * 2 ^ 48 + 2 * 2 ^ 42
     let s : State := prog w (running |>.sti .ENG_G 0 3 16)
     let d : Dev := at_ s e
     let fresh := (d.eng e).resumed = false
     let n := d.reg e (iRs w + 1)
     Issues s e 6 1 w d ∧ (¬(fresh ∧ n = 0))) ∧
    (let e : EngId := 0
     let w : Nat := 6 * 2 ^ 60 + 2 * 2 ^ 54 + 4 * 2 ^ 48 + 2 * 2 ^ 42
     let s : State := prog w (running |>.sti .ENG_G 0 3 16)
     let d : Dev := at_ s e
     let fresh := (d.eng e).resumed = false
     let n := d.reg e (iRs w + 1)
     Issues s e 6 2 w d ∧ (¬(fresh ∧ n = 0))) ∧
    (let e : EngId := 0
     let w : Nat := 5 * 2 ^ 60 + 17 * 2 ^ 54 + 4 * 2 ^ 48 + 2 * 2 ^ 42
     let s : State := prog w (running |>.sti .ENG_G 0 2 0x100 |>.sti .ENG_G 0 3 16 |>.sti .ENG_G 0 4 0x300 |>.st .DRC_STAT_STATE
         0 3 |>.st .HOST_READY_THIMBLE 0 1 |>.st .DRC_CFG_POP 0 1 |>.st .DRC_CFG_DENS 0 1 |>.st .DRC_STAT_STATE 0 4 |>.modEng e
         (fun z => { z with resumed := false }))
     let d : Dev := at_ s e
     let fresh := (d.eng e).resumed = false
     let a := d.reg e (iRs w) % 2 ^ 38
     let n := d.reg e (iRs w + 1)
     let some_ := fresh ∧ 0 < n ∧ n < 2 ^ 64
     Issues s e 5 17 w d ∧ some_ ∧ d.blkPath a = .waits) ∧
    (let e : EngId := 0
     let w : Nat := 6 * 2 ^ 60 + 0 * 2 ^ 54 + 4 * 2 ^ 48 + 2 * 2 ^ 42
     let s : State := prog w (running |>.sti .ENG_G 0 2 0x100 |>.sti .ENG_G 0 3 16 |>.sti .ENG_G 0 4 0x300 |>.st .DRC_STAT_STATE
         0 3 |>.st .HOST_READY_THIMBLE 0 1 |>.st .DRC_CFG_POP 0 1 |>.st .DRC_CFG_DENS 0 1 |>.st .DRC_STAT_STATE 0 4 |>.modEng e
         (fun z => { z with resumed := false }))
     let d : Dev := at_ s e
     let fresh := (d.eng e).resumed = false
     let a := d.reg e (iRs w) % 2 ^ 38
     let n := d.reg e (iRs w + 1)
     let some_ := fresh ∧ 0 < n ∧ n < 2 ^ 64
     Issues s e 6 0 w d ∧ some_ ∧ d.blkInto a = .waits) ∧
    (let e : EngId := 0
     let w : Nat := 6 * 2 ^ 60 + 1 * 2 ^ 54 + 4 * 2 ^ 48 + 2 * 2 ^ 42
     let s : State := prog w (running |>.sti .ENG_G 0 2 0x100 |>.sti .ENG_G 0 3 16 |>.sti .ENG_G 0 4 0x300 |>.st .DRC_STAT_STATE
         0 3 |>.st .HOST_READY_THIMBLE 0 1 |>.st .DRC_CFG_POP 0 1 |>.st .DRC_CFG_DENS 0 1 |>.st .DRC_STAT_STATE 0 4 |>.modEng e
         (fun z => { z with resumed := false }))
     let d : Dev := at_ s e
     let fresh := (d.eng e).resumed = false
     let a := d.reg e (iRs w) % 2 ^ 38
     let n := d.reg e (iRs w + 1)
     let b := d.reg e (iRd w) % 2 ^ 38
     let some_ := fresh ∧ 0 < n ∧ n < 2 ^ 64
     Issues s e 6 1 w d ∧ some_ ∧ ((d.blkPath a = .waits ∨ d.blkInto b = .waits))) ∧
    (let e : EngId := 0
     let w : Nat := 6 * 2 ^ 60 + 2 * 2 ^ 54 + 4 * 2 ^ 48 + 2 * 2 ^ 42
     let s : State := prog w (running |>.sti .ENG_G 0 2 0x100 |>.sti .ENG_G 0 3 16 |>.sti .ENG_G 0 4 0x300 |>.st .DRC_STAT_STATE
         0 3 |>.st .HOST_READY_THIMBLE 0 1 |>.st .DRC_CFG_POP 0 1 |>.st .DRC_CFG_DENS 0 1 |>.st .DRC_STAT_STATE 0 4 |>.modEng e
         (fun z => { z with resumed := false }))
     let d : Dev := at_ s e
     let fresh := (d.eng e).resumed = false
     let a := d.reg e (iRs w) % 2 ^ 38
     let n := d.reg e (iRs w + 1)
     let b := d.reg e (iRd w) % 2 ^ 38
     let some_ := fresh ∧ 0 < n ∧ n < 2 ^ 64
     Issues s e 6 2 w d ∧ some_ ∧ ((d.blkPath a = .waits ∨ d.blkPath b = .waits))) ∧
    (let e : EngId := 0
     let w : Nat := 5 * 2 ^ 60 + 17 * 2 ^ 54 + 4 * 2 ^ 48 + 2 * 2 ^ 42
     let s : State := prog w (running |>.sti .ENG_G 0 2 0x100 |>.sti .ENG_G 0 3 16 |>.sti .ENG_G 0 4 0x300 |>.modEng e (fun z =>
         { z with resumed := false }))
     let d : Dev := at_ s e
     let fresh := (d.eng e).resumed = false
     let a := d.reg e (iRs w) % 2 ^ 38
     let n := d.reg e (iRs w + 1)
     let some_ := fresh ∧ 0 < n ∧ n < 2 ^ 64
     Issues s e 5 17 w d ∧ some_ ∧ d.blkPath a = .faults) ∧
    (let e : EngId := 0
     let w : Nat := 6 * 2 ^ 60 + 0 * 2 ^ 54 + 4 * 2 ^ 48 + 2 * 2 ^ 42
     let s : State := prog w (running |>.sti .ENG_G 0 2 0x100 |>.sti .ENG_G 0 3 16 |>.sti .ENG_G 0 4 0x300 |>.modEng e (fun z =>
         { z with resumed := false }))
     let d : Dev := at_ s e
     let fresh := (d.eng e).resumed = false
     let a := d.reg e (iRs w) % 2 ^ 38
     let n := d.reg e (iRs w + 1)
     let some_ := fresh ∧ 0 < n ∧ n < 2 ^ 64
     Issues s e 6 0 w d ∧ some_ ∧ d.blkInto a = .faults) ∧
    (let e : EngId := 0
     let w : Nat := 6 * 2 ^ 60 + 1 * 2 ^ 54 + 4 * 2 ^ 48 + 2 * 2 ^ 42
     let s : State := prog w (running |>.sti .ENG_G 0 2 0x100 |>.sti .ENG_G 0 3 16 |>.sti .ENG_G 0 4 0x300 |>.modEng e (fun z =>
         { z with resumed := false }))
     let d : Dev := at_ s e
     let fresh := (d.eng e).resumed = false
     let a := d.reg e (iRs w) % 2 ^ 38
     let n := d.reg e (iRs w + 1)
     let b := d.reg e (iRd w) % 2 ^ 38
     let some_ := fresh ∧ 0 < n ∧ n < 2 ^ 64
     let near := (b + n - 1) % 2 ^ 38
     Issues s e 6 1 w d ∧ some_ ∧ n ≤ 256 - a % 256 ∧ d.blkPath a = .faults ∧ d.blkInto b ≠ .waits ∧ d.blkInto near ≠ .waits) ∧
    (let e : EngId := 0
     let w : Nat := 6 * 2 ^ 60 + 2 * 2 ^ 54 + 4 * 2 ^ 48 + 2 * 2 ^ 42
     let s : State := prog w (running |>.sti .ENG_G 0 2 0x100 |>.sti .ENG_G 0 3 16 |>.sti .ENG_G 0 4 0x300 |>.modEng e (fun z =>
         { z with resumed := false }))
     let d : Dev := at_ s e
     let fresh := (d.eng e).resumed = false
     let a := d.reg e (iRs w) % 2 ^ 38
     let n := d.reg e (iRs w + 1)
     let b := d.reg e (iRd w) % 2 ^ 38
     let some_ := fresh ∧ 0 < n ∧ n < 2 ^ 64
     let near := (b + n - 1) % 2 ^ 38
     Issues s e 6 2 w d ∧ some_ ∧ n ≤ 256 - a % 256 ∧ d.blkPath a = .faults ∧ d.blkPath b ≠ .waits ∧ d.blkPath near ≠ .waits) ∧
    (let e : EngId := 0
     let w : Nat := 5 * 2 ^ 60 + 17 * 2 ^ 54 + 4 * 2 ^ 48 + 2 * 2 ^ 42
     let s : State := prog w (running |>.sti .ENG_G 0 2 4 |>.sti .ENG_G 0 3 12 |>.sti .ENG_G 0 4 0xFFFFFFFF |>.st .DRC_STAT_STATE
         0 3 |>.st .HOST_READY_THIMBLE 0 1 |>.st .DRC_CFG_POP 0 1 |>.st .DRC_CFG_DENS 0 1 |>.modEng e (fun z =>
         { z with resumed := false }))
     let d : Dev := at_ s e
     let fresh := (d.eng e).resumed = false
     let a := d.reg e (iRs w) % 2 ^ 38
     let n := d.reg e (iRs w + 1)
     let some_ := fresh ∧ 0 < n ∧ n < 2 ^ 64
     let bytes := d.portRead s.mem 0x0B a n
     Issues s e 5 17 w d ∧ some_ ∧ n ≤ 16 - a % 16 ∧ iRd w < 0x34 ∧ d.blkPath a = .served ∧ bytes.2.1 = false) ∧
    (let e : EngId := 0
     let w : Nat := 6 * 2 ^ 60 + 0 * 2 ^ 54 + 4 * 2 ^ 48 + 2 * 2 ^ 42
     let s : State := prog w (running |>.sti .ENG_G 0 2 48 |>.sti .ENG_G 0 3 16 |>.sti .ENG_G 0 4 0x200 |>.st .DRC_STAT_STATE 0 3
         |>.st .HOST_READY_THIMBLE 0 1 |>.st .DRC_CFG_POP 0 1 |>.st .DRC_CFG_DENS 0 1 |>.modEng e (fun z =>
         { z with resumed := false }) |> fun d => { d with errs := [] })
     let d : Dev := at_ s e
     let fresh := (d.eng e).resumed = false
     let a := d.reg e (iRs w) % 2 ^ 38
     let n := d.reg e (iRs w + 1)
     let open_ := fun (x : Nat) => d.awgGuard (x / 256) = none ∧ d.unzeroed (x / 256) = false ∧ d.errs = []
     s.wf ∧ Issues s e 6 0 w d ∧ fresh ∧ n = 16 ∧ iRd w < 0x34 ∧ d.blkInto a = .served ∧ open_ a) ∧
    (let e : EngId := 0
     let w : Nat := 6 * 2 ^ 60 + 1 * 2 ^ 54 + 4 * 2 ^ 48 + 2 * 2 ^ 42
     let s : State := prog w (running |>.sti .ENG_G 0 2 48 |>.sti .ENG_G 0 3 16 |>.sti .ENG_G 0 4 0x200 |>.st .DRC_STAT_STATE 0 3
         |>.st .HOST_READY_THIMBLE 0 1 |>.st .DRC_CFG_POP 0 1 |>.st .DRC_CFG_DENS 0 1 |>.modEng e (fun z =>
         { z with resumed := false }) |> fun d => { d with errs := [] } |> fun d => { d with errs := [] })
     let d : Dev := at_ s e
     let fresh := (d.eng e).resumed = false
     let a := d.reg e (iRs w) % 2 ^ 38
     let n := d.reg e (iRs w + 1)
     let b := d.reg e (iRd w) % 2 ^ 38
     let open_ := fun (x : Nat) => d.awgGuard (x / 256) = none ∧ d.unzeroed (x / 256) = false ∧ d.errs = []
     s.wf ∧ Issues s e 6 1 w d ∧ fresh ∧ n = 16 ∧ d.blkPath a = .served ∧ d.blkInto b = .served ∧ open_ a ∧ open_ b ∧
       dramBase + a ∉ d.poison) ∧
    (let e : EngId := 0
     let w : Nat := 6 * 2 ^ 60 + 2 * 2 ^ 54 + 4 * 2 ^ 48 + 2 * 2 ^ 42
     let s : State := prog w (running |>.sti .ENG_G 0 2 4 |>.sti .ENG_G 0 3 12 |>.sti .ENG_G 0 4 0x200 |>.st .DRC_STAT_STATE 0 3
         |>.st .HOST_READY_THIMBLE 0 1 |>.st .DRC_CFG_POP 0 1 |>.st .DRC_CFG_DENS 0 1 |>.modEng e (fun z =>
         { z with resumed := false }))
     let d : Dev := at_ s e
     let fresh := (d.eng e).resumed = false
     let a := d.reg e (iRs w) % 2 ^ 38
     let n := d.reg e (iRs w + 1)
     let b := d.reg e (iRd w) % 2 ^ 38
     let some_ := fresh ∧ 0 < n ∧ n < 2 ^ 64
     let bytes := d.portRead s.mem 0x0B a n
     let other := d.portRead s.mem 0x0B b n
     Issues s e 6 2 w d ∧ some_ ∧ n ≤ 16 - a % 16 ∧ n ≤ 16 - b % 16 ∧ d.blkPath a = .served ∧ d.blkPath b = .served ∧
       bytes.2.1 = false ∧ other.2.1 = false ∧ bytes.1 = other.1) := by
  refine ⟨?_, ?_, ?_, ?_, ?_, ?_, ?_, ?_, ?_, ?_, ?_, ?_, ?_, ?_, ?_, ?_, ?_, ?_, ?_, ?_⟩
  · dsimp only; exact issues_at (by decide +kernel)
  · dsimp only; exact issues_at (by decide +kernel)
  · dsimp only; exact issues_at (by decide +kernel)
  · dsimp only; exact issues_at (by decide +kernel)
  · dsimp only; exact ⟨issues_at (by decide +kernel), by decide +kernel⟩
  · dsimp only; exact ⟨issues_at (by decide +kernel), by decide +kernel⟩
  · dsimp only; exact ⟨issues_at (by decide +kernel), by decide +kernel⟩
  · dsimp only; exact ⟨issues_at (by decide +kernel), by decide +kernel⟩
  · dsimp only; exact ⟨issues_at (by decide +kernel), by decide +kernel, by decide +kernel⟩
  · dsimp only; exact ⟨issues_at (by decide +kernel), by decide +kernel, by decide +kernel⟩
  · dsimp only; exact ⟨issues_at (by decide +kernel), by decide +kernel, by decide +kernel⟩
  · dsimp only; exact ⟨issues_at (by decide +kernel), by decide +kernel, by decide +kernel⟩
  · dsimp only; exact ⟨issues_at (by decide +kernel), by decide +kernel, by decide +kernel⟩
  · dsimp only; exact ⟨issues_at (by decide +kernel), by decide +kernel, by decide +kernel⟩
  · dsimp only; exact ⟨issues_at (by decide +kernel), by decide +kernel, by decide +kernel, by decide +kernel, by decide +kernel, by decide +kernel⟩
  · dsimp only; exact ⟨issues_at (by decide +kernel), by decide +kernel, by decide +kernel, by decide +kernel, by decide +kernel, by decide +kernel⟩
  · dsimp only; exact ⟨issues_at (by decide +kernel), by decide +kernel, by decide +kernel, by decide +kernel, by decide +kernel, by decide +kernel⟩
  · dsimp only; exact ⟨by decide +kernel, issues_at (by decide +kernel), by decide +kernel, by decide +kernel, by decide +kernel, by decide +kernel, by decide +kernel⟩
  · dsimp only; exact ⟨by decide +kernel, issues_at (by decide +kernel), by decide +kernel, by decide +kernel, by decide +kernel, by decide +kernel, by decide +kernel, by decide +kernel, by decide +kernel⟩
  · dsimp only; exact ⟨issues_at (by decide +kernel), by decide +kernel, by decide +kernel, by decide +kernel, by decide +kernel, by decide +kernel, by decide +kernel, by decide +kernel, by decide +kernel⟩

/-- What each clause of `EndsOfIssue` supposes is met. -/
theorem witness_EndsOfIssue :
    (let e : EngId := 0
     let w : Nat := 0 * 2 ^ 60 + 6 * 2 ^ 54 + 0
     let s : State := prog w (running)
     let d : Dev := at_ s e
     Issues s e 0 6 w d) ∧
    (let e : EngId := 17
     let s : State := ⟨[], [], on |>.st .ENG_STAT_STATE 17 2⟩
     s.dev.domOn (3 + e / 16) = true ∧ ((s.dev.estate e = 1 ∨ s.dev.estate e = 2)) ∧ (s.dev.eng e).ending = none ∧
       (s.dev.eng e).recov = none ∧ s.dev.tied e = false) ∧
    (let e : EngId := 17
     let s : State := ⟨[], [], on⟩
     s.dev.domOn (3 + e / 16) = true ∧ s.dev.estate e ≠ 1 ∧ s.dev.estate e ≠ 2) := by
  refine ⟨?_, ?_, ?_⟩
  · dsimp only; exact issues_at (by decide +kernel)
  · dsimp only; decide +kernel
  · dsimp only; decide +kernel

/-- What each clause of `EventsAndReturn` supposes is met. -/
theorem witness_EventsAndReturn :
    (let e : EngId := 0
     let w : Nat := 0 * 2 ^ 60 + 7 * 2 ^ 54 + 0
     let s : State := prog w (running |>.st .ENG_ESTAT_INHANDLER 0 1 |>.st .ENG_ESTAT_RESUME 0 1 |>.st .ENG_EPC 0 5 |>.st
         .ENG_ESTAT_SZERO 0 1)
     let d : Dev := at_ s e
     Issues s e 0 7 w d) ∧
    (let e : EngId := 0
     let k : Nat := 3
     let s : State := ⟨[], [], on |>.st .ENG_STAT_STATE 0 2 |>.st .ENG_ESTAT_IE 0 1 |>.st .ENG_EV_PEND_PEND 0 0x18 |>.st
         .ENG_EV_EN_EN 0 0x98 |>.sti .ENG_EV_VEC_VALID 0 3 1 |>.sti .ENG_EV_VEC_ADDR 0 3 0x40 |>.st .ENG_FLAGS_ZERO 0 1 |>.st
         .ENG_PC_ADDR 0 9⟩
     let o := s.dev
     let can := fun (k : Nat) => k ≠ 7 ∧ (o.rg .ENG_EV_PEND_PEND e).testBit k ∧ (o.rg .ENG_EV_EN_EN e).testBit k ∧ o.rgi
         .ENG_EV_VEC_VALID e k = 1 ∧ o.waitsOn e k = false ∧ ∀ p, (o.eng e).evFrom.find? (·.k == k) = some p → p.from_ ≤ o.tick
     let stands := o.estate e = 2 ∧ (o.eng e).br = none ∧ (o.eng e).miss = none ∧ (o.eng e).recov = none ∧ (o.eng e).pcOver =
         false ∧ o.on .ENG_ESTAT_IE e = true
     stands ∧ (o.eng e).act = none ∧ ((∃ v, (o.fetch s.mem e).1 = some v ∧ (opUse (iCls v) (iOp v) (iMod v)).isSome)) ∧ can
       k ∧ ((∀ j < k, ¬can j))) ∧
    (let e : EngId := 0
     let w : Nat := 7 * 2 ^ 60 + 2 ^ 54
     let k : Nat := 3
     let s : State := ⟨[], [], on |>.st .ENG_STAT_STATE 0 2 |>.st .ENG_ESTAT_IE 0 1 |>.st .ENG_EV_PEND_PEND 0 0x18 |>.st
         .ENG_EV_EN_EN 0 0x98 |>.sti .ENG_EV_VEC_VALID 0 3 1 |>.sti .ENG_EV_VEC_ADDR 0 3 0x40 |>.st .ENG_FLAGS_ZERO 0 1 |>.st
         .ENG_PC_ADDR 0 9 |>.modEng 0 (fun z => { z with act := some w, atPoint := true })⟩
     let o := s.dev
     let can := fun (k : Nat) => k ≠ 7 ∧ (o.rg .ENG_EV_PEND_PEND e).testBit k ∧ (o.rg .ENG_EV_EN_EN e).testBit k ∧ o.rgi
         .ENG_EV_VEC_VALID e k = 1 ∧ o.waitsOn e k = false ∧ ∀ p, (o.eng e).evFrom.find? (·.k == k) = some p → p.from_ ≤ o.tick
     let stands := o.estate e = 2 ∧ (o.eng e).br = none ∧ (o.eng e).miss = none ∧ (o.eng e).recov = none ∧ (o.eng e).pcOver =
         false ∧ o.on .ENG_ESTAT_IE e = true
     stands ∧ (o.eng e).act = some w ∧ (o.eng e).atPoint = true ∧ isEmit w = false ∧ isHoldEmit w = false ∧ (¬(iCls w = 10 ∧
       iOp w = 4)) ∧ can k ∧ ((∀ j < k, ¬can j))) ∧
    (let e : EngId := 0
     let w : Nat := 10 * 2 ^ 60 + 4 * 2 ^ 54
     let k : Nat := 3
     let s : State := ⟨[], [], on |>.st .ENG_STAT_STATE 0 2 |>.st .ENG_ESTAT_IE 0 1 |>.st .ENG_EV_PEND_PEND 0 0x18 |>.st
         .ENG_EV_EN_EN 0 0x98 |>.sti .ENG_EV_VEC_VALID 0 3 1 |>.sti .ENG_EV_VEC_ADDR 0 3 0x40 |>.st .ENG_FLAGS_ZERO 0 1 |>.st
         .ENG_PC_ADDR 0 9 |>.modEng 0 (fun z => { z with act := some w, atPoint := true })⟩
     let o := s.dev
     let can := fun (k : Nat) => k ≠ 7 ∧ (o.rg .ENG_EV_PEND_PEND e).testBit k ∧ (o.rg .ENG_EV_EN_EN e).testBit k ∧ o.rgi
         .ENG_EV_VEC_VALID e k = 1 ∧ o.waitsOn e k = false ∧ ∀ p, (o.eng e).evFrom.find? (·.k == k) = some p → p.from_ ≤ o.tick
     let stands := o.estate e = 2 ∧ (o.eng e).br = none ∧ (o.eng e).miss = none ∧ (o.eng e).recov = none ∧ (o.eng e).pcOver =
         false ∧ o.on .ENG_ESTAT_IE e = true
     stands ∧ (o.eng e).act = some w ∧ (o.eng e).atPoint = true ∧ iCls w = 10 ∧ iOp w = 4 ∧ iMod w < 0x20 ∧ can k ∧ ((∀ j <
       k, ¬can j))) ∧
    (let e : EngId := 17
     let s : State := ⟨[], [], on |>.st .ENG_STAT_STATE 17 2⟩
     let o := s.dev
     o.domOn (3 + e / 16) = true ∧ o.tied e = false ∧ o.runs e = true) := by
  refine ⟨?_, ?_, ?_, ?_, ?_⟩
  · dsimp only; exact issues_at (by decide +kernel)
  · dsimp only; decide +kernel
  · dsimp only; decide +kernel
  · dsimp only; decide +kernel
  · dsimp only; decide +kernel

/-- What each clause of `Decisions` supposes is met. -/
theorem witness_Decisions :
    (let e : EngId := 17
     let b : Brn := ⟨9, 7, 5, 0, none, some 9, none⟩
     let t0 : Nat := 9
     let s : State := ⟨[], [], on |>.modEng e (fun z => { z with br := some b }) |>.modEng 17 (fun z => { z with br := some b })⟩
     let d := s.dev
     let x := d.eng e
     x.br = some b ∧ b.decided = none ∧ b.tr = some t0 ∧ b.left = 0) ∧
    (let e : EngId := 17
     let b : Brn := ⟨9, 7, 5, 2, none, some 9, none⟩
     let t0 : Nat := 9
     let s : State := ⟨[], [], on |>.modEng e (fun z => { z with br := some b }) |>.modEng 17 (fun z => { z with br := some b })⟩
     let d := s.dev
     let x := d.eng e
     x.br = some b ∧ b.decided = none ∧ b.tr = some t0 ∧ b.left ≠ 0) ∧
    (let e : EngId := 17
     let w : Nat := 3 * 2 ^ 60 + 4 * 2 ^ 54 + 3
     let v : Nat := 6
     let s : State := ⟨[], [], on |>.modEng e (fun z => { z with act := some w }) |>.modEng e (fun z => { z with recov := none })
         |>.modEng e (fun z => { z with judged := [(v, true)] }) |>.st .ENG_STAT_STATE 17 2 |>.sti .ENG_PROG 17 2 5 |>.modEng 17
         (fun z => { z with free := 8000 })⟩
     let d := s.dev
     let x := d.eng e
     x.act = some w ∧ iCls w = 3 ∧ iOp w = 4 ∧ iMod w % 2 = 0 ∧ d.goesOn e = true ∧ x.recov = none ∧ d.tick < x.free ∧
       x.judged = [(v, true)] ∧ d.prog e 2 ≤ v ∧ v < d.prog e 2 + iImm w) ∧
    (let e : EngId := 17
     let w : Nat := 3 * 2 ^ 60 + 4 * 2 ^ 54 + 3
     let v : Nat := 7
     let s : State := ⟨[], [], on |>.modEng e (fun z => { z with act := some w }) |>.modEng e (fun z => { z with recov := none })
         |>.modEng e (fun z => { z with judged := [(v, false)] }) |>.st .ENG_STAT_STATE 17 2 |>.sti .ENG_PROG 17 2 5 |>.modEng 17
         (fun z => { z with free := 8000 })⟩
     let d := s.dev
     let x := d.eng e
     x.act = some w ∧ iCls w = 3 ∧ iOp w = 4 ∧ iMod w % 2 = 0 ∧ d.goesOn e = true ∧ x.recov = none ∧ d.tick < x.free ∧
       x.judged = [(v, false)] ∧ d.prog e 2 ≤ v ∧ v + 1 = d.prog e 2 + iImm w) ∧
    (let e : EngId := 17
     let t0 : Nat := 0
     let s : State := ⟨[], [], on |>.st .ENG_TIE_TIED e 0 |>.modEng e (fun z =>
         { z with flagQ := [⟨t0, false, .fail⟩, ⟨t0, true, .fail⟩] })⟩
     let d := s.dev
     let x := d.eng e
     d.tied e = false ∧ x.flagQ = [⟨t0, false, .fail⟩, ⟨t0, true, .fail⟩]) := by
  refine ⟨?_, ?_, ?_, ?_, ?_⟩
  · dsimp only; decide +kernel
  · dsimp only; decide +kernel
  · dsimp only; decide +kernel
  · dsimp only; decide +kernel
  · dsimp only; decide +kernel

/-- What each clause of `IssueActions` supposes is met. -/
theorem witness_IssueActions :
    (let e : EngId := 0
     let w : Nat := 7 * 2 ^ 60 + 3 * 2 ^ 54 + 2 ^ 32 + 77
     let s : State := prog w (running)
     let d : Dev := at_ s e
     Issues s e 7 3 w d ∧ iMod w % 2 = 1 ∧ (d.eng e).tacks.length < 16) ∧
    (let e : EngId := 0
     let w : Nat := 8 * 2 ^ 60 + 0 * 2 ^ 54 + 17 * 2 ^ 32
     let s : State := prog w (running |>.st .ACQ_STAT_STATE 5 1)
     let d : Dev := at_ s e
     Issues s e 8 0 w d ∧ iMod w / 16 % 2 = 1) ∧
    (let e : EngId := 0
     let w : Nat := 8 * 2 ^ 60 + 2 * 2 ^ 54 + 0
     let s : State := prog w (running |>.st .ACQ_GRANT_EN 0 1 |>.st .ACQ_POST_SAMPLES 0 4)
     let d : Dev := at_ s e
     Issues s e 8 2 w d) ∧
    (let e : EngId := 17
     let pd : Nat := 3
     let f : Nat := 77
     let t0 : Nat := 900
     let norow : Bool := false
     let rest : List (Pal × Nat × Bool) := []
     let s : State := ⟨[], [], on |>.modEng e (fun z => { z with palDue := (.lvl pd f, t0, norow) :: rest })⟩
     let o := s.dev
     (o.eng e).palDue = (.lvl pd f, t0, norow) :: rest) ∧
    (let e : EngId := 17
     let v : Nat := 9
     let t0 : Nat := 900
     let norow : Bool := false
     let rest : List (Pal × Nat × Bool) := []
     let s : State := ⟨[], [], on |>.modEng e (fun z => { z with palDue := (.tack v, t0, norow) :: rest })⟩
     let o := s.dev
     (o.eng e).palDue = (.tack v, t0, norow) :: rest ∧ (o.eng e).tacks.length < 16) := by
  refine ⟨?_, ?_, ?_, ?_, ?_⟩
  · dsimp only; exact ⟨issues_at (by decide +kernel), by decide +kernel, by decide +kernel⟩
  · dsimp only; exact ⟨issues_at (by decide +kernel), by decide +kernel⟩
  · dsimp only; exact issues_at (by decide +kernel)
  · dsimp only; decide +kernel
  · dsimp only; decide +kernel

/-- What each clause of `FrontEndBus` supposes is met. -/
theorem witness_FrontEndBus :
    (let pd : PdId := 2
     let s : State := ⟨[], [], on |> fun d => { d with tick := 8000 } |>.setFeb 2 { queue := [⟨.engine 3, 5, 0⟩] }⟩
     let d := s.dev
     let x := d.feb pd
     let on := d.domOn (11 + pd) = true
     let up := on ∧ ¬(11 + pd.val) ∈ d.quies
     let earlier := fun (l : List FebFrame) => ∀ y ∈ l, cycleOf y.at_ < cycleOf d.tick
     up ∧ x.queue.length ≤ 8 ∧ earlier x.queue) ∧
    (let pd : PdId := 2
     let s : State := ⟨[], [], on |>.setFeb 2 { queue := List.replicate 9 ⟨.host, 5, 0⟩ }⟩
     let d := s.dev
     let x := d.feb pd
     let on := d.domOn (11 + pd) = true
     let up := on ∧ ¬(11 + pd.val) ∈ d.quies
     up ∧ 8 < x.queue.length) ∧
    (let pd : PdId := 2
     let s : State := ⟨[], [], on |>.setDom (11 + pd) 2⟩
     let d := s.dev
     d.domOn (11 + pd) = false) ∧
    (let pd : PdId := 2
     let s : State := ⟨[], [], on |> fun d => { d with tick := 8000 } |>.setFeb 2
         { queue := [⟨.host, 5, 0⟩, ⟨.engine 3, 7, 0⟩] }⟩
     let d := s.dev
     let x := d.feb pd
     let on := d.domOn (11 + pd) = true
     let earlier := fun (l : List FebFrame) => ∀ y ∈ l, cycleOf y.at_ < cycleOf d.tick
     on ∧ ((x.busy = false ∨ x.retry ≠ none)) ∧ d.cal.wait = [] ∧ earlier x.queue) ∧
    (let pd : PdId := 2
     let h : FebFrame := ⟨.host, 5, 0⟩
     let q : List FebFrame := [⟨.engine 3, 7, 0⟩]
     let s : State := ⟨[], [], on |> fun d => { d with tick := 8000 } |>.setFeb 2
         { busy := true, queue := [⟨.host, 5, 0⟩, ⟨.engine 3, 7, 0⟩] }⟩
     let d := s.dev
     let x := d.feb pd
     let on := d.domOn (11 + pd) = true
     let earlier := fun (l : List FebFrame) => ∀ y ∈ l, cycleOf y.at_ < cycleOf d.tick
     on ∧ x.busy = true ∧ x.retry = none ∧ x.queue = h :: q ∧ d.cal.wait = [] ∧ earlier q) ∧
    (let pd : PdId := 2
     let h : FebFrame := ⟨.host, 5, 0⟩
     let q : List FebFrame := []
     let s : State := ⟨[], [], on |>.setDom (11 + pd) 0 |>.st .FEB_CTRL_EN pd 1 |>.setFeb pd { busy := false, queue := h :: q }⟩
     let d := s.dev
     let x := d.feb pd
     let on := d.domOn (11 + pd) = true
     on ∧ d.on .FEB_CTRL_EN pd = true ∧ x.busy = false ∧ x.queue = h :: q) ∧
    (let pd : PdId := 2
     let s : State := ⟨[], [], on |>.setDom 13 2⟩
     let d := s.dev
     let on := d.domOn (11 + pd) = true
     ¬on) ∧
    (let pd : PdId := 2
     let h : FebFrame := ⟨.host, 5, 0⟩
     let q : List FebFrame := []
     let s : State := ⟨[], [], on |>.setFeb 2 { busy := true, queue := h :: q }⟩
     let d := s.dev
     let x := d.feb pd
     let on := d.domOn (11 + pd) = true
     x.busy = true ∧ x.retry = none ∧ x.queue = h :: q ∧ d.cal.wait = [] ∧ ((febIsRead h.bits = false ∨ ¬on))) ∧
    (let pd : PdId := 2
     let di : BitVec 17 := 6
     let h : FebFrame := ⟨.host, 2 ^ 31 + 5, 0⟩
     let q : List FebFrame := []
     let s : State := ⟨[], [], on |>.setFeb 2 { busy := true, queue := h :: q }⟩
     let d := s.dev
     let x := d.feb pd
     let on := d.domOn (11 + pd) = true
     let odd := parityOf 17 di.toNat ≠ 0
     on ∧ x.busy = true ∧ x.retry = none ∧ x.queue = h :: q ∧ h.src = .host ∧ d.cal.wait = [] ∧ febIsRead h.bits = true ∧
       ¬odd) ∧
    (let pd : PdId := 2
     let di : BitVec 17 := 2
     let h : FebFrame := ⟨.host, 2 ^ 31 + 5, 0⟩
     let q : List FebFrame := []
     let s : State := ⟨[], [], on |>.setFeb 2 { busy := true, queue := h :: q }⟩
     let d := s.dev
     let x := d.feb pd
     let on := d.domOn (11 + pd) = true
     let odd := parityOf 17 di.toNat ≠ 0
     on ∧ x.busy = true ∧ x.retry = none ∧ x.queue = h :: q ∧ d.cal.wait = [] ∧ febIsRead h.bits = true ∧ odd) ∧
    (let pd : PdId := 2
     let di : BitVec 17 := 2
     let h : FebFrame := ⟨.host, 2 ^ 31 + 5, 0⟩
     let s : State := ⟨[], [], on |>.setFeb 2 { busy := true, retry := some h }⟩
     let d := s.dev
     let x := d.feb pd
     let on := d.domOn (11 + pd) = true
     let odd := parityOf 17 di.toNat ≠ 0
     on ∧ x.busy = true ∧ x.retry = some h ∧ h.src = .host ∧ d.cal.wait = [] ∧ febIsRead h.bits = true ∧ odd) ∧
    (let e : EngId := 17
     let k : Nat := 3
     let f : Nat := 9
     let due : List (Nat × Nat) := []
     let s : State := ⟨[], [], on |>.st .FEB_CTRL_EN 3 1 |>.modEng 17 (fun z => { z with febDue := (k, f) :: due })⟩
     let d := s.dev
     let earlier := fun (l : List FebFrame) => ∀ y ∈ l, cycleOf y.at_ < cycleOf d.tick
     (d.eng e).febDue = (k, f) :: due ∧ (d.feb k).queue.length < 16 ∧ d.on .FEB_CTRL_EN k = true ∧ earlier (d.feb k).queue) ∧
    (let e : EngId := 17
     let h : FebFrame := ⟨.host, 5, 0⟩
     let k : Nat := 3
     let f : Nat := 9
     let due : List (Nat × Nat) := []
     let s : State := ⟨[], [], on |>.st .FEB_CTRL_EN 3 1 |>.modEng 17 (fun z => { z with febDue := (k, f) :: due }) |>.setFeb 3
         { queue := [h] }⟩
     let d := s.dev
     (d.eng e).febDue = (k, f) :: due ∧ d.on .FEB_CTRL_EN k = true ∧ (d.feb k).queue = [h] ∧ (d.feb k).busy = false ∧ h.src
       = .host ∧ cycleOf h.at_ = cycleOf d.tick) := by
  refine ⟨?_, ?_, ?_, ?_, ?_, ?_, ?_, ?_, ?_, ?_, ?_, ?_, ?_⟩
  · dsimp only; decide +kernel
  · dsimp only; decide +kernel
  · dsimp only; decide +kernel
  · dsimp only; decide +kernel
  · dsimp only; decide +kernel
  · dsimp only; decide +kernel
  · dsimp only; decide +kernel
  · dsimp only; decide +kernel
  · dsimp only; decide +kernel
  · dsimp only; decide +kernel
  · dsimp only; decide +kernel
  · dsimp only; decide +kernel
  · dsimp only; decide +kernel

/-- What each clause of `PinEvents` supposes is met. -/
theorem witness_PinEvents :
    (let c : ChId := 70
     let s : State := ⟨[], [], on |>.modChan c (fun z => { z with dly := [] })⟩
     let d := s.dev
     let x := d.chan c
     x.dly = []) ∧
    (let c : ChId := 70
     let p : PEdge := ⟨900, 0, 0, 0, 1, 0, .drv true, none⟩
     let rest : List PEdge := []
     let v : Bool := true
     let s : State := ⟨[], [], on |>.modChan c (fun x => { x with pend := p :: rest })⟩
     let d := s.dev
     let x := d.chan c
     x.pend = p :: rest ∧ p.act = .drv v ∧ x.nearDrv = [] ∧ (d.eng p.eng).ending = none ∧ (d.eng p.eng).queue = [] ∧ ((∀ q ∈
       rest, p.t + 800 ≤ q.t))) ∧
    (let c : ChId := 70
     let p : PEdge := ⟨900, 2, 0, 0, 1, 0, .den true, none⟩
     let rest : List PEdge := []
     let v : Bool := true
     let s : State := ⟨[], [], on |>.modChan c (fun x => { x with pend := p :: rest })⟩
     let d := s.dev
     let x := d.chan c
     x.pend = p :: rest ∧ p.act = .den v ∧ x.nearDen = [] ∧ (d.eng p.eng).ending = none ∧ (d.eng p.eng).queue = [] ∧ ((∀ q ∈
       rest, p.t + 800 ≤ q.t))) ∧
    (let c : ChId := 70
     let p : PEdge := ⟨900, 0, 0, 0, 1, 0, .drv true, none⟩
     let q : PEdge := ⟨1000, 1, 0, 0, 2, 0, .drv false, none⟩
     let rest : List PEdge := []
     let v : Bool := true
     let w : Bool := false
     let s : State := ⟨[], [], on |>.modChan c (fun x => { x with pend := p :: q :: rest })⟩
     let d := s.dev
     let x := d.chan c
     x.pend = p :: q :: rest ∧ p.act = .drv v ∧ q.act = .drv w ∧ (d.eng p.eng).ending = none ∧ (d.eng p.eng).queue = [] ∧
       p.vcnt < q.vcnt ∧ genOf p.gen ≠ genOf q.gen ∧ p.t ≤ q.t ∧ q.t < p.t + 800) ∧
    (let c : ChId := 70
     let z : Strobe := ⟨17, 5, 9, 1, false, false, 400, 400, 0, true, false, none, some (3, true, false), none, none⟩
     let r : OpenRow := ⟨9, 0, 0, false, 0, 2, 0, 0, .fixed 4000, [], []⟩
     let s : State := ⟨[], [], on |>.modChan c (fun x => { x with strobes := [z] }) |>.modEng 17 (fun z =>
         { z with unres := [r] }) |>.st .ENG_STAT_STATE 17 2⟩
     let d := s.dev
     let x := d.chan c
     x.strobes = [z] ∧ x.dly = [] ∧ z.code ≠ 9 ∧ z.code ≠ 13 ∧ z.closes = z.opened ∧ (d.eng z.eng).ending = none ∧ (d.eng
       z.eng).unres = [r] ∧ r.vcnt = z.vcnt ∧ r.waiting = 2 ∧ z.pin < 64) ∧
    (let e : EngId := 17
     let r : Row := ⟨9, 0, 7, 0, 0, true, .fixed 4000, [], [], []⟩
     let rest : List Row := []
     let n : Rat := 4000
     let o : OpenRow := ⟨8, 0, 0, false, 0, 2, 0, 0, .fixed 4000, [], []⟩
     let s : State := ⟨[], [], on |>.st .ENG_STAT_STATE 17 2 |>.setEng e { queue := r :: rest, next := some n, unres := [o] }
         |>.st .PIN_TCTRL_VIOL_ACT 68 0 |>.st .PIN_TCTRL_VIOL_ACT 69 0 |>.st .PIN_TCTRL_VIOL_ACT 70 0 |>.st .PIN_TCTRL_VIOL_ACT 71
         0⟩
     let d := s.dev
     (d.eng e).queue = r :: rest ∧ (d.eng e).next = some n ∧ d.runs e = true ∧ (d.eng e).hemDone = false ∧ (d.eng e).act =
       none ∧ (d.eng e).unres = [o] ∧ o.waiting ≠ 0 ∧ (d.readBytes (memWrite [] (r.slot e) r.bytes) 0x01 (r.slot e) 32).2.1
       = false ∧ ((∀ k ∈ d.pins e, d.on .PIN_TCTRL_VIOL_ACT k = false))) ∧
    (let c : ChId := 70
     let s : State := ⟨[], [], on |>.setDom (11 + c / 32) 0 |>.modChan c (fun z => { z with shots := [] })⟩
     let d := s.dev
     let x := d.chan c
     d.domOn (11 + c / 32) = true ∧ x.shots = []) ∧
    (let c : ChId := 70
     let v : Nat := 900
     let s : State := ⟨[], [], on |>.modChan c (fun x => { x with shots := [(0, v)] })⟩
     let d := s.dev
     let x := d.chan c
     d.domOn (11 + c / 32) = true ∧ x.shots = [(cycleOf d.tick, v)]) := by
  refine ⟨?_, ?_, ?_, ?_, ?_, ?_, ?_, ?_⟩
  · dsimp only; decide +kernel
  · dsimp only; decide +kernel
  · dsimp only; decide +kernel
  · dsimp only; decide +kernel
  · dsimp only; decide +kernel
  · dsimp only; decide +kernel
  · dsimp only; decide +kernel
  · dsimp only; decide +kernel

/-- What each clause of `BurstStart` supposes is met. -/
theorem witness_BurstStart :
    (let e : EngId := 17
     let s : State := ⟨[], [], on |>.setDom (3 + e / 16) 0 |>.st .ENG_TIE_TIED e 0 |>.modEng e (fun z =>
         { z with tieStart := none }) |>.st .HOST_READY_TIMING 0 1 |>.st .ENG_BOB_STAT_READY 17 1 |>.st .ENG_STR_CTRL_QUADS 17 1⟩
     let d := s.dev
     let up := d.domOn (3 + e / 16) = true
     up ∧ d.tied e = false ∧ d.startIgnored e = false ∧ (d.eng e).tieStart = none ∧ d.refusal [e] = none) ∧
    (let e : EngId := 17
     let r : Nat := 0x20
     let s : State := ⟨[], [], on |>.setDom (3 + e / 16) 0 |>.st .ENG_TIE_TIED e 0 |>.modEng e (fun z =>
         { z with tieStart := none }) |>.st .HOST_READY_TIMING 0 1 |>.st .ENG_STR_CTRL_QUADS 17 1⟩
     let d := s.dev
     let up := d.domOn (3 + e / 16) = true
     up ∧ d.tied e = false ∧ d.startIgnored e = false ∧ (d.eng e).tieStart = none ∧ d.refusal [e] = some r) ∧
    (let e : EngId := 17
     let s : State := ⟨[], [], on |>.setDom (3 + e / 16) 0 |>.st .ENG_STAT_STATE 17 2⟩
     let d := s.dev
     let up := d.domOn (3 + e / 16) = true
     up ∧ d.startIgnored e = true) ∧
    (let e : EngId := 17
     let r : Nat := 0x20
     let t0 : Nat := 5000
     let s : State := ⟨[], [], on |>.modEng e (fun z => { z with tieStart := some t0 }) |>.setDom (3 + e / 16) 0 |>.st
         .HOST_READY_TIMING 0 1 |>.st .ENG_STR_CTRL_QUADS 17 1⟩
     let d := s.dev
     let up := d.domOn (3 + e / 16) = true
     (d.eng e).tieStart = some t0 ∧ (List.range 128).filter (fun x => (d.eng x).tieStart == some t0 && d.grp x == d.grp e) =
       [e.val] ∧ d.startIgnored e = false ∧ d.refusal [e] = some r ∧ up) ∧
    (let e : EngId := 17
     let t0 : Nat := 5000
     let s : State := ⟨[], [], on |>.modEng e (fun z => { z with tieStart := some t0 }) |>.st .HOST_READY_TIMING 0 1 |>.st
         .ENG_BOB_STAT_READY 17 1 |>.st .ENG_STR_CTRL_QUADS 17 1⟩
     let d := s.dev
     (d.eng e).tieStart = some t0 ∧ (List.range 128).filter (fun x => (d.eng x).tieStart == some t0 && d.grp x == d.grp e) =
       [e.val] ∧ d.startIgnored e = false ∧ d.refusal [e] = none) := by
  refine ⟨?_, ?_, ?_, ?_, ?_⟩
  · dsimp only; decide +kernel
  · dsimp only; decide +kernel
  · dsimp only; decide +kernel
  · dsimp only; decide +kernel
  · dsimp only; decide +kernel

/-- What each clause of `BurstEnd` supposes is met. -/
theorem witness_BurstEnd :
    (let e : EngId := 17
     let te : TieEnd := ⟨0, 0, 1, 5⟩
     let rest : List TieEnd := []
     let s : State := ⟨[], [], on |>.modEng e (fun z => { z with tieEnd := te :: rest }) |>.modEng e (fun z =>
         { z with ending := none }) |>.modEng e (fun z => { z with recov := none }) |>.st .ENG_STAT_STATE e 2⟩
     let d := s.dev
     let x := d.eng e
     x.tieEnd = te :: rest ∧ x.ending = none ∧ x.recov = none ∧ d.runs e = true) ∧
    (let e : EngId := 17
     let t0 : Nat := 0
     let n : Nat := 0
     let rest : List (Nat × Nat) := []
     let s : State := ⟨[], [], on |>.modEng e (fun z => { z with tieStall := (t0, n) :: rest })⟩
     let d := s.dev
     let x := d.eng e
     x.tieStall = (t0, n) :: rest) ∧
    (let e : EngId := 17
     let t0 : Nat := 0
     let o : Ending := ⟨0, 0, 0, true⟩
     let s : State := ⟨[], [], on |>.modEng e (fun z => { z with hemDone := false }) |>.st .ENG_STAT_STATE e 2 |>.modEng e (fun z
         => { z with ending := some o })⟩
     let d := s.dev
     let x := d.eng e
     d.hemInstant e = some t0 ∧ x.hemDone = false ∧ d.runs e = true ∧ x.ending = some o ∧ o.reason = 0 ∧ ((∀ c ∈ d.pins e,
       (d.chan c).strobes = []))) ∧
    (let e : EngId := 17
     let s : State := ⟨[], [], on |>.st .ENG_STAT_STATE e 2 |>.modEng e (fun z => { z with hemDone := true }) |>.modEng e (fun z
         => { z with unres := [] }) |>.modEng e (fun z => { z with tieEnd := [] }) |>.modEng e (fun z => { z with rst := false })⟩
     let d := s.dev
     let x := d.eng e
     d.runs e = true ∧ x.hemDone = true ∧ d.members e = [e.val] ∧ x.unres = [] ∧ x.tieEnd = [] ∧ x.rst = false) := by
  refine ⟨?_, ?_, ?_, ?_⟩
  · dsimp only; decide +kernel
  · dsimp only; decide +kernel
  · dsimp only; decide +kernel
  · dsimp only; decide +kernel

/-- What each clause of `ControlStores` supposes is met. -/
theorem witness_ControlStores :
    (let e : EngId := 17
     let s : State := ⟨[], [], on |>.setDom (3 + e / 16) 0 |>.st .ENG_STAT_STATE e 0 |>.modEng e (fun z =>
         { z with recov := none }) |> fun d => { d with taken := [] }⟩
     let d := s.dev
     let x := d.eng e
     let up := d.domOn (3 + e / 16) = true
     up ∧ d.estate e = 0 ∧ x.recov = none ∧ d.taken = []) ∧
    (let e : EngId := 17
     let s : State := ⟨[], [], on |>.setDom (3 + e / 16) 0 |>.st .ENG_TIE_TIED e 0 |>.st .ENG_STAT_STATE e 2 |>.modEng e (fun z
         => { z with recov := none }) |>.modEng e (fun z => { z with ending := none })⟩
     let d := s.dev
     let x := d.eng e
     let up := d.domOn (3 + e / 16) = true
     up ∧ d.tied e = false ∧ d.estate e = 2 ∧ x.recov = none ∧ x.ending = none) ∧
    (let e : EngId := 17
     let key : BitVec 8 := 0
     let s : State := ⟨[], [], on |>.setDom (3 + e / 16) 0⟩
     let d := s.dev
     let up := d.domOn (3 + e / 16) = true
     up ∧ key ≠ 0xA5) ∧
    (let e : EngId := 17
     let r : Recov := ⟨5, 1, [], false, 0, false⟩
     let s : State := ⟨[], [], on |>.modEng e (fun z => { z with recov := some r })⟩
     let d := s.dev
     let x := d.eng e
     x.recov = some r ∧ r.done = false) ∧
    (let e : EngId := 17
     let m : McRec := ⟨0, 5, 1, 3, 1⟩
     let r : Recov := ⟨5, 1, [m], true, 7, false⟩
     let s : State := ⟨[], [], on |>.modEng e (fun z => { z with recov := some r }) |>.st .ENG_MC_STAT_RECOV 17 1⟩
     let d := s.dev
     let x := d.eng e
     x.recov = some r ∧ r.done = true ∧ r.recs = [m] ∧ ((∀ u, d.rowDeadline e = some u → x.free ≤ u))) ∧
    (let e : EngId := 17
     let s : State := ⟨[], [], on |>.st .ENG_STAT_STATE 17 2 |>.modEng 17 (fun z => { z with upc := 70 }) |>.st
         .ENG_MC_STAT_LISTCNT 17 1 |>.sti .ENG_MC_LIST_ADDR 17 0 70 |>.sti .ENG_MC_LIST_KIND 17 0 1⟩
     let d := s.dev
     let x := d.eng e
     x.recov = none ∧ d.listKind e (0, x.upc) = some 1 ∧ d.runs e = true ∧ x.ending = none ∧ d.tied e = false) ∧
    (let e : EngId := 17
     let b : Nat := 7
     let s : State := ⟨[], [], on |>.st .ENG_STAT_STATE 17 2 |>.modEng 17 (fun z =>
         { z with upc := 70, storeErr := [(0, 70, 7)] })⟩
     let d := s.dev
     let x := d.eng e
     x.recov = none ∧ x.careful = false ∧ d.rg .ENG_MC_STAT_LISTCNT e = 0 ∧ parityFails 0 (x.wrongBits 0 x.upc) = true ∧
       judge 0 x.upc (x.wrongBits 0 x.upc) = .ce b ∧ x.wrongBits 1 (uNano (Config.rom x.upc)) = []) ∧
    (let e : EngId := 17
     let s : State := ⟨[], [], on |>.setDom (3 + e / 16) 0 |>.modEng 17 (fun z => { z with scan := 6143 })⟩
     let d := s.dev
     let x := d.eng e
     let up := d.domOn (3 + e / 16) = true
     let n := x.scan % 6144
     let at_ := if n < 4096 then (0, n) else (1, n - 4096)
     let found := judge at_.1 at_.2 (x.wrongBits at_.1 at_.2)
     up ∧ found = .clean) ∧
    (let e : EngId := 17
     let b : Nat := 7
     let s : State := ⟨[], [], on |>.setDom (3 + e / 16) 0 |>.modEng 17 (fun z => { z with scan := 5, storeErr := [(0, 5, 7)] })⟩
     let d := s.dev
     let x := d.eng e
     let up := d.domOn (3 + e / 16) = true
     let n := x.scan % 6144
     let at_ := if n < 4096 then (0, n) else (1, n - 4096)
     let found := judge at_.1 at_.2 (x.wrongBits at_.1 at_.2)
     up ∧ found = .ce b ∧ d.listAt e at_.1 at_.2 = none ∧ d.rg .ENG_MC_STAT_LISTCNT e < 32) ∧
    (let e : EngId := 17
     let s : State := ⟨[], [], on |>.setDom (3 + e / 16) 0⟩
     let d := s.dev
     let up := d.domOn (3 + e / 16) = true
     up) ∧
    (let e : EngId := 17
     let store : Nat := 1
     let a : Nat := 9
     let bits : List Nat := [3, 4]
     let s : State := ⟨[], [], on |>.modEng 17 (fun z => { z with storeErr := [(1, 9, 3)] })⟩
     let d := s.dev
     let x := d.eng e
     x.storeErr.Nodup ∧ bits.Nodup ∧ ((store = 0 ∧ a < 4096 ∨ store = 1 ∧ a < 2048)) ∧ ((∀ b ∈ bits, b < (if store = 0 then
       45 else 257)))) := by
  refine ⟨?_, ?_, ?_, ?_, ?_, ?_, ?_, ?_, ?_, ?_, ?_⟩
  · dsimp only; decide +kernel
  · dsimp only; decide +kernel
  · dsimp only; decide +kernel
  · dsimp only; decide +kernel
  · dsimp only; decide +kernel
  · dsimp only; decide +kernel
  · dsimp only; decide +kernel
  · dsimp only; decide +kernel
  · dsimp only; decide +kernel
  · dsimp only; decide +kernel
  · dsimp only; decide +kernel

/-- What each clause of `DeadlineAndBeat` supposes is met. -/
theorem witness_DeadlineAndBeat :
    (let e : EngId := 17
     let due : Nat := 68000
     let s : State := ⟨[], [], on |>.st .ENG_STAT_STATE 17 2 |>.modEng 17 (fun z => { z with issued := 5, next := some 100000 })⟩
     let d := s.dev
     let x := d.eng e
     d.rowDeadline e = some due ∧ x.act = none ∧ x.ending = none ∧ x.recov = none ∧ x.stallTo ≤ due ∧ d.tied e = false) ∧
    (let e : EngId := 17
     let due : Nat := 68000
     let r : Recov := ⟨5, 1, [], false, 0, false⟩
     let s : State := ⟨[], [], on |>.st .ENG_STAT_STATE 17 2 |>.st .ENG_STR_CTRL_MODE 17 1 |>.modEng 17 (fun z =>
         { z with issued := 5, next := some 100000, recov := some r })⟩
     let d := s.dev
     let x := d.eng e
     d.rowDeadline e = some due ∧ x.act = none ∧ x.ending = none ∧ x.recov = some r ∧ r.done = false ∧ d.lineWanted e = none
       ∧ d.tied e = false) ∧
    (let e : EngId := 17
     let s : State := ⟨[], [], on⟩
     let d := s.dev
     d.rowDeadline e = none) ∧
    (let e : EngId := 17
     let g : GrpId := 6
     let s : State := ⟨[], [], on |>.st .ENG_STAT_STATE 17 2 |>.st .ENG_TIE_TIED 17 1 |>.st .ENG_TIE_GROUP 17 6⟩
     let d := s.dev
     let members := (List.range 128).filter (fun y => d.tied y && d.grp y == g.val && d.runs y)
     members = [e.val] ∧ d.far.any (fun f => f.grp == g.val) = false) ∧
    (let g : GrpId := 6
     let y : Nat := 17
     let z : Nat := 18
     let s : State := ⟨[], [], on |>.modEng y (fun z => { z with ending := none }) |>.modEng z (fun z =>
         { z with ending := none }) |>.modEng y (fun z => { z with beatPc := [] }) |>.modEng z (fun z => { z with beatPc := [] })
         |>.st .ENG_STAT_STATE 17 2 |>.st .ENG_STAT_STATE 18 2 |>.st .ENG_TIE_TIED 17 1 |>.st .ENG_TIE_GROUP 17 6 |>.st
         .ENG_TIE_SCOPE 17 0 |>.st .ENG_TIE_TIED 18 1 |>.st .ENG_TIE_GROUP 18 6 |>.st .ENG_TIE_SCOPE 18 0 |>.st .ENG_PC_ADDR 18 9⟩
     let d := s.dev
     let members := (List.range 128).filter (fun y => d.tied y && d.grp y == g.val && d.runs y)
     members = [y, z] ∧ d.tieLat y = 4 ∧ (d.eng y).ending = none ∧ (d.eng z).ending = none ∧ (d.eng y).beatPc = [] ∧ (d.eng
       z).beatPc = [] ∧ d.rg .ENG_PC_ADDR y ≠ d.rg .ENG_PC_ADDR z) := by
  refine ⟨?_, ?_, ?_, ?_, ?_⟩
  · dsimp only; decide +kernel
  · dsimp only; decide +kernel
  · dsimp only; decide +kernel
  · dsimp only; decide +kernel
  · dsimp only; decide +kernel

/-- What each clause of `Bobbins` supposes is met. -/
theorem witness_Bobbins :
    (let e : EngId := 17
     let s : State := ⟨[], [], on |>.setDom (3 + e / 16) 0⟩
     let d := s.dev
     let up := d.domOn (3 + e / 16) = true
     let idle := d.streamBusy e = false
     up ∧ idle) ∧
    (let e : EngId := 17
     let off : Nat := 0x20C
     let s : State := ⟨[], [], on |>.setDom (3 + e / 16) 0 |>.st .ENG_STAT_STATE 17 2⟩
     let d := s.dev
     let up := d.domOn (3 + e / 16) = true
     let idle := d.streamBusy e = false
     up ∧ ¬idle ∧ 0x200 ≤ off ∧ off < 0x210) ∧
    (let e : EngId := 17
     let ctrl : BitVec 32 := 0x05031104
     let s : State := ⟨[], [], on |>.setDom (3 + e / 16) 0 |>.st .ENG_STR_LEN_LEN 17 4096⟩
     let d := s.dev
     let up := d.domOn (3 + e / 16) = true
     let idle := d.streamBusy e = false
     let y := fun (k : Nat) => d.ctrlWrite e (setBits ctrl.toNat 8 2 k)
     up ∧ idle ∧ (y 1).loadBad e = false ∧ ¬(3 + e.val / 16) ∈ d.quies) ∧
    (let e : EngId := 17
     let ctrl : BitVec 32 := 0x05031F07
     let s : State := ⟨[], [], on |>.setDom (3 + e / 16) 0⟩
     let d := s.dev
     let up := d.domOn (3 + e / 16) = true
     let idle := d.streamBusy e = false
     let y := fun (k : Nat) => d.ctrlWrite e (setBits ctrl.toNat 8 2 k)
     up ∧ idle ∧ (y 1).loadBad e = true) ∧
    (let e : EngId := 17
     let s : State := ⟨[], [], on |>.setDom (3 + e / 16) 0 |>.st .ENG_BOB_STAT_LOADING 17 1⟩
     let d := s.dev
     let up := d.domOn (3 + e / 16) = true
     let idle := d.streamBusy e = false
     up ∧ ¬idle) ∧
    (let e : EngId := 17
     let ctrl : BitVec 32 := 0x05031206
     let s : State := ⟨[], [], on |>.setDom (3 + e / 16) 0 |>.st .ENG_STR_LEN_LEN 17 4096⟩
     let d := s.dev
     let up := d.domOn (3 + e / 16) = true
     let idle := d.streamBusy e = false
     let y := fun (k : Nat) => d.ctrlWrite e (setBits ctrl.toNat 8 2 k)
     up ∧ idle ∧ (y 2).loadBad e = false ∧ ctrl.toNat / 2 % 2 = 1) ∧
    (let e : EngId := 17
     let ctrl : BitVec 32 := 0x05031204
     let s : State := ⟨[], [], on |>.setDom (3 + e / 16) 0⟩
     let d := s.dev
     let up := d.domOn (3 + e / 16) = true
     let idle := d.streamBusy e = false
     up ∧ idle ∧ ctrl.toNat / 2 % 2 = 0) ∧
    (let e : EngId := 17
     let off : Nat := 65520
     let bytes : List Byte := List.replicate 16 7
     let s : State := ⟨[], [], on |>.setDom (3 + e / 16) 0 |> fun d => { d with errs := [] } |>.st .ENG_STR_CTRL_MODE 17 1⟩
     let d := s.dev
     let up := d.domOn (3 + e / 16) = true
     let idle := d.streamBusy e = false
     s.wf ∧ up ∧ idle ∧ d.resident e = true ∧ d.errs = [] ∧ off + bytes.length ≤ 65536) ∧
    (let e : EngId := 17
     let s : State := ⟨[], [], on |>.setDom (3 + e / 16) 0⟩
     let d := s.dev
     let up := d.domOn (3 + e / 16) = true
     up ∧ d.resident e = false) ∧
    (let e : EngId := 17
     let c : CluId := 1
     let s : State := ⟨[], [], on |>.setDom (3 + c) 0 |>.st .ENG_STR_LEN_LEN 17 4096 |>.st .ENG_BOB_STAT_LOADING 17 1⟩
     let d := s.dev
     d.domOn (3 + c) = true ∧ d.refillPick c = some e.val ∧ d.windowLarge e = false) ∧
    (let e : EngId := 17
     let n : Nat := 3
     let rest : List Nat := []
     let s : State := ⟨[], memWrite [] (dramBase + 3 * 256 + 5) [1, 2, 3], on |>.setDom (3 + e / 16) 0 |>.modEng e (fun z =>
         { z with reqs := n :: rest }) |>.modEng e (fun z => { z with miss := none }) |> fun d => { d with errs := [] } |> fun d =>
         { d with poison := [] } |>.st .ENG_BOB_STAT_LOADING e 0 |>.st .DRC_STAT_STATE 0 3 |>.st .HOST_READY_THIMBLE 0 1 |>.st
         .DRC_CFG_POP 0 1 |>.st .DRC_CFG_DENS 0 1 |>.st .ENG_STR_LEN_LEN 17 4096⟩
     let d := s.dev
     let x := d.eng e
     let up := d.domOn (3 + e / 16) = true
     let inTime := ∀ u, d.rowDeadline e = some u → d.tick ≤ u
     s.wf ∧ up ∧ inTime ∧ x.reqs = n :: rest ∧ x.miss = none ∧ d.errs = [] ∧ d.poison = [] ∧ d.dramPath (d.rg
       .ENG_STR_BASE_LINE e + n) = .served ∧ d.unzeroed (d.rg .ENG_STR_BASE_LINE e + n) = false ∧ d.on .ENG_BOB_STAT_LOADING
       e = false) ∧
    (let e : EngId := 17
     let n : Nat := 15
     let s : State := ⟨[], [], on |>.setDom (3 + e / 16) 0 |>.modEng e (fun z => { z with reqs := [n] }) |>.modEng e (fun z =>
         { z with miss := none }) |>.st .ENG_BOB_STAT_LOADING e 1 |>.st .ENG_STR_LEN_LEN 17 4096 |>.modEng 17 (fun z =>
         { z with fetch := 16 })⟩
     let d := s.dev
     let x := d.eng e
     let up := d.domOn (3 + e / 16) = true
     let inTime := ∀ u, d.rowDeadline e = some u → d.tick ≤ u
     up ∧ inTime ∧ x.reqs = [n] ∧ x.miss = none ∧ d.dramPath (d.rg .ENG_STR_BASE_LINE e + n) ≠ .waits ∧ d.on
       .ENG_BOB_STAT_LOADING e = true ∧ d.windowLarge e = false ∧ d.rg .ENG_STR_LEN_LEN e ≤ x.fetch * 256) := by
  refine ⟨?_, ?_, ?_, ?_, ?_, ?_, ?_, ?_, ?_, ?_, ?_, ?_⟩
  · dsimp only; decide +kernel
  · dsimp only; decide +kernel
  · dsimp only; decide +kernel
  · dsimp only; decide +kernel
  · dsimp only; decide +kernel
  · dsimp only; decide +kernel
  · dsimp only; decide +kernel
  · dsimp only; decide +kernel
  · dsimp only; decide +kernel
  · dsimp only; decide +kernel
  · dsimp only; decide +kernel
  · dsimp only; decide +kernel

/-- What each clause of `FailSpill` supposes is met. -/
theorem witness_FailSpill :
    (let e : EngId := 17
     let s : State := ⟨[], [], on |>.st .DRC_STAT_STATE 0 3 |>.st .HOST_READY_THIMBLE 0 1 |>.st .DRC_CFG_POP 0 1 |>.st
         .DRC_CFG_DENS 0 1 |>.st .ENG_FLOG_CTRL_SPILL 17 1 |>.st .ENG_FLOG_SIZE_LINES 17 16 |>.st .ENG_FLOG_BASE_LINE 17 64
         |>.modEng 17 (fun z => { z with fbHead := 2047, fbCnt := 17, recs := [(2047, 0xABCD), (3, 2 ^ 127)] })⟩
     let d := s.dev
     let x := d.eng e
     let n := d.rg .ENG_FLOG_SIZE_LINES e
     let p := d.rg .ENG_FLOG_WPTR_LINE e
     let line := d.rg .ENG_FLOG_BASE_LINE e + p
     s.wf ∧ d.spillTurn (e / 16) = some e.val ∧ n < 2 ^ 32 ∧ d.writePath line = .served ∧ d.awgGuard line = none ∧
       d.unzeroed line = false ∧ d.errs = [] ∧ d.poison = [] ∧ x.lost = none) ∧
    (let e : EngId := 17
     let s : State := ⟨[], [], on⟩
     let d := s.dev
     d.spillTurn (e / 16) ≠ some e.val) ∧
    (let e : EngId := 17
     let s : State := ⟨[], [], on |>.st .ENG_FLOG_CTRL_SPILL e 0⟩
     let d := s.dev
     let x := d.eng e
     let n := d.rg .ENG_FLOG_SIZE_LINES e
     (d.on .ENG_FLOG_CTRL_SPILL e = false ∨ x.fbCnt < 16 ∨ n < 16 ∨ d.ringFull e = true)) := by
  refine ⟨?_, ?_, ?_⟩
  · dsimp only; decide +kernel
  · dsimp only; decide +kernel
  · dsimp only; decide +kernel

/-- What each clause of `Followers` supposes is met. -/
theorem witness_Followers :
    (let f : FtId := 3
     let n : Nat := 10240000
     let s : State := ⟨[], [], on |>.st .FT_CTRL_EN f 1 |>.st .FT_STAT_LOCKED f 0 |>.st .FT_NOM_NOM_KHZ 3 100000 |>.modChan 0
         (fun x => { x with mode := .hem })⟩
     let d := s.dev
     let ready := d.on .FT_CTRL_EN f = true ∧ d.on .FT_STAT_LOCKED f = false ∧ d.ftRange f = false
     ready ∧ d.ftNear f n = true ∧ d.ftSeen f = true) ∧
    (let f : FtId := 3
     let n : Nat := 11000000
     let s : State := ⟨[], [], on |>.st .FT_CTRL_EN f 1 |>.st .FT_STAT_LOCKED f 0 |>.st .FT_NOM_NOM_KHZ 3 100000⟩
     let d := s.dev
     let ready := d.on .FT_CTRL_EN f = true ∧ d.on .FT_STAT_LOCKED f = false ∧ d.ftRange f = false
     ready ∧ ((d.ftNear f n = false ∨ d.ftSeen f = false))) ∧
    (let f : FtId := 3
     let ph : Nat := 5
     let s : State := ⟨[], [], on |>.st .FT_CTRL_EN f 1 |>.st .FT_STAT_LOCKED f 0 |>.setFt f { closed := true } |>.st
         .FT_NOM_NOM_KHZ 3 100000 |>.st .FT_PERIOD_PERIOD 3 10240000⟩
     let d := s.dev
     let ready := d.on .FT_CTRL_EN f = true ∧ d.on .FT_STAT_LOCKED f = false ∧ d.ftRange f = false
     ready ∧ (d.ft f).closed = true ∧ ph * 64 * 256 < d.rg .FT_PERIOD_PERIOD f) ∧
    (let f : FtId := 3
     let ph : Nat := 700
     let s : State := ⟨[], [], on |>.st .FT_PERIOD_PERIOD 3 10240000⟩
     let d := s.dev
     d.rg .FT_PERIOD_PERIOD f ≤ ph * 64 * 256) ∧
    (let f : FtId := 3
     let n : Nat := 0
     let ph : Nat := 0
     let cause : FtCause := .noEdge
     let s : State := ⟨[], [], on |>.st .FT_CTRL_EN f 1 |>.st .FT_STAT_LOCKED f 1 |>.st .FT_PERIOD_PERIOD 3 10240000⟩
     let d := s.dev
     let running := d.on .FT_CTRL_EN f = true ∧ d.on .FT_STAT_LOCKED f = true
     running ∧ d.ftGone f n ph cause = true) ∧
    (let f : FtId := 3
     let n : Nat := 0
     let ph : Nat := 0
     let cause : FtCause := .noEdge
     let e : EngId := 17
     let s : State := ⟨[], [], on |>.st .FT_CTRL_EN f 1 |>.st .FT_STAT_LOCKED f 1 |>.st .ENG_STAT_STATE e 2 |>.modEng e (fun z =>
         { z with tb := some (some f.val) }) |>.modEng e (fun z => { z with ending := none }) |>.st .FT_PERIOD_PERIOD 3 10240000
         |>.modEng 17 (fun z => { z with tb := some (some 3) })⟩
     let d := s.dev
     let running := d.on .FT_CTRL_EN f = true ∧ d.on .FT_STAT_LOCKED f = true
     running ∧ d.ftGone f n ph cause = true ∧ d.runs e = true ∧ (d.eng e).tb = some (some f.val) ∧ (d.eng e).ending = none) ∧
    (let f : FtId := 3
     let s : State := ⟨[], [], on |>.st .FT_STAT_LOCKED f 0⟩
     let d := s.dev
     d.on .FT_STAT_LOCKED f = false) ∧
    (let f : FtId := 3
     let n : Nat := 10240000
     let s : State := ⟨[], [], on |>.st .FT_NOM_NOM_KHZ 3 100000⟩
     let d := s.dev
     d.ftNear f n = true) ∧
    (let f : FtId := 3
     let ph : Nat := 5
     let s : State := ⟨[], [], on |>.st .FT_PERIOD_PERIOD 3 10240000⟩
     let d := s.dev
     ph * 8 * 256 ≤ d.rg .FT_PERIOD_PERIOD f) := by
  refine ⟨?_, ?_, ?_, ?_, ?_, ?_, ?_, ?_, ?_⟩
  · dsimp only; decide +kernel
  · dsimp only; decide +kernel
  · dsimp only; decide +kernel
  · dsimp only; decide +kernel
  · dsimp only; decide +kernel
  · dsimp only; decide +kernel
  · dsimp only; decide +kernel
  · dsimp only; decide +kernel
  · dsimp only; decide +kernel

/-- What each clause of `SewApplication` supposes is met. -/
theorem witness_SewApplication :
    (let g : SgId := 2
     let e : EngId := 17
     let f : Field := .PIN_QOWN_OWNER
     let v : Nat := 5
     let s : State := ⟨[], [], on |> fun d => { d with taken := [⟨g.val, ⟨.PIN_QOWN_OWNER, e.val, 0⟩, v, false⟩] } |>.st
         .SEW_STATUS_STATE g 2⟩
     let d := s.dev
     let one := fun (f : Field) => d.taken = [⟨g, ⟨f, e, 0⟩, v, false⟩] ∧ d.rg .SEW_STATUS_STATE g = 2 ∧ d.modeChg = none
     f ∈ qownFields ∧ one f ∧ (d.quadOwners e).any d.groupRuns = false) ∧
    (let g : SgId := 2
     let e : EngId := 17
     let f : Field := .PIN_QOWN_UNOWNED
     let v : Nat := 1
     let s : State := ⟨[], [], on |> fun d => { d with taken := [⟨g.val, ⟨.PIN_QOWN_UNOWNED, e.val, 0⟩, v, false⟩] } |>.st
         .SEW_STATUS_STATE g 2 |>.st .ENG_STAT_STATE e 2⟩
     let d := s.dev
     let one := fun (f : Field) => d.taken = [⟨g, ⟨f, e, 0⟩, v, false⟩] ∧ d.rg .SEW_STATUS_STATE g = 2 ∧ d.modeChg = none
     f ∈ qownFields ∧ one f ∧ (d.quadOwners e).any d.groupRuns = true) ∧
    (let g : SgId := 2
     let e : EngId := 17
     let f : Field := .ENG_TIE_TIED
     let v : Nat := 1
     let s : State := ⟨[], [], on |> fun d => { d with taken := [⟨g.val, ⟨.ENG_TIE_TIED, e.val, 0⟩, v, false⟩] } |>.st
         .SEW_STATUS_STATE g 2⟩
     let d := s.dev
     let one := fun (f : Field) => d.taken = [⟨g, ⟨f, e, 0⟩, v, false⟩] ∧ d.rg .SEW_STATUS_STATE g = 2 ∧ d.modeChg = none
     let free := d.groupRuns e = false
     f ∈ tieFields ∧ one f ∧ free ∧ d.nextGroupRuns e = false) ∧
    (let g : SgId := 2
     let e : EngId := 17
     let f : Field := .ENG_TIE_GROUP
     let v : Nat := 9
     let s : State := ⟨[], [], on |> fun d => { d with taken := [⟨g.val, ⟨.ENG_TIE_GROUP, e.val, 0⟩, v, false⟩] } |>.st
         .SEW_STATUS_STATE g 2 |>.st .ENG_STAT_STATE e 2⟩
     let d := s.dev
     let one := fun (f : Field) => d.taken = [⟨g, ⟨f, e, 0⟩, v, false⟩] ∧ d.rg .SEW_STATUS_STATE g = 2 ∧ d.modeChg = none
     let free := d.groupRuns e = false
     f ∈ tieFields ∧ one f ∧ ((¬free ∨ d.nextGroupRuns e = true))) ∧
    (let g : SgId := 2
     let e : EngId := 17
     let v : Nat := 77
     let s : State := ⟨[], [], on |> fun d => { d with taken := [⟨g.val, ⟨.ENG_CMP_MASK_MASK, e.val, 0⟩, v, false⟩] } |>.st
         .SEW_STATUS_STATE g 2⟩
     let d := s.dev
     let one := fun (f : Field) => d.taken = [⟨g, ⟨f, e, 0⟩, v, false⟩] ∧ d.rg .SEW_STATUS_STATE g = 2 ∧ d.modeChg = none
     let free := d.groupRuns e = false
     one .ENG_CMP_MASK_MASK ∧ free) ∧
    (let g : SgId := 2
     let e : EngId := 17
     let v : Nat := 77
     let s : State := ⟨[], [], on |> fun d => { d with taken := [⟨g.val, ⟨.ENG_CMP_MASK_MASK, e.val, 0⟩, v, false⟩] } |>.st
         .SEW_STATUS_STATE g 2 |>.st .ENG_STAT_STATE e 2⟩
     let d := s.dev
     let one := fun (f : Field) => d.taken = [⟨g, ⟨f, e, 0⟩, v, false⟩] ∧ d.rg .SEW_STATUS_STATE g = 2 ∧ d.modeChg = none
     let free := d.groupRuns e = false
     one .ENG_CMP_MASK_MASK ∧ ¬free) ∧
    (let g : SgId := 2
     let e : EngId := 17
     let f : Field := .ENG_ENTRY_ADDR
     let v : Nat := 77
     let s : State := ⟨[], [], on |> fun d => { d with taken := [⟨g.val, ⟨.ENG_ENTRY_ADDR, e.val, 0⟩, v, false⟩] } |>.st
         .SEW_STATUS_STATE g 2⟩
     let d := s.dev
     let one := fun (f : Field) => d.taken = [⟨g, ⟨f, e, 0⟩, v, false⟩] ∧ d.rg .SEW_STATUS_STATE g = 2 ∧ d.modeChg = none
     let free := d.groupRuns e = false
     f ∈ entryFields ∧ one f ∧ free) ∧
    (let g : SgId := 2
     let e : EngId := 17
     let f : Field := .ENG_ENTRY_LEAD
     let v : Nat := 77
     let s : State := ⟨[], [], on |> fun d => { d with taken := [⟨g.val, ⟨.ENG_ENTRY_LEAD, e.val, 0⟩, v, false⟩] } |>.st
         .SEW_STATUS_STATE g 2 |>.st .ENG_STAT_STATE e 2⟩
     let d := s.dev
     let one := fun (f : Field) => d.taken = [⟨g, ⟨f, e, 0⟩, v, false⟩] ∧ d.rg .SEW_STATUS_STATE g = 2 ∧ d.modeChg = none
     let free := d.groupRuns e = false
     f ∈ entryFields ∧ one f ∧ ¬free) ∧
    (let g : SgId := 2
     let e : EngId := 17
     let v : Nat := 1
     let s : State := ⟨[], [], on |> fun d => { d with taken := [⟨g.val, ⟨.ENG_SEWSTART_ARM, e.val, 0⟩, v, false⟩] } |>.st
         .SEW_STATUS_STATE g 2 |>.st .HOST_READY_TIMING 0 1 |>.st .ENG_BOB_STAT_READY 17 1 |>.st .ENG_STR_CTRL_QUADS 17 1⟩
     let d := s.dev
     let one := fun (f : Field) => d.taken = [⟨g, ⟨f, e, 0⟩, v, false⟩] ∧ d.rg .SEW_STATUS_STATE g = 2 ∧ d.modeChg = none
     let free := d.groupRuns e = false
     one .ENG_SEWSTART_ARM ∧ free ∧ v = 1 ∧ d.tied e = false ∧ d.startIgnored e = false ∧ (d.eng e).tieStart = none ∧
       d.refusal [e] = none) ∧
    (let g : SgId := 2
     let e : EngId := 17
     let v : Nat := 1
     let s : State := ⟨[], [], on |> fun d => { d with taken := [⟨g.val, ⟨.ENG_SEWSTART_ARM, e.val, 0⟩, v, false⟩] } |>.st
         .SEW_STATUS_STATE g 2 |>.st .ENG_STAT_STATE e 2⟩
     let d := s.dev
     let one := fun (f : Field) => d.taken = [⟨g, ⟨f, e, 0⟩, v, false⟩] ∧ d.rg .SEW_STATUS_STATE g = 2 ∧ d.modeChg = none
     let free := d.groupRuns e = false
     one .ENG_SEWSTART_ARM ∧ ¬free) ∧
    (let g : SgId := 2
     let e : EngId := 17
     let v : Nat := 3
     let s : State := ⟨[], [], on |> fun d => { d with taken := [] } |> fun d => { d with modeChg := some (g.val, v, [e.val]) }
         |>.st .SEW_STATUS_STATE g 2⟩
     let d := s.dev
     let free := d.groupRuns e = false
     d.taken = [] ∧ d.modeChg = some (g.val, v, [e.val]) ∧ free ∧ d.rg .SEW_STATUS_STATE g = 2) ∧
    (let g : SgId := 2
     let e : EngId := 17
     let v : Nat := 3
     let l : List Nat := [18]
     let s : State := ⟨[], [], on |> fun d => { d with taken := [] } |> fun d =>
         { d with modeChg := some (g.val, v, e.val :: l) }⟩
     let d := s.dev
     let free := d.groupRuns e = false
     d.taken = [] ∧ d.modeChg = some (g.val, v, e.val :: l) ∧ e.val ∉ l ∧ l ≠ [] ∧ free) := by
  refine ⟨?_, ?_, ?_, ?_, ?_, ?_, ?_, ?_, ?_, ?_, ?_, ?_⟩
  · dsimp only; decide +kernel
  · dsimp only; decide +kernel
  · dsimp only; decide +kernel
  · dsimp only; decide +kernel
  · dsimp only; decide +kernel
  · dsimp only; decide +kernel
  · dsimp only; decide +kernel
  · dsimp only; decide +kernel
  · dsimp only; decide +kernel
  · dsimp only; decide +kernel
  · dsimp only; decide +kernel
  · dsimp only; decide +kernel

/-- What each clause of `SewCommands` supposes is met. -/
theorem witness_SewCommands :
    (let s : State := ⟨[], [], on⟩
     let d := s.dev
     ((∀ x : SgId, d.sewBusy x = false))) ∧
    (let word : Fin 34 := 2
     let value : BitVec 32 := 0x20
     let i : Nat := 1
     let s : State := ⟨[], [], on |>.st .SEW_STATUS_STATE 2 1⟩
     let d := s.dev
     let k := gmapKey word
     let v := value.toNat % 2 ^ k.f.info.width
     bitsOf (d.key k) (4 * i) 4 ≠ bitsOf v (4 * i) 4 ∧ ((d.sewBusy (bitsOf (d.key k) (4 * i) 4) = true ∨ d.sewBusy (bitsOf v
       (4 * i) 4) = true))) ∧
    (let g : SgId := 2
     let x : Nat := 70000 * 65536
     let s : State := ⟨[], [], on |>.st .SEW_CFG_SEAMSYNC g 0 |>.st .SEW_TGT_NS 2 70000⟩
     let d := s.dev
     let sync := d.on .SEW_CFG_SEAMSYNC g
     let early := if sync then 2000 else 256
     d.sewBusy g = false ∧ ((sync = true → bitOf (d.rg .SEW_CFG_PART g) d.pos = true)) ∧ d.sewTarget g = some x ∧
       d.laterThan x early = false) ∧
    (let g : SgId := 2
     let x : Nat := 0
     let s : State := ⟨[], [], on |>.st .SEW_CFG_SEAMSYNC g 0⟩
     let d := s.dev
     let sync := d.on .SEW_CFG_SEAMSYNC g
     let early := if sync then 2000 else 256
     d.sewBusy g = false ∧ ((sync = true → bitOf (d.rg .SEW_CFG_PART g) d.pos = true)) ∧ d.sewTarget g = some x ∧
       d.laterThan x early = true) ∧
    (let g : SgId := 2
     let s : State := ⟨[], [], on |>.st .SEW_CFG_SEAMSYNC g 0 |>.st .SEW_CFG_GEN 2 5⟩
     let d := s.dev
     let sync := d.on .SEW_CFG_SEAMSYNC g
     d.sewBusy g = false ∧ ((sync = true → bitOf (d.rg .SEW_CFG_PART g) d.pos = true)) ∧ d.sewTarget g = none) ∧
    (let g : SgId := 2
     let s : State := ⟨[], [], on |>.st .SEW_CFG_SEAMSYNC g 1⟩
     let d := s.dev
     let sync := d.on .SEW_CFG_SEAMSYNC g
     d.sewBusy g = false ∧ sync = true ∧ bitOf (d.rg .SEW_CFG_PART g) d.pos = false) ∧
    (let g : SgId := 2
     let s : State := ⟨[], [], on |>.st .SEW_STATUS_STATE 2 2⟩
     let d := s.dev
     d.sewBusy g = true) ∧
    (let g : SgId := 2
     let s : State := ⟨[], [], on |>.st .SEW_STATUS_STATE g 1 |> fun d => { d with sews := [(2, { target := 65536 * 3000 })] }⟩
     let d := s.dev
     let sync := d.on .SEW_CFG_SEAMSYNC g
     let early := if sync then 2000 else 256
     d.rg .SEW_STATUS_STATE g = 1 ∧ d.nowFrac + early * 65536 < (d.sew g).target) ∧
    (let g : SgId := 2
     let s : State := ⟨[], [], on⟩
     let d := s.dev
     d.rg .SEW_STATUS_STATE g ≠ 1) ∧
    (let g : SgId := 2
     let s : State := ⟨[], [], on |>.st .SEW_STATUS_STATE g 1 |>.st .SEW_CFG_PART 2 1 |> fun d =>
         { d with sewMsg := [⟨0, 0, false, 0⟩] } |> fun d => { d with sews := [(2, { target := 65536 * 3000 })] }⟩
     let d := s.dev
     let held := d.sewMsg.filter (fun m => m.tag == d.rg .SEW_CFG_TAG g && decide ((m.origin + 2000) * 65536 ≤ (d.sew g).target))
     let agreed := (List.range 16).all (fun p => !bitOf (d.rg .SEW_CFG_PART g) p || held.any (fun m => m.pos == p && !m.veto)) &&
         !held.any (·.veto)
     d.rg .SEW_STATUS_STATE g = 1 ∧ (d.sew g).decided = false ∧ agreed = true) ∧
    (let g : SgId := 2
     let s : State := ⟨[], [], on |>.st .SEW_STATUS_STATE g 1 |>.st .SEW_CFG_PART 2 3⟩
     let d := s.dev
     let held := d.sewMsg.filter (fun m => m.tag == d.rg .SEW_CFG_TAG g && decide ((m.origin + 2000) * 65536 ≤ (d.sew g).target))
     let agreed := (List.range 16).all (fun p => !bitOf (d.rg .SEW_CFG_PART g) p || held.any (fun m => m.pos == p && !m.veto)) &&
         !held.any (·.veto)
     d.rg .SEW_STATUS_STATE g = 1 ∧ (d.sew g).decided = false ∧ agreed = false) ∧
    (let g : SgId := 2
     let e : EngId := 17
     let s : State := ⟨[], [], on |>.st .SEW_STATUS_STATE g 1 |> fun d => { d with dirty := [⟨.ENG_CMP_MASK_MASK, e, 0⟩] }
         |>.setDom (3 + e / 16) 0 |> fun d => { d with taken := [] } |> fun d => { d with modeChg := none } |> fun d => { d with
         sews := [(2, { target := 65536 * 3000, decided := true })] } |> fun d => { d with dirty := [⟨.ENG_CMP_MASK_MASK, e, 0⟩] }
         |> fun d => { d with basted := [(⟨.ENG_CMP_MASK_MASK, e, 0⟩, 99)] } |>.sti .SEW_GMAP_ENG_MAP 0 2 0x20⟩
     let d := s.dev
     d.rg .SEW_STATUS_STATE g = 1 ∧ (d.sew g).decided = true ∧ ((∀ h : SgId, h < g → d.rg .SEW_STATUS_STATE h ≠ 1)) ∧
       d.dirty = [⟨.ENG_CMP_MASK_MASK, e, 0⟩] ∧ d.mapNib .SEW_GMAP_ENG_MAP e = g ∧ d.domOn (3 + e / 16) = true ∧ d.taken =
       [] ∧ d.modeChg = none ∧ d.groupRuns e = false) ∧
    (let g : SgId := 2
     let e : EngId := 17
     let s : State := ⟨[], [], on |>.st .SEW_STATUS_STATE g 1 |> fun d => { d with dirty := [⟨.ENG_CMP_MASK_MASK, e, 0⟩] }
         |>.setDom (3 + e / 16) 0 |> fun d => { d with taken := [] } |> fun d => { d with modeChg := none } |> fun d => { d with
         sews := [(2, { target := 65536 * 3000, decided := true })] } |> fun d => { d with dirty := [⟨.ENG_CMP_MASK_MASK, e, 0⟩] }
         |> fun d => { d with basted := [(⟨.ENG_CMP_MASK_MASK, e, 0⟩, 99)] } |>.sti .SEW_GMAP_ENG_MAP 0 2 0x20 |>.st
         .ENG_STAT_STATE 17 2⟩
     let d := s.dev
     d.rg .SEW_STATUS_STATE g = 1 ∧ (d.sew g).decided = true ∧ ((∀ h : SgId, h < g → d.rg .SEW_STATUS_STATE h ≠ 1)) ∧
       d.dirty = [⟨.ENG_CMP_MASK_MASK, e, 0⟩] ∧ d.mapNib .SEW_GMAP_ENG_MAP e = g ∧ d.domOn (3 + e / 16) = true ∧ d.taken =
       [] ∧ d.modeChg = none ∧ d.groupRuns e = true) := by
  refine ⟨?_, ?_, ?_, ?_, ?_, ?_, ?_, ?_, ?_, ?_, ?_, ?_, ?_⟩
  · dsimp only; decide +kernel
  · dsimp only; decide +kernel
  · dsimp only; decide +kernel
  · dsimp only; decide +kernel
  · dsimp only; decide +kernel
  · dsimp only; decide +kernel
  · dsimp only; decide +kernel
  · dsimp only; decide +kernel
  · dsimp only; decide +kernel
  · dsimp only; decide +kernel
  · dsimp only; decide +kernel
  · dsimp only; decide +kernel
  · dsimp only; decide +kernel

/-- What each clause of `AcquisitionStates` supposes is met. -/
theorem witness_AcquisitionStates :
    (let u : AcqId := 5
     let s : State := ⟨[], [], on |>.setDom 27 0 |>.st .ACQ_STAT_STATE u 0 |>.st .ACQ_POST_SAMPLES 5 4⟩
     let d := s.dev
     let up := d.domOn 27 = true
     let state := d.rg .ACQ_STAT_STATE u
     up ∧ state = 0 ∧ d.acqBad u = false ∧ ¬27 ∈ d.quies ∧ d.acqFree u = true) ∧
    (let u : AcqId := 5
     let s : State := ⟨[], [], on |>.setDom 27 0 |>.st .ACQ_STAT_STATE u 0 |>.st .ACQ_POST_SAMPLES 5 4 |>.st .ACQ_STAT_HELD 5 1⟩
     let d := s.dev
     let up := d.domOn 27 = true
     let state := d.rg .ACQ_STAT_STATE u
     up ∧ state = 0 ∧ d.acqBad u = false ∧ ¬27 ∈ d.quies ∧ d.acqFree u = false) ∧
    (let u : AcqId := 5
     let s : State := ⟨[], [], on |>.setDom 27 0 |>.st .ACQ_STAT_STATE u 0 |>.st .ACQ_POST_SAMPLES 5 0⟩
     let d := s.dev
     let up := d.domOn 27 = true
     let state := d.rg .ACQ_STAT_STATE u
     up ∧ state = 0 ∧ d.acqBad u = true) ∧
    (let u : AcqId := 5
     let s : State := ⟨[], [], on |>.setDom 27 0⟩
     let d := s.dev
     let up := d.domOn 27 = true
     let state := d.rg .ACQ_STAT_STATE u
     up ∧ state ≠ 2) ∧
    (let u : AcqId := 5
     let g : AcqTrig := ⟨0, 0, 1, 0, 0, 0, 0⟩
     let s : State := ⟨[], [], on |>.setDom 27 0 |>.st .ACQ_STAT_STATE u 2 |>.modAcq u (fun z => { z with trig := some g })⟩
     let d := s.dev
     let x := d.acq u
     let up := d.domOn 27 = true
     let state := d.rg .ACQ_STAT_STATE u
     up ∧ state = 2 ∧ x.trig = some g) ∧
    (let u : AcqId := 5
     let k : Nat := 3
     let s : State := ⟨[], [], on |>.setDom 27 0 |>.st .ACQ_STAT_STATE 5 1 |>.sti .ACQ_COND_CTRL_EN 5 3 1 |>.sti
         .ACQ_COND_CTRL_TYPE 5 3 6⟩
     let d := s.dev
     let x := d.acq u
     let up := d.domOn 27 = true
     let state := d.rg .ACQ_STAT_STATE u
     let now := cycleOf d.tick
     up ∧ d.slotsOf u 6 = [k] ∧ state ≠ 0 ∧ x.since ≤ now ∧ x.decided < d.grainClose u now ∧ (d.tick : Rat) ≤ d.grainClose u
       now + x.delay * 4000) ∧
    (let s : State := ⟨[], [], on |>.setDom 27 0⟩
     let d := s.dev
     let up := d.domOn 27 = true
     up) ∧
    (let u : AcqId := 5
     let s : State := ⟨[], [], on |>.st .ACQ_STAT_STATE u 4⟩
     let d := s.dev
     let state := d.rg .ACQ_STAT_STATE u
     state = 4 ∧ d.acqFree u = true) ∧
    (let u : AcqId := 5
     let s : State := ⟨[], [], on |>.st .ACQ_STAT_STATE u 4 |>.st .ACQ_STAT_HELD 5 1⟩
     let d := s.dev
     let state := d.rg .ACQ_STAT_STATE u
     state = 4 ∧ d.acqFree u = false) ∧
    (let u : AcqId := 5
     let s : State := ⟨[], [], on |>.st .ACQ_STAT_STATE u 3 |>.st .ACQ_HOLD_MODE u 0⟩
     let d := s.dev
     let state := d.rg .ACQ_STAT_STATE u
     state = 3 ∧ d.on .ACQ_HOLD_MODE u = false) ∧
    (let u : AcqId := 5
     let s : State := ⟨[], [], on |>.st .ACQ_STAT_STATE u 3 |>.st .ACQ_HOLD_MODE u 1⟩
     let d := s.dev
     let x := d.acq u
     let state := d.rg .ACQ_STAT_STATE u
     state = 3 ∧ d.on .ACQ_HOLD_MODE u = true ∧ d.rg .ACQ_HOLD_VALUE u ≤ x.hold) ∧
    (let u : AcqId := 5
     let g : AcqTrig := ⟨0, 0, 1, 0, 0, 0, 0⟩
     let s : State := ⟨[], [], on |>.st .ACQ_STAT_STATE u 2 |>.modAcq u (fun z => { z with trig := some g }) |>.st
         .ACQ_POST_SAMPLES 5 1 |>.modAcq 5 (fun z => { z with post := [⟨7, 0, 0, false⟩] })⟩
     let d := s.dev
     let x := d.acq u
     let state := d.rg .ACQ_STAT_STATE u
     state = 2 ∧ d.rg .ACQ_POST_SAMPLES u ≤ x.post.length ∧ x.trig = some g) := by
  refine ⟨?_, ?_, ?_, ?_, ?_, ?_, ?_, ?_, ?_, ?_, ?_, ?_⟩
  · dsimp only; decide +kernel
  · dsimp only; decide +kernel
  · dsimp only; decide +kernel
  · dsimp only; decide +kernel
  · dsimp only; decide +kernel
  · dsimp only; decide +kernel
  · dsimp only; decide +kernel
  · dsimp only; decide +kernel
  · dsimp only; decide +kernel
  · dsimp only; decide +kernel
  · dsimp only; decide +kernel
  · dsimp only; decide +kernel

/-- What each clause of `AcquisitionRecords` supposes is met. -/
theorem witness_AcquisitionRecords :
    (let u : AcqId := 5
     let c : AcqCond := ⟨3, 65536000, 4000000⟩
     let s : State := ⟨[], [], on |>.modAcq u (fun z => { z with conds := [c] }) |>.modAcq u (fun z => { z with runs := [] })
         |>.sti .ACQ_COND_CTRL_ARMBY_EN u c.slot 0 |>.st .ACQ_STAT_STATE u 1 |>.st .ACQ_TOUT_TOENG u 0 |>.st .ACQ_TOUT_TOSEAM u 0
         |>.modAcq 5 (fun z => { z with conds := [c] }) |>.sti .ACQ_COND_CTRL_EN 5 3 1⟩
     let d := s.dev
     let x := d.acq u
     let state := d.rg .ACQ_STAT_STATE u
     let plain := x.conds = [c] ∧ x.runs = [] ∧ d.slotsOf u 1 = [] ∧ d.slotEn u c.slot = true ∧ d.rgi .ACQ_COND_CTRL_ARMBY_EN u
         c.slot = 0
     plain ∧ state = 1 ∧ d.on .ACQ_TOUT_TOENG u = false ∧ d.on .ACQ_TOUT_TOSEAM u = false) ∧
    (let u : AcqId := 5
     let c : AcqCond := ⟨3, 65536000, 4000000⟩
     let s : State := ⟨[], [], on |>.modAcq u (fun z => { z with conds := [c] }) |>.modAcq u (fun z => { z with runs := [] })
         |>.sti .ACQ_COND_CTRL_ARMBY_EN u c.slot 0 |>.st .ACQ_STAT_STATE u 4 |>.modAcq 5 (fun z => { z with conds := [c] }) |>.sti
         .ACQ_COND_CTRL_EN 5 3 1⟩
     let d := s.dev
     let x := d.acq u
     let state := d.rg .ACQ_STAT_STATE u
     let plain := x.conds = [c] ∧ x.runs = [] ∧ d.slotsOf u 1 = [] ∧ d.slotEn u c.slot = true ∧ d.rgi .ACQ_COND_CTRL_ARMBY_EN u
         c.slot = 0
     plain ∧ state = 4) ∧
    (let u : AcqId := 5
     let r : AcqRec := ⟨1, 2, 3, 4, [], 3, true, false, none⟩
     let s : State := ⟨[], [], on |>.setDom 27 0 |>.modAcq u (fun z => { z with rcd := some r }) |> fun d =>
         { d with errs := [] } |> fun d => { d with poison := [] } |>.st .DRC_STAT_STATE 0 3 |>.st .HOST_READY_THIMBLE 0 1 |>.st
         .DRC_CFG_POP 0 1 |>.st .DRC_CFG_DENS 0 1 |>.st .ACQ_RSIZE_LINES 5 64 |>.st .ACQ_RBASE_LINE 5 32⟩
     let d := s.dev
     let x := d.acq u
     let line := fun (k : Nat) => d.rg .ACQ_RBASE_LINE u + (d.rg .ACQ_WPTR_LINE u + k) % max 1 (d.rg .ACQ_RSIZE_LINES u)
     let open_ := fun (k : Nat) => d.writePath (line k) = .served ∧ d.unzeroed (line k) = false ∧ d.awgGuard (line k) = none ∧
         d.errs = [] ∧ d.poison = []
     s.wf ∧ d.domOn 27 = true ∧ x.rcd = some r ∧ r.ring = true ∧ r.head = false ∧ r.left = [] ∧ open_ 0) ∧
    (let u : AcqId := 5
     let r : AcqRec := ⟨1, 2, 3, 4, [2, 5], 3, true, false, none⟩
     let k : Nat := 2
     let rest : List Nat := [5]
     let s : State := ⟨[], memWrite [] (2 ^ 42 + 5 * 2 ^ 18 + 512) [7, 8, 9], on |>.setDom 27 0 |>.modAcq u (fun z =>
         { z with rcd := some r }) |> fun d => { d with errs := [] } |> fun d => { d with poison := [] } |>.st .DRC_STAT_STATE 0 3
         |>.st .HOST_READY_THIMBLE 0 1 |>.st .DRC_CFG_POP 0 1 |>.st .DRC_CFG_DENS 0 1 |>.st .ACQ_RSIZE_LINES 5 64 |>.st
         .ACQ_RBASE_LINE 5 32⟩
     let d := s.dev
     let x := d.acq u
     let line := fun (k : Nat) => d.rg .ACQ_RBASE_LINE u + (d.rg .ACQ_WPTR_LINE u + k) % max 1 (d.rg .ACQ_RSIZE_LINES u)
     let open_ := fun (k : Nat) => d.writePath (line k) = .served ∧ d.unzeroed (line k) = false ∧ d.awgGuard (line k) = none ∧
         d.errs = [] ∧ d.poison = []
     s.wf ∧ d.domOn 27 = true ∧ x.rcd = some r ∧ r.ring = true ∧ r.head = false ∧ r.left = k :: rest ∧ open_ k) ∧
    (let u : AcqId := 5
     let r : AcqRec := ⟨1, 2, 3, 4, [], 1, true, true, none⟩
     let s : State := ⟨[], [], on |>.modAcq u (fun z => { z with rcd := some r })⟩
     let d := s.dev
     let x := d.acq u
     x.rcd = some r ∧ r.head = true ∧ r.byEng = none) ∧
    (let u : AcqId := 5
     let r : AcqRec := ⟨1, 2, 3, 4, [], 1, true, true, some 17⟩
     let e : EngId := 17
     let s : State := ⟨[], [], on |>.modAcq u (fun z => { z with rcd := some r }) |>.st .ENG_STAT_STATE e 2⟩
     let d := s.dev
     let x := d.acq u
     x.rcd = some r ∧ r.head = true ∧ r.byEng = some e.val ∧ d.runs e = true) ∧
    (let u : AcqId := 5
     let slot : SlotId := 3
     let t0 : Nat := 65536000
     let s : State := ⟨[], [], on |>.modAcq u (fun z => { z with targets := [(slot, t0)] }) |>.st .ACQ_STAT_STATE 5 1 |>.sti
         .ACQ_COND_P2 5 3 (1000 * 2 ^ 24)⟩
     let d := s.dev
     let x := d.acq u
     let state := d.rg .ACQ_STAT_STATE u
     x.targets.get? slot = some t0 ∧ state ≠ 0) := by
  refine ⟨?_, ?_, ?_, ?_, ?_, ?_, ?_⟩
  · dsimp only; decide +kernel
  · dsimp only; decide +kernel
  · dsimp only; decide +kernel
  · dsimp only; decide +kernel
  · dsimp only; decide +kernel
  · dsimp only; decide +kernel
  · dsimp only; decide +kernel

/-- What each clause of `ConverterLinks` supposes is met. -/
theorem witness_ConverterLinks :
    (let r : LinkId := 1
     let s : State := ⟨[], [], on |>.setDom 29 0 |>.st .LNK_CFG_EN r 0 |>.st .LNK_CFG_NM1 1 15 |>.st .LNK_TCONV_TC 1 65536⟩
     let d := s.dev
     let up := d.domOn 29 = true
     up ∧ d.on .LNK_CFG_EN r = false ∧ d.lnkBad r = false ∧ ¬29 ∈ d.quies) ∧
    (let r : LinkId := 1
     let s : State := ⟨[], [], on |>.setDom 29 0 |>.st .LNK_CFG_EN r 0⟩
     let d := s.dev
     let up := d.domOn 29 = true
     up ∧ d.on .LNK_CFG_EN r = false ∧ d.lnkBad r = true) ∧
    (let r : LinkId := 1
     let s : State := ⟨[], [], on |>.setDom 29 0 |>.st .LNK_CFG_EN r 1⟩
     let d := s.dev
     let up := d.domOn 29 = true
     up ∧ d.on .LNK_CFG_EN r = true) ∧
    (let r : LinkId := 1
     let s : State := ⟨[], [], on |>.setDom 29 0 |>.st .LNK_CFG_EN r 1 |>.st .LNK_STAT_SRALIGNED r 0⟩
     let d := s.dev
     let up := d.domOn 29 = true
     up ∧ d.on .LNK_CFG_EN r = true ∧ d.on .LNK_STAT_SRALIGNED r = false) ∧
    (let r : LinkId := 1
     let s : State := ⟨[], [], on |>.setDom 29 0 |>.st .LNK_CFG_EN r 1 |>.st .LNK_STAT_SRALIGNED r 1⟩
     let d := s.dev
     let up := d.domOn 29 = true
     up ∧ d.on .LNK_CFG_EN r = true ∧ d.on .LNK_STAT_SRALIGNED r = true) ∧
    (let r : LinkId := 1
     let rateBad : Bool := false
     let lanes : List LaneMb := [⟨true, true, List.replicate 256 1⟩]
     let s : State := ⟨[], [], on |>.setDom 29 0 |>.st .LNK_CFG_EN r 1 |>.st .LNK_STAT_SRALIGNED r 1 |>.st .LNK_STAT_STATE r 2
         |>.st .LNK_CFG_NM1 1 15 |>.st .LNK_TCONV_TC 1 65536 |>.st .LNK_CFG_EN 1 1 |>.st .LNK_STAT_SRALIGNED 1 1 |>.st
         .LNK_LSTAT_BLOCK 18 1 |>.st .LNK_LSTAT_LOCK 18 1⟩
     let d := s.dev
     let up := d.domOn 29 = true
     let live := up ∧ r.val < 4 ∧ d.on .LNK_CFG_EN r = true ∧ d.on .LNK_STAT_SRALIGNED r = true ∧ lanes.length = d.lnkL r ∧ ∀ n ∈
         d.lnkLanes r, d.laneUp n = true
     live ∧ rateBad = false ∧ d.rg .LNK_STAT_STATE r = 2 ∧ ((∀ l ∈ lanes, l.inPhase = true))) ∧
    (let r : LinkId := 1
     let rateBad : Bool := false
     let lanes : List LaneMb := [⟨false, true, List.replicate 256 1⟩]
     let s : State := ⟨[], [], on |>.setDom 29 0 |>.st .LNK_CFG_EN r 1 |>.st .LNK_STAT_SRALIGNED r 1 |>.st .LNK_STAT_STATE r 3
         |>.st .LNK_CFG_NM1 1 15 |>.st .LNK_TCONV_TC 1 65536 |>.st .LNK_CFG_EN 1 1 |>.st .LNK_STAT_SRALIGNED 1 1 |>.st
         .LNK_LSTAT_BLOCK 18 1 |>.st .LNK_LSTAT_LOCK 18 1⟩
     let d := s.dev
     let up := d.domOn 29 = true
     let live := up ∧ r.val < 4 ∧ d.on .LNK_CFG_EN r = true ∧ d.on .LNK_STAT_SRALIGNED r = true ∧ lanes.length = d.lnkL r ∧ ∀ n ∈
         d.lnkLanes r, d.laneUp n = true
     live ∧ rateBad = false ∧ d.rg .LNK_STAT_STATE r = 3 ∧ ((∃ l ∈ lanes, l.inPhase = false))) ∧
    (let r : LinkId := 1
     let rateBad : Bool := true
     let lanes : List LaneMb := [⟨true, false, List.replicate 256 1⟩]
     let s : State := ⟨[], [], on |>.setDom 29 0 |>.st .LNK_CFG_EN r 1 |>.st .LNK_STAT_SRALIGNED r 1 |>.st .LNK_STAT_STATE r 3
         |>.st .LNK_CFG_NM1 1 15 |>.st .LNK_TCONV_TC 1 65536 |>.st .LNK_CFG_EN 1 1 |>.st .LNK_STAT_SRALIGNED 1 1 |>.st
         .LNK_LSTAT_BLOCK 18 1 |>.st .LNK_LSTAT_LOCK 18 1⟩
     let d := s.dev
     let up := d.domOn 29 = true
     let live := up ∧ r.val < 4 ∧ d.on .LNK_CFG_EN r = true ∧ d.on .LNK_STAT_SRALIGNED r = true ∧ lanes.length = d.lnkL r ∧ ∀ n ∈
         d.lnkLanes r, d.laneUp n = true
     live ∧ rateBad = true ∧ d.rg .LNK_STAT_STATE r = 3) := by
  refine ⟨?_, ?_, ?_, ?_, ?_, ?_, ?_, ?_⟩
  · dsimp only; decide +kernel
  · dsimp only; decide +kernel
  · dsimp only; decide +kernel
  · dsimp only; decide +kernel
  · dsimp only; decide +kernel
  · dsimp only; decide +kernel
  · dsimp only; decide +kernel
  · dsimp only; decide +kernel

/-- What each clause of `ReceiveChains` supposes is met. -/
theorem witness_ReceiveChains :
    (let c : DdcId := 2
     let s : State := ⟨[], [], on |>.setDom 27 0 |>.st .DDC_CTRL_EN c 0 |>.st .LNK_TCONV_TC 0 65536 |>.st .DDC_CTRL_CICM1 2 1⟩
     let d := s.dev
     let up := d.domOn 27 = true
     up ∧ d.on .DDC_CTRL_EN c = false ∧ d.ddcBad c = false ∧ ¬27 ∈ d.quies) ∧
    (let c : DdcId := 2
     let s : State := ⟨[], [], on |>.setDom 27 0 |>.st .DDC_CTRL_EN c 0⟩
     let d := s.dev
     let up := d.domOn 27 = true
     up ∧ d.on .DDC_CTRL_EN c = false ∧ d.ddcBad c = true) ∧
    (let s : State := ⟨[], [], on |>.setDom 27 0⟩
     let d := s.dev
     let up := d.domOn 27 = true
     up) ∧
    (let c : DdcId := 2
     let u : AcqId := 5
     let o : DdcOut := ⟨1, 2, 0, 0, false⟩
     let rest : List DdcOut := []
     let s : State := ⟨[], [], on |>.setDdc c { outs := o :: rest } |>.st .ACQ_SRC_TYPE u 1 |>.st .ACQ_SRC_DDC u c |>.st
         .ACQ_STAT_STATE u 1⟩
     let d := s.dev
     let x := d.ddc c
     x.outs = o :: rest ∧ d.rg .ACQ_SRC_TYPE u = 1 ∧ d.rg .ACQ_SRC_DDC u = c ∧ d.rg .ACQ_STAT_STATE u = 1) := by
  refine ⟨?_, ?_, ?_, ?_⟩
  · dsimp only; decide +kernel
  · dsimp only; decide +kernel
  · dsimp only; decide +kernel
  · dsimp only; decide +kernel

/-- What each clause of `WaveformCommands` supposes is met. -/
theorem witness_WaveformCommands :
    (let g : AwgId := 3
     let e : EntryId := 7
     let ent : AwgEntry := ⟨0, 4, 0, 0, true, false, false, 0⟩
     let s : State := ⟨[], memWrite [] (seqMem 3 7) (leBytes 16 (4 * 2 ^ 32 + 2 ^ 92)), on |>.setDom 27 0 |>.st .DRC_STAT_STATE 0
         3 |>.st .HOST_READY_THIMBLE 0 1 |>.st .DRC_CFG_POP 0 1 |>.st .DRC_CFG_DENS 0 1 |>.st .LNK_TCONV_TC 4 65536⟩
     let d := s.dev
     let c := (d.st .AWG_CTRL_ENTRY g e).playTo s.mem d.tick
     let up := d.domOn 27 = true
     up ∧ c.awgState g ≠ 3 ∧ c.awgBad g = false ∧ ¬27 ∈ c.quies ∧ (c.awg g).plan.head?.map (·.entry) ≠ some e.val ∧
       (c.awgEntry s.mem g e).1 = some ent) ∧
    (let g : AwgId := 3
     let e : EntryId := 7
     let p : AwgPlay := ⟨1, 7, ⟨0, 4, 0, 0, true, false, false, 0⟩, 0⟩
     let l : List AwgPlay := []
     let s : State := ⟨[], [], on |>.setDom 27 0 |>.st .LNK_TCONV_TC 4 65536 |>.modAwg 3 (fun z => { z with plan := p :: l })⟩
     let d := s.dev
     let c := (d.st .AWG_CTRL_ENTRY g e).playTo s.mem d.tick
     let up := d.domOn 27 = true
     up ∧ c.awgState g ≠ 3 ∧ c.awgBad g = false ∧ ¬27 ∈ c.quies ∧ (c.awg g).plan = p :: l ∧ p.entry = e) ∧
    (let g : AwgId := 3
     let e : EntryId := 7
     let s : State := ⟨[], [], on |>.setDom 27 0⟩
     let d := s.dev
     let c := (d.st .AWG_CTRL_ENTRY g e).playTo s.mem d.tick
     let up := d.domOn 27 = true
     up ∧ c.awgState g ≠ 3 ∧ c.awgBad g = true) ∧
    (let g : AwgId := 3
     let e : EntryId := 7
     let s : State := ⟨[], [], on |>.setDom 27 0 |>.st .AWG_STAT_STATE 3 3⟩
     let d := s.dev
     let c := (d.st .AWG_CTRL_ENTRY g e).playTo s.mem d.tick
     let up := d.domOn 27 = true
     up ∧ c.awgState g = 3) ∧
    (let g : AwgId := 3
     let s : State := ⟨[], [], on |>.st .AWG_STAT_STATE 3 3 |>.modAwg 3 (fun z =>
         { z with plan := [⟨1, 7, ⟨0, 4, 0, 0, true, false, false, 0⟩, 0⟩] }) |>.st .LNK_TCONV_TC 4 65536⟩
     let b := s.played.dev
     b.domOn 27 = true ∧ b.awgState g = 3 ∧ (b.awg g).start = none ∧ (b.awg g).req = none) ∧
    (let g : AwgId := 3
     let s : State := ⟨[], [], on⟩
     let b := s.played.dev
     b.domOn 27 = true ∧ b.awgState g ≠ 3) ∧
    (let g : AwgId := 3
     let e : EntryId := 7
     let ent : AwgEntry := ⟨0, 4, 0, 0, true, false, false, 0⟩
     let s : State := ⟨[], memWrite [] (seqMem 3 7) (leBytes 16 (4 * 2 ^ 32 + 2 ^ 92)), on |>.setDom 27 0 |> fun d =>
         { d with errs := [] } |>.st .DRC_STAT_STATE 0 3 |>.st .HOST_READY_THIMBLE 0 1 |>.st .DRC_CFG_POP 0 1 |>.st .DRC_CFG_DENS 0
         1 |>.st .LNK_TCONV_TC 4 65536⟩
     let d := s.dev
     let up := d.domOn 27 = true
     up ∧ d.awgState g = 0 ∧ d.errs = [] ∧ (d.awgEntry s.mem g e).1 = some ent) ∧
    (let g : AwgId := 3
     let e : EntryId := 7
     let s : State := ⟨[], [], on |>.setDom 27 0 |> fun d => { d with errs := [] }⟩
     let d := s.dev
     let up := d.domOn 27 = true
     up ∧ d.awgState g = 0 ∧ d.errs = [] ∧ (d.awgEntry s.mem g e).1 = none) ∧
    (let g : AwgId := 3
     let s : State := ⟨[], [], on |>.setDom 27 0 |>.st .AWG_STAT_STATE 3 2⟩
     let d := s.dev
     let up := d.domOn 27 = true
     up ∧ d.awgState g ≠ 0) ∧
    (let g : AwgId := 3
     let s : State := ⟨[], [], on⟩
     let b := s.played.dev
     b.domOn 27 = true ∧ (b.awgState g = 0 ∨ b.awgState g = 2)) ∧
    (let g : AwgId := 3
     let s : State := ⟨[], [], on |>.st .AWG_STAT_STATE 3 1⟩
     let b := s.played.dev
     b.domOn 27 = true ∧ b.awgState g ≠ 0 ∧ b.awgState g ≠ 2) := by
  refine ⟨?_, ?_, ?_, ?_, ?_, ?_, ?_, ?_, ?_, ?_, ?_⟩
  · dsimp only; decide +kernel
  · dsimp only; decide +kernel
  · dsimp only; decide +kernel
  · dsimp only; decide +kernel
  · dsimp only; decide +kernel
  · dsimp only; decide +kernel
  · dsimp only; decide +kernel
  · dsimp only; decide +kernel
  · dsimp only; decide +kernel
  · dsimp only; decide +kernel
  · dsimp only; decide +kernel

/-- What each clause of `WaveformPlayback` supposes is met. -/
theorem witness_WaveformPlayback :
    (let g : AwgId := 3
     let t0 : Rat := 5000
     let a : Nat := 10
     let s : State := ⟨[], [], on |>.modAwg g (fun z => { z with req := some (.stop, a, some t0) }) |>.st .AWG_STAT_STATE 3 3⟩
     let d := s.dev
     let x := d.awg g
     let playing := d.awgState g = 3
     playing ∧ x.req = some (.stop, a, some t0)) ∧
    (let g : AwgId := 3
     let e : EntryId := 7
     let ent : AwgEntry := ⟨0, 4, 0, 0, true, false, false, 0⟩
     let t0 : Rat := 5000
     let a : Nat := 10
     let granule : Bool := false
     let s : State := ⟨[], memWrite [] (seqMem 3 7) (leBytes 16 (4 * 2 ^ 32 + 2 ^ 92)), on |>.modAwg g (fun z =>
         { z with req := some (.jump e granule, a, some t0) }) |>.modAwg g (fun z => { z with wait := [] }) |>.st .DRC_STAT_STATE 0
         3 |>.st .HOST_READY_THIMBLE 0 1 |>.st .DRC_CFG_POP 0 1 |>.st .DRC_CFG_DENS 0 1 |>.st .LNK_TCONV_TC 4 65536 |>.st
         .AWG_STAT_STATE 3 3⟩
     let d := s.dev
     let x := d.awg g
     let playing := d.awgState g = 3
     playing ∧ x.req = some (.jump e granule, a, some t0) ∧ x.wait = [] ∧ (((d.playTo s.mem t0).advanceTo
       t0.ceil.toNat).awgEntry s.mem g e).1 = some ent) ∧
    (let g : AwgId := 3
     let s : State := ⟨[], [], on |>.st .AWG_STAT_STATE 3 1 |>.modAwg 3 (fun z =>
         { z with lines := List.replicate 192 (1, 0, 0) })⟩
     let d := s.dev
     let x := d.awg g
     d.awgState g = 1 ∧ 192 ≤ x.lines.length) ∧
    (let g : AwgId := 3
     let s : State := ⟨[], [], on |>.st .AWG_STAT_STATE 3 1 |>.modAwg 3 (fun z => { z with fetch := some (1, 0) })⟩
     let d := s.dev
     let x := d.awg g
     d.awgState g = 1 ∧ x.lines.length < 192 ∧ x.fetch.isSome) ∧
    (let g : AwgId := 3
     let p : AwgPlay := ⟨1, 7, ⟨0, 4, 0, 0, true, false, false, 0⟩, 0⟩
     let l : List AwgPlay := []
     let a : Nat := 10
     let s : State := ⟨[], [], on |>.st .LNK_TCONV_TC 4 65536 |>.st .LNK_STAT_STATE 4 3 |>.modAwg 3 (fun z =>
         { z with start := some a, plan := p :: l })⟩
     let d := s.dev
     let b := s.played.dev
     let y := b.awg g
     let r := 4 + d.rg .AWG_OUT_LINK g
     let f := b.tcTicks r * b.lnkS r
     y.start = some a ∧ y.plan = p :: l ∧ y.req = none ∧ b.rg .LNK_STAT_STATE r = 3 ∧ 0 < f ∧ b.rg .AWG_OUT_LINK g = d.rg
       .AWG_OUT_LINK g) ∧
    (let g : AwgId := 3
     let p : AwgPlay := ⟨1, 7, ⟨0, 4, 0, 0, true, false, false, 0⟩, 0⟩
     let no : Nat := 1
     let n : Nat := 1
     let s : State := ⟨[], [], on |>.st .DRC_STAT_STATE 0 3 |>.st .HOST_READY_THIMBLE 0 1 |>.st .DRC_CFG_POP 0 1 |>.st
         .DRC_CFG_DENS 0 1 |>.st .LNK_TCONV_TC 4 65536 |>.st .AWG_STAT_STATE 3 1 |>.modAwg 3 (fun z =>
         { z with plan := [p], fetch := some (no, n) })⟩
     let b := s.played.dev
     let c := (b.awgDrop g).awgSeek s.mem g 64; let z := c.awg g; let line := p.ent.line + n
     z.fetch = some (no, n) ∧ z.playNo no = some p ∧ c.awgState g ≠ 0 ∧ z.lines.length < 768 ∧ c.dramPath line = .served ∧
       c.unzeroed line = false ∧ c.errs = []) ∧
    (let g : AwgId := 3
     let p : AwgPlay := ⟨1, 7, ⟨0, 4, 0, 0, true, false, false, 0⟩, 0⟩
     let l : List AwgPlay := [⟨2, 8, ⟨0, 4, 0, 0, true, false, false, 0⟩, 0⟩]
     let s : State := ⟨[], [], on |>.modAwg g (fun z => { z with start := none }) |>.modAwg g (fun z => { z with req := none })
         |>.modAwg g (fun z => { z with plan := p :: l }) |>.st .LNK_TCONV_TC 4 65536 |>.st .AWG_STAT_STATE 3 3⟩
     let d := s.dev
     let x := d.awg g
     let playing := d.awgState g = 3
     playing ∧ x.start = none ∧ x.req = none ∧ x.plan = p :: l ∧ l ≠ []) ∧
    (let g : AwgId := 3
     let p : AwgPlay := ⟨1, 7, ⟨0, 4, 0, 0, true, false, false, 0⟩, 0⟩
     let s : State := ⟨[], [], on |>.modAwg g (fun z => { z with start := none }) |>.modAwg g (fun z => { z with req := none })
         |>.modAwg g (fun z => { z with plan := [p] }) |>.st .LNK_TCONV_TC 4 65536 |>.st .AWG_STAT_STATE 3 3⟩
     let d := s.dev
     let x := d.awg g
     let playing := d.awgState g = 3
     playing ∧ x.start = none ∧ x.req = none ∧ x.plan = [p] ∧ p.ent.repM1 ≤ p.play ∧ p.ent.stop = true) ∧
    (let g : AwgId := 3
     let p : AwgPlay := ⟨1, 7, ⟨0, 4, 0, 0, true, false, false, 0⟩, 0⟩
     let l : List AwgPlay := []
     let s : State := ⟨[], [], on |>.st .LNK_TCONV_TC 4 65536 |>.st .AWG_STAT_STATE 3 3 |>.modAwg 3 (fun z =>
         { z with plan := [p] })⟩
     let b := s.played.dev
     let y := b.awg g
     let k := max y.sample (if (b.tick : Rat) ≤ y.t0 then 0 else (((b.tick : Rat) - y.t0) / b.tp g).ceil.toNat)
     b.awgState g = 3 ∧ y.start = none ∧ y.plan = p :: l ∧ k < p.ent.gran * 64 ∧ b.awgHas g p k = false) ∧
    (let g : AwgId := 3
     let e : EntryId := 7
     let off : Fin 16 := 3
     let bytes : List Byte := [1, 2, 3]
     let s : State := ⟨[], [], on |>.setDom 27 0 |> fun d => { d with errs := [] }⟩
     let d := s.dev
     let x := d.awg g
     s.wf ∧ d.domOn 27 = true ∧ (x.active false).any (·.1 == e.val) = false ∧ d.errs = [] ∧ off.val + bytes.length ≤ 16) ∧
    (let g : AwgId := 3
     let e : EntryId := 7
     let p : AwgPlay := ⟨1, 7, ⟨0, 4, 0, 0, true, false, false, 0⟩, 0⟩
     let s : State := ⟨[], [], on |>.setDom 27 0 |>.modAwg 3 (fun z => { z with plan := [p] })⟩
     let d := s.dev
     let x := d.awg g
     d.domOn 27 = true ∧ (x.active false).any (·.1 == e.val) = true) := by
  refine ⟨?_, ?_, ?_, ?_, ?_, ?_, ?_, ?_, ?_, ?_, ?_⟩
  · dsimp only; decide +kernel
  · dsimp only; decide +kernel
  · dsimp only; decide +kernel
  · dsimp only; decide +kernel
  · dsimp only; decide +kernel
  · dsimp only; decide +kernel
  · dsimp only; decide +kernel
  · dsimp only; decide +kernel
  · dsimp only; decide +kernel
  · dsimp only; decide +kernel
  · dsimp only; decide +kernel

/-- What each clause of `TimeSources` supposes is met. -/
theorem witness_TimeSources :
    (let s : State := ⟨[], [], on |>.modTime (fun z => { z with refLost := false })⟩
     let d := s.dev
     let x := d.time
     x.refLost = false) ∧
    (let s : State := ⟨[], [], on |>.modTime (fun z => { z with refLost := true })⟩
     let d := s.dev
     let x := d.time
     x.refLost = true) ∧
    (let s : State := ⟨[], [], on⟩
     let d := s.dev
     ((∀ q : PortId, d.on .LNK_SP_CTRL_EN q = false))) ∧
    (let p : PortId := 1
     let s : State := ⟨[], [], on |>.st .LNK_SP_CTRL_EN p 1⟩
     let d := s.dev
     d.on .LNK_SP_CTRL_EN p = true) ∧
    (let src : BitVec 2 := 1
     let s : State := ⟨[], [], on⟩
     let d := s.dev
     d.rg .TIME_CTRL_SRC 0 ≠ src.toNat) ∧
    (let src : BitVec 2 := 0
     let s : State := ⟨[], [], on |>.st .TIME_CTRL_SRC 0 src.toNat⟩
     let d := s.dev
     d.rg .TIME_CTRL_SRC 0 = src.toNat) ∧
    (let s : State := ⟨[], [], on |>.modTime (fun z => { z with synced := false }) |>.modTime (fun z =>
         { z with refLost := false })⟩
     let d := s.dev
     let x := d.time
     x.synced = false ∧ x.refLost = false) ∧
    (let dt : Nat := 5000
     let s : State := ⟨[], [], on |>.modTime (fun z => { z with synced := true }) |>.modTime (fun z =>
         { z with resync := false })⟩
     let d := s.dev
     let x := d.time
     x.synced = true ∧ x.resync = false ∧ d.coarseAt (d.tick + dt) % 40000 ≠ 0) ∧
    (let p : PortId := 1
     let s : State := ⟨[], [], on |>.st .TIME_CTRL_SERVE 0 1 |>.st .LNK_SP_STAT_STATE p 2⟩
     let d := s.dev
     d.on .TIME_CTRL_SERVE 0 = true ∧ d.rg .TIME_CTRL_SRC 0 ≠ 2 ∧ d.rg .LNK_SP_STAT_STATE p = 2) ∧
    (let s : State := ⟨[], [], on |>.st .TIME_CTRL_SERVE 0 0⟩
     let d := s.dev
     d.on .TIME_CTRL_SERVE 0 = false) ∧
    (let s : State := ⟨[], [], on |>.st .TIME_CTRL_SRC 0 2 |>.modTime (fun z => { z with server := some 5 })⟩
     let d := s.dev
     let x := d.time
     d.rg .TIME_CTRL_SRC 0 = 2 ∧ x.server.isSome) := by
  refine ⟨?_, ?_, ?_, ?_, ?_, ?_, ?_, ?_, ?_, ?_, ?_⟩
  · dsimp only; decide +kernel
  · dsimp only; decide +kernel
  · dsimp only; decide +kernel
  · dsimp only; decide +kernel
  · dsimp only; decide +kernel
  · dsimp only; decide +kernel
  · dsimp only; decide +kernel
  · dsimp only; decide +kernel
  · dsimp only; decide +kernel
  · dsimp only; decide +kernel
  · dsimp only; decide +kernel

/-- What each clause of `PtpMessages` supposes is met. -/
theorem witness_PtpMessages :
    (let h : PtpHead := ⟨false, 0, 1, 7, 0⟩
     let two : Bool := true
     let s : State := ⟨[], [], on |>.st .LNK_LSTAT_BLOCK 8 1 |>.st .TIME_CTRL_SRC 0 1 |>.modTime (fun t =>
         { t with master := some (1, [9]) })⟩
     let d := s.dev
     let port := b2n h.port
     let src := h.src.toNat
     let mine := d.ptpMine port h.domain.toNat = true
     let follows := d.ptpFollows src = true
     mine ∧ follows ∧ two = true) ∧
    (let h : PtpHead := ⟨false, 0, 1, 7, 0⟩
     let two : Bool := false
     let s : State := ⟨[], [], on |>.st .LNK_LSTAT_BLOCK 8 1 |>.st .TIME_CTRL_SRC 0 1 |>.modTime (fun t =>
         { t with master := some (1, [9]) })⟩
     let d := s.dev
     let port := b2n h.port
     let src := h.src.toNat
     let mine := d.ptpMine port h.domain.toNat = true
     let follows := d.ptpFollows src = true
     mine ∧ follows ∧ two = false) ∧
    (let h : PtpHead := ⟨false, 0, 1, 7, 0⟩
     let s : State := ⟨[], [], on⟩
     let d := s.dev
     let port := b2n h.port
     let src := h.src.toNat
     let mine := d.ptpMine port h.domain.toNat = true
     let follows := d.ptpFollows src = true
     (¬(mine ∧ follows))) ∧
    (let h : PtpHead := ⟨false, 0, 1, 7, 0⟩
     let y : PtpHalf := ⟨1, 7, 77, 3, 0⟩
     let s : State := ⟨[], [], on |>.st .LNK_LSTAT_BLOCK 8 1 |>.st .TIME_CTRL_SRC 0 1 |>.modTime (fun t =>
         { t with master := some (1, [9]) }) |>.modTime (fun t => { t with sync := some y })⟩
     let d := s.dev
     let x := d.time
     let port := b2n h.port
     let src := h.src.toNat
     let seq := h.seq.toNat
     let mine := d.ptpMine port h.domain.toNat = true
     let follows := d.ptpFollows src = true
     x.sync = some y ∧ mine ∧ follows ∧ y.src = src ∧ y.seq = seq) ∧
    (let h : PtpHead := ⟨false, 0, 1, 7, 0⟩
     let s : State := ⟨[], [], on |>.st .TIME_CTRL_MASTER 0 1 |>.st .TIME_CTRL_P2P 0 0 |>.st .LNK_LSTAT_BLOCK 8 1⟩
     let d := s.dev
     let port := b2n h.port
     let mine := d.ptpMine port h.domain.toNat = true
     let p2p := d.on .TIME_CTRL_P2P 0 = true
     mine ∧ d.on .TIME_CTRL_MASTER 0 = true ∧ ¬p2p) ∧
    (let s : State := ⟨[], [], on |>.st .TIME_CTRL_MASTER 0 0⟩
     let d := s.dev
     d.on .TIME_CTRL_MASTER 0 = false) ∧
    (let h : PtpHead := ⟨false, 0, 1, 7, 0⟩
     let t1 : Int := 5
     let t2 : Int := 1000
     let t3 : Int := 7
     let s : State := ⟨[], [], on |>.st .LNK_LSTAT_BLOCK 8 1 |>.st .TIME_CTRL_SRC 0 1 |>.modTime (fun t =>
         { t with master := some (1, [9]) }) |>.modTime (fun t => { t with dreq := some (7, t3), last12 := some (t1, t2) })⟩
     let d := s.dev
     let x := d.time
     let port := b2n h.port
     let src := h.src.toNat
     let seq := h.seq.toNat
     let mine := d.ptpMine port h.domain.toNat = true
     let follows := d.ptpFollows src = true
     let p2p := d.on .TIME_CTRL_P2P 0 = true
     x.dreq = some (seq, t3) ∧ x.last12 = some (t1, t2) ∧ mine ∧ follows ∧ ¬p2p) ∧
    (let h : PtpHead := ⟨false, 0, 1, 7, 0⟩
     let s : State := ⟨[], [], on |>.st .TIME_CTRL_P2P 0 1 |>.st .TIME_CTRL_TWOSTEP 0 0 |>.st .LNK_LSTAT_BLOCK 8 1 |>.st
         .TIME_CTRL_P2P 0 1⟩
     let d := s.dev
     let port := b2n h.port
     let mine := d.ptpMine port h.domain.toNat = true
     let p2p := d.on .TIME_CTRL_P2P 0 = true
     mine ∧ p2p ∧ d.on .TIME_CTRL_TWOSTEP 0 = false) ∧
    (let h : PtpHead := ⟨false, 0, 1, 7, 0⟩
     let s : State := ⟨[], [], on |>.st .TIME_CTRL_P2P 0 1 |>.st .TIME_CTRL_TWOSTEP 0 1 |>.st .LNK_LSTAT_BLOCK 8 1 |>.st
         .TIME_CTRL_P2P 0 1⟩
     let d := s.dev
     let port := b2n h.port
     let mine := d.ptpMine port h.domain.toNat = true
     let p2p := d.on .TIME_CTRL_P2P 0 = true
     mine ∧ p2p ∧ d.on .TIME_CTRL_TWOSTEP 0 = true) ∧
    (let h : PtpHead := ⟨false, 0, 1, 7, 0⟩
     let two : Bool := false
     let t1 : Int := 5
     let s : State := ⟨[], [], on |>.st .LNK_LSTAT_BLOCK 8 1 |>.st .TIME_CTRL_P2P 0 1 |>.modTime (fun t =>
         { t with pdreq := some (7, t1) })⟩
     let d := s.dev
     let x := d.time
     let port := b2n h.port
     let seq := h.seq.toNat
     let mine := d.ptpMine port h.domain.toNat = true
     let p2p := d.on .TIME_CTRL_P2P 0 = true
     x.pdreq = some (seq, t1) ∧ mine ∧ p2p ∧ two = false) ∧
    (let h : PtpHead := ⟨false, 0, 1, 7, 0⟩
     let two : Bool := true
     let t1 : Int := 5
     let s : State := ⟨[], [], on |>.st .LNK_LSTAT_BLOCK 8 1 |>.st .TIME_CTRL_P2P 0 1 |>.modTime (fun t =>
         { t with pdreq := some (7, t1) })⟩
     let d := s.dev
     let x := d.time
     let port := b2n h.port
     let seq := h.seq.toNat
     let mine := d.ptpMine port h.domain.toNat = true
     let p2p := d.on .TIME_CTRL_P2P 0 = true
     x.pdreq = some (seq, t1) ∧ mine ∧ p2p ∧ two = true) ∧
    (let h : PtpHead := ⟨false, 0, 1, 7, 0⟩
     let t1 : Int := 5
     let y : PtpHalf := ⟨1, 7, 77, 3, 9⟩
     let s : State := ⟨[], [], on |>.st .LNK_LSTAT_BLOCK 8 1 |>.st .TIME_CTRL_P2P 0 1 |>.modTime (fun t =>
         { t with pdreq := some (7, t1), pdResp := some y })⟩
     let d := s.dev
     let x := d.time
     let port := b2n h.port
     let src := h.src.toNat
     let seq := h.seq.toNat
     let mine := d.ptpMine port h.domain.toNat = true
     x.pdResp = some y ∧ x.pdreq = some (seq, t1) ∧ mine ∧ y.src = src) := by
  refine ⟨?_, ?_, ?_, ?_, ?_, ?_, ?_, ?_, ?_, ?_, ?_, ?_⟩
  · dsimp only; decide +kernel
  · dsimp only; decide +kernel
  · dsimp only; decide +kernel
  · dsimp only; decide +kernel
  · dsimp only; decide +kernel
  · dsimp only; decide +kernel
  · dsimp only; decide +kernel
  · dsimp only; decide +kernel
  · dsimp only; decide +kernel
  · dsimp only; decide +kernel
  · dsimp only; decide +kernel
  · dsimp only; decide +kernel

/-- What each clause of `PtpRoles` supposes is met. -/
theorem witness_PtpRoles :
    (let h : PtpHead := ⟨false, 0, 1, 7, 0⟩
     let a : PtpAnnounce := ⟨1, 2, 3, 4, 5, 6, 0⟩
     let s : State := ⟨[], [], on |>.st .TIME_CTRL_SRC 0 1 |>.st .TIME_CTRL_MASTER 0 0 |>.modTime (fun z =>
         { z with master := none }) |>.st .LNK_LSTAT_BLOCK 8 1 |>.st .TIME_CTRL_SRC 0 1⟩
     let d := s.dev
     let x := d.time
     let slave := d.rg .TIME_CTRL_SRC 0 = 1 ∧ d.on .TIME_CTRL_MASTER 0 = false
     let key := announceKey a h.src.toNat
     let heard := d.ptpMine (b2n h.port) h.domain.toNat = true
     heard ∧ slave ∧ ((x.master = none ∨ ∃ m, x.master = some m ∧ lexLt key m.2 = true))) ∧
    (let h : PtpHead := ⟨false, 0, 1, 7, 0⟩
     let a : PtpAnnounce := ⟨1, 2, 3, 4, 5, 6, 0⟩
     let m := (5, [0])
     let s : State := ⟨[], [], on |>.modTime (fun z => { z with master := some m })⟩
     let d := s.dev
     let x := d.time
     let key := announceKey a h.src.toNat
     x.master = some m ∧ m.1 ≠ h.src.toNat ∧ lexLt key m.2 = false) ∧
    (let s : State := ⟨[], [], on |>.st .TIME_CTRL_MASTER 0 1⟩
     let d := s.dev
     d.on .TIME_CTRL_MASTER 0 = true) ∧
    (let s : State := ⟨[], [], on |>.st .TIME_CTRL_MASTER 0 1 |>.st .TIME_CTRL_TWOSTEP 0 0 |>.st .LNK_LSTAT_BLOCK 8 1⟩
     let d := s.dev
     let port := d.rg .TIME_CTRL_PORT 0
     let up := d.ethUp port = true
     up ∧ d.on .TIME_CTRL_MASTER 0 = true ∧ d.on .TIME_CTRL_TWOSTEP 0 = false) ∧
    (let s : State := ⟨[], [], on |>.st .TIME_CTRL_MASTER 0 1 |>.st .TIME_CTRL_TWOSTEP 0 1 |>.st .LNK_LSTAT_BLOCK 8 1⟩
     let d := s.dev
     let port := d.rg .TIME_CTRL_PORT 0
     let up := d.ethUp port = true
     up ∧ d.on .TIME_CTRL_MASTER 0 = true ∧ d.on .TIME_CTRL_TWOSTEP 0 = true) ∧
    (let s : State := ⟨[], [], on |>.st .TIME_CTRL_MASTER 0 1 |>.st .LNK_LSTAT_BLOCK 8 1⟩
     let d := s.dev
     let port := d.rg .TIME_CTRL_PORT 0
     let up := d.ethUp port = true
     up ∧ d.on .TIME_CTRL_MASTER 0 = true) ∧
    (let s : State := ⟨[], [], on |>.st .TIME_CTRL_SRC 0 1 |>.st .TIME_CTRL_MASTER 0 0 |>.st .TIME_CTRL_P2P 0 0 |>.st
         .LNK_LSTAT_BLOCK 8 1 |>.st .TIME_CTRL_SRC 0 1 |>.modTime (fun t => { t with master := some (1, [9]) })⟩
     let d := s.dev
     let x := d.time
     let port := d.rg .TIME_CTRL_PORT 0
     let up := d.ethUp port = true
     let slave := d.rg .TIME_CTRL_SRC 0 = 1 ∧ d.on .TIME_CTRL_MASTER 0 = false
     let p2p := d.on .TIME_CTRL_P2P 0 = true
     up ∧ slave ∧ ¬p2p ∧ x.master.isSome) ∧
    (let s : State := ⟨[], [], on |>.st .TIME_CTRL_P2P 0 1 |>.st .LNK_LSTAT_BLOCK 8 1⟩
     let d := s.dev
     let port := d.rg .TIME_CTRL_PORT 0
     let up := d.ethUp port = true
     let p2p := d.on .TIME_CTRL_P2P 0 = true
     up ∧ p2p) ∧
    (let s : State := ⟨[], [], on⟩
     let d := s.dev
     let port := d.rg .TIME_CTRL_PORT 0
     d.ethUp port = false) ∧
    (let s : State := ⟨[], [], on |>.st .TIME_CTRL_SRC 0 1 |>.st .LNK_LSTAT_BLOCK 8 1 |>.st .TIME_CTRL_SRC 0 1 |>.modTime (fun t
         => { t with master := some (1, [9]) })⟩
     let d := s.dev
     let x := d.time
     d.rg .TIME_CTRL_SRC 0 = 1 ∧ x.master.isSome) := by
  refine ⟨?_, ?_, ?_, ?_, ?_, ?_, ?_, ?_, ?_, ?_⟩
  · dsimp only; decide +kernel
  · dsimp only; decide +kernel
  · dsimp only; decide +kernel
  · dsimp only; decide +kernel
  · dsimp only; decide +kernel
  · dsimp only; decide +kernel
  · dsimp only; decide +kernel
  · dsimp only; decide +kernel
  · dsimp only; decide +kernel
  · dsimp only; decide +kernel

/-- What each clause of `LanesFollow` supposes is met. -/
theorem witness_LanesFollow :
    (let n : LaneId := 20
     let s : State := ⟨[], [], on |>.setDom (laneDom n) 0 |>.st .LNK_LCTRL_AUTOSLIP n 0⟩
     let d := s.dev
     let auto := d.on .LNK_LCTRL_AUTOSLIP n = true
     d.domOn (laneDom n) = true ∧ 8 ≤ n.val ∧ n.val < 26 ∧ ¬auto) ∧
    (let n : LaneId := 20
     let s : State := ⟨[], [], on |>.setDom (laneDom n) 0⟩
     let d := s.dev
     let auto := d.on .LNK_LCTRL_AUTOSLIP n = true
     d.domOn (laneDom n) = true ∧ n.val < 26 ∧ ((n.val < 8 ∨ auto))) ∧
    (let n : LaneId := 20
     let s : State := ⟨[], [], on |>.st .LNK_LCTRL_AUTOSLIP n 1 |>.st .LNK_LSTAT_BLOCK n 0 |>.st .LNK_LCTRL_PRBS n 0⟩
     let d := s.dev
     let live := d.laneLive n = true
     let block := d.on .LNK_LSTAT_BLOCK n = true
     let prbs := d.on .LNK_LCTRL_PRBS n = true
     let auto := d.on .LNK_LCTRL_AUTOSLIP n = true
     live ∧ auto ∧ ¬block ∧ ¬prbs) ∧
    (let n : LaneId := 20
     let s : State := ⟨[], [], on |>.st .LNK_LSTAT_BLOCK n 0 |>.st .LNK_LCTRL_PRBS n 0⟩
     let d := s.dev
     let live := d.laneLive n = true
     let block := d.on .LNK_LSTAT_BLOCK n = true
     let prbs := d.on .LNK_LCTRL_PRBS n = true
     live ∧ ¬block ∧ ¬prbs) ∧
    (let n : LaneId := 20
     let s : State := ⟨[], [], on |>.st .LNK_LCTRL_PRBS n 1⟩
     let d := s.dev
     let live := d.laneLive n = true
     let prbs := d.on .LNK_LCTRL_PRBS n = true
     live ∧ prbs) ∧
    (let n : LaneId := 20
     let s : State := ⟨[], [], on |>.st .LNK_LSTAT_BLOCK n 1 |>.st .LNK_LCTRL_PRBS n 0⟩
     let d := s.dev
     let live := d.laneLive n = true
     let block := d.on .LNK_LSTAT_BLOCK n = true
     let prbs := d.on .LNK_LCTRL_PRBS n = true
     live ∧ block ∧ ¬prbs) ∧
    (let n : LaneId := 20
     let s : State := ⟨[], [], on |>.st .LNK_LSTAT_LOCK n 0⟩
     let d := s.dev
     let live := d.laneLive n = true
     live ∧ d.on .LNK_LSTAT_LOCK n = false) ∧
    (let n : LaneId := 20
     let s : State := ⟨[], [], on |>.st .LNK_LSTAT_LOCK n 1⟩
     let d := s.dev
     let live := d.laneLive n = true
     live ∧ d.on .LNK_LSTAT_LOCK n = true) ∧
    (let n : LaneId := 20
     let s : State := ⟨[], [], on |>.st .LNK_LSTAT_FROZEN n 0⟩
     let d := s.dev
     let live := d.laneLive n = true
     let frozen := d.on .LNK_LSTAT_FROZEN n = true
     live ∧ ¬frozen ∧ d.adapts n = false) ∧
    (let n : LaneId := 20
     let s : State := ⟨[], [], on |>.st .LNK_LCTRL_ADAPT 20 1 |>.st .LNK_LSTAT_LOCK 20 1 |>.st .LNK_LSTAT_BLOCK 20 1⟩
     let d := s.dev
     let live := d.laneLive n = true
     live ∧ d.adapts n = true) ∧
    (let n : LaneId := 20
     let s : State := ⟨[], [], on |>.st .LNK_LSTAT_FROZEN n 1⟩
     let d := s.dev
     let live := d.laneLive n = true
     let frozen := d.on .LNK_LSTAT_FROZEN n = true
     live ∧ frozen) ∧
    (let n : LaneId := 20
     let v : Byte := 0
     let s : State := ⟨[], [], on |>.st .LNK_LSTAT_FROZEN n 0⟩
     let d := s.dev
     let live := d.laneLive n = true
     let frozen := d.on .LNK_LSTAT_FROZEN n = true
     let sparse := v.toNat < d.rg .LNK_LCTRL_DTHR n
     live ∧ sparse ∧ ¬frozen) ∧
    (let n : LaneId := 20
     let v : Byte := 200
     let s : State := ⟨[], [], on |>.st .LNK_LSTAT_FROZEN n 1 |>.setLane 20 { run := 1 }⟩
     let d := s.dev
     let live := d.laneLive n = true
     let frozen := d.on .LNK_LSTAT_FROZEN n = true
     let sparse := v.toNat < d.rg .LNK_LCTRL_DTHR n
     live ∧ ¬sparse ∧ frozen) ∧
    (let n : LaneId := 20
     let v : Byte := 200
     let s : State := ⟨[], [], on |>.st .LNK_LSTAT_FROZEN n 0⟩
     let d := s.dev
     let live := d.laneLive n = true
     let frozen := d.on .LNK_LSTAT_FROZEN n = true
     let sparse := v.toNat < d.rg .LNK_LCTRL_DTHR n
     live ∧ ¬sparse ∧ ¬frozen) ∧
    (let n : LaneId := 20
     let s : State := ⟨[], [], on |>.st .LNK_LCTRL_PRBS n 0⟩
     let d := s.dev
     let live := d.laneLive n = true
     let prbs := d.on .LNK_LCTRL_PRBS n = true
     live ∧ ¬prbs) ∧
    (let port : Fin 2 := 0
     let s : State := ⟨[], [], on |>.setDom 2 0 |>.st .LNK_LSTAT_BLOCK (8 + port) 0⟩
     let d := s.dev
     let ethDown := d.domOn 2 = true ∧ d.on .LNK_LSTAT_BLOCK (8 + port) = false
     ethDown) := by
  refine ⟨?_, ?_, ?_, ?_, ?_, ?_, ?_, ?_, ?_, ?_, ?_, ?_, ?_, ?_, ?_, ?_⟩
  · dsimp only; decide +kernel
  · dsimp only; decide +kernel
  · dsimp only; decide +kernel
  · dsimp only; decide +kernel
  · dsimp only; decide +kernel
  · dsimp only; decide +kernel
  · dsimp only; decide +kernel
  · dsimp only; decide +kernel
  · dsimp only; decide +kernel
  · dsimp only; decide +kernel
  · dsimp only; decide +kernel
  · dsimp only; decide +kernel
  · dsimp only; decide +kernel
  · dsimp only; decide +kernel
  · dsimp only; decide +kernel
  · dsimp only; decide +kernel

/-- What each clause of `SeamPorts` supposes is met. -/
theorem witness_SeamPorts :
    (let p : PortId := 1
     let s : State := ⟨[], [], on |>.setDom 28 0 |>.st .LNK_SP_CTRL_EN p 0⟩
     let d := s.dev
     let up := d.domOn 28 = true
     up ∧ d.on .LNK_SP_CTRL_EN p = false ∧ ¬28 ∈ d.quies) ∧
    (let p : PortId := 1
     let s : State := ⟨[], [], on |>.setDom 28 0 |>.st .LNK_SP_CTRL_EN p 1⟩
     let d := s.dev
     let up := d.domOn 28 = true
     up ∧ d.on .LNK_SP_CTRL_EN p = true) ∧
    (let p : PortId := 1
     let laneB : Bool := false
     let domain : BitVec 16 := 0
     let pos : Fin 16 := 3
     let dev : BitVec 10 := 9
     let s : State := ⟨[], [], on |>.st .LNK_SP_STAT_STATE p 1 |>.st .LNK_LSTAT_BLOCK 12 1 |>.st .LNK_LSTAT_BLOCK 13 1⟩
     let d := s.dev
     let state := d.rg .LNK_SP_STAT_STATE p
     let serves := d.seamLane (10 + 2 * p + b2n laneB) = true
     serves ∧ state = 1 ∧ d.portConflict p domain.toNat pos dev.toNat = false) ∧
    (let p : PortId := 1
     let laneB : Bool := false
     let domain : BitVec 16 := 5
     let s : State := ⟨[], [], on |>.st .LNK_SP_STAT_STATE p 1 |>.st .LNK_LSTAT_BLOCK 12 1 |>.st .LNK_LSTAT_BLOCK 13 1⟩
     let d := s.dev
     let state := d.rg .LNK_SP_STAT_STATE p
     let serves := d.seamLane (10 + 2 * p + b2n laneB) = true
     serves ∧ state = 1 ∧ domain.toNat ≠ d.rg .LNK_SD_CFG_DOMAIN 0) ∧
    (let p : PortId := 1
     let laneB : Bool := false
     let inPhase : Bool := true
     let s : State := ⟨[], [], on |>.st .LNK_SP_STAT_STATE p 3 |>.st .LNK_LSTAT_BLOCK 12 1 |>.st .LNK_LSTAT_BLOCK 13 1⟩
     let d := s.dev
     let state := d.rg .LNK_SP_STAT_STATE p
     let serves := d.seamLane (10 + 2 * p + b2n laneB) = true
     serves ∧ state = 3 ∧ inPhase = true ∧ d.seamLanes p = 2) ∧
    (let p : PortId := 1
     let s : State := ⟨[], [], on |>.st .LNK_SP_STAT_STATE p 1 |>.setPort p { met := true } |>.st .LNK_LSTAT_BLOCK 12 1 |>.st
         .LNK_LSTAT_BLOCK 13 1⟩
     let d := s.dev
     let state := d.rg .LNK_SP_STAT_STATE p
     state = 1 ∧ (d.port p).met = true ∧ d.seamLanes p ≠ 0) ∧
    (let p : PortId := 1
     let s : State := ⟨[], [], on |>.setDom 28 0 |>.st .LNK_SP_CTRL_EN p 1 |>.st .LNK_SP_STAT_STATE p 0⟩
     let d := s.dev
     let up := d.domOn 28 = true
     let state := d.rg .LNK_SP_STAT_STATE p
     up ∧ d.on .LNK_SP_CTRL_EN p = true ∧ state = 0) ∧
    (let p : PortId := 1
     let s : State := ⟨[], [], on |>.setDom 28 0 |>.st .LNK_SP_CTRL_EN p 1 |>.st .LNK_SP_STAT_STATE p 2 |>.st .LNK_LSTAT_BLOCK 12
         1 |>.st .LNK_LSTAT_BLOCK 13 1⟩
     let d := s.dev
     let up := d.domOn 28 = true
     let state := d.rg .LNK_SP_STAT_STATE p
     up ∧ d.on .LNK_SP_CTRL_EN p = true ∧ state = 2 ∧ d.seamLanes p = 2 ∧ (d.seamQ.get? p).getD [] = []) ∧
    (let p : PortId := 1
     let m : SeamMsg := .sew 0 0 1 false 0
     let s : State := ⟨[], [], on |>.setDom 28 0 |>.st .LNK_SP_CTRL_EN p 1 |>.st .LNK_SP_STAT_STATE p 2 |>.st .LNK_LSTAT_BLOCK 12
         1 |>.st .LNK_LSTAT_BLOCK 13 1 |> fun d => { d with seamQ := [(1, [(0, m)])] }⟩
     let d := s.dev
     let up := d.domOn 28 = true
     let state := d.rg .LNK_SP_STAT_STATE p
     up ∧ d.on .LNK_SP_CTRL_EN p = true ∧ state = 2 ∧ d.seamLanes p = 2 ∧ (d.seamQ.get? p).getD [] = [(d.tick, m)]) ∧
    (let p : PortId := 1
     let s : State := ⟨[], [], on |>.setDom 28 0 |>.st .LNK_SP_CTRL_EN p 1 |>.st .LNK_SP_STAT_STATE p 2 |>.st .LNK_LSTAT_BLOCK 12
         1⟩
     let d := s.dev
     let up := d.domOn 28 = true
     let state := d.rg .LNK_SP_STAT_STATE p
     up ∧ d.on .LNK_SP_CTRL_EN p = true ∧ state = 2 ∧ d.seamLanes p = 1) ∧
    (let s : State := ⟨[], [], on |>.setDom 28 0⟩
     let d := s.dev
     let up := d.domOn 28 = true
     up) := by
  refine ⟨?_, ?_, ?_, ?_, ?_, ?_, ?_, ?_, ?_, ?_, ?_⟩
  · dsimp only; decide +kernel
  · dsimp only; decide +kernel
  · dsimp only; decide +kernel
  · dsimp only; decide +kernel
  · dsimp only; decide +kernel
  · dsimp only; decide +kernel
  · dsimp only; decide +kernel
  · dsimp only; decide +kernel
  · dsimp only; decide +kernel
  · dsimp only; decide +kernel
  · dsimp only; decide +kernel

/-- What each clause of `SeamMessages` supposes is met. -/
theorem witness_SeamMessages :
    (let h : SeamHead := ⟨0, 1, 0⟩
     let g : GrpId := 6
     let beat : Fin 64 := 0
     let fail : BitVec 16 := 0
     let mat : BitVec 16 := 0
     let pc : BitVec 16 := 0
     let per : BitVec 40 := 0
     let s : State := ⟨[], [], on |>.setDom 28 0 |>.st .LNK_SP_STAT_STATE h.port 2⟩
     let d := s.dev
     let tie := SeamMsg.tie h.pos h.hops g beat fail.toNat mat.toNat pc.toNat per.toNat
     let open_ := fun (m : SeamMsg) => d.domOn 28 = true ∧ d.rg .LNK_SP_STAT_STATE h.port = 2 ∧ d.seen.any (fun x => x.2.same m)
         = false
     let due := d.beatTick beat + 640000
     open_ tie ∧ d.tick ≤ due) ∧
    (let h : SeamHead := ⟨0, 1, 0⟩
     let g : GrpId := 6
     let beat : Fin 64 := 0
     let cycle : Fin 16 := 0
     let k : TieKind := .host
     let s : State := ⟨[], [], on |>.setDom 28 0 |>.st .LNK_SP_STAT_STATE h.port 2⟩
     let d := s.dev
     let evt := SeamMsg.tieEvt h.pos h.hops g beat cycle k.code k.arg
     let open_ := fun (m : SeamMsg) => d.domOn 28 = true ∧ d.rg .LNK_SP_STAT_STATE h.port = 2 ∧ d.seen.any (fun x => x.2.same m)
         = false
     let due := d.beatTick beat + 640000
     open_ evt ∧ d.tick ≤ due + cycle * 4000) ∧
    (let h : SeamHead := ⟨0, 1, 0⟩
     let ch : Fin 16 := 6
     let at_ : BitVec 80 := 65536000
     let gen : Byte := 0
     let u : AcqId := 5
     let n : Nat := 3
     let s : State := ⟨[], [], on |>.setDom 28 0 |>.st .LNK_SP_STAT_STATE h.port 2 |>.sti .ACQ_COND_CTRL_EN 5 3 1 |>.sti
         .ACQ_COND_CTRL_TYPE 5 3 4 |>.sti .ACQ_COND_CTRL_P0 5 3 6 |>.st .ACQ_STAT_STATE 5 1⟩
     let d := s.dev
     let open_ := fun (m : SeamMsg) => d.domOn 28 = true ∧ d.rg .LNK_SP_STAT_STATE h.port = 2 ∧ d.seen.any (fun x => x.2.same m)
         = false
     open_ (.trig h.pos h.hops ch at_.toNat gen.toNat) ∧ gen.toNat = d.time.gen ∧ d.slotsOf u 4 = [n] ∧ bitsOf (d.slotP0 u
       n) 0 4 = ch ∧ d.rg .ACQ_STAT_STATE u ≠ 0 ∧ ((d.acq u).since : Rat) ≤ d.tickAt at_.toNat ∧ (d.acq u).decided <
       d.grainClose u (d.tickAt at_.toNat) ∧ (d.tick : Rat) ≤ d.grainClose u (d.tickAt at_.toNat) + (d.acq u).delay * 4000) ∧
    (let h : SeamHead := ⟨0, 1, 0⟩
     let tag : Byte := 0
     let veto : Bool := false
     let low : BitVec 36 := 0
     let s : State := ⟨[], [], on |>.setDom 28 0 |>.st .LNK_SP_STAT_STATE h.port 2⟩
     let d := s.dev
     let open_ := fun (m : SeamMsg) => d.domOn 28 = true ∧ d.rg .LNK_SP_STAT_STATE h.port = 2 ∧ d.seen.any (fun x => x.2.same m)
         = false
     let sew := SeamMsg.sew h.pos h.hops tag.toNat veto low.toNat
     open_ sew) ∧
    (let h : SeamHead := ⟨0, 1, 0⟩
     let at_ : BitVec 80 := 0
     let gen : Byte := 0
     let srv : BitVec 10 := 0
     let coarse : Nat := 0
     let q : BitVec 4 := 0
     let corr : BitVec 32 := 0
     let s : State := ⟨[], [], on |>.setDom 28 0 |>.st .LNK_SP_STAT_STATE h.port 2 |>.st .TIME_CTRL_SRC 0 2⟩
     let d := s.dev
     let open_ := fun (m : SeamMsg) => d.domOn 28 = true ∧ d.rg .LNK_SP_STAT_STATE h.port = 2 ∧ d.seen.any (fun x => x.2.same m)
         = false
     let time := SeamMsg.time h.pos h.hops srv.toNat coarse at_.toNat gen.toNat q.toNat (corr.toNat + d.rg .LNK_SP_LAT_LAT
         h.port)
     open_ time ∧ d.rg .TIME_CTRL_SRC 0 = 2 ∧ d.time.server = none) ∧
    (let s : State := ⟨[], [], on |>.setDom 28 2⟩
     let d := s.dev
     d.domOn 28 = false) ∧
    (let h : SeamHead := ⟨0, 1, 0⟩
     let g : GrpId := 6
     let beat : Fin 64 := 0
     let cycle : Fin 16 := 0
     let t0 : Nat := 900
     let e : EngId := 17
     let s : State := ⟨[], [], on |> fun d => { d with tieIn := [(t0, .tieEvt h.pos 0 g beat cycle 3 0)] } |>.st .ENG_TIE_TIED 17
         1 |>.st .ENG_TIE_GROUP 17 6 |>.st .ENG_STAT_STATE 17 2⟩
     let d := s.dev
     d.tieIn = [(t0, .tieEvt h.pos 0 g beat cycle 3 0)] ∧ d.tied e = true ∧ d.grp e = g ∧ d.runs e = true) ∧
    (let h : SeamHead := ⟨0, 1, 0⟩
     let g : GrpId := 6
     let beat : Fin 64 := 0
     let fail : BitVec 16 := 0xFFFF
     let mat : BitVec 16 := 0
     let pc : BitVec 16 := 0
     let per : BitVec 40 := 0
     let t0 : Nat := 256000
     let s : State := ⟨[], [], on |> fun d =>
         { d with tieIn := [(t0, .tie h.pos h.hops g beat fail.toNat mat.toNat pc.toNat per.toNat)] } |> fun d =>
         { d with far := [⟨g, h.pos, 0, false, false⟩] }⟩
     let d := s.dev
     let tie := SeamMsg.tie h.pos h.hops g beat fail.toNat mat.toNat pc.toNat per.toNat
     d.tick ≤ t0 ∧ d.tieIn = [(t0, tie)] ∧ d.far = [⟨g, h.pos, 0, false, false⟩] ∧ d.farQ = [] ∧ d.tieRunning g = [] ∧ bitOf
       fail.toNat (d.beatAt t0).2 = true) := by
  refine ⟨?_, ?_, ?_, ?_, ?_, ?_, ?_, ?_⟩
  · dsimp only; decide +kernel
  · dsimp only; decide +kernel
  · dsimp only; decide +kernel
  · dsimp only; decide +kernel
  · dsimp only; decide +kernel
  · dsimp only; decide +kernel
  · dsimp only; decide +kernel
  · dsimp only; decide +kernel

/-- What each clause of `DramTraining` supposes is met. -/
theorem witness_DramTraining :
    (let p : DramId := 0
     let l : List Sweep := List.replicate 36 ⟨(2 ^ 100 - 1) * 2 ^ 60, (2 ^ 24 - 1) * 2 ^ 3, 0⟩
     let t₀ : Train := ⟨1, false, true⟩
     let s : State := ⟨[], [], on |>.st .DRC_STAT_STATE p 2 |>.modDrc p (fun z => { z with train := some t₀ }) |>.st
         .HOST_READY_THIMBLE 0 1 |>.modDrc p (fun z => { z with zero := false }) |>.st .DRC_STAT_STATE 0 2 |>.st .DRC_CFG_POP 0 1
         |>.st .DRC_CFG_DENS 0 1 |>.st .HOST_READY_THIMBLE 0 1 |>.modDrc 0 (fun z => { z with train := some t₀, zero := false })⟩
     let d := s.dev
     let x := d.drc p
     let state := d.rg .DRC_STAT_STATE p
     let eyes := ((d.groups p).zip l).map (fun x => (x.1, eyeOf x.2.rd.toNat 0 512, eyeOf x.2.wr.toNat 0 512))
     let wide := ∀ x ∈ eyes, 24 ≤ x.2.1.1 ∧ 24 ≤ x.2.2.1
     let trains := state = 2 ∧ x.train = some t₀ ∧ l.length = (d.groups p).length
     let opens := d.on .HOST_READY_THIMBLE 0 = true ∧ x.zero = false
     trains ∧ wide ∧ opens ∧ t₀.both = false ∧ t₀.fsp < 2) ∧
    (let p : DramId := 0
     let l : List Sweep := List.replicate 36 ⟨(2 ^ 100 - 1) * 2 ^ 60, (2 ^ 23 - 1) * 2 ^ 3, 0⟩
     let t₀ : Train := ⟨0, false, false⟩
     let s : State := ⟨[], [], on |>.st .DRC_STAT_STATE p 2 |>.modDrc p (fun z => { z with train := some t₀ }) |>.st
         .DRC_STAT_STATE 0 2 |>.st .DRC_CFG_POP 0 1 |>.st .DRC_CFG_DENS 0 1 |>.st .HOST_READY_THIMBLE 0 1 |>.modDrc 0 (fun z =>
         { z with train := some t₀ })⟩
     let d := s.dev
     let x := d.drc p
     let state := d.rg .DRC_STAT_STATE p
     let eyes := ((d.groups p).zip l).map (fun x => (x.1, eyeOf x.2.rd.toNat 0 512, eyeOf x.2.wr.toNat 0 512))
     let wide := ∀ x ∈ eyes, 24 ≤ x.2.1.1 ∧ 24 ≤ x.2.2.1
     let trains := state = 2 ∧ x.train = some t₀ ∧ l.length = (d.groups p).length
     trains ∧ ¬wide) ∧
    (let p : DramId := 0
     let s : State := ⟨[], [], on |>.modDrc p (fun z => { z with train := none })⟩
     let d := s.dev
     let x := d.drc p
     x.train = none) ∧
    (let p : DramId := 0
     let s : State := ⟨[], [], on |>.setDom (30 + p.val) 0 |>.modDrc p (fun z => { z with retrain := true }) |>.st
         .DRC_STAT_STATE p 3⟩
     let d := s.dev
     let up := d.domOn (30 + p.val) = true
     let x := d.drc p
     let state := d.rg .DRC_STAT_STATE p
     up ∧ x.retrain = true ∧ state = 3 ∧ d.anyPanic p = false) ∧
    (let p : DramId := 0
     let s : State := ⟨[], [], on |>.setDom (30 + p.val) 0 |>.modDrc p (fun z => { z with retrain := true }) |>.st
         .DRC_STAT_STATE p 3 |>.st .DRC_STAT_STATE 0 3 |>.st .HOST_READY_THIMBLE 0 1 |>.st .DRC_CFG_POP 0 1 |>.st .DRC_CFG_DENS 0 1
         |>.st .ENG_STAT_STATE 17 2 |>.st .ENG_STR_LEN_LEN 17 4096 |>.st .ENG_STR_CTRL_PANIC 17 4 |>.st .ENG_STR_LEN_LEN 17 4096⟩
     let d := s.dev
     let up := d.domOn (30 + p.val) = true
     let x := d.drc p
     let state := d.rg .DRC_STAT_STATE p
     up ∧ x.retrain = true ∧ state = 3 ∧ d.anyPanic p = true) ∧
    (let p : DramId := 0
     let l : List Sweep := []
     let c : CmdRun := ⟨1, [4, 0, 0, 0], none⟩
     let s : State := ⟨[], [], on |>.setDom (30 + p.val) 0 |>.modDrc p (fun z => { z with retrain := true }) |>.st
         .DRC_STAT_STATE p 3 |> fun d => { d with cmd := some c } |>.st .DRC_STAT_RETRAIN 0 1⟩
     let d := s.dev
     let up := d.domOn (30 + p.val) = true
     let x := d.drc p
     let state := d.rg .DRC_STAT_STATE p
     up ∧ x.retrain = true ∧ state = 3 ∧ d.anyPanic p = false ∧ d.cmd = some c ∧ l.length < (d.groups p).length) ∧
    (let p : DramId := 0
     let k : BitVec 1 := 1
     let s : State := ⟨[], [], on |>.setDom (30 + p.val) 0 |>.st .DRC_CFG_INTLV 0 0⟩
     let d := s.dev
     let up := d.domOn (30 + p.val) = true
     let alone := d.on .DRC_CFG_INTLV 0 = false
     up ∧ alone ∧ d.fspNow p ≠ k.toNat) ∧
    (let p : DramId := 0
     let s : State := ⟨[], [], on |>.setDom 30 2⟩
     let d := s.dev
     let up := d.domOn (30 + p.val) = true
     ¬up) ∧
    (let p : DramId := 0
     let k : BitVec 1 := 1
     let s : State := ⟨[], [], on |>.setDom (30 + p.val) 0 |>.st .DRC_CFG_INTLV 0 0 |>.modDrc p (fun z =>
         { z with want := some k.toNat }) |>.modDrc p (fun z => { z with retrain := false }) |>.st .DRC_STAT_STATE p 3 |>.st
         .DRC_FSP_FORCE p 1⟩
     let d := s.dev
     let up := d.domOn (30 + p.val) = true
     let x := d.drc p
     let state := d.rg .DRC_STAT_STATE p
     let alone := d.on .DRC_CFG_INTLV 0 = false
     up ∧ alone ∧ x.want = some k.toNat ∧ x.retrain = false ∧ state = 3 ∧ d.rg .DRC_STAT_FSP p ≠ k.toNat ∧ ((d.on
       .DRC_FSP_FORCE p = true ∨ d.rtActive p = false))) ∧
    (let p : DramId := 0
     let k : BitVec 1 := 0
     let s : State := ⟨[], [], on |>.setDom (30 + p.val) 0 |>.st .DRC_CFG_INTLV 0 0 |>.modDrc p (fun z =>
         { z with want := some k.toNat }) |>.st .DRC_FSP_FORCE p 0 |>.st .ENG_STAT_STATE 17 2 |>.st .ENG_STR_LEN_LEN 17 4096 |>.st
         .DRC_STAT_STATE 0 3 |>.st .HOST_READY_THIMBLE 0 1 |>.st .DRC_CFG_POP 0 1 |>.st .DRC_CFG_DENS 0 1⟩
     let d := s.dev
     let up := d.domOn (30 + p.val) = true
     let x := d.drc p
     let alone := d.on .DRC_CFG_INTLV 0 = false
     up ∧ alone ∧ x.want = some k.toNat ∧ d.on .DRC_FSP_FORCE p = false ∧ d.rtActive p = true) ∧
    (let p : DramId := 0
     let k : BitVec 1 := 1
     let s : State := ⟨[], [], on |>.setDom (30 + p.val) 0 |>.st .HOST_READY_THIMBLE 0 1 |>.modDrc p (fun z =>
         { z with zero := false }) |>.modDrc p (fun z => { z with goes := some k.toNat }) |>.modDrc p (fun z =>
         { z with wait := none }) |>.st .DRC_STAT_STATE p 4 |>.st .HOST_READY_THIMBLE 0 1 |>.st .DRC_FSP_VALID1 0 1 |>.modDrc 0
         (fun z => { z with zero := false })⟩
     let d := s.dev
     let up := d.domOn (30 + p.val) = true
     let x := d.drc p
     let state := d.rg .DRC_STAT_STATE p
     let opens := d.on .HOST_READY_THIMBLE 0 = true ∧ x.zero = false
     let valid := fun (d : Dev) => d.rg (if k = 0 then .DRC_FSP_VALID0 else .DRC_FSP_VALID1) p
     up ∧ opens ∧ x.goes = some k.toNat ∧ x.wait = none ∧ state = 4 ∧ valid d = 1) ∧
    (let p : DramId := 0
     let k : BitVec 1 := 0
     let s : State := ⟨[], [], on |>.setDom (30 + p.val) 0 |>.modDrc p (fun z => { z with goes := some k.toNat }) |>.st
         .DRC_STAT_STATE p 4⟩
     let d := s.dev
     let up := d.domOn (30 + p.val) = true
     let x := d.drc p
     let state := d.rg .DRC_STAT_STATE p
     let valid := fun (d : Dev) => d.rg (if k = 0 then .DRC_FSP_VALID0 else .DRC_FSP_VALID1) p
     up ∧ x.goes = some k.toNat ∧ state = 4 ∧ valid d = 0) := by
  refine ⟨?_, ?_, ?_, ?_, ?_, ?_, ?_, ?_, ?_, ?_, ?_, ?_⟩
  · dsimp only; decide +kernel
  · dsimp only; decide +kernel
  · dsimp only; decide +kernel
  · dsimp only; decide +kernel
  · dsimp only; decide +kernel
  · dsimp only; decide +kernel
  · dsimp only; decide +kernel
  · dsimp only; decide +kernel
  · dsimp only; decide +kernel
  · dsimp only; decide +kernel
  · dsimp only; decide +kernel
  · dsimp only; decide +kernel

/-- What each clause of `DramUpkeep` supposes is met. -/
theorem witness_DramUpkeep :
    (let p : DramId := 0
     let s : State := ⟨[], [], on |>.setDom (30 + p.val) 0 |>.st .DRC_STAT_STATE p 3⟩
     let d := s.dev
     let ready := d.domOn (30 + p.val) = true ∧ d.rg .DRC_STAT_STATE p = 3
     ready) ∧
    (let p : DramId := 0
     let s : State := ⟨[], [], on |>.setDom (30 + p.val) 0 |>.st .DRC_STAT_STATE p 3⟩
     let d := s.dev
     let x := d.drc p
     let ready := d.domOn (30 + p.val) = true ∧ d.rg .DRC_STAT_STATE p = 3
     ready ∧ x.cool + 1 < 4) ∧
    (let p : DramId := 0
     let s : State := ⟨[], [], on |>.setDom (30 + p.val) 0 |>.st .DRC_STAT_STATE p 3 |>.modDrc 0 (fun z => { z with cool := 3 })
         |>.st .DRC_STAT_HOT 0 1⟩
     let d := s.dev
     let x := d.drc p
     let ready := d.domOn (30 + p.val) = true ∧ d.rg .DRC_STAT_STATE p = 3
     ready ∧ 4 ≤ x.cool + 1) ∧
    (let p : DramId := 0
     let rank : Fin 2 := 0
     let s : State := ⟨[], [], on |>.setDom (30 + p.val) 0 |>.st .DRC_STAT_STATE p 3⟩
     let d := s.dev
     let ready := d.domOn (30 + p.val) = true ∧ d.rg .DRC_STAT_STATE p = 3
     let here := rank.val ≤ d.rg .DRC_CFG_RANKS p
     ready ∧ here ∧ d.bgGoes p .zq = true) ∧
    (let p : DramId := 0
     let rank : Fin 2 := 0
     let corr : List Int := [2, -70]
     let s : State := ⟨[], [], on |>.setDom (30 + p.val) 0 |>.st .DRC_STAT_STATE p 3 |>.st .DRC_TRK_LIMIT 0 60⟩
     let d := s.dev
     let ready := d.domOn (30 + p.val) = true ∧ d.rg .DRC_STAT_STATE p = 3
     let here := rank.val ≤ d.rg .DRC_CFG_RANKS p
     ready ∧ here ∧ d.bgGoes p .tracking = true ∧ corr.length ≤ 36 ∧ ((∃ v ∈ corr, d.rg .DRC_TRK_LIMIT p < v.natAbs))) ∧
    (let p : DramId := 0
     let rank : Fin 2 := 0
     let corr : List Int := []
     let s : State := ⟨[], [], on |>.setDom (30 + p.val) 0 |>.st .DRC_STAT_STATE p 3 |>.modDrc p (fun z =>
         { z with corr := [] })⟩
     let d := s.dev
     let x := d.drc p
     let ready := d.domOn (30 + p.val) = true ∧ d.rg .DRC_STAT_STATE p = 3
     let here := rank.val ≤ d.rg .DRC_CFG_RANKS p
     ready ∧ here ∧ d.bgGoes p .tracking = true ∧ x.corr = [] ∧ corr = []) ∧
    (let p : DramId := 0
     let rank : Fin 2 := 0
     let s : State := ⟨[], [], on |>.setDom (30 + p.val) 0 |>.st .DRC_STAT_STATE p 3⟩
     let d := s.dev
     let ready := d.domOn (30 + p.val) = true ∧ d.rg .DRC_STAT_STATE p = 3
     let here := rank.val ≤ d.rg .DRC_CFG_RANKS p
     ready ∧ here) ∧
    (let p : DramId := 0
     let rank : Fin 2 := 0
     let s : State := ⟨[], [], on |>.setDom (30 + p.val) 0 |>.st .DRC_STAT_STATE p 3⟩
     let d := s.dev
     let x := d.drc p
     let ready := d.domOn (30 + p.val) = true ∧ d.rg .DRC_STAT_STATE p = 3
     let here := rank.val ≤ d.rg .DRC_CFG_RANKS p
     let r := rank.val
     ready ∧ here ∧ r ∉ x.urgent) ∧
    (let p : DramId := 0
     let s : State := ⟨[], [], on |>.setDom (30 + p.val) 0 |>.st .DRC_STAT_STATE p 3 |> fun d => { d with errs := [] } |>.st
         .DRC_STAT_STATE 0 3 |>.st .HOST_READY_THIMBLE 0 1 |>.st .DRC_CFG_POP 0 1 |>.st .DRC_CFG_DENS 0 1⟩
     let d := s.dev
     let ready := d.domOn (30 + p.val) = true ∧ d.rg .DRC_STAT_STATE p = 3
     ready ∧ d.portLines p ≠ 0 ∧ d.scrubGoes p = true ∧ d.errs = []) := by
  refine ⟨?_, ?_, ?_, ?_, ?_, ?_, ?_, ?_, ?_⟩
  · dsimp only; decide +kernel
  · dsimp only; decide +kernel
  · dsimp only; decide +kernel
  · dsimp only; decide +kernel
  · dsimp only; decide +kernel
  · dsimp only; decide +kernel
  · dsimp only; decide +kernel
  · dsimp only; decide +kernel
  · dsimp only; decide +kernel

/-- What each clause of `DramTraffic` supposes is met. -/
theorem witness_DramTraffic :
    (let src : DramSrc := .dma 3
     let line : BitVec 30 := 5
     let s : State := ⟨[], [], on |>.st .DRC_STAT_STATE 0 3 |>.st .HOST_READY_THIMBLE 0 1 |>.st .DRC_CFG_POP 0 1 |>.st
         .DRC_CFG_DENS 0 1 |>.sti .SEC_REG_CTRL_ACTIVE 0 3 1 |>.sti .SEC_REG_BASE_LINE 0 3 4 |>.sti .SEC_REG_CTRL_LINES 0 3 2⟩
     let d := s.dev
     let n := line.toNat
     dramGuarded src = true ∧ d.sealed n = true) ∧
    (let p : DramId := 0
     let src : DramSrc := .host
     let line : BitVec 30 := 5
     let q : Nat := 5
     let s : State := ⟨[], [], on |>.st .DRC_STAT_STATE 0 3 |>.st .HOST_READY_THIMBLE 0 1 |>.st .DRC_CFG_POP 0 1 |>.st
         .DRC_CFG_DENS 0 1⟩
     let d := s.dev
     let x := d.drc p
     let n := line.toNat
     let passes := (dramGuarded src && d.sealed n) = false
     let queued := x.writes.any (·.line == n) = true
     passes ∧ d.lineAt n = some (p.val, q) ∧ d.dramPath n = .served ∧ d.unzeroed n = false ∧ ¬queued ∧ x.reads.length < 128) ∧
    (let p : DramId := 0
     let src : DramSrc := .host
     let line : BitVec 30 := 5
     let q : Nat := 5
     let r : DramReq := ⟨0, .host, 5, false, 0⟩
     let s : State := ⟨[], [], on |>.st .DRC_STAT_STATE 0 3 |>.st .HOST_READY_THIMBLE 0 1 |>.st .DRC_CFG_POP 0 1 |>.st
         .DRC_CFG_DENS 0 1 |>.modDrc 0 (fun z => { z with reads := List.replicate 128 r })⟩
     let d := s.dev
     let x := d.drc p
     let n := line.toNat
     let passes := (dramGuarded src && d.sealed n) = false
     let queued := x.writes.any (·.line == n) = true
     passes ∧ d.lineAt n = some (p.val, q) ∧ d.dramPath n = .served ∧ d.unzeroed n = false ∧ ¬queued ∧ 128 ≤ x.reads.length) ∧
    (let p : DramId := 0
     let src : DramSrc := .host
     let line : BitVec 30 := 5
     let off : Byte := 240
     let data : List Byte := List.replicate 16 9
     let q : Nat := 5
     let s : State := ⟨[], [], on |>.st .DRC_STAT_STATE 0 3 |>.st .HOST_READY_THIMBLE 0 1 |>.st .DRC_CFG_POP 0 1 |>.st
         .DRC_CFG_DENS 0 1 |> fun d => { d with errs := [] }⟩
     let d := s.dev
     let x := d.drc p
     let n := line.toNat
     let passes := (dramGuarded src && d.sealed n) = false
     s.wf ∧ passes ∧ d.lineAt n = some (p.val, q) ∧ d.writePath n = .served ∧ x.writes.length < 64 ∧ d.awgGuard n = none ∧
       d.unzeroed n = false ∧ d.errs = [] ∧ off.toNat % 16 = 0 ∧ data.length = 16) ∧
    (let p : DramId := 0
     let src : DramSrc := .host
     let line : BitVec 30 := 5
     let q : Nat := 5
     let r : DramReq := ⟨0, .host, 5, false, 0⟩
     let s : State := ⟨[], [], on |>.st .DRC_STAT_STATE 0 3 |>.st .HOST_READY_THIMBLE 0 1 |>.st .DRC_CFG_POP 0 1 |>.st
         .DRC_CFG_DENS 0 1 |>.modDrc 0 (fun z => { z with writes := List.replicate 64 r })⟩
     let d := s.dev
     let x := d.drc p
     let n := line.toNat
     let passes := (dramGuarded src && d.sealed n) = false
     passes ∧ d.lineAt n = some (p.val, q) ∧ d.writePath n = .served ∧ 64 ≤ x.writes.length) ∧
    (let p : DramId := 0
     let src : DramSrc := .host
     let line : BitVec 30 := 5
     let q : Nat := 5
     let s : State := ⟨[], [], on |>.st .DRC_STAT_STATE 0 3 |>.st .HOST_READY_THIMBLE 0 1 |>.st .DRC_CFG_POP 0 1 |>.st
         .DRC_CFG_DENS 0 1 |> fun d => { d with errs := [] } |> fun d => { d with poison := [] } |>.modDrc 0 (fun z =>
         { z with writes := [⟨0, .host, 5, true, 0⟩] })⟩
     let d := s.dev
     let x := d.drc p
     let n := line.toNat
     let passes := (dramGuarded src && d.sealed n) = false
     let queued := x.writes.any (·.line == n) = true
     passes ∧ d.lineAt n = some (p.val, q) ∧ d.dramPath n = .served ∧ d.unzeroed n = false ∧ queued ∧ d.errs = [] ∧ d.poison
       = []) ∧
    (let src : DramSrc := .host
     let line : BitVec 30 := 5
     let s : State := ⟨[], [], on |>.st .DRC_STAT_STATE 0 3 |>.st .HOST_READY_THIMBLE 0 1 |>.st .DRC_CFG_POP 0 1 |>.st
         .DRC_CFG_DENS 0 1 |>.st .DRC_ZERO_ACTIVE 0 1⟩
     let d := s.dev
     let n := line.toNat
     let passes := (dramGuarded src && d.sealed n) = false
     passes ∧ d.dramPath n = .served ∧ d.unzeroed n = true) ∧
    (let src : DramSrc := .host
     let line : BitVec 30 := 5
     let s : State := ⟨[], [], on |>.st .DRC_STAT_STATE 0 3 |>.st .HOST_READY_THIMBLE 0 1 |>.st .DRC_CFG_POP 0 1 |>.st
         .DRC_CFG_DENS 0 1 |>.st .DRC_STAT_STATE 0 4⟩
     let d := s.dev
     let n := line.toNat
     let passes := (dramGuarded src && d.sealed n) = false
     passes ∧ d.dramPath n = .waits) ∧
    (let src : DramSrc := .host
     let line : BitVec 30 := 2 ^ 29
     let s : State := ⟨[], [], on |>.st .DRC_STAT_STATE 0 3 |>.st .HOST_READY_THIMBLE 0 1 |>.st .DRC_CFG_POP 0 1 |>.st
         .DRC_CFG_DENS 0 1⟩
     let d := s.dev
     let n := line.toNat
     let passes := (dramGuarded src && d.sealed n) = false
     passes ∧ d.lineAt n = none) ∧
    (let p : DramId := 0
     let k : Nat := 0
     let s : State := ⟨[], [], on |>.st .DRC_STAT_STATE 0 3 |>.st .HOST_READY_THIMBLE 0 1 |>.st .DRC_CFG_POP 0 1 |>.st
         .DRC_CFG_DENS 0 1 |>.setDom (30 + p.val) 0 |>.st .DRC_STAT_STATE p 3 |>.modDrc p (fun z => { z with urgent := [k] }) |>
         fun d => { d with tick := 4 * 15600000 }⟩
     let d := s.dev
     let x := d.drc p
     let ready := d.domOn (30 + p.val) = true ∧ d.rg .DRC_STAT_STATE p = 3
     ready ∧ x.urgent = [k] ∧ 4 * d.trefi p ≤ d.debt p k) ∧
    (let p : DramId := 0
     let k : Nat := 0
     let s : State := ⟨[], [], on |>.st .DRC_STAT_STATE 0 3 |>.st .HOST_READY_THIMBLE 0 1 |>.st .DRC_CFG_POP 0 1 |>.st
         .DRC_CFG_DENS 0 1 |>.setDom (30 + p.val) 0 |>.st .DRC_STAT_STATE p 3 |>.modDrc p (fun z => { z with urgent := [] })
         |>.modDrc p (fun z => { z with due := [k] }) |>.modDrc p (fun z => { z with reads := [] }) |>.modDrc p (fun z =>
         { z with writes := [] }) |> fun d => { d with tick := 15600000 }⟩
     let d := s.dev
     let x := d.drc p
     let ready := d.domOn (30 + p.val) = true ∧ d.rg .DRC_STAT_STATE p = 3
     ready ∧ x.urgent = [] ∧ x.due = [k] ∧ x.reads = [] ∧ x.writes = [] ∧ d.trefi p ≤ d.debt p k) ∧
    (let p : DramId := 0
     let r : DramReq := ⟨0, .host, 5, false, 0⟩
     let s : State := ⟨[], [], on |>.st .DRC_STAT_STATE 0 3 |>.st .HOST_READY_THIMBLE 0 1 |>.st .DRC_CFG_POP 0 1 |>.st
         .DRC_CFG_DENS 0 1 |>.setDom (30 + p.val) 0 |>.st .DRC_STAT_STATE p 3 |>.modDrc p (fun z => { z with urgent := [] })
         |>.modDrc p (fun z => { z with due := [] }) |>.modDrc p (fun z => { z with reads := [r] }) |>.modDrc p (fun z =>
         { z with writes := [] }) |>.modDrc p (fun z => { z with promo := [] })⟩
     let d := s.dev
     let x := d.drc p
     let ready := d.domOn (30 + p.val) = true ∧ d.rg .DRC_STAT_STATE p = 3
     ready ∧ x.urgent = [] ∧ x.due = [] ∧ x.reads = [r] ∧ x.writes = [] ∧ x.promo = [] ∧ r.write = false) ∧
    (let p : DramId := 0
     let r : DramReq := ⟨0, .host, 5, true, 0⟩
     let s : State := ⟨[], [], on |>.st .DRC_STAT_STATE 0 3 |>.st .HOST_READY_THIMBLE 0 1 |>.st .DRC_CFG_POP 0 1 |>.st
         .DRC_CFG_DENS 0 1 |>.setDom (30 + p.val) 0 |>.st .DRC_STAT_STATE p 3 |>.modDrc p (fun z => { z with urgent := [] })
         |>.modDrc p (fun z => { z with due := [] }) |>.modDrc p (fun z => { z with reads := [] }) |>.modDrc p (fun z =>
         { z with writes := [r] }) |>.modDrc p (fun z => { z with promo := [] })⟩
     let d := s.dev
     let x := d.drc p
     let ready := d.domOn (30 + p.val) = true ∧ d.rg .DRC_STAT_STATE p = 3
     ready ∧ x.urgent = [] ∧ x.due = [] ∧ x.reads = [] ∧ x.writes = [r] ∧ x.promo = [] ∧ r.write = true) ∧
    (let p : DramId := 0
     let r : DramReq := ⟨0, .host, 5, false, 0⟩
     let s : State := ⟨[], [], on |>.st .DRC_STAT_STATE 0 3 |>.st .HOST_READY_THIMBLE 0 1 |>.st .DRC_CFG_POP 0 1 |>.st
         .DRC_CFG_DENS 0 1 |>.setDom (30 + p.val) 0 |>.st .DRC_STAT_STATE p 3 |>.modDrc p (fun z => { z with flight := [r] }) |>
         fun d => { d with errs := [] } |> fun d => { d with poison := [] }⟩
     let d := s.dev
     let x := d.drc p
     let ready := d.domOn (30 + p.val) = true ∧ d.rg .DRC_STAT_STATE p = 3
     ready ∧ x.flight = [r] ∧ d.dramPath r.line = .served ∧ d.unzeroed r.line = false ∧ d.errs = [] ∧ d.poison = []) ∧
    (let p : DramId := 0
     let q : Nat := 0
     let s : State := ⟨[], memWrite [] (dramBase + 250) [1, 2, 3, 4, 5, 6, 7, 8], on |>.st .DRC_STAT_STATE 0 3 |>.st
         .HOST_READY_THIMBLE 0 1 |>.st .DRC_CFG_POP 0 1 |>.st .DRC_CFG_DENS 0 1 |>.setDom (30 + p.val) 0 |>.st .DRC_STAT_STATE p 3
         |>.st .DRC_ZERO_ACTIVE p 1 |> fun d => { d with ahead := [] }⟩
     let d := s.dev
     let ready := d.domOn (30 + p.val) = true ∧ d.rg .DRC_STAT_STATE p = 3
     let wm := max (d.rg .DRC_ZERO_WM p) (d.sysLine p 0)
     s.wf ∧ ready ∧ d.bgIdle p = true ∧ d.on .DRC_ZERO_ACTIVE p = true ∧ d.lineAt wm = some (p.val, q) ∧ d.ahead = []) := by
  refine ⟨?_, ?_, ?_, ?_, ?_, ?_, ?_, ?_, ?_, ?_, ?_, ?_, ?_, ?_, ?_⟩
  · dsimp only; decide +kernel
  · dsimp only; decide +kernel
  · dsimp only; decide +kernel
  · dsimp only; decide +kernel
  · dsimp only; decide +kernel
  · dsimp only; decide +kernel
  · dsimp only; decide +kernel
  · dsimp only; decide +kernel
  · dsimp only; decide +kernel
  · dsimp only; decide +kernel
  · dsimp only; decide +kernel
  · dsimp only; decide +kernel
  · dsimp only; decide +kernel
  · dsimp only; decide +kernel
  · dsimp only; decide +kernel

/-- What each clause of `CommandPort` supposes is met. -/
theorem witness_CommandPort :
    (let s : State := ⟨[], [], on |>.setDom 1 2 |>.setDom 1 2⟩
     let d := s.dev
     d.domOn 1 = false) ∧
    (let s : State := ⟨[], [], on |>.setDom 1 0 |>.st .CMD_STAT_BUSY 0 1⟩
     let d := s.dev
     d.domOn 1 = true ∧ d.on .CMD_STAT_BUSY 0 = true) ∧
    (let s : State := ⟨[], [], on |>.setDom 1 0 |>.st .CMD_STAT_BUSY 0 0 |> fun d => { d with errs := [] } |> fun d =>
         { d with poison := [] } |>.st .SEW_MODE_MODE 0 5⟩
     let d := s.dev
     let ready := d.domOn 1 = true ∧ d.on .CMD_STAT_BUSY 0 = false
     ready ∧ 1 ∉ d.quies ∧ d.errs = [] ∧ d.poison = [] ∧ d.locked = true) ∧
    (let a0 : Word := 8
     let s : State := ⟨[], [], on |>.setDom 1 0 |>.st .CMD_STAT_BUSY 0 0 |> fun d => { d with errs := [] } |> fun d =>
         { d with poison := [] }⟩
     let d := s.dev
     let n := a0.toNat
     let ready := d.domOn 1 = true ∧ d.on .CMD_STAT_BUSY 0 = false
     let takes := ready ∧ 1 ∉ d.quies ∧ d.errs = [] ∧ d.poison = [] ∧ d.locked = false
     takes ∧ 8 ≤ n) ∧
    (let a0 : Word := 1
     let s : State := ⟨[], [], on |>.setDom 31 2⟩
     let d := s.dev
     let n := a0.toNat
     let ready := d.domOn 1 = true ∧ d.on .CMD_STAT_BUSY 0 = false
     let takes := ready ∧ 1 ∉ d.quies ∧ d.errs = [] ∧ d.poison = [] ∧ d.locked = false
     let p := n % 2
     takes ∧ n < 8 ∧ d.domOn (30 + p) = false) ∧
    (let a0 : Word := 2
     let s : State := ⟨[], [], on |>.st .DRC_STAT_STATE 0 1⟩
     let d := s.dev
     let n := a0.toNat
     let ready := d.domOn 1 = true ∧ d.on .CMD_STAT_BUSY 0 = false
     let takes := ready ∧ 1 ∉ d.quies ∧ d.errs = [] ∧ d.poison = [] ∧ d.locked = false
     let p := n % 2
     let st := d.rg .DRC_STAT_STATE p
     takes ∧ n < 4 ∧ d.domOn (30 + p) = true ∧ st = 1 ∧ (d.drc p).retrain = false ∧ d.on .DRC_STAT_CFGERR p = false) ∧
    (let a0 : Word := 5
     let s : State := ⟨[], [], on |>.st .DRC_STAT_STATE 1 3⟩
     let d := s.dev
     let n := a0.toNat
     let ready := d.domOn 1 = true ∧ d.on .CMD_STAT_BUSY 0 = false
     let takes := ready ∧ 1 ∉ d.quies ∧ d.errs = [] ∧ d.poison = [] ∧ d.locked = false
     let p := n % 2
     let st := d.rg .DRC_STAT_STATE p
     takes ∧ 4 ≤ n ∧ n < 8 ∧ d.domOn (30 + p) = true ∧ st = 3 ∧ (d.drc p).retrain = false ∧ d.on .DRC_STAT_CFGERR p = false) ∧
    (let a0 : Word := 0
     let a1 : Word := 0
     let k := 3
     let s : State := ⟨[], [], on |>.setDom 1 0 |>.st .CMD_STAT_BUSY 0 0 |> fun d => { d with errs := [] } |> fun d =>
         { d with poison := [] }⟩
     let d := s.dev
     let n := a0.toNat
     let m := a1.toNat
     let ready := d.domOn 1 = true ∧ d.on .CMD_STAT_BUSY 0 = false
     let takes := ready ∧ 1 ∉ d.quies ∧ d.errs = [] ∧ d.poison = [] ∧ d.locked = false
     takes ∧ d.calRefused n m 0 0 = some k) ∧
    (let a0 : Word := 0x4000002000
     let a1 : Word := 0
     let s : State := ⟨[], [], on |>.setDom 1 0 |>.st .CMD_STAT_BUSY 0 0 |> fun d => { d with errs := [] } |> fun d =>
         { d with poison := [] }⟩
     let d := s.dev
     let n := a0.toNat
     let m := a1.toNat
     let ready := d.domOn 1 = true ∧ d.on .CMD_STAT_BUSY 0 = false
     let takes := ready ∧ 1 ∉ d.quies ∧ d.errs = [] ∧ d.poison = [] ∧ d.locked = false
     takes ∧ d.calRefused n m 0 0 = none) ∧
    (let a0 : Word := 3
     let s : State := ⟨[], [], on |>.setDom 1 0 |>.st .CMD_STAT_BUSY 0 0 |> fun d => { d with errs := [] } |> fun d =>
         { d with poison := [] }⟩
     let d := s.dev
     let n := a0.toNat
     let ready := d.domOn 1 = true ∧ d.on .CMD_STAT_BUSY 0 = false
     let takes := ready ∧ 1 ∉ d.quies ∧ d.errs = [] ∧ d.poison = [] ∧ d.locked = false
     takes ∧ 2 < n) ∧
    (let a0 : Word := 1
     let s : State := ⟨[], [], on |>.setDom 1 0 |>.st .CMD_STAT_BUSY 0 0 |> fun d => { d with errs := [] } |> fun d =>
         { d with poison := [] } |>.st .ENG_STAT_STATE 17 2⟩
     let d := s.dev
     let n := a0.toNat
     let ready := d.domOn 1 = true ∧ d.on .CMD_STAT_BUSY 0 = false
     let takes := ready ∧ 1 ∉ d.quies ∧ d.errs = [] ∧ d.poison = [] ∧ d.locked = false
     takes ∧ n ≤ 2 ∧ d.quietDevice = false) ∧
    (let a0 : Word := 2
     let s : State := ⟨[], memWrite [] dramBase [1, 2], on |>.setDom 1 0 |>.st .CMD_STAT_BUSY 0 0 |> fun d =>
         { d with errs := [] } |> fun d => { d with poison := [] }⟩
     let d := s.dev
     let n := a0.toNat
     let ready := d.domOn 1 = true ∧ d.on .CMD_STAT_BUSY 0 = false
     let takes := ready ∧ 1 ∉ d.quies ∧ d.errs = [] ∧ d.poison = [] ∧ d.locked = false
     takes ∧ s.wf ∧ n ≤ 2 ∧ d.quietDevice = true) ∧
    (let s : State := ⟨[], [], on |>.setDom 1 0 |>.st .CMD_STAT_BUSY 0 0 |> fun d => { d with errs := [] } |> fun d =>
         { d with poison := [] } |>.st .SEW_MODE_MODE 0 0⟩
     let d := s.dev
     let ready := d.domOn 1 = true ∧ d.on .CMD_STAT_BUSY 0 = false
     let takes := ready ∧ 1 ∉ d.quies ∧ d.errs = [] ∧ d.poison = [] ∧ d.locked = false
     takes ∧ ((∀ e, (d.eng e).storeErr = [])) ∧ ((∀ e, d.estate e = 0)) ∧ ((∀ e, d.on .ENG_MC_STAT_IDERR e = false))) ∧
    (let a0 : Word := 4096
     let s : State := ⟨[], [], on |>.setDom 1 0 |>.st .CMD_STAT_BUSY 0 0 |> fun d => { d with errs := [] } |> fun d =>
         { d with poison := [] }⟩
     let d := s.dev
     let n := a0.toNat
     let ready := d.domOn 1 = true ∧ d.on .CMD_STAT_BUSY 0 = false
     let takes := ready ∧ 1 ∉ d.quies ∧ d.errs = [] ∧ d.poison = [] ∧ d.locked = false
     takes ∧ 4096 ≤ n) ∧
    (let a0 : Word := 185
     let l : List Byte := List.replicate 185 3
     let s : State := ⟨[], [], on |>.setDom 1 0 |>.st .CMD_STAT_BUSY 0 0 |> fun d => { d with errs := [] } |> fun d =>
         { d with poison := [] }⟩
     let d := s.dev
     let n := a0.toNat
     let ready := d.domOn 1 = true ∧ d.on .CMD_STAT_BUSY 0 = false
     let takes := ready ∧ 1 ∉ d.quies ∧ d.errs = [] ∧ d.poison = [] ∧ d.locked = false
     takes ∧ s.wf ∧ n = 185 ∧ l.length = 185 ∧ (l.getD 0 0).toNat < 16 ∧ d.thim.slots.get? (l.getD 0 0).toNat = none ∧ d.lc
       ≠ 1 ∧ d.lc ≠ 2) ∧
    (let a0 : Word := 185
     let l : List Byte := List.replicate 185 3
     let s : State := ⟨[], [], on |>.setDom 1 0 |>.st .CMD_STAT_BUSY 0 0 |> fun d => { d with errs := [] } |> fun d =>
         { d with poison := [] } |>.st .SEC_LC_STATE 0 1⟩
     let d := s.dev
     let n := a0.toNat
     let ready := d.domOn 1 = true ∧ d.on .CMD_STAT_BUSY 0 = false
     let takes := ready ∧ 1 ∉ d.quies ∧ d.errs = [] ∧ d.poison = [] ∧ d.locked = false
     takes ∧ s.wf ∧ n = 185 ∧ l.length = 185 ∧ (l.getD 0 0).toNat < 16 ∧ d.thim.slots.get? (l.getD 0 0).toNat = none ∧ d.lc
       = 1) ∧
    (let a0 : Word := 5
     let s : State := ⟨[], [], on |>.setDom 1 0 |>.st .CMD_STAT_BUSY 0 0 |> fun d => { d with errs := [] } |> fun d =>
         { d with poison := [] }⟩
     let d := s.dev
     let n := a0.toNat
     let ready := d.domOn 1 = true ∧ d.on .CMD_STAT_BUSY 0 = false
     let takes := ready ∧ 1 ∉ d.quies ∧ d.errs = [] ∧ d.poison = [] ∧ d.locked = false
     takes ∧ 4 < n) ∧
    (let a0 : Word := 1
     let s : State := ⟨[], [], on |>.setDom 1 0 |>.st .CMD_STAT_BUSY 0 0 |> fun d => { d with errs := [] } |> fun d =>
         { d with poison := [] } |>.st .ENG_STAT_STATE 17 2⟩
     let d := s.dev
     let n := a0.toNat
     let ready := d.domOn 1 = true ∧ d.on .CMD_STAT_BUSY 0 = false
     let takes := ready ∧ 1 ∉ d.quies ∧ d.errs = [] ∧ d.poison = [] ∧ d.locked = false
     takes ∧ n ≤ 4 ∧ d.quietDevice = false) ∧
    (let a0 : Word := 0
     let s : State := ⟨[], [], on |>.setDom 1 0 |>.st .CMD_STAT_BUSY 0 0 |> fun d => { d with errs := [] } |> fun d =>
         { d with poison := [] }⟩
     let d := s.dev
     let n := a0.toNat
     let ready := d.domOn 1 = true ∧ d.on .CMD_STAT_BUSY 0 = false
     let takes := ready ∧ 1 ∉ d.quies ∧ d.errs = [] ∧ d.poison = [] ∧ d.locked = false
     takes ∧ n ≤ 4 ∧ d.quietDevice = true ∧ lcTransition d.lc n = none) ∧
    (let a0 : Word := 1
     let s : State := ⟨[], [], on |>.setDom 1 0 |>.st .CMD_STAT_BUSY 0 0 |> fun d => { d with errs := [] } |> fun d =>
         { d with poison := [] }⟩
     let d := s.dev
     let n := a0.toNat
     let ready := d.domOn 1 = true ∧ d.on .CMD_STAT_BUSY 0 = false
     let takes := ready ∧ 1 ∉ d.quies ∧ d.errs = [] ∧ d.poison = [] ∧ d.locked = false
     takes ∧ n ≤ 4 ∧ d.quietDevice = true ∧ lcTransition d.lc n = some false) ∧
    (let a0 : Word := 278
     let l : List Byte := leList 278 (2 + 258 * 2 ^ 64)
     let s : State := ⟨[], [], on |>.setDom 1 0 |>.st .CMD_STAT_BUSY 0 0 |> fun d => { d with errs := [] } |> fun d =>
         { d with poison := [] }⟩
     let d := s.dev
     let n := a0.toNat
     let ready := d.domOn 1 = true ∧ d.on .CMD_STAT_BUSY 0 = false
     let takes := ready ∧ 1 ∉ d.quies ∧ d.errs = [] ∧ d.poison = [] ∧ d.locked = false
     takes ∧ s.wf ∧ n = l.length ∧ 0 < n ∧ n < 4096 ∧ d.nvmRefused (l.map (·.toNat)) = none) ∧
    (let a0 : Word := 20
     let l : List Byte := List.replicate 20 0
     let s : State := ⟨[], [], on |>.setDom 1 0 |>.st .CMD_STAT_BUSY 0 0 |> fun d => { d with errs := [] } |> fun d =>
         { d with poison := [] }⟩
     let d := s.dev
     let n := a0.toNat
     let ready := d.domOn 1 = true ∧ d.on .CMD_STAT_BUSY 0 = false
     let takes := ready ∧ 1 ∉ d.quies ∧ d.errs = [] ∧ d.poison = [] ∧ d.locked = false
     takes ∧ s.wf ∧ n = l.length ∧ 0 < n ∧ n < 4096 ∧ ((∃ k, d.nvmRefused (l.map (·.toNat)) = some k))) ∧
    (let a1 : Word := 65536
     let s : State := ⟨[], [], on |>.setDom 1 0 |>.st .CMD_STAT_BUSY 0 0 |> fun d => { d with errs := [] } |> fun d =>
         { d with poison := [] }⟩
     let d := s.dev
     let m := a1.toNat
     let ready := d.domOn 1 = true ∧ d.on .CMD_STAT_BUSY 0 = false
     let takes := ready ∧ 1 ∉ d.quies ∧ d.errs = [] ∧ d.poison = [] ∧ d.locked = false
     takes ∧ 65536 ≤ m) ∧
    (let a1 : Word := 0
     let s : State := ⟨[], [], on |>.setDom 1 0 |>.st .CMD_STAT_BUSY 0 0 |> fun d => { d with errs := [] } |> fun d =>
         { d with poison := [] } |>.st .TIME_CTRL_SRC 0 1⟩
     let d := s.dev
     let m := a1.toNat
     let ready := d.domOn 1 = true ∧ d.on .CMD_STAT_BUSY 0 = false
     let takes := ready ∧ 1 ∉ d.quies ∧ d.errs = [] ∧ d.poison = [] ∧ d.locked = false
     takes ∧ m < 65536 ∧ d.rebaseOk = false) ∧
    (let a1 : Word := 65535
     let s : State := ⟨[], [], on |>.setDom 1 0 |>.st .CMD_STAT_BUSY 0 0 |> fun d => { d with errs := [] } |> fun d =>
         { d with poison := [] } |>.st .TIME_CTRL_SRC 0 0⟩
     let d := s.dev
     let m := a1.toNat
     let ready := d.domOn 1 = true ∧ d.on .CMD_STAT_BUSY 0 = false
     let takes := ready ∧ 1 ∉ d.quies ∧ d.errs = [] ∧ d.poison = [] ∧ d.locked = false
     takes ∧ m < 65536 ∧ d.rg .TIME_CTRL_SRC 0 = 0) := by
  refine ⟨?_, ?_, ?_, ?_, ?_, ?_, ?_, ?_, ?_, ?_, ?_, ?_, ?_, ?_, ?_, ?_, ?_, ?_, ?_, ?_, ?_, ?_, ?_, ?_, ?_⟩
  · dsimp only; decide +kernel
  · dsimp only; decide +kernel
  · dsimp only; decide +kernel
  · dsimp only; decide +kernel
  · dsimp only; decide +kernel
  · dsimp only; decide +kernel
  · dsimp only; decide +kernel
  · dsimp only; decide +kernel
  · dsimp only; decide +kernel
  · dsimp only; decide +kernel
  · dsimp only; decide +kernel
  · dsimp only; decide +kernel
  · dsimp only; exact ⟨by decide +kernel, fun _ => rfl, fun _ => rfl, fun _ => rfl⟩
  · dsimp only; decide +kernel
  · dsimp only; decide +kernel
  · dsimp only; decide +kernel
  · dsimp only; decide +kernel
  · dsimp only; decide +kernel
  · dsimp only; decide +kernel
  · dsimp only; decide +kernel
  · dsimp only; decide +kernel
  · dsimp only; exact ⟨by decide +kernel, by decide +kernel, by decide +kernel, by decide +kernel, by decide +kernel, ⟨_, rfl⟩⟩
  · dsimp only; decide +kernel
  · dsimp only; decide +kernel
  · dsimp only; decide +kernel

/-- What each clause of `CommandEnds` supposes is met. -/
theorem witness_CommandEnds :
    (let s : State := ⟨[], [], on |> fun d => { d with cmd := none }⟩
     let d := s.dev
     d.cmd = none) ∧
    (let c : CmdRun := ⟨3, [1, 0, 0, 0], some (1, [5, 6])⟩
     let k := 1
     let l := [5, 6]
     let s : State := ⟨[], [], on |> fun d => { d with cmd := some c } |> fun d => { d with cmd := some c }⟩
     let d := s.dev
     let runs := d.cmd = some c
     runs ∧ c.done = some (k, l) ∧ k < 256) ∧
    (let c : CmdRun := ⟨6, [2, 0, 0, 0], none⟩
     let s : State := ⟨[], [], on |> fun d => { d with cmd := some c } |> fun d => { d with cmd := some c }⟩
     let d := s.dev
     let n := c.args.getD 0 0
     let runs := d.cmd = some c
     runs ∧ c.done = none ∧ c.op = 6 ∧ n ≤ 4) ∧
    (let c : CmdRun := ⟨5, [2, 0, 0, 0, 4, 9], none⟩
     let s : State := ⟨[], [], on |> fun d => { d with cmd := some c } |> fun d => { d with cmd := some c }⟩
     let d := s.dev
     let runs := d.cmd = some c
     runs ∧ c.done = none ∧ c.op = 5) ∧
    (let c : CmdRun := ⟨7, [16, 0, 0, 0, 1, 2, 3, 4], none⟩
     let s : State := ⟨[], [], on |> fun d => { d with cmd := some c } |> fun d => { d with cmd := some c }⟩
     let d := s.dev
     let n := c.args.getD 0 0
     let runs := d.cmd = some c
     let head := recHead ((c.args.drop 4).take n)
     runs ∧ c.done = none ∧ c.op = 7 ∧ head.1 = 1) ∧
    (let c : CmdRun := ⟨2, [2 ^ 13 + 2 ^ 14, 0, 0, 0], none⟩
     let s : State := ⟨[], [], on |> fun d => { d with cmd := some c } |> fun d => { d with cmd := some c }⟩
     let d := s.dev
     let n := c.args.getD 0 0
     let runs := d.cmd = some c
     runs ∧ c.done = none ∧ c.op = 2 ∧ n / 2 ^ 13 % 2 = 1) := by
  refine ⟨?_, ?_, ?_, ?_, ?_, ?_⟩
  · dsimp only
  · dsimp only; decide +kernel
  · dsimp only; decide +kernel
  · dsimp only; decide +kernel
  · dsimp only; decide +kernel
  · dsimp only; decide +kernel

/-- What each clause of `PowerRequests` supposes is met. -/
theorem witness_PowerRequests :
    (let s : State := ⟨[], [], on |>.st .PWR_REQ_STAT_PHASE 0 1⟩
     let d := s.dev
     let phase := d.rg .PWR_REQ_STAT_PHASE 0
     ((phase = 1 ∨ phase = 2))) ∧
    (let s : State := ⟨[], [], on⟩
     let d := s.dev
     let phase := d.rg .PWR_REQ_STAT_PHASE 0
     phase ≠ 1 ∧ phase ≠ 2) ∧
    (let k : DomId := 9
     let off : Bool := false
     let a : Nat := 0
     let s : State := ⟨[], [], on |>.modPwr (fun z => { z with prep := some ⟨2 ^ k.val, off, [], a⟩ })⟩
     let d := s.dev
     d.pwr.prep = some ⟨2 ^ k.val, off, [], a⟩) ∧
    (let k : DomId := 9
     let off : Bool := false
     let code : Nat := 5
     let a : Nat := 0
     let s : State := ⟨[], [], on |>.modPwr (fun z => { z with prep := some ⟨2 ^ k.val, off, [(k.val, code)], a⟩ })⟩
     let d := s.dev
     d.pwr.prep = some ⟨2 ^ k.val, off, [(k.val, code)], a⟩ ∧ code ≤ 0x11) ∧
    (let s : State := ⟨[], [], on⟩
     let d := s.dev
     d.pwr.prep = none) ∧
    (let k : DomId := 9
     let off : Bool := false
     let m : Nat := 2 ^ 9 + 2 ^ 4
     let code : Nat := 5
     let a : Nat := 0
     let s : State := ⟨[], [], on |>.modPwr (fun z => { z with prep := some ⟨m, off, [(k.val, code)], a⟩ })⟩
     let d := s.dev
     d.pwr.prep = some ⟨m, off, [(k.val, code)], a⟩ ∧ code < 256) ∧
    (let k : DomId := 9
     let off : Bool := true
     let a : Nat := 0
     let s : State := ⟨[], [], on |>.modPwr (fun z => { z with prep := some ⟨2 ^ k.val, off, [], a⟩ })⟩
     let d := s.dev
     let target := if off then 2 else 1
     d.pwr.prep = some ⟨2 ^ k.val, off, [], a⟩ ∧ d.dom k ≠ target) ∧
    (let k : DomId := 9
     let off : Bool := true
     let a : Nat := 0
     let s : State := ⟨[], [], on |>.setDom 9 2 |>.modPwr (fun z => { z with prep := some ⟨2 ^ k.val, off, [], a⟩ })⟩
     let d := s.dev
     let target := if off then 2 else 1
     d.pwr.prep = some ⟨2 ^ k.val, off, [], a⟩ ∧ d.dom k = target) := by
  refine ⟨?_, ?_, ?_, ?_, ?_, ?_, ?_, ?_⟩
  · dsimp only; decide +kernel
  · dsimp only; decide +kernel
  · dsimp only; decide +kernel
  · dsimp only; decide +kernel
  · dsimp only; decide +kernel
  · dsimp only; decide +kernel
  · dsimp only; decide +kernel
  · dsimp only; decide +kernel

/-- What each clause of `PowerStates` supposes is met. -/
theorem witness_PowerStates :
    (let k : DomId := 9
     let s : State := ⟨[], [], on |>.modPwr (fun z => { z with moves := [(k.val, .toRet)] })⟩
     let d := s.dev
     let x := d.pwr
     let moving := x.moves.get? k.val
     moving = some .toRet) ∧
    (let k : DomId := 9
     let s : State := ⟨[], [], on |>.modPwr (fun z => { z with moves := [(k.val, .toRet)] }) |>.modPwr (fun z =>
         { z with commit := [k.val] })⟩
     let d := s.dev
     let x := d.pwr
     let moving := x.moves.get? k.val
     moving = some .toRet ∧ x.commit = [k.val]) ∧
    (let k : DomId := 9
     let s : State := ⟨[], [], on |>.modPwr (fun z => { z with moves := [(k.val, .toOff)] })⟩
     let d := s.dev
     let x := d.pwr
     let moving := x.moves.get? k.val
     moving = some .toOff) ∧
    (let k : DomId := 9
     let s : State := ⟨[], [], on |>.modPwr (fun z => { z with moves := [(k.val, .fromRet)] })⟩
     let d := s.dev
     let x := d.pwr
     let moving := x.moves.get? k.val
     let quiet := d.kept = [] ∧ ∀ e, (d.eng e).act = none
     quiet ∧ moving = some .fromRet) ∧
    (let k : DomId := 9
     let s : State := ⟨[], [], on |>.modPwr (fun z => { z with moves := [(k.val, .fromOff)] })⟩
     let d := s.dev
     let x := d.pwr
     let moving := x.moves.get? k.val
     moving = some .fromOff) ∧
    (let k : DomId := 9
     let s : State := ⟨[], [], on |>.modPwr (fun z => { z with moves := [] })⟩
     let d := s.dev
     let x := d.pwr
     let moving := x.moves.get? k.val
     moving = none) ∧
    (let k : DomId := 9
     let s : State := ⟨[], [], on |>.modPwr (fun z => { z with moves := [(k.val, .reinit)] })⟩
     let d := s.dev
     let x := d.pwr
     let moving := x.moves.get? k.val
     let quiet := d.kept = [] ∧ ∀ e, (d.eng e).act = none
     quiet ∧ moving = some .reinit ∧ ((30 ≤ k.val → d.rg .DRC_STAT_STATE (k.val - 30) ≠ 2))) ∧
    (let k : DomId := 30
     let s : State := ⟨[], [], on |>.modPwr (fun z => { z with moves := [(k.val, .reinit)] }) |>.st .DRC_STAT_STATE (k.val - 30)
         2⟩
     let d := s.dev
     let x := d.pwr
     let moving := x.moves.get? k.val
     let quiet := d.kept = [] ∧ ∀ e, (d.eng e).act = none
     quiet ∧ moving = some .reinit ∧ 30 ≤ k.val ∧ d.rg .DRC_STAT_STATE (k.val - 30) = 2) ∧
    (let s : State := ⟨[], [], on |>.st .SEW_MODE_MODE 0 5⟩
     let d := s.dev
     d.locked = true) ∧
    (let k : DomId := 9
     let mask : BitVec 32 := 0x200
     let s : State := ⟨[], [], on |>.modPwr (fun z => { z with prep := none }) |>.setDom k 2 |>.modPwr (fun z =>
         { z with queue := [] })⟩
     let d := s.dev
     let x := d.pwr
     let held := x.queue.contains k.val || d.wakeHeld k
     d.locked = false ∧ mask.toNat = 2 ^ k.val ∧ x.prep = none ∧ d.domOn k = false ∧ held = false ∧ x.queue = []) ∧
    (let k : DomId := 9
     let mask : BitVec 32 := 0x200
     let s : State := ⟨[], [], on |>.modPwr (fun z => { z with prep := none }) |>.setDom k 0⟩
     let d := s.dev
     let x := d.pwr
     d.locked = false ∧ mask.toNat = 2 ^ k.val ∧ x.prep = none ∧ ((d.domOn k = true ∨ d.wakeHeld k = true))) ∧
    (let k : DomId := 9
     let s : State := ⟨[], [], on |>.modPwr (fun z => { z with queue := [k.val] }) |>.modPwr (fun z => { z with moves := [] })⟩
     let d := s.dev
     let x := d.pwr
     let moving := x.moves.get? k.val
     let cost := d.rg .PWR_INRUSH_INUSE 0 + wakeCost k (d.dom k == 1)
     x.queue = [k.val] ∧ moving = none ∧ cost ≤ d.rg .PWR_INRUSH_BUDGET 0) ∧
    (let k : DomId := 9
     let s : State := ⟨[], [], on |>.modPwr (fun z => { z with queue := [k.val] }) |>.st .PWR_INRUSH_BUDGET 0 1 |>.setDom 9 2⟩
     let d := s.dev
     let x := d.pwr
     let cost := d.rg .PWR_INRUSH_INUSE 0 + wakeCost k (d.dom k == 1)
     x.queue = [k.val] ∧ d.rg .PWR_INRUSH_BUDGET 0 < cost) ∧
    (let s : State := ⟨[], [], on |>.modPwr (fun z => { z with prep := none }) |>.setDom 1 2⟩
     let d := s.dev
     let x := d.pwr
     d.locked = false ∧ x.prep = none ∧ d.domOn 1 = false ∧ d.wakeHeld 1 = false) ∧
    (let s : State := ⟨[], [], on |>.st .PWR_STATE_LO_STATE 0 0xAAAAAAA8 |>.st .PWR_STATE_HI_STATE 0 0xAAAAAAAA |>.st
         .PWR_AON_DOZE 0 1⟩
     let d := s.dev
     let low := ∀ i, 1 ≤ i → i < 32 → (d.dom i = 1 ∨ d.dom i = 2)
     low ∧ d.on .PWR_AON_DOZE 0 = true) ∧
    (let s : State := ⟨[], [], on⟩
     let d := s.dev
     let low := ∀ i, 1 ≤ i → i < 32 → (d.dom i = 1 ∨ d.dom i = 2)
     ¬low) ∧
    (let addr : BitVec 7 := 0x58 + Config.maddr % 8
     let s : State := ⟨[], [], on |>.modPwr (fun z => { z with doze := true })⟩
     let d := s.dev
     let x := d.pwr
     let mine := addr.toNat = 0x58 + Config.maddr % 8
     mine ∧ x.doze = true) ∧
    (let addr : BitVec 7 := 0
     let s : State := ⟨[], [], on⟩
     let d := s.dev
     let x := d.pwr
     let mine := addr.toNat = 0x58 + Config.maddr % 8
     (¬mine ∨ x.doze = false)) := by
  refine ⟨?_, ?_, ?_, ?_, ?_, ?_, ?_, ?_, ?_, ?_, ?_, ?_, ?_, ?_, ?_, ?_, ?_, ?_⟩
  · dsimp only; decide +kernel
  · dsimp only; decide +kernel
  · dsimp only; decide +kernel
  · dsimp only; exact ⟨⟨by decide +kernel, fun _ => rfl⟩, by decide +kernel⟩
  · dsimp only; decide +kernel
  · dsimp only; decide +kernel
  · dsimp only; exact ⟨⟨by decide +kernel, fun _ => rfl⟩, by decide +kernel, by decide +kernel⟩
  · dsimp only; exact ⟨⟨by decide +kernel, fun _ => rfl⟩, by decide +kernel, by decide +kernel, by decide +kernel⟩
  · dsimp only; decide +kernel
  · dsimp only; decide +kernel
  · dsimp only; decide +kernel
  · dsimp only; decide +kernel
  · dsimp only; decide +kernel
  · dsimp only; decide +kernel
  · dsimp only; decide +kernel
  · dsimp only; decide +kernel
  · dsimp only; exact ⟨(by simp; omega), by decide +kernel⟩
  · dsimp only; exact .inr (by decide +kernel)

/-- What each clause of `Resets` supposes is met. -/
theorem witness_Resets :
    (let s : State := ⟨[], [], on⟩
     s.wf) ∧
    (let low : Nat := 4000000
     let s : State := ⟨[], [], on⟩
     s.wf ∧ 4000000 ≤ low) ∧
    (let low : Nat := 0
     low ≤ 400000) ∧
    (let low : Nat := 400001
     let s : State := ⟨[], [], on⟩
     s.wf ∧ 400000 < low ∧ low < 4000000) ∧
    (let key : Byte := 0x5A
     key.toNat = 0x5A) ∧
    (let key : Byte := 1
     key.toNat ≠ 0x5A) ∧
    (let t₀ : Nat := 7
     let key : Byte := 0xA5
     let s : State := ⟨[], [], on |> fun d => { d with rstWin := some t₀ }⟩
     let d := s.dev
     s.wf ∧ d.rstWin = some t₀ ∧ d.tick ≤ t₀ ∧ key.toNat = 0xA5) ∧
    (let key : Byte := 0
     let s : State := ⟨[], [], on⟩
     let d := s.dev
     (d.rstOpen = false ∨ key.toNat ≠ 0xA5)) ∧
    (let t₀ : Nat := 7
     let s : State := ⟨[], [], on |> fun d => { d with rstWin := some t₀ }⟩
     let d := s.dev
     d.rstWin = some t₀) ∧
    (let s : State := ⟨[], [], on |> fun d => { d with rstWin := none }⟩
     let d := s.dev
     d.rstWin = none) ∧
    (let s : State := ⟨[], [], on |>.setDom 1 0⟩
     let d := s.dev
     d.domOn 1 = true) ∧
    (let s : State := ⟨[], [], on |>.setDom 1 2⟩
     let d := s.dev
     d.domOn 1 = false) ∧
    (let s : State := ⟨[], [], on⟩
     let d := s.dev
     d.time.refLost = false) ∧
    (let s : State := ⟨[], [], on |>.st .HOST_READY_TIMING 0 0⟩
     let d := s.dev
     d.on .HOST_READY_TIMING 0 = false ∧ d.pwr.boot = true) ∧
    (let s : State := ⟨[], [], on |>.st .HOST_READY_TIMING 0 1⟩
     let d := s.dev
     d.on .HOST_READY_TIMING 0 = true) := by
  refine ⟨?_, ?_, ?_, ?_, ?_, ?_, ?_, ?_, ?_, ?_, ?_, ?_, ?_, ?_, ?_⟩
  · dsimp only; decide +kernel
  · dsimp only; decide +kernel
  · dsimp only; decide +kernel
  · dsimp only; decide +kernel
  · dsimp only; decide +kernel
  · dsimp only; decide +kernel
  · dsimp only; decide +kernel
  · dsimp only; decide +kernel
  · dsimp only
  · dsimp only
  · dsimp only; decide +kernel
  · dsimp only; decide +kernel
  · dsimp only; decide +kernel
  · dsimp only; decide +kernel
  · dsimp only; decide +kernel

/-- What each clause of `Calibration` supposes is met. -/
theorem witness_Calibration :
    (let i : Fin 24 := 0
     let r : BitVec 16 := 0
     let s : State := ⟨[], [], on⟩
     let d := s.dev
     let l := (r.toInt :: (d.cal.reads.get? i.val).getD []).take 16
     let mean := l.foldl (· + ·) 0 / (l.length : Int)
     let fits := fun (v : Nat) => signed 8 (d.rg .SEC_TALARM_LO 0) * 16 ≤ signed 16 v ∧ signed 16 v ≤ signed 8 (d.rg
         .SEC_TALARM_HI 0) * 16
     fits (unsigned 16 mean) ∧ ((∀ p ∈ d.cal.reads, p.1 ≠ i.val → fits (d.rgi .CAL_TEMP_TNOW 0 p.1)))) ∧
    (let i : Fin 24 := 0
     let r : BitVec 16 := 0x7000
     let s : State := ⟨[], [], on⟩
     let d := s.dev
     let l := (r.toInt :: (d.cal.reads.get? i.val).getD []).take 16
     let mean := l.foldl (· + ·) 0 / (l.length : Int)
     let fits := fun (v : Nat) => signed 8 (d.rg .SEC_TALARM_LO 0) * 16 ≤ signed 16 v ∧ signed 16 v ≤ signed 8 (d.rg
         .SEC_TALARM_HI 0) * 16
     ¬fits (unsigned 16 mean)) ∧
    (let k : PdId := 2
     let s : State := ⟨[], [], on |>.setDom (11 + k.val) 0 |> fun d => { d with cal := { due := [2] } }⟩
     let d := s.dev
     let on := d.domOn (11 + k.val) = true
     let due := d.cal.due.contains k.val
     on ∧ due = true ∧ d.calRuns k = false) ∧
    (let k : PdId := 2
     let s : State := ⟨[], [], on⟩
     let d := s.dev
     let due := d.cal.due.contains k.val
     due = false) ∧
    (let sel : BitVec 5 := 0
     let s : State := ⟨[], [], on⟩
     let d := s.dev
     let lacks := ∃ j : PdId, d.domOn (11 + j.val) = true ∧ profPick s.mem sel.toNat j = none
     lacks) ∧
    (let sel : BitVec 5 := 0
     let s : State := ⟨[], [], {}⟩
     let d := s.dev
     let lacks := ∃ j : PdId, d.domOn (11 + j.val) = true ∧ profPick s.mem sel.toNat j = none
     ¬lacks) ∧
    (let q : QuadId := 9
     let s : State := ⟨[], [], on |> fun d => { d with cal := { old := [9] } }⟩
     let d := s.dev
     let free := d.quadFree q && d.domOn (11 + q.val / 8)
     free = true ∧ d.cal.old.contains q.val = true) ∧
    (let q : QuadId := 9
     let s : State := ⟨[], [], on⟩
     let d := s.dev
     let free := d.quadFree q && d.domOn (11 + q.val / 8)
     (free = false ∨ d.cal.old.contains q.val = false)) := by
  refine ⟨?_, ?_, ?_, ?_, ?_, ?_, ?_, ?_⟩
  · dsimp only; decide +kernel
  · dsimp only; decide +kernel
  · dsimp only; decide +kernel
  · dsimp only; decide +kernel
  · dsimp only; decide +kernel
  · dsimp only; decide +kernel
  · dsimp only; decide +kernel
  · dsimp only; decide +kernel

/-- What each clause of `ContactorAndTelemetry` supposes is met; what supposes a value of an unknown constant is left out. -/
theorem witness_ContactorAndTelemetry :
    (let s : State := ⟨[], [], on⟩
     let d := s.dev
     let due := d.ctr.due = true
     due) ∧
    (let l : List Byte := []
     let s : State := ⟨[], [], on⟩
     let d := s.dev
     let due := d.ctr.due = true
     due ∧ l.length < 132) ∧
    (let l : List Byte := List.replicate 132 0
     let s : State := ⟨[], [], on⟩
     let d := s.dev
     let bytes := l.map (·.toNat)
     let due := d.ctr.due = true
     due ∧ 132 ≤ l.length ∧ ctrFormat bytes = false) ∧
    (let l : List Byte := leList 132 (1 + 10 * 2 ^ 32)
     let s : State := ⟨[], [], on⟩
     let d := s.dev
     let bytes := l.map (·.toNat)
     let due := d.ctr.due = true
     due ∧ 132 ≤ l.length ∧ ctrFormat bytes = true ∧ d.ctrSigned bytes = false) ∧
    (let l : List Byte := leList 132 (1 + 10 * 2 ^ 32)
     let s : State := ⟨[], [], on⟩
     let d := s.dev
     let bytes := l.map (·.toNat)
     let due := d.ctr.due = true
     due ∧ 132 ≤ l.length ∧ ctrFormat bytes = true ∧ ((d.ctr.serial = none ∨ d.ctr.serial = some (ctrSerial bytes)))) ∧
    (let s : State := ⟨[], [], on |>.st .CTR_CTRL_TDSRC 0 1⟩
     let d := s.dev
     let bySrc := d.on .CTR_CTRL_TDSRC 0 = true
     bySrc) ∧
    (let s : State := ⟨[], [], on |>.st .CTR_CTRL_TDSRC 0 0⟩
     let d := s.dev
     let open_ := d.locked = false
     let bySrc := d.on .CTR_CTRL_TDSRC 0 = true
     ¬bySrc ∧ open_) ∧
    (let s : State := ⟨[], [], on |>.st .CTR_CTRL_TDSRC 0 0 |>.st .SEW_MODE_MODE 0 5⟩
     let d := s.dev
     let open_ := d.locked = false
     let bySrc := d.on .CTR_CTRL_TDSRC 0 = true
     ¬bySrc ∧ ¬open_) ∧
    (let high : Nat := 4000000
     let s : State := ⟨[], [], on |>.st .CTR_CTRL_TDSRC 0 1⟩
     let d := s.dev
     let open_ := d.locked = false
     let bySrc := d.on .CTR_CTRL_TDSRC 0 = true
     bySrc ∧ 4000000 ≤ high ∧ open_ ∧ d.ctr.edge = none) ∧
    (let high : Nat := 4000000
     let s : State := ⟨[], [], on |>.st .CTR_CTRL_TDSRC 0 1 |> fun d => { d with ctr := { edge := some 0 } }⟩
     let d := s.dev
     let open_ := d.locked = false
     let bySrc := d.on .CTR_CTRL_TDSRC 0 = true
     bySrc ∧ 4000000 ≤ high ∧ open_ ∧ d.ctr.edge = some d.tick) ∧
    (let high : Nat := 0
     let s : State := ⟨[], [], on |>.st .CTR_CTRL_TDSRC 0 0⟩
     let d := s.dev
     let open_ := d.locked = false
     let bySrc := d.on .CTR_CTRL_TDSRC 0 = true
     ((¬bySrc ∨ high < 4000000 ∨ ¬open_))) ∧
    (let s : State := ⟨[], [], on |>.st .CTR_PEND_PEND 0 3 |>.st .CTR_STAT_STATE 0 3⟩
     let d := s.dev
     let open_ := d.locked = false
     let pend := d.rg .CTR_PEND_PEND 0
     let writes := open_ ∧ pend ≠ 0 ∧ pend < 2 ^ 16 ∧ d.rg .CTR_STAT_STATE 0 ≠ 0
     writes) ∧
    (let s : State := ⟨[], [], on |>.st .CTR_PEND_PEND 0 0⟩
     let d := s.dev
     let pend := d.rg .CTR_PEND_PEND 0
     pend = 0) ∧
    (let s : State := ⟨[], [], on |>.st .TEL_RSIZE_LINES 0 0⟩
     let d := s.dev
     let open_ := d.locked = false
     let z := d.rg .TEL_RSIZE_LINES 0
     open_ ∧ z = 0) ∧
    (let s : State := ⟨[], [], on |>.st .DRC_STAT_STATE 0 3 |> fun d => { d with errs := [] } |>.st .DRC_STAT_STATE 0 3 |>.st
         .HOST_READY_THIMBLE 0 1 |>.st .DRC_CFG_POP 0 1 |>.st .DRC_CFG_DENS 0 1 |>.st .TEL_RSIZE_LINES 0 2 |>.st .TEL_RBASE_LINE 0
         5⟩
     let d := s.dev
     let open_ := d.locked = false
     let w := d.rg .TEL_WPTR_LINE 0
     let z := d.rg .TEL_RSIZE_LINES 0
     let line := d.rg .TEL_RBASE_LINE 0 + w
     s.wf ∧ open_ ∧ 0 < z ∧ d.rg .DRC_STAT_STATE 0 = 3 ∧ d.writePath line = .served ∧ d.awgGuard line = none ∧ d.unzeroed
       line = false ∧ d.errs = []) ∧
    (let s : State := ⟨[], [], on |>.st .SEW_MODE_MODE 0 5⟩
     let d := s.dev
     let open_ := d.locked = false
     ¬open_) ∧
    (let s : State := ⟨[], [], on |> fun d => { d with ctr := { due := false } }⟩
     let d := s.dev
     let due := d.ctr.due = true
     ¬due) := by
  refine ⟨?_, ?_, ?_, ?_, ?_, ?_, ?_, ?_, ?_, ?_, ?_, ?_, ?_, ?_, ?_, ?_, ?_⟩
  · dsimp only; decide +kernel
  · dsimp only; decide +kernel
  · dsimp only; decide +kernel
  · dsimp only; decide +kernel
  · dsimp only; decide +kernel
  · dsimp only; decide +kernel
  · dsimp only; decide +kernel
  · dsimp only; decide +kernel
  · dsimp only; decide +kernel
  · dsimp only; decide +kernel
  · dsimp only; decide +kernel
  · dsimp only; decide +kernel
  · dsimp only; decide +kernel
  · dsimp only; decide +kernel
  · dsimp only; decide +kernel
  · dsimp only; decide +kernel
  · dsimp only; decide +kernel

/-- What each clause of `KeysAndAlarms` supposes is met. -/
theorem witness_KeysAndAlarms :
    (let s : State := ⟨[], [], on |>.st .SEW_MODE_MODE 0 5⟩
     let d := s.dev
     d.locked = true) ∧
    (let s : State := ⟨[], [], on |>.st .SEC_STAT_DRAMKEY 0 1⟩
     let d := s.dev
     d.locked = false ∧ d.on .SEC_STAT_DRAMKEY 0 = true) ∧
    (let s : State := ⟨[], [], on |>.st .SEC_STAT_DRAMKEY 0 0⟩
     let d := s.dev
     d.locked = false ∧ d.on .SEC_STAT_DRAMKEY 0 = false) ∧
    (let s : State := ⟨[], [], on |> fun d => { d with thim := { storage := true } }⟩
     let d := s.dev
     d.thim.storage = true) ∧
    (let n : Fin 16 := 3
     let s : State := ⟨[], [], on |> fun d => { d with taken := [] } |> fun d => { d with modeChg := none } |> fun d => { d with
         thim := { slots := [(3, ⟨1, 2, 3⟩)] } }⟩
     let d := s.dev
     let calm := d.taken = [] ∧ d.modeChg = none
     calm ∧ (d.thim.slots.get? n.val).isSome) ∧
    (let s : State := ⟨[], [], on |> fun d => { d with taken := [] } |> fun d => { d with modeChg := none }⟩
     let d := s.dev
     let calm := d.taken = [] ∧ d.modeChg = none
     calm) ∧
    (let k : Fin 7 := 1
     let s : State := ⟨[], [], on |>.st .SEC_ALPEND_PEND 0 2⟩
     let d := s.dev
     let source := k.val = 0 ∨ k.val = 1 ∨ k.val = 3
     let pending := (d.rg .SEC_ALPEND_PEND 0).testBit k.val = true
     source ∧ pending) ∧
    (let k : Fin 7 := 0
     let s : State := ⟨[], [], on⟩
     let d := s.dev
     let source := k.val = 0 ∨ k.val = 1 ∨ k.val = 3
     let pending := (d.rg .SEC_ALPEND_PEND 0).testBit k.val = true
     let level := d.alarmLevel k.val
     source ∧ ¬pending ∧ level = 0) ∧
    (let k : Fin 7 := 0
     let s : State := ⟨[], [], on |>.st .SEC_LC_STATE 0 1 |>.st .SEC_ALRESP_LEVEL 0 1⟩
     let d := s.dev
     let source := k.val = 0 ∨ k.val = 1 ∨ k.val = 3
     let pending := (d.rg .SEC_ALPEND_PEND 0).testBit k.val = true
     let level := d.alarmLevel k.val
     source ∧ ¬pending ∧ level = 1) ∧
    (let k : Fin 7 := 0
     let s : State := ⟨[], memWrite [] dramBase [1], on |> fun d => { d with taken := [] } |> fun d => { d with modeChg := none }
         |>.st .SEC_LC_STATE 0 1 |>.st .SEC_ALRESP_LEVEL 0 2⟩
     let d := s.dev
     let calm := d.taken = [] ∧ d.modeChg = none
     let source := k.val = 0 ∨ k.val = 1 ∨ k.val = 3
     let pending := (d.rg .SEC_ALPEND_PEND 0).testBit k.val = true
     let level := d.alarmLevel k.val
     s.wf ∧ calm ∧ source ∧ ¬pending ∧ level = 2 ∧ d.thim.last = none) ∧
    (let k : Fin 7 := 0
     let s : State := ⟨[], [], on |>.st .SEC_LC_STATE 0 1 |>.st .SEC_ALRESP_LEVEL 0 2 |> fun d => { d with thim :=
         { last := some (0, 2) } }⟩
     let d := s.dev
     let source := k.val = 0 ∨ k.val = 1 ∨ k.val = 3
     let pending := (d.rg .SEC_ALPEND_PEND 0).testBit k.val = true
     let level := d.alarmLevel k.val
     source ∧ ¬pending ∧ level = 2 ∧ d.thim.last = some (cycleOf d.tick, 2)) ∧
    (let k : Fin 7 := 0
     let s : State := ⟨[], memWrite [] dramBase [1], on |> fun d => { d with taken := [] } |> fun d => { d with modeChg := none }
         |>.st .SEC_LC_STATE 0 1 |>.st .SEC_ALRESP_LEVEL 0 3⟩
     let d := s.dev
     let calm := d.taken = [] ∧ d.modeChg = none
     let source := k.val = 0 ∨ k.val = 1 ∨ k.val = 3
     let pending := (d.rg .SEC_ALPEND_PEND 0).testBit k.val = true
     let level := d.alarmLevel k.val
     s.wf ∧ calm ∧ source ∧ ¬pending ∧ level = 3 ∧ d.thim.last = none ∧ d.locked = false) := by
  refine ⟨?_, ?_, ?_, ?_, ?_, ?_, ?_, ?_, ?_, ?_, ?_, ?_⟩
  · dsimp only; decide +kernel
  · dsimp only; decide +kernel
  · dsimp only; decide +kernel
  · dsimp only
  · dsimp only; decide +kernel
  · dsimp only; decide +kernel
  · dsimp only; decide +kernel
  · dsimp only; decide +kernel
  · dsimp only; decide +kernel
  · dsimp only; decide +kernel
  · dsimp only; decide +kernel
  · dsimp only; decide +kernel

/-- What each clause of `SealedImages` supposes is met; what supposes a value of an unknown constant is left out. -/
theorem witness_SealedImages :
    (let s : State := ⟨[], [], on |>.st .SEC_UNS_STAT_STATE 0 2⟩
     let d := s.dev
     let state := d.rg .SEC_UNS_STAT_STATE 0
     state ≠ 0) ∧
    (let s : State := ⟨[], [], on |>.st .SEC_UNS_STAT_STATE 0 0⟩
     let d := s.dev
     let state := d.rg .SEC_UNS_STAT_STATE 0
     state = 0 ∧ d.lc ≠ 1 ∧ d.lc ≠ 2) ∧
    (let s : State := ⟨[], [], on |>.st .SEC_UNS_STAT_STATE 0 0 |>.st .SEC_LC_STATE 0 1⟩
     let d := s.dev
     let state := d.rg .SEC_UNS_STAT_STATE 0
     state = 0 ∧ (d.lc = 1 ∨ d.lc = 2)) ∧
    (let s : State := ⟨[], [], on⟩
     let d := s.dev
     d.thim.uns = none) ∧
    (let u : Unseal := ⟨0, 4096, 2⟩
     let s : State := ⟨[], [], on |>.st .SEC_UNS_STAT_STATE 0 1 |> fun d => { d with thim := { uns := some u } } |>.st
         .SEC_UNS_STAT_STATE 0 1⟩
     let d := s.dev
     let state := d.rg .SEC_UNS_STAT_STATE 0
     d.thim.uns = some u ∧ state = 1 ∧ d.dramPath (u.src / 256) = .faults) ∧
    (let u : Unseal := ⟨0, 4096, 2⟩
     let s : State := ⟨[], [], on |> fun d => { d with thim := { uns := some u } } |>.st .DRC_STAT_STATE 0 3 |>.st
         .HOST_READY_THIMBLE 0 1 |>.st .DRC_CFG_POP 0 1 |>.st .DRC_CFG_DENS 0 1 |>.st .DRC_STAT_STATE 0 4⟩
     let d := s.dev
     d.dramPath (u.src / 256) = .waits ∧ d.thim.uns = some u) ∧
    (let u : Unseal := ⟨0, 4096, 2⟩
     let s : State := ⟨[], memWrite [] dramBase (leBytes 64 (2 : Nat)), on |> fun d => { d with errs := [] } |> fun d =>
         { d with poison := [] } |>.st .DRC_ZERO_ACTIVE 0 0 |>.st .DRC_ZERO_ACTIVE 1 0 |>.st .SEC_UNS_STAT_STATE 0 1 |> fun d => {
         d with thim := { uns := some u } } |>.st .DRC_STAT_STATE 0 3 |>.st .HOST_READY_THIMBLE 0 1 |>.st .DRC_CFG_POP 0 1 |>.st
         .DRC_CFG_DENS 0 1 |>.st .SEC_UNS_STAT_STATE 0 1⟩
     let d := s.dev
     let state := d.rg .SEC_UNS_STAT_STATE 0
     let clean := d.errs = [] ∧ d.poison = [] ∧ d.on .DRC_ZERO_ACTIVE 0 = false ∧ d.on .DRC_ZERO_ACTIVE 1 = false
     let reads := fun (len : Nat) => ∀ i, u.src / 256 ≤ i → i ≤ (u.src + len - 1) / 256 → d.dramPath i = .served
     let img := fun (len : Nat) => memRead s.mem (dramBase + u.src) len
     let len := imgLen (img 64)
     let pass1 := clean ∧ d.thim.uns = some u ∧ state = 1 ∧ u.src + len + 144 ≤ 2 ^ 38
     pass1 ∧ reads 64 ∧ (leNat ((img 64).take 4) ≠ 1 ∨ len % 256 ≠ 0)) ∧
    (let u : Unseal := ⟨0, 4096, 2⟩
     let r := 3
     let s : State := ⟨[], memWrite [] dramBase (leBytes 64 (1 + 5 * 2 ^ 32 + 3 * 2 ^ 64 + 256 * 2 ^ 128)), on |> fun d =>
         { d with errs := [] } |> fun d => { d with poison := [] } |>.st .DRC_ZERO_ACTIVE 0 0 |>.st .DRC_ZERO_ACTIVE 1 0 |>.st
         .SEC_UNS_STAT_STATE 0 1 |> fun d => { d with thim := { uns := some u } } |>.st .DRC_STAT_STATE 0 3 |>.st
         .HOST_READY_THIMBLE 0 1 |>.st .DRC_CFG_POP 0 1 |>.st .DRC_CFG_DENS 0 1 |>.st .SEC_UNS_STAT_STATE 0 1⟩
     let d := s.dev
     let state := d.rg .SEC_UNS_STAT_STATE 0
     let clean := d.errs = [] ∧ d.poison = [] ∧ d.on .DRC_ZERO_ACTIVE 0 = false ∧ d.on .DRC_ZERO_ACTIVE 1 = false
     let reads := fun (len : Nat) => ∀ i, u.src / 256 ≤ i → i ≤ (u.src + len - 1) / 256 → d.dramPath i = .served
     let img := fun (len : Nat) => memRead s.mem (dramBase + u.src) len
     let len := imgLen (img 64)
     let pass1 := clean ∧ d.thim.uns = some u ∧ state = 1 ∧ u.src + len + 144 ≤ 2 ^ 38
     pass1 ∧ reads (len + 144) ∧ leNat ((img 64).take 4) = 1 ∧ len % 256 = 0 ∧ d.imgFault (img (len + 144)) = some r) ∧
    (let u : Unseal := ⟨0, 4096, 2⟩
     let s : State := ⟨[], memWrite [] dramBase (leBytes 64 (1 + 5 * 2 ^ 32 + 3 * 2 ^ 64 + 256 * 2 ^ 128)), on |> fun d =>
         { d with errs := [] } |> fun d => { d with poison := [] } |>.st .DRC_ZERO_ACTIVE 0 0 |>.st .DRC_ZERO_ACTIVE 1 0 |>.st
         .SEC_UNS_STAT_STATE 0 1 |>.st .DRC_STAT_STATE 0 3 |>.st .HOST_READY_THIMBLE 0 1 |>.st .DRC_CFG_POP 0 1 |>.st .DRC_CFG_DENS
         0 1 |>.st .SEC_UNS_STAT_STATE 0 1 |> fun d => { d with thim := { uns := some u, slots := [(5, ⟨1, 2, 3⟩)] } } |>.sti
         .SEC_REG_CTRL_ACTIVE 0 2 1⟩
     let d := s.dev
     let state := d.rg .SEC_UNS_STAT_STATE 0
     let clean := d.errs = [] ∧ d.poison = [] ∧ d.on .DRC_ZERO_ACTIVE 0 = false ∧ d.on .DRC_ZERO_ACTIVE 1 = false
     let reads := fun (len : Nat) => ∀ i, u.src / 256 ≤ i → i ≤ (u.src + len - 1) / 256 → d.dramPath i = .served
     let img := fun (len : Nat) => memRead s.mem (dramBase + u.src) len
     let len := imgLen (img 64)
     let pass1 := clean ∧ d.thim.uns = some u ∧ state = 1 ∧ u.src + len + 144 ≤ 2 ^ 38
     pass1 ∧ reads (len + 144) ∧ leNat ((img 64).take 4) = 1 ∧ len % 256 = 0 ∧ d.unsOverlap u len = true) ∧
    (let u : Unseal := ⟨0, 4096, 2⟩
     let s : State := ⟨[], memWrite [] dramBase (leBytes 64 (1 + 5 * 2 ^ 32 + 3 * 2 ^ 64 + 256 * 2 ^ 128)), on |> fun d =>
         { d with errs := [] } |> fun d => { d with poison := [] } |>.st .DRC_ZERO_ACTIVE 0 0 |>.st .DRC_ZERO_ACTIVE 1 0 |>.st
         .SEC_UNS_STAT_STATE 0 1 |>.st .DRC_STAT_STATE 0 3 |>.st .HOST_READY_THIMBLE 0 1 |>.st .DRC_CFG_POP 0 1 |>.st .DRC_CFG_DENS
         0 1 |>.st .SEC_UNS_STAT_STATE 0 1 |> fun d => { d with thim := { uns := some u, slots := [(5, ⟨1, 2, 3⟩)] } }⟩
     let d := s.dev
     let state := d.rg .SEC_UNS_STAT_STATE 0
     let clean := d.errs = [] ∧ d.poison = [] ∧ d.on .DRC_ZERO_ACTIVE 0 = false ∧ d.on .DRC_ZERO_ACTIVE 1 = false
     let reads := fun (len : Nat) => ∀ i, u.src / 256 ≤ i → i ≤ (u.src + len - 1) / 256 → d.dramPath i = .served
     let img := fun (len : Nat) => memRead s.mem (dramBase + u.src) len
     let len := imgLen (img 64)
     let pass1 := clean ∧ d.thim.uns = some u ∧ state = 1 ∧ u.src + len + 144 ≤ 2 ^ 38
     pass1 ∧ reads (len + 144) ∧ leNat ((img 64).take 4) = 1 ∧ len % 256 = 0 ∧ d.unsOverlap u len = false) ∧
    (let u : Unseal := ⟨0, 4096, 2⟩
     let s : State := ⟨[], memWrite [] dramBase (leBytes 64 (1 + 5 * 2 ^ 32 + 3 * 2 ^ 64 + 256 * 2 ^ 128)), on |> fun d =>
         { d with errs := [] } |> fun d => { d with poison := [] } |>.st .DRC_ZERO_ACTIVE 0 0 |>.st .DRC_ZERO_ACTIVE 1 0 |>.st
         .SEC_UNS_STAT_STATE 0 2 |> fun d => { d with thim := { uns := some u } } |>.st .DRC_STAT_STATE 0 3 |>.st
         .HOST_READY_THIMBLE 0 1 |>.st .DRC_CFG_POP 0 1 |>.st .DRC_CFG_DENS 0 1 |>.st .SEC_UNS_STAT_STATE 0 2 |>.sti
         .SEC_REG_CTRL_LINES 0 2 1⟩
     let d := s.dev
     let state := d.rg .SEC_UNS_STAT_STATE 0
     let clean := d.errs = [] ∧ d.poison = [] ∧ d.on .DRC_ZERO_ACTIVE 0 = false ∧ d.on .DRC_ZERO_ACTIVE 1 = false
     let reads := fun (len : Nat) => ∀ i, u.src / 256 ≤ i → i ≤ (u.src + len - 1) / 256 → d.dramPath i = .served
     let img := fun (len : Nat) => memRead s.mem (dramBase + u.src) len
     let lines := d.rgi .SEC_REG_CTRL_LINES 0 u.region
     let pass2 := clean ∧ d.thim.uns = some u ∧ state = 2 ∧ reads (lines * 256 + 144) ∧ d.writePath u.dst = .served
     let whole := img (lines * 256 + 144)
     let plain := (d.thim.slots.get? (whole.getD 4 0)).bind (fun k => imgOpen k whole whole)
     pass2 ∧ plain = none) ∧
    (let u : Unseal := ⟨0, 4096, 2⟩
     let s : State := ⟨[], memWrite [] dramBase (leBytes 64 (1 + 5 * 2 ^ 32 + 3 * 2 ^ 64 + 256 * 2 ^ 128)), on |> fun d =>
         { d with errs := [] } |> fun d => { d with poison := [] } |>.st .DRC_ZERO_ACTIVE 0 0 |>.st .DRC_ZERO_ACTIVE 1 0 |>.st
         .SEC_UNS_STAT_STATE 0 2 |>.sti .SEC_REG_CTRL_LINES 0 u.region 1 |>.st .DRC_STAT_STATE 0 3 |>.st .HOST_READY_THIMBLE 0 1
         |>.st .DRC_CFG_POP 0 1 |>.st .DRC_CFG_DENS 0 1 |>.st .SEC_UNS_STAT_STATE 0 2 |>.sti .SEC_REG_CTRL_LINES 0 2 1 |> fun d =>
         { d with thim := { uns := some u, slots := [(5, ⟨1, 2, 3⟩)] } }⟩
     let d := s.dev
     let state := d.rg .SEC_UNS_STAT_STATE 0
     let clean := d.errs = [] ∧ d.poison = [] ∧ d.on .DRC_ZERO_ACTIVE 0 = false ∧ d.on .DRC_ZERO_ACTIVE 1 = false
     let reads := fun (len : Nat) => ∀ i, u.src / 256 ≤ i → i ≤ (u.src + len - 1) / 256 → d.dramPath i = .served
     let lines := d.rgi .SEC_REG_CTRL_LINES 0 u.region
     let pass2 := clean ∧ d.thim.uns = some u ∧ state = 2 ∧ reads (lines * 256 + 144) ∧ d.writePath u.dst = .served
     s.wf ∧ pass2 ∧ lines = 1 ∧ d.awgGuard u.dst = none) ∧
    (let n : Fin 16 := 2
     let s : State := ⟨[], [], on |>.sti .SEC_REG_CTRL_ACTIVE 0 n 1⟩
     let d := s.dev
     d.rgi .SEC_REG_CTRL_ACTIVE 0 n = 1) ∧
    (let n : Fin 16 := 2
     let s : State := ⟨[], [], on⟩
     let d := s.dev
     d.rgi .SEC_REG_CTRL_ACTIVE 0 n ≠ 1) ∧
    (let n : Fin 16 := 2
     let s : State := ⟨[], memWrite [] (dramBase + 3 * 256) [1, 2], on |>.sti .SEC_REG_BASE_LINE 0 2 3 |>.sti .SEC_REG_CTRL_LINES
         0 2 2 |> fun d => { d with thim := { freed := [2] } }⟩
     let d := s.dev
     s.wf ∧ d.thim.freed.contains n.val = true) ∧
    (let n : Fin 16 := 2
     let s : State := ⟨[], [], on⟩
     let d := s.dev
     d.thim.freed.contains n.val = false) := by
  refine ⟨?_, ?_, ?_, ?_, ?_, ?_, ?_, ?_, ?_, ?_, ?_, ?_, ?_, ?_, ?_, ?_⟩
  · dsimp only; decide +kernel
  · dsimp only; decide +kernel
  · dsimp only; decide +kernel
  · dsimp only; decide +kernel
  · dsimp only; decide +kernel
  · dsimp only; decide +kernel
  · dsimp only; decide +kernel
  · dsimp only; decide +kernel
  · dsimp only; decide +kernel
  · dsimp only; decide +kernel
  · dsimp only; decide +kernel
  · dsimp only; decide +kernel
  · dsimp only; decide +kernel
  · dsimp only; decide +kernel
  · dsimp only; decide +kernel
  · dsimp only; decide +kernel

/-- What each clause of `DebugAndAttestation` supposes is met; what supposes a value of an unknown constant is left out. -/
theorem witness_DebugAndAttestation :
    (let s : State := ⟨[], [], on |>.st .SEC_DBG_STAT_BLOCKED 0 1⟩
     let d := s.dev
     let free := d.on .SEC_DBG_STAT_BLOCKED 0 = false
     ¬free) ∧
    (let cls : BitVec 2 := 0
     let s : State := ⟨[], [], on |>.st .SEC_DBG_STAT_BLOCKED 0 0⟩
     let d := s.dev
     let c := cls.toNat
     let free := d.on .SEC_DBG_STAT_BLOCKED 0 = false
     free ∧ (((c ≠ 1 ∧ c ≠ 2) ∨ d.dbgAllowed c = false ∨ (c = 2 ∧ d.quietDevice = false)))) ∧
    (let cls : BitVec 2 := 1
     let s : State := ⟨[], [], on |>.st .SEC_DBG_STAT_BLOCKED 0 0⟩
     let d := s.dev
     let c := cls.toNat
     let free := d.on .SEC_DBG_STAT_BLOCKED 0 = false
     free ∧ c = 1 ∧ d.dbgAllowed 1 = true) ∧
    (let cls : BitVec 2 := 2
     let s : State := ⟨[], [], on |>.st .SEC_DBG_STAT_BLOCKED 0 0 |>.st .SEC_LC_STATE 0 3⟩
     let d := s.dev
     let c := cls.toNat
     let free := d.on .SEC_DBG_STAT_BLOCKED 0 = false
     s.wf ∧ free ∧ c = 2 ∧ d.dbgAllowed 2 = true ∧ d.quietDevice = true) ∧
    (let cls : BitVec 2 := 1
     let s : State := ⟨[], [], on |>.st .SEC_DBG_STAT_BLOCKED 0 0 |>.st .SEC_LC_STATE 0 2 |>.st .SEC_DBG_STAT_FAILCNT 0 1⟩
     let d := s.dev
     let c := cls.toNat
     let free := d.on .SEC_DBG_STAT_BLOCKED 0 = false
     let fails := d.rg .SEC_DBG_STAT_FAILCNT 0
     free ∧ c = 1 ∧ d.dbgAllowed 1 = true ∧ fails < 2) ∧
    (let cls : BitVec 2 := 1
     let s : State := ⟨[], [], on |>.st .SEC_DBG_STAT_BLOCKED 0 0 |> fun d => { d with taken := [] } |> fun d =>
         { d with modeChg := none } |>.st .SEC_DBG_STAT_FAILCNT 0 2⟩
     let d := s.dev
     let c := cls.toNat
     let free := d.on .SEC_DBG_STAT_BLOCKED 0 = false
     let fails := d.rg .SEC_DBG_STAT_FAILCNT 0
     free ∧ c = 1 ∧ d.dbgAllowed 1 = true ∧ 2 ≤ fails ∧ d.taken = [] ∧ d.modeChg = none) ∧
    (let s : State := ⟨[], [], on |>.st .SEC_ATT_STAT_BUSY 0 0⟩
     let d := s.dev
     let busy := d.on .SEC_ATT_STAT_BUSY 0 = true
     ¬busy) ∧
    (let s : State := ⟨[], [], on |>.st .SEC_ATT_STAT_BUSY 0 1⟩
     let d := s.dev
     let busy := d.on .SEC_ATT_STAT_BUSY 0 = true
     busy) := by
  refine ⟨?_, ?_, ?_, ?_, ?_, ?_, ?_, ?_⟩
  · dsimp only; decide +kernel
  · dsimp only; decide +kernel
  · dsimp only; decide +kernel
  · dsimp only; decide +kernel
  · dsimp only; decide +kernel
  · dsimp only; decide +kernel
  · dsimp only; decide +kernel
  · dsimp only; decide +kernel

/-- What each clause of `RegisterAccess` supposes is met. -/
theorem witness_RegisterAccess :
    (let addr : BitVec 26 := 0
     let l : List Byte := []
     let a := addr.toNat
     sizeOk a l.length = false) ∧
    (let addr : BitVec 26 := 0x200030
     let l : List Byte := leList 4 5
     let a := addr.toNat
     sizeOk a l.length = true ∧ accessDom a l.length = none) ∧
    (let addr : BitVec 26 := 0x200000
     let l : List Byte := leList 4 5
     let k : Nat := 0
     let s : State := ⟨[], [], on |>.setDom 0 2⟩
     let a := addr.toNat
     let d := (s.playedAt a).dev
     sizeOk a l.length = true ∧ accessDom a l.length = some k ∧ d.domOn k = false ∧ ((∀ h ∈ hits a l.length, h.1.f ≠
       .FEB_HCMD_FRAME))) ∧
    (let addr : BitVec 26 := 0x908
     let l : List Byte := leList 4 77
     let s : State := ⟨[], [], on |> fun d => { d with rstWin := none } |>.setDom 0 0⟩
     let a := addr.toNat
     let d := (s.playedAt a).dev
     let four := l.length = 4 ∧ d.rstWin = none
     four ∧ a = 0x908 ∧ d.domOn 0 = true) ∧
    (let addr : BitVec 26 := 0x48
     let l : List Byte := leList 4 1
     let s : State := ⟨[], [], on |> fun d => { d with rstWin := none } |>.setDom 1 0 |>.st .HOST_STAT_BADACC 0 1⟩
     let a := addr.toNat
     let d := (s.playedAt a).dev
     let v := leNat (l.map (·.toNat))
     let four := l.length = 4 ∧ d.rstWin = none
     four ∧ a = 0x48 ∧ d.domOn 1 = true ∧ d.rg .HOST_STAT_BADACC 0 = 1 ∧ v % 4 = 1) ∧
    (let addr : BitVec 26 := 0x48
     let l : List Byte := leList 4 4
     let s : State := ⟨[], [], on |> fun d => { d with rstWin := none } |>.setDom 1 0 |>.st .HOST_STAT_BADACC 0 1⟩
     let a := addr.toNat
     let d := (s.playedAt a).dev
     let v := leNat (l.map (·.toNat))
     let four := l.length = 4 ∧ d.rstWin = none
     four ∧ a = 0x48 ∧ d.domOn 1 = true ∧ d.rg .HOST_STAT_BADACC 0 = 1 ∧ v % 4 = 0) ∧
    (let addr : BitVec 26 := 0x200018
     let l : List Byte := leList 4 4
     let s : State := ⟨[], [], on |> fun d => { d with rstWin := none } |>.setDom 0 0⟩
     let a := addr.toNat
     let d := (s.playedAt a).dev
     let four := l.length = 4 ∧ d.rstWin = none
     four ∧ a = 0x200018 ∧ d.domOn 0 = true) ∧
    (let addr : BitVec 26 := 0x400030
     let l : List Byte := leList 4 0x1234
     let s : State := ⟨[], [], on |> fun d => { d with rstWin := none } |>.setDom 0 0⟩
     let a := addr.toNat
     let d := (s.playedAt a).dev
     let four := l.length = 4 ∧ d.rstWin = none
     four ∧ a = 0x400030 ∧ d.domOn 0 = true ∧ d.lc ≤ 1) ∧
    (let addr : BitVec 26 := 0x400030
     let l : List Byte := leList 4 0x1234
     let s : State := ⟨[], [], on |> fun d => { d with rstWin := none } |>.setDom 0 0 |>.st .SEC_LC_STATE 0 2⟩
     let a := addr.toNat
     let d := (s.playedAt a).dev
     let four := l.length = 4 ∧ d.rstWin = none
     four ∧ a = 0x400030 ∧ d.domOn 0 = true ∧ 1 < d.lc) ∧
    (let addr : BitVec 26 := 0x3180028
     let l : List Byte := leList 8 0x123456789
     let c : CluId := 1
     let b : Fin 2 := 1
     let i : Nat := 5
     let s : State := ⟨[], [], on |>.setDom (3 + c.val) 0 |> fun d => { d with errs := [] } |> fun d => { d with poison := [] }⟩
     let a := addr.toNat
     let d := (s.playedAt a).dev
     let bank := a = progMem c b i ∧ l.length = 8 ∧ i < 65536 ∧ d.domOn (3 + c.val) = true
     s.wf ∧ bank ∧ d.bankUsers c b = 0 ∧ d.errs = [] ∧ d.poison = []) ∧
    (let addr : BitVec 26 := 0x3100028
     let l : List Byte := leList 8 0x123456789
     let c : CluId := 1
     let b : Fin 2 := 0
     let i : Nat := 5
     let s : State := ⟨[], [], on |>.setDom (3 + c.val) 0⟩
     let a := addr.toNat
     let d := (s.playedAt a).dev
     let bank := a = progMem c b i ∧ l.length = 8 ∧ i < 65536 ∧ d.domOn (3 + c.val) = true
     bank ∧ d.bankUsers c b ≠ 0) ∧
    (let addr : BitVec 26 := 0x1110400
     let l : List Byte := leList 8 0x1234
     let k : Nat := 4
     let s : State := ⟨[], [], on |>.setDom k 0⟩
     let a := addr.toNat
     let d := (s.playedAt a).dev
     sizeOk a l.length = true ∧ accessDom a l.length = some k ∧ d.domOn k = true ∧ winOf a = none ∧ ((∀ h ∈ hits a l.length,
       h.1.f.info.acc = .rwb))) ∧
    (let addr : BitVec 26 := 0
     let n : BitVec 10 := 0
     let a := addr.toNat
     sizeOk a n.toNat = false) ∧
    (let addr : BitVec 26 := 0x200000
     let n : BitVec 10 := 4
     let k : Nat := 0
     let s : State := ⟨[], [], on |>.setDom 0 2⟩
     let a := addr.toNat
     let d := (s.playedAt a).dev
     sizeOk a n.toNat = true ∧ accessDom a n.toNat = some k ∧ d.domOn k = false) ∧
    (let addr : BitVec 26 := 0x20002C
     let n : BitVec 10 := 4
     let s : State := ⟨[], [], on |>.setDom 0 0⟩
     let a := addr.toNat
     let d := (s.playedAt a).dev
     a = 0x20002C ∧ n.toNat = 4 ∧ d.domOn 0 = true) ∧
    (let addr : BitVec 26 := 0x908
     let n : BitVec 10 := 4
     let s : State := ⟨[], [], on |>.setDom 0 0⟩
     let a := addr.toNat
     let d := (s.playedAt a).dev
     a = 0x908 ∧ n.toNat = 4 ∧ d.domOn 0 = true) := by
  refine ⟨?_, ?_, ?_, ?_, ?_, ?_, ?_, ?_, ?_, ?_, ?_, ?_, ?_, ?_, ?_, ?_⟩
  · dsimp only; decide +kernel
  · dsimp only; decide +kernel
  · dsimp only; decide +kernel
  · dsimp only; decide +kernel
  · dsimp only; decide +kernel
  · dsimp only; decide +kernel
  · dsimp only; decide +kernel
  · dsimp only; decide +kernel
  · dsimp only; decide +kernel
  · dsimp only; decide +kernel
  · dsimp only; decide +kernel
  · dsimp only; decide +kernel
  · dsimp only; decide +kernel
  · dsimp only; decide +kernel
  · dsimp only; decide +kernel
  · dsimp only; decide +kernel

/-- What each clause of `HostMemory` supposes is met. -/
theorem witness_HostMemory :
    (let addr : BitVec 26 := 0x200000
     let len : Byte := 1
     let s : State := ⟨[], [], on |>.setDom 1 0 |>.setDom 0 0 |> fun d => { d with rstWin := none } |>.st .PWR_REQ_MASK_MASK 0
         0x12345678⟩
     let d := s.dev
     s.wf ∧ d.domOn 1 = true ∧ d.domOn 0 = true ∧ d.rstWin = none ∧ addr.toNat = 0x200000 ∧ len.toNat = 1) ∧
    (let addr : BitVec 26 := 0x200004
     let s : State := ⟨[], [], on |>.setDom 1 0 |> fun d => { d with rstWin := none }⟩
     let d := s.dev
     d.domOn 1 = true ∧ d.rstWin = none ∧ addr.toNat % 16 ≠ 0) ∧
    (let s : State := ⟨[], [], on |> fun d => { d with rstWin := none }⟩
     let d := s.dev
     d.rstWin = none) ∧
    (let off : BitVec 32 := 0
     let n : BitVec 13 := 8
     let s : State := ⟨[], [], on |>.st .DRC_STAT_STATE 0 3 |>.st .HOST_READY_THIMBLE 0 1 |>.st .DRC_CFG_POP 0 1 |>.st
         .DRC_CFG_DENS 0 1 |>.st .DRC_STAT_STATE 0 4⟩
     let d := s.dev
     let x := d.rg .HOST_BAR2_BASE_BASE 0 * 2 ^ 21 + off.toNat
     let line := x / 256
     let here := d.bar2Off line = false
     let reads := 0 < n.toNat ∧ x % 256 + n.toNat ≤ 256
     reads ∧ here ∧ d.dramPath line = .waits) ∧
    (let off : BitVec 32 := 248
     let n : BitVec 13 := 8
     let s : State := ⟨[], memWrite [] (dramBase + 250) [5], on |> fun d => { d with errs := [] } |> fun d =>
         { d with poison := [] } |>.st .DRC_STAT_STATE 0 3 |>.st .HOST_READY_THIMBLE 0 1 |>.st .DRC_CFG_POP 0 1 |>.st .DRC_CFG_DENS
         0 1⟩
     let d := s.dev
     let x := d.rg .HOST_BAR2_BASE_BASE 0 * 2 ^ 21 + off.toNat
     let line := x / 256
     let here := d.bar2Off line = false
     let reads := 0 < n.toNat ∧ x % 256 + n.toNat ≤ 256
     let clean := d.errs = [] ∧ d.poison = []
     reads ∧ clean ∧ here ∧ d.dramPath line = .served ∧ d.unzeroed line = false ∧ d.sealed line = false) ∧
    (let off : BitVec 32 := 0
     let n : BitVec 13 := 8
     let s : State := ⟨[], [], on |>.st .DRC_STAT_STATE 0 3 |>.st .HOST_READY_THIMBLE 0 1 |>.st .DRC_CFG_POP 0 1 |>.st
         .DRC_CFG_DENS 0 1 |>.sti .SEC_REG_CTRL_ACTIVE 0 3 1 |>.sti .SEC_REG_BASE_LINE 0 3 0 |>.sti .SEC_REG_CTRL_LINES 0 3 2⟩
     let d := s.dev
     let x := d.rg .HOST_BAR2_BASE_BASE 0 * 2 ^ 21 + off.toNat
     let line := x / 256
     let here := d.bar2Off line = false
     let reads := 0 < n.toNat ∧ x % 256 + n.toNat ≤ 256
     reads ∧ here ∧ d.dramPath line ≠ .waits ∧ d.sealed line = true) ∧
    (let off : BitVec 32 := 0x130
     let l : List Byte := List.replicate 16 7
     let s : State := ⟨[], [], on |>.st .DRC_STAT_STATE 0 3 |>.st .HOST_READY_THIMBLE 0 1 |>.st .DRC_CFG_POP 0 1 |>.st
         .DRC_CFG_DENS 0 1 |>.st .DRC_STAT_STATE 0 4⟩
     let d := s.dev
     let x := d.rg .HOST_BAR2_BASE_BASE 0 * 2 ^ 21 + off.toNat
     let line := x / 256
     let here := d.bar2Off line = false
     let writes := l.length = 16 ∧ x % 16 = 0
     writes ∧ here ∧ d.writePath line = .waits) ∧
    (let off : BitVec 32 := 0x130
     let l : List Byte := List.replicate 16 7
     let s : State := ⟨[], [], on |> fun d => { d with errs := [] } |>.st .DRC_STAT_STATE 0 3 |>.st .HOST_READY_THIMBLE 0 1 |>.st
         .DRC_CFG_POP 0 1 |>.st .DRC_CFG_DENS 0 1⟩
     let d := s.dev
     let x := d.rg .HOST_BAR2_BASE_BASE 0 * 2 ^ 21 + off.toNat
     let line := x / 256
     let here := d.bar2Off line = false
     let writes := l.length = 16 ∧ x % 16 = 0
     s.wf ∧ writes ∧ here ∧ d.writePath line = .served ∧ d.sealed line = false ∧ d.awgGuard line = none ∧ d.unzeroed line =
       false ∧ d.errs = []) ∧
    (let off : BitVec 32 := 0x130
     let l : List Byte := List.replicate 16 7
     let s : State := ⟨[], [], on |>.st .DRC_STAT_STATE 0 3 |>.st .HOST_READY_THIMBLE 0 1 |>.st .DRC_CFG_POP 0 1 |>.st
         .DRC_CFG_DENS 0 1 |>.sti .SEC_REG_CTRL_ACTIVE 0 3 1 |>.sti .SEC_REG_BASE_LINE 0 3 0 |>.sti .SEC_REG_CTRL_LINES 0 3 2⟩
     let d := s.dev
     let x := d.rg .HOST_BAR2_BASE_BASE 0 * 2 ^ 21 + off.toNat
     let line := x / 256
     let here := d.bar2Off line = false
     let writes := l.length = 16 ∧ x % 16 = 0
     writes ∧ here ∧ d.writePath line ≠ .waits ∧ d.sealed line = true) ∧
    (let off : BitVec 32 := 0x130
     let l : List Byte := List.replicate 16 7
     let s : State := ⟨[], [], on⟩
     let d := s.dev
     let x := d.rg .HOST_BAR2_BASE_BASE 0 * 2 ^ 21 + off.toNat
     let line := x / 256
     let writes := l.length = 16 ∧ x % 16 = 0
     writes ∧ d.lineAt line = none ∧ d.sealed line = false) ∧
    (let off : BitVec 32 := 0
     let n : BitVec 13 := 8
     let s : State := ⟨[], [], on |>.st .HOST_READY_THIMBLE 0 1 |>.st .DRC_CFG_POP 0 1 |>.st .DRC_CFG_DENS 0 1 |>.setDom 30 2⟩
     let d := s.dev
     let x := d.rg .HOST_BAR2_BASE_BASE 0 * 2 ^ 21 + off.toNat
     let line := x / 256
     let here := d.bar2Off line = false
     let reads := 0 < n.toNat ∧ x % 256 + n.toNat ≤ 256
     reads ∧ ¬here) ∧
    (let off : BitVec 32 := 0x130
     let l : List Byte := List.replicate 16 7
     let s : State := ⟨[], [], on |>.st .HOST_READY_THIMBLE 0 1 |>.st .DRC_CFG_POP 0 1 |>.st .DRC_CFG_DENS 0 1 |>.setDom 30 2⟩
     let d := s.dev
     let x := d.rg .HOST_BAR2_BASE_BASE 0 * 2 ^ 21 + off.toNat
     let line := x / 256
     let here := d.bar2Off line = false
     let writes := l.length = 16 ∧ x % 16 = 0
     writes ∧ ¬here) ∧
    (let m : CodedMem := .bobbin 0
     let w : BitVec 16 := 0
     let s : State := ⟨[], [], on⟩
     let d := s.dev
     ((∀ y, d.codedWord m w.toNat = some y → d.errs.get? y = none))) ∧
    (let m : CodedMem := .bobbin 17
     let w : BitVec 16 := 3
     let k : Fin 36 := 7
     let v : BitVec 4 := 5
     let a : Nat := 0x1800000 + 0x10000 * 17 + 48
     let s : State := ⟨[], memWrite [] a [9], on |> fun d => { d with errs := [(a, [(7, 5)])] }⟩
     let d := s.dev
     let scrubs := m ≠ .dram ∧ ∀ e, m ≠ .failBuf e ∧ m ≠ .queue e
     s.wf ∧ scrubs ∧ d.codedWord m w.toNat = some a ∧ d.errs.get? a = some [(k.val, v.toNat)] ∧ a ∉ d.poison) ∧
    (let m : CodedMem := .bobbin 17
     let w : BitVec 16 := 3
     let a : Nat := 0x1800000 + 0x10000 * 17 + 48
     let s : State := ⟨[], [], on |> fun d => { d with errs := [(a, [(7, 5), (9, 1)])] }⟩
     let d := s.dev
     let scrubs := m ≠ .dram ∧ ∀ e, m ≠ .failBuf e ∧ m ≠ .queue e
     scrubs ∧ d.codedWord m w.toNat = some a ∧ a ∉ d.poison ∧ ((∃ p q, d.errs.get? a = some [p, q]))) ∧
    (let m : CodedMem := .dram
     let w' : BitVec 34 := 3
     let s : State := ⟨[], [], on⟩
     let d := s.dev
     d.codedWord m w'.toNat = none) ∧
    (let m : CodedMem := .bobbin 17
     let w' : BitVec 34 := 3
     let v : BitVec 4 := 5
     let a : Nat := 0x1800000 + 0x10000 * 17 + 48
     let s : State := ⟨[], [], on |> fun d => { d with errs := [] }⟩
     let d := s.dev
     d.codedWord m w'.toNat = some a ∧ a ∉ d.poison ∧ d.errs.get? a = none ∧ v ≠ 0) ∧
    (let m : CodedMem := .bobbin 17
     let w' : BitVec 34 := 3
     let k : Fin 36 := 7
     let v : BitVec 4 := 5
     let a : Nat := 0x1800000 + 0x10000 * 17 + 48
     let s : State := ⟨[], [], on |> fun d => { d with errs := [(a, [(7, 5)])] }⟩
     let d := s.dev
     d.codedWord m w'.toNat = some a ∧ a ∉ d.poison ∧ d.errs.get? a = some [(k.val, v.toNat)]) := by
  refine ⟨?_, ?_, ?_, ?_, ?_, ?_, ?_, ?_, ?_, ?_, ?_, ?_, ?_, ?_, ?_, ?_, ?_, ?_⟩
  · dsimp only; decide +kernel
  · dsimp only; decide +kernel
  · dsimp only
  · dsimp only; decide +kernel
  · dsimp only; decide +kernel
  · dsimp only; decide +kernel
  · dsimp only; decide +kernel
  · dsimp only; decide +kernel
  · dsimp only; decide +kernel
  · dsimp only; decide +kernel
  · dsimp only; decide +kernel
  · dsimp only; decide +kernel
  · dsimp only; decide +kernel
  · dsimp only; decide +kernel
  · dsimp only; exact ⟨by decide +kernel, by decide +kernel, by decide +kernel, ⟨_, _, rfl⟩⟩
  · dsimp only; decide +kernel
  · dsimp only; decide +kernel
  · dsimp only; decide +kernel

/-- What each clause of `SideBand` supposes is met. -/
theorem witness_SideBand :
    (let addr : BitVec 26 := 0x908
     let s : State := ⟨[], [], on |>.setDom 0 0⟩
     let d := s.smbIn.dev
     addr.toNat = 0x908 ∧ d.domOn 0 = true) ∧
    (let addr : BitVec 26 := 2
     let eight : Bool := false
     sizeOk addr.toNat (if eight then 8 else 4) = false) ∧
    (let l : List Byte := []
     l.length ≠ 4 ∧ l.length ≠ 8) ∧
    (let addr : BitVec 26 := 0x908
     let l : List Byte := leList 4 77
     let s : State := ⟨[], [], on |>.setDom 0 0 |> fun d => { d with rstWin := none }⟩
     let d := s.smbIn.dev
     l.length = 4 ∧ addr.toNat = 0x908 ∧ d.domOn 0 = true ∧ d.rstWin = none) ∧
    (let n : LogEntry := ⟨0, 1, 2, 3, 4⟩
     let m : List LogEntry := []
     let s : State := ⟨[], [], on |> fun d => { d with log := n :: m }⟩
     let d := s.smbIn.dev
     d.log = n :: m) ∧
    (let s : State := ⟨[], [], on |> fun d => { d with log := [] }⟩
     let d := s.smbIn.dev
     d.log = []) ∧
    (let v : Fin 256 := 5
     let s : State := ⟨[], [], on |> fun d => { d with pba := [5, 6], msixEn := true, msixFn := false }⟩
     let h := s.dev
     h.domOn 1 = true ∧ v.val ∈ h.pba ∧ h.msixEn = true ∧ h.msixFn = false) ∧
    (let s : State := ⟨[], [], on⟩
     let h := s.dev
     h.domOn 1 = true) ∧
    (let s : State := ⟨[], [], on |>.setDom 1 2⟩
     let h := s.dev
     h.domOn 1 = false) := by
  refine ⟨?_, ?_, ?_, ?_, ?_, ?_, ?_, ?_, ?_⟩
  · dsimp only; rw [smbIn_awake (by decide +kernel)]; decide +kernel
  · dsimp only; decide +kernel
  · dsimp only; decide +kernel
  · dsimp only; rw [smbIn_awake (by decide +kernel)]; decide +kernel
  · dsimp only; rw [smbIn_awake (by decide +kernel)]
  · dsimp only; rw [smbIn_awake (by decide +kernel)]
  · dsimp only; decide +kernel
  · dsimp only; decide +kernel
  · dsimp only; decide +kernel

/-- What each clause of `DmaChannels` supposes is met. -/
theorem witness_DmaChannels :
    (let c : DmaId := 2
     let s : State := ⟨[], [], on⟩
     let d := s.dev
     let head := d.rg .DMA_HEAD_INDEX c
     let tail := d.rg .DMA_TAIL_INDEX c
     let idle := d.domUp 1 = true ∧ d.on .DMA_CTRL_EN c = true ∧ d.on .DMA_STAT_HALTED c = false ∧ d.on .DMA_STAT_RUN c = false
     (¬idle ∨ head = tail % d.ringSize c)) ∧
    (let c : DmaId := 2
     let s : State := ⟨[], [], on |>.st .DMA_CTRL_EN c 1 |>.st .DMA_STAT_HALTED c 0 |>.st .DMA_STAT_RUN c 0 |>.st .DMA_CTRL_EN 2
         1 |>.st .DMA_TAIL_INDEX 2 1⟩
     let d := s.dev
     let head := d.rg .DMA_HEAD_INDEX c
     let tail := d.rg .DMA_TAIL_INDEX c
     let idle := d.domUp 1 = true ∧ d.on .DMA_CTRL_EN c = true ∧ d.on .DMA_STAT_HALTED c = false ∧ d.on .DMA_STAT_RUN c = false
     let work := idle ∧ head ≠ tail % d.ringSize c
     work) ∧
    (let c : DmaId := 2
     let l : List Byte := leList 32 (0x1000 + 0x2000 * 2 ^ 64 + 16 * 2 ^ 128 + 16 * 2 ^ 160)
     let s : State := ⟨[], [], on |>.st .DMA_CTRL_EN c 1 |>.st .DMA_STAT_HALTED c 0 |>.st .DMA_STAT_RUN c 0 |>.st .DMA_CTRL_EN 2
         1 |>.st .DMA_TAIL_INDEX 2 1⟩
     let d := s.dev
     let bytes := l.map (·.toNat)
     let head := d.rg .DMA_HEAD_INDEX c
     let tail := d.rg .DMA_TAIL_INDEX c
     let idle := d.domUp 1 = true ∧ d.on .DMA_CTRL_EN c = true ∧ d.on .DMA_STAT_HALTED c = false ∧ d.on .DMA_STAT_RUN c = false
     let work := idle ∧ head ≠ tail % d.ringSize c
     work ∧ descBad bytes = true) ∧
    (let c : DmaId := 2
     let l : List Byte := leList 32 (0x1000 + 0x2000 * 2 ^ 64 + 16 * 2 ^ 128 + 1 * 2 ^ 160)
     let s : State := ⟨[], [], on |>.st .DMA_CTRL_EN c 1 |>.st .DMA_STAT_HALTED c 0 |>.st .DMA_STAT_RUN c 0 |>.st .DMA_CTRL_EN 2
         1 |>.st .DMA_TAIL_INDEX 2 1⟩
     let d := s.dev
     let bytes := l.map (·.toNat)
     let head := d.rg .DMA_HEAD_INDEX c
     let tail := d.rg .DMA_TAIL_INDEX c
     let idle := d.domUp 1 = true ∧ d.on .DMA_CTRL_EN c = true ∧ d.on .DMA_STAT_HALTED c = false ∧ d.on .DMA_STAT_RUN c = false
     let work := idle ∧ head ≠ tail % d.ringSize c
     let ctrl := leNat ((bytes.drop 20).take 2)
     work ∧ descBad bytes = false ∧ ctrl / 8 % 2 = 0) ∧
    (let c : DmaId := 2
     let s : State := ⟨[], [], on⟩
     let d := s.dev
     d.dmas.get? c.val = none) ∧
    (let c : DmaId := 2
     let x : Dma := ⟨0x101, 0x200, 16, 0⟩
     let s : State := ⟨[], [], on |>.setDom 1 0 |> fun d => { d with dmas := [(2, x)] }⟩
     let d := s.dev
     let runs := d.domOn 1 = true ∧ d.dmas.get? c.val = some x
     runs ∧ x.ctrl / 2 % 2 = 0 ∧ (x.haddr % 16 ≠ 0 ∨ x.daddr % 16 ≠ 0)) ∧
    (let c : DmaId := 2
     let x : Dma := ⟨0x100, 0x200, 16, 0⟩
     let s : State := ⟨[], [], on |>.setDom 1 0 |>.st .DRC_STAT_STATE 0 3 |>.st .HOST_READY_THIMBLE 0 1 |>.st .DRC_CFG_POP 0 1
         |>.st .DRC_CFG_DENS 0 1 |>.st .DRC_STAT_STATE 0 4 |> fun d => { d with dmas := [(2, x)] }⟩
     let d := s.dev
     let runs := d.domOn 1 = true ∧ d.dmas.get? c.val = some x
     let line := x.daddr / 256
     let short := runs ∧ x.len = 16 ∧ x.haddr % 16 = 0 ∧ x.daddr % 16 = 0
     short ∧ x.ctrl = 0 ∧ d.writePath line = .waits) ∧
    (let c : DmaId := 2
     let r : DmaData := ⟨List.replicate 16 7, [], none⟩
     let x : Dma := ⟨0x100, 0x200, 16, 0⟩
     let s : State := ⟨[], [], on |>.setDom 1 0 |> fun d => { d with errs := [] } |>.st .DRC_STAT_STATE 0 3 |>.st
         .HOST_READY_THIMBLE 0 1 |>.st .DRC_CFG_POP 0 1 |>.st .DRC_CFG_DENS 0 1 |> fun d => { d with dmas := [(2, x)] }⟩
     let d := s.dev
     let runs := d.domOn 1 = true ∧ d.dmas.get? c.val = some x
     let line := x.daddr / 256
     let short := runs ∧ x.len = 16 ∧ x.haddr % 16 = 0 ∧ x.daddr % 16 = 0
     s.wf ∧ short ∧ x.ctrl = 0 ∧ d.writePath line = .served ∧ d.sealed line = false ∧ d.awgGuard line = none ∧ d.unzeroed
       line = false ∧ d.errs = [] ∧ r.data.length = 16 ∧ r.bad = [] ∧ r.err = none) ∧
    (let c : DmaId := 2
     let x : Dma := ⟨0x100, 0x200, 16, 1⟩
     let s : State := ⟨[], memWrite [] (dramBase + 0x200) [9], on |>.setDom 1 0 |> fun d => { d with errs := [] } |> fun d =>
         { d with poison := [] } |>.st .DRC_STAT_STATE 0 3 |>.st .HOST_READY_THIMBLE 0 1 |>.st .DRC_CFG_POP 0 1 |>.st .DRC_CFG_DENS
         0 1 |> fun d => { d with dmas := [(2, x)] }⟩
     let d := s.dev
     let runs := d.domOn 1 = true ∧ d.dmas.get? c.val = some x
     let line := x.daddr / 256
     let short := runs ∧ x.len = 16 ∧ x.haddr % 16 = 0 ∧ x.daddr % 16 = 0
     short ∧ x.ctrl = 1 ∧ d.dramPath line = .served ∧ d.unzeroed line = false ∧ d.sealed line = false ∧ d.errs = [] ∧
       d.poison = []) ∧
    (let c : DmaId := 2
     let r : DmaData := ⟨List.replicate 16 7, [], none⟩
     let x : Dma := ⟨0x100, 0x200, 16, 0⟩
     let s : State := ⟨[], [], on |>.setDom 1 0 |> fun d => { d with dmas := [(2, x)] }⟩
     let d := s.dev
     let runs := d.domOn 1 = true ∧ d.dmas.get? c.val = some x
     let line := x.daddr / 256
     let short := runs ∧ x.len = 16 ∧ x.haddr % 16 = 0 ∧ x.daddr % 16 = 0
     short ∧ x.ctrl = 0 ∧ d.lineAt line = none ∧ r.data.length = 16 ∧ r.err = none) ∧
    (let s : State := ⟨[], [], on |>.setDom 1 0⟩
     let d := s.dev
     d.domOn 1 = true) ∧
    (let s : State := ⟨[], [], on |>.setDom 1 2⟩
     let d := s.dev
     d.domOn 1 = false) := by
  refine ⟨?_, ?_, ?_, ?_, ?_, ?_, ?_, ?_, ?_, ?_, ?_, ?_⟩
  · dsimp only; decide +kernel
  · dsimp only; decide +kernel
  · dsimp only; decide +kernel
  · dsimp only; decide +kernel
  · dsimp only; decide +kernel
  · dsimp only; decide +kernel
  · dsimp only; decide +kernel
  · dsimp only; decide +kernel
  · dsimp only; decide +kernel
  · dsimp only; decide +kernel
  · dsimp only; decide +kernel
  · dsimp only; decide +kernel

/-- What each clause of `TestAccess` supposes is met. -/
theorem witness_TestAccess :
    (let s : State := ⟨[], [], on |> fun d => { d with taken := [] } |>.setDom 1 0⟩
     let d := s.dev
     let mode := d.rg .SEW_MODE_MODE 0
     d.taken = [] ∧ d.domOn 1 = true ∧ mode ≤ 1) ∧
    (let s : State := ⟨[], [], on |>.setDom 1 0 |>.st .SEW_MODE_MODE 0 2⟩
     let d := s.dev
     let mode := d.rg .SEW_MODE_MODE 0
     d.domOn 1 = true ∧ 1 < mode ∧ d.tap.test = none) ∧
    (let s : State := ⟨[], [], on |>.setDom 1 0 |>.st .SEW_MODE_MODE 0 2 |> fun d => { d with tap := { test := some .extest } }⟩
     let d := s.dev
     let mode := d.rg .SEW_MODE_MODE 0
     d.domOn 1 = true ∧ 1 < mode ∧ d.tap.test.isSome) ∧
    (let s : State := ⟨[], [], on |>.setDom 1 2⟩
     let d := s.dev
     d.domOn 1 = false) ∧
    (let s : State := ⟨[], [], on |> fun d => { d with tap := { test := some .extest } }⟩
     let d := s.dev
     d.tap.test.isSome) ∧
    (let s : State := ⟨[], [], on⟩
     let d := s.dev
     d.tap.test = none) ∧
    (let addr : BitVec 26 := 3
     let s : State := ⟨[], [], on |>.setDom 1 0 |> fun d => { d with rstWin := none }⟩
     let d := s.dev
     let open_ := d.domOn 1 = true ∧ d.dbgOpen 1 = true ∧ d.tap.test = none ∧ d.rstWin = none
     open_ ∧ sizeOk addr.toNat 8 = false) ∧
    (let addr : BitVec 26 := 0x908
     let s : State := ⟨[], [], on |>.setDom 1 0 |> fun d => { d with rstWin := none } |>.setDom 0 0⟩
     let d := s.dev
     let open_ := d.domOn 1 = true ∧ d.dbgOpen 1 = true ∧ d.tap.test = none ∧ d.rstWin = none
     open_ ∧ d.domOn 0 = true ∧ addr.toNat = 0x908) ∧
    (let s : State := ⟨[], [], on |>.st .SEC_LC_STATE 0 2⟩
     let d := s.dev
     d.dbgOpen 1 = false) := by
  refine ⟨?_, ?_, ?_, ?_, ?_, ?_, ?_, ?_, ?_⟩
  · dsimp only; decide +kernel
  · dsimp only; decide +kernel
  · dsimp only; decide +kernel
  · dsimp only; decide +kernel
  · dsimp only; decide +kernel
  · dsimp only; decide +kernel
  · dsimp only; decide +kernel
  · dsimp only; decide +kernel
  · dsimp only; decide +kernel

end Sys2Proof.Tests
end

section
/-!
Ownership of the quads after power-on reset (R15).
-/

namespace Sys2Proof.Machine

/-! ## Power-on reset -/

theorem AMap.get?_filter_eq_none {κ α : Type} [DecidableEq κ] (m : AMap κ α) (p : κ × α → Bool) (k : κ)
    (h : ∀ v, p (k, v) = false) : AMap.get? (m.filter p) k = none := by
  induction m with
  | nil => rfl
  | cons x m ih =>
    obtain ⟨j, v⟩ := x
    by_cases hp : p (j, v) = true
    · have hj : j ≠ k := by rintro rfl; simp [h v] at hp
      simpa only [List.filter_cons_of_pos hp, AMap.get?, if_neg hj] using ih
    · simpa only [List.filter_cons_of_neg hp] using ih

/-- A field with no stored value reads its reset value after power-on reset. -/
theorem Dev.afterReset_power_key (d : Dev) (t : Nat) {k : RegKey} (h : k.f ∉ storedFields) :
    (d.afterReset t true).key k = k.reset := by
  have hk : AMap.get? (d.afterReset t true).regs k = none :=
    AMap.get?_filter_eq_none _ _ _ (fun _ => by simpa using h)
  rw [Dev.key, hk, Option.getD_none]

/-- Where no sew has taken a value, a field acts as it reads. -/
theorem Dev.eff_of_taken_nil {d : Dev} (h : d.taken = []) (f : Field) (u : Nat) : d.eff f u = d.rg f u := by
  simp [Dev.eff, h]

theorem Dev.afterReset_power_eff (d : Dev) (t : Nat) {f : Field} (h : f ∉ storedFields) (u : Nat) :
    (d.afterReset t true).eff f u = RegKey.reset ⟨f, u, 0⟩ :=
  (Dev.eff_of_taken_nil rfl f u).trans (Dev.afterReset_power_key d t h)

/-- After power-on reset every quad is owned by the engine of its own number. -/
theorem Dev.afterReset_power_quadOwner (d : Dev) (t q : Nat) : (d.afterReset t true).quadOwner q = some q := by
  have howner := Dev.afterReset_power_eff d t (f := .PIN_QOWN_OWNER) (by decide) q
  have hunowned := Dev.afterReset_power_eff d t (f := .PIN_QOWN_UNOWNED) (by decide) q
  have hq : q / 16 * 16 + q % 16 = q := by omega
  simp [Dev.quadOwner, howner, hunowned, RegKey.reset, Field.info, hq]

/-- Where every quad is owned by the engine of its own number, an engine has its own quad alone. -/
theorem Dev.quads_of_quadOwner {d : Dev} (h : ∀ q, d.quadOwner q = some q) (e : Nat) : d.quads e = [e] := by
  have hmem : e ∈ List.range' (e / 16 * 16) 16 := by rw [List.mem_range'_1]; omega
  calc d.quads e = (List.range' (e / 16 * 16) 16).filter (· == e) := by
        simp [Dev.quads, h, List.range'_eq_map_range]
    _ = [e] := by
        rw [List.filter_beq, List.count_eq_one_of_mem List.nodup_range' hmem, List.replicate_one]

/-- Settles O6: the fields of ownership hold their reset values, and no sew has taken others. -/
theorem powerOnOwnership : Obligations.PowerOnOwnership := by
  unfold Obligations.PowerOnOwnership
  intro s n q
  have howner := Dev.afterReset_power_quadOwner s.dev s.dev.tick
  refine ⟨_, rfl, ?_, Dev.quads_of_quadOwner howner n⟩
  rw [State.afterReset, howner q, Option.some_inj, Fin.val_inj]

end Sys2Proof.Machine
end

section
/-!
BAR0 writes of a size or alignment that R473 does not allow, and the mark they leave while HOST is on and while it is not.
-/

namespace Sys2Proof.Machine

/-- An access outside the transmit links, the AWGs and their tables finds the state as it is. -/
theorem State.playedAt_of_not_isPlay {a : Nat} (h : isPlay a = false) (s : State) : s.playedAt a = s := by
  simp [State.playedAt, h]

/-- BADACC lies in HOST: while HOST is not on, a refused access leaves no mark (R391, R473). -/
theorem Dev.badAcc_of_host_not_on {d : Dev} (h : d.domOn domHost = false) : d.badAcc = d := by
  simp [Dev.badAcc, h]

/-- A write of a size or alignment that is not allowed does no more than its mark. -/
theorem exec_registerWrite_of_not_sizeOk {addr : BitVec 26} {l : List Byte} (h : sizeOk addr.toNat l.length = false)
    (ep dup : Bool) (s : State) :
    exec (.registerWrite addr l ep dup) s = .next ((s.playedAt addr.toNat).onDev (·.badAcc)) := by
  have hn : sizeOk addr.toNat (nats l).length = false := by rwa [nats, List.length_map]
  change Host.Outcome.next (State.bar0Write ..) = _
  simp [State.bar0Write, hn]

/-- While HOST is not on, such a write has no effect at all. -/
theorem exec_registerWrite_of_host_not_on {addr : BitVec 26} {l : List Byte} (h : sizeOk addr.toNat l.length = false)
    (ep dup : Bool) {s : State} (hhost : (s.playedAt addr.toNat).dev.domOn domHost = false) :
    exec (.registerWrite addr l ep dup) s = .next (s.playedAt addr.toNat) := by
  rw [exec_registerWrite_of_not_sizeOk h, State.onDev, Dev.badAcc_of_host_not_on hhost]

/-- Refutes O56: its first clause says that every write of a wrong size sets HOST_STAT.BADACC, with no premise that HOST,
which holds HOST_STAT, is on. After reset HOST is off; there a write of one byte at 0x40 (`Instr.wellFormed` allows it)
leaves the state as it is, and BADACC reads 0. -/
theorem not_registerAccess : ¬ Obligations.RegisterAccess := by
  unfold Obligations.RegisterAccess
  intro h
  let addr : BitVec 26 := 0x40
  let l : List Byte := [0]
  obtain ⟨hmark, -⟩ := h State.reset addr l false false 0 0 0 0 0
  have hsize : sizeOk addr.toNat l.length = false := by decide
  have hplayed : State.reset.playedAt addr.toNat = State.reset := State.playedAt_of_not_isPlay (by decide) _
  have hhost : (State.reset.playedAt addr.toNat).dev.domOn domHost = false := by rw [hplayed]; decide
  obtain ⟨t, hexec, -, hkey⟩ := hmark hsize
  rw [exec_registerWrite_of_host_not_on hsize false false hhost, hplayed] at hexec
  cases hexec
  have hset : State.reset.dev.key ⟨.HOST_STAT_BADACC, 0, 0⟩ = 1 := hkey ⟨.HOST_STAT_BADACC, 0, 0⟩
  have hzero : State.reset.dev.key ⟨.HOST_STAT_BADACC, 0, 0⟩ = 0 := by decide
  omega

end Sys2Proof.Machine
end

section
/-!
The scrub of a word of an on-chip memory that is marked poisoned: it is no clean word, and the visit reports it (R26, R27,
R32).
-/

namespace Sys2Proof.Machine

theorem Dev.send_log (d : Dev) (v : Nat) : (d.send v).log = d.log := by
  unfold Dev.send
  split <;> rfl

theorem Dev.irq_log (d : Dev) (v : Nat) : (d.irq v).log = d.log := by
  unfold Dev.irq
  dsimp only
  split
  · rfl
  · exact Dev.send_log _ v

/-- An entry in a log with room makes it longer by one (R484). -/
theorem Dev.logStamped_log_length {d : Dev} (h : d.log.length < 1024) (st b k u p : Nat) :
    (d.logStamped st b k u p).log.length = d.log.length + 1 := by
  unfold Dev.logStamped
  dsimp only
  rw [if_pos h]
  split
  · rw [Dev.irq_log, List.length_append, List.length_singleton]
  · rw [List.length_append, List.length_singleton]

/-- Outside DRAM an error report is its log entry (R27). -/
theorem Dev.report_of_not_dram {d : Dev} {a : Nat} (h : (d.place a).1 ≠ 0x06) (k : ErrKind) (cons : Nat) (l : List Nat) :
    d.report k a cons l = d.logEv (d.place a).1 k.code (d.place a).2.1
      ((d.place a).2.2 % 2 ^ 38 + symMask l * 2 ^ 38 + cons * 2 ^ 74) := by
  unfold Dev.report
  exact if_neg h

/-- Rewriting a poisoned word reports it and leaves what is stored (R26). -/
theorem State.rewriteWord_of_poisoned {s : State} {a : Nat} (ha : a % 16 = 0) (h : a ∈ s.dev.poison) (cons : Nat) :
    s.rewriteWord cons a = { s with dev := s.dev.report .poisonSeen a cons [] } := by
  have hw : a / 16 * 16 = a := by omega
  simp [State.rewriteWord, Dev.readWord, Dev.decode, hw, h]

/-- A visit to a word of a program memory that is on rewrites it (R32). -/
theorem exec_sramScrubVisit_prog {s : State} {c : Fin 8} {w : BitVec 16} {a : Nat}
    (h : s.dev.codedWord (.prog c) w.toNat = some a) :
    exec (.sramScrubVisit (.prog c) w) s = .next (s.rewriteWord 0x0A a) := by
  change Host.Outcome.next ((s.playedAt 0).scrubVisit (.prog c) w.toNat) = _
  rw [State.playedAt_of_not_isPlay (by decide)]
  simp [State.scrubVisit, h]

/-- After reset cluster 0 is switched on and word 0 of its program memory is marked poisoned. -/
def poisonedProgState : State :=
  ⟨[], [], { ({} : Dev).setDom (domK 0) 0 with poison := [progMem 0 0 0] }⟩

/-- Refutes O57: the clause that leaves the state as it is supposes only that no error pattern lies on the visited word. A
word that carries the poison marker has none either, and its visit writes a report: in `poisonedProgState` the event log is
empty before the visit and holds an entry after it. -/
theorem not_hostMemory : ¬ Obligations.HostMemory := by
  unfold Obligations.HostMemory
  intro h
  let s := poisonedProgState
  let word := progMem 0 0 0
  obtain ⟨-, -, -, -, -, -, -, -, -, -, -, -, hclean, -⟩ := h s 0 0 false false 0 0 [] false false (.prog 0) 0 0 0 0 0
  have hsame : exec (.sramScrubVisit (.prog 0) 0) s = .next s := hclean fun _ _ => rfl
  have hword : s.dev.codedWord (.prog 0) (0 : BitVec 16).toNat = some word := by decide
  rw [exec_sramScrubVisit_prog hword,
    State.rewriteWord_of_poisoned (by decide) (List.mem_singleton_self word)] at hsame
  have hdev : s.dev.report .poisonSeen word 0x0A [] = s.dev := congrArg State.dev (Host.Outcome.next.inj hsame)
  have hlog : (s.dev.report .poisonSeen word 0x0A []).log.length = s.dev.log.length + 1 := by
    rw [Dev.report_of_not_dram (by decide)]
    exact Dev.logStamped_log_length (by decide) ..
  rw [hdev] at hlog
  omega

end Sys2Proof.Machine
end

section
/-!
The end of a burst: what it writes on its own engine, and what it leaves alone everywhere else (R37 to R39, R68, R187).
-/

namespace Sys2Proof.Machine

/-! ## Accessors that a moving clock, an engine's own data or a log entry leave alone -/

/-- A field acts as it reads and as the sews have taken it (R327). -/
theorem Dev.eff_congr {d t : Dev} {f : Field} {u : Nat} (ht : t.taken = d.taken) (hf : t.rg f u = d.rg f u) :
    t.eff f u = d.eff f u := by
  rw [Dev.eff, Dev.eff, ht, hf]

/-- Whether a burst runs is read from the engine's state alone (R173). -/
theorem Dev.runs_congr {d t : Dev} {e : Nat} (h : t.rg .ENG_STAT_STATE e = d.rg .ENG_STAT_STATE e) : t.runs e = d.runs e := by
  unfold Dev.runs Dev.estate
  rw [h]

section
variable (d : Dev) (k e : Nat)

@[simp] theorem Dev.advanceTo_eff (f : Field) : (d.advanceTo k).eff f e = d.eff f e :=
  Dev.eff_congr (Dev.advanceTo_taken d k) (Dev.advanceTo_rg d k f e)
@[simp] theorem Dev.advanceTo_tied : (d.advanceTo k).tied e = d.tied e := by simp [Dev.tied]
@[simp] theorem Dev.advanceTo_grp : (d.advanceTo k).grp e = d.grp e := by simp [Dev.grp]
@[simp] theorem Dev.advanceTo_members : (d.advanceTo k).members e = d.members e := by simp [Dev.members]
@[simp] theorem Dev.advanceTo_scope : (d.advanceTo k).scope e = d.scope e := by simp [Dev.scope]
@[simp] theorem Dev.advanceTo_runs : (d.advanceTo k).runs e = d.runs e := Dev.runs_congr (Dev.advanceTo_rg d k _ e)

end

section
variable (d : Dev) (e : Nat) (g : Eng → Eng) (st b k u p : Nat)

@[simp] theorem Dev.modEng_tick : (d.modEng e g).tick = d.tick := rfl
@[simp] theorem Dev.modEng_taken : (d.modEng e g).taken = d.taken := rfl
theorem Dev.logStamped_rg {f : Field} (x : Nat) (hf : f ∉ reportFields) : (d.logStamped st b k u p).rg f x = d.rg f x :=
  (Dev.logStamped_reports ..).rg f x hf

end

/-! ## What an end leaves alone -/

/-- Fields that the end of a burst may change: the engine's state, the cycles of its bobbin hold, and those of a report. -/
def endFields : List Field := [.ENG_STAT_STATE, .ENG_BOB_STALL_COUNT] ++ reportFields

/-- What ends of the bursts of the engines in `l` leave alone: the clock, the tie groups, every register that no end
changes, and on every other engine its state and its end. -/
structure Dev.Ends (l : List Nat) (d t : Dev) : Prop where
  key    : ∀ j : RegKey, j.f ∉ endFields → t.key j = d.key j
  state  : ∀ u ∉ l, t.rg .ENG_STAT_STATE u = d.rg .ENG_STAT_STATE u
  ending : ∀ u ∉ l, (t.eng u).ending = (d.eng u).ending
  tick   : t.tick = d.tick
  time   : t.time = d.time
  taken  : t.taken = d.taken
  far    : t.far = d.far

namespace Dev.Ends

variable {l : List Nat} {d t u : Dev}

theorem refl (l : List Nat) (d : Dev) : Dev.Ends l d d :=
  ⟨fun _ _ => rfl, fun _ _ => rfl, fun _ _ => rfl, rfl, rfl, rfl, rfl⟩

theorem trans (h : Dev.Ends l d t) (h' : Dev.Ends l t u) : Dev.Ends l d u :=
  ⟨fun j hj => (h'.key j hj).trans (h.key j hj), fun x hx => (h'.state x hx).trans (h.state x hx),
    fun x hx => (h'.ending x hx).trans (h.ending x hx), h'.tick.trans h.tick, h'.time.trans h.time,
    h'.taken.trans h.taken, h'.far.trans h.far⟩

theorem mono {m : List Nat} (hl : l ⊆ m) (h : Dev.Ends l d t) : Dev.Ends m d t :=
  ⟨h.key, fun x hx => h.state x (fun hm => hx (hl hm)), fun x hx => h.ending x (fun hm => hx (hl hm)), h.tick, h.time,
    h.taken, h.far⟩

theorem foldl {α : Type} {g : Dev → α → Dev} (as : List α) (d : Dev) (hg : ∀ b, ∀ a ∈ as, Dev.Ends l b (g b a)) :
    Dev.Ends l d (as.foldl g d) := by
  induction as generalizing d with
  | nil => exact refl l d
  | cons a as ih =>
    exact (hg d a List.mem_cons_self).trans (ih _ fun b x hx => hg b x (List.mem_cons_of_mem a hx))

theorem of_reports (h : Reports d t) : Dev.Ends l d t :=
  ⟨fun j hj => h.key j fun hr => hj (List.mem_append_right _ hr), fun x _ => h.rg _ x (by decide),
    fun x _ => by rw [h.eng], h.tick, h.time, h.taken, h.far⟩

theorem rg (h : Dev.Ends l d t) (f : Field) (x : Nat) (hf : f ∉ endFields) : t.rg f x = d.rg f x := h.key ⟨f, x, 0⟩ hf

theorem eff (h : Dev.Ends l d t) (f : Field) (x : Nat) (hf : f ∉ endFields) : t.eff f x = d.eff f x :=
  Dev.eff_congr h.taken (h.rg f x hf)

theorem tied (h : Dev.Ends l d t) (x : Nat) : t.tied x = d.tied x := by
  rw [Dev.tied, Dev.tied, h.eff _ x (by decide)]

theorem grp (h : Dev.Ends l d t) (x : Nat) : t.grp x = d.grp x := h.eff _ x (by decide)

theorem members (h : Dev.Ends l d t) (x : Nat) : t.members x = d.members x := by
  simp only [Dev.members, h.tied, h.grp]

theorem scope (h : Dev.Ends l d t) (x : Nat) : t.scope x = d.scope x := by
  simp only [Dev.scope, h.tied, h.grp, h.members, h.far]

theorem runs (h : Dev.Ends l d t) {x : Nat} (hx : x ∉ l) : t.runs x = d.runs x :=
  Dev.runs_congr (h.state x hx)

end Dev.Ends

/-! ## The updates an end is made of -/

section
variable {l : List Nat} (d : Dev) {e : Nat}

theorem Dev.setEng_ends (x : Eng) (he : e ∈ l) : Dev.Ends l d (d.setEng e x) :=
  ⟨fun _ _ => rfl, fun _ _ => rfl, fun u hu => by rw [Dev.eng_setEng_ne d x (j := u) fun h => hu (h ▸ he)], rfl, rfl, rfl, rfl⟩

/-- An update of an engine that keeps its end. -/
theorem Dev.modEng_ends (x : Nat) {g : Eng → Eng} (hg : ∀ y, (g y).ending = y.ending) : Dev.Ends l d (d.modEng x g) := by
  refine ⟨fun _ _ => rfl, fun _ _ => rfl, fun u _ => ?_, rfl, rfl, rfl, rfl⟩
  by_cases h : x = u
  · rw [← h, Dev.modEng_eng_self, hg]
  · rw [Dev.modEng, Dev.eng_setEng_ne d _ h]

theorem Dev.st_ends {f : Field} (x v : Nat) (hf : f ∈ endFields) (hs : f ≠ .ENG_STAT_STATE) : Dev.Ends l d (d.st f x v) :=
  ⟨fun _ hj => Dev.key_st_ne d x v fun h => hj (h ▸ hf), fun u _ => Dev.rg_st_ne d x v u hs, fun _ _ => rfl, rfl, rfl, rfl,
    rfl⟩

theorem Dev.st_state_ends (v : Nat) (he : e ∈ l) : Dev.Ends l d (d.st .ENG_STAT_STATE e v) := by
  refine ⟨fun _ hj => Dev.key_st_ne d e v fun h => hj (h ▸ by decide), fun u hu => ?_, fun _ _ => rfl, rfl, rfl, rfl, rfl⟩
  have hne : (⟨.ENG_STAT_STATE, e, 0⟩ : RegKey) ≠ ⟨.ENG_STAT_STATE, u, 0⟩ := fun h => hu (by cases h; exact he)
  exact Dev.key_setKey_ne d v hne

/-- A Seam message waits at ports and is remembered as seen; nothing else changes. -/
theorem Dev.seamPost_rest (skip : Option Nat) (m : SeamMsg) :
    ∃ q n, d.seamPost skip m = { d with seamQ := q, seen := n } := by
  have hf : ∀ (l : List Nat) (g : Dev → Nat → Dev), (∀ y p, ∃ q, g y p = { y with seamQ := q }) →
      ∀ y, ∃ q, l.foldl g y = { y with seamQ := q } := by
    intro l g hg
    induction l with
    | nil => exact fun y => ⟨y.seamQ, rfl⟩
    | cons p l ih =>
      intro y
      obtain ⟨q, hq⟩ := hg y p
      obtain ⟨q', hq'⟩ := ih (g y p)
      exact ⟨q', by rw [List.foldl_cons, hq', hq]⟩
  unfold Dev.seamPost
  refine (hf (List.range 4) _ (fun y p => ?_) { d with seen := (d.tick, m) :: d.seen }).imp fun _ h => ⟨_, h⟩
  split
  · exact ⟨y.seamQ, rfl⟩
  · exact ⟨_, rfl⟩

theorem Dev.tieTell_ends (x kind arg : Nat) : Dev.Ends l d (d.tieTell x kind arg) := by
  unfold Dev.tieTell
  dsimp only
  split
  · obtain ⟨q, n, h⟩ := Dev.seamPost_rest d none
      (.tieEvt d.pos 0 (d.grp x) (d.beatAt d.tick).1 (d.beatAt d.tick).2 kind arg)
    rw [h]
    exact ⟨fun _ _ => rfl, fun _ _ => rfl, fun _ _ => rfl, rfl, rfl, rfl, rfl⟩
  · exact .refl l d

theorem Dev.holdEnds_ends (he : e ∈ l) : Dev.Ends l d (d.holdEnds e) := by
  unfold Dev.holdEnds
  dsimp only
  split
  · exact .refl l d
  · exact (Dev.setEng_ends d _ he).trans (Dev.st_ends _ _ _ (by decide) (by decide))

theorem Dev.stopIssue_ends (o : Ending) (he : e ∈ l) : Dev.Ends l d (d.stopIssue e o) := by
  unfold Dev.stopIssue
  exact ((Dev.holdEnds_ends d he).trans (Dev.setEng_ends _ _ he)).trans (Dev.st_state_ends _ _ he)

theorem Dev.endOne_ends (o : Ending) (he : e ∈ l) : Dev.Ends l d (d.endOne e o) := by
  unfold Dev.endOne
  dsimp only
  repeat' split
  · exact .refl l d
  · exact Dev.stopIssue_ends d o he
  · exact .refl l d
  · exact Dev.setEng_ends d _ he
  · exact Dev.stopIssue_ends d o he
  · exact Dev.setEng_ends d _ he
  · exact .refl l d

theorem Dev.faultLog_reports (e reason lastv t : Nat) : Reports d (d.faultLog e reason lastv t) := by
  unfold Dev.faultLog
  split
  · exact Dev.logStamped_reports ..
  · exact Reports.refl d

/-- The fault of one engine goes on its way to its partners: no end, and no engine's state, changes by that. -/
theorem Dev.pushTieEnd_ends (te : TieEnd) (ms : List Nat) :
    Dev.Ends l d (ms.foldl (fun b x => if x = e then b else b.modEng x (fun y => { y with tieEnd := y.tieEnd ++ [te] })) d) := by
  refine .foldl ms d fun b x _ => ?_
  split
  · exact .refl l b
  · exact Dev.modEng_ends b x fun _ => rfl

theorem Dev.endFaultAt_ends (reason : Nat) (drain : Bool) (t : Nat) (he : e ∈ l) :
    Dev.Ends l d (d.endFaultAt e reason drain t) := by
  have hend := (Dev.Ends.of_reports (Dev.faultLog_reports d e reason (d.lastRow e drain) t)).trans
    (Dev.endOne_ends _ ⟨reason, e, t, drain⟩ he)
  unfold Dev.endFaultAt
  dsimp only
  split
  · exact .refl l d
  · split
    · exact hend
    · exact (hend.trans (Dev.pushTieEnd_ends _ _ _)).trans (Dev.tieTell_ends _ _ _ _)

theorem Dev.endGroup_ends (reason : Nat) (hl : d.members e ⊆ l) : Dev.Ends l d (d.endGroup e reason) := by
  have hend : ∀ as ⊆ d.members e, Dev.Ends l d (as.foldl (fun b x =>
      (b.faultLog x reason (b.lastRow x false) b.tick).endOne x ⟨reason, e, b.tick, false⟩) d) := fun as has =>
    .foldl as d fun b x hx => (Dev.Ends.of_reports (Dev.faultLog_reports b ..)).trans
      (Dev.endOne_ends _ _ (hl (has hx)))
  unfold Dev.endGroup
  dsimp only
  split
  · exact hend _ List.filter_sublist.subset
  · exact (hend _ List.filter_sublist.subset).trans (Dev.tieTell_ends ..)

end

/-! ## What an end writes -/

section
variable (d : Dev) (e : Nat)

theorem Dev.holdEnds_eng : ∃ m b, (d.holdEnds e).eng e = { d.eng e with miss := m, missed := b } := by
  unfold Dev.holdEnds
  dsimp only
  split
  · exact ⟨_, _, rfl⟩
  · exact ⟨_, _, Dev.eng_setEng_self d e _⟩

@[simp] theorem Dev.stopIssue_state (o : Ending) : (d.stopIssue e o).rg .ENG_STAT_STATE e = 3 :=
  Dev.rg_st_self _ .ENG_STAT_STATE e 3

/-- The engine at the stop of its issue. -/
theorem Dev.stopIssue_eng (o : Ending) : ∃ m b a, (d.stopIssue e o).eng e = { d.eng e with
    miss := m, missed := b, ending := some o, act := if (d.eng e).recov.any (fun r => !r.done) then (d.eng e).act else none
    br := none, reqs := [], anch := a, queue := if o.drain then (d.eng e).queue else [] } := by
  obtain ⟨m, b, h⟩ := Dev.holdEnds_eng d e
  refine ⟨m, b, if o.drain then (d.eng e).anch else (d.eng e).queue.flatMap (·.acts) ++ (d.eng e).anch, ?_⟩
  unfold Dev.stopIssue
  dsimp only
  rw [Dev.st, Dev.setKey_eng, Dev.eng_setEng_self, h]

@[simp] theorem Dev.stopIssue_ending (o : Ending) : ((d.stopIssue e o).eng e).ending = some o := by
  obtain ⟨m, b, a, h⟩ := Dev.stopIssue_eng d e o
  rw [h]

variable {d e}

/-- A running burst that no end has reached yet ends by the stop of its issue. -/
theorem Dev.endOne_of_running (hr : d.runs e = true) (hn : (d.eng e).ending = none) (o : Ending) :
    d.endOne e o = d.stopIssue e o := by
  simp [Dev.endOne, hr, hn]

theorem Dev.faultCounts_of_running (hr : d.runs e = true) (hn : (d.eng e).ending = none) (reason t : Nat) :
    d.faultCounts e reason t = true := by
  simp [Dev.faultCounts, hr, hn]

/-- A fault of a running burst, entered in the event log, stops the issue. -/
theorem Dev.faultLog_endOne (hr : d.runs e = true) (hn : (d.eng e).ending = none) (reason lastv t : Nat) (o : Ending) :
    (d.faultLog e reason lastv t).endOne e o = (d.faultLog e reason lastv t).stopIssue e o := by
  have hlog := Dev.faultLog_reports d e reason lastv t
  refine Dev.endOne_of_running ?_ (by rw [hlog.eng, hn]) o
  rw [(Dev.Ends.of_reports (l := []) hlog).runs (by simp), hr]

/-- A fault of a running burst on an engine without partners. -/
theorem Dev.endFaultAt_of_untied (hr : d.runs e = true) (hn : (d.eng e).ending = none) (ht : d.tied e = false)
    (reason : Nat) (drain : Bool) (t : Nat) : d.endFaultAt e reason drain t =
      (d.faultLog e reason (d.lastRow e drain) t).stopIssue e ⟨reason, e, t, drain⟩ := by
  simp [Dev.endFaultAt, Dev.faultCounts_of_running hr hn, ht, Dev.faultLog_endOne hr hn]

/-- A fault ends a running burst, whether or not it has partners. -/
theorem Dev.endFaultAt_ended (hr : d.runs e = true) (hn : (d.eng e).ending = none) (reason : Nat) (drain : Bool) (t : Nat) :
    (d.endFaultAt e reason drain t).rg .ENG_STAT_STATE e = 3 ∧
      ((d.endFaultAt e reason drain t).eng e).ending = some ⟨reason, e, t, drain⟩ := by
  unfold Dev.endFaultAt
  simp only [Dev.faultCounts_of_running hr hn, Dev.faultLog_endOne hr hn]
  split
  · exact absurd ‹_› (by decide)
  · split
    · exact ⟨Dev.stopIssue_state .., Dev.stopIssue_ending ..⟩
    · have htold := fun x te ms => (Dev.pushTieEnd_ends (l := []) (e := e) x te ms).trans (Dev.tieTell_ends _ e 2 reason)
      exact ⟨((htold _ _ _).state e List.not_mem_nil).trans (Dev.stopIssue_state ..),
        ((htold _ _ _).ending e List.not_mem_nil).trans (Dev.stopIssue_ending ..)⟩

end

end Sys2Proof.Machine
end

section
/-!
The missed emission deadline and the tie beat (R37, R68, R128).
-/

namespace Sys2Proof.Machine

variable {d : Dev} {e t : Nat}

/-! ## The missed deadline -/

/-- An engine without an instruction in progress issues no row by itself. -/
theorem Dev.catchUp_of_no_act (h : (d.eng e).act = none) (m : List Host.Cell) (k : Nat) : d.catchUp m e k = d := by
  unfold Dev.catchUp Dev.runUntil
  simp [h]

/-- An engine has a deadline for its next row only while it is RUNNING. -/
theorem Dev.runs_of_rowDeadline (h : d.rowDeadline e = some t) : d.runs e = true := by
  unfold Dev.rowDeadline at h
  split at h
  · rename_i hs
    simp [Dev.runs, hs.1]
  · cases h

/-- At the deadline of an engine that has no row to issue the clock moves on to it, and the row is missed. -/
theorem Dev.deadlineMiss_of_no_act (ht : d.rowDeadline e = some t) (ha : (d.eng e).act = none) (m : List Host.Cell) :
    d.deadlineMiss m e = (d.advanceTo t).underrun e t := by
  simp [Dev.deadlineMiss, ht, Dev.catchUp_of_no_act ha]

theorem Dev.advanceTo_lineWanted (d : Dev) (k e : Nat) : (d.advanceTo k).lineWanted e = d.lineWanted e := by
  simp [Dev.lineWanted, Dev.rowNeeds, Dev.bobAt, Dev.resident, Dev.pleated, Dev.rowBytes, Dev.on, Dev.advanceTo_rg,
    Dev.advanceTo_eng]

/-- A note of an underrun in an urgent refresh changes the port and its count only (R379). -/
theorem Dev.urgentUnderrun_rest (d : Dev) (src : DramSrc) (line : Nat) :
    ∃ r c, d.urgentUnderrun src line = { d with regs := r, drcs := c } := by
  unfold Dev.urgentUnderrun
  split
  · exact ⟨_, _, rfl⟩
  · split <;> exact ⟨_, _, rfl⟩

theorem Dev.urgentUnderrun_rg (d : Dev) (src : DramSrc) (line : Nat) {f : Field} (u : Nat) (hf : .DRC_REF_CNT_URUN ≠ f) :
    (d.urgentUnderrun src line).rg f u = d.rg f u := by
  unfold Dev.urgentUnderrun
  split
  · rfl
  · split
    · exact Dev.rg_st_ne _ _ _ _ hf
    · rfl

@[simp] theorem Dev.urgentUnderrun_eng (d : Dev) (src : DramSrc) (line e : Nat) :
    (d.urgentUnderrun src line).eng e = d.eng e := by
  obtain ⟨r, c, h⟩ := Dev.urgentUnderrun_rest d src line
  rw [h]
  rfl

@[simp] theorem Dev.urgentUnderrun_tick (d : Dev) (src : DramSrc) (line : Nat) :
    (d.urgentUnderrun src line).tick = d.tick := by
  obtain ⟨r, c, h⟩ := Dev.urgentUnderrun_rest d src line
  rw [h]

@[simp] theorem Dev.urgentUnderrun_taken (d : Dev) (src : DramSrc) (line : Nat) :
    (d.urgentUnderrun src line).taken = d.taken := by
  obtain ⟨r, c, h⟩ := Dev.urgentUnderrun_rest d src line
  rw [h]

/-- What the record of an underrun of engine `e` holds (R128), and what it leaves alone. -/
structure Dev.UrunRecorded (e : Nat) (d t : Dev) : Prop where
  vcnt  : t.rg .ENG_URUN_VCNT_VCNT e = (d.eng e).issued % 2 ^ 48
  vp    : t.rg .ENG_URUN_VP_VP e = d.rg .ENG_VP e % 2 ^ 38
  count : t.rg .ENG_URUN_CNT_COUNT e = min (d.rg .ENG_URUN_CNT_COUNT e + 1) (2 ^ 16 - 1)
  state : t.rg .ENG_STAT_STATE e = d.rg .ENG_STAT_STATE e
  tied  : t.tied e = d.tied e
  eng   : t.eng e = { d.eng e with urun := some (d.eng e).issued }
  tick  : t.tick = d.tick

/-- An underrun that no stall excuses is recorded, and is a fault (R128). -/
theorem Dev.underrun_recorded
    (h : ((d.eng e).recov.any (fun r => !r.done || t < (d.eng e).free) || t < (d.eng e).stallTo) = false) :
    ∃ r, d.underrun e t = r.endFaultAt e rUNDERRUN true t ∧ Dev.UrunRecorded e d r := by
  unfold Dev.underrun
  simp only [h, Bool.false_and, Bool.false_eq_true, if_false]
  refine ⟨_, rfl, ?_⟩
  constructor
  case vcnt | vp | state =>
    simp (disch := decide) only [Dev.modEng_rg, Dev.urgentUnderrun_rg, Dev.logStamped_rg, Dev.bump, Dev.rg_st_ne,
      Dev.rg_st_self, Field.info]
  case count =>
    simp (disch := decide) only [Dev.modEng_rg, Dev.urgentUnderrun_rg, Dev.logStamped_rg, Dev.bump, Dev.rg_st_ne,
      Dev.rg_st_self, Field.info]
    omega
  case tied =>
    refine congrArg (· == 1) (Dev.eff_congr ?_ ?_)
    · simp [Dev.bump, Dev.st]
    · simp (disch := decide) only [Dev.modEng_rg, Dev.urgentUnderrun_rg, Dev.logStamped_rg, Dev.bump, Dev.rg_st_ne]
  case eng => simp [Dev.bump, Dev.st]
  case tick => simp [Dev.bump, Dev.st]

/-- The deadline passes while a recovery is in progress and no line is absent: MC_STALL (R37). -/
theorem Dev.underrun_of_recovery {r : Recov} (hr : (d.eng e).recov = some r) (hd : r.done = false)
    (hw : d.lineWanted e = none) : d.underrun e t = d.endFaultAt e rMCSTALL true t := by
  simp [Dev.underrun, hr, hd, hw]

/-! ## The tie beat -/

/-- Whether the members `l` of a group that no fault already ends agree on address and period at beat `b` (R68, R97). -/
def Dev.beatSame (d : Dev) (m : List Host.Cell) (l : List Nat) (b : Nat) : Bool :=
  let live := l.filter (fun x => match (d.eng x).ending with | some o => o.reason == 0 | none => true)
  live.all (fun x => live.all (fun y =>
    d.beatPcOf x b == d.beatPcOf y b && perOf (d.beatPerOf m x b) == perOf (d.beatPerOf m y b)))

/-- A tie beat of a group without members elsewhere: the clock moves on to it, and members that differ end with DIVERGE. -/
theorem Dev.tieBeat_of_here {g : Nat} {l : List Nat}
    (hl : (List.range 128).filter (fun y => d.tied y && d.grp y == g && d.runs y) = e :: l) (hs : d.scope e ≠ 3)
    (m : List Host.Cell) : ∃ k b, d.tieBeat m g = if (d.advanceTo k).beatSame m (e :: l) b then d.advanceTo k
      else (d.advanceTo k).endGroup e rDIVERGE := by
  have hscope : ∀ (c : Bool) k, (if c then d.advanceTo k else (d.advanceTo k).endGroup e rDIVERGE).scope e ≠ 3 := by
    intro c k
    cases c
    · rwa [if_neg Bool.false_ne_true, (Dev.endGroup_ends (d.advanceTo k) rDIVERGE (List.Subset.refl _)).scope,
        Dev.advanceTo_scope]
    · rwa [if_pos rfl, Dev.advanceTo_scope]
  unfold Dev.tieBeat
  simp only [hl]
  exact ⟨_, _, if_neg fun h => hscope _ _ h.1⟩

/-- Engine `y` alone agrees with itself. -/
theorem Dev.beatSame_single (d : Dev) (m : List Host.Cell) (y b : Nat) : d.beatSame m [y] b = true := by
  have hall : ∀ x ∈ [y].filter (fun x => match (d.eng x).ending with | some o => o.reason == 0 | none => true), x = y :=
    fun x hx => List.mem_singleton.1 (List.mem_of_mem_filter hx)
  refine List.all_eq_true.2 fun p hp => List.all_eq_true.2 fun q hq => ?_
  simp [hall p hp, hall q hq]

/-- Two members that still issue and stand at different addresses do not agree. -/
theorem Dev.beatSame_pair {y z : Nat} (hy : (d.eng y).ending = none) (hz : (d.eng z).ending = none)
    (hby : (d.eng y).beatPc = []) (hbz : (d.eng z).beatPc = []) (hpc : d.rg .ENG_PC_ADDR y ≠ d.rg .ENG_PC_ADDR z)
    (m : List Host.Cell) (b : Nat) : d.beatSame m [y, z] b = false := by
  have hne : d.beatPcOf y b ≠ d.beatPcOf z b := by simpa [Dev.beatPcOf, hby, hbz] using hpc
  simp [Dev.beatSame, hy, hz, hne]

/-- The members of engine `y`'s group that a fault reaches, of those that run. -/
theorem Dev.members_filter_faultCounts {y g : Nat} {l : List Nat} (reason t : Nat)
    (hl : (List.range 128).filter (fun x => d.tied x && d.grp x == g && d.runs x) = l) (hy : y ∈ l)
    (hn : ∀ x ∈ l, (d.eng x).ending = none) : (d.members y).filter (fun x => d.faultCounts x reason t) = l := by
  have hmem : ∀ x, x ∈ l ↔ x < 128 ∧ d.tied x = true ∧ d.grp x = g ∧ d.runs x = true := fun x => by
    simp [← hl, and_assoc]
  obtain ⟨-, hty, hgy, -⟩ := (hmem y).1 hy
  rw [Dev.members, if_pos hty, List.filter_filter, hgy, ← hl]
  refine List.filter_congr fun x hx => ?_
  cases hrun : d.runs x with
  | false => simp [Dev.faultCounts, hrun]
  | true =>
    cases hin : d.tied x && d.grp x == g with
    | false => simp
    | true =>
      have hxl : x ∈ l := (hmem x).2 ⟨List.mem_range.1 hx, by simpa [hrun] using hin⟩
      simp [Dev.faultCounts_of_running hrun (hn x hxl)]

/-- The fault of one running member of a group. -/
theorem Dev.faultLog_endOne_ended {x : Nat} (hr : d.runs x = true) (hn : (d.eng x).ending = none) (reason lastv t : Nat)
    (o : Ending) : ((d.faultLog x reason lastv t).endOne x o).rg .ENG_STAT_STATE x = 3 ∧
      (((d.faultLog x reason lastv t).endOne x o).eng x).ending = some o := by
  rw [Dev.faultLog_endOne hr hn]
  exact ⟨Dev.stopIssue_state .., Dev.stopIssue_ending ..⟩

/-- The end of a group of two running members on one device (R68). -/
theorem Dev.endGroup_pair {y z reason : Nat}
    (hm : (d.members y).filter (fun x => d.faultCounts x reason d.tick) = [y, z]) (hne : y ≠ z) (hs : d.scope y ≠ 3)
    (hry : d.runs y = true) (hrz : d.runs z = true) (hy : (d.eng y).ending = none) (hz : (d.eng z).ending = none) :
    ∀ x ∈ [y, z], (d.endGroup y reason).rg .ENG_STAT_STATE x = 3 ∧
      ((d.endGroup y reason).eng x).ending = some ⟨reason, y, (d.endGroup y reason).tick, false⟩ := by
  have hstep : ∀ (b : Dev) x l o, Dev.Ends [x] b ((b.faultLog x reason l b.tick).endOne x o) := fun b x l o =>
    (Dev.Ends.of_reports (Dev.faultLog_reports b ..)).trans (Dev.endOne_ends _ o List.mem_cons_self)
  have hends := hstep d y (d.lastRow y false) ⟨reason, y, d.tick, false⟩
  have hyend := Dev.faultLog_endOne_ended hry hy reason (d.lastRow y false) d.tick ⟨reason, y, d.tick, false⟩
  set b := (d.faultLog y reason (d.lastRow y false) d.tick).endOne y ⟨reason, y, d.tick, false⟩ with hb
  have hzy : z ∉ [y] := by simpa using hne.symm
  have hyz : y ∉ [z] := by simpa using hne
  have hends' := hstep b z (b.lastRow z false) ⟨reason, y, b.tick, false⟩
  have hzend := Dev.faultLog_endOne_ended (d := b) (by rw [hends.runs hzy, hrz]) (by rw [hends.ending z hzy, hz]) reason
    (b.lastRow z false) b.tick ⟨reason, y, b.tick, false⟩
  set c := (b.faultLog z reason (b.lastRow z false) b.tick).endOne z ⟨reason, y, b.tick, false⟩ with hc
  have htell : d.endGroup y reason = if d.tied y then c.tieTell y 2 reason else c := by
    unfold Dev.endGroup
    simp only [hm, List.foldl_cons, List.foldl_nil, ← hb, ← hc]
    cases d.tied y <;> rfl
  have hfin : d.endGroup y reason = c := by
    have hsc : c.scope y ≠ 3 := by rwa [hends'.scope, hends.scope]
    rw [htell, Dev.tieTell, if_neg hsc, ite_self]
  rw [hfin, hends'.tick, hends.tick]
  rw [hends.tick] at hzend
  intro x hx
  obtain rfl | rfl : x = y ∨ x = z := by simpa using hx
  · exact ⟨(hends'.state x hyz).trans hyend.1, (hends'.ending x hyz).trans hyend.2⟩
  · exact hzend

/-! ## The clauses -/

/-- A fault on an engine without partners keeps the record of the underrun. -/
theorem Dev.endFaultAt_urun (hr : d.runs e = true) (hn : (d.eng e).ending = none) (ht : d.tied e = false)
    (reason : Nat) (drain : Bool) (u : Nat) : ((d.endFaultAt e reason drain u).eng e).urun = (d.eng e).urun := by
  rw [Dev.endFaultAt_of_untied hr hn ht]
  obtain ⟨m, b, a, h⟩ := (d.faultLog e reason (d.lastRow e drain) u).stopIssue_eng e ⟨reason, e, u, drain⟩
  rw [h, (Dev.faultLog_reports ..).eng]

/-- A missed deadline that no stall excuses is recorded and ends the burst with UNDERRUN (R128). -/
theorem completes_deadlineMiss_underrun {s : State} {e : EngId} {due : Nat} (hd : s.dev.rowDeadline e = some due)
    (ha : (s.dev.eng e).act = none) (hn : (s.dev.eng e).ending = none) (hrec : (s.dev.eng e).recov = none)
    (hst : (s.dev.eng e).stallTo ≤ due) (ht : s.dev.tied e = false) :
    Completes (.emissionDeadlineMiss e) s (fun t =>
      t.dev.rg .ENG_URUN_VCNT_VCNT e = (s.dev.eng e).issued % 2 ^ 48 ∧
      t.dev.rg .ENG_URUN_VP_VP e = s.dev.rg .ENG_VP e % 2 ^ 38 ∧
      t.dev.rg .ENG_URUN_CNT_COUNT e = min (s.dev.rg .ENG_URUN_CNT_COUNT e + 1) (2 ^ 16 - 1) ∧
      t.dev.rg .ENG_STAT_STATE e = 3 ∧ (t.dev.eng e).urun = some (s.dev.eng e).issued ∧
      t.dev.tick = max s.dev.tick due ∧ (t.dev.eng e).ending = some ⟨5, e, due, true⟩) := by
  refine Completes.onDev rfl ?_
  dsimp only
  obtain ⟨r, hund, hrec'⟩ := Dev.underrun_recorded (d := s.dev.advanceTo due) (e := e) (t := due)
    (by simp [Dev.advanceTo_eng, hrec, hst])
  obtain ⟨hvcnt, hvp, hcount, hstate, htied, heng, htick⟩ := hrec'
  rw [Dev.deadlineMiss_of_no_act hd ha, hund]
  rw [Dev.advanceTo_eng] at hvcnt heng
  rw [Dev.advanceTo_rg] at hvp hcount hstate
  rw [Dev.advanceTo_tied, ht] at htied
  have hruns : r.runs e = true := (Dev.runs_congr hstate).trans (Dev.runs_of_rowDeadline hd)
  have hend : (r.eng e).ending = none := by rw [heng, hn]
  have hends := Dev.endFaultAt_ends (l := [e.val]) r rUNDERRUN true due List.mem_cons_self
  obtain ⟨hs3, hending⟩ := Dev.endFaultAt_ended hruns hend rUNDERRUN true due
  refine ⟨?_, ?_, ?_, hs3, ?_, ?_, hending⟩
  · rw [hends.rg _ _ (by decide), hvcnt]
  · rw [hends.rg _ _ (by decide), hvp]
  · rw [hends.rg _ _ (by decide), hcount]
  · rw [Dev.endFaultAt_urun hruns hend htied, heng]
  · rw [hends.tick, htick, Dev.advanceTo_tick]

/-- A deadline missed in a recovery, while no line is absent, ends the burst with MC_STALL (R37). -/
theorem completes_deadlineMiss_stall {s : State} {e : EngId} {due : Nat} {r : Recov}
    (hd : s.dev.rowDeadline e = some due) (ha : (s.dev.eng e).act = none) (hn : (s.dev.eng e).ending = none)
    (hrec : (s.dev.eng e).recov = some r) (hdone : r.done = false) (hw : s.dev.lineWanted e = none) :
    Completes (.emissionDeadlineMiss e) s (fun t =>
      t.dev.rg .ENG_URUN_CNT_COUNT e = s.dev.rg .ENG_URUN_CNT_COUNT e ∧ t.dev.rg .ENG_STAT_STATE e = 3 ∧
      t.dev.tick = max s.dev.tick due ∧ (t.dev.eng e).ending = some ⟨3, e, due, true⟩) := by
  refine Completes.onDev rfl ?_
  dsimp only
  rw [Dev.deadlineMiss_of_no_act hd ha,
    Dev.underrun_of_recovery (by rw [Dev.advanceTo_eng, hrec]) hdone (by rw [Dev.advanceTo_lineWanted, hw])]
  have hends := Dev.endFaultAt_ends (l := [e.val]) (s.dev.advanceTo due) rMCSTALL true due List.mem_cons_self
  obtain ⟨hs3, hending⟩ := Dev.endFaultAt_ended (d := s.dev.advanceTo due)
    (by rw [Dev.advanceTo_runs, Dev.runs_of_rowDeadline hd]) (by rw [Dev.advanceTo_eng, hn]) rMCSTALL true due
  refine ⟨?_, hs3, ?_, hending⟩
  · rw [hends.rg _ _ (by decide), Dev.advanceTo_rg]
  · rw [hends.tick, Dev.advanceTo_tick]

/-- An engine that no member of a group elsewhere joins has no span of SCOPE 3 (R63). -/
theorem Dev.scope_ne_three_of_far (h : d.far.any (fun f => f.grp == d.grp e) = false) : d.scope e ≠ 3 := by
  unfold Dev.scope
  rw [h]
  repeat' split
  all_goals simp_all

/-- The tie latency of 4 cycles is that of one Seam (R64). -/
theorem Dev.scope_ne_three_of_tieLat (h : d.tieLat e = 4) : d.scope e ≠ 3 := fun hs => by simp [Dev.tieLat, hs] at h

/-- The beat of a lone member passes and changes nothing but time (R68). -/
theorem completes_tieBeat_single {s : State} {e : EngId} {g : GrpId}
    (hl : (List.range 128).filter (fun y => s.dev.tied y && s.dev.grp y == g.val && s.dev.runs y) = [e.val])
    (hfar : s.dev.far.any (fun f => f.grp == g.val) = false) : Completes (.tieBeat g) s (fun t =>
      t.dev.regs = s.dev.regs ∧ t.dev.engs = s.dev.engs ∧ t.mem = s.mem) := by
  have hin : e.val ∈ (List.range 128).filter (fun y => s.dev.tied y && s.dev.grp y == g.val && s.dev.runs y) := by simp [hl]
  have hgrp : s.dev.grp e = g.val := by
    simp only [List.mem_filter, Bool.and_eq_true, beq_iff_eq] at hin
    exact hin.2.1.2
  obtain ⟨k, b, h⟩ := Dev.tieBeat_of_here hl (Dev.scope_ne_three_of_far (by rw [hgrp, hfar])) s.mem
  rw [Dev.beatSame_single, if_pos rfl] at h
  refine Completes.onDev rfl ?_
  dsimp only
  rw [h]
  exact ⟨Dev.advanceTo_regs .., Dev.advanceTo_engs .., rfl⟩

/-- Two running members at different addresses end with DIVERGE at the beat (R68). -/
theorem completes_tieBeat_diverge {s : State} {g : GrpId} {y z : Nat}
    (hl : (List.range 128).filter (fun x => s.dev.tied x && s.dev.grp x == g.val && s.dev.runs x) = [y, z])
    (hlat : s.dev.tieLat y = 4) (hy : (s.dev.eng y).ending = none) (hz : (s.dev.eng z).ending = none)
    (hby : (s.dev.eng y).beatPc = []) (hbz : (s.dev.eng z).beatPc = [])
    (hpc : s.dev.rg .ENG_PC_ADDR y ≠ s.dev.rg .ENG_PC_ADDR z) : Completes (.tieBeat g) s (fun t =>
      t.dev.rg .ENG_STAT_STATE y = 3 ∧ t.dev.rg .ENG_STAT_STATE z = 3 ∧
      (t.dev.eng y).ending = some ⟨0x0F, y, t.dev.tick, false⟩ ∧
      (t.dev.eng z).ending = some ⟨0x0F, y, t.dev.tick, false⟩) := by
  have hsc := Dev.scope_ne_three_of_tieLat hlat
  have hne : y ≠ z := fun h => hpc (h ▸ rfl)
  have hrun : ∀ x ∈ [y, z], s.dev.runs x = true := fun x hx => by
    rw [← hl] at hx
    simp only [List.mem_filter, Bool.and_eq_true] at hx
    exact hx.2.2
  obtain ⟨k, b, h⟩ := Dev.tieBeat_of_here hl hsc s.mem
  set a := s.dev.advanceTo k with ha
  have hya : (a.eng y).ending = none := by rw [ha, Dev.advanceTo_eng, hy]
  have hza : (a.eng z).ending = none := by rw [ha, Dev.advanceTo_eng, hz]
  have hdiff : a.beatSame s.mem [y, z] b = false := Dev.beatSame_pair hya hza (by rw [ha, Dev.advanceTo_eng, hby])
    (by rw [ha, Dev.advanceTo_eng, hbz]) (by simpa [ha, Dev.advanceTo_rg] using hpc) s.mem b
  have hcounts : (a.members y).filter (fun x => a.faultCounts x rDIVERGE a.tick) = [y, z] :=
    Dev.members_filter_faultCounts rDIVERGE a.tick (g := g.val) (by simpa [ha] using hl) List.mem_cons_self
      (by simpa using ⟨hya, hza⟩)
  have hend := Dev.endGroup_pair hcounts hne (by rwa [ha, Dev.advanceTo_scope])
    (by rw [ha, Dev.advanceTo_runs, hrun y (by simp)]) (by rw [ha, Dev.advanceTo_runs, hrun z (by simp)]) hya hza
  rw [hdiff, if_neg Bool.false_ne_true] at h
  refine Completes.onDev rfl ?_
  dsimp only
  rw [h]
  obtain ⟨hsy, hey⟩ := hend y (by simp)
  obtain ⟨hsz, hez⟩ := hend z (by simp)
  exact ⟨hsy, hsz, hey, hez⟩

/-- Settles O25: a missed deadline by the record of the underrun and the end it makes, the beat by the comparison of the
members that still issue. -/
theorem deadlineAndBeat : Obligations.DeadlineAndBeat := by
  unfold Obligations.DeadlineAndBeat
  intro s e g
  refine ⟨?underrun, ?stall, ?noRow, ?agree, ?diverge⟩
  case underrun =>
    intro due hd ha hn hrec hst ht
    exact completes_deadlineMiss_underrun hd ha hn hrec hst ht
  case stall =>
    intro due r hd ha hn hrec hdone hw _
    exact completes_deadlineMiss_stall hd ha hn hrec hdone hw
  case noRow =>
    intro hd
    have hstay : s.dev.deadlineMiss s.mem e = s.dev := by simp [Dev.deadlineMiss, hd]
    change Host.Outcome.next { s with dev := s.dev.deadlineMiss s.mem e } = .next s
    rw [hstay]
  case agree =>
    intro hl hfar
    exact completes_tieBeat_single hl hfar
  case diverge =>
    intro y z hl hlat hy hz hby hbz hpc
    exact completes_tieBeat_diverge hl hlat hy hz hby hbz hpc

end Sys2Proof.Machine
end

section
/-!
How a burst ends: a partner's fault, a partner's stall, the hem and the posted result (R38, R93, R129, R143 to R145).
-/

namespace Sys2Proof.Machine

variable {d : Dev} {e : Nat}

/-! ## Updates that write registers of given fields only -/

/-- The registers of fields other than `fs`, and the clock, are as before. -/
structure Dev.WritesOnly (fs : List Field) (d t : Dev) : Prop where
  key  : ∀ j : RegKey, j.f ∉ fs → t.key j = d.key j
  tick : t.tick = d.tick

namespace Dev.WritesOnly

variable {fs gs : List Field} {d t u : Dev}

theorem refl (fs : List Field) (d : Dev) : Dev.WritesOnly fs d d := ⟨fun _ _ => rfl, rfl⟩

theorem trans (h : Dev.WritesOnly fs d t) (h' : Dev.WritesOnly fs t u) : Dev.WritesOnly fs d u :=
  ⟨fun j hj => (h'.key j hj).trans (h.key j hj), h'.tick.trans h.tick⟩

theorem mono (hs : fs ⊆ gs) (h : Dev.WritesOnly fs d t) : Dev.WritesOnly gs d t :=
  ⟨fun j hj => h.key j fun hm => hj (hs hm), h.tick⟩

theorem foldl {α : Type} {g : Dev → α → Dev} (hg : ∀ b a, Dev.WritesOnly fs b (g b a)) (as : List α) (d : Dev) :
    Dev.WritesOnly fs d (as.foldl g d) := by
  induction as generalizing d with
  | nil => exact refl fs d
  | cons a as ih => exact (hg d a).trans (ih _)

theorem rg (h : Dev.WritesOnly fs d t) (f : Field) (x : Nat) (hf : f ∉ fs) : t.rg f x = d.rg f x := h.key ⟨f, x, 0⟩ hf

theorem st {f : Field} (d : Dev) (x v : Nat) (hf : f ∈ fs) : Dev.WritesOnly fs d (d.st f x v) :=
  ⟨fun _ hj => Dev.key_st_ne d x v fun h => hj (h ▸ hf), rfl⟩

theorem of_eqs (hr : t.regs = d.regs) (ht : t.tick = d.tick) : Dev.WritesOnly fs d t :=
  ⟨fun j _ => by rw [Dev.key, hr]; rfl, ht⟩

end Dev.WritesOnly

/-! ## What the hem writes -/

/-- A pair set by the hem may merge edges of its pin; no other register changes (R130). -/
theorem Dev.setPair_writes (d : Dev) (c t : Nat) (drv den : Bool) (mode : ChanMode) :
    Dev.WritesOnly [.PIN_EDGE_MERGE_COUNT] d (d.setPair c t drv den mode) := by
  unfold Dev.setPair
  exact Dev.WritesOnly.trans (t := d.setChan c _) (.of_eqs rfl rfl) (.st _ _ _ (by decide))

theorem Dev.hemPins_writes (d : Dev) (l : List (Nat × Nat)) (t : Nat) (code : Nat → Nat) :
    Dev.WritesOnly [.PIN_EDGE_MERGE_COUNT] d (l.foldl (fun d cp => d.hemPin cp.1 t (code cp.2)) d) :=
  .foldl (fun b _ => Dev.setPair_writes b ..) l d

theorem Dev.logEv_writes (d : Dev) (b k u p : Nat) : Dev.WritesOnly reportFields d (d.logEv b k u p) :=
  ⟨fun _ hj => Dev.logEv_key d b k u p hj, Dev.logEv_tick ..⟩

/-- Discarded level settings are logged; the registers of others stay (R198). -/
theorem Dev.orphans_writes (d : Dev) (e t : Nat) : Dev.WritesOnly reportFields d (d.orphans e t) := by
  unfold Dev.orphans
  exact (Dev.WritesOnly.foldl (fun b _ => Dev.logEv_writes b ..) _ d).trans (.of_eqs rfl rfl)

theorem Dev.orphans_anch (d : Dev) (e t : Nat) : ((d.orphans e t).eng e).anch = [] := by
  unfold Dev.orphans
  simp

/-- The end of a loop window writes its register only (R125). -/
theorem Dev.endWindow_writes (d : Dev) (e : Nat) :
    Dev.WritesOnly [.ENG_BOB_LREM_ACTIVE, .ENG_BOB_LREM_HELD, .ENG_BOB_LREM_REM] d (d.endWindow e) := by
  unfold Dev.endWindow
  exact ((Dev.WritesOnly.st d e 0 (by decide)).trans (.st _ _ _ (by decide))).trans (.st _ _ _ (by decide))

/-- The hem at its instant, after an end by the program, once no strobe is open. -/
theorem Dev.hemApply_of_program {t0 : Nat} {o : Ending} (hi : d.hemInstant e = some t0) (hd : (d.eng e).hemDone = false)
    (hr : d.runs e = true) (hn : (d.eng e).ending = some o) (ho : o.reason = 0)
    (hst : ∀ c ∈ d.pins e, (d.chan c).strobes = []) : ∃ b : Dev,
      d.hemApply e = ((b.orphans e t0).modEng e (fun x => { x with hemDone := true, febDue := [] })).endWindow e ∧
      Dev.WritesOnly [.PIN_EDGE_MERGE_COUNT] (d.advanceTo t0) b := by
  have hopen : (d.pins e).any (fun c => !(d.chan c).strobes.isEmpty) = false := by simpa using hst
  unfold Dev.hemApply
  simp only [hi, hd, hr, hn, hopen, Option.elim_some, ho]
  exact ⟨_, rfl, Dev.hemPins_writes ..⟩

/-! ## What a result writes -/

/-- Fields that the log of a burst's end writes: the records it lost. -/
def lostFields : List Field := [.ENG_FLOG_LOST_COUNT, .ENG_RES_STAT_LOGINC]

theorem Dev.fbPut_writes (d : Dev) (e r : Nat) : Dev.WritesOnly lostFields d (d.fbPut e r) := by
  unfold Dev.fbPut
  exact .of_eqs rfl rfl

theorem Dev.fbLost_writes (d : Dev) (e room : Nat) : Dev.WritesOnly lostFields d (d.fbLost e room) := by
  unfold Dev.fbLost
  dsimp only
  split
  · split
    · exact Dev.WritesOnly.trans (t := d.setEng e _) (.of_eqs rfl rfl) (Dev.fbPut_writes ..)
    · exact .refl _ d
  · exact .refl _ d

/-- Records that found no room are counted. -/
theorem Dev.recordsLost_writes (d : Dev) (e k : Nat) (x : Eng) : Dev.WritesOnly lostFields d
    (((d.setEng e x).bump .ENG_FLOG_LOST_COUNT e k).st .ENG_RES_STAT_LOGINC e 1) := by
  have hlost : ∀ (b : Dev), ∀ f ∈ lostFields, ∀ v, Dev.WritesOnly lostFields b (b.st f e v) := fun b f hf v => .st b e v hf
  have heng : Dev.WritesOnly lostFields d (d.setEng e x) := .of_eqs rfl rfl
  exact (heng.trans (hlost _ .ENG_FLOG_LOST_COUNT (by decide) _)).trans (hlost _ .ENG_RES_STAT_LOGINC (by decide) 1)

theorem Dev.fbTry_writes (d : Dev) (e vcnt : Nat) (l : List Nat) : Dev.WritesOnly lostFields d (d.fbTry e vcnt l).2 := by
  unfold Dev.fbTry
  dsimp only
  split
  · exact (Dev.fbLost_writes d e 2046).trans (.foldl (fun b r => Dev.fbPut_writes b e r) l _)
  · exact (Dev.fbLost_writes d e 2046).trans (Dev.recordsLost_writes ..)

theorem Dev.fbPad_writes (d : Dev) (e n : Nat) : Dev.WritesOnly lostFields d (d.fbPad e n) := by
  induction n generalizing d with
  | zero => exact .refl _ d
  | succ n ih =>
    unfold Dev.fbPad
    split
    · exact .refl _ d
    · exact (Dev.fbPut_writes d e 0).trans (ih _)

/-- The log of a burst's end writes no register but the counts of lost records (R151, R156, R157). -/
theorem Dev.logEnd_writes (d : Dev) (e state reason vcnt : Nat) (spill : Bool) :
    Dev.WritesOnly lostFields d (d.logEnd e state reason vcnt spill) := by
  have hurun : ∀ b : Dev, Dev.WritesOnly lostFields b (match (b.eng e).urun with
      | some v => (b.modEng e (fun x => { x with urun := none })).fbUrun e v
      | none => b) := fun b => by
    split
    · exact Dev.WritesOnly.trans (t := b.modEng e _) (.of_eqs rfl rfl) (Dev.fbTry_writes ..)
    · exact .refl _ b
  have hend : ∀ b : Dev, Dev.WritesOnly lostFields b (if (b.eng e).fbCnt < 2048 then
      b.fbPut e (failRec vcnt e 0 reason state 0 0 7) else b.bump .ENG_FLOG_LOST_COUNT e 1) := fun b => by
    split
    · exact Dev.fbPut_writes ..
    · exact .st _ _ _ (by decide)
  unfold Dev.logEnd
  have hall := ((hurun d).trans (Dev.fbLost_writes _ e 2048)).trans (hend _)
  dsimp only
  split
  · exact hall.trans (Dev.fbPad_writes ..)
  · exact hall

theorem Dev.irq_writes (d : Dev) (v : Nat) : Dev.WritesOnly reportFields d (d.irq v) :=
  ⟨fun _ hj => Dev.irq_key d v hj, Dev.irq_tick ..⟩

/-- The trend of continuity of the engine's pins (R467). -/
theorem Dev.contPins_writes (d : Dev) (l : List (Nat × Nat)) (fail : Dev → Nat → Bool) :
    Dev.WritesOnly [.PIN_CONT_RUNS, .PIN_CONT_FAILS, .PIN_CONT_HIST_HIST] d
      (l.foldl (fun d cp => d.contPin cp.1 (fail d cp.2)) d) := by
  refine .foldl (fun b cp => ?_) l d
  unfold Dev.contPin
  dsimp only
  split
  · exact ((Dev.WritesOnly.st b cp.1 _ (by decide)).trans (.st _ _ _ (by decide))).trans (.st _ _ _ (by decide))
  · exact (Dev.WritesOnly.st b cp.1 _ (by decide)).trans (.st _ _ _ (by decide))

/-- Fields that a posted result writes. -/
def postFields : List Field :=
  [.ENG_RES_STAT_STATE, .ENG_RES_STAT_REASON, .ENG_RES_BCNT_COUNT] ++ lostFields ++ reportFields

theorem Dev.post_writes (d : Dev) (e state reason vcnt : Nat) (spill : Bool) :
    Dev.WritesOnly postFields d (d.post e state reason vcnt spill) := by
  unfold Dev.post
  exact ((((Dev.logEnd_writes d ..).mono (by decide)).trans (.st (f := .ENG_RES_STAT_STATE) _ _ _ (by decide))).trans
    (.st (f := .ENG_RES_STAT_REASON) _ _ _ (by decide))).trans ((Dev.WritesOnly.st (f := .ENG_RES_BCNT_COUNT) _ _ _
    (by decide)).trans ((Dev.irq_writes ..).mono (by decide)))

/-- The registers of a posted result (R143, R145). -/
theorem Dev.post_rg (d : Dev) (e state reason vcnt : Nat) (spill : Bool) :
    (d.post e state reason vcnt spill).rg .ENG_RES_STAT_STATE e = state % 2 ^ 2 ∧
      (d.post e state reason vcnt spill).rg .ENG_RES_STAT_REASON e = reason % 2 ^ 8 ∧
      (d.post e state reason vcnt spill).rg .ENG_RES_BCNT_COUNT e = (d.rg .ENG_RES_BCNT_COUNT e + 1) % 2 ^ 32 := by
  have hirq : ∀ (b : Dev) (f : Field), f ∉ reportFields → (b.irq e).rg f e = b.rg f e := fun b f hf =>
    (Dev.irq_writes b e).rg f e hf
  unfold Dev.post
  refine ⟨?_, ?_, ?_⟩
  · rw [hirq _ _ (by decide), Dev.rg_st_ne _ _ _ _ (by decide), Dev.rg_st_ne _ _ _ _ (by decide)]
    exact Dev.rg_st_self ..
  · rw [hirq _ _ (by decide), Dev.rg_st_ne _ _ _ _ (by decide)]
    exact Dev.rg_st_self ..
  · rw [hirq _ _ (by decide), Dev.rg_st_self, Dev.rg_st_ne _ _ _ _ (by decide), Dev.rg_st_ne _ _ _ _ (by decide),
      (Dev.logEnd_writes d e state reason vcnt spill).rg .ENG_RES_BCNT_COUNT e (by decide)]
    rfl

theorem Dev.noRows_writes (d : Dev) (e : Nat) : Dev.WritesOnly [.ENG_RES_VCNT_VCNT] d (d.noRows e) := by
  unfold Dev.noRows
  split
  · exact .st _ _ _ (by decide)
  · exact .refl _ d

theorem Dev.streamOver_writes (d : Dev) (e : Nat) : Dev.WritesOnly [.ENG_BOB_STAT_READY] d (d.streamOver e) := by
  unfold Dev.streamOver
  split
  · exact .st _ _ _ (by decide)
  · exact .refl _ d

theorem Dev.verdict_le (d : Dev) (e : Nat) : (d.verdict e).1 ≤ 3 := by
  unfold Dev.verdict
  repeat' split
  all_goals
    dsimp only
    decide

/-- A result that can post, on an engine without a waiting reset: from a device `b` whose summary says the burst is over,
the post and the new state of the engine (R144). -/
theorem Dev.resultPost_of_canPost (h : d.canPost e = true) (hr : (d.eng e).rst = false) : ∃ b : Dev,
    d.resultPost e = ((((b.post e (d.verdict e).1 (d.verdict e).2 (b.rg .ENG_RES_VCNT_VCNT e) (d.eng e).spill).streamOver e).st
      .ENG_STAT_STATE e (if (d.eng e).ue || (d.eng e).idFault then 4 else 0)).modEng e Eng.posted) ∧
    b.rg .ENG_RES_STAT_PROGFAIL e = b2n (d.eng e).mark ∧ b.rg .ENG_RES_STAT_RUNNING e = 0 ∧
    b.rg .ENG_RES_BCNT_COUNT e = d.rg .ENG_RES_BCNT_COUNT e := by
  have hover : ∀ (c : Prop) [Decidable c] (x : Dev), Dev.WritesOnly [.PIN_CONT_RUNS, .PIN_CONT_FAILS, .PIN_CONT_HIST_HIST] x
      (if c then ((x.pins e).zipIdx).foldl (fun d cp => d.contPin cp.1 (bitOf (d.rg .ENG_RES_PF_FAILED e) cp.2)) x else x) := by
    intro c _ x
    split
    · exact Dev.contPins_writes x _ fun d p => bitOf (d.rg .ENG_RES_PF_FAILED e) p
    · exact .refl _ x
  unfold Dev.resultPost
  simp only [h, hr, Bool.not_true, Bool.false_eq_true, if_false]
  refine ⟨_, rfl, ?_, ?_, ?_⟩
  · rw [(hover _ _).rg _ _ (by decide), Dev.rg_st_ne _ _ _ _ (by decide), Dev.rg_st_self]
    cases (d.eng e).mark <;> rfl
  · rw [(hover _ _).rg _ _ (by decide), Dev.rg_st_self, Nat.zero_mod]
  · rw [(hover _ _).rg _ _ (by decide), Dev.rg_st_ne _ _ _ _ (by decide), Dev.rg_st_ne _ _ _ _ (by decide),
      (Dev.noRows_writes d e).rg _ _ (by decide)]

/-! ## The clauses -/

/-- A partner's fault ends the burst here, where the engine stands (R38). -/
theorem completes_tieEndArrival {s : State} {e : EngId} {te : TieEnd} {rest : List TieEnd}
    (hq : (s.dev.eng e).tieEnd = te :: rest) (hn : (s.dev.eng e).ending = none) (hrec : (s.dev.eng e).recov = none)
    (hr : s.dev.runs e = true) : Completes (.tieEndArrival e) s (fun t =>
      t.dev.rg .ENG_STAT_STATE e = 3 ∧ (t.dev.eng e).tieEnd = rest ∧
      (t.dev.eng e).ending = some ⟨te.reason, te.from_, te.at_, false⟩ ∧ (t.dev.eng e).queue = [] ∧
      (t.dev.eng e).act = none ∧ t.dev.tick = max s.dev.tick te.due) := by
  refine Completes.onDev rfl ?_
  dsimp only
  set b := (s.dev.modEng e (fun x => { x with tieEnd := rest })).advanceTo te.due with hb
  have heng : b.eng e = { s.dev.eng e with tieEnd := rest } := by rw [hb, Dev.advanceTo_eng, Dev.modEng_eng_self]
  have hrb : b.runs e = true := by rw [hb, Dev.advanceTo_runs]; exact hr
  have harr : s.dev.tieEndArrival e = b.stopIssue e ⟨te.reason, te.from_, te.at_, false⟩ := by
    unfold Dev.tieEndArrival
    simp only [hq]
    exact Dev.endOne_of_running hrb (by rw [heng, hn]) _
  obtain ⟨m, k, a, hstop⟩ := Dev.stopIssue_eng b e ⟨te.reason, te.from_, te.at_, false⟩
  have htick := (Dev.stopIssue_ends (l := [e.val]) b ⟨te.reason, te.from_, te.at_, false⟩ List.mem_cons_self).tick
  rw [harr, hstop, heng, htick]
  refine ⟨Dev.stopIssue_state .., rfl, rfl, rfl, ?_, ?_⟩
  · simp [hrec]
  · rw [hb, Dev.advanceTo_tick, Dev.modEng_tick]

/-- A partner's recovery holds the issue (R38). -/
theorem completes_tieStallArrival {s : State} {e : EngId} {t0 n : Nat} {rest : List (Nat × Nat)}
    (hq : (s.dev.eng e).tieStall = (t0, n) :: rest) : Completes (.tieStallArrival e) s (fun t =>
      t.dev.eng e = { s.dev.eng e with tieStall := rest, free := max (s.dev.eng e).free (nextCycle t0) + n * 4000,
                                       stallTo := max (s.dev.eng e).free (nextCycle t0) + n * 4000 } ∧
      t.dev.regs = s.dev.regs ∧ t.dev.tick = max s.dev.tick t0) := by
  refine Completes.onDev rfl ?_
  dsimp only
  unfold Dev.tieStallArrival
  simp only [hq]
  refine ⟨?_, Dev.advanceTo_regs .., Dev.advanceTo_tick ..⟩
  rw [Dev.modEng_eng_self, Dev.advanceTo_eng]
  rfl

/-- The hem applies at its instant (R93, R129). -/
theorem completes_hemStateApply {s : State} {e : EngId} {t0 : Nat} {o : Ending} (hi : s.dev.hemInstant e = some t0)
    (hd : (s.dev.eng e).hemDone = false) (hr : s.dev.runs e = true) (hn : (s.dev.eng e).ending = some o) (ho : o.reason = 0)
    (hst : ∀ c ∈ s.dev.pins e, (s.dev.chan c).strobes = []) : Completes (.hemStateApply e) s (fun t =>
      (t.dev.eng e).hemDone = true ∧ (t.dev.eng e).anch = [] ∧ t.dev.tick = max s.dev.tick t0 ∧
      t.dev.rg .ENG_BOB_LREM_ACTIVE e = 0 ∧ t.dev.rg .ENG_STAT_STATE e = s.dev.rg .ENG_STAT_STATE e) := by
  refine Completes.onDev rfl ?_
  dsimp only
  obtain ⟨b, happ, hpins⟩ := Dev.hemApply_of_program hi hd hr hn ho hst
  have horph := Dev.orphans_writes b e t0
  rw [happ]
  set c := (b.orphans e t0).modEng e (fun x => { x with hemDone := true, febDue := [] }) with hc
  have heng : (c.endWindow e).eng e = { (b.orphans e t0).eng e with hemDone := true, febDue := [] } := by
    change c.eng e = _
    rw [hc, Dev.modEng_eng_self]
  have hcrg : ∀ f, c.rg f e = (b.orphans e t0).rg f e := fun f => rfl
  refine ⟨by rw [heng], by rw [heng]; exact Dev.orphans_anch .., ?_, ?_, ?_⟩
  · calc (c.endWindow e).tick = (b.orphans e t0).tick := rfl
      _ = max s.dev.tick t0 := by rw [horph.tick, hpins.tick, Dev.advanceTo_tick]
  · unfold Dev.endWindow
    rw [Dev.rg_st_ne _ _ _ _ (by decide), Dev.rg_st_ne _ _ _ _ (by decide), Dev.rg_st_self, Nat.zero_mod]
  · calc (c.endWindow e).rg .ENG_STAT_STATE e = (b.orphans e t0).rg .ENG_STAT_STATE e :=
          (Dev.endWindow_writes c e).rg _ _ (by decide)
      _ = s.dev.rg .ENG_STAT_STATE e := by
          rw [horph.rg _ _ (by decide), hpins.rg _ _ (by decide), Dev.advanceTo_rg]

/-- A result that can post is posted, and leaves the engine IDLE or FAULTED (R143 to R145, R246, R250). -/
theorem completes_resultPost {s : State} {e : EngId} (h : s.dev.canPost e = true) (hrst : (s.dev.eng e).rst = false) :
    Completes (.resultPost e) s (fun t => t.dev.rg .ENG_RES_STAT_STATE e = (s.dev.verdict e).1 ∧
      t.dev.rg .ENG_RES_STAT_REASON e = (s.dev.verdict e).2 % 2 ^ 8 ∧ t.dev.rg .ENG_RES_STAT_RUNNING e = 0 ∧
      t.dev.rg .ENG_RES_STAT_PROGFAIL e = b2n (s.dev.eng e).mark ∧
      t.dev.rg .ENG_RES_BCNT_COUNT e = (s.dev.rg .ENG_RES_BCNT_COUNT e + 1) % 2 ^ 32 ∧
      (t.dev.eng e).ending = none ∧
      t.dev.rg .ENG_STAT_STATE e = if (s.dev.eng e).ue || (s.dev.eng e).idFault then 4 else 0) := by
  refine Completes.onDev rfl ?_
  dsimp only
  obtain ⟨b, hpost, hmark, hrun, hcnt⟩ := Dev.resultPost_of_canPost h hrst
  rw [hpost]
  set p := b.post e (s.dev.verdict e).1 (s.dev.verdict e).2 (b.rg .ENG_RES_VCNT_VCNT e) (s.dev.eng e).spill with hp
  obtain ⟨hstate, hreason, hbcnt⟩ := Dev.post_rg b e (s.dev.verdict e).1 (s.dev.verdict e).2 (b.rg .ENG_RES_VCNT_VCNT e)
    (s.dev.eng e).spill
  rw [← hp] at hstate hreason hbcnt
  have hafter : ∀ f, f ≠ .ENG_BOB_STAT_READY → f ≠ .ENG_STAT_STATE → (((p.streamOver e).st .ENG_STAT_STATE e
      (if (s.dev.eng e).ue || (s.dev.eng e).idFault then 4 else 0)).modEng e Eng.posted).rg f e = p.rg f e := by
    intro f hf hf'
    rw [Dev.modEng_rg, Dev.rg_st_ne _ _ _ _ (Ne.symm hf'), (Dev.streamOver_writes p e).rg f e (by simpa using hf)]
  have hbefore : ∀ f, f ∉ postFields → p.rg f e = b.rg f e := fun f hf => (Dev.post_writes b ..).rg f e hf
  refine ⟨?_, ?_, ?_, ?_, ?_, ?_, ?_⟩
  · rw [hafter _ (by decide) (by decide), hstate, Nat.mod_eq_of_lt (by have := s.dev.verdict_le e; omega)]
  · rw [hafter _ (by decide) (by decide), hreason]
  · rw [hafter _ (by decide) (by decide), hbefore _ (by decide), hrun]
  · rw [hafter _ (by decide) (by decide), hbefore _ (by decide), hmark]
  · rw [hafter _ (by decide) (by decide), hbcnt, hcnt]
  · rw [Dev.modEng_eng_self]
    rfl
  · rw [Dev.modEng_rg, Dev.rg_st_self]
    split <;> rfl

/-- The result of an untied engine can post once the hem has applied and every row has resolved (R143). -/
theorem Dev.canPost_of_alone (hr : d.runs e = true) (hd : (d.eng e).hemDone = true) (hm : d.members e = [e])
    (hu : (d.eng e).unres = []) (ht : (d.eng e).tieEnd = []) : d.canPost e = true := by
  simp [Dev.canPost, hr, hd, hm, hu, ht]

/-- Settles O23: the arrival of a partner's end stops the issue, the hem and the post write the registers and the engine's
data that they name. -/
theorem burstEnd : Obligations.BurstEnd := by
  unfold Obligations.BurstEnd
  intro s e
  refine ⟨?tieEnd, ?tieStall, ?hem, ?post⟩
  case tieEnd =>
    intro te rest hq hn hrec hr
    exact completes_tieEndArrival hq hn hrec hr
  case tieStall =>
    intro t0 n rest hq
    exact completes_tieStallArrival hq
  case hem =>
    intro t0 o hi hd hr hn ho hst
    exact completes_hemStateApply hi hd hr hn ho hst
  case post =>
    intro hr hd hm hu ht hrst
    exact completes_resultPost (Dev.canPost_of_alone hr hd hm hu ht) hrst

end Sys2Proof.Machine
end

section
/-!
The time sources: the reference clock, the device number, the change of source, TICKSYNC and Seam time (R21, R310 to R318).
-/

namespace Sys2Proof.Machine

variable {d : Dev} {e : Nat}

/-! ## A change of device time and its announcement -/

/-- A change of the settings adds at most to the generations and qualities that are past (R272). -/
theorem Time.change_past (x : Time) (k : Nat) (g : Time → Time) : ∃ p, x.change k g = { g x with past := p } := by
  unfold Time.change
  dsimp only
  split
  · exact ⟨_, rfl⟩
  · exact ⟨_, rfl⟩

/-- A latch of the time read is no change of generation or quality (R310). -/
theorem Time.change_aux (x : Time) (k : Nat) (v : Time → Nat) :
    x.change k (fun t => { t with aux := v t }) = { x with aux := v x } := if_pos ⟨rfl, rfl⟩

/-- A moving clock moves device time on and its slew, and no other setting. -/
theorem Dev.advanceTo_time (d : Dev) (k : Nat) : ∃ u w n, (d.advanceTo k).time = { d.time with sub := u, slew := w, at_ := n } := by
  unfold Dev.advanceTo
  split
  · exact ⟨_, _, _, rfl⟩
  · exact ⟨d.time.sub, d.time.slew, d.time.at_, rfl⟩

theorem Dev.modTime_time (d : Dev) (g : Time → Time) : ∃ p, (d.modTime g).time = { g d.time with past := p } :=
  Time.change_past ..

theorem Dev.modTime_tick (d : Dev) (g : Time → Time) : (d.modTime g).tick = d.tick := rfl

/-- What follows a change of time may write registers of the fields `fs`; device time and the engines stay as they are. -/
structure Dev.Announces (fs : List Field) (d t : Dev) : Prop where
  writes : Dev.WritesOnly fs d t
  time   : t.time = d.time
  engs   : t.engs = d.engs

namespace Dev.Announces

variable {fs : List Field} {d t u : Dev}

theorem refl (fs : List Field) (d : Dev) : Dev.Announces fs d d := ⟨.refl fs d, rfl, rfl⟩

theorem trans (h : Dev.Announces fs d t) (h' : Dev.Announces fs t u) : Dev.Announces fs d u :=
  ⟨h.writes.trans h'.writes, h'.time.trans h.time, h'.engs.trans h.engs⟩

theorem eng (h : Dev.Announces fs d t) (e : Nat) : t.eng e = d.eng e := by rw [Dev.eng, Dev.eng, h.engs]

end Dev.Announces

theorem Dev.logEv_announces (d : Dev) (b k u p : Nat) (f : Field) : Dev.Announces (f :: reportFields) d (d.logEv b k u p) :=
  ⟨(Dev.logEv_writes d b k u p).mono (List.subset_cons_self ..), Dev.logEv_time .., Dev.logEv_engs ..⟩

theorem Dev.irq_announces (d : Dev) (v : Nat) (f : Field) : Dev.Announces (f :: reportFields) d (d.irq v) :=
  ⟨(Dev.irq_writes d v).mono (List.subset_cons_self ..), Dev.irq_time .., Dev.irq_engs ..⟩

/-- A bit of HOST_READY changes with a message to the host (R421). -/
theorem Dev.ready_announces (d : Dev) (f : Field) (v : Nat) : Dev.Announces (f :: reportFields) d (d.ready f v) := by
  unfold Dev.ready
  split
  · exact .refl _ d
  · exact Dev.Announces.trans (t := d.st f 0 v) ⟨.st d 0 v List.mem_cons_self, rfl, rfl⟩ (Dev.irq_announces ..)

/-- A bit of HOST_READY reads as it was set. -/
theorem Dev.ready_rg (d : Dev) {f : Field} (v : Nat) (hf : f ∉ reportFields) :
    (d.ready f v).rg f 0 = v % 2 ^ f.info.width := by
  unfold Dev.ready
  split
  · assumption
  · rw [(Dev.irq_writes _ _).rg f 0 hf, Dev.rg_st_self]

/-- A step of device time is the change it makes, and its announcement (R309). -/
theorem Dev.timeStep_announces {g : Dev → Dev} {t : Dev} (h : g d = t) :
    Dev.Announces (.HOST_READY_TIMESET :: reportFields) t (d.timeStep g) := by
  subst h
  have hset := Dev.ready_announces (g d) .HOST_READY_TIMESET (b2n ((g d).quality != 4))
  unfold Dev.timeStep
  dsimp only
  split
  · exact hset
  · exact (hset.trans (Dev.irq_announces _ 198 _)).trans (Dev.logEv_announces ..)

/-! ## A lost reference -/

/-- A fault taken on the engines of `l` one after the other ends every running burst among them, at the same tick. -/
theorem Dev.endFault_foldl_ended {reason : Nat} {l : List Nat} (hl : l.Nodup) (he : e ∈ l) (d : Dev) (hr : d.runs e = true)
    (hn : (d.eng e).ending = none) :
    (l.foldl (fun d e => d.endFault e reason false) d).rg .ENG_STAT_STATE e = 3 ∧
      ((l.foldl (fun d e => d.endFault e reason false) d).eng e).ending = some ⟨reason, e, d.tick, false⟩ := by
  induction l generalizing d with
  | nil => cases he
  | cons a as ih =>
    obtain ⟨ha, has⟩ := List.nodup_cons.1 hl
    rw [List.foldl_cons]
    have hfirst : Dev.Ends [a] d (d.endFault a reason false) := Dev.endFaultAt_ends d reason false d.tick List.mem_cons_self
    obtain rfl | hin := List.mem_cons.1 he
    · have hrest : Dev.Ends as (d.endFault e reason false)
          (as.foldl (fun d e => d.endFault e reason false) (d.endFault e reason false)) :=
        .foldl as _ fun b x hx => Dev.endFaultAt_ends b reason false b.tick hx
      obtain ⟨hstate, hending⟩ := Dev.endFaultAt_ended hr hn reason false d.tick
      exact ⟨(hrest.state e ha).trans hstate, (hrest.ending e ha).trans hending⟩
    · have hea : e ∉ [a] := fun h => ha (List.mem_singleton.1 h ▸ hin)
      have := ih has hin (d.endFault a reason false) (by rw [hfirst.runs hea, hr]) (by rw [hfirst.ending e hea, hn])
      rwa [hfirst.tick] at this

/-- The device at the loss of its reference, before the bursts end. -/
def Dev.refLostAt (d : Dev) (dt : Nat) : Dev :=
  ((((d.advanceTo (d.tick + dt)).modTime (fun t => { t with refLost := true, slew := 0, locked := 0, resync := true })).ready
    .HOST_READY_TIMING 0).logEv 0x00 0x15 0 0)

theorem Dev.refLost_of_valid (h : d.time.refLost = false) (dt : Nat) :
    d.refLost dt = (List.range 128).foldl (fun d e => d.endFault e rREFCLK false) (d.refLostAt dt) := by
  obtain ⟨u, w, n, ht⟩ := Dev.advanceTo_time d (d.tick + dt)
  have hb : (d.advanceTo (d.tick + dt)).time.refLost = false := by rw [ht, h]
  unfold Dev.refLost
  simp only [hb, Bool.false_eq_true, if_false]
  rfl

/-- The loss stops the slew and the lock, and TIMING is no longer ready (R21, R318). -/
theorem Dev.refLostAt_facts (d : Dev) (dt : Nat) : (d.refLostAt dt).time.refLost = true ∧ (d.refLostAt dt).time.slew = 0 ∧
    (d.refLostAt dt).time.locked = 0 ∧ (d.refLostAt dt).rg .HOST_READY_TIMING 0 = 0 ∧ (d.refLostAt dt).tick = d.tick + dt ∧
    (∀ u, (d.refLostAt dt).rg .ENG_STAT_STATE u = d.rg .ENG_STAT_STATE u) ∧ ∀ u, (d.refLostAt dt).eng u = d.eng u := by
  set b := (d.advanceTo (d.tick + dt)).modTime (fun t => { t with refLost := true, slew := 0, locked := 0, resync := true })
    with hb
  have hann : Dev.Announces (.HOST_READY_TIMING :: reportFields) b (d.refLostAt dt) :=
    (Dev.ready_announces b .HOST_READY_TIMING 0).trans (Dev.logEv_announces ..)
  obtain ⟨p, ht⟩ := Dev.modTime_time (d.advanceTo (d.tick + dt))
    (fun t => { t with refLost := true, slew := 0, locked := 0, resync := true })
  rw [← hb] at ht
  refine ⟨?_, ?_, ?_, ?_, ?_, fun u => ?_, fun u => ?_⟩
  · rw [hann.time, ht]
  · rw [hann.time, ht]
  · rw [hann.time, ht]
  · exact ((Dev.logEv_writes ..).rg _ _ (by decide)).trans (Dev.ready_rg b 0 (by decide))
  · rw [hann.writes.tick, hb]
    exact (Dev.advanceTo_tick ..).trans (Nat.max_eq_right (Nat.le_add_right ..))
  · rw [hann.writes.rg _ _ (by decide)]
    exact Dev.advanceTo_rg ..
  · rw [hann.eng]
    exact Dev.advanceTo_eng ..

/-- A lost reference ends every running burst in that cycle (R21). -/
theorem completes_refclkLost {s : State} (e : EngId) (dt : Nat) (h : s.dev.time.refLost = false) :
    Completes (.refclkLost dt) s (fun t => t.dev.time.refLost = true ∧ t.dev.time.slew = 0 ∧
      t.dev.time.locked = 0 ∧ t.dev.rg .HOST_READY_TIMING 0 = 0 ∧ t.dev.tick = s.dev.tick + dt ∧
      (s.dev.runs e = true → (s.dev.eng e).ending = none → t.dev.rg .ENG_STAT_STATE e = 3 ∧
        (t.dev.eng e).ending = some ⟨0x01, e, s.dev.tick + dt, false⟩)) := by
  refine Completes.onDev rfl ?_
  dsimp only
  obtain ⟨hlost, hslew, hlocked, htiming, htick, hstate, heng⟩ := s.dev.refLostAt_facts dt
  have hann := Dev.timeStep_announces (g := (·.refLost dt)) (Dev.refLost_of_valid h dt)
  have hends : Dev.Ends (List.range 128) (s.dev.refLostAt dt)
      ((List.range 128).foldl (fun d e => d.endFault e rREFCLK false) (s.dev.refLostAt dt)) :=
    .foldl _ _ fun b x hx => Dev.endFaultAt_ends b rREFCLK false b.tick hx
  have hset : (s.dev.timeStep (·.refLost dt)).rg .HOST_READY_TIMING 0 = 0 := by
    rw [hann.writes.rg _ _ (by decide), hends.rg _ _ (by decide), htiming]
  refine ⟨?_, ?_, ?_, hset, ?_, fun hr hn => ?_⟩
  · rw [hann.time, hends.time, hlost]
  · rw [hann.time, hends.time, hslew]
  · rw [hann.time, hends.time, hlocked]
  · rw [hann.writes.tick, hends.tick, htick]
  · obtain ⟨hs3, hending⟩ := Dev.endFault_foldl_ended (reason := rREFCLK) List.nodup_range (List.mem_range.2 e.isLt)
      (s.dev.refLostAt dt) ((Dev.runs_congr (hstate e)).trans hr) (by rw [heng, hn])
    rw [hann.writes.rg _ _ (by decide), hann.eng, hs3, hending, htick]
    exact ⟨rfl, rfl⟩

/-- A reference that returns is no longer lost (R22). -/
theorem completes_refclkRestored {s : State} (h : s.dev.time.refLost = true) : Completes .refclkRestored s (fun t =>
    t.dev.time = s.dev.time.change s.dev.tick (fun y => { y with refLost := false }) ∧ t.dev.engs = s.dev.engs) := by
  refine Completes.onDev rfl ?_
  dsimp only
  have hann := Dev.timeStep_announces (g := (·.refBack)) (if_pos h)
  have hlog := Dev.logEv_announces (s.dev.modTime (fun t => { t with refLost := false })) 0x00 0x16 0 0 .HOST_READY_TIMESET
  exact ⟨hann.time.trans hlog.time, hann.engs.trans hlog.engs⟩

/-! ## The device number and the source -/

theorem completes_timeNowRead (s : State) : Completes .timeNowRead s (fun t => t.dev.regs = s.dev.regs ∧
    t.dev.time = { s.dev.time with
      aux := s.dev.nowFrac % 65536 + s.dev.time.gen * 2 ^ 16 + s.dev.quality * 2 ^ 24 }) :=
  Completes.onDev rfl ⟨rfl, Time.change_aux s.dev.time s.dev.tick
    fun t => s.dev.nowFrac % 65536 + t.gen * 2 ^ 16 + s.dev.quality * 2 ^ 24⟩

/-- The device number is written while no Seam port is enabled (R312). -/
theorem completes_devnum_free {s : State} (h : ∀ q : PortId, s.dev.on .LNK_SP_CTRL_EN q = false) (num : BitVec 10) :
    Completes (.timeDevnumWrite num) s (fun t => t.dev.rg .TIME_DEVNUM_NUM 0 = num.toNat ∧
      ∀ j, j ≠ ⟨.TIME_DEVNUM_NUM, 0, 0⟩ → t.dev.key j = s.dev.key j) := by
  have hno : (List.range 4).any (fun p => s.dev.on .LNK_SP_CTRL_EN p) = false := by
    simpa using fun p hp => h ⟨p, hp⟩
  refine Completes.onDev rfl ?_
  dsimp only
  rw [Dev.devnumWrite, hno, if_neg Bool.false_ne_true]
  refine ⟨?_, fun j hj => Dev.key_setKey_ne _ _ hj.symm⟩
  rw [Dev.rg_st_self]
  exact Nat.mod_eq_of_lt num.isLt

/-- An enabled Seam port refuses the device number (R312). -/
theorem completes_devnum_refused {s : State} {p : PortId} (h : s.dev.on .LNK_SP_CTRL_EN p = true) (num : BitVec 10) :
    Completes (.timeDevnumWrite num) s (fun t => t.dev.rg .TIME_DEVNUM_WREJ 0 = 1 ∧
      t.dev.rg .TIME_DEVNUM_NUM 0 = s.dev.rg .TIME_DEVNUM_NUM 0) := by
  have hany : (List.range 4).any (fun p => s.dev.on .LNK_SP_CTRL_EN p) = true :=
    List.any_eq_true.2 ⟨p, List.mem_range.2 p.isLt, h⟩
  refine Completes.onDev rfl ?_
  dsimp only
  rw [Dev.devnumWrite, hany, if_pos rfl]
  exact ⟨Dev.rg_st_self .., Dev.rg_st_ne _ _ _ _ (by decide)⟩

/-- A new source drops the old one (R311). -/
theorem completes_sourceSelect_new {s : State} {src : BitVec 2} (h : s.dev.rg .TIME_CTRL_SRC 0 ≠ src.toNat) :
    Completes (.timeSourceSelect src) s (fun t =>
      t.dev.rg .TIME_CTRL_SRC 0 = src.toNat ∧ t.dev.time.locked = 0 ∧ t.dev.time.slew = 0 ∧ t.dev.time.master = none ∧
      t.dev.time.server = none ∧ t.dev.time.gen = s.dev.time.gen ∧ t.dev.time.sub = s.dev.time.sub) := by
  refine Completes.onDev rfl ?_
  dsimp only
  have hann := Dev.timeStep_announces (g := (·.srcSelect src.toNat)) (if_neg h)
  obtain ⟨p, ht⟩ := Dev.modTime_time (s.dev.st .TIME_CTRL_SRC 0 src.toNat) (fun t => { t with
    locked := 0, slew := 0, master := none, server := none, sync := none, dreq := none, pdreq := none, pdResp := none
    last12 := none, disc := false })
  rw [hann.time, ht]
  refine ⟨?_, rfl, rfl, rfl, rfl, rfl, rfl⟩
  rw [hann.writes.rg _ _ (by decide)]
  exact (Dev.rg_st_self ..).trans (Nat.mod_eq_of_lt src.isLt)

theorem completes_sourceSelect_same {s : State} {src : BitVec 2} (h : s.dev.rg .TIME_CTRL_SRC 0 = src.toNat) :
    Completes (.timeSourceSelect src) s (fun t => t.dev.time = s.dev.time) := by
  refine Completes.onDev rfl ?_
  exact (Dev.timeStep_announces (g := (·.srcSelect src.toNat)) (if_pos h)).time

/-! ## TICKSYNC -/

theorem Dev.advanceTo_tick_add (d : Dev) (dt : Nat) : (d.advanceTo (d.tick + dt)).tick = d.tick + dt :=
  (Dev.advanceTo_tick ..).trans (Nat.max_eq_right (Nat.le_add_right ..))

/-- The first edge aligns the coarse count, in whole engine cycles (R316). -/
theorem completes_ticksync_first {s : State} (dt : Nat) (hs : s.dev.time.synced = false) (hl : s.dev.time.refLost = false) :
    Completes (.ticksyncEdge dt) s (fun t => t.dev.tick = s.dev.tick + dt ∧
      t.dev.time.synced = true ∧ t.dev.time.resync = false ∧ (t.dev.coarseAt t.dev.tick + 3) % 40000 ≤ 3 ∧
      t.dev.regs = s.dev.regs) := by
  refine Completes.onDev rfl ?_
  dsimp only
  obtain ⟨u, w, n, hadv⟩ := Dev.advanceTo_time s.dev (s.dev.tick + dt)
  set b := s.dev.advanceTo (s.dev.tick + dt) with hb
  have hbt : b.tick = s.dev.tick + dt := by rw [hb, Dev.advanceTo_tick_add]
  have hset : s.dev.ticksync dt = b.modTime (fun t => { t with
      coarse := t.coarse + (40000 - b.coarseAt b.tick % 40000) / 4 * 4 % 40000, synced := true, resync := false }) := by
    unfold Dev.ticksync
    simp only [← hb, hadv, hs, hl]
    rfl
  obtain ⟨p, ht⟩ := Dev.modTime_time b (fun t => { t with
      coarse := t.coarse + (40000 - b.coarseAt b.tick % 40000) / 4 * 4 % 40000, synced := true, resync := false })
  rw [hset]
  refine ⟨hbt, by rw [ht], by rw [ht], ?_, ?_⟩
  · rw [Dev.coarseAt, ht]
    change (b.tick / 1000 + (b.time.coarse + (40000 - (b.tick / 1000 + b.time.coarse) % 40000) / 4 * 4 % 40000) + 3) % 40000 ≤ 3
    omega
  · rw [← Dev.advanceTo_regs s.dev (s.dev.tick + dt)]
    rfl

/-- A later edge that does not agree is an error, and changes no count (R316). -/
theorem completes_ticksync_error {s : State} {dt : Nat} (hs : s.dev.time.synced = true) (hr : s.dev.time.resync = false)
    (hc : s.dev.coarseAt (s.dev.tick + dt) % 40000 ≠ 0) : Completes (.ticksyncEdge dt) s (fun t =>
      t.dev.rg .TIME_STAT_TSYNC_ERR 0 = 1 ∧ t.dev.time.coarse = s.dev.time.coarse) := by
  refine Completes.onDev rfl ?_
  dsimp only
  obtain ⟨u, w, n, hadv⟩ := Dev.advanceTo_time s.dev (s.dev.tick + dt)
  set b := s.dev.advanceTo (s.dev.tick + dt) with hb
  have hcb : b.coarseAt b.tick % 40000 ≠ 0 := by
    rw [hb, Dev.advanceTo_tick_add, Dev.coarseAt, ← hb, hadv]
    exact hc
  have herr : s.dev.ticksync dt = ((b.st .TIME_STAT_TSYNC_ERR 0 1).irq 198).logEv 0x03 0x12 b.time.gen (b.coarseAt b.tick) := by
    unfold Dev.ticksync
    simp only [← hb, if_neg hcb, hadv, hs, hr]
    rfl
  rw [herr]
  refine ⟨?_, ?_⟩
  · rw [(Dev.logEv_writes ..).rg _ _ (by decide), (Dev.irq_writes ..).rg _ _ (by decide)]
    exact Dev.rg_st_self ..
  · rw [Dev.logEv_time, Dev.irq_time]
    change b.time.coarse = _
    rw [hadv]

/-! ## Seam time -/

/-- Hand a message to port `p`, if it is open to it. -/
def Dev.seamHand (m : SeamMsg) (d : Dev) (p : Nat) : Dev :=
  if some p = (none : Option Nat) || !d.seamOpen p m.isSew then d
  else { d with seamQ := d.seamQ.put p ((d.seamQ.get? p).getD [] ++ [(d.tick, m)]) }

theorem Dev.seamPost_eq (d : Dev) (m : SeamMsg) :
    d.seamPost none m = (List.range 4).foldl (Dev.seamHand m) { d with seen := (d.tick, m) :: d.seen } := rfl

/-- A handed message waits at its open port. -/
theorem Dev.seamHand_waits (d : Dev) (m : SeamMsg) {p : Nat} (ho : d.seamOpen p m.isSew = true) :
    (d.tick, m) ∈ ((d.seamHand m p).seamQ.get? p).getD [] := by
  simp [Dev.seamHand, ho]

/-- What waits at a port still waits after a message is handed to a port. -/
theorem Dev.seamHand_keeps (d : Dev) (m : SeamMsg) (a : Nat) {p : Nat} {w : Nat × SeamMsg}
    (hw : w ∈ (d.seamQ.get? p).getD []) : w ∈ ((d.seamHand m a).seamQ.get? p).getD [] := by
  unfold Dev.seamHand
  split
  · exact hw
  · by_cases h : a = p
    · subst h
      simp [hw]
    · rwa [AMap.get?_put_ne _ _ h]

theorem Dev.seamHand_regs_tick (d : Dev) (m : SeamMsg) (a : Nat) :
    (d.seamHand m a).regs = d.regs ∧ (d.seamHand m a).tick = d.tick := by
  unfold Dev.seamHand
  split
  · exact ⟨rfl, rfl⟩
  · exact ⟨rfl, rfl⟩

/-- A message posted to the ports waits at every port that is open to it (R354). -/
theorem Dev.seamPost_waits (d : Dev) (m : SeamMsg) {p : Nat} (hp : p < 4) (ho : d.seamOpen p m.isSew = true) :
    (d.tick, m) ∈ ((d.seamPost none m).seamQ.get? p).getD [] := by
  have hfold : ∀ (l : List Nat) (b : Dev), b.regs = d.regs → b.tick = d.tick →
      (p ∈ l ∨ (d.tick, m) ∈ (b.seamQ.get? p).getD []) →
      (d.tick, m) ∈ ((l.foldl (Dev.seamHand m) b).seamQ.get? p).getD [] := by
    intro l
    induction l with
    | nil => intro b _ _ h; simpa using h
    | cons a l ih =>
      intro b hr ht h
      obtain ⟨hr', ht'⟩ := Dev.seamHand_regs_tick b m a
      refine ih (b.seamHand m a) (hr'.trans hr) (ht'.trans ht) ?_
      obtain h | h := h
      · obtain rfl | h := List.mem_cons.1 h
        · have hob : b.seamOpen p m.isSew = true := by
            rw [← ho]
            unfold Dev.seamOpen Dev.rg Dev.key
            rw [hr]
          exact .inr (ht ▸ Dev.seamHand_waits b m hob)
        · exact .inl h
      · exact .inr (Dev.seamHand_keeps b m a h)
  rw [Dev.seamPost_eq]
  exact hfold _ _ rfl rfl (.inl (List.mem_range.2 hp))

/-- A server states its time on every full port (R317). -/
theorem completes_seamTimeSend {s : State} {p : PortId} (hs : s.dev.on .TIME_CTRL_SERVE 0 = true)
    (hsrc : s.dev.rg .TIME_CTRL_SRC 0 ≠ 2) (hp : s.dev.rg .LNK_SP_STAT_STATE p = 2) : Completes .seamTimeSend s (fun t =>
      (s.dev.tick, SeamMsg.time s.dev.pos 0 (s.dev.rg .TIME_DEVNUM_NUM 0) (s.dev.coarseAt s.dev.tick) s.dev.nowFrac
        s.dev.time.gen s.dev.quality 0) ∈ (t.dev.seamQ.get? p).getD []) := by
  refine Completes.onDev rfl ?_
  dsimp only
  rw [Dev.seamTimeSend, if_pos (by simp [hs, hsrc])]
  exact Dev.seamPost_waits s.dev _ p.isLt (by simp [Dev.seamOpen, hp])

/-- A server that is silent for 10 µs is dropped (R317). -/
theorem completes_seamTimeout {s : State} (hsrc : s.dev.rg .TIME_CTRL_SRC 0 = 2) (hsome : s.dev.time.server.isSome) :
    Completes .seamTimeTimeout s (fun t => t.dev.time.server = none ∧ t.dev.time.locked = 0 ∧ t.dev.time.slew = 0 ∧
      t.dev.tick = max s.dev.tick (s.dev.time.lastMsg + 40000000)) := by
  refine Completes.onDev rfl ?_
  dsimp only
  have hcyc : 10000 * cyc = 40000000 := by norm_num [cyc]
  have hann := Dev.timeStep_announces (g := (·.seamTimeout)) (if_pos ⟨hsrc, hsome⟩)
  obtain ⟨p, ht⟩ := Dev.modTime_time (s.dev.advanceTo (s.dev.time.lastMsg + 10000 * cyc))
    (fun t => { t with locked := 0, slew := 0, server := none })
  rw [hann.time, ht, hann.writes.tick, Dev.modTime_tick, Dev.advanceTo_tick, hcyc]
  exact ⟨rfl, rfl, rfl, rfl⟩

/-- Settles O37: each command by the device time that its change leaves, which the announcement does not touch. -/
theorem timeSources : Obligations.TimeSources := by
  unfold Obligations.TimeSources
  intro s dt num src e p
  refine ⟨completes_refclkLost e dt, completes_refclkRestored, completes_timeNowRead s, (completes_devnum_free · num),
    (completes_devnum_refused · num), completes_sourceSelect_new, completes_sourceSelect_same, completes_ticksync_first dt,
    completes_ticksync_error, completes_seamTimeSend, fun hs => ?noServer, completes_seamTimeout⟩
  case noServer =>
    have hstay : s.dev.seamTimeSend = s.dev := by simp [Dev.seamTimeSend, hs]
    change Host.Outcome.next { s with dev := s.dev.seamTimeSend } = .next s
    rw [hstay]

end Sys2Proof.Machine
end

section
/-!
Facts about the port of the DRAM and its lines: what a clean line reads as, what marks and zeroing do to words, and what a
report leaves of the port (R25, R29, R365, R382).
-/

namespace Sys2Proof.Machine

variable {d : Dev} {m : List Host.Cell}

/-! ## Bytes of memory -/

theorem leBytes_leNat : ∀ {l : List Nat}, (∀ b ∈ l, b < 256) → leBytes l.length (leNat l) = l
  | [], _ => rfl
  | b :: l, h => by
    have hb : b < 256 := h b List.mem_cons_self
    have hmod : (b % 256 + 256 * leNat l) % 256 = b := by omega
    have hdiv : (b % 256 + 256 * leNat l) / 256 = leNat l := by omega
    rw [List.length_cons, leNat, leBytes, hmod, hdiv, leBytes_leNat fun x hx => h x (List.mem_cons_of_mem b hx)]

theorem memGet_lt (a : Nat) : ∀ m : List Host.Cell, memGet m a < 256
  | [] => by simp [memGet]
  | (b, v) :: m => by
    unfold memGet
    split
    · exact v.isLt
    · split
      · decide
      · exact memGet_lt a m

theorem memRead_length (m : List Host.Cell) (a : Nat) : ∀ n, (memRead m a n).length = n := by
  intro n
  induction n generalizing a with
  | zero => rfl
  | succ n ih => rw [memRead, List.length_cons, ih]

theorem memRead_lt (m : List Host.Cell) (a n : Nat) : ∀ b ∈ memRead m a n, b < 256 := by
  induction n generalizing a with
  | zero => exact fun _ h => nomatch h
  | succ n ih =>
    intro b hb
    rw [memRead] at hb
    obtain rfl | hb := List.mem_cons.1 hb
    · exact memGet_lt a m
    · exact ih (a + 1) b hb

theorem memRead_add (m : List Host.Cell) (a k : Nat) : ∀ n, memRead m a (n + k) = memRead m a n ++ memRead m (a + n) k := by
  intro n
  induction n generalizing a with
  | zero => simp [memRead]
  | succ n ih =>
    rw [show n + 1 + k = n + k + 1 by omega, memRead, ih, memRead, List.cons_append, show a + 1 + n = a + (n + 1) by omega]

/-- The bytes of a stored word are the bytes of memory. -/
theorem leBytes_wordAt {a : Nat} (ha : a % 16 = 0) : leBytes 16 (wordAt m a) = memRead m a 16 := by
  have h := leBytes_leNat (memRead_lt m a 16)
  rw [memRead_length] at h
  rw [wordAt, show a / 16 * 16 = a by omega, h]

/-- What memory reads as once addresses are dropped from it: they read 0. -/
theorem memGet_filter (p : Nat → Bool) (x : Nat) : ∀ {lo : Option Nat} {m : List Host.Cell}, memWfFrom lo m = true →
    memGet (m.filter (fun c => p c.1)) x = if p x then memGet m x else 0
  | _, [], _ => by simp [memGet]
  | lo, (b, v) :: m, hm => by
    obtain ⟨-, -, htail⟩ := (memWfFrom_cons lo b v m).1 hm
    have ih := memGet_filter p x htail
    have hlow : x ≤ b → memGet (m.filter (fun c => p c.1)) x = 0 := fun h => memGet_of_lt h (memWfFrom_filter _ _ m htail)
    cases hp : p b with
    | true =>
      rw [List.filter_cons_of_pos (by simpa using hp), memGet, memGet]
      by_cases hbx : b = x
      · subst hbx
        simp [hp]
      · by_cases hlt : x < b
        · simp [hbx, hlt]
        · simp [hbx, hlt, ih]
    | false =>
      rw [List.filter_cons_of_neg (by simpa using hp), memGet]
      by_cases hbx : b = x
      · subst hbx
        simp [hp, hlow (Nat.le_refl b)]
      · by_cases hlt : x < b
        · simp [hbx, hlt, hlow (Nat.le_of_lt hlt)]
        · simp [hbx, hlt, ih]

/-- A zeroed range reads 0, and every other byte as before. -/
theorem memGet_zeroRange {s : State} (h : memWf s.mem = true) (lo hi x : Nat) :
    memGet (s.zeroRange lo hi).mem x = if lo ≤ x ∧ x < hi then 0 else memGet s.mem x := by
  have := memGet_filter (fun a => !(decide (lo ≤ a) && decide (a < hi))) x h
  refine this.trans ?_
  by_cases hx : lo ≤ x ∧ x < hi
  · simp [hx]
  · rw [if_neg hx, if_pos]
    simpa [Nat.not_lt, imp_iff_not_or] using hx

/-! ## A line without errors and marks -/

/-- A word without error and mark reads as it is stored (R23). -/
theorem Dev.readWord_clean (he : d.errs = []) (hp : d.poison = []) (m : List Host.Cell) (cons : Nat) {a : Nat}
    (ha : a % 16 = 0) : d.readWord m cons a = (some (wordAt m a), d) := by
  have hw : a / 16 * 16 = a := by omega
  simp [Dev.readWord, Dev.decode, he, hp, hw, AMap.get?]

/-- Words without errors and marks read as they are stored. -/
theorem Dev.readPoison_clean (he : d.errs = []) (hp : d.poison = []) (m : List Host.Cell) (cons n : Nat) {a : Nat}
    (ha : a % 16 = 0) : d.readPoison m cons a n = (memRead m a (16 * n), List.replicate n false, d) := by
  induction n generalizing a with
  | zero => rfl
  | succ n ih =>
    have hread := Dev.readWord_clean he hp m cons ha
    rw [Dev.readPoison]
    simp only [hread, ih (a := a + 16) (by omega), Option.getD_some, leBytes_wordAt ha]
    rw [show 16 * (n + 1) = 16 + 16 * n by omega, memRead_add]
    rfl

theorem dramBase_line_aligned (line k : Nat) : (dramBase + line * 256 + 16 * k) % 16 = 0 := by
  unfold dramBase
  omega

/-- A served line without errors and marks reads as memory holds it (R29). -/
theorem Dev.dramLine_clean {line : Nat} (hs : d.dramPath line = .served) (hz : d.unzeroed line = false) (he : d.errs = [])
    (hp : d.poison = []) (m : List Host.Cell) (cons : Nat) :
    d.dramLine m cons line = (memRead m (dramBase + line * 256) 256, List.replicate 16 false, d) := by
  have hline : line * 256 / 256 = line := by omega
  rw [Dev.dramLine, if_neg (by simp [hs]), Dev.portWords, hline, hz, if_neg Bool.false_ne_true]
  exact Dev.readPoison_clean he hp m cons 16 (dramBase_line_aligned line 0)

/-- A line still to be zeroed reads as zeros (R382). -/
theorem Dev.dramLine_unzeroed {line : Nat} (hs : d.dramPath line = .served) (hz : d.unzeroed line = true)
    (m : List Host.Cell) (cons : Nat) :
    d.dramLine m cons line = (List.replicate 256 0, List.replicate 16 false, d) := by
  have hline : line * 256 / 256 = line := by omega
  rw [Dev.dramLine, if_neg (by simp [hs]), Dev.portWords, hline, hz, if_pos rfl]

/-! ## Marks of words -/

theorem Dev.markWord_mem_self (d : Dev) (w : Nat) : w ∈ (d.markWord w true).poison := List.mem_cons_self

theorem Dev.markWord_mem {v : Nat} (h : v ∈ d.poison) (w : Nat) : v ∈ (d.markWord w true).poison := by
  by_cases hv : v = w
  · exact hv ▸ Dev.markWord_mem_self d v
  · exact List.mem_cons_of_mem w (List.mem_filter.2 ⟨h, by simpa using hv⟩)

theorem Dev.markWords_rest (a : Nat) (l : List Bool) : ∀ d : Dev, ∃ q n, d.markWords a l = { d with poison := q, errs := n } := by
  induction l generalizing a with
  | nil => exact fun d => ⟨d.poison, d.errs, rfl⟩
  | cons b l ih =>
    intro d
    obtain ⟨q, n, h⟩ := ih (a + 16) (d.markWord a b)
    exact ⟨q, n, h⟩

theorem Dev.markWords_mem {v : Nat} (a n : Nat) : ∀ {d : Dev}, v ∈ d.poison →
    v ∈ (d.markWords a (List.replicate n true)).poison := by
  induction n generalizing a with
  | zero => exact fun h => h
  | succ n ih => exact fun h => ih (a + 16) (Dev.markWord_mem h a)

/-- Every word of a line that is written poisoned is marked. -/
theorem Dev.mem_markWords (d : Dev) (a : Nat) {i n : Nat} (hi : i < n) :
    a + 16 * i ∈ (d.markWords a (List.replicate n true)).poison := by
  induction n generalizing a i d with
  | zero => omega
  | succ n ih =>
    rw [List.replicate_succ, Dev.markWords]
    cases i with
    | zero => exact Dev.markWords_mem _ _ (Dev.markWord_mem_self d a)
    | succ i =>
      rw [show a + 16 * (i + 1) = a + 16 + 16 * i by omega]
      exact ih (d.markWord a true) (a + 16) (by omega)

/-! ## What a report leaves of the ports -/

/-- The ports, and the errors and marks of the stored words, are as before. -/
structure Dev.DramKept (d t : Dev) : Prop where
  drcs   : t.drcs = d.drcs
  poison : t.poison = d.poison
  errs   : t.errs = d.errs

namespace Dev.DramKept

variable {d t u : Dev}

theorem refl (d : Dev) : Dev.DramKept d d := ⟨rfl, rfl, rfl⟩

theorem trans (h : Dev.DramKept d t) (h' : Dev.DramKept t u) : Dev.DramKept d u :=
  ⟨h'.drcs.trans h.drcs, h'.poison.trans h.poison, h'.errs.trans h.errs⟩

theorem drc (h : Dev.DramKept d t) (p : Nat) : t.drc p = d.drc p := by rw [Dev.drc, Dev.drc, h.drcs]

end Dev.DramKept

theorem Dev.logEv_dramKept (d : Dev) (b k u p : Nat) : Dev.DramKept d (d.logEv b k u p) :=
  ⟨Dev.logEv_drcs .., Dev.logEv_poison .., Dev.logEv_errs ..⟩

theorem Dev.irq_dramKept (d : Dev) (v : Nat) : Dev.DramKept d (d.irq v) :=
  ⟨Dev.irq_drcs .., Dev.irq_poison .., Dev.irq_errs ..⟩

/-- A report without symbols writes the log and a count (R27, R384). -/
theorem Dev.report_dramKept (d : Dev) {k : ErrKind} (hk : k ≠ .ce) (a cons : Nat) (l : List Nat) :
    Dev.DramKept d (d.report k a cons l) := by
  have hlog := fun b c u p => Dev.logEv_dramKept d b c u p
  unfold Dev.report
  dsimp only
  split
  · cases k with
    | ce => exact absurd rfl hk
    | ue => exact (hlog ..).trans ⟨rfl, rfl, rfl⟩
    | poisonSeen => exact (hlog ..).trans ⟨rfl, rfl, rfl⟩
    | dupMismatch => exact (hlog ..).trans ⟨rfl, rfl, rfl⟩
  · exact hlog ..

/-- Without errors a rewritten word leaves memory as it is: a clean word is not written, a marked one is reported (R24). -/
theorem State.rewriteWord_of_no_errs {s : State} {a : Nat} (ha : a % 16 = 0) (he : s.dev.errs = []) (cons : Nat) :
    (s.rewriteWord cons a).mem = s.mem ∧ Dev.DramKept s.dev (s.rewriteWord cons a).dev := by
  by_cases hp : a ∈ s.dev.poison
  · rw [State.rewriteWord_of_poisoned ha hp]
    exact ⟨rfl, Dev.report_dramKept _ (by decide) ..⟩
  · have hstay : s.rewriteWord cons a = s := by simp [State.rewriteWord, he, hp, AMap.get?]
    rw [hstay]
    exact ⟨rfl, .refl _⟩

/-- Without errors the merge of a line leaves memory as it is (R375). -/
theorem State.lineMerge_of_no_errs {s : State} {a : Nat} (ha : a % 16 = 0) (he : s.dev.errs = []) (o n : Nat) :
    (s.lineMerge a o n).mem = s.mem ∧ Dev.DramKept s.dev (s.lineMerge a o n).dev := by
  unfold State.lineMerge
  generalize List.range 16 = ks
  induction ks generalizing s with
  | nil => exact ⟨rfl, .refl _⟩
  | cons k ks ih =>
    rw [List.foldl_cons]
    split
    · exact ih he
    · obtain ⟨hmem, hkept⟩ := State.rewriteWord_of_no_errs (s := s) (a := a + 16 * k) (by omega) he 0x0C
      obtain ⟨hmem', hkept'⟩ := ih (s := s.rewriteWord 0x0C (a + 16 * k)) (hkept.errs.trans he)
      exact ⟨hmem'.trans hmem, hkept.trans hkept'⟩

/-! ## The port's record -/

@[simp] theorem Dev.drc_setDrc_self (d : Dev) (p : Nat) (x : Drc) : (d.setDrc p x).drc p = x := by
  simp [Dev.drc, Dev.setDrc]

@[simp] theorem Dev.drc_modDrc_self (d : Dev) (p : Nat) (g : Drc → Drc) : (d.modDrc p g).drc p = g (d.drc p) :=
  Dev.drc_setDrc_self ..

/-- The depth shown changes at most whether the write queue drains. -/
theorem Dev.depth_drc (d : Dev) (p : Nat) : ∃ b, (d.depth p).drc p = { d.drc p with drain := b } := by
  unfold Dev.depth
  exact ⟨_, Dev.drc_setDrc_self ..⟩

end Sys2Proof.Machine
end

section
/-!
Requests to the DRAM: their acceptance, their issue, the delivery of reads and the zeroing of lines (R365, R375, R376, R379,
R382, R383, R446).
-/

namespace Sys2Proof.Machine

variable {s : State} {src : DramSrc} {line off p q : Nat} {l : List Nat} {h : Wr}

/-! ## How a request is accepted -/

/-- A write goes at once only on a path that serves. -/
theorem Dev.dramPath_of_writePath {d : Dev} (hw : d.writePath line = .served) : d.dramPath line = .served := by
  unfold Dev.writePath at hw
  cases hd : d.dramPath line with
  | served => rfl
  | waits => simp [hd] at hw
  | faults => simp [hd] at hw

/-- A served line is installed. -/
theorem Dev.lineAt_of_served {d : Dev} (hs : d.dramPath line = .served) : ∃ p q, d.lineAt line = some (p, q) := by
  cases hl : d.lineAt line with
  | none => simp [Dev.dramPath, hl] at hs
  | some pq => exact ⟨pq.1, pq.2, rfl⟩

section
variable (hp : (dramGuarded src && s.dev.sealed line) = false)
include hp

theorem State.reqAccept_read_queued (hl : s.dev.lineAt line = some (p, q)) (hs : s.dev.dramPath line = .served)
    (hz : s.dev.unzeroed line = false) (hq : ¬(s.dev.drc p).writes.any (·.line == line) = true)
    (hn : (s.dev.drc p).reads.length < 128) : s.reqAccept src line false off l h = s.onDev (·.setDrc p { s.dev.drc p with
      no := (s.dev.drc p).no + 1, reads := (s.dev.drc p).reads ++ [⟨(s.dev.drc p).no, src, line, false, 0⟩] }) := by
  unfold State.reqAccept
  simp only [hp, hl, hs, hz, hq, Nat.not_le.2 hn, Bool.false_eq_true, if_false, Bool.or_self]

theorem State.reqAccept_read_full (hl : s.dev.lineAt line = some (p, q)) (hs : s.dev.dramPath line = .served)
    (hz : s.dev.unzeroed line = false) (hq : ¬(s.dev.drc p).writes.any (·.line == line) = true)
    (hn : 128 ≤ (s.dev.drc p).reads.length) : s.reqAccept src line false off l h = s := by
  unfold State.reqAccept
  simp only [hp, hl, hs, hz, hq, hn, Bool.false_eq_true, if_false, if_true, Bool.or_self]

/-- A read of a line in the write queue, or still to be zeroed, is served at once (R375, R382). -/
theorem State.reqAccept_read_now (hl : s.dev.lineAt line = some (p, q)) (hs : s.dev.dramPath line = .served)
    (hq : (s.dev.unzeroed line || (s.dev.drc p).writes.any (·.line == line)) = true) :
    s.reqAccept src line false off l h = { s with
      dev := ((s.dev.dramLine s.mem (dramCons src) line).2.2.emit
        (.dramData p src line (s.dev.dramLine s.mem (dramCons src) line).1 (s.dev.dramLine s.mem (dramCons src) line).2.1)) } := by
  unfold State.reqAccept
  simp only [hp, hl, hs, hq, Bool.false_eq_true, if_false, if_true]

theorem State.reqAccept_read_waits (hs : s.dev.dramPath line = .waits) : s.reqAccept src line false off l h = s := by
  unfold State.reqAccept
  simp only [hp, hs, Bool.false_eq_true, if_false]

/-- A read beyond the installed lines is answered with unreadable words (R365). -/
theorem State.reqAccept_read_absent (hl : s.dev.lineAt line = none) :
    s.reqAccept src line false off l h = { s with
      dev := ((s.dev.reportUninstalled (dramCons src) (line * 256)).emit
        (.dramData 0 src line (List.replicate 256 0) (List.replicate 16 true))) } := by
  have hs : s.dev.dramPath line = .faults := by simp [Dev.dramPath, hl]
  unfold State.reqAccept
  simp only [hp, hs, Dev.dramLine, Bool.false_eq_true, if_false, if_true]

theorem State.reqAccept_write_full (hl : s.dev.lineAt line = some (p, q)) (hs : s.dev.writePath line = .served)
    (hn : 64 ≤ (s.dev.drc p).writes.length) : s.reqAccept src line true off l h = s := by
  unfold State.reqAccept
  simp only [hp, hl, hs, hn, Bool.false_eq_true, if_false, if_true]

/-- A write is queued and in memory at once (R375). -/
theorem State.reqAccept_write (hl : s.dev.lineAt line = some (p, q)) (hs : s.dev.writePath line = .served)
    (hn : (s.dev.drc p).writes.length < 64) : s.reqAccept src line true off l h =
      (State.dramWrite { s with dev := s.dev.setDrc p { s.dev.drc p with
          no := (s.dev.drc p).no + 1, writes := (s.dev.drc p).writes ++ [⟨(s.dev.drc p).no, src, line, true, 0⟩] } }
        (dramCons src) (line * 256 + off % 256) (l.take (256 - off % 256)) h).onDev (·.depth p) := by
  unfold State.reqAccept
  simp only [hp, hl, hs, Nat.not_le.2 hn, Bool.false_eq_true, if_false, if_true]
  rfl

end

/-! ## A word written into a line -/

/-- A whole word is written with its code (R24). -/
theorem State.writeBytes_word {a : Nat} (ha : a % 16 = 0) (hl : l.length = 16) (cons : Nat) :
    s.writeBytes cons a l h = { s with mem := memWrite s.mem a l, dev := s.dev.markWord a h.ep } := by
  have hw : a / 16 * 16 = a := by omega
  have htake : l.take (16 - a % 16) = l := List.take_of_length_le (by omega)
  have hdrop : l.drop (16 - a % 16) = [] := List.drop_of_length_le (by omega)
  have hne : l.isEmpty = false := by cases l with | nil => simp at hl | cons => rfl
  rw [State.writeBytes, hl, State.writeFuel]
  simp [hne, htake, hdrop, hw, State.writeWord, hl, State.writeFuel]

/-- A word written into a served line without errors: it is in memory, and nothing else is changed there (R375). -/
theorem State.dramWrite_word {d : Dev} {o : Nat} (hd : d = s.dev) (hs : d.dramPath line = .served) (hg : d.awgGuard line = none)
    (hz : d.unzeroed line = false) (he : d.errs = []) (ho : o % 16 = 0) (ho' : o < 256) (hl : l.length = 16) (cons : Nat) :
    (s.dramWrite cons (line * 256 + o) l h).mem = memWrite s.mem (dramBase + line * 256 + o) l ∧
      (s.dramWrite cons (line * 256 + o) l h).dev.drcs = s.dev.drcs := by
  subst hd
  have hline : (line * 256 + o) / 256 = line := by omega
  have hoff : (line * 256 + o) % 256 = o := by omega
  obtain ⟨hmem, hkept⟩ := State.lineMerge_of_no_errs (dramBase_line_aligned line 0) he o l.length
  have haligned : (dramBase + (line * 256 + o)) % 16 = 0 := by
    unfold dramBase
    omega
  have hwrite : s.dramWrite cons (line * 256 + o) l h =
      (s.lineMerge (dramBase + line * 256) o l.length).writeBytes cons (dramBase + (line * 256 + o)) l h := by
    unfold State.dramWrite State.zeroAhead
    simp [hline, hoff, hs, hg, hz]
  rw [hwrite, State.writeBytes_word haligned hl, ← Nat.add_assoc]
  exact ⟨by rw [← hmem]; rfl, hkept.drcs⟩

/-! ## The clauses of acceptance -/

section
variable {n : DramId} {bv : BitVec 30} {ob : Byte} {data : List Byte} {ep : Bool}
  (hp : (dramGuarded src && s.dev.sealed bv.toNat) = false)

/-- A guarded source is turned away from a sealed line, and counted (R446). -/
theorem completes_accept_sealed (write : Bool) (hg : dramGuarded src = true) (hs : s.dev.sealed bv.toNat = true) :
    Completes (.dramRequestAccept src bv write ob data ep) s (fun t =>
      t.mem = s.mem ∧ t.dev.out = s.dev.out ∧ t.dev.drcs = s.dev.drcs ∧ t.dev.rg .SEC_GUARDCNT_COUNT 0 =
        min (s.dev.rg .SEC_GUARDCNT_COUNT 0 + 1) (2 ^ Field.SEC_GUARDCNT_COUNT.info.width - 1)) := by
  have hacc : s.reqAccept src bv.toNat write ob.toNat (data.map (·.toNat)) { ep := ep } =
      s.onDev (·.bump .SEC_GUARDCNT_COUNT 0 1) := by simp [State.reqAccept, hg, hs]
  refine ⟨_, congrArg Host.Outcome.next hacc, rfl, rfl, rfl, ?_⟩
  refine (Dev.rg_st_self ..).trans (Nat.mod_eq_of_lt ?_)
  have : 0 < 2 ^ Field.SEC_GUARDCNT_COUNT.info.width := Nat.two_pow_pos _
  omega

include hp

theorem completes_accept_read (hl : s.dev.lineAt bv.toNat = some (n.val, q)) (hs : s.dev.dramPath bv.toNat = .served)
    (hz : s.dev.unzeroed bv.toNat = false) (hq : ¬(s.dev.drc n).writes.any (·.line == bv.toNat) = true)
    (hn : (s.dev.drc n).reads.length < 128) : Completes (.dramRequestAccept src bv false ob data ep) s (fun t =>
      t.mem = s.mem ∧ t.dev.regs = s.dev.regs ∧
      (t.dev.drc n).reads = (s.dev.drc n).reads ++ [⟨(s.dev.drc n).no, src, bv.toNat, false, 0⟩]) := by
  refine ⟨_, congrArg Host.Outcome.next (State.reqAccept_read_queued hp hl hs hz hq hn), rfl, rfl, ?_⟩
  exact congrArg Drc.reads (Dev.drc_setDrc_self ..)

theorem completes_accept_write (hwf : s.wf) (hl : s.dev.lineAt bv.toNat = some (n.val, q))
    (hs : s.dev.writePath bv.toNat = .served) (hn : (s.dev.drc n).writes.length < 64) (hg : s.dev.awgGuard bv.toNat = none)
    (hz : s.dev.unzeroed bv.toNat = false) (he : s.dev.errs = []) (ho : ob.toNat % 16 = 0) (hlen : data.length = 16) :
    Completes (.dramRequestAccept src bv true ob data ep) s (fun t =>
      (t.dev.drc n).writes = (s.dev.drc n).writes ++ [⟨(s.dev.drc n).no, src, bv.toNat, true, 0⟩] ∧
      (∀ j, (h : j < data.length) → memGet t.mem (dramBase + bv.toNat * 256 + ob.toNat + j) = data[j].toNat) ∧
      ∀ a, (a < dramBase + bv.toNat * 256 + ob.toNat ∨ dramBase + bv.toNat * 256 + ob.toNat + 16 ≤ a) →
        memGet t.mem a = memGet s.mem a) := by
  have hob : ob.toNat < 256 := ob.isLt
  have hmod : ob.toNat % 256 = ob.toNat := Nat.mod_eq_of_lt hob
  have hlen' : (data.map (·.toNat)).length = 16 := by rw [List.length_map, hlen]
  have htake : (data.map (·.toNat)).take (256 - ob.toNat) = data.map (·.toNat) := List.take_of_length_le (by omega)
  have hacc := State.reqAccept_write (off := ob.toNat) (l := data.map (·.toNat)) (h := { ep := ep }) hp hl hs hn
  rw [hmod, htake] at hacc
  refine ⟨_, congrArg Host.Outcome.next hacc, ?_⟩
  generalize hb : s.dev.setDrc n { s.dev.drc n with no := (s.dev.drc n).no + 1, writes := (s.dev.drc n).writes ++
    [⟨(s.dev.drc n).no, src, bv.toNat, true, 0⟩] } = b
  have hserved : b.dramPath bv.toNat = .served := by rw [← hb]; exact Dev.dramPath_of_writePath hs
  obtain ⟨hmem, hdrcs⟩ := State.dramWrite_word (s := { s with dev := b }) (h := { ep := ep }) rfl hserved (by rw [← hb]; exact hg)
    (by rw [← hb]; exact hz) (by rw [← hb]; exact he) ho hob hlen' (dramCons src)
  generalize State.dramWrite { s with dev := b } (dramCons src) (bv.toNat * 256 + ob.toNat) (data.map (·.toNat))
    { ep := ep } = w at hmem hdrcs ⊢
  have hdrc : w.dev.drc n = { s.dev.drc n with no := (s.dev.drc n).no + 1, writes := (s.dev.drc n).writes ++
      [⟨(s.dev.drc n).no, src, bv.toNat, true, 0⟩] } := by
    rw [Dev.drc, hdrcs, ← hb]
    exact Dev.drc_setDrc_self ..
  obtain ⟨drain, hdepth⟩ := Dev.depth_drc w.dev n
  refine ⟨?_, fun j hj => ?_, fun a ha => ?_⟩
  · change ((w.dev.depth n).drc n).writes = _
    rw [hdepth, hdrc]
  · change memGet w.mem _ = _
    rw [hmem, memGet_memWrite_in _ _ _ hwf (by rwa [List.length_map]), List.getElem_map]
    exact Nat.mod_eq_of_lt data[j].isLt
  · change memGet w.mem a = _
    rw [hmem]
    exact memGet_memWrite_out _ _ _ hwf (by rwa [hlen'])

/-- A read of a line that waits in the write queue is answered from memory (R375). -/
theorem completes_accept_read_queued (hl : s.dev.lineAt bv.toNat = some (n.val, q)) (hs : s.dev.dramPath bv.toNat = .served)
    (hz : s.dev.unzeroed bv.toNat = false) (hq : (s.dev.drc n).writes.any (·.line == bv.toNat) = true) (he : s.dev.errs = [])
    (hps : s.dev.poison = []) : Completes (.dramRequestAccept src bv false ob data ep) s (fun t => t.mem = s.mem ∧
      t.dev.out = s.dev.out ++
        [.dramData n src bv.toNat (memRead s.mem (dramBase + bv.toNat * 256) 256) (List.replicate 16 false)]) := by
  have hacc := State.reqAccept_read_now (off := ob.toNat) (l := data.map (·.toNat)) (h := { ep := ep }) hp hl hs
    (by rw [hq, Bool.or_true])
  rw [Dev.dramLine_clean hs hz he hps] at hacc
  exact ⟨_, congrArg Host.Outcome.next hacc, rfl, rfl⟩

/-- A read of a line still to be zeroed is answered with zeros (R382). -/
theorem completes_accept_read_unzeroed (hs : s.dev.dramPath bv.toNat = .served) (hz : s.dev.unzeroed bv.toNat = true) :
    Completes (.dramRequestAccept src bv false ob data ep) s (fun t => t.mem = s.mem ∧ ∃ k, t.dev.out = s.dev.out ++
      [.dramData k src bv.toNat (List.replicate 256 0) (List.replicate 16 false)]) := by
  obtain ⟨k, q, hl⟩ := Dev.lineAt_of_served hs
  have hacc := State.reqAccept_read_now (off := ob.toNat) (l := data.map (·.toNat)) (h := { ep := ep }) hp hl hs
    (by rw [hz, Bool.true_or])
  rw [Dev.dramLine_unzeroed hs hz] at hacc
  exact ⟨_, congrArg Host.Outcome.next hacc, rfl, k, rfl⟩

/-- A read beyond the installed lines is answered with unreadable words (R365). -/
theorem completes_accept_read_absent (hl : s.dev.lineAt bv.toNat = none) :
    Completes (.dramRequestAccept src bv false ob data ep) s (fun t => t.mem = s.mem ∧
      .dramData 0 src bv.toNat (List.replicate 256 0) (List.replicate 16 true) ∈ t.dev.out) :=
  ⟨_, congrArg Host.Outcome.next (State.reqAccept_read_absent hp hl), rfl,
    List.mem_append_right _ (List.mem_singleton.2 rfl)⟩

end

/-! ## What the port issues -/

section
variable {n : DramId} {dup : Option (Fin 16)}

/-- A port of a domain that is on issues. -/
theorem exec_requestIssue (hd : s.dev.domOn (30 + n.val) = true) (dup : Option (Fin 16)) :
    exec (.dramRequestIssue n dup) s = .next (s.reqIssue n dup) :=
  congrArg Host.Outcome.next (if_pos hd)

/-- One refresh of a rank: its message goes out, and only that rank's refresh is no longer due (R377). -/
theorem Dev.refresh_facts (d : Dev) (p r : Nat) : (d.refresh p r).out = d.out ++ [.refresh p r] ∧
    ((d.refresh p r).drc p).reads = (d.drc p).reads ∧ ((d.refresh p r).drc p).writes = (d.drc p).writes ∧
    ((d.refresh p r).drc p).due = (d.drc p).due.filter (· ≠ r) := by
  obtain ⟨b, hb, hout, hdrc⟩ : ∃ b : Dev, d.refresh p r = (b.modDrc p (fun x => { x with
      mark := x.mark.set r (min (b.nowFrac : Int) (x.mark.getD r 0 + b.trefi p)), refAt := x.refAt.set r b.tick
      due := x.due.filter (· ≠ r) })).emit (.refresh p r) ∧ b.out = d.out ∧ b.drc p = d.drc p :=
    ⟨_, rfl, Dev.advanceTo_out .., Dev.advanceTo_drc ..⟩
  have hself : (d.refresh p r).drc p = { d.drc p with
      mark := (d.drc p).mark.set r (min (b.nowFrac : Int) ((d.drc p).mark.getD r 0 + b.trefi p))
      refAt := (d.drc p).refAt.set r b.tick, due := (d.drc p).due.filter (· ≠ r) } := by
    rw [hb, ← hdrc, Dev.emit_drc, Dev.drc_modDrc_self]
  refine ⟨?_, ?_, ?_, ?_⟩
  · rw [hb, ← hout]
    rfl
  all_goals rw [hself]

/-- A rank whose urgent sequence still owes refreshes is refreshed before any request (R379). -/
theorem completes_issue_urgent {k : Nat} (hd : s.dev.domOn (30 + n.val) = true) (hst : s.dev.rg .DRC_STAT_STATE n = 3)
    (hu : (s.dev.drc n).urgent = [k]) (hdebt : 4 * s.dev.trefi n ≤ s.dev.debt n k) :
    Completes (.dramRequestIssue n dup) s (fun t => t.dev.out = s.dev.out ++ [.refresh n k] ∧
      (t.dev.drc n).reads = (s.dev.drc n).reads ∧ (t.dev.drc n).writes = (s.dev.drc n).writes) := by
  have hissue : s.reqIssue n dup = s.onDev (·.refresh n k) := by
    simp [State.reqIssue, hst, hu, hdebt, State.onDev]
  obtain ⟨hout, hreads, hwrites, -⟩ := s.dev.refresh_facts n k
  exact ⟨_, (exec_requestIssue hd dup).trans (congrArg _ hissue), hout, hreads, hwrites⟩

/-- A port without requests picks none. -/
theorem Dev.reqPick_of_empty {d : Dev} {p : Nat} (hr : (d.drc p).reads = []) (hw : (d.drc p).writes = []) :
    d.reqPick p = none := by
  simp [Dev.reqPick, hr, hw]

/-- A refresh that is due goes where no request waits (R376). -/
theorem completes_issue_due {k : Nat} (hd : s.dev.domOn (30 + n.val) = true) (hst : s.dev.rg .DRC_STAT_STATE n = 3)
    (hu : (s.dev.drc n).urgent = []) (hdue : (s.dev.drc n).due = [k]) (hr : (s.dev.drc n).reads = [])
    (hw : (s.dev.drc n).writes = []) (hdebt : s.dev.trefi n ≤ s.dev.debt n k) :
    Completes (.dramRequestIssue n dup) s (fun t => t.dev.out = s.dev.out ++ [.refresh n k] ∧ (t.dev.drc n).due = []) := by
  have hissue : s.reqIssue n dup = s.onDev (·.refresh n k) := by
    simp [State.reqIssue, hst, hu, hdue, hdebt, Dev.reqPick_of_empty hr hw]
  obtain ⟨hout, -, -, hdue'⟩ := s.dev.refresh_facts n k
  refine ⟨_, (exec_requestIssue hd dup).trans (congrArg _ hissue), hout, hdue'.trans ?_⟩
  simp [hdue]

/-- The only request of a port is picked, when it is no write that the reads keep back. -/
theorem Dev.reqPick_of_single {d : Dev} {p : Nat} {r : DramReq} (hu : (d.drc p).urgent = [])
    (hq : (d.drc p).reads ++ (d.drc p).writes = [r]) (hlv : d.level p r < 8) : d.reqPick p = some r := by
  cases hrow : (d.drc p).rows.get? (d.devAddr p (((d.lineAt r.line).map (·.2)).getD 0)).2.1 ==
      some (d.devAddr p (((d.lineAt r.line).map (·.2)).getD 0)).2.2 with
  | true => simp [Dev.reqPick, hq, hu, hlv, hrow]
  | false => simp [Dev.reqPick, hq, hu, hlv, hrow]

/-- The level of a read, or of a write while no read waits, is one that is served (R376). -/
theorem Dev.level_lt {d : Dev} {p : Nat} {r : DramReq} (h : r.write = true → (d.drc p).reads = []) : d.level p r < 8 := by
  unfold Dev.level
  repeat' split
  all_goals simp_all

/-- The only request of a port with nothing before it goes out (R376). -/
theorem State.reqIssue_of_single {r : DramReq} (hst : s.dev.rg .DRC_STAT_STATE p = 3) (hu : (s.dev.drc p).urgent = [])
    (hdue : (s.dev.drc p).due = []) (hpromo : (s.dev.drc p).promo = []) (hpick : s.dev.reqPick p = some r)
    (dup : Option (Fin 16)) : s.reqIssue p dup = s.reqOut p r dup := by
  simp [State.reqIssue, hst, hu, hdue, hpromo, hpick]

/-- A request that goes leaves its queue; a read is on its way (R366). -/
theorem Dev.reqGo_facts (d : Dev) (p : Nat) (r : DramReq) :
    ((d.reqGo p r).drc p).flight = (if r.write then (d.drc p).flight else (d.drc p).flight ++ [r]) ∧
    ((d.drc p).reads = [r] → ((d.reqGo p r).drc p).reads = []) ∧
    ((d.drc p).writes = [r] → ((d.reqGo p r).drc p).writes = []) := by
  unfold Dev.reqGo
  dsimp only
  obtain ⟨b, hb⟩ := Dev.depth_drc (d.setDrc p _) p
  rw [hb, Dev.drc_setDrc_self]
  exact ⟨rfl, fun h => by simp [h], fun h => by simp [h]⟩

/-- A read that goes out is on its way, and memory is as before (R375, R376). -/
theorem completes_issue_read {r : DramReq} (hd : s.dev.domOn (30 + n.val) = true) (hst : s.dev.rg .DRC_STAT_STATE n = 3)
    (hu : (s.dev.drc n).urgent = []) (hdue : (s.dev.drc n).due = []) (hr : (s.dev.drc n).reads = [r])
    (hw : (s.dev.drc n).writes = []) (hpromo : (s.dev.drc n).promo = []) (hread : r.write = false) :
    Completes (.dramRequestIssue n dup) s (fun t => (t.dev.drc n).reads = [] ∧
      (t.dev.drc n).flight = (s.dev.drc n).flight ++ [r] ∧ t.mem = s.mem) := by
  have hpick : s.dev.reqPick n = some r :=
    Dev.reqPick_of_single hu (by rw [hr, hw]; rfl) (Dev.level_lt fun h => by simp [hread] at h)
  have hout : s.reqOut n r dup = s.onDev (·.reqGo n r) := by simp [State.reqOut, hread]
  obtain ⟨hflight, hreads, -⟩ := s.dev.reqGo_facts n r
  rw [hread] at hflight
  exact ⟨_, (exec_requestIssue hd dup).trans (congrArg _ ((State.reqIssue_of_single hst hu hdue hpromo hpick dup).trans hout)),
    hreads hr, hflight, rfl⟩

/-- A line written poisoned: every word of it is marked, and the ports and memory are as before (R30). -/
theorem State.dupLine_facts (s : State) (a : Nat) (k : Fin 16) : (s.dupLine a k).mem = s.mem ∧
    (s.dupLine a k).dev.drcs = s.dev.drcs ∧ ∀ i < 16, a + 16 * i ∈ (s.dupLine a k).dev.poison := by
  have hkept : Dev.DramKept (s.dev.markWords a (List.replicate 16 true)) (s.dupLine a k).dev :=
    Dev.report_dramKept (k := .dupMismatch) _ (by decide) (a + 16 * k.val) 0x0C []
  obtain ⟨q, e, hmarks⟩ := Dev.markWords_rest a (List.replicate 16 true) s.dev
  refine ⟨rfl, ?_, fun i hi => ?_⟩
  · rw [hkept.drcs, hmarks]
  · rw [hkept.poison]
    exact Dev.mem_markWords s.dev a hi

/-- A write that goes out leaves its queue; it is written poisoned where the copies of its encryption disagree (R30). -/
theorem completes_issue_write {r : DramReq} (hd : s.dev.domOn (30 + n.val) = true) (hst : s.dev.rg .DRC_STAT_STATE n = 3)
    (hu : (s.dev.drc n).urgent = []) (hdue : (s.dev.drc n).due = []) (hr : (s.dev.drc n).reads = [])
    (hw : (s.dev.drc n).writes = [r]) (hpromo : (s.dev.drc n).promo = []) (hwrite : r.write = true) :
    Completes (.dramRequestIssue n dup) s (fun t => (t.dev.drc n).writes = [] ∧ t.mem = s.mem ∧
      (dup.isSome → ∀ i < 16, dramBase + r.line * 256 + 16 * i ∈ t.dev.poison)) := by
  have hpick : s.dev.reqPick n = some r := Dev.reqPick_of_single hu (by rw [hr, hw]; rfl) (Dev.level_lt fun _ => hr)
  have hissue := State.reqIssue_of_single hst hu hdue hpromo hpick dup
  obtain ⟨-, -, hwrites⟩ := s.dev.reqGo_facts n r
  refine ⟨_, (exec_requestIssue hd dup).trans (congrArg _ hissue), ?_⟩
  cases dup with
  | none =>
    have hout : s.reqOut n r none = s.onDev (·.reqGo n r) := by simp [State.reqOut]
    rw [hout]
    exact ⟨hwrites hw, rfl, fun h => by simp at h⟩
  | some k =>
    have hout : s.reqOut n r (some k) = (s.onDev (·.reqGo n r)).dupLine (dramBase + r.line * 256) k := by
      simp [State.reqOut, hwrite]
    obtain ⟨hmem, hdrcs, hpoison⟩ := (s.onDev (·.reqGo n r)).dupLine_facts (dramBase + r.line * 256) k
    rw [hout]
    refine ⟨?_, hmem, fun _ => hpoison⟩
    rw [Dev.drc, hdrcs]
    exact hwrites hw

end

/-! ## The delivery of a read -/

section
variable {n : DramId}

/-- Tracking on a read moves the corrections of the port; it changes no register unless a group asks for a step (R371). -/
theorem Dev.readTrack_facts (d : Dev) (p r : Nat) (moved : List (Nat × Bool)) :
    (∃ v, (d.readTrack p r moved).drc p = { d.drc p with rcorr := v }) ∧
    (moved = [] → (d.readTrack p r moved).regs = d.regs) := by
  have hlimit : ∀ b : Dev, (b.trackLimit p).drc p = b.drc p := fun b => by
    unfold Dev.trackLimit
    dsimp only
    split
    · exact (Dev.irq_dramKept _ _).drc p
    · rfl
  unfold Dev.readTrack
  dsimp only
  split
  · exact ⟨⟨_, Dev.drc_modDrc_self ..⟩, fun _ => rfl⟩
  · rename_i hne
    exact ⟨⟨_, (hlimit _).trans (Dev.drc_modDrc_self ..)⟩, fun h => absurd (by rw [h]; rfl) hne⟩

/-- The oldest read on its way is delivered from its line (R29); every word poisoned where the copies of its decryption
disagree (R30). -/
theorem completes_readComplete {r : DramReq} {dup : Option (Fin 16)} {moved : List (Fin 36 × Bool)}
    (hd : s.dev.domOn (30 + n.val) = true) (hf : (s.dev.drc n).flight = [r]) (hs : s.dev.dramPath r.line = .served)
    (hz : s.dev.unzeroed r.line = false) (he : s.dev.errs = []) (hps : s.dev.poison = []) :
    Completes (.dramReadComplete n dup moved) s (fun t => (t.dev.drc n).flight = [] ∧ t.mem = s.mem ∧
      t.dev.out.getLast? = some (.dramData n r.src r.line (memRead s.mem (dramBase + r.line * 256) 256)
        (List.replicate 16 dup.isSome)) ∧ (moved = [] → dup = none → t.dev.regs = s.dev.regs)) := by
  have hexec : exec (.dramReadComplete n dup moved) s =
      .next (s.readComplete n dup (moved.map (fun x => (x.1.val, x.2)))) := congrArg Host.Outcome.next (if_pos hd)
  set b := s.dev.modDrc n (fun x => { x with flight := [] }) with hb
  have hline := Dev.dramLine_clean (d := b) (line := r.line) hs hz he hps s.mem (dramCons r.src)
  set c := b.readTrack n (b.devAddr n (((b.lineAt r.line).map (·.2)).getD 0)).1 (moved.map (fun x => (x.1.val, x.2))) with hc
  obtain ⟨⟨v, hdrc⟩, hregs⟩ := b.readTrack_facts n (b.devAddr n (((b.lineAt r.line).map (·.2)).getD 0)).1
    (moved.map (fun x => (x.1.val, x.2)))
  rw [← hc] at hdrc hregs
  have hflight : (c.drc n).flight = [] := by rw [hdrc, hb, Dev.drc_modDrc_self]
  refine ⟨_, hexec, ?_⟩
  cases dup with
  | none =>
    have hdone : s.readComplete n none (moved.map (fun x => (x.1.val, x.2))) = { s with
        dev := (c.emit (.dramData n r.src r.line (memRead s.mem (dramBase + r.line * 256) 256) (List.replicate 16 false))) } := by
      simp only [State.readComplete, hf, ← hb, hline, ← hc]
    rw [hdone]
    refine ⟨hflight, rfl, List.getLast?_concat .., fun hm _ => ?_⟩
    rw [hm] at hregs
    exact hregs rfl
  | some k =>
    have hdone : s.readComplete n (some k) (moved.map (fun x => (x.1.val, x.2))) = { s with
        dev := ((c.report .dupMismatch (dramBase + r.line * 256 + 16 * k.val) 0x0C []).emit
          (.dramData n r.src r.line (memRead s.mem (dramBase + r.line * 256) 256) (List.replicate 16 true))) } := by
      simp only [State.readComplete, hf, ← hb, hline, ← hc]
      rfl
    rw [hdone]
    refine ⟨?_, rfl, List.getLast?_concat .., fun _ h => nomatch h⟩
    rw [Dev.emit_drc, (Dev.report_dramKept c (k := .dupMismatch) (by decide) _ _ _).drc, hflight]

end

/-! ## Zeroing -/

/-- Fields that tell where the lines of the ports lie (R365). -/
def portFields : List Field := [.DRC_CFG_INTLV, .DRC_CFG_POP, .DRC_CFG_RANKS, .DRC_CFG_DENS]

section
variable {fs : List Field} {d t : Dev}

theorem Dev.WritesOnly.portLines (h : Dev.WritesOnly fs d t) (hf : ∀ f ∈ portFields, f ∉ fs) (p : Nat) :
    t.portLines p = d.portLines p := by
  have hrg : ∀ f ∈ portFields, ∀ u, t.rg f u = d.rg f u := fun f hm u => h.rg f u (hf f hm)
  have hpop : t.on .DRC_CFG_POP p = d.on .DRC_CFG_POP p := congrArg (· == 1) (hrg _ (by decide) p)
  have hrank : t.rankLines p = d.rankLines p := by rw [Dev.rankLines, Dev.rankLines, hrg .DRC_CFG_DENS (by decide)]
  rw [Dev.portLines, Dev.portLines, hpop, hrank, hrg .DRC_CFG_RANKS (by decide)]

theorem Dev.WritesOnly.sysLine (h : Dev.WritesOnly fs d t) (hf : ∀ f ∈ portFields, f ∉ fs) (p q : Nat) :
    t.sysLine p q = d.sysLine p q := by
  have hintlv : t.on .DRC_CFG_INTLV 0 = d.on .DRC_CFG_INTLV 0 := congrArg (· == 1) (h.rg _ 0 (hf _ (by decide)))
  rw [Dev.sysLine, Dev.sysLine, hintlv, h.portLines hf]

end

/-- The watermark of a port moves on past its line `q` (R382, R383). -/
def Dev.zeroNext (d : Dev) (p q : Nat) : Dev :=
  let d := if (q + 1) % 16 = 0 then { d with ahead := d.ahead.filter (· ≠ (p, q / 16)) } else d
  let d := d.st .DRC_ZERO_AHEAD p (d.ahead.filter (·.1 == p)).length
  let d := d.st .DRC_ZERO_WM p (d.sysLine p (q + 1))
  if d.portLines p ≤ q + 1 then d.st .DRC_ZERO_ACTIVE p 0 else d

/-- The watermark stands at the next line, and zeroing ends with the last one. -/
theorem Dev.zeroNext_facts (d : Dev) (p q : Nat) : (d.zeroNext p q).poison = d.poison ∧
    (d.zeroNext p q).rg .DRC_ZERO_WM p = d.sysLine p (q + 1) % 2 ^ 30 ∧
    (d.zeroNext p q).rg .DRC_ZERO_ACTIVE p = if d.portLines p ≤ q + 1 then 0 else d.rg .DRC_ZERO_ACTIVE p := by
  unfold Dev.zeroNext
  set b := if (q + 1) % 16 = 0 then { d with ahead := d.ahead.filter (· ≠ (p, q / 16)) } else d with hb
  have hfirst : Dev.WritesOnly [.DRC_ZERO_AHEAD, .DRC_ZERO_WM] d b ∧ b.poison = d.poison := by
    rw [hb]
    split
    · exact ⟨.of_eqs rfl rfl, rfl⟩
    · exact ⟨.refl _ d, rfl⟩
  have hahead : Dev.WritesOnly [.DRC_ZERO_AHEAD, .DRC_ZERO_WM] d (b.st .DRC_ZERO_AHEAD p (b.ahead.filter (·.1 == p)).length) :=
    hfirst.1.trans (.st _ _ _ (by decide))
  set c := b.st .DRC_ZERO_AHEAD p (b.ahead.filter (·.1 == p)).length with hc
  have hwm : Dev.WritesOnly [.DRC_ZERO_AHEAD, .DRC_ZERO_WM] d (c.st .DRC_ZERO_WM p (c.sysLine p (q + 1))) :=
    hahead.trans (.st _ _ _ (by decide))
  have hport : ∀ f ∈ portFields, f ∉ [Field.DRC_ZERO_AHEAD, .DRC_ZERO_WM] := by decide
  have hself : (c.st .DRC_ZERO_WM p (c.sysLine p (q + 1))).rg .DRC_ZERO_WM p = d.sysLine p (q + 1) % 2 ^ 30 := by
    rw [Dev.rg_st_self, hahead.sysLine hport]
    rfl
  dsimp only
  rw [hwm.portLines hport]
  split
  · exact ⟨hfirst.2, (Dev.rg_st_ne _ _ _ _ (by decide)).trans hself, Dev.rg_st_self ..⟩
  · exact ⟨hfirst.2, hself, hwm.rg _ _ (by decide)⟩

/-- The line at the watermark before it moves on: zeroed, and poisoned where the copies of its encryption disagree. -/
def State.zeroed (s : State) (wm : Nat) : Option (Fin 16) → State
  | none => s.zeroRange (dramBase + wm * 256) (dramBase + wm * 256 + 256)
  | some k => (s.zeroRange (dramBase + wm * 256) (dramBase + wm * 256 + 256)).dupLine (dramBase + wm * 256) k

theorem State.zeroed_facts (s : State) (wm : Nat) (dup : Option (Fin 16)) :
    (s.zeroed wm dup).mem = (s.zeroRange (dramBase + wm * 256) (dramBase + wm * 256 + 256)).mem ∧
    (dup.isSome → ∀ i < 16, dramBase + wm * 256 + 16 * i ∈ (s.zeroed wm dup).dev.poison) ∧
    Dev.WritesOnly reportFields s.dev (s.zeroed wm dup).dev := by
  cases dup with
  | none => exact ⟨rfl, fun h => absurd h Bool.false_ne_true, .of_eqs rfl rfl⟩
  | some k =>
    set z := s.zeroRange (dramBase + wm * 256) (dramBase + wm * 256 + 256) with hz
    obtain ⟨hmem, -, hpoison⟩ := z.dupLine_facts (dramBase + wm * 256) k
    refine ⟨hmem, fun _ => hpoison, ?_⟩
    obtain ⟨q, e, hmarks⟩ := Dev.markWords_rest (dramBase + wm * 256) (List.replicate 16 true) z.dev
    have hreport := Dev.report_reports (z.dev.markWords (dramBase + wm * 256) (List.replicate 16 true)) .dupMismatch
      (dramBase + wm * 256 + 16 * k.val) 0x0C []
    refine Dev.WritesOnly.trans (t := z.dev.markWords (dramBase + wm * 256) (List.replicate 16 true)) ?_
      ⟨hreport.key, hreport.tick⟩
    rw [hmarks]
    exact .of_eqs rfl rfl

/-- Background zeroing of the line at the watermark, in a block that was not written ahead (R383). -/
theorem State.zeroLine_of_behind {dup : Option (Fin 16)} (hst : s.dev.rg .DRC_STAT_STATE p = 3)
    (ha : s.dev.on .DRC_ZERO_ACTIVE p = true) (hbg : s.dev.bgIdle p = true)
    (hl : s.dev.lineAt (max (s.dev.rg .DRC_ZERO_WM p) (s.dev.sysLine p 0)) = some (p, q)) (hahead : s.dev.ahead = []) :
    s.zeroLine p dup =
      (s.zeroed (max (s.dev.rg .DRC_ZERO_WM p) (s.dev.sysLine p 0)) dup).onDev (·.zeroNext p q) := by
  unfold State.zeroLine
  cases dup with
  | none =>
    simp only [hst, ha, hbg, hl, hahead]
    rfl
  | some k =>
    simp only [hst, ha, hbg, hl, hahead]
    rfl

/-- The line at the watermark is zero, or poisoned, and the watermark moves on (R382, R383). -/
theorem completes_zeroLine {n : DramId} {dup : Option (Fin 16)} {wm : Nat} (hwf : s.wf) (hd : s.dev.domOn (30 + n.val) = true)
    (hst : s.dev.rg .DRC_STAT_STATE n = 3) (hbg : s.dev.bgIdle n = true) (ha : s.dev.on .DRC_ZERO_ACTIVE n = true)
    (hwm : wm = max (s.dev.rg .DRC_ZERO_WM n) (s.dev.sysLine n 0)) (hl : s.dev.lineAt wm = some (n.val, q))
    (hahead : s.dev.ahead = []) : Completes (.dramZeroLine n dup) s (fun t =>
      (dup.isSome → ∀ i < 16, dramBase + wm * 256 + 16 * i ∈ t.dev.poison) ∧
      (∀ a, dramBase + wm * 256 ≤ a → a < dramBase + wm * 256 + 256 → memGet t.mem a = 0) ∧
      (∀ a, (a < dramBase + wm * 256 ∨ dramBase + wm * 256 + 256 ≤ a) → memGet t.mem a = memGet s.mem a) ∧
      t.dev.rg .DRC_ZERO_WM n = s.dev.sysLine n (q + 1) % 2 ^ 30 ∧
      t.dev.rg .DRC_ZERO_ACTIVE n = if s.dev.portLines n ≤ q + 1 then 0 else 1) := by
  have hexec : exec (.dramZeroLine n dup) s = .next (s.zeroLine n dup) := congrArg Host.Outcome.next (if_pos hd)
  have hline := State.zeroLine_of_behind (dup := dup) hst ha hbg (hwm ▸ hl) hahead
  rw [← hwm] at hline
  obtain ⟨hmem, hpoison, hwrites⟩ := s.zeroed_facts wm dup
  set z := s.zeroed wm dup with hz
  obtain ⟨hpoison', hnext, hactive⟩ := z.dev.zeroNext_facts n q
  have hport : ∀ f ∈ portFields, f ∉ reportFields := by decide
  have hget : ∀ a, memGet z.mem a =
      if dramBase + wm * 256 ≤ a ∧ a < dramBase + wm * 256 + 256 then 0 else memGet s.mem a := fun a => by
    rw [hmem]
    exact memGet_zeroRange hwf ..
  rw [hwrites.portLines hport, hwrites.rg _ _ (by decide), show s.dev.rg .DRC_ZERO_ACTIVE n = 1 from eq_of_beq ha] at hactive
  rw [hwrites.sysLine hport] at hnext
  refine ⟨_, hexec.trans (congrArg _ hline), fun hdup i hi => hpoison' ▸ hpoison hdup i hi, fun a hlo hhi => ?_,
    fun a hout => ?_, hnext, hactive⟩
  · exact (hget a).trans (if_pos ⟨hlo, hhi⟩)
  · exact (hget a).trans (if_neg fun h => hout.elim (Nat.not_lt.2 h.1) (Nat.not_le.2 h.2))

/-- Settles O45: acceptance by the path of the line, issue by what the port finds first, delivery and zeroing by what they
do to the one line they name. -/
theorem dramTraffic : Obligations.DramTraffic := by
  unfold Obligations.DramTraffic
  intro s p src line write ep off data q r k dup moved
  refine ⟨?sealed, ?read, ?readFull, ?write, ?writeFull, ?readQueued, ?readUnzeroed, ?readWaits, ?readAbsent, ?urgent, ?due,
    ?issueRead, ?issueWrite, ?readComplete, ?zeroLine⟩
  case sealed => exact completes_accept_sealed write
  case read => exact completes_accept_read
  case readFull =>
    intro hp hl hs hz hq hn
    exact congrArg Host.Outcome.next (State.reqAccept_read_full hp hl hs hz hq hn)
  case write =>
    intro hwf hp hl hs hn hg hz he ho hlen
    exact completes_accept_write hp hwf hl hs hn hg hz he ho hlen
  case writeFull =>
    intro hp hl hs hn
    exact congrArg Host.Outcome.next (State.reqAccept_write_full hp hl hs hn)
  case readQueued => exact completes_accept_read_queued
  case readUnzeroed => exact completes_accept_read_unzeroed
  case readWaits =>
    intro hp hs
    exact congrArg Host.Outcome.next (State.reqAccept_read_waits hp hs)
  case readAbsent => exact completes_accept_read_absent
  case urgent =>
    intro ⟨hd, hst⟩ hu hdebt
    exact completes_issue_urgent hd hst hu hdebt
  case due =>
    intro ⟨hd, hst⟩ hu hdue hr hw hdebt
    exact completes_issue_due hd hst hu hdue hr hw hdebt
  case issueRead =>
    intro ⟨hd, hst⟩ hu hdue hr hw hpromo hread
    exact completes_issue_read hd hst hu hdue hr hw hpromo hread
  case issueWrite =>
    intro ⟨hd, hst⟩ hu hdue hr hw hpromo hwrite
    exact completes_issue_write hd hst hu hdue hr hw hpromo hwrite
  case readComplete =>
    intro ⟨hd, _⟩ hf hs hz he hps
    exact completes_readComplete hd hf hs hz he hps
  case zeroLine =>
    intro hwf ⟨hd, hst⟩ hbg ha hl hahead
    exact completes_zeroLine hwf hd hst hbg ha rfl hl hahead

end Sys2Proof.Machine
end

section
/-!
The front-end buses: how frames queue, begin and end, and what a read answers (R45 to R54).
-/

namespace Sys2Proof.Machine

variable {d : Dev} {k : Nat}

/-! ## The queue of a bus -/

/-- A frame goes behind all frames of earlier cycles (R49). -/
theorem febInsert_of_earlier {x : FebFrame} {l : List FebFrame} (h : ∀ y ∈ l, cycleOf y.at_ < cycleOf x.at_) :
    febInsert x l = l ++ [x] := by
  induction l with
  | nil => rfl
  | cons y l ih =>
    have hy : cycleOf y.at_ ≠ cycleOf x.at_ := (h y List.mem_cons_self).ne
    simp [febInsert, hy, ih fun z hz => h z (List.mem_cons_of_mem y hz)]

@[simp] theorem Dev.febPush_regs (d : Dev) (k : Nat) (src : FebSrc) (f : Nat) : (d.febPush k src f).regs = d.regs :=
  Dev.setFeb_regs ..

@[simp] theorem Dev.febPush_eng (d : Dev) (k : Nat) (src : FebSrc) (f e : Nat) : (d.febPush k src f).eng e = d.eng e :=
  Dev.setFeb_eng ..

/-- Where every frame held entered in an earlier cycle, a new one enters last. -/
theorem Dev.febPush_queue_of_earlier (h : ∀ y ∈ (d.feb k).queue, cycleOf y.at_ < cycleOf d.tick) (src : FebSrc) (f : Nat) :
    ((d.febPush k src f).feb k).queue = (d.feb k).queue ++ [⟨src, febParity f, d.tick⟩] := by
  have hins : ∀ l ⊆ (d.feb k).queue, febInsert ⟨src, febParity f, d.tick⟩ l = l ++ [⟨src, febParity f, d.tick⟩] :=
    fun l hl => febInsert_of_earlier fun y hy => h y (hl hy)
  unfold Dev.febPush
  rw [Dev.feb_setFeb_self]
  dsimp only
  split
  · rw [hins _ (List.drop_subset ..), ← List.append_assoc, List.take_append_drop]
  · exact hins _ (List.Subset.refl _)

/-- A frame enters ahead of a waiting one of its cycle with a later rank (R49). -/
theorem Dev.febPush_queue_of_later_rank {h : FebFrame} {src : FebSrc} (hq : (d.feb k).queue = [h]) (hb : (d.feb k).busy = false)
    (hc : cycleOf h.at_ = cycleOf d.tick) (hr : src.rank < h.src.rank) (f : Nat) :
    ((d.febPush k src f).feb k).queue = [⟨src, febParity f, d.tick⟩, h] := by
  simp [Dev.febPush, hq, hb, febInsert, hc, hr]

/-- Where no calibration frame waits, none enters. -/
theorem Dev.calFeed_of_no_wait (h : d.cal.wait = []) (k : Nat) : d.calFeed k = d := by
  simp [Dev.calFeed, h]

/-- Of frames of earlier cycles a flush keeps those of engines (R54). -/
theorem filter_flush_of_earlier {q : List FebFrame} {n : Nat} (h : ∀ y ∈ q, cycleOf y.at_ < cycleOf n) :
    q.filter (fun y => decide (y.src.rank < 128) || cycleOf y.at_ == cycleOf n) = q.filter (fun y => y.src.rank < 128) :=
  List.filter_congr fun y hy => by simp [(h y hy).ne]

/-! ## Frames that come -/

section
variable {s : State} {n : PdId}

/-- A host frame that finds room queues behind those of earlier cycles. -/
theorem completes_febHcmd_room {fr : BitVec 32} (hon : s.dev.domOn (11 + n) = true) (hq : ¬(11 + n.val) ∈ s.dev.quies)
    (hroom : (s.dev.feb n).queue.length ≤ 8) (he : ∀ y ∈ (s.dev.feb n).queue, cycleOf y.at_ < cycleOf s.dev.tick) :
    Completes (.febHcmd n fr) s (fun t =>
      (t.dev.feb n).queue = (s.dev.feb n).queue ++ [⟨.host, febParity fr.toNat, s.dev.tick⟩] ∧
      t.dev.regs = s.dev.regs) := by
  have hpush : s.dev.febHcmd n fr.toNat = s.dev.febPush n .host fr.toNat := by
    simp [Dev.febHcmd, domPd, hon, hq, Dev.febRoom, hroom]
  refine Completes.onDev rfl ?_
  dsimp only
  rw [hpush]
  exact ⟨Dev.febPush_queue_of_earlier he .host fr.toNat, rfl⟩

/-- A host frame that finds no room is dropped and counted. -/
theorem completes_febHcmd_dropped {fr : BitVec 32} (hon : s.dev.domOn (11 + n) = true) (hq : ¬(11 + n.val) ∈ s.dev.quies)
    (hroom : 8 < (s.dev.feb n).queue.length) : Completes (.febHcmd n fr) s (fun t => t.dev.febs = s.dev.febs ∧
      t.dev.rg .FEB_STAT_HDROP n = min (s.dev.rg .FEB_STAT_HDROP n + 1) 255) := by
  have hdrop : s.dev.febHcmd n fr.toNat = s.dev.bump .FEB_STAT_HDROP n 1 := by
    simp [Dev.febHcmd, domPd, hon, hq, Dev.febRoom, hroom]
  refine Completes.onDev rfl ?_
  dsimp only
  rw [hdrop]
  refine ⟨rfl, (Dev.rg_st_self ..).trans (Nat.mod_eq_of_lt ?_)⟩
  exact lt_of_le_of_lt (min_le_right _ _) (by decide)

/-- A host frame for a domain that is not on is refused. -/
theorem completes_febHcmd_off {fr : BitVec 32} (hoff : s.dev.domOn (11 + n) = false) :
    Completes (.febHcmd n fr) s (fun t => t.dev.febs = s.dev.febs ∧ t.dev.rg .FEB_STAT_OFFREJ n = 1) := by
  have hrej : s.dev.febHcmd n fr.toNat = ((s.dev.bump .PWR_ACCREJ_COUNT 0 1).st .FEB_STAT_OFFREJ n 1).irq 201 := by
    simp [Dev.febHcmd, domPd, hoff]
  refine Completes.onDev rfl ?_
  dsimp only
  rw [hrej]
  refine ⟨Dev.irq_febs .., ((Dev.irq_writes _ 201).rg _ _ (by decide)).trans (Dev.rg_st_self ..)⟩

/-- A flush is carried out on a domain that is on. -/
theorem exec_febFlush (hon : s.dev.domOn (11 + n) = true) : exec (.febFlush n) s = .next (s.onDev (·.febFlush n)) := by
  change Host.Outcome.next _ = _
  simp [State.onDev, domPd, hon]

/-- A flush of a bus without a frame in progress. -/
theorem completes_febFlush_idle (hon : s.dev.domOn (11 + n) = true)
    (hidle : (s.dev.feb n).busy = false ∨ (s.dev.feb n).retry ≠ none) (hw : s.dev.cal.wait = [])
    (he : ∀ y ∈ (s.dev.feb n).queue, cycleOf y.at_ < cycleOf s.dev.tick) : Completes (.febFlush n) s (fun t =>
      t.dev.regs = s.dev.regs ∧ (t.dev.feb n).queue = (s.dev.feb n).queue.filter (fun y => y.src.rank < 128)) := by
  have hno : ((s.dev.feb n).busy && (s.dev.feb n).retry.isNone) = false := by
    rcases hidle with h | h
    · simp [h]
    · simp [Option.isNone_eq_false_iff.2 (Option.isSome_iff_ne_none.2 h)]
  refine Completes.onDev (exec_febFlush hon) ?_
  simp [Dev.febFlush, hno, Dev.calFeed_of_no_wait (d := s.dev.setFeb _ _) hw, filter_flush_of_earlier he]

/-- A flush of a bus with a frame in progress keeps that frame. -/
theorem completes_febFlush_busy {h : FebFrame} {q : List FebFrame} (hon : s.dev.domOn (11 + n) = true)
    (hb : (s.dev.feb n).busy = true) (hr : (s.dev.feb n).retry = none) (hq : (s.dev.feb n).queue = h :: q)
    (hw : s.dev.cal.wait = []) (he : ∀ y ∈ q, cycleOf y.at_ < cycleOf s.dev.tick) : Completes (.febFlush n) s (fun t =>
      t.dev.regs = s.dev.regs ∧ (t.dev.feb n).queue = h :: q.filter (fun y => y.src.rank < 128)) := by
  refine Completes.onDev (exec_febFlush hon) ?_
  simp [Dev.febFlush, hb, hr, hq, Dev.calFeed_of_no_wait (d := s.dev.setFeb _ _) hw, filter_flush_of_earlier he]

/-! ## Frames that begin and end -/

/-- The frame at the queue's head begins on an idle bus. -/
theorem completes_febFrameStart {h : FebFrame} {q : List FebFrame} (hon : s.dev.domOn (11 + n) = true)
    (hen : s.dev.on .FEB_CTRL_EN n = true) (hb : (s.dev.feb n).busy = false) (hq : (s.dev.feb n).queue = h :: q) :
    Completes (.febFrameStart n) s (fun t => (t.dev.feb n).busy = true ∧ (t.dev.feb n).queue = (s.dev.feb n).queue ∧
      t.dev.out = s.dev.out ++ [.feb n h.bits]) := by
  have hstart : s.dev.febFrameStart n = (s.dev.setFeb n { s.dev.feb n with busy := true }).emit (.feb n h.bits) := by
    simp [Dev.febFrameStart, domPd, hon, hen, hb, hq]
  refine Completes.onDev rfl ?_
  dsimp only
  rw [hstart]
  simp [Dev.emit]

/-- No frame begins on a domain that is not on. -/
theorem exec_febFrameStart_off (hoff : ¬s.dev.domOn (11 + n) = true) : exec (.febFrameStart n) s = .next s := by
  have hstay : s.dev.febFrameStart n = s.dev := by
    unfold Dev.febFrameStart
    dsimp only
    split
    · exact if_neg (by simp [domPd, hoff])
    · rfl
  change Host.Outcome.next (s.onDev _) = _
  rw [State.onDev, hstay]

/-- The first ending of a frame that is no read, or on a domain that is not on, leaves the bus idle. -/
theorem Dev.febFrameComplete_silent {h : FebFrame} {q : List FebFrame} (hb : (d.feb k).busy = true)
    (hr : (d.feb k).retry = none) (hq : (d.feb k).queue = h :: q) (hw : d.cal.wait = [])
    (hs : febIsRead h.bits = false ∨ ¬d.domOn (11 + k) = true) (di : Nat) :
    d.febFrameComplete k di = d.setFeb k { queue := q } := by
  have hfeed := fun x => Dev.calFeed_of_no_wait (d := d.setFeb k x) hw k
  rcases hs with hs | hs <;> simp [Dev.febFrameComplete, Dev.febDone, domPd, hb, hr, hq, hs, hfeed]

/-- The first ending of a read that passes parity. -/
theorem Dev.febFrameComplete_read {h : FebFrame} {q : List FebFrame} {di : Nat} (hon : d.domOn (11 + k) = true)
    (hb : (d.feb k).busy = true) (hr : (d.feb k).retry = none) (hq : (d.feb k).queue = h :: q) (hw : d.cal.wait = [])
    (hp : parityOf 17 di = 0) : d.febFrameComplete k di = (d.setFeb k { queue := q }).febDone k di h true := by
  have hfeed := fun x => Dev.calFeed_of_no_wait (d := d.setFeb k x) hw k
  simp [Dev.febFrameComplete, domPd, hb, hr, hq, hon, hp, hfeed]

/-- The first ending of a read that fails parity begins its repetition. -/
theorem Dev.febFrameComplete_repeats {h : FebFrame} {q : List FebFrame} {di : Nat} (hon : d.domOn (11 + k) = true)
    (hb : (d.feb k).busy = true) (hr : (d.feb k).retry = none) (hq : (d.feb k).queue = h :: q) (hw : d.cal.wait = [])
    (hrd : febIsRead h.bits = true) (hp : parityOf 17 di ≠ 0) :
    d.febFrameComplete k di = (d.setFeb k { queue := q, busy := true, retry := some h }).emit (.feb k h.bits) := by
  have hfeed := fun x => Dev.calFeed_of_no_wait (d := d.setFeb k x) hw k
  simp [Dev.febFrameComplete, domPd, hb, hr, hq, hon, hrd, hp, hfeed]

/-- The ending of a repetition that fails parity again. -/
theorem Dev.febFrameComplete_fails {h : FebFrame} {di : Nat} (hon : d.domOn (11 + k) = true) (hb : (d.feb k).busy = true)
    (hr : (d.feb k).retry = some h) (hw : d.cal.wait = []) (hp : parityOf 17 di ≠ 0) :
    d.febFrameComplete k di = (d.setFeb k { queue := (d.feb k).queue }).febDone k di h false := by
  have hfeed := fun x => Dev.calFeed_of_no_wait (d := d.setFeb k x) hw k
  simp [Dev.febFrameComplete, domPd, hb, hr, hon, beq_false_of_ne hp, hfeed]

/-- A host read that passes parity is reported with its data (R54). -/
theorem Dev.febDone_host_ok {h : FebFrame} (hrd : febIsRead h.bits = true) (hs : h.src = .host) (di : Nat) :
    d.febDone k di h true = d.febHostRead k (di / 2) 0 := by
  simp [Dev.febDone, hrd, hs, b2n]

/-- A host read that failed parity twice is reported with PERR (R48). -/
theorem Dev.febDone_host_failed {h : FebFrame} (hrd : febIsRead h.bits = true) (hs : h.src = .host) (di : Nat) :
    d.febDone k di h false = ((d.st .FEB_STAT_PERR k 1).irq 201).febHostRead k (di / 2) 1 := by
  simp [Dev.febDone, hrd, hs, b2n]

@[simp] theorem Dev.febHostRead_feb (d : Dev) (k data err i : Nat) : (d.febHostRead k data err).feb i = d.feb i := rfl

/-- What FEB_HRD shows after a host read. -/
theorem Dev.febHostRead_rg (d : Dev) (k data err : Nat) : (d.febHostRead k data err).rg .FEB_HRD_VALID k = 1 ∧
    (d.febHostRead k data err).rg .FEB_HRD_ERR k = err % 2 ∧ (d.febHostRead k data err).rg .FEB_HRD_DATA k = data % 2 ^ 16 := by
  unfold Dev.febHostRead
  refine ⟨?_, Dev.rg_st_self .., ?_⟩
  · rw [Dev.rg_st_ne _ _ _ _ (by decide)]
    exact Dev.rg_st_self ..
  · rw [Dev.rg_st_ne _ _ _ _ (by decide), Dev.rg_st_ne _ _ _ _ (by decide)]
    exact Dev.rg_st_self ..

/-- A frame without read data ends. -/
theorem completes_febFrameComplete_silent {h : FebFrame} {q : List FebFrame} (di : BitVec 17)
    (hb : (s.dev.feb n).busy = true) (hr : (s.dev.feb n).retry = none) (hq : (s.dev.feb n).queue = h :: q)
    (hw : s.dev.cal.wait = []) (hs : febIsRead h.bits = false ∨ ¬s.dev.domOn (11 + n) = true) :
    Completes (.febFrameComplete n di) s (fun t => (t.dev.feb n).busy = false ∧ (t.dev.feb n).queue = q ∧
      t.dev.regs = s.dev.regs ∧ t.dev.out = s.dev.out) := by
  refine Completes.onDev rfl ?_
  dsimp only
  rw [Dev.febFrameComplete_silent hb hr hq hw hs, Dev.feb_setFeb_self]
  exact ⟨rfl, rfl, rfl, rfl⟩

/-- A host read ends with its data. -/
theorem completes_febFrameComplete_read {h : FebFrame} {q : List FebFrame} {di : BitVec 17}
    (hon : s.dev.domOn (11 + n) = true) (hb : (s.dev.feb n).busy = true) (hr : (s.dev.feb n).retry = none)
    (hq : (s.dev.feb n).queue = h :: q) (hs : h.src = .host) (hw : s.dev.cal.wait = []) (hrd : febIsRead h.bits = true)
    (hp : parityOf 17 di.toNat = 0) : Completes (.febFrameComplete n di) s (fun t => (t.dev.feb n).queue = q ∧
      t.dev.rg .FEB_HRD_VALID n = 1 ∧ t.dev.rg .FEB_HRD_ERR n = 0 ∧ t.dev.rg .FEB_HRD_DATA n = di.toNat / 2) := by
  refine Completes.onDev rfl ?_
  dsimp only
  rw [Dev.febFrameComplete_read hon hb hr hq hw hp, Dev.febDone_host_ok hrd hs, Dev.febHostRead_feb, Dev.feb_setFeb_self]
  obtain ⟨hvalid, herr, hdata⟩ := Dev.febHostRead_rg (s.dev.setFeb n { queue := q }) n (di.toNat / 2) 0
  have hlt : di.toNat / 2 < 2 ^ 16 := by have := di.isLt; omega
  exact ⟨rfl, hvalid, herr, hdata.trans (Nat.mod_eq_of_lt hlt)⟩

/-- A read that fails parity is repeated, and takes no entry. -/
theorem completes_febFrameComplete_repeats {h : FebFrame} {q : List FebFrame} {di : BitVec 17}
    (hon : s.dev.domOn (11 + n) = true) (hb : (s.dev.feb n).busy = true) (hr : (s.dev.feb n).retry = none)
    (hq : (s.dev.feb n).queue = h :: q) (hw : s.dev.cal.wait = []) (hrd : febIsRead h.bits = true)
    (hp : parityOf 17 di.toNat ≠ 0) : Completes (.febFrameComplete n di) s (fun t =>
      t.dev.feb n = { queue := q, busy := true, retry := some h } ∧ t.dev.out = s.dev.out ++ [.feb n h.bits] ∧
      t.dev.regs = s.dev.regs) := by
  refine Completes.onDev rfl ?_
  dsimp only
  rw [Dev.febFrameComplete_repeats hon hb hr hq hw hrd hp, Dev.emit_feb, Dev.feb_setFeb_self]
  exact ⟨rfl, rfl, rfl⟩

/-- A host read that fails parity a second time ends with PERR. -/
theorem completes_febFrameComplete_fails {h : FebFrame} {di : BitVec 17} (hon : s.dev.domOn (11 + n) = true)
    (hb : (s.dev.feb n).busy = true) (hr : (s.dev.feb n).retry = some h) (hs : h.src = .host) (hw : s.dev.cal.wait = [])
    (hrd : febIsRead h.bits = true) (hp : parityOf 17 di.toNat ≠ 0) : Completes (.febFrameComplete n di) s (fun t =>
      (t.dev.feb n).queue = (s.dev.feb n).queue ∧ t.dev.rg .FEB_STAT_PERR n = 1 ∧ t.dev.rg .FEB_HRD_VALID n = 1 ∧
      t.dev.rg .FEB_HRD_ERR n = 1) := by
  refine Completes.onDev rfl ?_
  dsimp only
  rw [Dev.febFrameComplete_fails hon hb hr hw hp, Dev.febDone_host_failed hrd hs, Dev.febHostRead_feb]
  set b := (s.dev.setFeb n { queue := (s.dev.feb n).queue }).st .FEB_STAT_PERR n 1 with hbdef
  obtain ⟨hvalid, herr, -⟩ := Dev.febHostRead_rg (b.irq 201) n (di.toNat / 2) 1
  refine ⟨?_, ?_, hvalid, herr⟩
  · rw [Dev.irq_feb, hbdef, Dev.st, Dev.setKey_feb, Dev.feb_setFeb_self]
  · unfold Dev.febHostRead
    rw [Dev.rg_st_ne _ _ _ _ (by decide), Dev.rg_st_ne _ _ _ _ (by decide), Dev.rg_st_ne _ _ _ _ (by decide),
      (Dev.irq_writes b 201).rg _ _ (by decide)]
    exact Dev.rg_st_self ..

/-! ## Frames of engines -/

/-- An engine's frame that is due queues where the bus sends and has room (R51). -/
theorem Dev.febEngine_of_room {e f : Nat} {due : List (Nat × Nat)} (hdue : (d.eng e).febDue = (k, f) :: due)
    (hroom : (d.feb k).queue.length < 16) (hen : d.on .FEB_CTRL_EN k = true) :
    d.febEngine e = (d.modEng e (fun x => { x with febDue := due })).febPush k (.engine e) f := by
  have hlen : ¬16 ≤ ((d.modEng e (fun x => { x with febDue := due })).feb k).queue.length := Nat.not_le.2 hroom
  have hon : (d.modEng e (fun x => { x with febDue := due })).on .FEB_CTRL_EN k = true := hen
  unfold Dev.febEngine
  simp only [hdue, hlen, hon, decide_false, Bool.not_true, Bool.or_self, Bool.false_eq_true, if_false]

theorem completes_febEngineFrameQueue {e : EngId} {f : Nat} {due : List (Nat × Nat)}
    (hdue : (s.dev.eng e).febDue = (k, f) :: due) (hroom : (s.dev.feb k).queue.length < 16)
    (hen : s.dev.on .FEB_CTRL_EN k = true) (he : ∀ y ∈ (s.dev.feb k).queue, cycleOf y.at_ < cycleOf s.dev.tick) :
    Completes (.febEngineFrameQueue e) s (fun t => (t.dev.eng e).febDue = due ∧
      (t.dev.feb k).queue = (s.dev.feb k).queue ++ [⟨.engine e, febParity f, s.dev.tick⟩] ∧ t.dev.regs = s.dev.regs) := by
  refine Completes.onDev rfl ?_
  dsimp only
  rw [Dev.febEngine_of_room hdue hroom hen, Dev.febPush_eng, Dev.modEng_eng_self]
  exact ⟨rfl, Dev.febPush_queue_of_earlier he (.engine e) f, rfl⟩

/-- An engine's frame enters ahead of a host's of its cycle. -/
theorem completes_febEngineFrameQueue_ahead {e : EngId} {f : Nat} {due : List (Nat × Nat)} {h : FebFrame}
    (hdue : (s.dev.eng e).febDue = (k, f) :: due) (hen : s.dev.on .FEB_CTRL_EN k = true) (hq : (s.dev.feb k).queue = [h])
    (hb : (s.dev.feb k).busy = false) (hs : h.src = .host) (hc : cycleOf h.at_ = cycleOf s.dev.tick) :
    Completes (.febEngineFrameQueue e) s (fun t =>
      (t.dev.feb k).queue = [⟨.engine e, febParity f, s.dev.tick⟩, h]) := by
  have hrank : (FebSrc.engine e).rank < h.src.rank := by
    rw [hs]
    exact e.isLt.trans (by decide)
  refine Completes.onDev rfl ?_
  dsimp only
  rw [Dev.febEngine_of_room hdue (by simp [hq]) hen]
  exact Dev.febPush_queue_of_later_rank hq hb hc hrank f

end

/-- Settles O20: a frame enters by the cycle and rank of those it finds; what ends is told by whether it reads, on a domain
that is on, and whether it passed parity. -/
theorem frontEndBus : Obligations.FrontEndBus := by
  unfold Obligations.FrontEndBus
  intro s pd e fr di h q
  refine ⟨?room, ?dropped, ?off, ?flushIdle, ?flushBusy, ?start, ?startOff, ?silent, ?read, ?repeats, ?fails, ?engine,
    ?ahead⟩
  case room =>
    intro ⟨hon, hq⟩ hroom he
    exact completes_febHcmd_room hon hq hroom he
  case dropped =>
    intro ⟨hon, hq⟩ hroom
    exact completes_febHcmd_dropped hon hq hroom
  case off => exact completes_febHcmd_off
  case flushIdle => exact completes_febFlush_idle
  case flushBusy => exact completes_febFlush_busy
  case start => exact completes_febFrameStart
  case startOff => exact exec_febFrameStart_off
  case silent => exact completes_febFrameComplete_silent di
  case read =>
    intro hon hb hr hq hs hw hrd hp
    exact completes_febFrameComplete_read hon hb hr hq hs hw hrd (not_not.1 hp)
  case repeats => exact completes_febFrameComplete_repeats
  case fails => exact completes_febFrameComplete_fails
  case engine =>
    intro k f due
    exact completes_febEngineFrameQueue
  case ahead =>
    intro k f due
    exact completes_febEngineFrameQueue_ahead

end Sys2Proof.Machine
end

section
/-!
The end of a sew: the last field that a PENDING sew has still to apply, and what follows it (R326, R327, R334, R419).
-/

namespace Sys2Proof.Machine

variable {d t u : Dev} {g e : Nat}

/-! ## What settling the sews leaves alone -/

/-- What writes of the fields `fs` of the sew groups in `hs`, and reports, leave alone: what sews have taken, the channels, and
every other register. -/
structure Dev.SewKept (fs : List Field) (hs : List Nat) (d t : Dev) : Prop where
  key     : ∀ j : RegKey, j.f ∉ reportFields → (j.f ∈ fs → j.u ∉ hs) → t.key j = d.key j
  taken   : t.taken = d.taken
  modeChg : t.modeChg = d.modeChg
  chans   : t.chans = d.chans

namespace Dev.SewKept

variable {fs gs : List Field} {hs ks : List Nat}

theorem refl (fs : List Field) (hs : List Nat) (d : Dev) : Dev.SewKept fs hs d d := ⟨fun _ _ _ => rfl, rfl, rfl, rfl⟩

theorem trans (h : Dev.SewKept fs hs d t) (h' : Dev.SewKept fs hs t u) : Dev.SewKept fs hs d u :=
  ⟨fun j hj hs => (h'.key j hj hs).trans (h.key j hj hs), h'.taken.trans h.taken, h'.modeChg.trans h.modeChg,
    h'.chans.trans h.chans⟩

theorem mono (hf : fs ⊆ gs) (hh : hs ⊆ ks) (h : Dev.SewKept fs hs d t) : Dev.SewKept gs ks d t :=
  ⟨fun j hj hu => h.key j hj fun hm hk => hu (hf hm) (hh hk), h.taken, h.modeChg, h.chans⟩

theorem st {f : Field} (d : Dev) (v : Nat) (hf : f ∈ fs) (hg : g ∈ hs) : Dev.SewKept fs hs d (d.st f g v) := by
  refine ⟨fun j _ hu => Dev.key_setKey_ne d v fun h => ?_, rfl, rfl, rfl⟩
  subst h
  exact hu hf hg

theorem irq (d : Dev) (v : Nat) : Dev.SewKept fs hs d (d.irq v) :=
  ⟨fun _ hj _ => Dev.irq_key d v hj, Dev.irq_taken .., Dev.irq_modeChg .., Dev.irq_chans ..⟩

/-- A register of another field. -/
theorem rg (h : Dev.SewKept fs hs d t) {f : Field} (x : Nat) (hr : f ∉ reportFields) (hf : f ∉ fs) :
    t.rg f x = d.rg f x := h.key _ hr fun hm => absurd hm hf

/-- A register of another sew group. -/
theorem rg_group (h : Dev.SewKept fs hs d t) (f : Field) {x : Nat} (hx : x ∉ hs) (hr : f ∉ reportFields) :
    t.rg f x = d.rg f x := h.key _ hr fun _ => hx

end Dev.SewKept

/-- After its STATE a sew writes its records and raises its vector (R327, R334). -/
theorem Dev.sewState_records (d : Dev) (g v : Nat) :
    Dev.SewKept [.SEW_LAST_RECORD, .SEW_DONE_RECORD] [g] (d.st .SEW_STATUS_STATE g v) (d.sewState g v) := by
  have hrec : ∀ (c : Prop) [Decidable c] (b : Dev) (f : Field) (n : Nat), f ∈ [Field.SEW_LAST_RECORD, .SEW_DONE_RECORD] →
      Dev.SewKept [.SEW_LAST_RECORD, .SEW_DONE_RECORD] [g] b (if c then b.st f g n else b) := by
    intro c _ b f n hf
    split
    · exact .st b n hf (List.mem_singleton_self g)
    · exact .refl _ _ b
  unfold Dev.sewState
  dsimp only
  split
  · exact ((hrec _ _ _ _ (by decide)).trans (hrec _ _ _ _ (by decide))).trans (.irq ..)
  · exact (hrec _ _ _ _ (by decide)).trans (hrec _ _ _ _ (by decide))

/-- Fields of a sew group that its end writes. -/
def sewFields : List Field := [.SEW_STATUS_STATE, .SEW_STATUS_PENDCNT, .SEW_LAST_RECORD, .SEW_DONE_RECORD]

theorem Dev.sewState_kept (d : Dev) (g v : Nat) : Dev.SewKept sewFields [g] d (d.sewState g v) :=
  (Dev.SewKept.st d v (by decide) (List.mem_singleton_self g)).trans
    ((Dev.sewState_records d g v).mono (by decide) (List.Subset.refl _))

theorem Dev.sewState_state (d : Dev) (g v : Nat) : (d.sewState g v).rg .SEW_STATUS_STATE g = v % 2 ^ 4 :=
  ((Dev.sewState_records d g v).rg g (by decide) (by decide)).trans (Dev.rg_st_self ..)

theorem Dev.sewState_pendcnt (d : Dev) (g v : Nat) :
    (d.sewState g v).rg .SEW_STATUS_PENDCNT g = d.rg .SEW_STATUS_PENDCNT g :=
  ((Dev.sewState_records d g v).rg g (by decide) (by decide)).trans (Dev.rg_st_ne _ _ _ _ (by decide))

/-! ## Settling one group, and all of them -/

/-- What sews have taken, and a mode change, belong to group `g` alone. -/
structure Dev.SewOnly (g : Nat) (d : Dev) : Prop where
  taken   : ∀ x ∈ d.taken, x.grp = g
  modeChg : ∀ m, d.modeChg = some m → m.1 = g

theorem Dev.SewKept.only {fs : List Field} {hs : List Nat} (h : Dev.SewKept fs hs d t) (ho : d.SewOnly g) : t.SewOnly g :=
  ⟨h.taken ▸ ho.taken, h.modeChg ▸ ho.modeChg⟩

/-- The fields that the sew of group `g` has taken read their new values (R327). -/
def Dev.sewStored (d : Dev) (g : Nat) : Dev :=
  let b := (d.taken.filter (·.grp == g)).foldl (fun d t => d.setKey t.key t.val) d
  { b with taken := b.taken.filter (·.grp != g) }

/-- A sew with fields left stays as it is, but for their number. -/
theorem Dev.sewSettle_of_left (h : d.sewPend g ≠ 0) : d.sewSettle g = d.st .SEW_STATUS_PENDCNT g (d.sewPend g) := by
  simp [Dev.sewSettle, h]

/-- A PENDING sew with nothing left is APPLIED. -/
theorem Dev.sewSettle_of_done (hs : d.rg .SEW_STATUS_STATE g = 2) (h : d.sewPend g = 0) :
    d.sewSettle g = (((d.st .SEW_STATUS_PENDCNT g 0).sewStored g).modeDone g).sewState g 3 := by
  have hst : (d.st .SEW_STATUS_PENDCNT g 0).rg .SEW_STATUS_STATE g = 2 := (Dev.rg_st_ne _ _ _ _ (by decide)).trans hs
  unfold Dev.sewSettle
  simp only [h, hst, and_self, if_true]
  rfl

/-- Storing values writes registers only, and takes the group's fields from those that are taken. -/
theorem Dev.sewStored_rest (d : Dev) (g : Nat) :
    ∃ r, d.sewStored g = { d with regs := r, taken := d.taken.filter (·.grp != g) } := by
  have hfold : ∀ (l : List Taken) (b : Dev), ∃ r, l.foldl (fun d t => d.setKey t.key t.val) b = { b with regs := r } := by
    intro l
    induction l with
    | nil => exact fun b => ⟨b.regs, rfl⟩
    | cons x l ih =>
      intro b
      obtain ⟨r, hr⟩ := ih (b.setKey x.key x.val)
      exact ⟨r, by rw [List.foldl_cons, hr, Dev.setKey]⟩
  obtain ⟨r, hr⟩ := hfold (d.taken.filter (·.grp == g)) d
  exact ⟨r, by rw [Dev.sewStored, hr]⟩

/-- A group's one field is stored. -/
theorem Dev.sewStored_of_single {k : RegKey} {v : Nat} {a : Bool} (h : d.taken = [⟨g, k, v, a⟩]) :
    d.sewStored g = { d.setKey k v with taken := [] } := by
  simp [Dev.sewStored, h]

/-- A sew of which nothing is taken has nothing to store. -/
theorem Dev.sewStored_of_none (h : ∀ x ∈ d.taken, x.grp ≠ g) : d.sewStored g = d := by
  have hnone : d.taken.filter (·.grp == g) = [] := List.filter_eq_nil_iff.2 fun x hx => by simp [h x hx]
  have hall : d.taken.filter (·.grp != g) = d.taken := List.filter_eq_self.2 fun x hx => by simp [h x hx]
  rw [Dev.sewStored, hnone, List.foldl_nil, hall]

/-- Without a mode change of the group, none is done. -/
theorem Dev.modeDone_of_other (h : ∀ m, d.modeChg = some m → m.1 ≠ g) : d.modeDone g = d := by
  unfold Dev.modeDone
  split
  · exact if_neg (h _ ‹_›)
  · rfl

/-- Another group's sew, of which nothing is taken, settles by its own registers alone. -/
theorem Dev.sewSettle_others (ho : d.SewOnly g) {h : Nat} (hne : h ≠ g) :
    Dev.SewKept sewFields [h] d (d.sewSettle h) := by
  have hcnt : ∀ v, Dev.SewKept sewFields [h] d (d.st .SEW_STATUS_PENDCNT h v) := fun v =>
    .st d v (by decide) (List.mem_singleton_self h)
  by_cases hp : d.sewPend h = 0
  · by_cases hs : d.rg .SEW_STATUS_STATE h = 2
    · rw [Dev.sewSettle_of_done hs hp, Dev.sewStored_of_none fun x hx => ho.taken x hx ▸ hne.symm,
        Dev.modeDone_of_other fun m hm => ho.modeChg m hm ▸ hne.symm]
      exact (hcnt 0).trans (Dev.sewState_kept ..)
    · have hset : d.sewSettle h = d.st .SEW_STATUS_PENDCNT h (d.sewPend h) :=
        if_neg fun hc => hs ((Dev.rg_st_ne _ _ _ _ (by decide)).symm.trans hc.1)
      exact hset ▸ hcnt _
  · exact Dev.sewSettle_of_left hp ▸ hcnt _

theorem Dev.sewSettle_foldl_others (ho : d.SewOnly g) {l : List Nat} (hg : g ∉ l) :
    Dev.SewKept sewFields l d (l.foldl (fun d h => d.sewSettle h) d) := by
  induction l generalizing d with
  | nil => exact .refl _ _ d
  | cons h l ih =>
    obtain ⟨hne, hg'⟩ := not_or.1 (fun hm => hg (List.mem_cons.2 hm))
    have hfirst := Dev.sewSettle_others ho (Ne.symm hne)
    rw [List.foldl_cons]
    exact (hfirst.mono (List.Subset.refl _) (by simp)).trans
      ((ih (hfirst.only ho) hg').mono (List.Subset.refl _) (List.subset_cons_self ..))

/-- Where all that is taken is of group `g`, settling the sews settles that one; the others touch their own registers only. -/
theorem Dev.sewSettleAll_of_only (hg : g < 16) (ho : d.SewOnly g) : ∃ l l' b, g ∉ l ∧ g ∉ l' ∧ Dev.SewKept sewFields l d b ∧
    ((b.sewSettle g).SewOnly g → Dev.SewKept sewFields l' (b.sewSettle g) d.sewSettleAll) := by
  obtain ⟨l, l', hl⟩ := List.append_of_mem (List.mem_range.2 hg)
  have hnodup : (l ++ g :: l').Nodup := hl ▸ List.nodup_range
  obtain ⟨hgl', -⟩ := List.nodup_cons.1 hnodup.of_append_right
  have hgl : g ∉ l := fun hm => List.disjoint_of_nodup_append hnodup hm List.mem_cons_self
  refine ⟨l, l', _, hgl, hgl', Dev.sewSettle_foldl_others ho hgl, fun ho' => ?_⟩
  unfold Dev.sewSettleAll
  rw [hl, List.foldl_append, List.foldl_cons]
  exact Dev.sewSettle_foldl_others ho' hgl'

theorem Dev.modeDone_taken (d : Dev) (g : Nat) : (d.modeDone g).taken = d.taken := by
  unfold Dev.modeDone
  split
  · split <;> rfl
  · rfl

theorem Dev.modeDone_modeChg (d : Dev) (g : Nat) : (d.modeDone g).modeChg = none ∨ (d.modeDone g).modeChg = d.modeChg := by
  unfold Dev.modeDone
  split
  · split
    · exact .inl rfl
    · exact .inr rfl
  · exact .inr rfl

theorem Dev.SewOnly.modeDone_sewStored (ho : d.SewOnly g) : ((d.sewStored g).modeDone g).SewOnly g := by
  obtain ⟨r, hr⟩ := d.sewStored_rest g
  refine ⟨fun x hx => ?_, fun m hm => ?_⟩
  · rw [Dev.modeDone_taken, hr] at hx
    exact ho.taken x (List.mem_filter.1 hx).1
  · obtain h | h := (d.sewStored g).modeDone_modeChg g
    · cases h.symm.trans hm
    · rw [h, hr] at hm
      exact ho.modeChg m hm

/-- The number of fields left follows what is taken and the mode change. -/
theorem Dev.SewKept.sewPend {fs : List Field} {hs : List Nat} (h : Dev.SewKept fs hs d t) (g : Nat) :
    t.sewPend g = d.sewPend g := by
  simp only [Dev.sewPend, Dev.sewLeft, h.taken, h.modeChg]

/-- Where the sew of group `g` has fields left, settling leaves what is taken, its state and the channels. -/
theorem Dev.sewSettleAll_waits (hg : g < 16) (ho : d.SewOnly g) (hleft : d.sewPend g ≠ 0) :
    ∃ hs, Dev.SewKept sewFields hs d d.sewSettleAll ∧
      d.sewSettleAll.rg .SEW_STATUS_STATE g = d.rg .SEW_STATUS_STATE g := by
  obtain ⟨l, l', b, hgl, hgl', hb, hrest⟩ := Dev.sewSettleAll_of_only hg ho
  have hset := Dev.sewSettle_of_left (d := b) (g := g) (hb.sewPend g ▸ hleft)
  have hmid : Dev.SewKept sewFields [g] b (b.sewSettle g) := hset ▸ .st b _ (by decide) (List.mem_singleton_self g)
  have hend := hrest (hmid.only (hb.only ho))
  refine ⟨l ++ [g] ++ l', ((hb.mono (List.Subset.refl _) (by simp)).trans (hmid.mono (List.Subset.refl _) (by simp))).trans
    (hend.mono (List.Subset.refl _) (by simp)), ?_⟩
  rw [hend.rg_group _ hgl' (by decide), hset, Dev.rg_st_ne _ _ _ _ (by decide), hb.rg_group _ hgl (by decide)]

/-- Where a PENDING sew has nothing left, settling stores its values, changes the mode that it changed, and leaves it
APPLIED. -/
theorem Dev.sewSettleAll_done (hg : g < 16) (ho : d.SewOnly g) (hs : d.rg .SEW_STATUS_STATE g = 2) (hp : d.sewPend g = 0) :
    ∃ ks ls b, Dev.SewKept sewFields ks d b ∧ Dev.SewKept sewFields ls ((b.sewStored g).modeDone g) d.sewSettleAll ∧
      d.sewSettleAll.rg .SEW_STATUS_STATE g = 3 ∧
      d.sewSettleAll.rg .SEW_STATUS_PENDCNT g = ((b.sewStored g).modeDone g).rg .SEW_STATUS_PENDCNT g ∧
      b.rg .SEW_STATUS_PENDCNT g = 0 := by
  obtain ⟨l, l', b, hgl, hgl', hb, hrest⟩ := Dev.sewSettleAll_of_only hg ho
  have hset := Dev.sewSettle_of_done (d := b) ((hb.rg_group _ hgl (by decide)).trans hs) ((hb.sewPend g).trans hp)
  set c := b.st .SEW_STATUS_PENDCNT g 0 with hc
  have hcnt : Dev.SewKept sewFields (l ++ [g]) d c :=
    (hb.mono (List.Subset.refl _) (by simp)).trans (.st b 0 (by decide) (by simp))
  have hstate := Dev.sewState_kept ((c.sewStored g).modeDone g) g 3
  have hend := hrest (hset ▸ hstate.only (hcnt.only ho).modeDone_sewStored)
  refine ⟨l ++ [g], [g] ++ l', c, hcnt, ?_, ?_, ?_, Dev.rg_st_self ..⟩
  · exact (hstate.mono (List.Subset.refl _) (by simp)).trans (hset ▸ hend.mono (List.Subset.refl _) (by simp))
  · rw [hend.rg_group _ hgl' (by decide), hset, Dev.sewState_state]
    rfl
  · rw [hend.rg_group _ hgl' (by decide), hset, Dev.sewState_pendcnt]

/-! ## The last field of a sew -/

/-- One field of a PENDING sew has still to apply, and no mode change is under way. -/
structure Dev.SewLast (g : Nat) (f : Field) (e v : Nat) (d : Dev) : Prop where
  taken   : d.taken = [⟨g, ⟨f, e, 0⟩, v, false⟩]
  state   : d.rg .SEW_STATUS_STATE g = 2
  modeChg : d.modeChg = none

/-- The field reads its new value and the sew is APPLIED. -/
def Dev.SewEnded (g : Nat) (f : Field) (e v : Nat) (t : Dev) : Prop :=
  t.rg f e = v % 2 ^ f.info.width ∧ t.taken = [] ∧ t.rg .SEW_STATUS_STATE g = 3 ∧ t.rg .SEW_STATUS_PENDCNT g = 0

/-- The field keeps its value and the sew stays PENDING. -/
def Dev.SewStays (g : Nat) (f : Field) (e : Nat) (d t : Dev) : Prop :=
  t.taken = d.taken ∧ t.rg f e = d.rg f e ∧ t.rg .SEW_STATUS_STATE g = 2

/-- Fields of engines and quads that a sew applies at a burst boundary (R326). -/
def unitFields : List Field := qownFields ++ tieFields ++ entryFields ++ [.ENG_CMP_MASK_MASK, .ENG_SEWSTART_ARM]

theorem unitFields_apart : ∀ f ∈ unitFields, f ∉ reportFields ∧ f ∉ sewFields ∧ f ≠ .ENG_EV_PEND_PEND ∧
    (f.info.blk = .eng ∨ f.info.blk = .quad) := by decide

/-- Updates of registers of the fields `fs` that leave what sews have taken. -/
structure Dev.SewFrame (fs : List Field) (d t : Dev) : Prop where
  writes  : Dev.WritesOnly fs d t
  taken   : t.taken = d.taken
  modeChg : t.modeChg = d.modeChg

namespace Dev.SewFrame

variable {fs gs : List Field}

theorem refl (fs : List Field) (d : Dev) : Dev.SewFrame fs d d := ⟨.refl fs d, rfl, rfl⟩

theorem trans (h : Dev.SewFrame fs d t) (h' : Dev.SewFrame fs t u) : Dev.SewFrame fs d u :=
  ⟨h.writes.trans h'.writes, h'.taken.trans h.taken, h'.modeChg.trans h.modeChg⟩

theorem mono (hs : fs ⊆ gs) (h : Dev.SewFrame fs d t) : Dev.SewFrame gs d t := ⟨h.writes.mono hs, h.taken, h.modeChg⟩

theorem foldl {α : Type} {h : Dev → α → Dev} (as : List α) (d : Dev) (hh : ∀ b, ∀ a ∈ as, Dev.SewFrame fs b (h b a)) :
    Dev.SewFrame fs d (as.foldl h d) := by
  induction as generalizing d with
  | nil => exact refl fs d
  | cons a as ih =>
    exact (hh d a List.mem_cons_self).trans (ih _ fun b x hx => hh b x (List.mem_cons_of_mem a hx))

theorem sti {f : Field} (d : Dev) (x i v : Nat) (hf : f ∈ fs) : Dev.SewFrame fs d (d.sti f x i v) :=
  ⟨⟨fun _ hj => Dev.key_sti_ne d x i v fun h => hj (h ▸ hf), rfl⟩, rfl, rfl⟩

theorem st {f : Field} (d : Dev) (x v : Nat) (hf : f ∈ fs) : Dev.SewFrame fs d (d.st f x v) := sti d x 0 v hf

theorem of_eqs (hr : t.regs = d.regs) (ht : t.tick = d.tick) (htaken : t.taken = d.taken) (hm : t.modeChg = d.modeChg) :
    Dev.SewFrame fs d t := ⟨.of_eqs hr ht, htaken, hm⟩

/-- A conditional update. -/
theorem ite {c : Prop} [Decidable c] (ht : Dev.SewFrame fs d t) (hu : Dev.SewFrame fs d u) :
    Dev.SewFrame fs d (if c then t else u) := by
  split
  · exact ht
  · exact hu

end Dev.SewFrame

/-- An event that is raised is pending, and nothing else is written (R183, R193). -/
theorem Dev.raise_frame (d : Dev) (e k : Nat) : Dev.SewFrame [.ENG_EV_PEND_PEND] d (d.raise e k) := by
  have hone : ∀ (b : Dev) (x m : Nat), Dev.SewFrame [.ENG_EV_PEND_PEND] b (b.raiseOne x k m) := fun b x m => by
    unfold Dev.raiseOne
    split
    · exact (Dev.SewFrame.st b x _ (List.mem_singleton_self _)).trans (.of_eqs rfl rfl rfl rfl)
    · exact .refl _ b
  have htell : ∀ (b : Dev) (m a : Nat), Dev.SewFrame [.ENG_EV_PEND_PEND] b (b.tieTell e m a) := fun b m a => by
    unfold Dev.tieTell
    dsimp only
    split
    · obtain ⟨q, n, h⟩ := Dev.seamPost_rest b none (.tieEvt b.pos 0 (b.grp e) (b.beatAt b.tick).1 (b.beatAt b.tick).2 m a)
      exact h ▸ .of_eqs rfl rfl rfl rfl
    · exact .refl _ b
  unfold Dev.raise
  split
  · exact (Dev.SewFrame.foldl _ _ fun b x _ => hone b x _).trans (htell ..)
  · exact hone ..

/-- Where the field has applied to its unit, the sew ends. -/
theorem Dev.sewSettleAll_ended {f : Field} {v : Nat} (hg : g < 16) (ht : d.taken = [⟨g, ⟨f, e, 0⟩, v, true⟩])
    (hm : d.modeChg = none) (hs : d.rg .SEW_STATUS_STATE g = 2) (hf : f ∈ unitFields) :
    Dev.SewEnded g f e v d.sewSettleAll ∧ d.sewSettleAll.chans = d.chans ∧
      ∀ h ∉ reportFields, h ∉ sewFields → h ≠ f → ∀ x, d.sewSettleAll.rg h x = d.rg h x := by
  obtain ⟨hr, hsf, -, -⟩ := unitFields_apart f hf
  have hpend : d.sewPend g = 0 := by simp [Dev.sewPend, Dev.sewLeft, ht, hm]
  obtain ⟨ks, ls, b, hb, hall, hstate, hcnt, hbcnt⟩ :=
    Dev.sewSettleAll_done hg ⟨by simp [ht], by simp [hm]⟩ hs hpend
  have hdone : (b.sewStored g).modeDone g = { b.setKey ⟨f, e, 0⟩ v with taken := [] } := by
    rw [Dev.sewStored_of_single (hb.taken.trans ht)]
    refine Dev.modeDone_of_other fun m hk => ?_
    have hnone : b.modeChg = none := hb.modeChg.trans hm
    cases hnone.symm.trans hk
  rw [hdone] at hall hcnt
  have hne : ∀ h ≠ f, ∀ x, (b.setKey ⟨f, e, 0⟩ v).rg h x = b.rg h x := fun h hh x =>
    Dev.rg_st_ne b e v x (Ne.symm hh)
  refine ⟨⟨?_, hall.taken, hstate, ?_⟩, hall.chans.trans hb.chans, fun h hh hh' hhf x => ?_⟩
  · exact (hall.rg e hr hsf).trans (Dev.rg_st_self b f e v)
  · exact hcnt.trans ((hne _ (fun h => hsf (h ▸ by decide)) g).trans hbcnt)
  · exact (hall.rg x hh hh').trans ((hne h hhf x).trans (hb.rg x hh hh'))

/-- Where the field does not apply yet, the sew stays PENDING. -/
theorem Dev.SewLast.waits {f : Field} {v : Nat} (h : d.SewLast g f e v) (hg : g < 16) (hf : f ∈ unitFields) :
    Dev.SewStays g f e d d.sewSettleAll ∧ d.sewSettleAll.chans = d.chans := by
  obtain ⟨hr, hsf, -, hblk⟩ := unitFields_apart f hf
  have hleft : d.sewPend g ≠ 0 := by
    obtain hblk | hblk := hblk <;> simp [Dev.sewPend, Dev.sewLeft, h.taken, h.modeChg, hblk, List.eraseDups_cons]
  obtain ⟨hs, hkept, hstate⟩ := Dev.sewSettleAll_waits hg ⟨by simp [h.taken], by simp [h.modeChg]⟩ hleft
  exact ⟨⟨hkept.taken, hkept.rg e hr hsf, hstate.trans h.state⟩, hkept.chans⟩

/-- What the unit of the last field waits for. -/
theorem Dev.SewLast.waitsFor {f : Field} {v : Nat} (h : d.SewLast g f e v) {fs : List Field} (hf : f ∈ fs) :
    d.waitsFor fs e = some g := by
  simp [Dev.waitsFor, h.taken, hf]

theorem Dev.SewLast.waitsFor_none {f : Field} {v : Nat} (h : d.SewLast g f e v) {fs : List Field} (hf : f ∉ fs) (x : Nat) :
    d.waitsFor fs x = none := by
  simp [Dev.waitsFor, h.taken, hf]

/-! ## Fields of an engine -/

/-- Where no burst runs, the last field of an engine applies. -/
theorem Dev.SewLast.engApply {f : Field} {v : Nat} {fs : List Field} (h : d.SewLast g f e v) (hg : g < 16) (hf : f ∈ fs)
    (hfs : f ∈ unitFields) (hfree : d.groupRuns e = false) (hnext : (fs.contains .ENG_TIE_TIED && d.nextGroupRuns e) = false) :
    Dev.SewEnded g f e v (d.engApply fs e).sewSettleAll := by
  obtain ⟨-, -, hpend, -⟩ := unitFields_apart f hfs
  set b := d.markApplied (fun t => t.key.u == e && fs.contains t.key.f) with hb
  have hraise := Dev.raise_frame b e 3
  have happ : d.engApply fs e = b.raise e 3 := by
    simp only [Dev.engApply, h.waitsFor hf, hfree, hnext, Bool.or_self, Bool.false_eq_true, if_false, hb]
  have hmark : b.taken = [⟨g, ⟨f, e, 0⟩, v, true⟩] := by simp [hb, Dev.markApplied, h.taken, hf]
  rw [happ]
  exact (Dev.sewSettleAll_ended hg (hraise.taken.trans hmark) (hraise.modeChg.trans h.modeChg)
    ((hraise.writes.rg _ _ (by decide)).trans h.state) hfs).1

/-- Where a burst runs, it does not. -/
theorem Dev.SewLast.engApply_waits {f : Field} {v : Nat} {fs : List Field} (h : d.SewLast g f e v) (hg : g < 16)
    (hfs : f ∈ unitFields) (hrun : (d.groupRuns e || (fs.contains .ENG_TIE_TIED && d.nextGroupRuns e)) = true) :
    Dev.SewStays g f e d (d.engApply fs e).sewSettleAll := by
  have hstay : d.engApply fs e = d := by
    unfold Dev.engApply
    split
    · rfl
    · exact if_pos hrun
  rw [hstay]
  exact (h.waits hg hfs).1

/-! ## The owner of a quad -/

theorem Dev.park_chan (d : Dev) (c m i : Nat) : ((d.park c m).chan i).drv = (if c = i then false else (d.chan i).drv) ∧
    ((d.park c m).chan i).den = (if c = i then false else (d.chan i).den) := by
  unfold Dev.park Dev.setPair
  dsimp only
  rw [Dev.bump, Dev.st, Dev.setKey_chan]
  by_cases h : c = i
  · rw [h, Dev.chan_setChan_self]
    simp
  · rw [Dev.chan_setChan_ne _ _ h, if_neg h, if_neg h]
    exact ⟨rfl, rfl⟩

/-- Channels that park drive nothing (R43). -/
theorem Dev.park_foldl_chan {i : Nat} {l : List Nat} (hi : i ∈ l ∨ ((d.chan i).drv = false ∧ (d.chan i).den = false)) :
    ((l.foldl (fun d c => d.park c d.tick) d).chan i).drv = false ∧
      ((l.foldl (fun d c => d.park c d.tick) d).chan i).den = false := by
  induction l generalizing d with
  | nil => simpa using hi
  | cons c l ih =>
    refine ih ?_
    obtain ⟨hdrv, hden⟩ := d.park_chan c d.tick i
    rw [hdrv, hden]
    by_cases hc : c = i
    · exact .inr (by simp [hc])
    · simpa [hc, Ne.symm hc] using hi

theorem Dev.park_frame (d : Dev) (c m : Nat) : Dev.SewFrame [.PIN_EDGE_MERGE_COUNT] d (d.park c m) :=
  ⟨Dev.setPair_writes .., rfl, rfl⟩

/-- Fields that a quad's calibration values write. -/
def calFields : List Field := [.CAL_DUE_PD, .CAL_DRIFT_PD, .PIN_CAL_STAT_DRIFT]

/-- A quad that takes calibration values keeps its channels' levels (R428). -/
theorem Dev.calTake_frame (d : Dev) (q : Nat) : Dev.SewFrame calFields d (d.calTake q) ∧ (d.calTake q).chans = d.chans := by
  have hused : ∀ c, Dev.SewFrame calFields d { d with cal := c } := fun c => ⟨⟨fun _ _ => rfl, rfl⟩, rfl, rfl⟩
  have hdrift : ∀ (l : List Nat) (b : Dev), (l.foldl (fun d c => d.st .PIN_CAL_STAT_DRIFT c 0) b).chans = b.chans := by
    intro l
    induction l with
    | nil => exact fun _ => rfl
    | cons c l ih => exact fun b => ih (b.st .PIN_CAL_STAT_DRIFT c 0)
  by_cases h : (!d.cal.old.contains q) = true
  · rw [Dev.calTake, if_pos h]
    exact ⟨.refl _ d, rfl⟩
  · obtain ⟨c, htake⟩ : ∃ c : Cal, d.calTake q =
        ((quadChans q).foldl (fun (d : Dev) c => d.st .PIN_CAL_STAT_DRIFT c 0) { d with cal := c }).calBits (q / 8) :=
      ⟨_, if_neg h⟩
    have hclear : Dev.SewFrame calFields { d with cal := c }
        ((quadChans q).foldl (fun (d : Dev) c => d.st .PIN_CAL_STAT_DRIFT c 0) { d with cal := c }) :=
      .foldl _ _ fun b c _ => .st b c 0 (by decide)
    have hbits : ∀ b : Dev, Dev.SewFrame calFields b (b.calBits (q / 8)) := fun b =>
      Dev.SewFrame.trans (.st (f := .CAL_DUE_PD) b 0 _ (by decide)) (.st (f := .CAL_DRIFT_PD) _ 0 _ (by decide))
    rw [htake]
    exact ⟨((hused c).trans hclear).trans (hbits _), hdrift _ _⟩

/-- Where neither owner runs a burst, the quad's new owner applies and its channels park (R58, R59). -/
theorem Dev.SewLast.qownApply {f : Field} {v : Nat} (h : d.SewLast g f e v) (hg : g < 16) (hf : f ∈ qownFields)
    (hfree : (d.quadOwners e).any d.groupRuns = false) : Dev.SewEnded g f e v (d.qownApply e).sewSettleAll ∧
      (d.qownApply e).sewSettleAll.rg .PIN_QOWN_PENDING e = 0 ∧
      ∀ c < 4, ((d.qownApply e).sewSettleAll.chan (4 * e + c)).drv = false ∧
        ((d.qownApply e).sewSettleAll.chan (4 * e + c)).den = false := by
  have hunit : f ∈ unitFields := by
    simp only [unitFields, List.append_assoc]
    exact List.mem_append_left _ hf
  set b := d.markApplied (fun t => t.key.u == e && qownFields.contains t.key.f) with hb
  set p := (quadChans e).foldl (fun d c => d.park c d.tick) b with hp
  have happ : d.qownApply e = (p.st .PIN_QOWN_PENDING e 0).calTake e := by
    simp only [Dev.qownApply, h.waitsFor hf, hfree, Bool.false_eq_true, if_false, ← hb, ← hp]
  have hmark : b.taken = [⟨g, ⟨f, e, 0⟩, v, true⟩] := by simp [hb, Dev.markApplied, h.taken, hf]
  have hparked : Dev.SewFrame [.PIN_EDGE_MERGE_COUNT] b p := .foldl _ _ fun x c _ => Dev.park_frame x c x.tick
  obtain ⟨hcal, hchans⟩ := (p.st .PIN_QOWN_PENDING e 0).calTake_frame e
  have hstate : (p.st .PIN_QOWN_PENDING e 0).rg .SEW_STATUS_STATE g = 2 :=
    (Dev.rg_st_ne _ _ _ _ (by decide)).trans ((hparked.writes.rg _ _ (by decide)).trans h.state)
  obtain ⟨hended, hkeep, hrest⟩ := Dev.sewSettleAll_ended hg (hcal.taken.trans (hparked.taken.trans hmark))
    (hcal.modeChg.trans (hparked.modeChg.trans h.modeChg)) ((hcal.writes.rg _ _ (by decide)).trans hstate) hunit
  rw [happ]
  refine ⟨hended, ?_, fun c hc => ?_⟩
  · have hne : Field.PIN_QOWN_PENDING ≠ f := fun hc => (hc ▸ (by decide : Field.PIN_QOWN_PENDING ∉ qownFields)) hf
    rw [hrest _ (by decide) (by decide) hne, hcal.writes.rg _ _ (by decide)]
    exact Dev.rg_st_self ..
  · have hmem : 4 * e + c ∈ quadChans e := by
      simp only [quadChans, List.mem_cons, List.not_mem_nil, or_false]
      omega
    have hchan : (((p.st .PIN_QOWN_PENDING e 0).calTake e).sewSettleAll).chan (4 * e + c) = p.chan (4 * e + c) := by
      rw [Dev.chan, hkeep, hchans]
      rfl
    rw [hchan]
    exact Dev.park_foldl_chan (.inl hmem)

/-- Where an owner runs a burst, it does not. -/
theorem Dev.SewLast.qownApply_waits {f : Field} {v : Nat} (h : d.SewLast g f e v) (hg : g < 16) (hf : f ∈ qownFields)
    (hrun : (d.quadOwners e).any d.groupRuns = true) :
    Dev.SewStays g f e d (d.qownApply e).sewSettleAll ∧ (d.qownApply e).sewSettleAll.chans = d.chans := by
  have hstay : d.qownApply e = d := by
    unfold Dev.qownApply
    split
    · rfl
    · exact if_pos hrun
  rw [hstay]
  exact h.waits hg (by simp only [unitFields, List.append_assoc]; exact List.mem_append_left _ hf)

/-! ## The start that a sew orders -/

/-- Fields that the begin of a burst writes. -/
def beginFields : List Field :=
  [.ENG_FLOG_STAT_CFGERR, .ENG_PC_ADDR, .ENG_PC_BANK, .ENG_FLAGS_FAIL, .ENG_FLAGS_MATCH, .ENG_FLAGS_ZERO, .ENG_FLAGS_CARRY,
    .ENG_FLAGS_TFAIL, .ENG_FLAGS_TMATCH, .ENG_VP, .ENG_TS, .ENG_TAG, .ENG_ESTAT_RESUME, .ENG_ESTAT_INHANDLER,
    .ENG_ESTAT_SZERO, .ENG_ESTAT_SCARRY, .ENG_ESTAT_EVNUM, .ENG_EV_PEND_PEND, .ENG_CMP_DMASK_DMASK, .ENG_STR_PPOS_REP,
    .ENG_STR_PPOS_ROW, .ENG_FLOG_CNT_COUNT, .ENG_PROG, .ENG_ESTAT_IE, .ENG_STAT_STATE, .ENG_RES_STAT_RUNNING,
    .PIN_EM_COUNT_COUNT, .PIN_EM_SUM_SUM, .PIN_EM_MIN_TIME, .PIN_EM_MAX_TIME, .PIN_EM_LAST_TIME, .PIN_EM_LAST_VALID]

/-- Fields of a channel's edge measure. -/
def emFields : List Field := [.PIN_EM_COUNT_COUNT, .PIN_EM_SUM_SUM, .PIN_EM_MIN_TIME, .PIN_EM_MAX_TIME, .PIN_EM_LAST_TIME,
  .PIN_EM_LAST_VALID]

theorem Dev.emClear_frame (d : Dev) (c : Nat) : Dev.SewFrame emFields d (d.emClear c) := by
  have hst : ∀ (b : Dev), ∀ f ∈ emFields, ∀ v, Dev.SewFrame emFields b (b.st f c v) := fun b f hf v => .st b c v hf
  unfold Dev.emClear
  exact ((((((hst _ .PIN_EM_COUNT_COUNT (by decide) _).trans (hst _ .PIN_EM_SUM_SUM (by decide) _)).trans
    (hst _ .PIN_EM_MIN_TIME (by decide) _)).trans (hst _ .PIN_EM_MAX_TIME (by decide) _)).trans
    (hst _ .PIN_EM_LAST_TIME (by decide) _)).trans (hst _ .PIN_EM_LAST_VALID (by decide) _))

theorem Dev.latchPin_frame (d : Dev) (c : Nat) : Dev.SewFrame emFields d (d.latchPin c) := by
  have hlatch : ∀ x, Dev.SewFrame emFields d (d.setChan c x) := fun x => .of_eqs rfl rfl rfl rfl
  unfold Dev.latchPin
  dsimp only
  split
  · exact hlatch _
  · exact (hlatch _).trans (Dev.emClear_frame ..)

/-- A burst that begins leaves the engine STARTING (R176), and what sews have taken. -/
theorem Dev.beginBurst_frame (d : Dev) (e : Nat) : Dev.SewFrame beginFields d (d.beginBurst e) ∧
    (d.beginBurst e).rg .ENG_STAT_STATE e = 1 := by
  have hst : ∀ (b : Dev), ∀ f ∈ beginFields, ∀ v, Dev.SewFrame beginFields b (b.st f e v) := fun b f hf v => .st b e v hf
  have hlatch : ∀ (l : List Nat) (b : Dev), Dev.SewFrame emFields b (l.foldl (fun d c => d.latchPin c) b) := fun l b =>
    .foldl l b fun x c _ => Dev.latchPin_frame x c
  obtain ⟨b, l, hb, hbegin⟩ : ∃ (b : Dev) (l : List Nat), Dev.SewFrame beginFields d b ∧ d.beginBurst e = l.foldl (fun d c => d.latchPin c)
      ((b.st .ENG_STAT_STATE e 1).st .ENG_RES_STAT_RUNNING e 1) := by
    unfold Dev.beginBurst
    refine ⟨_, _, ?_, rfl⟩
    refine Dev.SewFrame.trans ?_ (hst _ .ENG_ESTAT_IE (by decide) 1)
    refine Dev.SewFrame.trans ?_ (.foldl _ _ fun b i _ => Dev.SewFrame.sti (f := .ENG_PROG) b e i 0 (by decide))
    refine Dev.SewFrame.trans ?_ (.foldl _ _ fun b f hf => hst b f ((by decide : ∀ f ∈ [Field.ENG_FLAGS_FAIL,
      .ENG_FLAGS_MATCH, .ENG_FLAGS_ZERO, .ENG_FLAGS_CARRY, .ENG_FLAGS_TFAIL, .ENG_FLAGS_TMATCH, .ENG_VP, .ENG_TS, .ENG_TAG,
      .ENG_ESTAT_RESUME, .ENG_ESTAT_INHANDLER, .ENG_ESTAT_SZERO, .ENG_ESTAT_SCARRY, .ENG_ESTAT_EVNUM, .ENG_EV_PEND_PEND,
      .ENG_CMP_DMASK_DMASK, .ENG_STR_PPOS_REP, .ENG_STR_PPOS_ROW, .ENG_FLOG_CNT_COUNT], f ∈ beginFields) f hf) 0)
    refine Dev.SewFrame.trans ?_ ((hst _ .ENG_PC_ADDR (by decide) _).trans (hst _ .ENG_PC_BANK (by decide) _))
    have hset : ∀ (c : Prop) [Decidable c] (y : Eng),
        Dev.SewFrame beginFields d ((if c then d.st .ENG_FLOG_STAT_CFGERR e 1 else d).setEng e y) := fun c _ y =>
      (Dev.SewFrame.ite (hst d _ (by decide) 1) (.refl _ d)).trans (.of_eqs rfl rfl rfl rfl)
    have hfar : ∀ (c : Prop) [Decidable c] (y : Eng) (l m : List FarFlag), Dev.SewFrame beginFields d
        { (if c then d.st .ENG_FLOG_STAT_CFGERR e 1 else d).setEng e y with far := l, farQ := m } := fun c _ y l m =>
      (hset c y).trans (.of_eqs rfl rfl rfl rfl)
    exact .ite (hfar _ _ _ _) (hset _ _)
  have hpin := hlatch l ((b.st .ENG_STAT_STATE e 1).st .ENG_RES_STAT_RUNNING e 1)
  rw [hbegin]
  refine ⟨((hb.trans (hst b .ENG_STAT_STATE (by decide) 1)).trans (hst _ .ENG_RES_STAT_RUNNING (by decide) 1)).trans
    (hpin.mono (by decide)), ?_⟩
  rw [hpin.writes.rg _ _ (by decide), Dev.rg_st_ne _ _ _ _ (by decide)]
  exact Dev.rg_st_self ..

/-- A start order that nothing refuses, on an untied engine, begins the burst (R174, R176). -/
theorem Dev.startOrder_begins (hi : d.startIgnored e = false) (hs : (d.eng e).tieStart = none) (ht : d.tied e = false)
    (hr : d.refusal [e] = none) : Dev.SewFrame (beginFields ++ calFields) d (d.startOrder e) ∧
      (d.startOrder e).rg .ENG_STAT_STATE e = 1 := by
  have hstart : d.startOrder e = ((d.quads e).foldl (fun d q => d.calTake q) d).beginBurst e := by
    simp [Dev.startOrder, Dev.startNow, hi, hs, ht, hr]
  have hcal : Dev.SewFrame calFields d ((d.quads e).foldl (fun d q => d.calTake q) d) :=
    .foldl _ _ fun b q _ => (b.calTake_frame q).1
  obtain ⟨hbegin, hstate⟩ := ((d.quads e).foldl (fun d q => d.calTake q) d).beginBurst_frame e
  rw [hstart]
  exact ⟨(hcal.mono (List.subset_append_right ..)).trans (hbegin.mono (List.subset_append_left ..)), hstate⟩

section
variable {l : List Taken} (heff : ∀ f ≠ Field.ENG_SEWSTART_ARM, ∀ x, { d with taken := l }.eff f x = d.eff f x)
include heff

theorem Dev.tied_of_arm (e : Nat) : { d with taken := l }.tied e = d.tied e := by
  rw [Dev.tied, Dev.tied, heff _ (by decide)]

theorem Dev.startIgnored_of_arm (e : Nat) : { d with taken := l }.startIgnored e = d.startIgnored e := by
  have hm : { d with taken := l }.members e = d.members e := by
    simp only [Dev.members, Dev.grp, Dev.tied_of_arm heff, heff .ENG_TIE_GROUP (by decide)]
  rw [Dev.startIgnored, hm]
  rfl

theorem Dev.refusal_of_arm (m : List Nat) : { d with taken := l }.refusal m = d.refusal m := by
  have hq : ∀ x, { d with taken := l }.quads x = d.quads x := fun x => by
    simp only [Dev.quads, Dev.quadOwner, heff .PIN_QOWN_UNOWNED (by decide), heff .PIN_QOWN_OWNER (by decide)]
  have hs : ∀ x, { d with taken := l }.stage1 x = d.stage1 x := fun x => by
    rw [Dev.stage1, Dev.contactorBlocks, hq]
    rfl
  simp only [Dev.refusal, hs]

end

/-- An ARM of 1 orders the start and returns to 0 (R173, R174, R326). -/
theorem Dev.SewLast.sewstartApply (h : d.SewLast g .ENG_SEWSTART_ARM e 1) (hg : g < 16) (hfree : d.groupRuns e = false)
    (ht : d.tied e = false) (hi : d.startIgnored e = false) (hs : (d.eng e).tieStart = none) (hr : d.refusal [e] = none) :
    Dev.SewEnded g .ENG_SEWSTART_ARM e 0 (d.sewstartApply e).sewSettleAll ∧
      (d.sewstartApply e).sewSettleAll.rg .ENG_STAT_STATE e = 1 := by
  set b : Dev := { d with taken := [⟨g, ⟨.ENG_SEWSTART_ARM, e, 0⟩, 0, true⟩] } with hb
  have heff : ∀ f ≠ Field.ENG_SEWSTART_ARM, ∀ x, b.eff f x = d.eff f x := fun f hf x => by
    have hk : ((⟨.ENG_SEWSTART_ARM, e, 0⟩ : RegKey) == ⟨f, x, 0⟩) = false :=
      beq_false_of_ne fun hk => hf (RegKey.mk.inj hk).1.symm
    simp only [Dev.eff, hb, h.taken, List.find?_cons, hk, Bool.false_and, List.find?_nil]
    rfl
  have happ : d.sewstartApply e = b.startOrder e := by
    have hown := h.waitsFor_none (fs := tieFields ++ (entryFields ++ [.ENG_CMP_MASK_MASK])) (by decide) e
    have hquads := h.waitsFor_none (fs := qownFields) (by decide)
    simp [Dev.sewstartApply, h.waitsFor (List.mem_singleton_self _), hown, hquads, h.modeChg, hfree, Dev.coming, h.taken, hb]
  obtain ⟨hframe, hstate⟩ := Dev.startOrder_begins (d := b) ((Dev.startIgnored_of_arm heff e).trans hi) hs
    ((Dev.tied_of_arm heff e).trans ht) ((Dev.refusal_of_arm heff [e]).trans hr)
  obtain ⟨hended, -, hrest⟩ := Dev.sewSettleAll_ended hg hframe.taken (hframe.modeChg.trans h.modeChg)
    ((hframe.writes.rg _ _ (by decide)).trans h.state) (by decide)
  rw [happ]
  exact ⟨hended, (hrest _ (by decide) (by decide) (by decide) e).trans hstate⟩

/-- Where a burst runs, ARM waits. -/
theorem Dev.SewLast.sewstartApply_waits {v : Nat} (h : d.SewLast g .ENG_SEWSTART_ARM e v) (hg : g < 16)
    (hrun : d.groupRuns e = true) : Dev.SewStays g .ENG_SEWSTART_ARM e d (d.sewstartApply e).sewSettleAll := by
  have hstay : d.sewstartApply e = d := by
    unfold Dev.sewstartApply
    split
    · rfl
    · exact if_pos (by simp [hrun])
  rw [hstay]
  exact (h.waits hg (by decide)).1

/-! ## The mode -/

/-- A mode applies to an engine on which no burst runs (R419). -/
theorem Dev.modeApply_free {v : Nat} {l : List Nat} (hm : d.modeChg = some (g, v, l)) (he : e ∈ l)
    (hfree : d.groupRuns e = false) :
    d.modeApply e = { (d.st .ENG_MODE_MODE e v).raise e 3 with modeChg := some (g, v, l.filter (· ≠ e)) } := by
  simp [Dev.modeApply, hm, he, hfree]

/-- With the last engine the device's mode changes (R419, R421). -/
theorem Dev.modeApply_last {v : Nat} (hg : g < 16) (ht : d.taken = []) (hm : d.modeChg = some (g, v, [e]))
    (hfree : d.groupRuns e = false) (hs : d.rg .SEW_STATUS_STATE g = 2) :
    (d.modeApply e).sewSettleAll.rg .ENG_MODE_MODE e = v % 2 ^ 3 ∧
      (d.modeApply e).sewSettleAll.rg .SEW_MODE_MODE 0 = v % 2 ^ 3 ∧
      (d.modeApply e).sewSettleAll.rg .HOST_MODE_MODE 0 = v % 2 ^ 3 ∧
      (d.modeApply e).sewSettleAll.rg .SEW_MODE_PENDING 0 = 0 ∧ (d.modeApply e).sewSettleAll.modeChg = none ∧
      (d.modeApply e).sewSettleAll.rg .SEW_STATUS_STATE g = 3 := by
  have hraise := Dev.raise_frame (d.st .ENG_MODE_MODE e v) e 3
  set c : Dev := { (d.st .ENG_MODE_MODE e v).raise e 3 with modeChg := some (g, v, []) } with hc
  have happ : d.modeApply e = c := by
    rw [Dev.modeApply_free hm (List.mem_singleton_self e) hfree, hc]
    simp
  have hct : c.taken = [] := hraise.taken.trans ht
  have hcm : c.modeChg = some (g, v, []) := rfl
  have hcs : c.rg .SEW_STATUS_STATE g = 2 :=
    (hraise.writes.rg _ _ (by decide)).trans ((Dev.rg_st_ne _ _ _ _ (by decide)).trans hs)
  have hce : c.rg .ENG_MODE_MODE e = v % 2 ^ 3 := (hraise.writes.rg _ _ (by decide)).trans (Dev.rg_st_self ..)
  obtain ⟨ks, ls, b, hb, hall, hstate, -, -⟩ := Dev.sewSettleAll_done hg ⟨by simp [hct], by simp [hcm]⟩ hcs
    (by simp [Dev.sewPend, Dev.sewLeft, hct, hcm])
  have hdone : (b.sewStored g).modeDone g = { b with modeChg := none }.setMode v := by
    rw [Dev.sewStored_of_none (by simp [hb.taken, hct]), Dev.modeDone, hb.modeChg, hcm]
    simp
  rw [hdone] at hall
  rw [happ]
  have hset : ∀ f ∉ [Field.SEW_MODE_MODE, .HOST_MODE_MODE, .SEW_MODE_PENDING, .HOST_MODE_PENDING], ∀ x,
      ({ b with modeChg := none }.setMode v).rg f x = b.rg f x := fun f hf x => by
    simp only [List.mem_cons, List.not_mem_nil, or_false, not_or] at hf
    obtain ⟨h1, h2, h3, h4⟩ := hf
    rw [Dev.setMode, Dev.rg_st_ne _ _ _ _ (Ne.symm h4), Dev.rg_st_ne _ _ _ _ (Ne.symm h3),
      Dev.rg_st_ne _ _ _ _ (Ne.symm h2), Dev.rg_st_ne _ _ _ _ (Ne.symm h1)]
    rfl
  refine ⟨?_, ?_, ?_, ?_, hall.modeChg, hstate⟩
  · rw [hall.rg _ (by decide) (by decide), hset _ (by decide), hb.rg _ (by decide) (by decide), hce]
  · rw [hall.rg _ (by decide) (by decide), Dev.setMode, Dev.rg_st_ne _ _ _ _ (by decide), Dev.rg_st_ne _ _ _ _ (by decide),
      Dev.rg_st_ne _ _ _ _ (by decide)]
    exact Dev.rg_st_self ..
  · rw [hall.rg _ (by decide) (by decide), Dev.setMode, Dev.rg_st_ne _ _ _ _ (by decide), Dev.rg_st_ne _ _ _ _ (by decide)]
    exact Dev.rg_st_self ..
  · rw [hall.rg _ (by decide) (by decide), Dev.setMode, Dev.rg_st_ne _ _ _ _ (by decide)]
    exact Dev.rg_st_self ..

/-- While other engines have still to apply it, the device's mode stays (R327, R417). -/
theorem Dev.modeApply_more {v : Nat} {l : List Nat} (hg : g < 16) (ht : d.taken = [])
    (hm : d.modeChg = some (g, v, e :: l)) (hl : e ∉ l) (hne : l ≠ []) (hfree : d.groupRuns e = false) :
    (d.modeApply e).sewSettleAll.rg .ENG_MODE_MODE e = v % 2 ^ 3 ∧
      (d.modeApply e).sewSettleAll.rg .SEW_MODE_MODE 0 = d.rg .SEW_MODE_MODE 0 ∧
      (d.modeApply e).sewSettleAll.modeChg = some (g, v, l) := by
  have hraise := Dev.raise_frame (d.st .ENG_MODE_MODE e v) e 3
  set c : Dev := { (d.st .ENG_MODE_MODE e v).raise e 3 with modeChg := some (g, v, l) } with hc
  have happ : d.modeApply e = c := by
    have hrest : (e :: l).filter (· ≠ e) = l := by
      rw [List.filter_cons_of_neg (by simp)]
      exact List.filter_eq_self.2 fun x hx => by simpa using fun h : x = e => hl (h ▸ hx)
    rw [Dev.modeApply_free hm List.mem_cons_self hfree, hrest]
  have hct : c.taken = [] := hraise.taken.trans ht
  have hcm : c.modeChg = some (g, v, l) := rfl
  have hleft : c.sewPend g ≠ 0 := by
    obtain ⟨x, l, rfl⟩ := List.exists_cons_of_ne_nil hne
    simp [Dev.sewPend, Dev.sewLeft, hct, hcm, List.eraseDups_cons]
  obtain ⟨hs, hkept, -⟩ := Dev.sewSettleAll_waits hg ⟨by simp [hct], by simp [hcm]⟩ hleft
  rw [happ]
  refine ⟨?_, ?_, hkept.modeChg⟩
  · exact (hkept.rg _ (by decide) (by decide)).trans ((hraise.writes.rg _ _ (by decide)).trans (Dev.rg_st_self ..))
  · exact (hkept.rg _ (by decide) (by decide)).trans ((hraise.writes.rg _ _ (by decide)).trans
      (Dev.rg_st_ne _ _ _ _ (by decide)))

/-! ## The commands -/

section
variable {s : State} {e : EngId} {g : SgId} {f : Field} {v : Nat}

theorem completes_quadOwnershipApply (h : s.dev.SewLast g f e v) (hf : f ∈ qownFields)
    (hfree : (s.dev.quadOwners e).any s.dev.groupRuns = false) : Completes (.quadOwnershipApply e) s (fun t =>
      (t.dev.rg f e = v % 2 ^ f.info.width ∧ t.dev.taken = [] ∧ t.dev.rg .SEW_STATUS_STATE g = 3 ∧
        t.dev.rg .SEW_STATUS_PENDCNT g = 0) ∧ t.dev.rg .PIN_QOWN_PENDING e = 0 ∧
      ∀ c < 4, (t.dev.chan (4 * e + c)).drv = false ∧ (t.dev.chan (4 * e + c)).den = false) := by
  refine Completes.onDev rfl ?_
  dsimp only
  exact h.qownApply g.isLt hf hfree

theorem completes_quadOwnershipApply_waits (h : s.dev.SewLast g f e v) (hf : f ∈ qownFields)
    (hrun : (s.dev.quadOwners e).any s.dev.groupRuns = true) : Completes (.quadOwnershipApply e) s (fun t =>
      (t.dev.taken = s.dev.taken ∧ t.dev.rg f e = s.dev.rg f e ∧ t.dev.rg .SEW_STATUS_STATE g = 2) ∧
        t.dev.chans = s.dev.chans) := by
  refine Completes.onDev rfl ?_
  dsimp only
  exact h.qownApply_waits g.isLt hf hrun

/-- Of the fields `fs` of an engine, the last that waits applies where no burst runs. -/
theorem completes_engApply {c : Instr} {fs : List Field}
    (hx : exec c s = .next (s.onDev fun d => (d.engApply fs e).sewSettleAll)) (h : s.dev.SewLast g f e v) (hf : f ∈ fs)
    (hfs : f ∈ unitFields) (hfree : s.dev.groupRuns e = false)
    (hnext : (fs.contains .ENG_TIE_TIED && s.dev.nextGroupRuns e) = false) : Completes c s (fun t =>
      t.dev.rg f e = v % 2 ^ f.info.width ∧ t.dev.taken = [] ∧ t.dev.rg .SEW_STATUS_STATE g = 3 ∧
        t.dev.rg .SEW_STATUS_PENDCNT g = 0) := by
  refine Completes.onDev hx ?_
  dsimp only
  exact h.engApply g.isLt hf hfs hfree hnext

theorem completes_engApply_waits {c : Instr} {fs : List Field}
    (hx : exec c s = .next (s.onDev fun d => (d.engApply fs e).sewSettleAll)) (h : s.dev.SewLast g f e v)
    (hfs : f ∈ unitFields) (hrun : (s.dev.groupRuns e || (fs.contains .ENG_TIE_TIED && s.dev.nextGroupRuns e)) = true) :
    Completes c s (fun t => t.dev.taken = s.dev.taken ∧ t.dev.rg f e = s.dev.rg f e ∧ t.dev.rg .SEW_STATUS_STATE g = 2) := by
  refine Completes.onDev hx ?_
  dsimp only
  exact h.engApply_waits g.isLt hfs hrun

theorem completes_sewstartApply (h : s.dev.SewLast g .ENG_SEWSTART_ARM e 1) (hfree : s.dev.groupRuns e = false)
    (ht : s.dev.tied e = false) (hi : s.dev.startIgnored e = false) (hs : (s.dev.eng e).tieStart = none)
    (hr : s.dev.refusal [e.val] = none) : Completes (.sewstartApply e) s (fun t => t.dev.rg .ENG_SEWSTART_ARM e = 0 ∧
      t.dev.rg .ENG_STAT_STATE e = 1 ∧ t.dev.rg .SEW_STATUS_STATE g = 3 ∧ t.dev.taken = []) := by
  obtain ⟨⟨harm, htaken, hstate, -⟩, hrun⟩ := h.sewstartApply g.isLt hfree ht hi hs hr
  refine Completes.onDev rfl ?_
  dsimp only
  exact ⟨harm, hrun, hstate, htaken⟩

theorem completes_sewstartApply_waits (h : s.dev.SewLast g .ENG_SEWSTART_ARM e v) (hrun : s.dev.groupRuns e = true) :
    Completes (.sewstartApply e) s (fun t => t.dev.taken = s.dev.taken ∧
      t.dev.rg .ENG_SEWSTART_ARM e = s.dev.rg .ENG_SEWSTART_ARM e ∧ t.dev.rg .SEW_STATUS_STATE g = 2) := by
  refine Completes.onDev rfl ?_
  dsimp only
  exact h.sewstartApply_waits g.isLt hrun

theorem completes_modeApply_last (ht : s.dev.taken = []) (hm : s.dev.modeChg = some (g.val, v, [e.val]))
    (hfree : s.dev.groupRuns e = false) (hs : s.dev.rg .SEW_STATUS_STATE g = 2) : Completes (.modeApply e) s (fun t =>
      t.dev.rg .ENG_MODE_MODE e = v % 2 ^ 3 ∧ t.dev.rg .SEW_MODE_MODE 0 = v % 2 ^ 3 ∧
      t.dev.rg .HOST_MODE_MODE 0 = v % 2 ^ 3 ∧ t.dev.rg .SEW_MODE_PENDING 0 = 0 ∧ t.dev.modeChg = none ∧
      t.dev.rg .SEW_STATUS_STATE g = 3) := by
  refine Completes.onDev rfl ?_
  dsimp only
  exact Dev.modeApply_last g.isLt ht hm hfree hs

theorem completes_modeApply_more {l : List Nat} (ht : s.dev.taken = [])
    (hm : s.dev.modeChg = some (g.val, v, e.val :: l)) (hl : e.val ∉ l) (hne : l ≠ [])
    (hfree : s.dev.groupRuns e = false) : Completes (.modeApply e) s (fun t =>
      t.dev.rg .ENG_MODE_MODE e = v % 2 ^ 3 ∧ t.dev.rg .SEW_MODE_MODE 0 = s.dev.rg .SEW_MODE_MODE 0 ∧
      t.dev.modeChg = some (g.val, v, l)) := by
  refine Completes.onDev rfl ?_
  dsimp only
  exact Dev.modeApply_more g.isLt ht hm hl hne hfree

end

theorem mem_unitFields_of_tie {f : Field} (hf : f ∈ tieFields) : f ∈ unitFields := by
  simp [unitFields, hf]

theorem mem_unitFields_of_entry {f : Field} (hf : f ∈ entryFields) : f ∈ unitFields := by
  simp [unitFields, hf]

/-- Settles O29: a field that applies is marked at its unit, and settling the sews then finds nothing left of the group; one
that waits leaves a field to apply. -/
theorem sewApplication : Obligations.SewApplication := by
  intro s g e f v
  refine ⟨?qown, ?qownWaits, ?tie, ?tieWaits, ?mask, ?maskWaits, ?entry, ?entryWaits, ?start, ?startWaits, ?mode, ?modeMore⟩
  case qown =>
    rintro hf ⟨ht, hs, hm⟩ hfree
    exact completes_quadOwnershipApply ⟨ht, hs, hm⟩ hf hfree
  case qownWaits =>
    rintro hf ⟨ht, hs, hm⟩ hrun
    exact completes_quadOwnershipApply_waits ⟨ht, hs, hm⟩ hf hrun
  case tie =>
    rintro hf ⟨ht, hs, hm⟩ hfree hnext
    exact completes_engApply (fs := tieFields) rfl ⟨ht, hs, hm⟩ hf (mem_unitFields_of_tie hf) hfree (by rw [hnext, Bool.and_false])
  case tieWaits =>
    rintro hf ⟨ht, hs, hm⟩ hrun
    refine completes_engApply_waits (fs := tieFields) rfl ⟨ht, hs, hm⟩ (mem_unitFields_of_tie hf) ?_
    simpa [tieFields] using hrun
  case mask =>
    rintro ⟨ht, hs, hm⟩ hfree
    exact completes_engApply (fs := [.ENG_CMP_MASK_MASK]) rfl ⟨ht, hs, hm⟩ (List.mem_singleton_self _) (by decide) hfree rfl
  case maskWaits =>
    rintro ⟨ht, hs, hm⟩ hrun
    exact completes_engApply_waits (fs := [.ENG_CMP_MASK_MASK]) rfl ⟨ht, hs, hm⟩ (by decide) (by simpa using hrun)
  case entry =>
    rintro hf ⟨ht, hs, hm⟩ hfree
    exact completes_engApply (fs := entryFields) rfl ⟨ht, hs, hm⟩ hf (mem_unitFields_of_entry hf) hfree rfl
  case entryWaits =>
    rintro hf ⟨ht, hs, hm⟩ hrun
    exact completes_engApply_waits (fs := entryFields) rfl ⟨ht, hs, hm⟩ (mem_unitFields_of_entry hf)
      (by simp [eq_true_of_ne_false hrun])
  case start =>
    rintro ⟨ht, hs, hm⟩ hfree rfl htied hi hstart hr
    exact completes_sewstartApply ⟨ht, hs, hm⟩ hfree htied hi hstart hr
  case startWaits =>
    rintro ⟨ht, hs, hm⟩ hrun
    exact completes_sewstartApply_waits ⟨ht, hs, hm⟩ (by simpa using hrun)
  case mode =>
    intro ht hm hfree hs
    exact completes_modeApply_last ht hm hfree hs
  case modeMore =>
    intro l ht hm hl hne hfree
    exact completes_modeApply_more ht hm hl hne hfree

end Sys2Proof.Machine
end

section
/-!
Messages that arrive over the Seam: what a new one passes on, and what its class does (R67, R193, R264, R317, R329, R353,
R354).
-/

namespace Sys2Proof.Machine

variable {d t b : Dev} {u p pos : Nat} {m : SeamMsg}

/-! ## A new message -/

/-- Handing a message to the ports of a list leaves it waiting at each one that is open to it. -/
theorem Dev.foldl_seamHand_waits (m : SeamMsg) : ∀ (l : List Nat) (d : Dev), d.seamOpen p m.isSew = true →
    (p ∈ l ∨ (d.tick, m) ∈ (d.seamQ.get? p).getD []) →
    (d.tick, m) ∈ ((l.foldl (Dev.seamHand m) d).seamQ.get? p).getD []
  | [], _, _, h => by simpa using h
  | a :: l, d, ho, h => by
    obtain ⟨hregs, htick⟩ := Dev.seamHand_regs_tick d m a
    have ho' : (d.seamHand m a).seamOpen p m.isSew = true := by
      rw [← ho, Dev.seamOpen, Dev.seamOpen, Dev.rg, Dev.rg, Dev.key, Dev.key, hregs]
    have hwait : p ∈ l ∨ (d.tick, m) ∈ ((d.seamHand m a).seamQ.get? p).getD [] := by
      obtain h | h := h
      · obtain rfl | h := List.mem_cons.1 h
        · exact .inr (Dev.seamHand_waits d m ho)
        · exact .inl h
      · exact .inr (Dev.seamHand_keeps d m a h)
    rw [List.foldl_cons, ← htick]
    exact Dev.foldl_seamHand_waits m l _ ho' (htick.symm ▸ hwait)

/-- Handing a message to every open port but one is handing it to each of the others. -/
theorem Dev.seamPost_some (d : Dev) (k : Nat) (m : SeamMsg) : d.seamPost (some k) m =
    ((List.range 4).filter (· ≠ k)).foldl (Dev.seamHand m) { d with seen := (d.tick, m) :: d.seen } := by
  rw [List.foldl_filter, Dev.seamPost]
  congr 1
  funext d a
  by_cases h : a = k <;> simp [h, Dev.seamHand]

/-- A message passed on waits at every open port but the one it came on (R354). -/
theorem Dev.seamPost_passes (d : Dev) (m : SeamMsg) {k : Nat} (hp : p < 4) (hk : p ≠ k) (ho : d.seamOpen p m.isSew = true) :
    (d.tick, m) ∈ ((d.seamPost (some k) m).seamQ.get? p).getD [] := by
  rw [Dev.seamPost_some]
  exact Dev.foldl_seamHand_waits m _ { d with seen := (d.tick, m) :: d.seen } ho (.inl (by simp [hp, hk]))

theorem SeamMsg.isSew_further (m : SeamMsg) : m.further.isSew = m.isSew := by cases m <;> rfl

/-- What a message of position `pos` finds that arrives new on a FULL port. -/
structure Dev.SeamNew (d : Dev) (p : Nat) (m : SeamMsg) : Prop where
  on   : d.domOn domSeam = true
  full : d.rg .LNK_SP_STAT_STATE p = 2
  new  : d.seen.any (fun x => x.2.same m) = false

/-- The message waits, one hop further, at every other FULL port. -/
def Dev.Passed (d : Dev) (p : Nat) (m : SeamMsg) (q : AMap Nat (List (Nat × SeamMsg))) : Prop :=
  m.hops < 4 → ∀ k < 4, k ≠ p → d.rg .LNK_SP_STAT_STATE k = 2 → (d.tick, m.further) ∈ (q.get? k).getD []

/-- A message is new once, and is passed on within four hops (R354). -/
theorem Dev.SeamNew.seamIn (h : d.SeamNew p m) (pos : Nat) : ∃ a q n,
    d.seamIn p pos m = (true, { d with heard := a, seamQ := q, seen := n }) ∧ d.Passed p m q := by
  obtain ⟨hon, hfull, hnew⟩ := h
  have hopen : d.seamOpen p m.isSew = true := by simp [Dev.seamOpen, hfull]
  set c : Dev := { d with heard := d.heard.put pos d.tick, seen := d.seen.filter (fun x => d.tick < x.1 + seenFor) } with hc
  have hseen : c.seen.any (fun x => x.2.same m) = false := by
    rw [List.any_eq_false] at hnew ⊢
    exact fun x hx => hnew x (List.mem_filter.1 hx).1
  have hin : d.seamIn p pos m = if 4 ≤ m.hops then (true, { c with seen := (c.tick, m) :: c.seen })
      else (true, c.seamPost (some p) m.further) :=
    (if_neg (by simp [hopen, hon])).trans (if_neg (Bool.eq_false_iff.1 hseen))
  by_cases h4 : 4 ≤ m.hops
  · rw [hin, if_pos h4]
    exact ⟨_, _, _, rfl, fun hlt => absurd hlt (by omega)⟩
  · obtain ⟨q, n, hpost⟩ := Dev.seamPost_rest (d := c) (some p) m.further
    rw [hin, if_neg h4]
    refine ⟨_, q, n, by rw [hpost], fun _ k hk hkp hf => ?_⟩
    have hw := Dev.seamPost_passes c m.further hk hkp (by
      rw [SeamMsg.isSew_further]
      exact Bool.or_eq_true_iff.2 (.inl (beq_iff_eq.2 hf)))
    rwa [hpost] at hw

/-! ## Tie traffic -/

theorem Dev.tieKnow_far (d : Dev) (g pos : Nat) : ∃ l, d.tieKnow g pos = { d with far := l } := by
  unfold Dev.tieKnow
  split
  · exact ⟨_, rfl⟩
  · exact ⟨_, rfl⟩

/-- The cycles of the tie latency, in ticks (R353). -/
theorem tieDelay_ticks : 160 * cyc = 640000 := rfl

theorem Dev.tieKeep_of_le {g at_ due : Nat} (ha : at_ = due) (h : d.tick ≤ due) :
    d.tieKeep g at_ m = { d with tieIn := d.tieIn ++ [(due, m)] } := by
  subst ha
  exact if_neg (Nat.not_lt.2 h)

theorem Dev.beatTick_congr (hk : t.tick = d.tick) (ht : t.time = d.time) (n : Nat) : t.beatTick n = d.beatTick n := by
  simp only [Dev.beatTick, Dev.coarseAt, hk, ht]

/-- A TIE message waits for its beat and is noted as received (R353). -/
theorem Dev.SeamNew.tieGet {hops g beat f ma pc per : Nat} (h : d.SeamNew p (.tie pos hops g beat f ma pc per))
    (hdue : d.tick ≤ d.beatTick beat + 640000) : ∃ a q n fr l,
      d.tieGet p pos hops g beat f ma pc per = { d with
        heard := a, seamQ := q, seen := n, far := fr, tieGot := l
        tieIn := d.tieIn ++ [(d.beatTick beat + 640000, .tie pos hops g beat f ma pc per)] } ∧
      d.Passed p (.tie pos hops g beat f ma pc per) q ∧ (g, pos, beat, d.tick) ∈ l := by
  obtain ⟨a, q, n, hin, hpass⟩ := h.seamIn pos
  obtain ⟨fr, hknow⟩ := Dev.tieKnow_far { d with heard := a, seamQ := q, seen := n } g pos
  refine ⟨a, q, n, fr, (g, pos, beat, d.tick) :: d.tieGot.filter (fun x => d.tick < x.2.2.2 + seenFor), ?_, hpass,
    List.mem_cons_self⟩
  simp only [Dev.tieGet, hin, hknow, Bool.not_true, Bool.false_eq_true, if_false]
  refine Dev.tieKeep_of_le ?_ hdue
  rw [tieDelay_ticks, Nat.add_left_inj]
  exact Dev.beatTick_congr rfl rfl beat

/-- A TIE_EVT message waits for its cycle (R353). -/
theorem Dev.SeamNew.tieEvtGet {hops g beat cycle k a : Nat} (h : d.SeamNew p (.tieEvt pos hops g beat cycle k a))
    (hdue : d.tick ≤ d.beatTick beat + 640000 + cycle * 4000) : ∃ hd q n fr,
      d.tieEvtGet p pos hops g beat cycle k a = { d with
        heard := hd, seamQ := q, seen := n, far := fr
        tieIn := d.tieIn ++ [(d.beatTick beat + 640000 + cycle * 4000, .tieEvt pos hops g beat cycle k a)] } ∧
      d.Passed p (.tieEvt pos hops g beat cycle k a) q := by
  obtain ⟨hd, q, n, hin, hpass⟩ := h.seamIn pos
  obtain ⟨fr, hknow⟩ := Dev.tieKnow_far { d with heard := hd, seamQ := q, seen := n } g pos
  have hat : d.beatTick beat + (cycle + 160) * cyc = d.beatTick beat + 640000 + cycle * 4000 := by
    simp only [cyc]
    omega
  refine ⟨hd, q, n, fr, ?_, hpass⟩
  simp only [Dev.tieEvtGet, hin, hknow, Bool.not_true, Bool.false_eq_true, if_false]
  refine Dev.tieKeep_of_le ?_ hdue
  rw [← hat, Nat.add_left_inj]
  exact Dev.beatTick_congr rfl rfl beat

/-! ## SEW -/

/-- A READY or veto is held with the time nearest to now that it names (R329). -/
theorem Dev.SeamNew.sewGet {hops tag low : Nat} {veto : Bool} (h : d.SeamNew p (.sew pos hops tag veto low)) : ∃ a q n l,
    d.sewGet p pos hops tag veto low = { d with heard := a, seamQ := q, seen := n, sewMsg := l } ∧
      d.Passed p (.sew pos hops tag veto low) q ∧ ⟨tag, pos, veto, d.nearNs low⟩ ∈ l := by
  obtain ⟨a, q, n, hin, hpass⟩ := h.seamIn pos
  have hget : d.sewGet p pos hops tag veto low =
      Dev.sewHold { d with heard := a, seamQ := q, seen := n } ⟨tag, pos, veto, d.nearNs low⟩ := by
    simp only [Dev.sewGet, hin]
    rfl
  exact ⟨a, q, n, _, hget, hpass, List.mem_append_right _ (List.mem_singleton_self _)⟩

/-! ## Triggers -/

/-- Fields that a counted miss writes (R270). -/
def missFields : List Field := [.ACQ_FMISS_RECORD, .ACQ_MISSED_COUNT]

/-- What conditions met at other units leave alone: unit `u`, the clock, the queues of the Seam, and every register but the
counts of misses. -/
structure Dev.AcqKept (u : Nat) (d t : Dev) : Prop where
  writes : Dev.WritesOnly missFields d t
  acq    : t.acq u = d.acq u
  time   : t.time = d.time
  seamQ  : t.seamQ = d.seamQ

namespace Dev.AcqKept

theorem refl (u : Nat) (d : Dev) : Dev.AcqKept u d d := ⟨.refl _ d, rfl, rfl, rfl⟩

theorem trans (h : Dev.AcqKept u d t) (h' : Dev.AcqKept u t b) : Dev.AcqKept u d b :=
  ⟨h.writes.trans h'.writes, h'.acq.trans h.acq, h'.time.trans h.time, h'.seamQ.trans h.seamQ⟩

theorem foldl {α : Type} {g : Dev → α → Dev} (as : List α) (d : Dev) (hg : ∀ b, ∀ a ∈ as, Dev.AcqKept u b (g b a)) :
    Dev.AcqKept u d (as.foldl g d) := by
  induction as generalizing d with
  | nil => exact refl u d
  | cons a as ih => exact (hg d a List.mem_cons_self).trans (ih _ fun b x hx => hg b x (List.mem_cons_of_mem a hx))

theorem st {f : Field} (d : Dev) (v n : Nat) (hf : f ∈ missFields) : Dev.AcqKept u d (d.st f v n) :=
  ⟨.st d v n hf, rfl, rfl, rfl⟩

theorem setAcq {v : Nat} (d : Dev) (x : Acq) (hv : v ≠ u) : Dev.AcqKept u d (d.setAcq v x) :=
  ⟨.of_eqs rfl rfl, Dev.acq_setAcq_ne d x hv, rfl, rfl⟩

theorem acqMiss {v : Nat} (d : Dev) (n : Nat) (tk : Rat) (hv : v ≠ u) : Dev.AcqKept u d (d.acqMiss v n tk) := by
  unfold Dev.acqMiss
  dsimp only
  refine .trans ?_ (.trans (.st _ v _ (by decide)) (.setAcq _ _ hv))
  split
  · exact .st d v _ (by decide)
  · exact .refl u d

theorem acqCond {v : Nat} (d : Dev) (k n : Nat) (tk : Rat) (hv : v ≠ u) : Dev.AcqKept u d (d.acqCond v k n tk) := by
  unfold Dev.acqCond
  dsimp only
  split
  · exact .refl u d
  · split
    · split
      · exact .acqMiss d n tk hv
      · exact .refl u d
    · exact .setAcq d _ hv

theorem rgi {f : Field} (h : Dev.AcqKept u d t) (k : Nat) (hf : f ∉ missFields) : t.rgi f u k = d.rgi f u k :=
  h.writes.key ⟨f, u, k⟩ hf

/-- The unit's slots are used as before. -/
theorem usedSlots (h : Dev.AcqKept u d t) (n : Nat) : t.usedSlots u n = d.usedSlots u n := by
  have hen : t.slotEn u = d.slotEn u := by
    funext k
    rw [Dev.slotEn, Dev.slotEn, h.rgi k (by decide)]
  have hby : ∀ j k, t.armedBy u j k = d.armedBy u j k := fun j k => by
    rw [Dev.armedBy, Dev.armedBy, h.rgi j (by decide), h.rgi j (by decide)]
  induction n with
  | zero => rw [Dev.usedSlots, Dev.usedSlots, hen]
  | succ n ih => simp only [Dev.usedSlots, ih, hby]

theorem slotsOf (h : Dev.AcqKept u d t) (ty : Nat) : t.slotsOf u ty = d.slotsOf u ty := by
  have htype : ∀ k, t.slotType u k = d.slotType u k := fun k => h.rgi k (by decide)
  simp only [Dev.slotsOf, h.usedSlots, htype]

theorem slotP0 (h : Dev.AcqKept u d t) (k : Nat) : t.slotP0 u k = d.slotP0 u k := h.rgi k (by decide)

theorem grainClose (h : Dev.AcqKept u d t) (tk : Rat) : t.grainClose u tk = d.grainClose u tk := by
  have hstep : ∀ c, t.ddcStep c = d.ddcStep c := fun c => by
    unfold Dev.ddcStep Dev.on
    rw [h.writes.rg _ _ (by decide), h.writes.rg _ _ (by decide)]
  have hts : ∀ c, t.tsTicks c = d.tsTicks c := fun c => by
    simp (disch := decide) only [Dev.tsTicks, Dev.tcTicks, Dev.decim, hstep, h.writes.rg]
  have hgrain : t.grainOf u = d.grainOf u := by
    unfold Dev.grainOf
    rw [h.acq, h.writes.rg _ _ (by decide), h.writes.rg _ _ (by decide), hts]
  rw [Dev.grainClose, Dev.grainClose, hgrain]

theorem tickAt (h : Dev.AcqKept u d t) (n : Nat) : t.tickAt n = d.tickAt n := by
  rw [Dev.tickAt, Dev.tickAt, h.time, h.writes.tick]

end Dev.AcqKept

/-- A used slot's condition that comes in time waits for its grain's decision (R268). -/
theorem Dev.acqCond_waits {k n : Nat} {tk : Rat} (hs : d.rg .ACQ_STAT_STATE u ≠ 0) (hk : d.slotUsed u k = true)
    (hsince : ((d.acq u).since : Rat) ≤ tk) (hdec : (d.acq u).decided < d.grainClose u tk)
    (hdue : (d.tick : Rat) ≤ d.grainClose u tk + (d.acq u).delay * 4000) :
    d.acqCond u k n tk = d.setAcq u { d.acq u with conds := (d.acq u).conds ++ [⟨k, n, tk⟩] } := by
  have hnow : ¬(d.rg .ACQ_STAT_STATE u = 0 ∨ (!d.slotUsed u k) = true ∨ tk < (d.acq u).since) := by
    simp [hs, hk, not_lt.2 hsince]
  have hlate : ¬(d.grainClose u tk ≤ (d.acq u).decided ∨ d.grainClose u tk + (d.acq u).delay * (cyc : Nat) < d.tick) := by
    rw [not_or, not_le, not_lt]
    exact ⟨hdec, by simpa [cyc] using hdue⟩
  unfold Dev.acqCond
  dsimp only
  rw [if_neg hnow, if_neg hlate]

theorem Dev.slotUsed_of_mem {k ty : Nat} (h : k ∈ d.slotsOf u ty) : d.slotUsed u k = true :=
  (Bool.and_eq_true_iff.1 (List.mem_filter.1 h).2).2

/-- One unit's part in a Seam trigger. -/
def Dev.seamTrig (ch t : Nat) (d : Dev) (u : Nat) : Dev :=
  (d.slotsOf u 4).foldl (fun d k => if bitsOf (d.slotP0 u k) 0 4 == ch then d.acqOrigin u k t (d.tickAt t) false else d) d

theorem Dev.acqSeam_eq (d : Dev) (ch t : Nat) : d.acqSeam false ch t = (List.range 16).foldl (Dev.seamTrig ch t) d := rfl

theorem Dev.AcqKept.seamTrig {v : Nat} (d : Dev) (ch n : Nat) (hv : v ≠ u) : Dev.AcqKept u d (d.seamTrig ch n v) := by
  refine .foldl _ d fun b k _ => ?_
  split
  · exact .acqCond b k n _ hv
  · exact .refl u b

/-- A trigger meets the SEAM slot that names its channel (R264). -/
theorem Dev.acqSeam_meets {ch n k : Nat} (hu : u < 16) (hslot : d.slotsOf u 4 = [k]) (hch : bitsOf (d.slotP0 u k) 0 4 = ch)
    (hs : d.rg .ACQ_STAT_STATE u ≠ 0) (hsince : ((d.acq u).since : Rat) ≤ d.tickAt n)
    (hdec : (d.acq u).decided < d.grainClose u (d.tickAt n))
    (hdue : (d.tick : Rat) ≤ d.grainClose u (d.tickAt n) + (d.acq u).delay * 4000) :
    ((d.acqSeam false ch n).acq u).conds = (d.acq u).conds ++ [⟨k, n, d.tickAt n⟩] ∧
      (d.acqSeam false ch n).seamQ = d.seamQ := by
  obtain ⟨l, r, hl, hr, hrange⟩ : ∃ l r, u ∉ l ∧ u ∉ r ∧ List.range 16 = l ++ u :: r := by
    obtain ⟨l, r, h⟩ := List.append_of_mem (List.mem_range.2 hu)
    have hnodup : (l ++ u :: r).Nodup := h ▸ List.nodup_range
    rw [List.nodup_middle, List.nodup_cons, List.mem_append, not_or] at hnodup
    exact ⟨l, r, hnodup.1.1, hnodup.1.2, h⟩
  have hother : ∀ (as : List Nat) (x : Dev), u ∉ as → Dev.AcqKept u x (as.foldl (Dev.seamTrig ch n) x) :=
    fun as x hu => .foldl as x fun b v hv => .seamTrig b ch n fun h => hu (h ▸ hv)
  have hbefore := hother l d hl
  set c := l.foldl (Dev.seamTrig ch n) d with hc
  have hmet : c.seamTrig ch n u = c.setAcq u { d.acq u with conds := (d.acq u).conds ++ [⟨k, n, d.tickAt n⟩] } := by
    have hused : c.slotUsed u k = true := Dev.slotUsed_of_mem (ty := 4) (by simp [hbefore.slotsOf, hslot])
    have hcond := Dev.acqCond_waits (d := c) (u := u) (k := k) (n := n) (tk := c.tickAt n)
      (by rwa [hbefore.writes.rg _ _ (by decide)]) hused
      (by rwa [hbefore.acq, hbefore.tickAt]) (by rwa [hbefore.acq, hbefore.tickAt, hbefore.grainClose])
      (by rwa [hbefore.acq, hbefore.tickAt, hbefore.grainClose, hbefore.writes.tick])
    rw [hbefore.acq, hbefore.tickAt] at hcond
    simp [Dev.seamTrig, hbefore.slotsOf, hslot, hbefore.slotP0, hch, Dev.acqOrigin, hbefore.tickAt, hcond]
  have hafter := hother r (c.setAcq u { d.acq u with conds := (d.acq u).conds ++ [⟨k, n, d.tickAt n⟩] }) hr
  rw [Dev.acqSeam_eq, hrange, List.foldl_append, List.foldl_cons, ← hc, hmet, hafter.acq, hafter.seamQ, Dev.acq_setAcq_self]
  exact ⟨rfl, hbefore.seamQ⟩

/-- A trigger of the present generation meets its slot at its origin time (R264). -/
theorem Dev.SeamNew.trigGet {hops ch at_ gen k : Nat} (h : d.SeamNew p (.trig pos hops ch at_ gen)) (hg : gen = d.time.gen)
    (hu : u < 16) (hslot : d.slotsOf u 4 = [k]) (hch : bitsOf (d.slotP0 u k) 0 4 = ch) (hs : d.rg .ACQ_STAT_STATE u ≠ 0)
    (hsince : ((d.acq u).since : Rat) ≤ d.tickAt at_) (hdec : (d.acq u).decided < d.grainClose u (d.tickAt at_))
    (hdue : (d.tick : Rat) ≤ d.grainClose u (d.tickAt at_) + (d.acq u).delay * 4000) :
    d.Passed p (.trig pos hops ch at_ gen) (d.trigGet p pos hops ch at_ gen).seamQ ∧
      ((d.trigGet p pos hops ch at_ gen).acq u).conds = (d.acq u).conds ++ [⟨k, at_, d.tickAt at_⟩] := by
  obtain ⟨a, q, n, hin, hpass⟩ := h.seamIn pos
  set c : Dev := { d with heard := a, seamQ := q, seen := n } with hc
  have hget : d.trigGet p pos hops ch at_ gen = c.acqSeam false ch at_ := by
    have hgen : ¬(gen ≠ c.time.gen ∧ gen = c.rg .TIME_RB_DFR_FROMGEN 0) := fun hn => hn.1 hg
    unfold Dev.trigGet
    rw [hin]
    dsimp only
    rw [if_neg hgen]
    rfl
  obtain ⟨hconds, hq⟩ := Dev.acqSeam_meets (d := c) hu hslot hch hs hsince hdec hdue
  rw [hget, hq]
  exact ⟨hpass, hconds⟩

/-! ## Time -/

/-- The measured offset, the server followed and the queues of the Seam are as before. -/
structure Dev.OffsKept (d t : Dev) : Prop where
  offs   : t.rg .TIME_OFFS_OFFS 0 = d.rg .TIME_OFFS_OFFS 0
  server : t.time.server = d.time.server
  seamQ  : t.seamQ = d.seamQ

namespace Dev.OffsKept

theorem refl (d : Dev) : Dev.OffsKept d d := ⟨rfl, rfl, rfl⟩

theorem trans (h : Dev.OffsKept d t) (h' : Dev.OffsKept t b) : Dev.OffsKept d b :=
  ⟨h'.offs.trans h.offs, h'.server.trans h.server, h'.seamQ.trans h.seamQ⟩

theorem foldl {α : Type} {g : Dev → α → Dev} (as : List α) (d : Dev) (hg : ∀ b a, Dev.OffsKept b (g b a)) :
    Dev.OffsKept d (as.foldl g d) := by
  induction as generalizing d with
  | nil => exact refl d
  | cons a as ih => exact (hg d a).trans (ih _)

theorem setKey (d : Dev) {k : RegKey} (v : Nat) (hk : k.f ≠ .TIME_OFFS_OFFS) : Dev.OffsKept d (d.setKey k v) :=
  ⟨Dev.key_setKey_ne d v fun h => hk (h ▸ rfl), rfl, rfl⟩

theorem sti {f : Field} (d : Dev) (x i v : Nat) (hf : f ≠ .TIME_OFFS_OFFS) : Dev.OffsKept d (d.sti f x i v) := setKey d v hf

theorem st {f : Field} (d : Dev) (x v : Nat) (hf : f ≠ .TIME_OFFS_OFFS) : Dev.OffsKept d (d.st f x v) := setKey d v hf

theorem modTime (d : Dev) {g : Time → Time} (hg : ∀ x, (g x).server = x.server) : Dev.OffsKept d (d.modTime g) := by
  obtain ⟨p, ht⟩ := Dev.modTime_time d g
  exact ⟨rfl, by rw [ht]; exact hg _, rfl⟩

theorem advanceTo (d : Dev) (k : Nat) : Dev.OffsKept d (d.advanceTo k) := by
  obtain ⟨u, w, n, ht⟩ := Dev.advanceTo_time d k
  exact ⟨Dev.advanceTo_rg .., by rw [ht], Dev.advanceTo_seamQ ..⟩

theorem irq (d : Dev) (v : Nat) : Dev.OffsKept d (d.irq v) :=
  ⟨(Dev.irq_writes d v).rg _ _ (by decide), by rw [Dev.irq_time], Dev.irq_seamQ ..⟩

theorem logEv (d : Dev) (x k u p : Nat) : Dev.OffsKept d (d.logEv x k u p) :=
  ⟨(Dev.logEv_writes d x k u p).rg _ _ (by decide), by rw [Dev.logEv_time], Dev.logEv_seamQ ..⟩

theorem ready (d : Dev) (v : Nat) : Dev.OffsKept d (d.ready .HOST_READY_TIMESET v) := by
  unfold Dev.ready
  split
  · exact .refl d
  · exact (st d _ _ (by decide)).trans (.irq _ _)

theorem carryWait (d : Dev) (e w : Nat) (x : Int) : Dev.OffsKept d (d.carryWait e w x) := by
  unfold Dev.carryWait
  dsimp only
  split
  · have hfirst : Dev.OffsKept d (if d.prog e 0 = 0 then d else d.setProg e 0 (carryNs (d.prog e 0) x)) := by
      split
      · exact .refl d
      · exact .sti d _ _ _ (by decide)
    split
    · exact hfirst.trans (.sti _ _ _ _ (by decide))
    · exact hfirst
  · exact .refl d

theorem carryWaits (d : Dev) (x : Int) : Dev.OffsKept d (d.carryWaits x) := by
  refine foldl _ d fun b e => ?_
  split
  · exact .refl b
  · exact .carryWait ..

theorem carryAcq (d : Dev) (x : Int) : Dev.OffsKept d (d.carryAcq x) :=
  (foldl _ d fun b u => (⟨rfl, rfl, rfl⟩ : Dev.OffsKept b (b.modAcq u (·.carry x)))).trans ⟨rfl, rfl, rfl⟩

theorem carrySews (d : Dev) (x : Int) : Dev.OffsKept d (d.carrySews x) := ⟨rfl, rfl, rfl⟩

theorem carryMsgs (d : Dev) (x : Int) : Dev.OffsKept d (d.carryMsgs x) := ⟨rfl, rfl, rfl⟩

theorem carryDebts (d : Dev) (x : Int) : Dev.OffsKept d (d.carryDebts x) := ⟨rfl, rfl, rfl⟩

/-- What a re-base moves leaves the offset as measured (R321). -/
theorem rebaseTo (d : Dev) (v : Int) (gen k : Nat) : Dev.OffsKept d (d.rebaseTo v gen k) := by
  have hmoved : ∀ b x, Dev.OffsKept b (((((b.carryWaits x).carryAcq x).carrySews x).carryMsgs x).carryDebts x) := fun b x =>
    (carryWaits b x).trans ((carryAcq _ x).trans ((carrySews _ x).trans ((carryMsgs _ x).trans (carryDebts _ x))))
  unfold Dev.rebaseTo
  dsimp only
  refine .trans ?_ ((irq _ _).trans (logEv ..))
  refine .trans (.trans ?_ (hmoved ..)) (st _ _ _ (by decide))
  refine .trans (.trans (.trans ?_ (st _ _ _ (by decide))) (st _ _ _ (by decide))) (st _ _ _ (by decide))
  exact (advanceTo d _).trans (modTime _ fun _ => rfl)

theorem servo (d : Dev) (k : Nat) (off : Int) :
    Dev.OffsKept (d.st .TIME_OFFS_OFFS 0 (unsigned 64 off)) (d.servo k off) := by
  unfold Dev.servo
  dsimp only
  split
  · exact .refl _
  · split
    · exact .modTime _ fun _ => rfl
    · refine .trans ?_ (st _ _ _ (by decide))
      refine .trans (t := { d.st .TIME_OFFS_OFFS 0 (unsigned 64 off) with free := d.free + 1 }) ⟨rfl, rfl, rfl⟩ ?_
      exact modTime _ fun _ => rfl

end Dev.OffsKept

/-- What a device does with the offset of the Seam server that it follows (R317, R320). -/
def Dev.seamOffset (d : Dev) (gen : Nat) (off : Int) : Dev :=
  if d.time.refLost then d.st .TIME_OFFS_OFFS 0 (unsigned 64 off)
  else if d.quality = 4 ∨ d.time.gen ≠ gen then
    let d := (d.st .TIME_OFFS_OFFS 0 (unsigned 64 off)).advanceTo (d.tick / cyc * cyc + cyc)
    d.rebaseTo (d.time.frac d.tick + off) gen 2
  else d.servo 2 off

theorem Dev.seamOffset_kept (d : Dev) (gen : Nat) (off : Int) :
    Dev.OffsKept (d.st .TIME_OFFS_OFFS 0 (unsigned 64 off)) (d.seamOffset gen off) := by
  unfold Dev.seamOffset
  split
  · exact .refl _
  · split
    · exact (Dev.OffsKept.advanceTo _ _).trans (.rebaseTo _ _ _ _)
    · exact .servo d 2 off

/-- A server of whose kind none was followed is taken up, after its conflict with this device's own service is told. -/
theorem Dev.seamTime_first {srv gen : Nat} {now : Int} (hsrc : d.rg .TIME_CTRL_SRC 0 = 2) (hnone : d.time.server = none) :
    ∃ c : Dev, Dev.Announces (.TIME_STAT_SERVECONF :: reportFields) d c ∧ c.seamQ = d.seamQ ∧
      d.seamTime srv gen now =
        (c.modTime (fun t => { t with server := some srv, lastMsg := c.tick })).seamOffset gen (now - d.nowFrac) := by
  set c := if d.on .TIME_CTRL_SERVE 0 && srv != d.rg .TIME_DEVNUM_NUM 0 then (d.st .TIME_STAT_SERVECONF 0 1).irq 198 else d
    with hc
  have hann : Dev.Announces (.TIME_STAT_SERVECONF :: reportFields) d c ∧ c.seamQ = d.seamQ := by
    rw [hc]
    split
    · refine ⟨?_, Dev.irq_seamQ ..⟩
      exact Dev.Announces.trans (t := d.st .TIME_STAT_SERVECONF 0 1) ⟨.st d 0 1 (by decide), rfl, rfl⟩
        (Dev.irq_announces _ 198 _)
    · exact ⟨.refl _ d, rfl⟩
  obtain ⟨hann, hq⟩ := hann
  have hcsrc : c.rg .TIME_CTRL_SRC 0 = 2 := (hann.writes.rg _ _ (by decide)).trans hsrc
  have hcnone : c.time.server = none := by rw [hann.time, hnone]
  have hfrac : (c.modTime (fun t => { t with server := some srv, lastMsg := c.tick })).nowFrac = d.nowFrac := by
    obtain ⟨p, ht⟩ := Dev.modTime_time c (fun t => { t with server := some srv, lastMsg := c.tick })
    rw [Dev.nowFrac, Dev.nowFrac, ht, Dev.modTime_tick, hann.writes.tick, hann.time]
    rfl
  refine ⟨c, hann, hq, ?_⟩
  rw [← hfrac]
  unfold Dev.seamTime
  simp only [hnone, Bool.or_false, ← hc, hcsrc, hcnone, beq_self_eq_true, Bool.and_true, if_true, Bool.not_true,
    Bool.false_eq_true, if_false]
  unfold Dev.seamOffset
  rfl

theorem unsigned_mod (w : Nat) (i : Int) : unsigned w i % 2 ^ w = unsigned w i := by
  refine Nat.mod_eq_of_lt ?_
  have hpos : (0 : Int) < (2 ^ w : Nat) := by positivity
  have hlt := Int.emod_lt_of_pos i hpos
  have hnn := Int.emod_nonneg i hpos.ne'
  unfold unsigned
  omega

/-- A TIME message of the first server heard measures the offset (R317). -/
theorem Dev.SeamNew.timeGet {hops srv coarse ns gen qual corr : Nat} (hsrc : d.rg .TIME_CTRL_SRC 0 = 2)
    (hnone : d.time.server = none)
    (h : d.SeamNew p (.time pos hops srv coarse ns gen qual (corr + d.rg .LNK_SP_LAT_LAT p))) :
    d.Passed p (.time pos hops srv coarse ns gen qual (corr + d.rg .LNK_SP_LAT_LAT p))
        (d.timeGet p pos hops srv coarse ns gen qual corr).seamQ ∧
      (d.timeGet p pos hops srv coarse ns gen qual corr).time.server = some srv ∧
      (d.timeGet p pos hops srv coarse ns gen qual corr).rg .TIME_OFFS_OFFS 0 =
        unsigned 64 (((ns : Int) + (corr + d.rg .LNK_SP_LAT_LAT p : Nat) * 256) - d.nowFrac) := by
  obtain ⟨a, q, n, hin, hpass⟩ := h.seamIn pos
  set c : Dev := { d with heard := a, seamQ := q, seen := n } with hc
  obtain ⟨b, hann, hq, htime⟩ := Dev.seamTime_first (d := c) (srv := srv) (gen := gen)
    (now := (ns : Int) + (corr + d.rg .LNK_SP_LAT_LAT p : Nat) * 256) hsrc hnone
  have hget : d.timeGet p pos hops srv coarse ns gen qual corr = c.seamTime srv gen ((ns : Int) +
      (corr + d.rg .LNK_SP_LAT_LAT p : Nat) * 256) := by
    unfold Dev.timeGet
    dsimp only
    rw [hin]
    rfl
  have hkept := Dev.seamOffset_kept (b.modTime (fun t => { t with server := some srv, lastMsg := b.tick })) gen
    ((ns : Int) + (corr + d.rg .LNK_SP_LAT_LAT p : Nat) * 256 - c.nowFrac)
  obtain ⟨o, ho⟩ := Dev.modTime_time b (fun t => { t with server := some srv, lastMsg := b.tick })
  rw [hget, htime, hkept.seamQ, hkept.server, hkept.offs]
  refine ⟨?_, ?_, ?_⟩
  · change d.Passed p _ b.seamQ
    rw [hq]
    exact hpass
  · change (b.modTime _).time.server = _
    rw [ho]
  · exact (Dev.rg_st_self ..).trans (unsigned_mod 64 _)

/-- What follows a change of device time leaves the offset, the server and the queues (R309). -/
theorem Dev.timeStep_offsKept (d : Dev) (g : Dev → Dev) : Dev.OffsKept (g d) (d.timeStep g) := by
  unfold Dev.timeStep
  dsimp only
  split
  · exact .ready _ _
  · exact (Dev.OffsKept.ready _ _).trans ((Dev.OffsKept.irq _ _).trans (.logEv _ _ _ _ _))

/-! ## Tie flags and events that take effect -/

/-- What an event raised on one engine leaves alone. -/
theorem Dev.raiseOne_writes (d : Dev) (e k n : Nat) : Dev.WritesOnly [.ENG_EV_PEND_PEND] d (d.raiseOne e k n) := by
  unfold Dev.raiseOne
  split
  · exact (Dev.WritesOnly.st d e _ (by decide)).trans (.of_eqs rfl rfl)
  · exact .refl _ d

theorem Dev.raiseOne_tieIn (d : Dev) (e k n : Nat) : (d.raiseOne e k n).tieIn = d.tieIn := by
  unfold Dev.raiseOne
  split
  · rfl
  · rfl

/-- HOST pending on an engine stays pending when it is raised on any. -/
theorem Dev.raiseOne_keeps_host {e : Nat} (x n : Nat) (h : (d.rg .ENG_EV_PEND_PEND e).testBit 0 = true) :
    ((d.raiseOne x 0 n).rg .ENG_EV_PEND_PEND e).testBit 0 = true := by
  unfold Dev.raiseOne
  split
  · by_cases hx : x = e
    · subst hx
      refine (congrArg (Nat.testBit · 0) (Dev.rg_st_self d ..)).trans ?_
      simp [Field.info]
    · exact (congrArg (Nat.testBit · 0) (Dev.key_setKey_ne d (k := ⟨.ENG_EV_PEND_PEND, x, 0⟩) _ fun hk =>
        hx (RegKey.mk.inj hk).2.1)).trans h
  · exact h

/-- HOST raised on a running engine is pending. -/
theorem Dev.raiseOne_sets_host {e : Nat} (n : Nat) (h : d.runs e = true) :
    ((d.raiseOne e 0 n).rg .ENG_EV_PEND_PEND e).testBit 0 = true := by
  unfold Dev.raiseOne
  rw [if_pos h]
  refine (congrArg (Nat.testBit · 0) (Dev.rg_st_self d ..)).trans ?_
  simp [Field.info]

/-- Raise HOST, takeable now, on the engines of a list. -/
def Dev.raiseHost (d : Dev) (l : List Nat) : Dev := l.foldl (fun d x => d.raiseOne x 0 d.tick) d

theorem Dev.raiseHost_writes (d : Dev) (l : List Nat) : Dev.WritesOnly [.ENG_EV_PEND_PEND] d (d.raiseHost l) :=
  .foldl (fun b x => Dev.raiseOne_writes b x 0 b.tick) l d

theorem Dev.raiseHost_tieIn (l : List Nat) (d : Dev) : (d.raiseHost l).tieIn = d.tieIn := by
  induction l generalizing d with
  | nil => rfl
  | cons x l ih => exact (ih _).trans (Dev.raiseOne_tieIn ..)

/-- HOST raised on the engines of a list is pending on each that runs. -/
theorem Dev.raiseHost_pending {e : Nat} : ∀ (l : List Nat) (d : Dev), d.runs e = true →
    (e ∈ l ∨ (d.rg .ENG_EV_PEND_PEND e).testBit 0 = true) → ((d.raiseHost l).rg .ENG_EV_PEND_PEND e).testBit 0 = true
  | [], _, _, h => h.resolve_left List.not_mem_nil
  | x :: l, d, hr, h => by
    have hr' : (d.raiseOne x 0 d.tick).runs e = true :=
      (Dev.runs_congr ((Dev.raiseOne_writes d x 0 d.tick).rg _ _ (by decide))).trans hr
    refine Dev.raiseHost_pending l _ hr' ?_
    obtain h | h := h
    · obtain rfl | h := List.mem_cons.1 h
      · exact .inr (Dev.raiseOne_sets_host d.tick hr)
      · exact .inl h
    · exact .inr (Dev.raiseOne_keeps_host x d.tick h)

section
variable {t0 g hops beat : Nat} (mem : List Host.Cell)

/-- The device at the instant of the one message that waits, which no longer waits. -/
def Dev.tieAt (d : Dev) (t0 : Nat) : Dev := Dev.advanceTo { d with tieIn := [] } t0

theorem Dev.tieApply_evt {cycle k a : Nat} (h : d.tieIn = [(t0, .tieEvt pos hops g beat cycle k a)]) :
    d.tieApply mem = (d.tieAt t0).tieEvent pos g k a := by
  unfold Dev.tieApply
  simp [h, Dev.tieAt]

theorem Dev.tieApply_tie {f ma pc per : Nat} (h : d.tieIn = [(t0, .tie pos hops g beat f ma pc per)]) {b : Dev}
    (hb : (d.tieAt t0).tieFlags mem pos g f ma pc per = b) : ∃ l, d.tieApply mem = { b with tieIn := l } := by
  have happ : d.tieApply mem =
      if (b.beatAt t0).2 == 15 then b else { b with tieIn := b.tieIn ++ [(t0 + cyc, .tie pos hops g beat f ma pc per)] } := by
    unfold Dev.tieApply
    simp only [h, List.foldl_nil, List.filter_cons, List.filter_nil, beq_self_eq_true, bne_self_eq_false, if_true,
      Bool.false_eq_true, if_false, List.foldl_cons, ← hb]
    rfl
  rw [happ]
  split
  · exact ⟨_, rfl⟩
  · exact ⟨_, rfl⟩

/-- Where no burst of the group runs, a change of the flags becomes visible 40 cycles later (R67). -/
theorem Dev.tieFlags_change {f ma pc per : Nat} (hfar : d.far = [⟨g, pos, 0, false, false⟩]) (hq : d.farQ = [])
    (hrun : d.tieRunning g = []) (hf : bitOf f (d.beatAt d.tick).2 = true) : d.tieFlags mem pos g f ma pc per =
      { d with farQ := [⟨g, pos, d.tick + 160000, true, bitOf ma (d.beatAt d.tick).2⟩] } := by
  have hnone : ∀ q, Dev.tieRunning { d with farQ := q } g = [] := fun _ => hrun
  have hnow : ((([] : List FarFlag).filter (fun x => x.grp == g && x.pos == pos)).reverse ++
      d.far.filter (fun x => x.grp == g && x.pos == pos)).head? = some ⟨g, pos, 0, false, false⟩ := by simp [hfar]
  have hdiff : (false == true) = false := rfl
  unfold Dev.tieFlags
  simp only [hf, hq, hnow, Option.any_some, hdiff, Bool.false_and, Bool.false_eq_true, if_false, List.nil_append, hnone,
    ite_self]
  rfl

/-- Tie flags change at their instant where the member elsewhere had neither (R67, R353). -/
theorem Dev.tieApply_flags {f ma pc per : Nat} (h : d.tieIn = [(t0, .tie pos hops g beat f ma pc per)]) (ht : d.tick ≤ t0)
    (hfar : d.far = [⟨g, pos, 0, false, false⟩]) (hq : d.farQ = []) (hrun : d.tieRunning g = [])
    (hf : bitOf f (d.beatAt t0).2 = true) :
    (d.tieApply mem).farQ = [⟨g, pos, t0 + 160000, true, bitOf ma (d.beatAt t0).2⟩] ∧ (d.tieApply mem).tick = t0 := by
  have htick : (d.tieAt t0).tick = t0 := (Dev.advanceTo_tick ..).trans (max_eq_right ht)
  have hbeat : (d.tieAt t0).beatAt t0 = d.beatAt t0 := by
    obtain ⟨u, w, n, htime⟩ := Dev.advanceTo_time { d with tieIn := [] } t0
    rw [Dev.tieAt, Dev.beatAt, Dev.beatAt, Dev.coarseAt, Dev.coarseAt, htime]
  have hnone : (d.tieAt t0).tieRunning g = [] := by
    rw [← hrun, Dev.tieRunning, Dev.tieAt]
    simp only [Dev.advanceTo_tied, Dev.advanceTo_grp, Dev.advanceTo_runs]
    rfl
  have hflags := Dev.tieFlags_change (d := d.tieAt t0) mem (ma := ma) (pc := pc) (per := per)
    ((Dev.advanceTo_far ..).trans hfar) ((Dev.advanceTo_farQ ..).trans hq) hnone (by rwa [htick, hbeat])
  obtain ⟨l, happ⟩ := Dev.tieApply_tie mem h hflags
  rw [happ, htick, hbeat]
  exact ⟨rfl, rfl⟩

/-- A HOST event of a member elsewhere is pending on the running members here (R193, R353). -/
theorem Dev.tieApply_host {e cycle : Nat} (h : d.tieIn = [(t0, .tieEvt pos hops g beat cycle 3 0)]) (he : e < 128)
    (ht : d.tied e = true) (hg : d.grp e = g) (hr : d.runs e = true) :
    (d.tieApply mem).tieIn = [] ∧ (d.tieApply mem).tick = max d.tick t0 ∧
      ((d.tieApply mem).rg .ENG_EV_PEND_PEND e).testBit 0 = true := by
  rw [Dev.tieApply_evt mem h]
  set b := d.tieAt t0 with hb
  have hin : b.tieIn = [] := Dev.advanceTo_tieIn ..
  have htick : b.tick = max d.tick t0 := Dev.advanceTo_tick ..
  have hrun : b.runs e = true := (Dev.advanceTo_runs ..).trans hr
  have hmem : e ∈ (List.range 128).filter (fun x => b.tied x && b.grp x == g) := by
    rw [List.mem_filter, List.mem_range, hb, Dev.tieAt, Dev.advanceTo_tied, Dev.advanceTo_grp]
    exact ⟨he, Bool.and_eq_true_iff.2 ⟨ht, beq_iff_eq.2 hg⟩⟩
  have hev : b.tieEvent pos g 3 0 = b.raiseHost ((List.range 128).filter (fun x => b.tied x && b.grp x == g)) := rfl
  rw [hev, Dev.raiseHost_tieIn, (Dev.raiseHost_writes ..).tick]
  exact ⟨hin, htick, Dev.raiseHost_pending _ b hrun (.inl hmem)⟩

end

/-! ## The commands -/

section
variable {s : State} {h : SeamHead} {g : GrpId} {beat : Fin 64}

theorem Dev.Passed.to_ports {m : SeamMsg} {q : AMap Nat (List (Nat × SeamMsg))} (hp : s.dev.Passed h.port m q) (hm : m.hops = h.hops)
    (hh : h.hops.val < 4) (p : PortId) (hne : p ≠ h.port) (hf : s.dev.rg .LNK_SP_STAT_STATE p = 2) :
    (s.dev.tick, m.further) ∈ (q.get? p).getD [] :=
  hp (hm ▸ hh) p p.isLt (fun he => hne (Fin.ext he)) hf

theorem completes_seamTieReceive {fail mat pc : BitVec 16} {per : BitVec 40}
    (hn : s.dev.SeamNew h.port (.tie h.pos h.hops g beat fail.toNat mat.toNat pc.toNat per.toNat))
    (hdue : s.dev.tick ≤ s.dev.beatTick beat + 640000) : Completes (.seamTieReceive h g beat fail mat pc per) s (fun t =>
      (h.hops.val < 4 → ∀ p : PortId, p ≠ h.port → s.dev.rg .LNK_SP_STAT_STATE p = 2 →
        (s.dev.tick, (SeamMsg.tie h.pos h.hops g beat fail.toNat mat.toNat pc.toNat per.toNat).further) ∈
          (t.dev.seamQ.get? p).getD []) ∧
      (s.dev.beatTick beat + 640000, .tie h.pos h.hops g beat fail.toNat mat.toNat pc.toNat per.toNat) ∈ t.dev.tieIn ∧
      (g.val, h.pos.val, beat.val, s.dev.tick) ∈ t.dev.tieGot ∧ t.dev.regs = s.dev.regs) := by
  obtain ⟨a, q, n, fr, l, hget, hpass, hl⟩ := hn.tieGet hdue
  refine Completes.onDev rfl ?_
  dsimp only
  rw [hget]
  exact ⟨hpass.to_ports rfl, List.mem_append_right _ (List.mem_singleton_self _), hl, rfl⟩

theorem completes_seamTieEvtReceive {cycle : Fin 16} {k : TieKind}
    (hn : s.dev.SeamNew h.port (.tieEvt h.pos h.hops g beat cycle k.code k.arg))
    (hdue : s.dev.tick ≤ s.dev.beatTick beat + 640000 + cycle * 4000) :
    Completes (.seamTieEvtReceive h g beat cycle k) s (fun t =>
      (h.hops.val < 4 → ∀ p : PortId, p ≠ h.port → s.dev.rg .LNK_SP_STAT_STATE p = 2 →
        (s.dev.tick, (SeamMsg.tieEvt h.pos h.hops g beat cycle k.code k.arg).further) ∈ (t.dev.seamQ.get? p).getD []) ∧
      (s.dev.beatTick beat + 640000 + cycle * 4000, .tieEvt h.pos h.hops g beat cycle k.code k.arg) ∈ t.dev.tieIn ∧
      t.dev.regs = s.dev.regs) := by
  obtain ⟨a, q, n, fr, hget, hpass⟩ := hn.tieEvtGet hdue
  refine Completes.onDev rfl ?_
  dsimp only
  rw [hget]
  exact ⟨hpass.to_ports rfl, List.mem_append_right _ (List.mem_singleton_self _), rfl⟩

theorem completes_seamTrigReceive {u : AcqId} {n : Nat} {ch : Fin 16} {at_ : BitVec 80} {gen : Byte}
    (hn : s.dev.SeamNew h.port (.trig h.pos h.hops ch at_.toNat gen.toNat)) (hg : gen.toNat = s.dev.time.gen)
    (hslot : s.dev.slotsOf u 4 = [n]) (hch : bitsOf (s.dev.slotP0 u n) 0 4 = ch) (hs : s.dev.rg .ACQ_STAT_STATE u ≠ 0)
    (hsince : ((s.dev.acq u).since : Rat) ≤ s.dev.tickAt at_.toNat)
    (hdec : (s.dev.acq u).decided < s.dev.grainClose u (s.dev.tickAt at_.toNat))
    (hdue : (s.dev.tick : Rat) ≤ s.dev.grainClose u (s.dev.tickAt at_.toNat) + (s.dev.acq u).delay * 4000) :
    Completes (.seamTrigReceive h ch at_ gen) s (fun t =>
      (h.hops.val < 4 → ∀ p : PortId, p ≠ h.port → s.dev.rg .LNK_SP_STAT_STATE p = 2 →
        (s.dev.tick, (SeamMsg.trig h.pos h.hops ch at_.toNat gen.toNat).further) ∈ (t.dev.seamQ.get? p).getD []) ∧
      (t.dev.acq u).conds = (s.dev.acq u).conds ++ [⟨n, at_.toNat, s.dev.tickAt at_.toNat⟩]) := by
  obtain ⟨hpass, hconds⟩ := hn.trigGet hg u.isLt hslot hch hs hsince hdec hdue
  refine Completes.onDev rfl ?_
  dsimp only
  exact ⟨hpass.to_ports rfl, hconds⟩

theorem completes_seamSewReceive {tag : Byte} {veto : Bool} {low : BitVec 36}
    (hn : s.dev.SeamNew h.port (.sew h.pos h.hops tag.toNat veto low.toNat)) :
    Completes (.seamSewReceive h tag veto low) s (fun t =>
      (h.hops.val < 4 → ∀ p : PortId, p ≠ h.port → s.dev.rg .LNK_SP_STAT_STATE p = 2 →
        (s.dev.tick, (SeamMsg.sew h.pos h.hops tag.toNat veto low.toNat).further) ∈ (t.dev.seamQ.get? p).getD []) ∧
      ⟨tag.toNat, h.pos, veto, s.dev.nearNs low.toNat⟩ ∈ t.dev.sewMsg ∧ t.dev.regs = s.dev.regs) := by
  obtain ⟨a, q, n, l, hget, hpass, hl⟩ := hn.sewGet
  refine Completes.onDev rfl ?_
  dsimp only
  rw [hget]
  exact ⟨hpass.to_ports rfl, hl, rfl⟩

theorem completes_seamTimeReceive {srv : BitVec 10} {coarse : Nat} {at_ : BitVec 80} {gen : Byte} {q : BitVec 4}
    {corr : BitVec 32} (hn : s.dev.SeamNew h.port (.time h.pos h.hops srv.toNat coarse at_.toNat gen.toNat q.toNat
      (corr.toNat + s.dev.rg .LNK_SP_LAT_LAT h.port))) (hsrc : s.dev.rg .TIME_CTRL_SRC 0 = 2)
    (hnone : s.dev.time.server = none) : Completes (.seamTimeReceive h srv coarse at_ gen q corr) s (fun t =>
      (h.hops.val < 4 → ∀ p : PortId, p ≠ h.port → s.dev.rg .LNK_SP_STAT_STATE p = 2 →
        (s.dev.tick, (SeamMsg.time h.pos h.hops srv.toNat coarse at_.toNat gen.toNat q.toNat
          (corr.toNat + s.dev.rg .LNK_SP_LAT_LAT h.port)).further) ∈ (t.dev.seamQ.get? p).getD []) ∧
      t.dev.time.server = some srv.toNat ∧ t.dev.rg .TIME_OFFS_OFFS 0 = unsigned 64
        ((at_.toNat : Int) + (corr.toNat + s.dev.rg .LNK_SP_LAT_LAT h.port) * 256 - s.dev.nowFrac)) := by
  obtain ⟨hpass, hserver, hoffs⟩ := Dev.SeamNew.timeGet hsrc hnone hn
  have hkept := Dev.timeStep_offsKept s.dev
    (·.timeGet h.port h.pos h.hops srv.toNat coarse at_.toNat gen.toNat q.toNat corr.toNat)
  refine Completes.onDev rfl ?_
  dsimp only
  rw [hkept.seamQ, hkept.server, hkept.offs]
  exact ⟨hpass.to_ports rfl, hserver, by rw [hoffs]; push_cast; rfl⟩

/-- Where the Seam is off nothing arrives. -/
theorem exec_seamSewReceive_off {tag : Byte} {veto : Bool} {low : BitVec 36} (hoff : s.dev.domOn 28 = false) :
    exec (.seamSewReceive h tag veto low) s = .next s := by
  have hin : s.dev.seamIn h.port h.pos (.sew h.pos h.hops tag.toNat veto low.toNat) = (false, s.dev) :=
    if_pos (by simp [domSeam, hoff])
  have hget : s.dev.sewGet h.port h.pos h.hops tag.toNat veto low.toNat = s.dev := by simp [Dev.sewGet, hin]
  change Host.Outcome.next { s with dev := s.dev.sewGet h.port h.pos h.hops tag.toNat veto low.toNat } = .next s
  rw [hget]

end

/-- Settles O42: a new message is seen and passed on, and then what its class does leaves the queues of the Seam alone. -/
theorem seamMessages : Obligations.SeamMessages := by
  unfold Obligations.SeamMessages
  intro s h g beat cycle fail mat pc per ch at_ tag gen veto low srv coarse q corr k
  refine ⟨?tie, ?evt, ?trig, ?sew, ?time, exec_seamSewReceive_off, ?host, ?flags⟩
  case tie =>
    intro ⟨hon, hfull, hnew⟩ hdue
    exact completes_seamTieReceive ⟨hon, hfull, hnew⟩ hdue
  case evt =>
    intro ⟨hon, hfull, hnew⟩ hdue
    exact completes_seamTieEvtReceive ⟨hon, hfull, hnew⟩ hdue
  case trig =>
    intro u n ⟨hon, hfull, hnew⟩ hg hslot hch hs hsince hdec hdue
    exact completes_seamTrigReceive ⟨hon, hfull, hnew⟩ hg hslot hch hs hsince hdec hdue
  case sew =>
    intro ⟨hon, hfull, hnew⟩
    exact completes_seamSewReceive ⟨hon, hfull, hnew⟩
  case time =>
    intro ⟨hon, hfull, hnew⟩ hsrc hnone
    exact completes_seamTimeReceive ⟨hon, hfull, hnew⟩ hsrc hnone
  case host =>
    intro t0 e hin ht hg hr
    exact Completes.onDev rfl (Dev.tieApply_host s.mem hin e.isLt ht hg hr)
  case flags =>
    intro t0 hle hin hfar hq hrun hf
    exact Completes.onDev rfl (Dev.tieApply_flags s.mem hin hle hfar hq hrun hf)

end Sys2Proof.Machine
end

section
/-!
What happens at the pins of a channel: edges, strobes, rows, comparators and the edge-measure clear (R41, R73, R88, R91, R140,
R147, R162).
-/

namespace Sys2Proof.Machine

variable {d t b : Dev} {c e : Nat}

@[simp] theorem Dev.modChan_chan_self (d : Dev) (c : Nat) (g : Chan → Chan) : (d.modChan c g).chan c = g (d.chan c) := by
  simp [Dev.modChan]

/-! ## Edges -/

/-- No edge to come on the pair of edge `p`, nor one that fell less than 200 ps ago, takes its place (R91). -/
theorem Dev.edgeYields_of_alone {p : PEdge} (hq : (d.eng p.eng).queue = []) (hfar : ∀ q ∈ (d.chan c).pend, p.t + 800 ≤ q.t)
    (hnear : (if p.act.pair = some true then (d.chan c).nearDrv else (d.chan c).nearDen) = []) : d.edgeYields c p = false := by
  have hcoming : d.comingEdges p.eng c p.t = (d.chan c).pend := by simp [Dev.comingEdges, hq]
  have hlater : ((d.chan c).pend.any fun q =>
      q.act.pair == p.act.pair && yields p.t p.gen p.vcnt q.t q.gen q.vcnt) = false := by
    rw [List.any_eq_false]
    intro q hqm
    have := hfar q hqm
    simp [yields, show ¬q.t < p.t + 800 by omega]
  unfold Dev.edgeYields
  dsimp only
  rw [hcoming, hlater, hnear]
  rfl

/-- An edge of a later row that comes within 200 ps on the pair takes the place of edge `p` (R91). -/
theorem Dev.edgeYields_of_next {p q : PEdge} {rest : List PEdge} (hq : (d.eng p.eng).queue = [])
    (hpend : (d.chan c).pend = q :: rest) (hpair : q.act.pair = p.act.pair) (hv : p.vcnt < q.vcnt)
    (hg : genOf p.gen ≠ genOf q.gen) (hle : p.t ≤ q.t) (hlt : q.t < p.t + 800) : d.edgeYields c p = true := by
  have hcoming : d.comingEdges p.eng c p.t = q :: rest := by simp [Dev.comingEdges, hq, hpend]
  have hy : yields p.t p.gen p.vcnt q.t q.gen q.vcnt = true := by
    simp [yields, hg, hlt, show p.t < q.t + 800 by omega, hv.ne, hv]
  simp [Dev.edgeYields, hcoming, hpair, hy]

/-- While no burst ends, the hem takes no edge's place and cuts none off (R93, R130). -/
theorem Dev.hemTakes_of_not_ending (h : (d.eng e).ending = none) (k : Nat) (isDrv level : Bool) :
    d.hemTakes e c k isDrv level = false := by
  simp [Dev.hemTakes, Dev.hemInstant, h]

theorem Dev.cutOff_of_not_ending (h : (d.eng e).ending = none) (k : Nat) : d.cutOff e k = false := by
  simp [Dev.cutOff, h]

/-- The device at the tick of the first pending edge of a channel, the edge taken out. -/
def Dev.atEdge (d : Dev) (c k : Nat) (rest : List PEdge) : Dev := (d.advanceTo k).modChan c (fun x => { x with pend := rest })

theorem Dev.atEdge_chan (d : Dev) (c k : Nat) (rest : List PEdge) :
    (d.atEdge c k rest).chan c = { d.chan c with pend := rest } := by
  rw [Dev.atEdge, Dev.modChan_chan_self, Dev.advanceTo_chan]

theorem Dev.atEdge_eng (d : Dev) (c k : Nat) (rest : List PEdge) (e : Nat) : (d.atEdge c k rest).eng e = d.eng e :=
  Dev.advanceTo_eng ..

theorem Dev.atEdge_key (d : Dev) (c k : Nat) (rest : List PEdge) (j : RegKey) : (d.atEdge c k rest).key j = d.key j :=
  Dev.advanceTo_key ..

theorem Dev.atEdge_tick (d : Dev) (c k : Nat) (rest : List PEdge) : (d.atEdge c k rest).tick = max d.tick k :=
  Dev.advanceTo_tick ..

/-- What an edge that sets the DRV or the DEN pair does. -/
def pairAct (isDrv v : Bool) : EdgeAct := if isDrv then .drv v else .den v

/-- A drive or enable edge that fires while no burst ends comes due on its pair. -/
theorem Dev.fire_pair {p : PEdge} {rest : List PEdge} {isDrv v : Bool} (hp : (d.chan c).pend = p :: rest)
    (ha : p.act = pairAct isDrv v) (hend : (d.eng p.eng).ending = none) :
    d.fire c = (d.atEdge c p.t rest).pairEdge c p isDrv v := by
  have hcut : ∀ k, (d.atEdge c p.t rest).cutOff p.eng k = false := Dev.cutOff_of_not_ending (by rw [Dev.atEdge_eng, hend])
  unfold Dev.fire
  rw [hp]
  simp only [← Dev.atEdge.eq_1, hcut, ha, Bool.false_eq_true, if_false]
  cases isDrv
  · rfl
  · rfl

/-- An edge that is produced sets its pair and no register but its channel's count, which stays. -/
theorem Dev.pairEdge_made {p : PEdge} {isDrv level : Bool} (hy : d.edgeYields c p = false)
    (hend : (d.eng p.eng).ending = none) :
    ((d.pairEdge c p isDrv level).chan c).drv = (if isDrv then level else (d.chan c).drv) ∧
      ((d.pairEdge c p isDrv level).chan c).den = (if isDrv then (d.chan c).den else level) ∧
      ((d.pairEdge c p isDrv level).chan c).pend = (d.chan c).pend ∧ (d.pairEdge c p isDrv level).tick = d.tick ∧
      ∀ j, j ≠ ⟨.PIN_EDGE_MERGE_COUNT, c, 0⟩ → (d.pairEdge c p isDrv level).key j = d.key j := by
  have hmade : (!d.edgeYields c p && !d.hemTakes p.eng c p.t isDrv level) = true := by
    rw [hy, Dev.hemTakes_of_not_ending hend]
    rfl
  have hkey : ∀ j, j ≠ ⟨.PIN_EDGE_MERGE_COUNT, c, 0⟩ → (d.pairEdge c p isDrv level).key j = d.key j := fun j hj => by
    unfold Dev.pairEdge
    dsimp only
    rw [hmade]
    exact Dev.key_setKey_ne _ _ hj.symm
  have hchan : (d.pairEdge c p isDrv level).chan c = if isDrv
      then { d.chan c with drv := level, nearDrv := ⟨p.t, p.gen, p.vcnt, true⟩ :: (d.chan c).nearDrv.filter (fun o => p.t < o.t + 800) }
      else { d.chan c with den := level, nearDen := ⟨p.t, p.gen, p.vcnt, true⟩ :: (d.chan c).nearDen.filter (fun o => p.t < o.t + 800) } := by
    unfold Dev.pairEdge
    dsimp only
    rw [hmade]
    exact Dev.chan_setChan_self ..
  have htick : (d.pairEdge c p isDrv level).tick = d.tick := by
    unfold Dev.pairEdge
    dsimp only
    rw [hmade]
    rfl
  rw [hchan, htick]
  cases isDrv
  · exact ⟨rfl, rfl, rfl, rfl, hkey⟩
  · exact ⟨rfl, rfl, rfl, rfl, hkey⟩

/-- An edge that gives way leaves its pair and counts (R91). -/
theorem Dev.pairEdge_yielded {p : PEdge} {level : Bool} (hy : d.edgeYields c p = true) :
    ((d.pairEdge c p true level).chan c).drv = (d.chan c).drv ∧ ((d.pairEdge c p true level).chan c).den = (d.chan c).den ∧
      ((d.pairEdge c p true level).chan c).pend = (d.chan c).pend ∧
      (d.pairEdge c p true level).rg .PIN_EDGE_MERGE_COUNT c = min (d.rg .PIN_EDGE_MERGE_COUNT c + 1) (2 ^ 32 - 1) := by
  obtain ⟨x, hdrv, hden, hpend, hpair⟩ : ∃ x : Chan, x.drv = (d.chan c).drv ∧ x.den = (d.chan c).den ∧
      x.pend = (d.chan c).pend ∧ d.pairEdge c p true level = (d.setChan c x).bump .PIN_EDGE_MERGE_COUNT c 1 := by
    refine ⟨{ d.chan c with
      nearDrv := ⟨p.t, p.gen, p.vcnt, false⟩ :: (d.chan c).nearDrv.filter (fun o => p.t < o.t + 800) }, rfl, rfl, rfl, ?_⟩
    unfold Dev.pairEdge
    simp [hy, b2n]
  have hchan : ((d.setChan c x).bump .PIN_EDGE_MERGE_COUNT c 1).chan c = x := Dev.chan_setChan_self ..
  rw [hpair, hchan, Dev.bump, Dev.rg_st_self]
  exact ⟨hdrv, hden, hpend, Nat.mod_eq_of_lt (Nat.lt_of_le_of_lt (min_le_right _ _) (by decide))⟩

/-- An edge with none near it on its pair sets the pair at its tick (R88, R91). -/
theorem Dev.fire_alone {p : PEdge} {rest : List PEdge} {isDrv v : Bool} (hp : (d.chan c).pend = p :: rest)
    (ha : p.act = pairAct isDrv v) (hn : (if isDrv then (d.chan c).nearDrv else (d.chan c).nearDen) = [])
    (hend : (d.eng p.eng).ending = none) (hq : (d.eng p.eng).queue = []) (hfar : ∀ q ∈ rest, p.t + 800 ≤ q.t) :
    ((d.fire c).chan c).drv = (if isDrv then v else (d.chan c).drv) ∧
      ((d.fire c).chan c).den = (if isDrv then (d.chan c).den else v) ∧ ((d.fire c).chan c).pend = rest ∧
      (d.fire c).tick = max d.tick p.t ∧ ∀ j, j ≠ ⟨.PIN_EDGE_MERGE_COUNT, c, 0⟩ → (d.fire c).key j = d.key j := by
  set b := d.atEdge c p.t rest with hb
  have hchan : b.chan c = { d.chan c with pend := rest } := Dev.atEdge_chan ..
  have heng : b.eng p.eng = d.eng p.eng := Dev.atEdge_eng ..
  have hnear : (if p.act.pair = some true then (b.chan c).nearDrv else (b.chan c).nearDen) = [] := by
    rw [ha, hchan]
    cases isDrv
    · exact hn
    · exact hn
  have hy : b.edgeYields c p = false := Dev.edgeYields_of_alone (by rw [heng, hq]) (by rw [hchan]; exact hfar) hnear
  obtain ⟨hdrv, hden, hpend, htick, hkey⟩ := Dev.pairEdge_made (c := c) (isDrv := isDrv) (level := v) hy (by rw [heng, hend])
  rw [hchan] at hdrv hden hpend
  rw [Dev.fire_pair hp ha hend]
  exact ⟨hdrv, hden, hpend, htick.trans (Dev.atEdge_tick ..), fun j hj => (hkey j hj).trans (Dev.atEdge_key ..)⟩

/-! ## The edge-measure clear -/

/-- CLR empties the accumulators (R162). -/
theorem Dev.emClear_rg (d : Dev) (c : Nat) : (d.emClear c).rg .PIN_EM_COUNT_COUNT c = 0 ∧ (d.emClear c).rg .PIN_EM_SUM_SUM c = 0 ∧
    (d.emClear c).rg .PIN_EM_MIN_TIME c = 0xFFFFFF ∧ (d.emClear c).rg .PIN_EM_MAX_TIME c = 0 ∧
    (d.emClear c).rg .PIN_EM_LAST_TIME c = 0 ∧ (d.emClear c).rg .PIN_EM_LAST_VALID c = 0 := by
  simp [Dev.emClear, Dev.rg_st_ne, Field.info]

/-- The first shot after a clear is the least, the greatest and the last (R162). -/
theorem Dev.emAdd_emClear (d : Dev) (c : Nat) {v : Nat} (hv : v < 2 ^ 24) :
    ((d.emClear c).emAdd c v).rg .PIN_EM_COUNT_COUNT c = 1 ∧ ((d.emClear c).emAdd c v).rg .PIN_EM_SUM_SUM c = v ∧
    ((d.emClear c).emAdd c v).rg .PIN_EM_MIN_TIME c = v ∧ ((d.emClear c).emAdd c v).rg .PIN_EM_MAX_TIME c = v ∧
    ((d.emClear c).emAdd c v).rg .PIN_EM_LAST_TIME c = v ∧ ((d.emClear c).emAdd c v).rg .PIN_EM_LAST_VALID c = 1 := by
  obtain ⟨hcount, hsum, hmin, hmax, -, -⟩ := Dev.emClear_rg d c
  have hle : min 0xFFFFFF v = v := min_eq_right (by omega)
  have hsumFits : v < 72057594037927936 := by omega
  have htimeFits : v < 16777216 := hv
  simp [Dev.emAdd, Dev.rg_st_ne, hcount, hsum, hmin, hmax, hle, Field.info, hsumFits, htimeFits]

/-! ## A strobe that closes -/

/-- A channel without comparator changes on their way stands as it is. -/
theorem Dev.pairsTo_of_none (h : (d.chan c).dly = []) (k : Nat) : d.pairsTo c k = d := by
  rw [Dev.pairsTo, h]
  rfl

/-- Fields that a failing compare writes (R147). -/
def failFields : List Field :=
  [.ENG_RES_STAT_LFAIL, .ENG_RES_PF_FAILED, .ENG_RES_FCNT_COUNT, .ENG_RES_FFV_VALID, .ENG_RES_FFV_VCNT, .ENG_RES_FFV_TSET,
    .ENG_RES_FFTAG_TAG, .ENG_RES_FFPINS_PINS]

/-- Where a failing row stands among the failing rows: what is written of the first of them. -/
def Dev.firstFail (d : Dev) (e p : Nat) (r : OpenRow) : Dev :=
  if d.on .ENG_RES_FFV_VALID e && d.rg .ENG_RES_FFV_VCNT e < r.vcnt then d
  else if d.on .ENG_RES_FFV_VALID e && d.rg .ENG_RES_FFV_VCNT e = r.vcnt then
    d.st .ENG_RES_FFPINS_PINS e (d.rg .ENG_RES_FFPINS_PINS e ||| 2 ^ p)
  else
    ((((d.st .ENG_RES_FFV_VALID e 1).st .ENG_RES_FFV_VCNT e r.vcnt).st .ENG_RES_FFV_TSET e r.tset).st
      .ENG_RES_FFTAG_TAG e r.tag).st .ENG_RES_FFPINS_PINS e (2 ^ p)

theorem Dev.countFail_eq (d : Dev) (e p : Nat) (r : OpenRow) : d.countFail e p r =
    (((((d.modEng e (fun x => { x with pinFail := true })).st .ENG_RES_STAT_LFAIL e 1).st .ENG_RES_PF_FAILED e
      (d.rg .ENG_RES_PF_FAILED e ||| 2 ^ p)).bumpi .ENG_RES_FCNT_COUNT e p 1)).firstFail e p r := rfl

/-- The registers of fields other than `fs`, and everything that is not a register, are as before. -/
def Dev.Stores (fs : List Field) (d t : Dev) : Prop := (∀ j : RegKey, j.f ∉ fs → t.key j = d.key j) ∧ ∃ r, t = { d with regs := r }

namespace Dev.Stores

variable {fs : List Field}

theorem refl (fs : List Field) (d : Dev) : Dev.Stores fs d d := ⟨fun _ _ => rfl, d.regs, rfl⟩

theorem trans (h : Dev.Stores fs d t) (h' : Dev.Stores fs t b) : Dev.Stores fs d b := by
  obtain ⟨hk, r, rfl⟩ := h
  obtain ⟨hk', r', rfl⟩ := h'
  exact ⟨fun j hj => (hk' j hj).trans (hk j hj), r', rfl⟩

theorem setKey {k : RegKey} (d : Dev) (v : Nat) (hk : k.f ∈ fs) : Dev.Stores fs d (d.setKey k v) :=
  ⟨fun _ hj => Dev.key_setKey_ne d v fun h => hj (h ▸ hk), _, rfl⟩

theorem st {f : Field} (d : Dev) (u v : Nat) (hf : f ∈ fs) : Dev.Stores fs d (d.st f u v) := setKey d v hf

theorem sti {f : Field} (d : Dev) (u i v : Nat) (hf : f ∈ fs) : Dev.Stores fs d (d.sti f u i v) := setKey d v hf

theorem rg {f : Field} (h : Dev.Stores fs d t) (u : Nat) (hf : f ∉ fs) : t.rg f u = d.rg f u := h.1 ⟨f, u, 0⟩ hf

theorem eng (h : Dev.Stores fs d t) (u : Nat) : t.eng u = d.eng u := by
  obtain ⟨-, r, rfl⟩ := h
  rfl

end Dev.Stores

theorem Dev.firstFail_stores (d : Dev) (e p : Nat) (r : OpenRow) :
    Dev.Stores [.ENG_RES_FFV_VALID, .ENG_RES_FFV_VCNT, .ENG_RES_FFV_TSET, .ENG_RES_FFTAG_TAG, .ENG_RES_FFPINS_PINS] d
      (d.firstFail e p r) := by
  unfold Dev.firstFail
  split
  · exact .refl _ d
  · split
    · exact .st d e _ (by decide)
    · refine .trans (.trans (.trans (.trans ?_ (.st _ e _ ?_)) (.st _ e _ ?_)) (.st _ e _ ?_)) (.st _ e _ ?_)
      · exact .st d e _ (by decide)
      all_goals decide

/-- A failing compare sets LFAIL and its pin's bit (R147); beside registers it only marks its engine. -/
theorem Dev.countFail_fails (d : Dev) (e : Nat) {p : Nat} (r : OpenRow) (hp : p < 64) :
    (d.countFail e p r).rg .ENG_RES_STAT_LFAIL e = 1 ∧ ((d.countFail e p r).rg .ENG_RES_PF_FAILED e).testBit p = true ∧
      Dev.Stores failFields (d.modEng e (fun x => { x with pinFail := true })) (d.countFail e p r) := by
  rw [Dev.countFail_eq]
  set a := d.modEng e (fun x => { x with pinFail := true }) with ha
  set f := (a.st .ENG_RES_STAT_LFAIL e 1).st .ENG_RES_PF_FAILED e (d.rg .ENG_RES_PF_FAILED e ||| 2 ^ p) with hf
  have hfirst := Dev.firstFail_stores (f.bumpi .ENG_RES_FCNT_COUNT e p 1) e p r
  have hcount : ∀ g ≠ .ENG_RES_FCNT_COUNT, (f.bumpi .ENG_RES_FCNT_COUNT e p 1).rg g e = f.rg g e := fun g hg =>
    Dev.key_sti_ne (j := ⟨g, e, 0⟩) f e p _ hg.symm
  refine ⟨?_, ?_, ?_⟩
  · rw [hfirst.rg _ (by decide), hcount _ (by decide), hf, Dev.rg_st_ne _ _ _ _ (by decide)]
    exact Dev.rg_st_self ..
  · rw [hfirst.rg _ (by decide), hcount _ (by decide), hf, Dev.rg_st_self, show Field.ENG_RES_PF_FAILED.info.width = 64 from rfl,
      Nat.testBit_mod_two_pow, Nat.testBit_or, Nat.testBit_two_pow_self, Bool.or_true, Bool.and_true]
    exact decide_eq_true hp
  · have hbump : Dev.Stores failFields f (f.bumpi .ENG_RES_FCNT_COUNT e p 1) :=
      .sti (f := .ENG_RES_FCNT_COUNT) f e p _ (by decide)
    refine .trans (.trans (.trans (.st a e _ (by decide)) (.st _ e _ (by decide))) hbump) ?_
    exact ⟨fun j hj => hfirst.1 j fun h => hj (List.mem_of_mem_drop (i := 3) h), hfirst.2⟩

/-- The tie latency is as before where the tie registers are. -/
theorem Dev.Stores.tieLat {fs : List Field} (h : Dev.Stores fs d t) (h1 : .ENG_TIE_TIED ∉ fs) (h2 : .ENG_TIE_GROUP ∉ fs) (e : Nat) :
    t.tieLat e = d.tieLat e := by
  have htaken : t.taken = d.taken := by
    obtain ⟨-, r, rfl⟩ := h
    rfl
  have hfar : t.far = d.far := by
    obtain ⟨-, r, rfl⟩ := h
    rfl
  have htied : ∀ x, t.tied x = d.tied x := fun x => by
    rw [Dev.tied, Dev.tied, Dev.eff_congr htaken (h.rg x h1)]
  have hgrp : ∀ x, t.grp x = d.grp x := fun x => Dev.eff_congr htaken (h.rg x h2)
  have hmembers : t.members e = d.members e := by simp only [Dev.members, htied, hgrp]
  have hscope : t.scope e = d.scope e := by
    unfold Dev.scope
    rw [htied, hgrp, hfar, hmembers]
  rw [Dev.tieLat, Dev.tieLat, hscope]

theorem Dev.tieLat_advanceTo (d : Dev) (k e : Nat) : (d.advanceTo k).tieLat e = d.tieLat e := by
  rw [Dev.tieLat, Dev.tieLat, Dev.advanceTo_scope]

/-- A row whose strobes have not all closed keeps those after it from resolving (R140). -/
theorem Dev.resolve_of_waiting {r : OpenRow} {l : List OpenRow} (h : (d.eng e).unres = r :: l) (hw : r.waiting ≠ 0) (n : Nat) :
    d.resolve e n = d := by
  cases n with
  | zero => rfl
  | succ n =>
    rw [Dev.resolve]
    simp only [h, hw, if_false]

/-- An open row that takes the result `q` of a strobe closed at `k`. -/
def OpenRow.took (r : OpenRow) (k : Nat) (q : PinRes) : OpenRow :=
  { r with waiting := r.waiting - 1, closed := max r.closed k, res := r.res ++ [q] }

/-- The device with the result in its row. -/
def Dev.tookRow (d : Dev) (e : Nat) (r : OpenRow) : Dev := d.setEng e { d.eng e with unres := [r] }

theorem Dev.strobeDone_eq {r : OpenRow} {v k : Nat} (q : PinRes) (hr : (d.eng e).unres = [r]) (hv : r.vcnt = v) :
    d.strobeDone e v k (some q) = (if q.fail && !q.masked
      then ((d.tookRow e (r.took k q)).countFail e q.pin r).flagSend e k .fail
      else d.tookRow e (r.took k q)).resolve e 4096 := by
  subst hv
  unfold Dev.strobeDone
  simp only [hr, List.find?_cons, beq_self_eq_true, List.map_cons, List.map_nil, if_true]
  rfl

/-- A strobe that passes, or is masked, enters its row and no more (R140). -/
theorem Dev.strobeDone_passes {r : OpenRow} {v k : Nat} {q : PinRes} (hr : (d.eng e).unres = [r]) (hv : r.vcnt = v)
    (hw : r.waiting = 2) (hq : (q.fail && !q.masked) = false) :
    d.strobeDone e v k (some q) = d.tookRow e (r.took k q) := by
  rw [Dev.strobeDone_eq q hr hv, hq]
  have hunres : ((d.tookRow e (r.took k q)).eng e).unres = [r.took k q] := by rw [Dev.tookRow, Dev.eng_setEng_self]
  exact Dev.resolve_of_waiting hunres (by simp [OpenRow.took, hw]) 4096

/-- A failing compare that is not masked sets LFAIL and its pin's bit, and FAIL is on its way (R140, R147). -/
theorem Dev.strobeDone_fails {r : OpenRow} {v k : Nat} {q : PinRes} (hr : (d.eng e).unres = [r]) (hv : r.vcnt = v)
    (hw : r.waiting = 2) (hq : (q.fail && !q.masked) = true) (hp : q.pin < 64) :
    (d.strobeDone e v k (some q)).rg .ENG_RES_STAT_LFAIL e = 1 ∧
      ((d.strobeDone e v k (some q)).rg .ENG_RES_PF_FAILED e).testBit q.pin = true ∧
      (d.strobeDone e v k (some q)).tick = d.tick ∧ (d.strobeDone e v k (some q)).chans = d.chans ∧
      (d.strobeDone e v k (some q)).eng e = { d.eng e with
        unres := [r.took k q], pinFail := true
        flagQ := (d.eng e).flagQ ++
          [⟨cycleOf k + 160000, false, .fail⟩, ⟨cycleOf k + 160000 + d.tieLat e * 4000, true, .fail⟩] } := by
  obtain ⟨hlfail, hbit, hstores⟩ := Dev.countFail_fails (d.tookRow e (r.took k q)) e r hp
  set b := (d.tookRow e (r.took k q)).countFail e q.pin r with hb
  have hbeng : b.eng e = { d.eng e with unres := [r.took k q], pinFail := true } := by
    rw [hstores.eng, Dev.modEng_eng_self, Dev.tookRow, Dev.eng_setEng_self]
  have hlat : b.tieLat e = d.tieLat e := hstores.tieLat (by decide) (by decide) e
  have heng : (b.flagSend e k .fail).eng e = { d.eng e with
      unres := [r.took k q], pinFail := true
      flagQ := (d.eng e).flagQ ++
        [⟨cycleOf k + 160000, false, .fail⟩, ⟨cycleOf k + 160000 + d.tieLat e * 4000, true, .fail⟩] } := by
    rw [Dev.flagSend, Dev.modEng_eng_self, hbeng, hlat]
    rfl
  have hdone : d.strobeDone e v k (some q) = b.flagSend e k .fail := by
    rw [Dev.strobeDone_eq q hr hv, hq, if_pos rfl, ← hb]
    exact Dev.resolve_of_waiting (by rw [heng]) (by simp [OpenRow.took, hw]) 4096
  obtain ⟨-, regs, hrest⟩ := hstores
  clear_value b
  rw [hdone]
  refine ⟨hlfail, hbit, ?_, ?_, heng⟩
  · change b.tick = d.tick
    rw [hrest]
    rfl
  · change b.chans = d.chans
    rw [hrest]
    rfl

/-- The result of an edge strobe fails where its state deviated (R136, R137). -/
theorem Strobe.result_fail {z : Strobe} (h9 : z.code ≠ 9) (k : Nat) :
    ((({ z with dev := z.cand.map (·.2), cand := none } : Strobe).result k).fail &&
      !(({ z with dev := z.cand.map (·.2), cand := none } : Strobe).result k).masked) = (z.cand.isSome && !z.masked) := by
  have hcode : (z.code != 9) = true := bne_iff_ne.2 h9
  simp [Strobe.result, hcode]

/-- The only strobe of a channel closes: an edge strobe gives the state that it found (R140). -/
theorem Dev.closeStrobe_edge {z : Strobe} (hz : (d.chan c).strobes = [z]) (hd : (d.chan c).dly = []) (h13 : z.code ≠ 13)
    (hclose : z.closes = z.opened) (hend : (d.eng z.eng).ending = none) : d.closeStrobe c =
      ((d.advanceTo z.closes).modChan c (fun x => { x with strobes := [] })).strobeDone z.eng z.vcnt (z.closes - d.rxLag c)
        (some (({ z with dev := z.cand.map (·.2), cand := none } : Strobe).result (z.closes - d.rxLag c))) := by
  set b := d.advanceTo z.closes with hb
  have hbz : (b.chan c).strobes = [z] := (congrArg Chan.strobes (Dev.advanceTo_chan ..)).trans hz
  have hpairs : b.pairsTo c z.closes = b := Dev.pairsTo_of_none ((congrArg Chan.dly (Dev.advanceTo_chan ..)).trans hd) _
  have hnone : b.modChan c (fun x => { x with strobes := x.strobes.erase z }) =
      b.modChan c (fun x => { x with strobes := [] }) := by
    simp [Dev.modChan, hbz]
  have hcut : ∀ k, (b.modChan c (fun x => { x with strobes := [] })).cutOff z.eng k = false :=
    Dev.cutOff_of_not_ending ((congrArg Eng.ending (Dev.advanceTo_eng ..)).trans hend)
  have hlag : (b.modChan c (fun x => { x with strobes := [] })).rxLag c = d.rxLag c := by
    have hcal : (b.modChan c (fun x => { x with strobes := [] })).cal = d.cal := Dev.advanceTo_cal ..
    simp only [Dev.rxLag, Dev.deskewVal, hcal]
  unfold Dev.closeStrobe
  simp only [hz, firstClose, ← hb, hpairs, hbz, hnone, hcut, hlag, h13, if_false, Bool.false_eq_true]
  rw [if_pos hclose]

/-! ## Words read at another time -/

/-- The marks of stored words, and the key of the DRAM, are as before. -/
structure Dev.SameWords (d t : Dev) : Prop where
  poison : t.poison = d.poison
  errs   : t.errs = d.errs
  thim   : t.thim = d.thim

namespace Dev.SameWords

theorem refl (d : Dev) : Dev.SameWords d d := ⟨rfl, rfl, rfl⟩

theorem trans (h : Dev.SameWords d t) (h' : Dev.SameWords t b) : Dev.SameWords d b :=
  ⟨h'.poison.trans h.poison, h'.errs.trans h.errs, h'.thim.trans h.thim⟩

theorem symm (h : Dev.SameWords d t) : Dev.SameWords t d := ⟨h.poison.symm, h.errs.symm, h.thim.symm⟩

theorem foldl {α : Type} {g : Dev → α → Dev} (as : List α) (d : Dev) (hg : ∀ b a, Dev.SameWords b (g b a)) :
    Dev.SameWords d (as.foldl g d) := by
  induction as generalizing d with
  | nil => exact refl d
  | cons a as ih => exact (hg d a).trans (ih _)

theorem logEv (d : Dev) (x k u p : Nat) : Dev.SameWords d (d.logEv x k u p) :=
  ⟨Dev.logEv_poison .., Dev.logEv_errs .., Dev.logEv_thim ..⟩

theorem irq (d : Dev) (v : Nat) : Dev.SameWords d (d.irq v) := ⟨Dev.irq_poison .., Dev.irq_errs .., Dev.irq_thim ..⟩

theorem report (d : Dev) (k : ErrKind) (a cons : Nat) (l : List Nat) : Dev.SameWords d (d.report k a cons l) := by
  have hst : ∀ (b : Dev) (f : Field) (u v : Nat), Dev.SameWords b (b.st f u v) := fun _ _ _ _ => ⟨rfl, rfl, rfl⟩
  unfold Dev.report
  dsimp only
  have hlog := logEv d (d.place a).1 k.code (d.place a).2.1
    ((d.place a).2.2 % 2 ^ 38 + symMask l * 2 ^ 38 + cons * 2 ^ 74)
  refine hlog.trans ?_
  split
  · cases k with
    | ce =>
      refine .trans ?_ (foldl l _ fun b n => ?_)
      · exact ⟨rfl, rfl, rfl⟩
      · generalize 36 * _ + n = i
        refine .trans (t := b.bumpi .DRC_CESYM_COUNT (d.place a).2.1 i 1) ⟨rfl, rfl, rfl⟩ ?_
        split
        · exact ((hst _ _ _ _).trans (irq _ _)).trans (logEv _ _ _ _ _)
        · exact refl _
    | ue => exact ⟨rfl, rfl, rfl⟩
    | poisonSeen => exact ⟨rfl, rfl, rfl⟩
    | dupMismatch => exact ⟨rfl, rfl, rfl⟩
  · exact refl _

theorem decode (h : Dev.SameWords d t) (m : List Host.Cell) (a : Nat) : t.decode m a = d.decode m a := by
  simp only [Dev.decode, Dev.stored, Dev.plain, h.poison, h.errs, h.thim]

/-- A word reads alike where the marks are alike, and leaves the marks alike. -/
theorem readWord (h : Dev.SameWords d t) (m : List Host.Cell) (cons a : Nat) :
    (t.readWord m cons a).1 = (d.readWord m cons a).1 ∧ Dev.SameWords (d.readWord m cons a).2 (t.readWord m cons a).2 := by
  have hreport : ∀ {x y : Dev}, Dev.SameWords x y → ∀ (k : ErrKind) (w : Nat) (l : List Nat),
      Dev.SameWords (x.report k w cons l) (y.report k w cons l) := fun hxy k w l =>
    ((report _ k w cons l).symm.trans hxy).trans (report _ k w cons l)
  unfold Dev.readWord
  dsimp only
  rw [h.decode]
  cases d.decode m (a / 16 * 16) with
  | clean => exact ⟨rfl, h⟩
  | fixed l =>
    refine ⟨rfl, ?_⟩
    dsimp only
    refine hreport ?_ _ _ _
    unfold Dev.wroteBack
    split
    · exact h
    · exact ⟨h.poison, congrArg (AMap.del · _) h.errs, h.thim⟩
  | wrong v l =>
    refine ⟨rfl, ?_⟩
    dsimp only
    split
    · exact h
    · exact hreport h _ _ _
  | bad =>
    refine ⟨rfl, ?_⟩
    dsimp only
    refine hreport ?_ _ _ _
    exact ⟨congrArg (List.cons _) h.poison, congrArg (AMap.del · _) h.errs, h.thim⟩
  | poisoned =>
    refine ⟨rfl, ?_⟩
    dsimp only
    exact hreport h _ _ _

theorem readWords (m : List Host.Cell) (cons : Nat) : ∀ (n : Nat) {d t : Dev} (a : Nat), Dev.SameWords d t →
    (t.readWords m cons a n).2.1 = (d.readWords m cons a n).2.1
  | 0, _, _, _, _ => rfl
  | n + 1, d, t, a, h => by
    obtain ⟨hword, hmarks⟩ := h.readWord m cons a
    rw [Dev.readWords, Dev.readWords]
    dsimp only
    rw [hword, readWords m cons n (a + 16) hmarks]

theorem readBytes (h : Dev.SameWords d t) (m : List Host.Cell) (cons a n : Nat) :
    (t.readBytes m cons a n).2.1 = (d.readBytes m cons a n).2.1 :=
  readWords m cons _ _ h

theorem advanceTo (d : Dev) (k : Nat) : Dev.SameWords d (d.advanceTo k) :=
  ⟨Dev.advanceTo_poison .., Dev.advanceTo_errs .., Dev.advanceTo_thim ..⟩

end Dev.SameWords

/-! ## A row's edges -/

/-- What scheduling edges leaves alone: the engines, the clock and every register but the counts of violations (R89). -/
structure Dev.PinsOnly (d t : Dev) : Prop where
  writes : Dev.WritesOnly [.PIN_EDGE_VIOL_COUNT] d t
  engs   : t.engs = d.engs

namespace Dev.PinsOnly

theorem refl (d : Dev) : Dev.PinsOnly d d := ⟨.refl _ d, rfl⟩

theorem trans (h : Dev.PinsOnly d t) (h' : Dev.PinsOnly t b) : Dev.PinsOnly d b :=
  ⟨h.writes.trans h'.writes, h'.engs.trans h.engs⟩

theorem setChan (d : Dev) (c : Nat) (x : Chan) : Dev.PinsOnly d (d.setChan c x) := ⟨.of_eqs rfl rfl, rfl⟩

theorem modChan (d : Dev) (c : Nat) (g : Chan → Chan) : Dev.PinsOnly d (d.modChan c g) := ⟨.of_eqs rfl rfl, rfl⟩

theorem viol (d : Dev) (c : Nat) : Dev.PinsOnly d (d.bump .PIN_EDGE_VIOL_COUNT c 1) := ⟨.st d c _ (by decide), rfl⟩

theorem schedule (d : Dev) (c : Nat) (p : PEdge) : Dev.PinsOnly d (d.schedule c p).2 := by
  unfold Dev.schedule
  dsimp only
  split
  · exact .viol d c
  · exact .setChan d c _

theorem on (h : Dev.PinsOnly d t) (c : Nat) : t.on .PIN_TCTRL_VIOL_ACT c = d.on .PIN_TCTRL_VIOL_ACT c := by
  rw [Dev.on, Dev.on, h.writes.rg _ _ (by decide)]

end Dev.PinsOnly

/-- No violation has ended the burst that schedules from `d` on. -/
def SchedAcc.Goes (d : Dev) (a : SchedAcc) : Prop := a.stop = false ∧ Dev.PinsOnly d a.dev

/-- Drive and enable edges on a channel whose violations do not end the burst. -/
theorem SchedAcc.Goes.drive (hc : d.on .PIN_TCTRL_VIOL_ACT c = false) (l : List PEdge) {a : SchedAcc} (h : a.Goes d) :
    (a.drive c l).Goes d := by
  induction l generalizing a with
  | nil => exact h
  | cons p l ih =>
    obtain ⟨hs, hp⟩ := h
    have hsched := hp.trans (.schedule a.dev c p)
    obtain ⟨b, hb, hdrive⟩ : ∃ b, Dev.PinsOnly d b ∧ a.drive c (p :: l) =
        SchedAcc.drive ⟨a.strobes, a.stop || (!(a.dev.schedule c p).1 && b.on .PIN_TCTRL_VIOL_ACT c), b⟩ c l := by
      refine ⟨_, ?_, rfl⟩
      split
      · split
        · exact hsched.trans (.modChan _ _ _)
        · exact hsched
      · exact hsched
    rw [hdrive]
    exact ih ⟨by simp [hs, hb.on, hc], hb⟩

/-- The strobe of a channel whose violations do not end the burst. -/
theorem SchedAcc.Goes.strobe (hc : d.on .PIN_TCTRL_VIOL_ACT c = false) (code : Nat) (so sc : PEdge) (bit masked : Bool)
    {a : SchedAcc} (h : a.Goes d) : (a.strobe c code so sc bit masked).Goes d := by
  obtain ⟨hs, hp⟩ := h
  have hact : a.dev.on .PIN_TCTRL_VIOL_ACT c = false := (hp.on c).trans hc
  have hclose : Dev.PinsOnly d (if (a.dev.chan c).window then a.dev.schedule c sc else (true, a.dev)).2 := by
    split
    · exact hp.trans (.schedule _ _ _)
    · exact hp
  unfold SchedAcc.strobe
  dsimp only
  generalize (if (a.dev.chan c).window then a.dev.schedule c sc else (true, a.dev)) = r at hclose ⊢
  split
  · refine ⟨by simp [hs, hact], ?_⟩
    dsimp only
    exact (hclose.trans (.schedule _ _ _)).trans (.modChan _ _ _)
  · refine ⟨by simp [hs, hact], ?_⟩
    exact hclose.trans (.viol _ _)

/-- A row on pins whose violations do not end the burst is scheduled whole (R73, R89). -/
theorem Dev.scheduleRow_goes (w : RowAt) (r : Row) (h : ∀ k ∈ d.pins w.eng, d.on .PIN_TCTRL_VIOL_ACT k = false) :
    (d.scheduleRow w r).Goes d := by
  have hpin : ∀ q ∈ ((d.pins w.eng).zip (r.codes.zip r.edges)).zipIdx, d.on .PIN_TCTRL_VIOL_ACT q.1.1 = false := fun q hq =>
    h _ (List.of_mem_zip (List.fst_mem_of_mem_zipIdx hq)).1
  unfold Dev.scheduleRow
  dsimp only
  generalize ((d.pins w.eng).zip (r.codes.zip r.edges)).zipIdx = l at hpin
  have hstart : (⟨0, false, d⟩ : SchedAcc).Goes d := ⟨rfl, .refl d⟩
  generalize (⟨0, false, d⟩ : SchedAcc) = a at hstart ⊢
  induction l generalizing a with
  | nil => exact hstart
  | cons q l ih =>
    have hq := hpin q List.mem_cons_self
    refine ih (fun x hx => hpin x (List.mem_cons_of_mem q hx)) _ ?_
    have hdrive := hstart.drive hq (a.dev.rowDrives w q.1.1 q.2 q.1.2.1 q.1.2.2 (d.perTicks r.per))
    dsimp only
    split
    · exact hdrive.strobe hq _ _ _ _ _
    · exact hdrive

/-! ## A row that starts at the pins -/

/-- A site's pins are as before where the owners of the quads are. -/
theorem Dev.pins_congr (ht : t.taken = d.taken) (hu : ∀ q, t.rg .PIN_QOWN_UNOWNED q = d.rg .PIN_QOWN_UNOWNED q)
    (ho : ∀ q, t.rg .PIN_QOWN_OWNER q = d.rg .PIN_QOWN_OWNER q) (e : Nat) : t.pins e = d.pins e := by
  have howner : ∀ q, t.quadOwner q = d.quadOwner q := fun q => by
    rw [Dev.quadOwner, Dev.quadOwner, Dev.eff_congr ht (hu q), Dev.eff_congr ht (ho q)]
  simp only [Dev.pins, Dev.quads, howner]

/-- The engine once its first queued row `r`, read whole, starts at tick `t0`: level settings go to the front ends, other
pin-aligned actions fall due (R198). -/
def Eng.rowTaken (x : Eng) (r : Row) (rest : List Row) (n : Rat) (t0 : Nat) : Eng :=
  { x with
    queue := rest, next := some (n + r.per.len)
    febDue := x.febDue ++ r.acts.filterMap (fun a => match a with | .lvl pd f => some (pd, f) | _ => none)
    palDue := x.palDue ++ r.acts.filterMap (fun a => match a with | .lvl .. => none | _ => some (a, t0, false)) }

/-- A started row with `k` strobes to close. -/
def Row.opened (r : Row) (k t0 : Nat) : OpenRow := ⟨r.vcnt, r.tset, r.tag, r.flog, r.word, k, t0, t0, r.per, [], []⟩

/-- The edges of row `r`, which starts on the device `d` as `w` says, are scheduled (R73). -/
def Dev.rowScheduled (d : Dev) (w : RowAt) (r : Row) (rest : List Row) (n : Rat) : SchedAcc :=
  ((d.setEng w.eng ((d.eng w.eng).rowTaken r rest n w.t0)).st .ENG_RES_VCNT_VCNT w.eng (r.vcnt + 1)).scheduleRow w r

/-- A queued row that is readable starts at the pins. -/
theorem Dev.pinStart_eq {r : Row} {rest : List Row} {n : Rat} {b c : Dev} {l : List Nat} (hq : (d.eng e).queue = r :: rest)
    (hn : (d.eng e).next = some n) (hrun : d.runs e = true) (hhem : (d.eng e).hemDone = false)
    (hb : d.advanceTo (d.rowBegin e n) = b)
    (hread : b.readBytes (memWrite [] (r.slot e) r.bytes) 0x01 (r.slot e) 32 = (l, false, c)) (hc : c.eng e = d.eng e)
    {a : SchedAcc} (ha : c.rowScheduled (b.rowAtPins e r n) (r.withBytes l) rest n = a) (hs : a.stop = false) :
    d.pinStart e = (a.dev.modEng e (fun x => { x with
      unres := x.unres ++ [(r.withBytes l).opened a.strobes (b.rowAtPins e r n).t0] })).resolve e 4096 := by
  have hgo : (!d.runs e || (d.eng e).hemDone) = false := by rw [hrun, hhem]; rfl
  unfold Dev.pinStart
  simp only [hq, hn, hgo, Bool.false_eq_true, if_false, hb, hread]
  have hsched : ((c.setEng e ((d.eng e).rowTaken (r.withBytes l) rest n (b.rowAtPins e r n).t0)).st .ENG_RES_VCNT_VCNT e
      (r.vcnt + 1)).scheduleRow (b.rowAtPins e r n) (r.withBytes l) = a := by
    rw [← ha, ← hc]
    rfl
  rw [← hsched] at hs ⊢
  exact if_neg (Bool.eq_false_iff.1 hs)

/-- The row's edges are scheduled and its vector count is stored, at the same tick (R73). -/
theorem Dev.rowScheduled_goes (w : RowAt) (r : Row) (rest : List Row) (n : Rat)
    (h : ∀ k ∈ d.pins w.eng, d.on .PIN_TCTRL_VIOL_ACT k = false) :
    (d.rowScheduled w r rest n).stop = false ∧
      (d.rowScheduled w r rest n).dev.eng w.eng = (d.eng w.eng).rowTaken r rest n w.t0 ∧
      (d.rowScheduled w r rest n).dev.rg .ENG_RES_VCNT_VCNT w.eng = (r.vcnt + 1) % 2 ^ 48 ∧
      (d.rowScheduled w r rest n).dev.tick = d.tick := by
  set b := (d.setEng w.eng ((d.eng w.eng).rowTaken r rest n w.t0)).st .ENG_RES_VCNT_VCNT w.eng (r.vcnt + 1) with hb
  have hrg : ∀ f, .ENG_RES_VCNT_VCNT ≠ f → ∀ x, b.rg f x = d.rg f x := fun f hf x => Dev.rg_st_ne _ _ _ _ hf
  have hpins : b.pins w.eng = d.pins w.eng := Dev.pins_congr (d := d) (t := b) rfl (hrg .PIN_QOWN_UNOWNED (by decide))
    (hrg .PIN_QOWN_OWNER (by decide)) w.eng
  obtain ⟨hstop, hwrites, hengs⟩ := Dev.scheduleRow_goes (d := b) w r fun k hk => by
    rw [Dev.on, hrg _ (by decide)]
    exact h k (hpins ▸ hk)
  refine ⟨hstop, ?_, ?_, hwrites.tick⟩
  · have heng : b.eng w.eng = (d.eng w.eng).rowTaken r rest n w.t0 := Dev.eng_setEng_self ..
    rw [← heng, Dev.eng, Dev.eng, ← hengs]
    rfl
  · exact (hwrites.rg _ _ (by decide)).trans (Dev.rg_st_self ..)

theorem Dev.advanceTo_rowTick (d : Dev) (k e : Nat) (n : Rat) : (d.advanceTo k).rowTick e n = d.rowTick e n := by
  rw [Dev.rowTick, Dev.rowTick, Dev.advanceTo_eng]
  simp only [Dev.ftTick, Dev.advanceTo_ft, Dev.advanceTo_rg]

theorem Reports.pins (h : Reports d t) (e : Nat) : t.pins e = d.pins e :=
  Dev.pins_congr h.taken (fun q => h.rg _ q (by decide)) (fun q => h.rg _ q (by decide)) e

theorem Dev.advanceTo_pins (d : Dev) (k e : Nat) : (d.advanceTo k).pins e = d.pins e :=
  Dev.pins_congr (Dev.advanceTo_taken ..) (fun _ => Dev.advanceTo_rg ..) (fun _ => Dev.advanceTo_rg ..) e

/-- A row of a running engine starts at the pins (R73, R128). -/
theorem Dev.pinStart_starts {r : Row} {rest : List Row} {n : Rat} {o : OpenRow} (hq : (d.eng e).queue = r :: rest)
    (hn : (d.eng e).next = some n) (hrun : d.runs e = true) (hhem : (d.eng e).hemDone = false)
    (hu : (d.eng e).unres = [o]) (hw : o.waiting ≠ 0)
    (hread : (d.readBytes (memWrite [] (r.slot e) r.bytes) 0x01 (r.slot e) 32).2.1 = false)
    (hact : ∀ k ∈ d.pins e, d.on .PIN_TCTRL_VIOL_ACT k = false) :
    (d.pinStart e).rg .ENG_RES_VCNT_VCNT e = (r.vcnt + 1) % 2 ^ 48 ∧ ((d.pinStart e).eng e).queue = rest ∧
      (d.pinStart e).tick = max d.tick (d.rowBegin e n) ∧ ∃ o', ((d.pinStart e).eng e).unres = [o, o'] ∧ o'.vcnt = r.vcnt ∧
        o'.tset = r.tset ∧ o'.tag = r.tag ∧ o'.started = roundTick (d.rowTick e n) := by
  obtain ⟨b, hb⟩ : ∃ b, d.advanceTo (d.rowBegin e n) = b := ⟨_, rfl⟩
  obtain ⟨l, f, c, hread'⟩ : ∃ l f c, b.readBytes (memWrite [] (r.slot e) r.bytes) 0x01 (r.slot e) 32 = (l, f, c) :=
    ⟨_, _, _, rfl⟩
  obtain rfl : f = false := by
    have h := (Dev.SameWords.advanceTo d (d.rowBegin e n)).readBytes (memWrite [] (r.slot e) r.bytes) 0x01 (r.slot e) 32
    rw [hb, hread'] at h
    exact h.trans hread
  have hreports : Reports b c := by
    have h := Dev.readBytes_reports b (memWrite [] (r.slot e) r.bytes) 0x01 (r.slot e) 32
    rwa [hread'] at h
  have hceng : c.eng e = d.eng e := (hreports.eng e).trans (hb ▸ Dev.advanceTo_eng ..)
  have hcpins : c.pins e = d.pins e := (hreports.pins e).trans (hb ▸ Dev.advanceTo_pins ..)
  have hviol : ∀ k ∈ c.pins e, c.on .PIN_TCTRL_VIOL_ACT k = false := fun k hk => by
    rw [Dev.on, hreports.rg _ _ (by decide), ← hb, Dev.advanceTo_rg]
    exact hact k (hcpins ▸ hk)
  obtain ⟨hstop, heng, hvcnt, htick⟩ := Dev.rowScheduled_goes (d := c) (b.rowAtPins e r n) (r.withBytes l) rest n hviol
  have hstart := Dev.pinStart_eq hq hn hrun hhem hb hread' hceng rfl hstop
  set a := c.rowScheduled (b.rowAtPins e r n) (r.withBytes l) rest n with ha
  set q := (r.withBytes l).opened a.strobes (b.rowAtPins e r n).t0 with hq'
  have haeng : a.dev.eng e = (d.eng e).rowTaken (r.withBytes l) rest n (b.rowAtPins e r n).t0 := hceng ▸ heng
  have hunres : ((a.dev.modEng e (fun x => { x with unres := x.unres ++ [q] })).eng e).unres = [o, q] := by
    rw [Dev.modEng_eng_self, haeng]
    exact congrArg (· ++ [q]) hu
  rw [hstart, Dev.resolve_of_waiting hunres hw]
  refine ⟨hvcnt, ?_, ?_, q, hunres, rfl, rfl, rfl, ?_⟩
  · rw [Dev.modEng_eng_self, haeng]
    rfl
  · rw [Dev.modEng_tick, htick, hreports.tick, ← hb, Dev.advanceTo_tick]
  · rw [← Dev.advanceTo_rowTick d (d.rowBegin e n), hb]
    rfl

/-! ## What comparator changes leave alone -/

/-- The channels and the clock are as before. -/
structure Dev.SamePins (d t : Dev) : Prop where
  chans : t.chans = d.chans
  tick  : t.tick = d.tick

namespace Dev.SamePins

theorem refl (d : Dev) : Dev.SamePins d d := ⟨rfl, rfl⟩

theorem trans (h : Dev.SamePins d t) (h' : Dev.SamePins t b) : Dev.SamePins d b :=
  ⟨h'.chans.trans h.chans, h'.tick.trans h.tick⟩

theorem foldl {α : Type} {g : Dev → α → Dev} (as : List α) (d : Dev) (hg : ∀ b a, Dev.SamePins b (g b a)) :
    Dev.SamePins d (as.foldl g d) := by
  induction as generalizing d with
  | nil => exact refl d
  | cons a as ih => exact (hg d a).trans (ih _)

theorem acqMiss (d : Dev) (u n : Nat) (tk : Rat) : Dev.SamePins d (d.acqMiss u n tk) := by
  unfold Dev.acqMiss
  dsimp only
  split
  · exact ⟨rfl, rfl⟩
  · exact ⟨rfl, rfl⟩

theorem acqCond (d : Dev) (u k n : Nat) (tk : Rat) : Dev.SamePins d (d.acqCond u k n tk) := by
  unfold Dev.acqCond
  dsimp only
  split
  · exact refl d
  · split
    · split
      · exact .acqMiss ..
      · exact refl d
    · exact ⟨rfl, rfl⟩

theorem settleRun (d : Dev) (u k n : Nat) : Dev.SamePins d (d.settleRun u k n) := by
  unfold Dev.settleRun
  split
  · split
    · refine .trans ?_ (.acqCond ..)
      exact ⟨rfl, rfl⟩
    · exact refl d
  · exact refl d

theorem pinRun (d : Dev) (u k n : Nat) : Dev.SamePins d (d.pinRun u k n) := (settleRun d u k n).trans ⟨rfl, rfl⟩

/-- The acquisition units watch the comparators (R262). -/
theorem acqPin (d : Dev) (c n : Nat) : Dev.SamePins d (d.acqPin c n) := by
  refine foldl _ d fun b u => ?_
  split
  · exact refl b
  · refine foldl _ b fun a k => ?_
    split
    · exact .pinRun ..
    · exact refl a

theorem settleDev (d : Dev) (z : Strobe) (n : Nat) : Dev.SamePins d (d.settleDev z n).2 := by
  unfold Dev.settleDev
  split
  · exact refl d
  · split
    · exact refl d
    · split
      · exact refl d
      · exact ⟨rfl, rfl⟩

theorem watchStrobe (d : Dev) (z : Strobe) (n : Nat) (h l was wasL : Bool) (cmp edge : Nat) :
    Dev.SamePins d (d.watchStrobe z n h l was wasL cmp edge).2 := by
  unfold Dev.watchStrobe
  split
  · exact refl d
  · split
    · exact refl d
    · split
      · exact .settleDev ..
      · split
        · exact refl d
        · exact refl d

end Dev.SamePins

/-- The levels of a channel's pairs, and the comparator changes on their way. -/
def Chan.pairs (x : Chan) : (Bool × Bool) × (Bool × Bool) × List CmpChg := ((x.drv, x.den), (x.cmh, x.cml), x.dly)

/-- The pairs of channel `c` and the clock are as before. -/
structure Dev.PairsKept (c : Nat) (d t : Dev) : Prop where
  pairs : (t.chan c).pairs = (d.chan c).pairs
  tick  : t.tick = d.tick

theorem Dev.SamePins.pairsKept (h : Dev.SamePins d t) (c : Nat) : Dev.PairsKept c d t := by
  refine ⟨?_, h.tick⟩
  rw [Dev.chan, h.chans]
  rfl

namespace Dev.PairsKept

theorem refl (c : Nat) (d : Dev) : Dev.PairsKept c d d := ⟨rfl, rfl⟩

theorem trans (h : Dev.PairsKept c d t) (h' : Dev.PairsKept c t b) : Dev.PairsKept c d b :=
  ⟨h'.pairs.trans h.pairs, h'.tick.trans h.tick⟩

theorem foldl {α : Type} {g : Dev → α → Dev} (as : List α) (d : Dev) (hg : ∀ b a, Dev.PairsKept c b (g b a)) :
    Dev.PairsKept c d (as.foldl g d) := by
  induction as generalizing d with
  | nil => exact refl c d
  | cons a as ih => exact (hg d a).trans (ih _)

theorem setChan {x : Chan} (hx : x.pairs = (d.chan c).pairs) : Dev.PairsKept c d (d.setChan c x) :=
  ⟨(congrArg Chan.pairs (Dev.chan_setChan_self ..)).trans hx, rfl⟩

theorem invSettle (d : Dev) (c n : Nat) (ends : Bool) : Dev.PairsKept c d (d.invSettle c n ends) := by
  have hset : ∀ i, Dev.PairsKept c d (d.setChan c { d.chan c with inv := i }) := fun _ => .setChan rfl
  unfold Dev.invSettle
  dsimp only
  split
  · exact refl c d
  next t0 counted _ =>
    generalize (if ends then none else some (t0, counted || decide (t0 + 1000 ≤ n))) = i
    refine (hset i).trans ?_
    split
    · exact refl c _
    · split
      · exact ⟨rfl, rfl⟩
      · split
        · split
          · exact ⟨rfl, rfl⟩
          · exact ⟨rfl, rfl⟩
        · exact refl c _

theorem invStart (d : Dev) (c n : Nat) : Dev.PairsKept c d (d.invStart c n) := by
  unfold Dev.invStart
  dsimp only
  split
  · exact .setChan rfl
  · exact refl c d

end Dev.PairsKept

theorem AMap.get?_mapVal {α β : Type} (g : α → β) (k : Nat) : ∀ m : AMap Nat α,
    AMap.get? (m.map fun q => (q.1, g q.2)) k = (m.get? k).map g
  | [] => rfl
  | (a, v) :: m => by
    rw [List.map_cons, AMap.get?, AMap.get?, AMap.get?_mapVal g k m]
    split
    · rfl
    · rfl

/-- Edges that move with a follower's clock change no pair (R81). -/
theorem Dev.PairsKept.retime (d : Dev) (c f : Nat) : Dev.PairsKept c d (d.retime f) := by
  refine ⟨?_, rfl⟩
  have hget : (d.retime f).chans.get? c = (d.chans.get? c).map (d.retimeChan f) := AMap.get?_mapVal ..
  rw [Dev.chan, hget, Dev.chan]
  cases d.chans.get? c with
  | none => rfl
  | some x => rfl

theorem Dev.PairsKept.ftEdge (d : Dev) (c f n : Nat) : Dev.PairsKept c d (d.ftEdge f n) := by
  unfold Dev.ftEdge
  dsimp only
  split
  · exact ⟨rfl, rfl⟩
  · refine .trans ?_ (.retime ..)
    exact ⟨rfl, rfl⟩

theorem Dev.PairsKept.of_ite {q : Prop} [Decidable q] (h : Dev.PairsKept c d t) : Dev.PairsKept c d (if q then t else d) := by
  split
  · exact h
  · exact .refl c d

theorem Dev.PairsKept.ftSource (d : Dev) (c n : Nat) (h l was wasL : Bool) : Dev.PairsKept c d (d.ftSource c n h l was wasL) := by
  unfold Dev.ftSource
  split
  · exact refl c d
  · exact .foldl _ d fun b f => .of_ite (.ftEdge b c f n)

/-! ## The comparators -/

/-- The strobes of a channel as they see a comparator change, and the device after. -/
def Dev.watchAll (d : Dev) (x : Chan) (n : Nat) (h l : Bool) : List Strobe × Dev :=
  x.strobes.foldl (fun (a : List Strobe × Dev) z =>
    let r := a.2.watchStrobe z n h l x.cmh x.cml x.emCmp x.emEdge
    (a.1 ++ [r.1], r.2)) ([], d)

theorem Dev.watchAll_samePins (d : Dev) (x : Chan) (n : Nat) (h l : Bool) : Dev.SamePins d (d.watchAll x n h l).2 := by
  have hfold : ∀ (zs : List Strobe) (a : List Strobe × Dev), Dev.SamePins a.2 (zs.foldl (fun (a : List Strobe × Dev) z =>
      let r := a.2.watchStrobe z n h l x.cmh x.cml x.emCmp x.emEdge
      (a.1 ++ [r.1], r.2)) a).2 := by
    intro zs
    induction zs with
    | nil => exact fun a => .refl a.2
    | cons z zs ih =>
      intro a
      refine (Dev.SamePins.watchStrobe a.2 z n h l x.cmh x.cml x.emCmp x.emEdge).trans ?_
      exact ih (a.1 ++ [_], _)
  exact hfold x.strobes ([], d)

/-- The device with a comparator change seen by INVALID and the strobes. -/
def Dev.watched (d : Dev) (c : Nat) (h l : Bool) (n : Nat) : List Strobe × Dev :=
  (if ((d.chan c).cmh && !(d.chan c).cml) && !(h && !l) then d.invSettle c n true else d).watchAll (d.chan c) n h l

theorem Dev.pairsAt_eq (d : Dev) (c : Nat) (h l : Bool) (n : Nat) : d.pairsAt c h l n =
    ((((d.watched c h l n).2.modChan c (fun y =>
        { y with strobes := (d.watched c h l n).1, cmh := h, cml := l })).invStart c n).ftSource c
      (n - (((d.watched c h l n).2.modChan c (fun y =>
        { y with strobes := (d.watched c h l n).1, cmh := h, cml := l })).invStart c n).rxLag c) h l (d.chan c).cmh
          (d.chan c).cml).acqPin c
      (n - (((d.watched c h l n).2.modChan c (fun y =>
        { y with strobes := (d.watched c h l n).1, cmh := h, cml := l })).invStart c n).rxLag c) := rfl

/-- The pairs take new levels; what is on its way to them, and what the channel drives, stay (R82). -/
theorem Dev.pairsAt_pairs (d : Dev) (c : Nat) (h l : Bool) (n : Nat) :
    ((d.pairsAt c h l n).chan c).pairs = (((d.chan c).drv, (d.chan c).den), (h, l), (d.chan c).dly) ∧
      (d.pairsAt c h l n).tick = d.tick := by
  have hwatched : Dev.PairsKept c d (d.watched c h l n).2 := by
    unfold Dev.watched
    split
    · exact (Dev.PairsKept.invSettle d c n true).trans ((Dev.watchAll_samePins ..).pairsKept c)
    · exact (Dev.watchAll_samePins ..).pairsKept c
  rw [Dev.pairsAt_eq]
  generalize d.watched c h l n = w at hwatched ⊢
  set b := w.2.modChan c (fun y => { y with strobes := w.1, cmh := h, cml := l }) with hb
  have hset : (b.chan c).pairs = (((d.chan c).drv, (d.chan c).den), (h, l), (d.chan c).dly) := by
    have hpairs := hwatched.pairs
    simp only [Chan.pairs, Prod.mk.injEq] at hpairs
    obtain ⟨⟨hdrv, hden⟩, -, hdly⟩ := hpairs
    rw [hb, Dev.modChan_chan_self, ← hdrv, ← hden, ← hdly]
    rfl
  have hafter := (Dev.PairsKept.invStart b c n).trans ((Dev.PairsKept.ftSource _ c (n - (b.invStart c n).rxLag c) h l
    (d.chan c).cmh (d.chan c).cml).trans ((Dev.SamePins.acqPin _ c (n - (b.invStart c n).rxLag c)).pairsKept c))
  exact ⟨hafter.pairs.trans hset, hafter.tick.trans hwatched.tick⟩

/-! ## Comparator changes on their way -/

/-- The earliest instant of changes on their way. -/
def firstDue (l : List CmpChg) : Option Nat := l.foldl (fun (a : Option Nat) y => some (a.elim y.due (min y.due))) none

/-- The level that the last change of a list leaves of a level `z`. -/
def lastLevel (l : List CmpChg) (z : Bool) : Bool := (l.getLast?.map (·.level)).getD z

/-- The changes of tick `u` arrive. -/
def Dev.pairsStep (d : Dev) (c u : Nat) : Dev :=
  (d.setChan c { d.chan c with dly := (d.chan c).dly.filter (·.due != u) }).pairsAt c
    (lastLevel (((d.chan c).dly.filter (·.due == u)).filter (·.isH)) (d.chan c).cmh)
    (lastLevel (((d.chan c).dly.filter (·.due == u)).filter (!·.isH)) (d.chan c).cml) u

/-- Changes arrive by tick `k` one instant after the other, as long as one is due. -/
theorem Dev.pairsUp_succ (d : Dev) (c k n : Nat) : d.pairsUp c k (n + 1) = match firstDue (d.chan c).dly with
    | none => d
    | some u => if k < u then d else (d.pairsStep c u).pairsUp c k n := rfl

theorem Dev.pairsStep_pairs (d : Dev) (c u : Nat) :
    ((d.pairsStep c u).chan c).pairs = (((d.chan c).drv, (d.chan c).den),
      (lastLevel (((d.chan c).dly.filter (·.due == u)).filter (·.isH)) (d.chan c).cmh,
        lastLevel (((d.chan c).dly.filter (·.due == u)).filter (!·.isH)) (d.chan c).cml),
      (d.chan c).dly.filter (·.due != u)) ∧ (d.pairsStep c u).tick = d.tick := by
  obtain ⟨hpairs, htick⟩ := Dev.pairsAt_pairs (d.setChan c { d.chan c with dly := (d.chan c).dly.filter (·.due != u) }) c
    (lastLevel (((d.chan c).dly.filter (·.due == u)).filter (·.isH)) (d.chan c).cmh)
    (lastLevel (((d.chan c).dly.filter (·.due == u)).filter (!·.isH)) (d.chan c).cml) u
  rw [Dev.chan_setChan_self] at hpairs
  exact ⟨hpairs, htick⟩

/-- No pair has more than one of these changes. -/
def Few (l : List CmpChg) : Prop := (l.filter (·.isH)).length ≤ 1 ∧ (l.filter (!·.isH)).length ≤ 1

theorem Few.filter {l : List CmpChg} (h : Few l) (q : CmpChg → Bool) : Few (l.filter q) :=
  ⟨((List.filter_sublist.filter _).length_le).trans h.1, ((List.filter_sublist.filter _).length_le).trans h.2⟩

theorem Chan.atPin_eq (x : Chan) :
    x.atPin = (lastLevel (x.dly.filter (·.isH)) x.cmh, lastLevel (x.dly.filter (!·.isH)) x.cml) := rfl

/-- Of at most one change, what has arrived and what has not leave the level that the change leaves. -/
theorem lastLevel_split (q : CmpChg → Bool) (u : Nat) (z : Bool) : ∀ {l : List CmpChg}, (l.filter q).length ≤ 1 →
    lastLevel ((l.filter (·.due != u)).filter q) (lastLevel ((l.filter (·.due == u)).filter q) z) = lastLevel (l.filter q) z := by
  intro l hl
  rw [List.filter_comm q, List.filter_comm q]
  generalize l.filter q = r at hl ⊢
  match r, hl with
  | [], _ => rfl
  | [y], _ =>
    by_cases hy : y.due = u
    · simp [lastLevel, hy]
    · simp [lastLevel, hy]

/-- The changes that arrive leave the levels at the pin, what the channel drives, and the clock (R82). -/
theorem Dev.pairsUp_atPin (c k n : Nat) (hf : Few (d.chan c).dly) :
    ((d.pairsUp c k n).chan c).atPin = (d.chan c).atPin ∧ ((d.pairsUp c k n).chan c).drv = (d.chan c).drv ∧
      ((d.pairsUp c k n).chan c).den = (d.chan c).den ∧ (d.pairsUp c k n).tick = d.tick := by
  induction n generalizing d with
  | zero => exact ⟨rfl, rfl, rfl, rfl⟩
  | succ n ih =>
    rw [Dev.pairsUp_succ]
    split
    · exact ⟨rfl, rfl, rfl, rfl⟩
    next u _ =>
      split
      · exact ⟨rfl, rfl, rfl, rfl⟩
      · obtain ⟨hpairs, htick⟩ := Dev.pairsStep_pairs d c u
        simp only [Chan.pairs, Prod.mk.injEq] at hpairs
        obtain ⟨⟨hdrv, hden⟩, ⟨hcmh, hcml⟩, hdly⟩ := hpairs
        have hfew : Few ((d.pairsStep c u).chan c).dly := hdly ▸ hf.filter _
        have hpin : ((d.pairsStep c u).chan c).atPin = (d.chan c).atPin := by
          rw [Chan.atPin_eq, Chan.atPin_eq, hcmh, hcml, hdly, lastLevel_split _ u _ hf.1, lastLevel_split _ u _ hf.2]
        obtain ⟨hpin', hdrv', hden', htick'⟩ := ih hfew
        exact ⟨hpin'.trans hpin, hdrv'.trans hdrv, hden'.trans hden, htick'.trans htick⟩

theorem firstDue_of_all {u : Nat} {y : CmpChg} {l : List CmpChg} (h : ∀ z ∈ y :: l, z.due = u) : firstDue (y :: l) = some u := by
  have hfold : ∀ l : List CmpChg, (∀ z ∈ l, z.due = u) →
      l.foldl (fun (a : Option Nat) y => some (a.elim y.due (min y.due))) (some u) = some u := by
    intro l
    induction l with
    | nil => exact fun _ => rfl
    | cons z l ih =>
      intro hz
      have hz' := hz z List.mem_cons_self
      rw [List.foldl_cons, hz', Option.elim_some, min_self]
      exact ih fun x hx => hz x (List.mem_cons_of_mem z hx)
  have hy := h y List.mem_cons_self
  rw [firstDue, List.foldl_cons, Option.elim_none, hy]
  exact hfold l fun z hz => h z (List.mem_cons_of_mem y hz)

/-- Changes that are all due now have all arrived (R82). -/
theorem Dev.pairsTo_all_due {k : Nat} (h : ∀ y ∈ (d.chan c).dly, y.due = k) : ((d.pairsTo c k).chan c).dly = [] := by
  rw [Dev.pairsTo]
  cases hl : (d.chan c).dly with
  | nil => exact hl
  | cons y l =>
    obtain ⟨hpairs, -⟩ := Dev.pairsStep_pairs d c k
    simp only [Chan.pairs, Prod.mk.injEq] at hpairs
    obtain ⟨-, -, hleft⟩ := hpairs
    have hdly : ((d.pairsStep c k).chan c).dly = [] := by
      rw [hleft]
      exact List.filter_eq_nil_iff.2 fun z hz => by simp [h z hz]
    rw [List.length_cons, Dev.pairsUp_succ, hl, firstDue_of_all (hl ▸ h)]
    dsimp only
    rw [if_neg (Nat.lt_irrefl k)]
    cases l.length with
    | zero => exact hdly
    | succ n =>
      rw [Dev.pairsUp_succ, hdly]
      exact hdly

/-- The changes that a comparator pair's new levels put on their way. -/
def Dev.cmpChgs (d : Dev) (c : Nat) (h l : Bool) : List CmpChg :=
  (if h = (d.chan c).atPin.1 then [] else [⟨moved (d.tick + d.rxLag c) (d.deskewVal c 2), true, h⟩]) ++
    (if l = (d.chan c).atPin.2 then [] else [⟨moved (d.tick + d.rxLag c) (d.deskewVal c 3), false, l⟩])

theorem Dev.comparator_of_none (hd : (d.chan c).dly = []) (h l : Bool) : d.comparator c h l =
    (d.setChan c { d.chan c with dly := d.cmpChgs c h l }).pairsTo c d.tick := by
  unfold Dev.comparator
  dsimp only
  rw [Dev.pairsTo_of_none hd, hd]
  rfl

/-- With the changes on their way, each at most one of a pair, the pin has the new levels. -/
theorem Dev.cmpChgs_atPin (hd : (d.chan c).dly = []) (h l : Bool) : Few (d.cmpChgs c h l) ∧
    ({ d.chan c with dly := d.cmpChgs c h l } : Chan).atPin = (h, l) := by
  have hpin : (d.chan c).atPin = ((d.chan c).cmh, (d.chan c).cml) := by rw [Chan.atPin_eq, hd]; rfl
  rw [Chan.atPin_eq, Dev.cmpChgs, hpin]
  by_cases hh : h = (d.chan c).cmh <;> by_cases hl : l = (d.chan c).cml <;> simp [hh, hl, Few, lastLevel]

/-- Without deskew every change is due at once (R82). -/
theorem Dev.cmpChgs_due (h2 : d.deskewVal c 2 = 0) (h3 : d.deskewVal c 3 = 0) (h l : Bool) :
    ∀ y ∈ d.cmpChgs c h l, y.due = d.tick := by
  have hnow : moved (d.tick + d.rxLag c) 0 = d.tick := by simp [moved, Dev.rxLag, h2, h3]
  intro y hy
  rw [Dev.cmpChgs, h2, h3, hnow, List.mem_append] at hy
  obtain hy | hy := hy
  · split at hy
    · exact absurd hy List.not_mem_nil
    · rw [List.mem_singleton.1 hy]
  · split at hy
    · exact absurd hy List.not_mem_nil
    · rw [List.mem_singleton.1 hy]

/-- New levels of a channel's comparators stand at the pin, and without deskew they have arrived (R41, R82). -/
theorem Dev.comparator_atPin (hd : (d.chan c).dly = []) (h l : Bool) :
    ((d.comparator c h l).chan c).atPin = (h, l) ∧ ((d.comparator c h l).chan c).drv = (d.chan c).drv ∧
      ((d.comparator c h l).chan c).den = (d.chan c).den ∧ (d.comparator c h l).tick = d.tick ∧
      (d.deskewVal c 2 = 0 → d.deskewVal c 3 = 0 →
        ((d.comparator c h l).chan c).cmh = h ∧ ((d.comparator c h l).chan c).cml = l) := by
  obtain ⟨hfew, hpin⟩ := Dev.cmpChgs_atPin hd h l
  rw [Dev.comparator_of_none hd]
  set b := d.setChan c { d.chan c with dly := d.cmpChgs c h l } with hb
  have hbchan : b.chan c = { d.chan c with dly := d.cmpChgs c h l } := Dev.chan_setChan_self ..
  obtain ⟨hpin', hdrv, hden, htick⟩ := Dev.pairsUp_atPin (d := b) c d.tick (b.chan c).dly.length (by rw [hbchan]; exact hfew)
  rw [← Dev.pairsTo, hbchan] at hpin' hdrv hden
  refine ⟨hpin'.trans hpin, hdrv, hden, htick, fun h2 h3 => ?_⟩
  have harrived : ((b.pairsTo c d.tick).chan c).dly = [] := Dev.pairsTo_all_due (by
    rw [hbchan]
    exact Dev.cmpChgs_due h2 h3 h l)
  have hlevels := hpin'.trans hpin
  rw [Chan.atPin_eq, harrived] at hlevels
  exact Prod.mk.inj hlevels

/-! ## Commands of edges, strobes and the clear -/

section
variable {s : State} {c : ChId}

theorem completes_edgeFire_yields {p q : PEdge} {rest : List PEdge} {v w : Bool} (hp : (s.dev.chan c).pend = p :: q :: rest)
    (ha : p.act = .drv v) (hw : q.act = .drv w) (hend : (s.dev.eng p.eng).ending = none)
    (hq : (s.dev.eng p.eng).queue = []) (hv : p.vcnt < q.vcnt) (hg : genOf p.gen ≠ genOf q.gen) (hle : p.t ≤ q.t)
    (hlt : q.t < p.t + 800) : Completes (.edgeFire c) s (fun t => (t.dev.chan c).drv = (s.dev.chan c).drv ∧
      (t.dev.chan c).den = (s.dev.chan c).den ∧ (t.dev.chan c).pend = q :: rest ∧
      t.dev.rg .PIN_EDGE_MERGE_COUNT c = min (s.dev.rg .PIN_EDGE_MERGE_COUNT c + 1) (2 ^ 32 - 1)) := by
  set b := s.dev.atEdge c p.t (q :: rest) with hb
  have hchan : b.chan c = { s.dev.chan c with pend := q :: rest } := Dev.atEdge_chan ..
  have hy : b.edgeYields c p = true := by
    refine Dev.edgeYields_of_next (q := q) (rest := rest) ?_ (by rw [hchan]) ?_ hv hg hle hlt
    · rw [hb, Dev.atEdge_eng, hq]
    · rw [ha, hw]
      rfl
  obtain ⟨hdrv, hden, hpend, hcount⟩ := Dev.pairEdge_yielded (level := v) hy
  have hmerged : b.rg .PIN_EDGE_MERGE_COUNT c = s.dev.rg .PIN_EDGE_MERGE_COUNT c := Dev.atEdge_key ..
  rw [hchan] at hdrv hden hpend
  refine Completes.onDev rfl ?_
  dsimp only
  rw [Dev.fire_pair (isDrv := true) hp ha hend]
  exact ⟨hdrv, hden, hpend, hmerged ▸ hcount⟩

theorem completes_strobeClose {z : Strobe} {r : OpenRow} (hz : (s.dev.chan c).strobes = [z]) (hd : (s.dev.chan c).dly = [])
    (h9 : z.code ≠ 9) (h13 : z.code ≠ 13) (hclose : z.closes = z.opened) (hend : (s.dev.eng z.eng).ending = none)
    (hr : (s.dev.eng z.eng).unres = [r]) (hv : r.vcnt = z.vcnt) (hw : r.waiting = 2) (hp : z.pin < 64) :
    Completes (.strobeClose c) s (fun t => (t.dev.chan c).strobes = [] ∧ t.dev.tick = max s.dev.tick z.closes ∧
      (∃ o, (t.dev.eng z.eng).unres = [o] ∧ o.vcnt = r.vcnt ∧ o.waiting = 1 ∧ o.res.length = r.res.length + 1) ∧
      ((z.cand.isSome && !z.masked) = true → t.dev.rg .ENG_RES_STAT_LFAIL z.eng = 1 ∧
        (t.dev.rg .ENG_RES_PF_FAILED z.eng).testBit z.pin = true ∧
        (t.dev.eng z.eng).flagQ = (s.dev.eng z.eng).flagQ ++ [⟨cycleOf (z.closes - s.dev.rxLag c) + 160000, false, .fail⟩,
          ⟨cycleOf (z.closes - s.dev.rxLag c) + 160000 + s.dev.tieLat z.eng * 4000, true, .fail⟩]) ∧
      ((z.cand.isSome && !z.masked) = false →
        t.dev.rg .ENG_RES_STAT_LFAIL z.eng = s.dev.rg .ENG_RES_STAT_LFAIL z.eng ∧
        (t.dev.eng z.eng).flagQ = (s.dev.eng z.eng).flagQ)) := by
  set k := z.closes - s.dev.rxLag c with hk
  set q := ({ z with dev := z.cand.map (·.2), cand := none } : Strobe).result k with hq
  set b := (s.dev.advanceTo z.closes).modChan c (fun x => { x with strobes := [] }) with hb
  have hfail : (q.fail && !q.masked) = (z.cand.isSome && !z.masked) := Strobe.result_fail h9 k
  have heng : b.eng z.eng = s.dev.eng z.eng := Dev.advanceTo_eng ..
  have hbr : (b.eng z.eng).unres = [r] := by rw [heng, hr]
  have hstrobes : (b.chan c).strobes = [] := by rw [hb, Dev.modChan_chan_self]
  have htick : b.tick = max s.dev.tick z.closes := Dev.advanceTo_tick ..
  have hlat : b.tieLat z.eng = s.dev.tieLat z.eng := Dev.tieLat_advanceTo ..
  refine Completes.onDev rfl ?_
  dsimp only
  rw [Dev.closeStrobe_edge hz hd h13 hclose hend, ← hb, ← hk, ← hq]
  have hrow : (r.took k q).vcnt = r.vcnt ∧ (r.took k q).waiting = 1 ∧ (r.took k q).res.length = r.res.length + 1 :=
    ⟨rfl, by simp [OpenRow.took, hw], by simp [OpenRow.took]⟩
  cases hf : z.cand.isSome && !z.masked with
  | true =>
    obtain ⟨hlfail, hbit, ht, hchans, he⟩ := Dev.strobeDone_fails (k := k) hbr hv hw (hfail.trans hf) (show q.pin < 64 from hp)
    rw [Dev.chan, hchans, ht, he, heng, hlat]
    exact ⟨hstrobes, htick, ⟨_, rfl, hrow⟩, fun _ => ⟨hlfail, hbit, rfl⟩, fun h => absurd h (by decide)⟩
  | false =>
    rw [Dev.strobeDone_passes hbr hv hw (hfail.trans hf), Dev.tookRow, Dev.eng_setEng_self]
    refine ⟨hstrobes, htick, ⟨_, rfl, hrow⟩, fun h => absurd h (by decide), fun _ => ⟨Dev.advanceTo_rg .., ?_⟩⟩
    rw [heng]

theorem completes_pinEmClr (hon : s.dev.domOn (domPd (c / 32)) = true) (hs : (s.dev.chan c).shots = []) :
    Completes (.pinEmClr c) s (fun t => t.dev.rg .PIN_EM_COUNT_COUNT c = 0 ∧ t.dev.rg .PIN_EM_SUM_SUM c = 0 ∧
      t.dev.rg .PIN_EM_MIN_TIME c = 0xFFFFFF ∧ t.dev.rg .PIN_EM_MAX_TIME c = 0 ∧ t.dev.rg .PIN_EM_LAST_TIME c = 0 ∧
      t.dev.rg .PIN_EM_LAST_VALID c = 0) := by
  refine Completes.onDev rfl ?_
  dsimp only
  rw [if_pos hon, Dev.emClr, hs]
  exact Dev.emClear_rg s.dev c

theorem completes_pinEmClr_shot {v : Nat} (hv : v < 2 ^ 24) (hon : s.dev.domOn (domPd (c / 32)) = true)
    (hs : (s.dev.chan c).shots = [(cycleOf s.dev.tick, v)]) : Completes (.pinEmClr c) s (fun t =>
      t.dev.rg .PIN_EM_COUNT_COUNT c = 1 ∧ t.dev.rg .PIN_EM_SUM_SUM c = v ∧ t.dev.rg .PIN_EM_MIN_TIME c = v ∧
      t.dev.rg .PIN_EM_MAX_TIME c = v ∧ t.dev.rg .PIN_EM_LAST_TIME c = v ∧ t.dev.rg .PIN_EM_LAST_VALID c = 1) := by
  have hnow : [(cycleOf s.dev.tick, v)].filter (fun x => x.1 == cycleOf s.dev.tick) = [(cycleOf s.dev.tick, v)] := by simp
  refine Completes.onDev rfl ?_
  dsimp only
  rw [if_pos hon, Dev.emClr, hs, hnow]
  exact Dev.emAdd_emClear s.dev c hv

theorem completes_comparatorInputChange {cmh cml : Bool} {dt : Nat} (hd : (s.dev.chan c).dly = []) :
    Completes (.comparatorInputChange c cmh cml dt) s (fun t => (t.dev.chan c).atPin = (cmh, cml) ∧
      (t.dev.chan c).drv = (s.dev.chan c).drv ∧ (t.dev.chan c).den = (s.dev.chan c).den ∧
      t.dev.tick = s.dev.tick + dt ∧ (s.dev.deskewVal c 2 = 0 → s.dev.deskewVal c 3 = 0 →
        (t.dev.chan c).cmh = cmh ∧ (t.dev.chan c).cml = cml)) := by
  have hchan : (s.dev.advanceTo (s.dev.tick + dt)).chan c = s.dev.chan c := Dev.advanceTo_chan ..
  have hdeskew : ∀ k, (s.dev.advanceTo (s.dev.tick + dt)).deskewVal c k = s.dev.deskewVal c k := fun k => by
    rw [Dev.deskewVal, Dev.deskewVal, Dev.advanceTo_cal]
  obtain ⟨hpin, hdrv, hden, htick, harrived⟩ := Dev.comparator_atPin (d := s.dev.advanceTo (s.dev.tick + dt)) (c := c)
    (by rw [hchan, hd]) cmh cml
  rw [hchan] at hdrv hden
  rw [hdeskew, hdeskew] at harrived
  refine Completes.onDev rfl ?_
  dsimp only
  exact ⟨hpin, hdrv, hden, htick.trans (Dev.advanceTo_tick_add ..), harrived⟩

theorem completes_rowPinStart {e : EngId} {r : Row} {rest : List Row} {n : Rat} {o : OpenRow}
    (hq : (s.dev.eng e).queue = r :: rest) (hn : (s.dev.eng e).next = some n) (hrun : s.dev.runs e = true)
    (hhem : (s.dev.eng e).hemDone = false) (hact : (s.dev.eng e).act = none) (hu : (s.dev.eng e).unres = [o])
    (hw : o.waiting ≠ 0) (hread : (s.dev.readBytes (memWrite [] (r.slot e) r.bytes) 0x01 (r.slot e) 32).2.1 = false)
    (hviol : ∀ k ∈ s.dev.pins e, s.dev.on .PIN_TCTRL_VIOL_ACT k = false) : Completes (.rowPinStart e) s (fun t =>
      t.dev.rg .ENG_RES_VCNT_VCNT e = (r.vcnt + 1) % 2 ^ 48 ∧ (t.dev.eng e).queue = rest ∧
      t.dev.tick = max s.dev.tick (s.dev.rowBegin e n) ∧ ∃ o', (t.dev.eng e).unres = [o, o'] ∧ o'.vcnt = r.vcnt ∧
        o'.tset = r.tset ∧ o'.tag = r.tag ∧ o'.started = roundTick (s.dev.rowTick e n)) := by
  obtain ⟨hvcnt, hqueue, htick, hrow⟩ := Dev.pinStart_starts hq hn hrun hhem hu hw hread hviol
  have hcatch : s.dev.rowPinStart s.mem e =
      if !s.dev.roomForTwo e then (s.dev.pinStart e).resumeIssue e else s.dev.pinStart e := by
    unfold Dev.rowPinStart
    rw [Dev.catchUp_of_no_act hact]
  refine Completes.onDev rfl ?_
  dsimp only
  rw [hcatch]
  split
  · rw [Dev.resumeIssue, Dev.modEng_eng_self]
    exact ⟨hvcnt, hqueue, htick, hrow⟩
  · exact ⟨hvcnt, hqueue, htick, hrow⟩

end

/-- Settles O21: each command by what it does to the one channel, row or strobe; all else that it runs, on the way, leaves
these alone. -/
theorem pinEvents : Obligations.PinEvents := by
  unfold Obligations.PinEvents
  intro s c e
  refine ⟨?comparator, ?drv, ?den, ?merge, ?strobe, ?row, completes_pinEmClr, fun v hv => completes_pinEmClr_shot hv⟩
  case comparator =>
    intro cmh cml dt hd
    exact completes_comparatorInputChange hd
  case drv =>
    intro p rest v hp ha hn hend hq hfar
    obtain ⟨hdrv, hden, hrest⟩ := Dev.fire_alone (isDrv := true) hp ha hn hend hq hfar
    exact Completes.onDev rfl ⟨hdrv, hden, hrest⟩
  case den =>
    intro p rest v hp ha hn hend hq hfar
    obtain ⟨hdrv, hden, hrest⟩ := Dev.fire_alone (isDrv := false) hp ha hn hend hq hfar
    exact Completes.onDev rfl ⟨hden, hdrv, hrest⟩
  case merge =>
    intro p q rest v w hp ha hw hend hq hv hg hle hlt
    exact completes_edgeFire_yields hp ha hw hend hq hv hg hle hlt
  case strobe =>
    intro z r hz hd h9 h13 hclose hend hr hv hw hp
    exact completes_strobeClose hz hd h9 h13 hclose hend hr hv hw hp
  case row =>
    intro r rest n o hq hn hrun hhem hact hu hw hread hviol
    exact completes_rowPinStart hq hn hrun hhem hact hu hw hread hviol

end Sys2Proof.Machine
end

section
/-!
Follower timebases: the measured frequency, the lock, and the loss, which ends every burst that the follower times (R101,
R104, R105).
-/

namespace Sys2Proof.Machine

variable {d : Dev} {e : Nat}

/-! ## What ends leave of the followers and of other engines -/

/-- What ends of the bursts of the engines in `l` leave alone beside `Dev.Ends`: the followers, and on every other engine all
but the faults on their way to it. -/
structure Dev.Spares (l : List Nat) (d t : Dev) : Prop where
  fts : t.fts = d.fts
  eng : ∀ u ∉ l, ∃ w, t.eng u = { d.eng u with tieEnd := w }

namespace Dev.Spares

variable {l m : List Nat} {d t u : Dev}

theorem refl (l : List Nat) (d : Dev) : Dev.Spares l d d := ⟨rfl, fun _ _ => ⟨_, rfl⟩⟩

theorem trans (h : Dev.Spares l d t) (h' : Dev.Spares l t u) : Dev.Spares l d u := by
  refine ⟨h'.fts.trans h.fts, fun x hx => ?_⟩
  obtain ⟨w, hw⟩ := h.eng x hx
  obtain ⟨w', hw'⟩ := h'.eng x hx
  exact ⟨w', by rw [hw', hw]⟩

theorem mono (hl : l ⊆ m) (h : Dev.Spares l d t) : Dev.Spares m d t := ⟨h.fts, fun x hx => h.eng x fun hm => hx (hl hm)⟩

theorem foldl {α : Type} {g : Dev → α → Dev} (hg : ∀ b a, Dev.Spares l b (g b a)) (as : List α) (d : Dev) :
    Dev.Spares l d (as.foldl g d) := by
  induction as generalizing d with
  | nil => exact refl l d
  | cons a as ih => exact (hg d a).trans (ih _)

theorem of_eqs (hf : t.fts = d.fts) (he : t.engs = d.engs) : Dev.Spares l d t :=
  ⟨hf, fun x _ => ⟨_, by rw [Dev.eng, he]; rfl⟩⟩

theorem setEng (d : Dev) (x : Eng) (he : e ∈ l) : Dev.Spares l d (d.setEng e x) :=
  ⟨rfl, fun _ hu => ⟨_, Dev.eng_setEng_ne d x fun h => hu (h ▸ he)⟩⟩

theorem ft (h : Dev.Spares l d t) (f : Nat) : t.ft f = d.ft f := by rw [Dev.ft, Dev.ft, h.fts]

theorem tb (h : Dev.Spares l d t) {x : Nat} (hx : x ∉ l) : (t.eng x).tb = (d.eng x).tb := by
  obtain ⟨w, hw⟩ := h.eng x hx
  rw [hw]

theorem queue (h : Dev.Spares l d t) {x : Nat} (hx : x ∉ l) : (t.eng x).queue = (d.eng x).queue := by
  obtain ⟨w, hw⟩ := h.eng x hx
  rw [hw]

end Dev.Spares

section
variable {l : List Nat} (d : Dev)

theorem Dev.stopIssue_spares (o : Ending) (he : e ∈ l) : Dev.Spares l d (d.stopIssue e o) := by
  have hhold : Dev.Spares l d (d.holdEnds e) := by
    unfold Dev.holdEnds
    dsimp only
    split
    · exact .refl l d
    · exact (Dev.Spares.setEng d _ he).trans (.of_eqs rfl rfl)
  unfold Dev.stopIssue
  exact (hhold.trans (.setEng _ _ he)).trans (.of_eqs rfl rfl)

theorem Dev.endOne_spares (o : Ending) (he : e ∈ l) : Dev.Spares l d (d.endOne e o) := by
  unfold Dev.endOne
  dsimp only
  repeat' split
  · exact .refl l d
  · exact Dev.stopIssue_spares d o he
  · exact .refl l d
  · exact .setEng d _ he
  · exact Dev.stopIssue_spares d o he
  · exact .setEng d _ he
  · exact .refl l d

theorem Dev.faultLog_spares (reason lastv t : Nat) : Dev.Spares l d (d.faultLog e reason lastv t) := by
  unfold Dev.faultLog
  split
  · exact .of_eqs (Dev.logStamped_fts ..) (Dev.logStamped_engs ..)
  · exact .refl l d

theorem Dev.pushTieEnd_spares (te : TieEnd) (ms : List Nat) : Dev.Spares l d
    (ms.foldl (fun b x => if x = e then b else b.modEng x (fun y => { y with tieEnd := y.tieEnd ++ [te] })) d) := by
  refine .foldl (fun b a => ?_) ms d
  split
  · exact .refl l b
  · refine ⟨rfl, fun u _ => ?_⟩
    by_cases h : a = u
    · exact ⟨_, by rw [← h, Dev.modEng_eng_self]⟩
    · exact ⟨_, Dev.eng_setEng_ne b _ h⟩

theorem Dev.tieTell_spares (x kind arg : Nat) : Dev.Spares l d (d.tieTell x kind arg) := by
  unfold Dev.tieTell
  dsimp only
  split
  · obtain ⟨q, n, h⟩ := Dev.seamPost_rest d none
      (.tieEvt d.pos 0 (d.grp x) (d.beatAt d.tick).1 (d.beatAt d.tick).2 kind arg)
    rw [h]
    exact .of_eqs rfl rfl
  · exact .refl l d

theorem Dev.endFaultAt_spares (reason : Nat) (drain : Bool) (t : Nat) (he : e ∈ l) :
    Dev.Spares l d (d.endFaultAt e reason drain t) := by
  have hend := (Dev.faultLog_spares d (e := e) reason (d.lastRow e drain) t).trans
    (Dev.endOne_spares _ ⟨reason, e, t, drain⟩ he)
  unfold Dev.endFaultAt
  dsimp only
  split
  · exact .refl l d
  · split
    · exact hend
    · exact (hend.trans (Dev.pushTieEnd_spares ..)).trans (Dev.tieTell_spares ..)

end

/-- A fault that does not let queued rows run out discards them (R38). -/
theorem Dev.endFaultAt_queue (hr : d.runs e = true) (hn : (d.eng e).ending = none) (reason t : Nat) :
    ((d.endFaultAt e reason false t).eng e).queue = [] := by
  have hstop : ∀ b : Dev, ((b.stopIssue e ⟨reason, e, t, false⟩).eng e).queue = [] := by
    intro b
    obtain ⟨_, _, _, h⟩ := Dev.stopIssue_eng b e ⟨reason, e, t, false⟩
    rw [h]
    rfl
  unfold Dev.endFaultAt
  simp only [Dev.faultCounts_of_running hr hn, Dev.faultLog_endOne hr hn]
  split
  · exact absurd ‹_› (by decide)
  · split
    · exact hstop _
    · have htold := fun x te ms => (Dev.pushTieEnd_spares (l := []) (e := e) x te ms).trans (Dev.tieTell_spares _ e 2 reason)
      exact ((htold _ _ _).queue List.not_mem_nil).trans (hstop _)

/-! ## The end of every burst that a follower times -/

theorem Dev.forUnits_induct {P : Nat → Dev → Prop} {g : Dev → Nat → Dev} (h0 : P 0 d)
    (hg : ∀ n b, P n b → P (n + 1) (g b n)) : ∀ n, P n (d.forUnits n g)
  | 0 => h0
  | n + 1 => hg n _ (Dev.forUnits_induct h0 hg n)

/-- The end of the engine's burst where follower `f` times it (R105). -/
def Dev.ftEnd (f : Nat) (d : Dev) (e : Nat) : Dev :=
  if d.runs e && (d.eng e).tb == some (some f) then d.endFault e rFTLOST false else d

theorem Dev.ftEnd_leaves (f : Nat) (d : Dev) (e : Nat) : Dev.Ends [e] d (d.ftEnd f e) ∧ Dev.Spares [e] d (d.ftEnd f e) := by
  unfold Dev.ftEnd
  split
  · exact ⟨Dev.endFaultAt_ends d _ _ _ List.mem_cons_self, Dev.endFaultAt_spares d _ _ _ List.mem_cons_self⟩
  · exact ⟨.refl _ d, .refl _ d⟩

theorem Dev.ftEnds_leave (f : Nat) (d : Dev) (n : Nat) : Dev.Ends (List.range n) d (d.forUnits n (Dev.ftEnd f)) ∧
    Dev.Spares (List.range n) d (d.forUnits n (Dev.ftEnd f)) := by
  refine Dev.forUnits_induct (P := fun n b => Dev.Ends (List.range n) d b ∧ Dev.Spares (List.range n) d b)
    ⟨.refl _ d, .refl _ d⟩ (fun n b ⟨hends, hspares⟩ => ?_) n
  obtain ⟨hends', hspares'⟩ := Dev.ftEnd_leaves f b n
  have hold : List.range n ⊆ List.range (n + 1) := List.range_subset.2 (Nat.le_succ n)
  have hnew : [n] ⊆ List.range (n + 1) := by simp
  exact ⟨(hends.mono hold).trans (hends'.mono hnew), (hspares.mono hold).trans (hspares'.mono hnew)⟩

theorem Dev.ftEnd_ended {f : Nat} (hr : d.runs e = true) (htb : (d.eng e).tb = some (some f)) (hn : (d.eng e).ending = none) :
    (d.ftEnd f e).rg .ENG_STAT_STATE e = 3 ∧ ((d.ftEnd f e).eng e).queue = [] ∧
      ((d.ftEnd f e).eng e).ending = some ⟨rFTLOST, e, d.tick, false⟩ := by
  have hend : d.ftEnd f e = d.endFaultAt e rFTLOST false d.tick := if_pos (by simp [hr, htb])
  obtain ⟨hstate, hending⟩ := Dev.endFaultAt_ended hr hn rFTLOST false d.tick
  rw [hend]
  exact ⟨hstate, Dev.endFaultAt_queue hr hn .., hending⟩

/-- The engines before and after it leave the end of a burst as its own turn made it. -/
theorem Dev.ftEnds_ended {f n : Nat} (he : e < n) (hr : d.runs e = true) (htb : (d.eng e).tb = some (some f))
    (hn : (d.eng e).ending = none) : (d.forUnits n (Dev.ftEnd f)).rg .ENG_STAT_STATE e = 3 ∧
      ((d.forUnits n (Dev.ftEnd f)).eng e).queue = [] ∧
      ((d.forUnits n (Dev.ftEnd f)).eng e).ending = some ⟨rFTLOST, e, d.tick, false⟩ := by
  induction n with
  | zero => omega
  | succ n ih =>
    obtain ⟨hends, hspares⟩ := Dev.ftEnds_leave f d n
    change ((d.forUnits n (Dev.ftEnd f)).ftEnd f n).rg .ENG_STAT_STATE e = 3 ∧ _
    obtain rfl | hlt : e = n ∨ e < n := by omega
    · have hout : e ∉ List.range e := by simp
      have hown := Dev.ftEnd_ended (f := f) ((hends.runs hout).trans hr) ((hspares.tb hout).trans htb)
        ((hends.ending e hout).trans hn)
      rwa [hends.tick] at hown
    · have hout : e ∉ [n] := List.mem_singleton.not.2 hlt.ne
      obtain ⟨hstate, hqueue, hending⟩ := ih hlt
      obtain ⟨hends', hspares'⟩ := Dev.ftEnd_leaves f (d.forUnits n (Dev.ftEnd f)) n
      exact ⟨(hends'.state e hout).trans hstate, (hspares'.queue hout).trans hqueue, (hends'.ending e hout).trans hending⟩

/-! ## The event of a loss and its declaration -/

theorem Dev.Announces.mono {fs gs : List Field} {d t : Dev} (hs : fs ⊆ gs) (h : Dev.Announces fs d t) : Dev.Announces gs d t :=
  ⟨h.writes.mono hs, h.time, h.engs⟩

theorem Dev.st_announces {fs : List Field} (d : Dev) {f : Field} (u v : Nat) (hf : f ∈ fs) : Dev.Announces fs d (d.st f u v) :=
  ⟨.st d u v hf, rfl, rfl⟩

/-- The registers that a loss writes before it ends the bursts. -/
def lossFields : List Field :=
  [.FT_PERIOD_PERIOD, .FT_PHERR_PEAK, .FT_STAT_LOCKED, .FT_STAT_LOST, .FT_LOSS_CNT_COUNT, .FT_LOSS_TS_RECORD] ++ reportFields

/-- The device at the instant of a cause's event: the end of the silence, else now (R104). -/
def Dev.ftAt (d : Dev) (f : Nat) (cause : FtCause) : Dev := if cause = .noEdge then d.advanceTo (d.ftSilent f) else d

/-- The device at the event, with what the event shows of the follower's clock. -/
def Dev.ftEvent (d : Dev) (f : Nat) (cause : FtCause) (period ph : Nat) : Dev :=
  match cause with
  | .noEdge => d.advanceTo (d.ftSilent f)
  | .frequency => (d.st .FT_PERIOD_PERIOD f period).retime f
  | .phase => d.ftPeak f ph

/-- The follower without lock, its loop open, and the loss counted. -/
def Dev.ftUnlock (d : Dev) (f : Nat) : Dev :=
  let d := (d.st .FT_STAT_LOCKED f 0).st .FT_STAT_LOST f 1
  (d.bump .FT_LOSS_CNT_COUNT f 1).setFt f { d.ft f with closed := false }

/-- The device of a declared loss before the bursts end: the loss is stamped, logged and told to the host. -/
def Dev.ftLost (d : Dev) (f cause : Nat) : Dev :=
  let r := (d.ftUnlock f).stamp (f + cause * 8)
  (((d.ftUnlock f).st .FT_LOSS_TS_RECORD f r).logEv 0x29 0x10 f (r % 2 ^ 96)).irq (168 + f)

/-- Where the event of a cause has happened, a locked follower declares loss and ends the bursts that it times. -/
theorem Dev.ftLoss_of_gone {f n ph : Nat} {cause : FtCause} (hen : d.on .FT_CTRL_EN f = true)
    (hl : d.on .FT_STAT_LOCKED f = true) (hg : d.ftGone f n ph cause = true) :
    d.ftLoss f cause n ph = ((d.ftEvent f cause n ph).ftLost f cause.code).forUnits 128 (Dev.ftEnd f) :=
  if_pos (by simp [hen, hl, hg])

theorem Dev.ftAt_facts (d : Dev) (f : Nat) (cause : FtCause) :
    (∀ g u, (d.ftAt f cause).rg g u = d.rg g u) ∧ ∀ u, (d.ftAt f cause).eng u = d.eng u := by
  unfold Dev.ftAt
  split
  · exact ⟨fun g u => Dev.advanceTo_rg .., fun u => Dev.advanceTo_eng ..⟩
  · exact ⟨fun _ _ => rfl, fun _ => rfl⟩

theorem Dev.ftEvent_announces (d : Dev) (f : Nat) (cause : FtCause) (n ph : Nat) :
    Dev.Announces [.FT_PERIOD_PERIOD, .FT_PHERR_PEAK] (d.ftAt f cause) (d.ftEvent f cause n ph) := by
  cases cause with
  | noEdge => exact .refl _ _
  | frequency => exact (Dev.st_announces d f n (by decide)).trans ⟨.of_eqs rfl rfl, rfl, rfl⟩
  | phase => exact Dev.st_announces d f _ (by decide)

theorem Dev.ftUnlock_announces (d : Dev) (f : Nat) : Dev.Announces lossFields d (d.ftUnlock f) := by
  have hopen : ∀ (b : Dev) (x : Ft), Dev.Announces lossFields b (b.setFt f x) := fun _ _ => ⟨.of_eqs rfl rfl, rfl, rfl⟩
  unfold Dev.ftUnlock
  exact (((Dev.st_announces d f 0 (by decide)).trans (Dev.st_announces _ f 1 (by decide))).trans
    (Dev.st_announces _ f _ (by decide))).trans (hopen _ _)

theorem Dev.ftLost_announces (d : Dev) (f cause : Nat) : Dev.Announces lossFields d (d.ftLost f cause) := by
  have hrecord : ∀ r, Dev.Announces lossFields (d.ftUnlock f) ((d.ftUnlock f).st .FT_LOSS_TS_RECORD f r) := fun r =>
    Dev.st_announces _ f r (by decide)
  unfold Dev.ftLost
  exact ((Dev.ftUnlock_announces d f).trans (hrecord _)).trans
    (((Dev.logEv_announces _ _ _ _ _ .FT_LOSS_TS_RECORD).trans (Dev.irq_announces ..)).mono (by decide))

/-- From the instant of the event to the end of the bursts a loss writes its registers only. -/
theorem Dev.ftLoss_announces (d : Dev) (f : Nat) (cause : FtCause) (n ph : Nat) :
    Dev.Announces lossFields (d.ftAt f cause) ((d.ftEvent f cause n ph).ftLost f cause.code) :=
  ((Dev.ftEvent_announces d f cause n ph).mono (by decide)).trans (Dev.ftLost_announces ..)

/-- A time stamp is read from device time and the device number (R272, R307). -/
theorem Dev.Announces.stamp {fs : List Field} {d t : Dev} (h : Dev.Announces fs d t) (hn : .TIME_DEVNUM_NUM ∉ fs) (src : Nat) :
    t.stamp src = d.stamp src := by
  simp only [Dev.stamp, Dev.stampAt, Dev.stampOf, Dev.quality, h.time, h.writes.tick, h.writes.rg _ _ hn]

/-- A counter of 16 bits that counts one more stays at its largest value once it is there (R105). -/
theorem Dev.rg_bump_one (d : Dev) {g : Field} (u : Nat) (hg : g.info.width = 16) :
    (d.bump g u 1).rg g u = min (d.rg g u + 1) 0xFFFF := by
  rw [Dev.bump, Dev.rg_st_self, hg]
  omega

@[simp] theorem Dev.setFt_rg (d : Dev) (f : Nat) (x : Ft) (g : Field) (u : Nat) : (d.setFt f x).rg g u = d.rg g u := rfl

/-- What the declaration of a loss sets (R105). -/
theorem Dev.ftUnlock_facts (d : Dev) (f : Nat) : (d.ftUnlock f).rg .FT_STAT_LOCKED f = 0 ∧
    (d.ftUnlock f).rg .FT_STAT_LOST f = 1 ∧
    (d.ftUnlock f).rg .FT_LOSS_CNT_COUNT f = min (d.rg .FT_LOSS_CNT_COUNT f + 1) 0xFFFF ∧
    ((d.ftUnlock f).ft f).closed = false := by
  unfold Dev.ftUnlock
  simp only [Dev.setFt_rg, Dev.ft_setFt_self, and_true]
  refine ⟨?_, ?_, ?_⟩
  · rw [Dev.bump, Dev.rg_st_ne _ _ _ _ (by decide), Dev.rg_st_ne _ _ _ _ (by decide), Dev.rg_st_self, Nat.zero_mod]
  · rw [Dev.bump, Dev.rg_st_ne _ _ _ _ (by decide), Dev.rg_st_self]
    rfl
  · rw [Dev.rg_bump_one _ _ rfl, Dev.rg_st_ne _ _ _ _ (by decide), Dev.rg_st_ne _ _ _ _ (by decide)]

/-- The stamp, the log entry and the message leave the follower as the loss made it. -/
theorem Dev.ftLost_rg (d : Dev) (f cause : Nat) {g : Field} (hg : g ∉ .FT_LOSS_TS_RECORD :: reportFields) :
    (d.ftLost f cause).rg g f = (d.ftUnlock f).rg g f := by
  obtain ⟨hrecord, hreport⟩ := not_or.1 (mt List.mem_cons.2 hg)
  rw [Dev.ftLost, (Dev.irq_writes ..).rg g f hreport, (Dev.logEv_writes ..).rg g f hreport,
    Dev.rg_st_ne _ _ _ _ (Ne.symm hrecord)]

theorem Dev.ftLost_ft (d : Dev) (f cause : Nat) : (d.ftLost f cause).ft f = (d.ftUnlock f).ft f := by
  rw [Dev.ftLost, Dev.irq_ft, Dev.logEv_ft, Dev.st, Dev.setKey_ft]

theorem Dev.ftLost_record (d : Dev) (f cause : Nat) :
    (d.ftLost f cause).rg .FT_LOSS_TS_RECORD f = d.stamp (f + cause * 8) % 2 ^ 128 := by
  have hwidth : Field.FT_LOSS_TS_RECORD.info.width = 128 := rfl
  rw [Dev.ftLost, (Dev.irq_writes ..).rg _ _ (by decide), (Dev.logEv_writes ..).rg _ _ (by decide), Dev.rg_st_self, hwidth,
    (Dev.ftUnlock_announces d f).stamp (by decide)]

/-! ## The clauses -/

/-- A command that leaves the block as it finds it does nothing. -/
theorem exec_onDev_of_eq {c : Instr} {s : State} {g : Dev → Dev} (hx : exec c s = .next (s.onDev g)) (h : g s.dev = s.dev) :
    exec c s = .next s := by
  rw [hx, State.onDev, h]

theorem Dev.ftMeasured_of_near {f n : Nat} (hen : d.on .FT_CTRL_EN f = true) (hl : d.on .FT_STAT_LOCKED f = false)
    (hr : d.ftRange f = false) (hn : d.ftNear f n = true) (hs : d.ftSeen f = true) :
    d.ftMeasured f n = (d.st .FT_PERIOD_PERIOD f n).setFt f { d.ft f with closed := true } :=
  if_pos (by simp [hen, hl, hr, hn, hs])

theorem Dev.ftMeasured_of_not {f n : Nat} (h : d.ftNear f n = false ∨ d.ftSeen f = false) : d.ftMeasured f n = d := by
  refine if_neg ?_
  obtain h | h := h <;> simp [h]

theorem Dev.ftLock_of_below {f ph : Nat} (hen : d.on .FT_CTRL_EN f = true) (hl : d.on .FT_STAT_LOCKED f = false)
    (hr : d.ftRange f = false) (hc : (d.ft f).closed = true) (hp : ph * 64 * 256 < d.rg .FT_PERIOD_PERIOD f) :
    d.ftLock f ph = (d.st .FT_STAT_LOCKED f 1).ftPeak f ph :=
  if_pos (by simp [Dev.ftBelow, hen, hl, hr, hc, hp])

theorem Dev.ftLock_of_not_below {f ph : Nat} (h : d.rg .FT_PERIOD_PERIOD f ≤ ph * 64 * 256) : d.ftLock f ph = d :=
  if_neg (by simp [Dev.ftBelow, h])

theorem Dev.ftPeak_rg (d : Dev) (f ph : Nat) :
    (d.ftPeak f ph).rg .FT_PHERR_PEAK f = min 0xFFFF (max (d.rg .FT_PHERR_PEAK f) ph) := by
  rw [Dev.ftPeak, Dev.rg_st_self]
  exact Nat.mod_eq_of_lt (Nat.lt_succ_of_le (Nat.min_le_left ..))

theorem Dev.ftLoss_of_not_locked {f n ph : Nat} {cause : FtCause} (h : d.on .FT_STAT_LOCKED f = false) :
    d.ftLoss f cause n ph = d :=
  if_neg (by simp [h])

theorem Dev.ftLoss_of_not_gone {f n ph : Nat} {cause : FtCause} (h : d.ftGone f n ph cause = false) :
    d.ftLoss f cause n ph = d :=
  if_neg (by simp [h])

theorem Dev.ftGone_frequency_of_near {f n ph : Nat} (h : d.ftNear f n = true) : d.ftGone f n ph .frequency = false := by
  simp [Dev.ftGone, h]

/-- A phase error of 1/8 of a period is not yet above it (R104). -/
theorem Dev.ftGone_phase_of_le {f n ph : Nat} (h : ph * 8 * 256 ≤ d.rg .FT_PERIOD_PERIOD f) :
    d.ftGone f n ph .phase = false := by
  have hcases := Nat.lt_or_eq_of_le h
  simpa [Dev.ftGone, Dev.ftBelow, or_iff_not_imp_left] using hcases

section
variable {s : State} {f : FtId} {n ph : Nat} {cause : FtCause}

/-- The loss writes the follower's registers, and the ends of the bursts leave them (R105). -/
theorem completes_ftLoss (hen : s.dev.on .FT_CTRL_EN f = true) (hl : s.dev.on .FT_STAT_LOCKED f = true)
    (hg : s.dev.ftGone f n ph cause = true) : Completes (.ftLoss f cause n ph) s (fun t =>
      t.dev.rg .FT_STAT_LOCKED f = 0 ∧ t.dev.rg .FT_STAT_LOST f = 1 ∧
      t.dev.rg .FT_LOSS_CNT_COUNT f = min (s.dev.rg .FT_LOSS_CNT_COUNT f + 1) 0xFFFF ∧ (t.dev.ft f).closed = false ∧
      t.dev.rg .FT_LOSS_TS_RECORD f = (s.dev.ftAt f cause).stamp (f + cause.code * 8) % 2 ^ 128) := by
  refine Completes.onDev rfl ?_
  dsimp only
  rw [Dev.ftLoss_of_gone hen hl hg]
  obtain ⟨hends, hspares⟩ := Dev.ftEnds_leave f ((s.dev.ftEvent f cause n ph).ftLost f cause.code) 128
  obtain ⟨hlocked, hlost, hcount, hclosed⟩ := Dev.ftUnlock_facts (s.dev.ftEvent f cause n ph) f
  have hevent := Dev.ftEvent_announces s.dev f cause n ph
  obtain ⟨hrg, -⟩ := Dev.ftAt_facts s.dev f cause
  refine ⟨?_, ?_, ?_, ?_, ?_⟩
  · rw [hends.rg _ _ (by decide), Dev.ftLost_rg _ _ _ (by decide), hlocked]
  · rw [hends.rg _ _ (by decide), Dev.ftLost_rg _ _ _ (by decide), hlost]
  · rw [hends.rg _ _ (by decide), Dev.ftLost_rg _ _ _ (by decide), hcount, hevent.writes.rg _ _ (by decide), hrg]
  · rw [hspares.ft, Dev.ftLost_ft, hclosed]
  · rw [hends.rg _ _ (by decide), Dev.ftLost_record, hevent.stamp (by decide)]

/-- A loss ends a running burst that the follower times at the instant of its event, and discards its queued rows (R105). -/
theorem completes_ftLoss_ends (hen : s.dev.on .FT_CTRL_EN f = true) (hl : s.dev.on .FT_STAT_LOCKED f = true)
    (hg : s.dev.ftGone f n ph cause = true) (he : e < 128) (hr : s.dev.runs e = true)
    (htb : (s.dev.eng e).tb = some (some f.val)) (hn : (s.dev.eng e).ending = none) :
    Completes (.ftLoss f cause n ph) s (fun t => t.dev.rg .ENG_STAT_STATE e = 3 ∧ (t.dev.eng e).queue = [] ∧
      (t.dev.eng e).ending = some ⟨rFTLOST, e, (s.dev.ftAt f cause).tick, false⟩) := by
  refine Completes.onDev rfl ?_
  dsimp only
  rw [Dev.ftLoss_of_gone hen hl hg]
  have hlost := Dev.ftLoss_announces s.dev f cause n ph
  obtain ⟨hrg, heng⟩ := Dev.ftAt_facts s.dev f cause
  have hstate := (hlost.writes.rg .ENG_STAT_STATE e (by decide)).trans (hrg _ e)
  have heng := (hlost.eng e).trans (heng e)
  have hended := Dev.ftEnds_ended he ((Dev.runs_congr hstate).trans hr) (by rw [heng, htb]) (by rw [heng, hn])
  rwa [hlost.writes.tick] at hended

end

/-- Settles O28: the measured period and the lock by the registers they write; the loss in two parts, what its declaration
writes at the instant of the event and the ends of the bursts, engine by engine, which leave that alone. -/
theorem followers : Obligations.Followers := by
  unfold Obligations.Followers
  intro s f n ph cause e
  refine ⟨?measured, ?unmeasured, ?lock, ?unlocked, ?loss, ?ends, ?notLocked, ?near, ?small⟩
  case measured =>
    intro ⟨hen, hl, hr⟩ hn hs
    refine Completes.onDev rfl ?_
    dsimp only
    rw [Dev.ftMeasured_of_near hen hl hr hn hs]
    exact ⟨Dev.rg_st_self .., by rw [Dev.ft_setFt_self], fun j hj => Dev.key_setKey_ne s.dev n hj.symm⟩
  case unmeasured =>
    intro _ h
    exact exec_onDev_of_eq rfl (Dev.ftMeasured_of_not h)
  case lock =>
    intro ⟨hen, hl, hr⟩ hc hp
    refine Completes.onDev rfl ?_
    dsimp only
    rw [Dev.ftLock_of_below hen hl hr hc hp]
    refine ⟨?_, ?_⟩
    · rw [Dev.ftPeak, Dev.rg_st_ne _ _ _ _ (by decide), Dev.rg_st_self]
      rfl
    · rw [Dev.ftPeak_rg, Dev.rg_st_ne _ _ _ _ (by decide)]
  case unlocked =>
    intro h
    exact exec_onDev_of_eq rfl (Dev.ftLock_of_not_below h)
  case loss =>
    intro ⟨hen, hl⟩ hg
    exact completes_ftLoss hen hl hg
  case ends =>
    intro ⟨hen, hl⟩ hg hr htb hn
    exact completes_ftLoss_ends hen hl hg e.isLt hr htb hn
  case notLocked =>
    intro h
    exact exec_onDev_of_eq rfl (Dev.ftLoss_of_not_locked h)
  case near =>
    intro h
    exact exec_onDev_of_eq rfl (Dev.ftLoss_of_not_gone (Dev.ftGone_frequency_of_near h))
  case small =>
    intro h
    exact exec_onDev_of_eq rfl (Dev.ftLoss_of_not_gone (Dev.ftGone_phase_of_le h))

end Sys2Proof.Machine
end

section
/-!
What the stream, row-setting, anchored and event-control instructions set (R116, R125, R183, R198, R206 to R211, R226 to
R230).
-/

namespace Sys2Proof.Machine

variable {s : State} {e w cls op : Nat} {d x t : Dev}

/-! ## Instructions of one word -/

/-- Classes and operations whose entry word is their only one: no flow instruction, row emission of more words, block
operation or wait is among them. -/
def oneWord (cls op : Nat) : Bool :=
  cls == 1 || cls == 2 || cls == 9 || (cls == 3 && op != 4) || (cls == 7 && op == 3) || (cls == 8 && op == 0) ||
    (cls == 10 && op != 4)

theorem Dev.startWords_of_oneWord (d : Dev) (e : Nat) (h : oneWord (iCls w) (iOp w) = true) : d.startWords e w = 1 := by
  simp only [oneWord, Bool.or_eq_true, Bool.and_eq_true, beq_iff_eq, bne_iff_ne] at h
  obtain (((((h | h) | h) | ⟨h, h'⟩) | ⟨h, h'⟩) | ⟨h, h'⟩) | ⟨h, h'⟩ := h <;>
    simp [Dev.startWords, isMarch, isMwait, isBlock, isWait, Dev.flowTaken, *]

/-- From `x`, where the instruction of engine `e` that issued at `d` has had its effect, the instruction has completed in
`t`: only where the engine stands has changed since. -/
structure Dev.Completed (e : Nat) (d x t : Dev) : Prop where
  rg    : ∀ f, Field.ENG_PC_ADDR ≠ f → t.rg f e = x.rg f e
  anch  : (t.eng e).anch = (x.eng e).anch
  dmask : (t.eng e).dmask = (x.eng e).dmask
  susp  : (t.eng e).susp = (x.eng e).susp
  mark  : (t.eng e).mark = (x.eng e).mark
  next  : PcNext d t e

theorem Settles.completed (h : Settles e (x.finish e) t) (hbr : (x.eng e).br = (d.eng e).br)
    (hpc : x.rg .ENG_PC_ADDR e = d.rg .ENG_PC_ADDR e) : Dev.Completed e d x t where
  rg f hf := (h.rg f e).trans (Dev.finish_rg x e e hf)
  anch := (h.proj (·.anch) fun _ _ _ _ _ _ _ _ => rfl).trans (Dev.finish_proj x e (·.anch) fun _ _ _ _ => rfl)
  dmask := (h.proj (·.dmask) fun _ _ _ _ _ _ _ _ => rfl).trans (Dev.finish_proj x e (·.dmask) fun _ _ _ _ => rfl)
  susp := (h.proj (·.susp) fun _ _ _ _ _ _ _ _ => rfl).trans (Dev.finish_proj x e (·.susp) fun _ _ _ _ => rfl)
  mark := (h.proj (·.mark) fun _ _ _ _ _ _ _ _ => rfl).trans (Dev.finish_proj x e (·.mark) fun _ _ _ _ => rfl)
  next := fun hb => (h.rg _ e).trans (PcNext.finish hbr hpc hb)

/-- An instruction of one word that issues completes with its effect `x`, if that leaves the delay region and the program
counter alone. -/
theorem Issues.completes {c : Instr} {body : Body} {P : State → Prop} (h : Issues s e cls op w d)
    (hx : exec c s = .next (s.onDev (fun d => d.issue s.mem e cls op body))) (hone : oneWord cls op = true)
    (hbody : body s.mem d e w = x.finish e) (hbr : (x.eng e).br = (d.eng e).br)
    (hpc : x.rg .ENG_PC_ADDR e = d.rg .ENG_PC_ADDR e) (hP : ∀ t : State, Dev.Completed e d x t.dev → P t) :
    Completes c s P := by
  have hwords : (s.dev.fetch s.mem e).2.startWords e w = 1 := by
    obtain ⟨-, rfl, rfl, -⟩ := h
    exact Dev.startWords_of_oneWord _ e hone
  have hissue := Dev.issue_of_issues body h fun hne => absurd hwords hne
  rw [hbody] at hissue
  exact Completes.onDev hx (hP _ (hissue.completed hbr hpc))

/-- An effect on registers alone leaves a delay region, and the program counter where it is not among them. -/
theorem Issues.completes_stores {c : Instr} {body : Body} {P : State → Prop} {fs : List Field} (h : Issues s e cls op w d)
    (hx : exec c s = .next (s.onDev (fun d => d.issue s.mem e cls op body))) (hone : oneWord cls op = true)
    (hbody : body s.mem d e w = x.finish e) (hs : Dev.Stores fs d x) (hf : Field.ENG_PC_ADDR ∉ fs)
    (hP : ∀ t : State, Dev.Completed e d x t.dev → P t) : Completes c s P :=
  h.completes hx hone hbody (congrArg Eng.br (hs.eng e)) (hs.rg e hf) hP

/-- An effect on what the engine holds beside its registers, its delay region left alone. -/
theorem Issues.completes_modEng {c : Instr} {body : Body} {P : State → Prop} {g : Eng → Eng} (h : Issues s e cls op w d)
    (hx : exec c s = .next (s.onDev (fun d => d.issue s.mem e cls op body))) (hone : oneWord cls op = true)
    (hbody : body s.mem d e w = (d.modEng e g).finish e) (hbr : ∀ y, (g y).br = y.br)
    (hP : ∀ t : State, Dev.Completed e d (d.modEng e g) t.dev → P t) : Completes c s P :=
  h.completes hx hone hbody ((Dev.modEng_proj d e g (·.br)).trans (hbr _)) rfl hP

/-! ## The stream position and the loop window -/

/-- A move of VP writes VP and the pleat's progress; of the other fields only the loop window and the count of misses may
change (R116, R125). -/
theorem Dev.vpSet_key (d : Dev) (e v : Nat) {j : RegKey} (h1 : j ≠ ⟨.ENG_BOB_LREM_ACTIVE, e, 0⟩)
    (h2 : j ≠ ⟨.ENG_BOB_LREM_HELD, e, 0⟩) (h3 : j ≠ ⟨.ENG_BOB_LREM_REM, e, 0⟩) (h4 : j ≠ ⟨.ENG_BOB_MISS_COUNT, e, 0⟩) :
    (d.vpSet e v).key j =
      (((d.st .ENG_VP e (v % 2 ^ 38)).st .ENG_STR_PPOS_REP e 0).st .ENG_STR_PPOS_ROW e 0).key j := by
  unfold Dev.vpSet
  dsimp only
  split
  · rw [(Dev.missAt_keeps _ e _).2 j h3 h4, Dev.release_key, (Dev.windowMove_keeps _ e _ _).2 j h1 h2 h3, Dev.modEng_key]
  · rw [Dev.release_key, (Dev.windowMove_keeps _ e _ _).2 j h1 h2 h3, Dev.modEng_key]

/-- A move of VP leaves the pleat (R119). -/
theorem Dev.vpSet_pleat (d : Dev) (e v : Nat) :
    (d.vpSet e v).rg .ENG_STR_PPOS_REP e = 0 ∧ (d.vpSet e v).rg .ENG_STR_PPOS_ROW e = 0 := by
  constructor
  · refine (Dev.vpSet_key d e v (by simp) (by simp) (by simp) (by simp)).trans ?_
    exact (Dev.rg_st_ne _ _ _ _ (by decide)).trans (Dev.rg_st_self ..)
  · refine (Dev.vpSet_key d e v (by simp) (by simp) (by simp) (by simp)).trans ?_
    exact Dev.rg_st_self ..

/-- An instruction whose effect is a move of VP to `v`. -/
theorem Issues.completes_vpSet {c : Instr} {body : Body} {v : Nat} (h : Issues s e cls op w d)
    (hx : exec c s = .next (s.onDev (fun d => d.issue s.mem e cls op body))) (hone : oneWord cls op = true)
    (hbody : body s.mem d e w = (d.vpSet e v).finish e) :
    Completes c s (fun t => t.dev.rg .ENG_VP e = v % 2 ^ 38 ∧ t.dev.rg .ENG_STR_PPOS_REP e = 0 ∧
      t.dev.rg .ENG_STR_PPOS_ROW e = 0 ∧ PcNext d t.dev e) := by
  have hbr : ((d.vpSet e v).eng e).br = (d.eng e).br := by
    obtain ⟨_, _, _, _, _, _, _, heng⟩ := Dev.vpSet_eng d e v
    rw [heng]
  obtain ⟨hrep, hrow⟩ := Dev.vpSet_pleat d e v
  refine h.completes hx hone hbody hbr (Dev.vpSet_keeps d e v (by simp [regKeys])) fun t ht => ?_
  exact ⟨(ht.rg _ (by decide)).trans (Dev.vpSet_vp d e v), (ht.rg _ (by decide)).trans hrep,
    (ht.rg _ (by decide)).trans hrow, ht.next⟩

/-- The registers that declare a loop window (R125). -/
def windowFields : List Field :=
  [.ENG_BOB_LREM_ACTIVE, .ENG_BOB_LREM_HELD, .ENG_BOB_LREM_REM, .ENG_BOB_LSTART_START, .ENG_BOB_LEND_END]

theorem Dev.endWindow_stores (d : Dev) (e : Nat) : Dev.Stores windowFields d (d.endWindow e) :=
  ((Dev.Stores.st d e 0 (by decide)).trans (.st _ e 0 (by decide))).trans (.st _ e 0 (by decide))

theorem Dev.endWindow_rg (d : Dev) (e : Nat) : (d.endWindow e).rg .ENG_BOB_LREM_ACTIVE e = 0 ∧
    (d.endWindow e).rg .ENG_BOB_LREM_HELD e = 0 ∧ (d.endWindow e).rg .ENG_BOB_LREM_REM e = 0 := by
  unfold Dev.endWindow
  simp (disch := decide) [Dev.rg_st_ne]

/-- The loop window as SLOOP declares it. -/
def Dev.declareWindow (d : Dev) (e start stop rem : Nat) : Dev :=
  ((((d.endWindow e).st .ENG_BOB_LSTART_START e start).st .ENG_BOB_LEND_END e stop).st .ENG_BOB_LREM_REM e rem).st
    .ENG_BOB_LREM_ACTIVE e 1

theorem Dev.declareWindow_stores (d : Dev) (e start stop rem : Nat) :
    Dev.Stores windowFields d (d.declareWindow e start stop rem) :=
  ((((Dev.endWindow_stores d e).trans (.st _ e start (by decide))).trans (.st _ e stop (by decide))).trans
    (.st _ e rem (by decide))).trans (.st _ e 1 (by decide))

theorem Dev.declareWindow_rg (d : Dev) (e start stop rem : Nat) :
    (d.declareWindow e start stop rem).rg .ENG_BOB_LREM_HELD e = 0 ∧
    (d.declareWindow e start stop rem).rg .ENG_BOB_LREM_REM e = rem % 2 ^ 32 ∧
    (d.declareWindow e start stop rem).rg .ENG_BOB_LREM_ACTIVE e = 1 ∧
    (d.declareWindow e start stop rem).rg .ENG_BOB_LSTART_START e = start % 2 ^ 38 ∧
    (d.declareWindow e start stop rem).rg .ENG_BOB_LEND_END e = stop % 2 ^ 38 := by
  have hheld := (Dev.endWindow_rg d e).2.1
  unfold Dev.declareWindow
  refine ⟨?_, ?_, ?_, ?_, ?_⟩ <;> simp (disch := decide) only [Dev.rg_st_ne, Dev.rg_st_self, hheld] <;> rfl

/-! ## The clear of the flags -/

theorem Dev.members_of_untied (h : d.tied e = false) : d.members e = [e] := by simp [Dev.members, h]

theorem Dev.tieLat_of_untied (h : d.tied e = false) : d.tieLat e = 0 := by simp [Dev.tieLat, Dev.scope, h]

/-- The value of MATCH after a clear, which clears it where `m` says so (R210). -/
def Dev.clearedMatch (d : Dev) (e : Nat) (m : Bool) : Nat := if m then 0 else b2n (d.on .ENG_FLAGS_MATCH e)

/-- A clear that is due clears the engine's own flags (R210). -/
theorem Dev.ownFlags_of_clear {k : Nat} {m : Bool}
    (hq : (d.eng e).flagQ = [⟨k, false, .clear m⟩, ⟨k, true, .clear m⟩]) : d.ownFlags e k =
      ((d.setEng e { d.eng e with flagQ := [⟨k, true, .clear m⟩] }).st .ENG_FLAGS_FAIL e 0).st
        .ENG_FLAGS_MATCH e (d.clearedMatch e m) := by
  cases m <;> simp [Dev.ownFlags, hq, clearsFirst, applyRows, Dev.clearedMatch, b2n]

/-- The group's share of a clear that is due. -/
theorem Dev.groupFlags_of_clear {k : Nat} {m : Bool} (hq : (d.eng e).flagQ = [⟨k, true, .clear m⟩]) :
    ∃ g, d.groupFlags e k = d.setEng e { d.eng e with flagQ := [], gFail := false, gMatch := g } := by
  cases m <;> exact ⟨_, by simp [Dev.groupFlags, hq, clearsFirst, applyRows]; rfl⟩

/-- Untied, TFAIL and TMATCH follow the engine's own flags (R166); TFAIL that does not rise raises no event. -/
theorem Dev.setTied_of_untied (h : d.tied e = false) (hf : d.on .ENG_FLAGS_FAIL e = false) : d.setTied e =
    (d.st .ENG_FLAGS_TFAIL e 0).st .ENG_FLAGS_TMATCH e (b2n (d.on .ENG_FLAGS_MATCH e)) := by
  simp [Dev.setTied, h, hf, b2n]

/-- What a clear of the flags of an untied engine gives (R210). -/
structure Dev.FlagsCleared (e : Nat) (m : Bool) (d t : Dev) : Prop where
  fail   : t.rg .ENG_FLAGS_FAIL e = 0
  tfail  : t.rg .ENG_FLAGS_TFAIL e = 0
  match_ : t.rg .ENG_FLAGS_MATCH e = d.clearedMatch e m
  tmatch : t.rg .ENG_FLAGS_TMATCH e = d.clearedMatch e m
  pc     : t.rg .ENG_PC_ADDR e = d.rg .ENG_PC_ADDR e
  br     : (t.eng e).br = (d.eng e).br
  flagQ  : (t.eng e).flagQ = []
  untied : t.tied e = false

theorem Dev.clearedMatch_lt (d : Dev) (e : Nat) (m : Bool) : d.clearedMatch e m < 2 := by
  unfold Dev.clearedMatch b2n
  split <;> (try split) <;> decide

theorem Dev.farFlags_of_untied (h : d.tied e = false) (k : Nat) : d.farFlags e k = d := by simp [Dev.farFlags, h]

/-- A field that says whether the engine is tied is none of its flags. -/
theorem Dev.tied_congr (ht : t.taken = d.taken) (hr : t.rg .ENG_TIE_TIED e = d.rg .ENG_TIE_TIED e) : t.tied e = d.tied e :=
  congrArg (· == 1) (Dev.eff_congr ht hr)

theorem Dev.flagsAt_of_clear {k : Nat} {m : Bool} (ht : d.tied e = false)
    (hq : (d.eng e).flagQ = [⟨k, false, .clear m⟩, ⟨k, true, .clear m⟩]) : Dev.FlagsCleared e m d (d.flagsAt e k) := by
  have hmod : d.clearedMatch e m % 2 ^ Field.ENG_FLAGS_MATCH.info.width = d.clearedMatch e m :=
    Nat.mod_eq_of_lt (Dev.clearedMatch_lt d e m)
  obtain ⟨g, hgroup⟩ := Dev.groupFlags_of_clear (d := d.ownFlags e k) (e := e) (k := k) (m := m) (by
    rw [Dev.ownFlags_of_clear hq]
    simp [Dev.st])
  generalize hb : (d.ownFlags e k).groupFlags e k = b at hgroup
  rw [Dev.ownFlags_of_clear hq] at hgroup
  have hrg : ∀ f u, .ENG_FLAGS_FAIL ≠ f → .ENG_FLAGS_MATCH ≠ f → b.rg f u = d.rg f u := fun f u h1 h2 => by
    rw [hgroup]
    exact (Dev.rg_st_ne _ _ _ _ h2).trans (Dev.rg_st_ne _ _ _ _ h1)
  have hfail : b.rg .ENG_FLAGS_FAIL e = 0 := by
    rw [hgroup]
    exact (Dev.rg_st_ne _ _ _ _ (by decide)).trans (Dev.rg_st_self ..)
  have hmatch : b.rg .ENG_FLAGS_MATCH e = d.clearedMatch e m := by
    rw [hgroup]
    exact (Dev.rg_st_self ..).trans hmod
  have heng : b.eng e = { d.eng e with flagQ := [], gFail := false, gMatch := g } := by
    rw [hgroup, Dev.eng_setEng_self]
    simp [Dev.st]
  have htied : b.tied e = false := (Dev.tied_congr (by rw [hgroup]; rfl) (hrg _ _ (by decide) (by decide))).trans ht
  have hon : b2n (b.on .ENG_FLAGS_MATCH e) = d.clearedMatch e m := by
    have := Dev.clearedMatch_lt d e m
    rw [Dev.on, hmatch]
    obtain h | h : d.clearedMatch e m = 0 ∨ d.clearedMatch e m = 1 := by omega
    all_goals rw [h]; rfl
  have heq : d.flagsAt e k = (b.st .ENG_FLAGS_TFAIL e 0).st .ENG_FLAGS_TMATCH e (d.clearedMatch e m) := by
    unfold Dev.flagsAt
    simp only [Dev.members_of_untied ht, List.foldl_cons, List.foldl_nil, hb, Dev.farFlags_of_untied htied]
    rw [Dev.setTied_of_untied htied (by simp [Dev.on, hfail]), hon]
  rw [heq]
  constructor
  case fail => rw [Dev.rg_st_ne _ _ _ _ (by decide), Dev.rg_st_ne _ _ _ _ (by decide), hfail]
  case tfail => rw [Dev.rg_st_ne _ _ _ _ (by decide), Dev.rg_st_self]; rfl
  case match_ => rw [Dev.rg_st_ne _ _ _ _ (by decide), Dev.rg_st_ne _ _ _ _ (by decide), hmatch]
  case tmatch => exact (Dev.rg_st_self ..).trans hmod
  case pc =>
    rw [Dev.rg_st_ne _ _ _ _ (by decide), Dev.rg_st_ne _ _ _ _ (by decide), hrg _ _ (by decide) (by decide)]
  case br =>
    show (b.eng e).br = _
    rw [heng]
  case flagQ =>
    show (b.eng e).flagQ = _
    rw [heng]
  case untied =>
    refine Eq.trans (b := b.tied e) (Dev.tied_congr ?_ ?_) htied
    · rfl
    rw [Dev.rg_st_ne _ _ _ _ (by decide), Dev.rg_st_ne _ _ _ _ (by decide)]

/-- Once no flag change is on its way on an untied engine, none becomes visible. -/
theorem Dev.flagsUpTo_of_empty (ht : d.tied e = false) (hq : (d.eng e).flagQ = []) (k n : Nat) : d.flagsUpTo e k n = d := by
  cases n with
  | zero => rfl
  | succ n => simp [Dev.flagsUpTo, Dev.groupDue, Dev.members_of_untied ht, ht, Eng.flagDue, hq]

/-- The changes that FCLR puts on their way: the engine's own clear now, its group's one tie latency later (R210). -/
def Dev.pushClear (d : Dev) (e : Nat) (m : Bool) : Dev := d.modEng e (fun x => { x with flagQ := x.flagQ ++
  [⟨d.tick, false, .clear m⟩, ⟨d.tick + d.tieLat e * cyc, true, .clear m⟩] })

/-- FCLR on an untied engine without flag changes on their way clears the flags in its cycle (R210). -/
theorem Dev.pushClear_clears {m : Bool} (ht : d.tied e = false) (hq : (d.eng e).flagQ = []) :
    Dev.FlagsCleared e m d ((d.pushClear e m).flagsUpTo e d.tick flagFuel) := by
  have hpush : ((d.pushClear e m).eng e).flagQ = [⟨d.tick, false, .clear m⟩, ⟨d.tick, true, .clear m⟩] := by
    simp [Dev.pushClear, hq, Dev.tieLat_of_untied ht]
  have hat := Dev.flagsAt_of_clear (d := d.pushClear e m) ht hpush
  have hdue : (d.pushClear e m).groupDue e = some d.tick := by
    have hmem : (d.pushClear e m).members e = [e] := Dev.members_of_untied ht
    have htied : (d.pushClear e m).tied e = false := ht
    simp [Dev.groupDue, hmem, htied, Eng.flagDue, hpush]
  have hstep : (d.pushClear e m).flagsUpTo e d.tick flagFuel = (d.pushClear e m).flagsAt e d.tick := by
    rw [flagFuel, Dev.flagsUpTo, hdue]
    simp only [Nat.le_refl, if_true]
    exact Dev.flagsUpTo_of_empty hat.untied hat.flagQ ..
  rw [hstep]
  exact { hat with br := hat.br.trans (Dev.modEng_proj d e _ (·.br)) }

/-! ## Bits of the event registers -/

/-- Clearing one bit leaves the others. -/
theorem testBit_setBits_zero (n k j : Nat) : (setBits n k 1 0).testBit j = (n.testBit j && j != k) := by
  have hlow : n % 2 ^ k < 2 ^ k := Nat.mod_lt _ (Nat.two_pow_pos k)
  have hsplit : n = 2 ^ k * (n / 2 ^ k) + n % 2 ^ k := (Nat.div_add_mod n _).symm
  have hclear : setBits n k 1 0 = 2 ^ k * (2 * (n / 2 ^ k / 2)) + n % 2 ^ k := by
    have hhalf : n / 2 ^ k = 2 * (n / 2 ^ k / 2) + n / 2 ^ k % 2 := (Nat.div_add_mod _ 2).symm
    have hexpand : 2 ^ k * (n / 2 ^ k) = 2 ^ k * (2 * (n / 2 ^ k / 2)) + n / 2 ^ k % 2 * 2 ^ k := by
      conv_lhs => rw [hhalf]
      ring
    unfold setBits bitsOf
    rw [Nat.pow_one]
    omega
  conv_rhs => rw [hsplit]
  rw [hclear, Nat.testBit_two_pow_mul_add _ hlow, Nat.testBit_two_pow_mul_add _ hlow]
  by_cases hjk : j < k
  · simp [hjk, Nat.ne_of_lt hjk]
  · obtain ⟨i, rfl⟩ := Nat.exists_eq_add_of_le (Nat.not_lt.1 hjk)
    cases i with
    | zero => simp
    | succ i =>
      have hi : k + (i + 1) - k = i + 1 := by omega
      simp [hi, Nat.testBit_succ]

theorem Dev.clearEv_testBit (d : Dev) (e i : Nat) {k : Nat} (hk : k < 16) :
    ((d.clearEv e i).rg .ENG_EV_PEND_PEND e).testBit k = ((d.rg .ENG_EV_PEND_PEND e).testBit k && k != i) := by
  unfold Dev.clearEv
  rw [Dev.rg_st_self, show Field.ENG_EV_PEND_PEND.info.width = 16 from rfl, Nat.testBit_mod_two_pow,
    testBit_setBits_zero]
  simp [hk]

/-- EVEN enables the events of its register, and ILLEGAL always (R230). -/
theorem testBit_enabled (v : Nat) {k : Nat} (hk : k < 16) :
    ((v % 2 ^ 16 ||| 0x80) % 2 ^ 16).testBit k = (k == 7 || v.testBit k) := by
  have h7 : (0x80 : Nat).testBit k = (k == 7) := by
    rw [show (0x80 : Nat) = 2 ^ 7 from rfl, Nat.testBit_two_pow]
    simp [eq_comm, beq_eq_decide]
  rw [Nat.testBit_mod_two_pow, Nat.testBit_or, Nat.testBit_mod_two_pow, h7]
  simp [hk, Bool.or_comm]

theorem Dev.st_even (d : Dev) (e v : Nat) {k : Nat} (hk : k < 16) :
    ((d.st .ENG_EV_EN_EN e (v % 2 ^ 16 ||| 0x80)).rg .ENG_EV_EN_EN e).testBit k = (k == 7 || v.testBit k) := by
  rw [Dev.rg_st_self]
  exact testBit_enabled v hk

/-! ## The clauses -/

/-- An instruction whose effect is a pin-aligned action that waits for its anchor row (R198). -/
theorem Issues.completes_anchor {c : Instr} {body : Body} {a : Pal} (h : Issues s e cls op w d)
    (hx : exec c s = .next (s.onDev (fun d => d.issue s.mem e cls op body))) (hone : oneWord cls op = true)
    (hbody : body s.mem d e w = (d.anchor e a).finish e) :
    Completes c s (fun t => (t.dev.eng e).anch = (d.eng e).anch ++ [a] ∧ PcNext d t.dev e) :=
  h.completes_modEng hx hone hbody (fun _ => rfl) fun _ ht => ⟨ht.anch.trans (Dev.modEng_proj d e _ (·.anch)), ht.next⟩

/-- An instruction whose effect is to store `v` in the field `f` of its engine. -/
theorem Issues.completes_st {c : Instr} {body : Body} {f : Field} {v : Nat} (h : Issues s e cls op w d)
    (hx : exec c s = .next (s.onDev (fun d => d.issue s.mem e cls op body))) (hone : oneWord cls op = true)
    (hbody : body s.mem d e w = (d.st f e v).finish e) (hf : Field.ENG_PC_ADDR ≠ f) :
    Completes c s (fun t => t.dev.rg f e = v % 2 ^ f.info.width ∧ PcNext d t.dev e) :=
  h.completes_stores hx hone hbody (Dev.Stores.st d e v (List.mem_singleton_self f)) (by simpa using hf) fun _ ht =>
    ⟨(ht.rg f hf).trans (Dev.rg_st_self ..), ht.next⟩

theorem Issues.completes_sloop {e : EngId} (h : Issues s e 1 5 w d) : Completes (.sloop e) s (fun t =>
    (t.dev.rg .ENG_BOB_LREM_HELD e = 0 ∧ t.dev.rg .ENG_BOB_LREM_REM e = iImm w % 2 ^ 32 ∧
      t.dev.rg .ENG_BOB_LREM_ACTIVE e = 1 ∧ PcNext d t.dev e) ∧
    t.dev.rg .ENG_BOB_LSTART_START e = d.reg e (iRd w) % 2 ^ 38 ∧
    t.dev.rg .ENG_BOB_LEND_END e = d.reg e (iRs w) % 2 ^ 38 ∧ t.dev.rg .ENG_VP e = d.rg .ENG_VP e) := by
  have hs := Dev.declareWindow_stores d e (d.reg e (iRd w)) (d.reg e (iRs w)) (iImm w)
  obtain ⟨hheld, hrem, hactive, hstart, hend⟩ := Dev.declareWindow_rg d e (d.reg e (iRd w)) (d.reg e (iRs w)) (iImm w)
  refine h.completes (x := (d.declareWindow e (d.reg e (iRd w)) (d.reg e (iRs w)) (iImm w)).release e) rfl rfl rfl
    ((Dev.release_br _ e).trans (congrArg Eng.br (hs.eng e))) ((Dev.release_rg ..).trans (hs.rg e (by decide)))
    fun t ht => ?_
  have hrg : ∀ f, Field.ENG_PC_ADDR ≠ f → t.dev.rg f e =
      (d.declareWindow e (d.reg e (iRd w)) (d.reg e (iRs w)) (iImm w)).rg f e :=
    fun f hf => (ht.rg f hf).trans (Dev.release_rg ..)
  refine ⟨⟨?_, ?_, ?_, ht.next⟩, ?_, ?_, ?_⟩
  · exact (hrg _ (by decide)).trans hheld
  · exact (hrg _ (by decide)).trans hrem
  · exact (hrg _ (by decide)).trans hactive
  · exact (hrg _ (by decide)).trans hstart
  · exact (hrg _ (by decide)).trans hend
  · exact (hrg _ (by decide)).trans (hs.rg e (by decide))

theorem Issues.completes_slend {e : EngId} (h : Issues s e 1 6 w d) : Completes (.slend e) s (fun t =>
    (t.dev.rg .ENG_BOB_LREM_HELD e = 0 ∧ t.dev.rg .ENG_BOB_LREM_REM e = 0 ∧ t.dev.rg .ENG_BOB_LREM_ACTIVE e = 0 ∧
      PcNext d t.dev e) ∧ t.dev.rg .ENG_VP e = d.rg .ENG_VP e) := by
  have hs := Dev.endWindow_stores d e
  obtain ⟨hactive, hheld, hrem⟩ := Dev.endWindow_rg d e
  refine h.completes (x := (d.endWindow e).release e) rfl rfl rfl
    ((Dev.release_br _ e).trans (congrArg Eng.br (hs.eng e))) ((Dev.release_rg ..).trans (hs.rg e (by decide)))
    fun t ht => ?_
  have hrg : ∀ f, Field.ENG_PC_ADDR ≠ f → t.dev.rg f e = (d.endWindow e).rg f e :=
    fun f hf => (ht.rg f hf).trans (Dev.release_rg ..)
  exact ⟨⟨(hrg _ (by decide)).trans hheld, (hrg _ (by decide)).trans hrem, (hrg _ (by decide)).trans hactive, ht.next⟩,
    (hrg _ (by decide)).trans (hs.rg e (by decide))⟩

theorem Issues.completes_dmask {e : EngId} (h : Issues s e 3 0 w d) : Completes (.dmask e) s (fun t =>
    PcNext d t.dev e ∧ (t.dev.eng e).dmask = (if iMod w = 0 then d.reg e (iRs w)
      else if iMod w = 1 then (d.eng e).dmask ||| d.reg e (iRs w)
      else (d.eng e).dmask &&& (d.reg e (iRs w) ^^^ (2 ^ 64 - 1)))) := by
  refine h.completes_modEng rfl rfl rfl (fun _ => rfl) fun t ht => ⟨ht.next, ht.dmask.trans ?_⟩
  rw [Dev.modEng_eng_self]
  dsimp only
  split
  · rename_i h0
    rw [if_pos h0]
  · rename_i h1
    rw [if_neg (by omega), if_pos h1]
  · rename_i h0 h1
    rw [if_neg h0, if_neg h1]

theorem Issues.completes_fclr {e : EngId} (h : Issues s e 3 2 w d) (ht : d.tied e = false) (hq : (d.eng e).flagQ = []) :
    Completes (.fclr e) s (fun t => PcNext d t.dev e ∧ t.dev.rg .ENG_FLAGS_FAIL e = 0 ∧ t.dev.rg .ENG_FLAGS_TFAIL e = 0 ∧
      t.dev.rg .ENG_FLAGS_MATCH e = (if iMod w % 2 = 1 then 0 else b2n (d.on .ENG_FLAGS_MATCH e)) ∧
      t.dev.rg .ENG_FLAGS_TMATCH e = (if iMod w % 2 = 1 then 0 else b2n (d.on .ENG_FLAGS_MATCH e))) := by
  have hm : d.clearedMatch e (bitOf (iMod w) 0) = if iMod w % 2 = 1 then 0 else b2n (d.on .ENG_FLAGS_MATCH e) := by
    simp [Dev.clearedMatch, bitOf]
  have hclear := Dev.pushClear_clears (m := bitOf (iMod w) 0) ht hq
  refine h.completes (x := (d.pushClear e (bitOf (iMod w) 0)).flagsUpTo e d.tick flagFuel) rfl rfl rfl hclear.br hclear.pc
    fun t hc => ?_
  exact ⟨hc.next, (hc.rg _ (by decide)).trans hclear.fail, (hc.rg _ (by decide)).trans hclear.tfail,
    ((hc.rg _ (by decide)).trans hclear.match_).trans hm, ((hc.rg _ (by decide)).trans hclear.tmatch).trans hm⟩

theorem Issues.completes_evclr {e : EngId} (h : Issues s e 10 2 w d) : Completes (.evclr e) s (fun t => PcNext d t.dev e ∧
    ∀ k < 16, (t.dev.rg .ENG_EV_PEND_PEND e).testBit k = ((d.rg .ENG_EV_PEND_PEND e).testBit k && (k != iMod w ||
      (d.eng e).evFrom.any (fun p => p.k == k && cycleOf p.arose == cycleOf d.tick)))) := by
  cases hnow : (d.eng e).evFrom.any (fun p => p.k == iMod w && cycleOf p.arose == cycleOf d.tick) with
  | true =>
    refine h.completes (x := d) rfl rfl (by simp [Dev.bodyEvclr, hnow]) rfl rfl fun t ht => ⟨ht.next, fun k _ => ?_⟩
    rw [ht.rg _ (by decide)]
    by_cases hk : k = iMod w
    · rw [hk, hnow, Bool.or_true, Bool.and_true]
    · simp [hk]
  | false =>
    refine h.completes_stores (x := d.clearEv e (iMod w)) rfl rfl (by simp [Dev.bodyEvclr, hnow])
      (Dev.Stores.st d e _ (List.mem_singleton_self _)) (by decide) fun t ht => ⟨ht.next, fun k hk => ?_⟩
    rw [ht.rg _ (by decide), Dev.clearEv_testBit d e _ hk]
    by_cases hki : k = iMod w
    · rw [hki, hnow, Bool.or_false]
    · rw [bne_iff_ne.2 hki, Bool.true_or]

/-- Settles O11: each instruction is one word, so it completes with its effect on the block at its issue. -/
theorem programSettings : Obligations.ProgramSettings := by
  unfold Obligations.ProgramSettings
  intro s e w d
  refine ⟨?vpset, ?vpadd, ?sloop, ?slend, ?tagset, ?tset, ?tsetr, ?dmask, ?flog, ?sfail, ?fclr, ?lvli, ?lvl, ?tack, ?trig,
    ?awgs, ?awgp, ?awgj, ?ddcf, ?ei, ?di, ?evclr, ?even⟩
  case vpset => exact fun h => h.completes_vpSet rfl rfl rfl
  case vpadd => exact fun h => h.completes_vpSet rfl rfl rfl
  case sloop => exact fun h => h.completes_sloop
  case slend => exact fun h => h.completes_slend
  case tagset => exact fun h => h.completes_st rfl rfl rfl (by decide)
  case tset => exact fun h => h.completes_st rfl rfl rfl (by decide)
  case tsetr => exact fun h => h.completes_st rfl rfl rfl (by decide)
  case dmask => exact fun h => h.completes_dmask
  case flog =>
    exact fun h => h.completes_modEng rfl rfl rfl (fun _ => rfl) fun t ht =>
      ⟨ht.next, ht.susp.trans (Dev.modEng_proj d e _ (·.susp))⟩
  case sfail =>
    exact fun h => h.completes_modEng rfl rfl rfl (fun _ => rfl) fun t ht =>
      ⟨ht.next, ht.mark.trans (Dev.modEng_proj d e _ (·.mark))⟩
  case fclr => exact fun h ht hq => h.completes_fclr ht hq
  case lvli => exact fun h => h.completes_anchor rfl rfl rfl
  case lvl => exact fun h => h.completes_anchor rfl rfl (by simp [Dev.bodyLvl, bitsOf])
  case tack =>
    exact fun h hm => h.completes_anchor rfl rfl (by simp [Dev.bodyTack, bitsOf, bitOf, hm])
  case trig =>
    exact fun h hm => h.completes_anchor rfl rfl (by simp [Dev.bodyTrig, bitsOf, bitOf, hm])
  case awgs => exact fun h => h.completes_anchor rfl rfl (by simp [Dev.bodyAwgs, bitsOf])
  case awgp => exact fun h => h.completes_anchor rfl rfl rfl
  case awgj => exact fun h => h.completes_anchor rfl rfl (by simp [Dev.bodyAwgj, bitsOf, bitOf])
  case ddcf => exact fun h => h.completes_anchor rfl rfl rfl
  case ei => exact fun h => h.completes_st (f := .ENG_ESTAT_IE) (v := 1) rfl rfl rfl (by decide)
  case di => exact fun h => h.completes_st (f := .ENG_ESTAT_IE) (v := 0) rfl rfl rfl (by decide)
  case evclr => exact fun h => h.completes_evclr
  case even =>
    exact fun h => h.completes_stores rfl rfl rfl (Dev.Stores.st d e _ (List.mem_singleton_self _)) (by decide)
      fun t ht => ⟨ht.next, fun k hk => by rw [ht.rg _ (by decide), Dev.st_even d e _ hk]⟩

end Sys2Proof.Machine
end

section
/-!
Bobbins: writes of the stream registers, loads, the host's window, refill and arriving lines (R120 to R128).
-/

namespace Sys2Proof.Machine

variable {s : State} {d t : Dev} {e : Nat}

/-! ## Writes that are rejected -/

/-- A write while a burst runs or a load is in progress sets WREJ and changes no other register (R120). -/
theorem Dev.reject_facts (d : Dev) (e : Nat) : (d.st .ENG_BOB_STAT_WREJ e 1).rg .ENG_BOB_STAT_WREJ e = 1 ∧
    ∀ j, j ≠ ⟨.ENG_BOB_STAT_WREJ, e, 0⟩ → (d.st .ENG_BOB_STAT_WREJ e 1).key j = d.key j :=
  ⟨Dev.rg_st_self .., fun _ hj => Dev.key_setKey_ne d 1 hj.symm⟩

/-- A command that answers with WREJ alone. -/
theorem completes_rejected {c : Instr} (hx : exec c s = .next (s.onDev (·.st .ENG_BOB_STAT_WREJ e 1))) :
    Completes c s (fun t => t.dev.rg .ENG_BOB_STAT_WREJ e = 1 ∧ t.mem = s.mem ∧
      ∀ j, j ≠ ⟨.ENG_BOB_STAT_WREJ, e, 0⟩ → t.dev.key j = s.dev.key j) :=
  Completes.onDev hx ⟨(Dev.reject_facts s.dev e).1, rfl, (Dev.reject_facts s.dev e).2⟩

/-- A command that writes a register of an engine acts where the engine's cluster is on (R391). -/
theorem exec_of_engWrite {c : Instr} {g : Dev → Dev} (hx : exec c s = .next (s.onDev (fun d => d.engWrite e g)))
    (hup : s.dev.domOn (3 + e / 16) = true) : exec c s = .next (s.onDev g) := by
  rw [hx]
  exact congrArg (fun d => Host.Outcome.next { s with dev := d }) (if_pos hup)

theorem exec_onDev_congr {c : Instr} {g g' : Dev → Dev} (hx : exec c s = .next (s.onDev g)) (h : g s.dev = g' s.dev) :
    exec c s = .next (s.onDev g') := by
  rw [hx, State.onDev, State.onDev, h]

/-! ## Stream registers -/

/-- A write of all eight bytes of a register gives the written bytes, as far as a field of 38 bits or fewer sees. -/
theorem mergeBytes_whole (old data : Nat) : mergeBytes old 0 8 data % 2 ^ 38 = data % 2 ^ 38 := by
  unfold mergeBytes setBits bitsOf
  norm_num
  omega

section
variable {off data : Nat}

theorem Dev.streamWrite_len (hi : d.streamBusy e = false) : d.streamWrite e 0x208 8 data =
    (d.st .ENG_STR_LEN_LEN e (mergeBytes (d.rg .ENG_STR_LEN_LEN e) 0 8 data)).st .ENG_BOB_STAT_READY e 0 := by
  simp [Dev.streamWrite, hi]

theorem Dev.streamWrite_base (hi : d.streamBusy e = false) : d.streamWrite e 0x200 8 data =
    (d.st .ENG_STR_BASE_LINE e (bitsOf (mergeBytes (d.rg .ENG_STR_BASE_LINE e * 256) 0 8 data) 8 30)).st
      .ENG_BOB_STAT_READY e 0 := by
  simp [Dev.streamWrite, hi]

theorem Dev.streamWrite_busy (hb : ¬d.streamBusy e = false) (h1 : 0x200 ≤ off) (h2 : off < 0x210) (size : Nat) :
    d.streamWrite e off size data = d.st .ENG_BOB_STAT_WREJ e 1 := by
  have hbusy : d.streamBusy e = true := by simpa using hb
  unfold Dev.streamWrite
  by_cases h : off < 0x208
  · simp [h1, h, hbusy]
  · simp [h1, h2, h, Nat.not_lt.1 h, hbusy]

theorem completes_streamLen {e : EngId} (hup : s.dev.domOn (3 + e / 16) = true) (hi : s.dev.streamBusy e = false) :
    Completes (.streamRegisterWrite e 0x208 8 data) s (fun t => t.dev.rg .ENG_STR_LEN_LEN e = data % 2 ^ 38 ∧
      t.dev.rg .ENG_BOB_STAT_READY e = 0) := by
  refine Completes.onDev (exec_of_engWrite rfl hup) ?_
  dsimp only
  rw [Dev.streamWrite_len hi, Dev.rg_st_ne _ _ _ _ (by decide), Dev.rg_st_self]
  exact ⟨mergeBytes_whole _ data, Dev.rg_st_self ..⟩

theorem completes_streamBase {e : EngId} (hup : s.dev.domOn (3 + e / 16) = true) (hi : s.dev.streamBusy e = false) :
    Completes (.streamRegisterWrite e 0x200 8 data) s (fun t => t.dev.rg .ENG_STR_BASE_LINE e = data / 256 % 2 ^ 30 ∧
      t.dev.rg .ENG_BOB_STAT_READY e = 0) := by
  have hline : ∀ old, bitsOf (mergeBytes old 0 8 data) 8 30 % 2 ^ 30 = data / 256 % 2 ^ 30 := fun old => by
    have := mergeBytes_whole old data
    unfold bitsOf
    omega
  refine Completes.onDev (exec_of_engWrite rfl hup) ?_
  dsimp only
  rw [Dev.streamWrite_base hi, Dev.rg_st_ne _ _ _ _ (by decide), Dev.rg_st_self]
  exact ⟨hline _, Dev.rg_st_self ..⟩

theorem completes_streamRejected {e : EngId} (hup : s.dev.domOn (3 + e / 16) = true) (hb : ¬s.dev.streamBusy e = false)
    (h1 : 0x200 ≤ off) (h2 : off < 0x210) : Completes (.streamRegisterWrite e off 8 data) s (fun t =>
      t.dev.rg .ENG_BOB_STAT_WREJ e = 1 ∧ t.mem = s.mem ∧
      ∀ j, j ≠ ⟨.ENG_BOB_STAT_WREJ, e, 0⟩ → t.dev.key j = s.dev.key j) :=
  completes_rejected (exec_onDev_congr (exec_of_engWrite rfl hup) (Dev.streamWrite_busy hb h1 h2 8))

end

/-! ## ENG_STR_CTRL -/

/-- The fields of ENG_STR_CTRL read as a write of the value `c` leaves them (R120). -/
def Dev.TakesCtrl (e c : Nat) (t : Dev) : Prop :=
  t.rg .ENG_STR_CTRL_FORM e = c % 2 ∧ t.rg .ENG_STR_CTRL_MODE e = c / 2 % 2 ∧ t.rg .ENG_STR_CTRL_QUADS e = c / 4 % 32 ∧
  t.rg .ENG_STR_CTRL_PREFILL e = c / 2 ^ 16 % 256 ∧ t.rg .ENG_STR_CTRL_PANIC e = c / 2 ^ 24

/-- The registers that show what a write of ENG_STR_CTRL has stored. -/
def ctrlFields : List Field := [.ENG_STR_CTRL_FORM, .ENG_STR_CTRL_MODE, .ENG_STR_CTRL_QUADS, .ENG_STR_CTRL_PREFILL,
  .ENG_STR_CTRL_PANIC]

theorem Dev.TakesCtrl.congr {c : Nat} (h : Dev.TakesCtrl e c d) (hk : ∀ f ∈ ctrlFields, t.rg f e = d.rg f e) :
    Dev.TakesCtrl e c t := by
  obtain ⟨hform, hmode, hquads, hprefill, hpanic⟩ := h
  exact ⟨(hk _ (by decide)).trans hform, (hk _ (by decide)).trans hmode, (hk _ (by decide)).trans hquads,
    (hk _ (by decide)).trans hprefill, (hk _ (by decide)).trans hpanic⟩

theorem Dev.ctrlWrite_stores (d : Dev) (e v : Nat) :
    Dev.Stores (.ENG_BOB_STAT_READY :: ctrlFields) d (d.ctrlWrite e v) := by
  have hst : ∀ (b : Dev) (f : Field) (n : Nat), f ∈ .ENG_BOB_STAT_READY :: ctrlFields →
      Dev.Stores (.ENG_BOB_STAT_READY :: ctrlFields) b (b.st f e n) := fun b f n hf => .st b e n hf
  have hmodes := ((((hst d .ENG_STR_CTRL_FORM (bitsOf v 0 1) (by decide)).trans
    (hst _ .ENG_STR_CTRL_MODE (bitsOf v 1 1) (by decide))).trans (hst _ .ENG_STR_CTRL_QUADS (bitsOf v 2 5) (by decide))).trans
    (hst _ .ENG_STR_CTRL_PREFILL (bitsOf v 16 8) (by decide))).trans (hst _ .ENG_STR_CTRL_PANIC (bitsOf v 24 8) (by decide))
  unfold Dev.ctrlWrite
  dsimp only
  split
  · exact hmodes.trans (hst _ _ _ (by decide))
  · exact hmodes

theorem Dev.ctrlWrite_takes (d : Dev) (e : Nat) {v : Nat} (hv : v < 2 ^ 32) : Dev.TakesCtrl e v (d.ctrlWrite e v) := by
  have hpanic : v / 2 ^ 24 % 256 = v / 2 ^ 24 := by omega
  have htakes : Dev.TakesCtrl e v (((((d.st .ENG_STR_CTRL_FORM e (bitsOf v 0 1)).st .ENG_STR_CTRL_MODE e
      (bitsOf v 1 1)).st .ENG_STR_CTRL_QUADS e (bitsOf v 2 5)).st .ENG_STR_CTRL_PREFILL e (bitsOf v 16 8)).st
      .ENG_STR_CTRL_PANIC e (bitsOf v 24 8)) := by
    unfold Dev.TakesCtrl
    rw [← hpanic]
    refine ⟨?_, ?_, ?_, ?_, ?_⟩ <;> simp (disch := decide) only [Dev.rg_st_ne, Dev.rg_st_self] <;> simp [bitsOf, Field.info]
  unfold Dev.ctrlWrite
  dsimp only
  split
  · exact htakes.congr fun f hf => Dev.rg_st_ne _ _ _ _ (by revert f; decide)
  · exact htakes

/-- The value that a command writes to ENG_STR_CTRL: the fields of `ctrl`, with bit 0 of `k` for LOAD and bit 1 for
HOSTFILL (R121). -/
def ctrlCommand (ctrl : BitVec 32) (k : Nat) : Nat := setBits ctrl.toNat 8 2 k

theorem ctrlCommand_eq (ctrl : BitVec 32) {k : Nat} (hk : k < 4) :
    ctrlCommand ctrl k = ctrl.toNat - ctrl.toNat / 256 % 4 * 256 + k * 256 := by
  simp only [ctrlCommand, setBits, bitsOf]
  omega

theorem ctrlCommand_bits (ctrl : BitVec 32) {k : Nat} (hk : k < 4) :
    bitOf (ctrlCommand ctrl k) 8 = (k % 2 == 1) ∧ bitOf (ctrlCommand ctrl k) 9 = (k / 2 == 1) := by
  have hv := ctrlCommand_eq ctrl hk
  constructor <;> refine Bool.eq_iff_iff.2 ?_ <;> simp only [bitOf, beq_iff_eq, hv] <;> omega

/-- A command stores the fields of its `ctrl`. -/
theorem Dev.ctrlWrite_command (d : Dev) (e : Nat) (ctrl : BitVec 32) {k : Nat} (hk : k < 4) :
    Dev.TakesCtrl e ctrl.toNat (d.ctrlWrite e (ctrlCommand ctrl k)) := by
  have hlt := ctrl.isLt
  have hv := ctrlCommand_eq ctrl hk
  obtain ⟨hform, hmode, hquads, hprefill, hpanic⟩ := Dev.ctrlWrite_takes d e (v := ctrlCommand ctrl k) (by omega)
  exact ⟨by omega, by omega, by omega, by omega, by omega⟩

theorem Dev.strCtrl_load (hi : d.streamBusy e = false) (ctrl : BitVec 32) :
    d.strCtrl e (ctrlCommand ctrl 1) = (d.ctrlWrite e (ctrlCommand ctrl 1)).load e := by
  obtain ⟨hload, hfill⟩ := ctrlCommand_bits ctrl (k := 1) (by decide)
  simp [Dev.strCtrl, hi, hload, hfill]

theorem Dev.strCtrl_hostfill (hi : d.streamBusy e = false) (ctrl : BitVec 32) :
    d.strCtrl e (ctrlCommand ctrl 2) = (d.ctrlWrite e (ctrlCommand ctrl 2)).hostfill e := by
  obtain ⟨hload, hfill⟩ := ctrlCommand_bits ctrl (k := 2) (by decide)
  simp [Dev.strCtrl, hi, hload, hfill]

/-- A load, or a fill by the host, that is refused (R121). -/
def Dev.refuseLoad (d : Dev) (e : Nat) : Dev := (d.st .ENG_BOB_STAT_LOAD_ERR e 1).st .ENG_BOB_STAT_READY e 0

theorem Dev.load_refused (h : d.loadBad e = true) : d.load e = d.refuseLoad e := by simp [Dev.load, h, Dev.refuseLoad]

theorem Dev.hostfill_refused (h : d.resident e = false) : d.hostfill e = d.refuseLoad e := by
  simp [Dev.hostfill, h, Dev.refuseLoad]

theorem Dev.hostfill_fills (h : d.loadBad e = false) (hr : d.resident e = true) :
    d.hostfill e = (d.st .ENG_VP e 0).st .ENG_BOB_STAT_READY e 1 := by
  simp [Dev.hostfill, h, hr]

theorem Dev.refuseLoad_facts (d : Dev) (e : Nat) : (d.refuseLoad e).rg .ENG_BOB_STAT_LOAD_ERR e = 1 ∧
    (d.refuseLoad e).rg .ENG_BOB_STAT_READY e = 0 ∧ ∀ f ∈ ctrlFields, (d.refuseLoad e).rg f e = d.rg f e :=
  ⟨(Dev.rg_st_ne _ _ _ _ (by decide)).trans (Dev.rg_st_self ..), Dev.rg_st_self .., fun f hf =>
    (Dev.rg_st_ne _ _ _ _ (by revert f; decide)).trans (Dev.rg_st_ne _ _ _ _ (by revert f; decide))⟩

/-- A load that begins (R121): the bobbin is empty, VP is 0, and fetching starts at offset 0. -/
structure Dev.LoadBegun (e : Nat) (d t : Dev) : Prop where
  modes   : ∀ f ∈ ctrlFields, t.rg f e = d.rg f e
  loading : t.rg .ENG_BOB_STAT_LOADING e = 1
  ready   : t.rg .ENG_BOB_STAT_READY e = 0
  vp      : t.rg .ENG_VP e = 0
  lines   : (t.eng e).lines = []
  reqs    : (t.eng e).reqs = []
  fetch   : (t.eng e).fetch = 0

theorem Dev.load_begins (h : d.loadBad e = false) (hq : ¬domK (e / 16) ∈ d.quies) : Dev.LoadBegun e d (d.load e) := by
  have hload : d.load e = ((((d.endWindow e).st .ENG_VP e 0).st .ENG_BOB_STAT_READY e 0).st .ENG_BOB_STAT_LOADING e 1).modEng e
      (fun x => { x with lines := [], reqs := [], fetch := 0, miss := none, pleat := none }) := by
    simp [Dev.load, h, hq]
  rw [hload]
  constructor
  case modes =>
    intro f hf
    have hne : .ENG_VP ≠ f ∧ .ENG_BOB_STAT_READY ≠ f ∧ .ENG_BOB_STAT_LOADING ≠ f ∧
        f ∉ [Field.ENG_BOB_LREM_ACTIVE, .ENG_BOB_LREM_HELD, .ENG_BOB_LREM_REM] := by revert f; decide
    obtain ⟨hvp, hready, hloading, hwindow⟩ := hne
    rw [Dev.modEng_rg, Dev.rg_st_ne _ _ _ _ hloading, Dev.rg_st_ne _ _ _ _ hready, Dev.rg_st_ne _ _ _ _ hvp,
      (Dev.endWindow_writes d e).rg f e hwindow]
  case loading => exact (Dev.modEng_rg ..).trans (Dev.rg_st_self ..)
  case ready =>
    rw [Dev.modEng_rg, Dev.rg_st_ne _ _ _ _ (by decide)]
    exact Dev.rg_st_self ..
  case vp =>
    rw [Dev.modEng_rg, Dev.rg_st_ne _ _ _ _ (by decide), Dev.rg_st_ne _ _ _ _ (by decide)]
    exact Dev.rg_st_self ..
  case lines => exact Dev.modEng_proj _ e _ (·.lines)
  case reqs => exact Dev.modEng_proj _ e _ (·.reqs)
  case fetch => exact Dev.modEng_proj _ e _ (·.fetch)

section
variable {e : EngId} {ctrl : BitVec 32}

theorem completes_load (hup : s.dev.domOn (3 + e / 16) = true) (hi : s.dev.streamBusy e = false)
    (hb : (s.dev.ctrlWrite e (ctrlCommand ctrl 1)).loadBad e = false) (hq : ¬(3 + e.val / 16) ∈ s.dev.quies) :
    Completes (.bobbinLoad e ctrl) s (fun t => Dev.TakesCtrl e ctrl.toNat t.dev ∧
      t.dev.rg .ENG_BOB_STAT_LOADING e = 1 ∧ t.dev.rg .ENG_BOB_STAT_READY e = 0 ∧ t.dev.rg .ENG_VP e = 0 ∧
      (t.dev.eng e).lines = [] ∧ (t.dev.eng e).reqs = [] ∧ (t.dev.eng e).fetch = 0) := by
  have hquies : (s.dev.ctrlWrite e (ctrlCommand ctrl 1)).quies = s.dev.quies := by
    obtain ⟨-, r, h⟩ := Dev.ctrlWrite_stores s.dev e (ctrlCommand ctrl 1)
    rw [h]
  have hbegun := Dev.load_begins hb (by rw [hquies]; exact hq)
  refine Completes.onDev (exec_onDev_congr (exec_of_engWrite rfl hup) (Dev.strCtrl_load hi ctrl)
    (g' := fun d => (d.ctrlWrite e (ctrlCommand ctrl 1)).load e)) ?_
  exact ⟨(Dev.ctrlWrite_command s.dev e ctrl (by decide)).congr hbegun.modes, hbegun.loading, hbegun.ready, hbegun.vp,
    hbegun.lines, hbegun.reqs, hbegun.fetch⟩

/-- A command on ENG_STR_CTRL whose load, or fill by the host, is refused. -/
theorem completes_load_refused {c : Instr} {k : Nat} (hk : k < 4) (hup : s.dev.domOn (3 + e / 16) = true)
    (hx : exec c s = .next (s.onDev (fun d => d.engWrite e (·.strCtrl e (ctrlCommand ctrl k)))))
    (hs : s.dev.strCtrl e (ctrlCommand ctrl k) = (s.dev.ctrlWrite e (ctrlCommand ctrl k)).refuseLoad e) :
    Completes c s (fun t => Dev.TakesCtrl e ctrl.toNat t.dev ∧
      t.dev.rg .ENG_BOB_STAT_LOAD_ERR e = 1 ∧ t.dev.rg .ENG_BOB_STAT_READY e = 0 ∧ t.dev.engs = s.dev.engs) := by
  obtain ⟨herr, hready, hkept⟩ := Dev.refuseLoad_facts (s.dev.ctrlWrite e (ctrlCommand ctrl k)) e
  refine Completes.onDev (exec_onDev_congr (exec_of_engWrite hx hup) hs
    (g' := fun d => (d.ctrlWrite e (ctrlCommand ctrl k)).refuseLoad e)) ?_
  refine ⟨(Dev.ctrlWrite_command s.dev e ctrl hk).congr hkept, herr, hready, ?_⟩
  obtain ⟨-, r, h⟩ := Dev.ctrlWrite_stores s.dev e (ctrlCommand ctrl k)
  show (s.dev.ctrlWrite e (ctrlCommand ctrl k)).engs = _
  rw [h]

theorem completes_hostfill (hup : s.dev.domOn (3 + e / 16) = true) (hi : s.dev.streamBusy e = false)
    (hb : (s.dev.ctrlWrite e (ctrlCommand ctrl 2)).loadBad e = false) (hr : ctrl.toNat / 2 % 2 = 1) :
    Completes (.bobbinHostfill e ctrl) s (fun t => Dev.TakesCtrl e ctrl.toNat t.dev ∧
      t.dev.rg .ENG_BOB_STAT_READY e = 1 ∧ t.dev.rg .ENG_VP e = 0) := by
  obtain ⟨-, hmode, -⟩ := Dev.ctrlWrite_command s.dev e ctrl (k := 2) (by decide)
  have hresident : (s.dev.ctrlWrite e (ctrlCommand ctrl 2)).resident e = true := by simp [Dev.resident, hmode, hr]
  have hfill := (Dev.strCtrl_hostfill hi ctrl).trans (Dev.hostfill_fills hb hresident)
  refine Completes.onDev (exec_onDev_congr (exec_of_engWrite rfl hup) hfill (g' := fun d =>
    ((d.ctrlWrite e (ctrlCommand ctrl 2)).st .ENG_VP e 0).st .ENG_BOB_STAT_READY e 1)) ?_
  refine ⟨(Dev.ctrlWrite_command s.dev e ctrl (k := 2) (by decide)).congr fun f hf => ?_, Dev.rg_st_self .., ?_⟩
  · exact (Dev.rg_st_ne _ _ _ _ (by revert f; decide)).trans (Dev.rg_st_ne _ _ _ _ (by revert f; decide))
  · exact (Dev.rg_st_ne _ _ _ _ (by decide)).trans (Dev.rg_st_self ..)

theorem completes_hostfill_refused (hup : s.dev.domOn (3 + e / 16) = true) (hi : s.dev.streamBusy e = false)
    (hr : ctrl.toNat / 2 % 2 = 0) : Completes (.bobbinHostfill e ctrl) s (fun t =>
      t.dev.rg .ENG_BOB_STAT_LOAD_ERR e = 1 ∧ t.dev.rg .ENG_BOB_STAT_READY e = 0) := by
  obtain ⟨-, hmode, -⟩ := Dev.ctrlWrite_command s.dev e ctrl (k := 2) (by decide)
  have hresident : (s.dev.ctrlWrite e (ctrlCommand ctrl 2)).resident e = false := by simp [Dev.resident, hmode, hr]
  obtain ⟨t, hx, -, herr, hready, -⟩ := completes_load_refused (c := .bobbinHostfill e ctrl) (by decide) hup rfl
    ((Dev.strCtrl_hostfill hi ctrl).trans (Dev.hostfill_refused hresident))
  exact ⟨t, hx, herr, hready⟩

theorem completes_load_rejected (hup : s.dev.domOn (3 + e / 16) = true) (hb : ¬s.dev.streamBusy e = false) :
    Completes (.bobbinLoad e ctrl) s (fun t => t.dev.rg .ENG_BOB_STAT_WREJ e = 1 ∧ t.mem = s.mem ∧
      ∀ j, j ≠ ⟨.ENG_BOB_STAT_WREJ, e, 0⟩ → t.dev.key j = s.dev.key j) :=
  completes_rejected (exec_onDev_congr (exec_of_engWrite rfl hup) (by simp [Dev.strCtrl, hb]))

end

/-! ## Bytes written to memory -/

/-- From memory `m` to memory `m'` the bytes `l` have been written from `a` on, and nothing else. -/
structure Wrote (m m' : List Host.Cell) (a : Nat) (l : List Nat) : Prop where
  wf  : memWf m' = true
  get : ∀ x, memGet m' x = if a ≤ x ∧ x < a + l.length then l.getD (x - a) 0 % 256 else memGet m x

section
variable {m m' m2 : List Host.Cell} {a : Nat} {l l' : List Nat}

theorem Wrote.nil (h : memWf m = true) (a : Nat) : Wrote m m a [] := ⟨h, fun x => by rw [if_neg (by simp)]⟩

theorem memWrite_wrote (h : memWf m = true) (a : Nat) (l : List Nat) : Wrote m (memWrite m a l) a l := by
  refine ⟨memWrite_wf l a h, fun x => ?_⟩
  split
  · rename_i hx
    obtain ⟨i, rfl⟩ := Nat.exists_eq_add_of_le hx.1
    have hi : i < l.length := by omega
    rw [memGet_memWrite_in l a i h hi, Nat.add_sub_cancel_left, List.getD_eq_getElem _ _ hi]
  · exact memGet_memWrite_out l a x h (by omega)

/-- Two writes that follow each other are one. -/
theorem Wrote.append (h : Wrote m m' a l) (h' : Wrote m' m2 (a + l.length) l') : Wrote m m2 a (l ++ l') := by
  refine ⟨h'.wf, fun x => ?_⟩
  rw [h'.get, h.get, List.length_append]
  by_cases hx : x < a + l.length
  · rw [if_neg (by omega)]
    by_cases ha : a ≤ x
    · rw [if_pos ⟨ha, hx⟩, if_pos (by omega), List.getD_append _ _ _ _ (by omega)]
    · rw [if_neg (by omega), if_neg (by omega)]
  · by_cases hx' : x < a + l.length + l'.length
    · rw [if_pos (by omega), if_pos (by omega), List.getD_append_right _ _ _ _ (by omega), Nat.sub_sub]
    · rw [if_neg (by omega), if_neg (by omega), if_neg (by omega)]

/-- Writing bytes over a stored word that was written back as it reads. -/
theorem Wrote.of_same (h : ∀ x, memGet m' x = memGet m x) (h' : Wrote m' m2 a l) : Wrote m m2 a l :=
  ⟨h'.wf, fun x => by rw [h'.get, h]⟩

theorem Wrote.inside (h : Wrote m m' a l) {i : Nat} (hi : i < l.length) : memGet m' (a + i) = l[i] % 256 := by
  rw [h.get, if_pos (by omega), Nat.add_sub_cancel_left, List.getD_eq_getElem _ _ hi]

theorem Wrote.outside (h : Wrote m m' a l) {x : Nat} (hx : x < a ∨ a + l.length ≤ x) : memGet m' x = memGet m x := by
  rw [h.get, if_neg (by omega)]

end

theorem memRead_getElem (m : List Host.Cell) (a n i : Nat) (hi : i < (memRead m a n).length) :
    (memRead m a n)[i] = memGet m (a + i) := by
  induction n generalizing a i with
  | zero => exact absurd hi (by simp [memRead])
  | succ n ih =>
    cases i with
    | zero => rfl
    | succ i => exact (ih (a + 1) i _).trans (by rw [Nat.add_right_comm, Nat.add_assoc])

/-- A word written back as it reads changes no byte. -/
theorem memGet_memWrite_same {m : List Host.Cell} (h : memWf m = true) (a n x : Nat) :
    memGet (memWrite m a (memRead m a n)) x = memGet m x := by
  by_cases hx : x < a ∨ a + n ≤ x
  · exact memGet_memWrite_out _ a x h (by rwa [memRead_length])
  · obtain ⟨i, rfl⟩ := Nat.exists_eq_add_of_le (Nat.not_lt.1 fun hlt => hx (.inl hlt))
    have hi : i < (memRead m a n).length := by rw [memRead_length]; omega
    rw [memGet_memWrite_in _ a i h hi, memRead_getElem, Nat.mod_eq_of_lt (memGet_lt _ m)]

/-- Without errors a word reads as it is stored, or is marked poisoned and reported (R23, R26). -/
theorem Dev.readWord_of_no_errs (he : d.errs = []) (m : List Host.Cell) (cons : Nat) {w : Nat} (hw : w % 16 = 0) :
    ((d.readWord m cons w).1 = some (wordAt m w) ∨ (d.readWord m cons w).1 = none) ∧
      (d.readWord m cons w).2.errs = [] := by
  have hword : w / 16 * 16 = w := by omega
  by_cases hp : w ∈ d.poison
  · have hread : d.readWord m cons w = (none, d.report .poisonSeen w cons []) := by
      simp [Dev.readWord, Dev.decode, hword, hp]
    rw [hread]
    exact ⟨.inr rfl, (Dev.report_dramKept d (by decide) ..).errs.trans he⟩
  · have hread : d.readWord m cons w = (some (wordAt m w), d) := by
      simp [Dev.readWord, Dev.decode, hword, hp, he, AMap.get?]
    rw [hread]
    exact ⟨.inl rfl, he⟩

theorem Dev.markWord_errs (he : d.errs = []) (w : Nat) (bad : Bool) : (d.markWord w bad).errs = [] := by
  simp [Dev.markWord, he, AMap.del]

theorem Dev.dupReport_errs (dup : Bool) (w cons : Nat) : (d.dupReport dup w cons).errs = d.errs := by
  cases dup with
  | false => rfl
  | true => exact (Dev.report_dramKept d (by decide) ..).errs

section
variable {l : List Nat} {a cons : Nat}

/-- A part of a word is merged into the bytes that are stored, whether the word is marked or not (R24). -/
theorem State.writeWord_wrote (hwf : s.wf) (he : s.dev.errs = []) {w o : Nat} (hw : w % 16 = 0) (hl : o + l.length ≤ 16)
    (h : Wr) : Wrote s.mem (s.writeWord cons w o l h).mem (w + o) l ∧ (s.writeWord cons w o l h).dev.errs = [] := by
  unfold State.writeWord
  split
  · have ho : o = 0 := by omega
    subst ho
    exact ⟨memWrite_wrote hwf w l, Dev.markWord_errs he ..⟩
  · obtain ⟨hread, herrs⟩ := Dev.readWord_of_no_errs he s.mem cons hw
    dsimp only
    split
    · rename_i v hv
      have hword : leBytes 16 v = memRead s.mem w 16 := by
        obtain hr | hr := hread
        · rw [hv] at hr
          rw [Option.some.inj hr, leBytes_wordAt hw]
        · rw [hv] at hr
          exact absurd hr (by simp)
      rw [hword]
      exact ⟨.of_same (memGet_memWrite_same hwf w 16) (memWrite_wrote (memWrite_wf _ w hwf) _ l),
        (Dev.dupReport_errs ..).trans (Dev.markWord_errs herrs ..)⟩
    · exact ⟨memWrite_wrote hwf _ l, (Dev.dupReport_errs ..).trans (Dev.markWord_errs herrs ..)⟩

/-- Bytes are written one code word at a time, as many as the fuel has room for. -/
theorem State.writeFuel_wrote (h : Wr) : ∀ (n : Nat) {s : State} {a : Nat} {l : List Nat}, s.wf → s.dev.errs = [] →
    (l ≠ [] → l.length + a % 16 ≤ 16 * n) → Wrote s.mem (s.writeFuel cons a l h n).mem a l := by
  intro n
  induction n with
  | zero =>
    intro s a l hwf _ hn
    have hl : l = [] := by
      by_contra hne
      exact absurd (hn hne) (by have := List.length_pos_iff.2 hne; omega)
    subst hl
    exact .nil hwf a
  | succ n ih =>
    intro s a l hwf he hn
    unfold State.writeFuel
    split
    · rename_i hl
      rw [List.isEmpty_iff.1 hl]
      exact .nil hwf a
    · dsimp only
      have hlen : (l.take (16 - a % 16)).length ≤ 16 - a % 16 := List.length_take_le ..
      obtain ⟨hword, herrs⟩ := State.writeWord_wrote (cons := cons) (w := a / 16 * 16) (o := a % 16)
        (l := l.take (16 - a % 16)) hwf he (by omega) (by omega) h
      rw [show a / 16 * 16 + a % 16 = a by omega] at hword
      have hrest := ih (a := a + (l.take (16 - a % 16)).length) (l := l.drop (16 - a % 16)) hword.wf herrs fun hne => by
        have hlong : 16 - a % 16 < l.length := by
          by_contra hle
          exact hne (List.drop_eq_nil_of_le (Nat.not_lt.1 hle))
        have := hn (List.ne_nil_of_length_pos (by omega))
        rw [List.length_drop, List.length_take_of_le hlong.le]
        omega
      have := hword.append hrest
      rwa [List.take_append_drop] at this

/-- Bytes written to words without errors are in memory, and no other byte has changed (R24). -/
theorem State.writeBytes_wrote (hwf : s.wf) (he : s.dev.errs = []) (h : Wr) :
    Wrote s.mem (s.writeBytes cons a l h).mem a l :=
  State.writeFuel_wrote h _ hwf he fun _ => by omega

end

/-! ## The host's window -/

section
variable {e : EngId} {off : Nat} {bytes : List Byte}

theorem exec_windowWrite (hup : s.dev.domOn (3 + e / 16) = true) : exec (.bobbinWindowWrite e off bytes false false) s =
    .next (s.windowWrite e off (bytes.map (·.toNat)) {}) :=
  congrArg Host.Outcome.next (if_pos hup)

/-- Bytes that end within the window go to its addresses (R123). -/
theorem State.windowWrite_inside {l : List Nat} (hi : s.dev.streamBusy e = false) (hr : s.dev.resident e = true)
    (hlt : off < 65536) (hl : off + l.length ≤ 65536) (h : Wr) :
    s.windowWrite e off l h = s.writeBytes 0x07 (bobMem e + off) l h := by
  have hoff : off % 65536 = off := Nat.mod_eq_of_lt hlt
  simp [State.windowWrite, hi, hr, hoff, List.take_of_length_le (show l.length ≤ 65536 - off by omega)]

theorem completes_windowWrite (hwf : s.wf) (hup : s.dev.domOn (3 + e / 16) = true) (hi : s.dev.streamBusy e = false)
    (hr : s.dev.resident e = true) (he : s.dev.errs = []) (hl : off + bytes.length ≤ 65536) :
    Completes (.bobbinWindowWrite e off bytes false false) s (fun t =>
      (∀ i < bytes.length, memGet t.mem (bobMem e + off + i) = (bytes.getD i 0).toNat) ∧
      ∀ a, (a < bobMem e + off ∨ bobMem e + off + bytes.length ≤ a) → memGet t.mem a = memGet s.mem a) := by
  have hwrote : Wrote s.mem (s.windowWrite e off (bytes.map (·.toNat)) {}).mem (bobMem e + off) (bytes.map (·.toNat)) := by
    by_cases hlt : off < 65536
    · rw [State.windowWrite_inside hi hr hlt (by simpa using hl)]
      exact State.writeBytes_wrote hwf he _
    · have hnil : bytes = [] := List.length_eq_zero_iff.1 (by omega)
      subst hnil
      have hsame : (s.windowWrite e off (([] : List Byte).map (·.toNat)) {}).mem = s.mem := by
        simp [State.windowWrite, hi, hr, State.writeBytes, State.writeFuel]
      rw [hsame]
      exact .nil hwf _
  refine ⟨_, exec_windowWrite hup, fun i hi => ?_, fun a ha => hwrote.outside (by simpa using ha)⟩
  rw [hwrote.inside (by simpa using hi), List.getElem_map, List.getD_eq_getElem _ _ hi]
  exact Nat.mod_eq_of_lt bytes[i].isLt

theorem completes_windowWrite_rejected (hup : s.dev.domOn (3 + e / 16) = true) (hr : s.dev.resident e = false) :
    Completes (.bobbinWindowWrite e off bytes false false) s (fun t => t.dev.rg .ENG_BOB_STAT_WREJ e = 1 ∧ t.mem = s.mem ∧
      ∀ j, j ≠ ⟨.ENG_BOB_STAT_WREJ, e, 0⟩ → t.dev.key j = s.dev.key j) :=
  completes_rejected ((exec_windowWrite hup).trans (by simp [State.windowWrite, hr]))

end

/-! ## Refill -/

/-- The bobbin that is served asks for its next line (R126). -/
theorem completes_refill {e : EngId} {c : CluId} (hup : s.dev.domOn (3 + c) = true) (hp : s.dev.refillPick c = some e.val)
    (hw : s.dev.windowLarge e = false) : Completes (.bobbinRefillRequest c) s (fun t => t.dev.regs = s.dev.regs ∧
      t.dev.eng e = { s.dev.eng e with
        reqs := (s.dev.eng e).reqs ++ [(s.dev.eng e).fetch], fetch := (s.dev.eng e).fetch + 1 }) := by
  have hnext : s.dev.fetchNext e = ((s.dev.eng e).fetch, s.dev) := by simp [Dev.fetchNext, hw]
  have hrefill : s.dev.refillRequest c = s.dev.modEng e (fun x => { x with
      reqs := x.reqs ++ [(s.dev.eng e).fetch], fetch := (s.dev.eng e).fetch + 1 }) := by
    have hon : s.dev.domOn (domK c) = true := hup
    simp [Dev.refillRequest, hon, hp, hnext]
  refine Completes.onDev rfl ?_
  dsimp only
  rw [hrefill]
  exact ⟨rfl, Dev.modEng_eng_self ..⟩

/-! ## A line that arrives -/

theorem Dev.overdue_of_inTime (h : ∀ u, d.rowDeadline e = some u → d.tick ≤ u) : d.overdue e d.tick = d := by
  unfold Dev.overdue
  split
  · rename_i u hu
    rw [if_neg (Nat.not_lt.2 (h u hu))]
  · rfl

/-- A line that arrives in time is fetched, unless its port makes it wait (R128). -/
theorem State.lineArrival_fetches {n : Nat} {rest : List Nat} (ht : ∀ u, s.dev.rowDeadline e = some u → s.dev.tick ≤ u)
    (hq : (s.dev.eng e).reqs = n :: rest) (hp : s.dev.dramPath (s.dev.rg .ENG_STR_BASE_LINE e + n) ≠ .waits) :
    s.lineArrival e = s.lineFetch e n rest := by
  have hsame : s.onDev (fun d => d.overdue e d.tick) = s := by
    rw [State.onDev, Dev.overdue_of_inTime ht]
  unfold State.lineArrival
  simp [hsame, hq, hp]

theorem exec_lineArrival {e : EngId} (hup : s.dev.domOn (3 + e / 16) = true) :
    exec (.bobbinLineArrival e) s = .next (s.lineArrival e) :=
  congrArg Host.Outcome.next (if_pos hup)

/-- A line that is in changes nothing else where no load is in progress and the engine waits for no line. -/
theorem Dev.lineIn_of_idle (hl : d.on .ENG_BOB_STAT_LOADING e = false) (hm : (d.eng e).miss = none) (n : Nat) :
    d.lineIn e n = d := by
  simp [Dev.lineIn, hl, hm]

/-- The last line of a load completes it (R121). -/
theorem Dev.lineIn_of_last (hl : d.on .ENG_BOB_STAT_LOADING e = true) (hd : d.loadDone e = true)
    (hm : (d.eng e).miss = none) (n : Nat) :
    d.lineIn e n = (d.st .ENG_BOB_STAT_LOADING e 0).st .ENG_BOB_STAT_READY e 1 := by
  have hmiss : (((d.st .ENG_BOB_STAT_LOADING e 0).st .ENG_BOB_STAT_READY e 1).eng e).miss = none := hm
  simp [Dev.lineIn, hl, hd, hmiss]

theorem Dev.readPoison_reports (m : List Host.Cell) (cons : Nat) : ∀ (n : Nat) (d : Dev) (a : Nat),
    Reports d (d.readPoison m cons a n).2.2
  | 0, d, _ => Reports.refl d
  | n + 1, d, a => (Dev.readWord_reports d m cons a).trans (Dev.readPoison_reports m cons n _ (a + 16))

/-- A line read for a source changes nothing but what reports change. -/
theorem Dev.dramLine_reports (d : Dev) (m : List Host.Cell) (cons line : Nat) : Reports d (d.dramLine m cons line).2.2 := by
  unfold Dev.dramLine Dev.portWords
  split
  · exact Dev.report_reports ..
  · split
    · exact Reports.refl d
    · exact Dev.readPoison_reports ..

/-- What DRAM gives of the line `n` of the engine's stream: its bytes, their poison, and the block after its reports. -/
def State.lineData (s : State) (e n : Nat) : List Nat × List Bool × Dev :=
  s.dev.dramLine s.mem (if s.dev.on .ENG_BOB_STAT_LOADING e then 0x0E else 0x01) (s.dev.rg .ENG_STR_BASE_LINE e + n)

/-- Where in memory the line `n` goes. -/
def State.lineSlot (s : State) (e n : Nat) : Nat := bobMem e + 256 * (s.dev.eng e).slotFor n

/-- The block with the line `n` in its slot, before a load or a hold may end. -/
def State.lineStored (s : State) (e n : Nat) (rest : List Nat) : Dev :=
  ((s.lineData e n).2.2.markWords (s.lineSlot e n) (s.lineData e n).2.1).modEng e
    (fun x => { x with reqs := rest, lines := x.lines ++ [(n, (s.dev.eng e).slotFor n)] })

theorem State.lineFetch_eq (s : State) (e n : Nat) (rest : List Nat) : s.lineFetch e n rest =
    { s with mem := memWrite s.mem (s.lineSlot e n) (s.lineData e n).1, dev := (s.lineStored e n rest).lineIn e n } := rfl

theorem State.lineStored_regs (s : State) (e n : Nat) (rest : List Nat) :
    (s.lineStored e n rest).regs = (s.lineData e n).2.2.regs := by
  obtain ⟨p, q, h⟩ := Dev.markWords_rest (s.lineSlot e n) (s.lineData e n).2.1 (s.lineData e n).2.2
  rw [State.lineStored, h]
  rfl

theorem State.lineStored_rg (s : State) (e n : Nat) (rest : List Nat) {f : Field} (hf : f ∉ reportFields) :
    (s.lineStored e n rest).rg f e = s.dev.rg f e := by
  have hkey : (s.lineStored e n rest).rg f e = (s.lineData e n).2.2.rg f e := by
    rw [Dev.rg, Dev.key, State.lineStored_regs]
    rfl
  exact hkey.trans ((Dev.dramLine_reports ..).rg f e hf)

theorem State.lineStored_eng (s : State) (e n : Nat) (rest : List Nat) : (s.lineStored e n rest).eng e =
    { s.dev.eng e with reqs := rest, lines := (s.dev.eng e).lines ++ [(n, (s.dev.eng e).slotFor n)] } := by
  obtain ⟨p, q, h⟩ := Dev.markWords_rest (s.lineSlot e n) (s.lineData e n).2.1 (s.lineData e n).2.2
  have heng : ((s.lineData e n).2.2.markWords (s.lineSlot e n) (s.lineData e n).2.1).eng e = s.dev.eng e := by
    rw [h]
    exact (Dev.dramLine_reports ..).eng e
  rw [State.lineStored, Dev.modEng_eng_self, heng]

section
variable {e : EngId} {n : Nat}

/-- A line that arrives while no load is in progress is stored in the bobbin (R121, R126). -/
theorem completes_lineArrival {rest : List Nat} (hwf : s.wf) (hup : s.dev.domOn (3 + e / 16) = true)
    (ht : ∀ u, s.dev.rowDeadline e = some u → s.dev.tick ≤ u) (hq : (s.dev.eng e).reqs = n :: rest)
    (hm : (s.dev.eng e).miss = none) (he : s.dev.errs = []) (hp : s.dev.poison = [])
    (hs : s.dev.dramPath (s.dev.rg .ENG_STR_BASE_LINE e + n) = .served)
    (hz : s.dev.unzeroed (s.dev.rg .ENG_STR_BASE_LINE e + n) = false) (hl : s.dev.on .ENG_BOB_STAT_LOADING e = false) :
    Completes (.bobbinLineArrival e) s (fun t => t.dev.regs = s.dev.regs ∧
      t.dev.eng e = { s.dev.eng e with
        reqs := rest, lines := (s.dev.eng e).lines ++ [(n, (s.dev.eng e).slotFor n)] } ∧
      (∀ i < 256, memGet t.mem (s.lineSlot e n + i) =
        memGet s.mem (dramBase + (s.dev.rg .ENG_STR_BASE_LINE e + n) * 256 + i)) ∧
      ∀ a, (a < s.lineSlot e n ∨ s.lineSlot e n + 256 ≤ a) → memGet t.mem a = memGet s.mem a) := by
  have hdata : s.lineData e n = (memRead s.mem (dramBase + (s.dev.rg .ENG_STR_BASE_LINE e + n) * 256) 256,
      List.replicate 16 false, s.dev) := Dev.dramLine_clean hs hz he hp ..
  have heng := State.lineStored_eng s e n rest
  have hin : (s.lineStored e n rest).lineIn e n = s.lineStored e n rest := by
    refine Dev.lineIn_of_idle ?_ ((congrArg Eng.miss heng).trans hm) n
    rw [Dev.on, State.lineStored_rg s e n rest (by decide)]
    exact hl
  have hwrote := memWrite_wrote hwf (s.lineSlot e n) (s.lineData e n).1
  have hlen : (s.lineData e n).1.length = 256 := by rw [hdata, memRead_length]
  refine ⟨_, (exec_lineArrival hup).trans (congrArg Host.Outcome.next
    ((State.lineArrival_fetches ht hq (by simp [hs])).trans (State.lineFetch_eq s e n rest))), ?_, ?_, fun i hi => ?_,
    fun a ha => hwrote.outside (by rwa [hlen])⟩
  · show ((s.lineStored e n rest).lineIn e n).regs = _
    rw [hin, State.lineStored_regs, hdata]
  · show ((s.lineStored e n rest).lineIn e n).eng e = _
    rw [hin, heng]
  · rw [hwrote.inside (by omega)]
    simp only [hdata, memRead_getElem]
    exact Nat.mod_eq_of_lt (memGet_lt _ _)

/-- The arrival of the last line requested, where none remains to be requested, completes a load (R121). -/
theorem completes_lastArrival (hup : s.dev.domOn (3 + e / 16) = true)
    (ht : ∀ u, s.dev.rowDeadline e = some u → s.dev.tick ≤ u) (hq : (s.dev.eng e).reqs = [n])
    (hm : (s.dev.eng e).miss = none) (hp : s.dev.dramPath (s.dev.rg .ENG_STR_BASE_LINE e + n) ≠ .waits)
    (hl : s.dev.on .ENG_BOB_STAT_LOADING e = true) (hw : s.dev.windowLarge e = false)
    (hlen : s.dev.rg .ENG_STR_LEN_LEN e ≤ (s.dev.eng e).fetch * 256) : Completes (.bobbinLineArrival e) s (fun t =>
      t.dev.rg .ENG_BOB_STAT_LOADING e = 0 ∧ t.dev.rg .ENG_BOB_STAT_READY e = 1 ∧ (t.dev.eng e).reqs = []) := by
  have heng := State.lineStored_eng s e n []
  have hrg : ∀ f ∉ reportFields, (s.lineStored e n []).rg f e = s.dev.rg f e := fun f hf => State.lineStored_rg s e n [] hf
  have hloading : (s.lineStored e n []).on .ENG_BOB_STAT_LOADING e = true := by
    rw [Dev.on, hrg _ (by decide)]
    exact hl
  have hlarge : (s.lineStored e n []).windowLarge e = s.dev.windowLarge e := by
    simp (disch := decide) [Dev.windowLarge, Dev.windowSmall, Dev.windowLines, Dev.resident, Dev.on, hrg]
  have hremain : (s.lineStored e n []).linesRemain e = false := by
    rw [Dev.linesRemain, hlarge, hw, hrg _ (by decide), heng]
    simpa using hlen
  have hdone : (s.lineStored e n []).loadDone e = true := by
    have hreqs : ((s.lineStored e n []).eng e).reqs = [] := congrArg Eng.reqs heng
    simp [Dev.loadDone, hremain, hreqs]
  have hin := Dev.lineIn_of_last hloading hdone ((congrArg Eng.miss heng).trans hm) n
  refine ⟨_, (exec_lineArrival hup).trans (congrArg Host.Outcome.next
    ((State.lineArrival_fetches ht hq hp).trans (State.lineFetch_eq s e n []))), ?_⟩
  dsimp only
  rw [hin]
  exact ⟨(Dev.rg_st_ne _ _ _ _ (by decide)).trans (Dev.rg_st_self ..), Dev.rg_st_self .., congrArg Eng.reqs heng⟩

end

/-- Settles O26: the writes of the stream registers by what they store, the host's window and an arriving line by the bytes
that they leave in memory. -/
theorem bobbins : Obligations.Bobbins := by
  unfold Obligations.Bobbins
  intro s e ctrl off data bytes
  refine ⟨?len, ?base, ?busy, ?load, ?loadBad, ?loadBusy, ?fill, ?fillBad, ?window, ?windowBad, ?refill, ?arrival, ?last⟩
  case len => exact fun hup hi => completes_streamLen hup hi
  case base => exact fun hup hi => completes_streamBase hup hi
  case busy => exact fun hup hb h1 h2 => completes_streamRejected hup hb h1 h2
  case load => exact fun hup hi hb hq => completes_load hup hi hb hq
  case loadBad =>
    exact fun hup hi hb => completes_load_refused (k := 1) (by decide) hup rfl
      ((Dev.strCtrl_load hi ctrl).trans (Dev.load_refused hb))
  case loadBusy => exact fun hup hb => completes_load_rejected hup hb
  case fill => exact fun hup hi hb hr => completes_hostfill hup hi hb hr
  case fillBad => exact fun hup hi hr => completes_hostfill_refused hup hi hr
  case window => exact fun hwf hup hi hr he hl => completes_windowWrite hwf hup hi hr he hl
  case windowBad => exact fun hup hr => completes_windowWrite_rejected hup hr
  case refill => exact fun c hup hp hw => completes_refill hup hp hw
  case arrival =>
    exact fun n rest hwf hup ht hq hm he hp hs hz hl => completes_lineArrival hwf hup ht hq hm he hp hs hz hl
  case last => exact fun n hup ht hq hm hp hl hw hlen => completes_lastArrival hup ht hq hm hp hl hw hlen

end Sys2Proof.Machine
end

section
/-!
Fail records that leave the fail buffer for the ring in DRAM (R157, R158).
-/

namespace Sys2Proof.Machine

variable {s : State} {d : Dev} {e line : Nat}

/-! ## The bytes of words -/

theorem leBytes_length (n v : Nat) : (leBytes n v).length = n := by
  induction n generalizing v with
  | zero => rfl
  | succ n ih => rw [leBytes, List.length_cons, ih]

theorem leBytes_getElem? {n i : Nat} (v : Nat) (hi : i < n) : (leBytes n v)[i]? = some (v / 256 ^ i % 256) := by
  induction n generalizing v i with
  | zero => exact absurd hi (Nat.not_lt_zero i)
  | succ n ih =>
    cases i with
    | zero => simp [leBytes]
    | succ i =>
      rw [leBytes, List.getElem?_cons_succ, ih (v / 256) (Nat.lt_of_succ_lt_succ hi), Nat.div_div_eq_div_mul, Nat.pow_succ']

theorem leBytes_lt {n v : Nat} : ∀ b ∈ leBytes n v, b < 256 := by
  induction n generalizing v with
  | zero => exact fun _ h => nomatch h
  | succ n ih => exact List.forall_mem_cons.2 ⟨Nat.mod_lt _ (by decide), ih⟩

/-- Byte `i` of word `k` of words laid one after another. -/
theorem words_getElem? (g : Nat → Nat) {i : Nat} (hi : i < 16) : ∀ (l : List Nat) {k : Nat} (hk : k < l.length),
    (l.flatMap (fun j => leBytes 16 (g j)))[16 * k + i]? = some (g l[k] / 256 ^ i % 256)
  | j :: l, 0, _ => by
    rw [List.flatMap_cons, List.getElem?_append_left (by rw [leBytes_length]; omega)]
    simpa using leBytes_getElem? (g j) hi
  | j :: l, k + 1, hk => by
    have hrest := words_getElem? g hi l (k := k) (Nat.lt_of_succ_lt_succ hk)
    rw [List.flatMap_cons, List.getElem?_append_right (by rw [leBytes_length]; omega), leBytes_length,
      show 16 * (k + 1) + i - 16 = 16 * k + i by omega]
    exact hrest

theorem words_length (g : Nat → Nat) (l : List Nat) : (l.flatMap (fun j => leBytes 16 (g j))).length = 16 * l.length := by
  simp [List.length_flatMap, leBytes_length, Nat.mul_comm]

/-- Bytes that have been written read back. -/
theorem memRead_memWrite {m : List Host.Cell} {l : List Nat} (h : memWf m = true) (a : Nat) (hl : ∀ b ∈ l, b < 256) :
    memRead (memWrite m a l) a l.length = l := by
  refine List.ext_getElem (memRead_length ..) fun i hi hi' => ?_
  rw [memRead_getElem, memGet_memWrite_in l a i h hi', Nat.mod_eq_of_lt (hl _ (List.getElem_mem hi'))]

/-! ## A whole line -/

/-- A write of a whole line leaves no word of it to merge (R375). -/
theorem State.lineMerge_whole (s : State) (a : Nat) : s.lineMerge a 0 256 = s := by
  have hskip : ∀ ks : List Nat, (∀ k ∈ ks, k < 16) → ks.foldl (fun s k =>
      if 256 = 0 ∨ (0 / 16 ≤ k ∧ k ≤ (0 + 256 - 1) / 16) then s else State.rewriteWord s 0x0C (a + 16 * k)) s = s := by
    intro ks hks
    induction ks with
    | nil => rfl
    | cons k ks ih =>
      have hk := hks k List.mem_cons_self
      rw [List.foldl_cons, if_pos (by omega)]
      exact ih fun j hj => hks j (List.mem_cons_of_mem k hj)
  exact hskip _ fun k hk => List.mem_range.1 hk

/-- A whole line that the port takes is stored word by word with its marks (R25, R375). -/
theorem State.dramStore_line {l : List Nat} (hs : s.dev.dramPath line = .served) (hg : s.dev.awgGuard line = none)
    (hz : s.dev.unzeroed line = false) (hl : l.length = 256) (cons : Nat) (bad : List Bool) :
    s.dramStore cons (line * 256) l bad = s.storeWords (dramBase + line * 256) l bad := by
  have hline : line * 256 / 256 = line := by omega
  have hoff : line * 256 % 256 = 0 := by omega
  have hnot : s.dev.dramPath line ≠ .faults := by simp [hs]
  have hzero : s.zeroAhead line = s := by simp [State.zeroAhead, hz]
  unfold State.dramStore
  simp only [hline, hoff, if_neg hnot, hg, hzero, hl, State.lineMerge_whole]

/-! ## Whose turn it is -/

/-- The engine whose turn it is has a line to spill (R158). -/
theorem Dev.spillReady_of_spillTurn {c u : Nat} (h : d.spillTurn c = some u) : d.spillReady u = true := by
  unfold Dev.spillTurn at h
  exact List.find?_some h

theorem Dev.spillReady_iff : d.spillReady e = true ↔ d.on .ENG_FLOG_CTRL_SPILL e = true ∧ d.domOn (domK (e / 16)) = true ∧
    16 ≤ (d.eng e).fbCnt ∧ 16 ≤ d.rg .ENG_FLOG_SIZE_LINES e ∧ d.ringFull e = false := by
  simp [Dev.spillReady, and_assoc]

/-! ## The records of a line -/

/-- The record in place `k` of the fail buffer; a place without one reads 0 (log 13). -/
def Eng.recAt (x : Eng) (k : Nat) : Nat := (x.recs.find? (·.1 == k)).elim 0 (·.2)

/-- The places of the sixteen oldest records (R157). -/
def Eng.spillSlots (x : Eng) : List Nat := (List.range 16).map (fun k => (x.fbHead + k) % 2048)

/-- The bytes of the sixteen oldest records, oldest first (R157). -/
def Eng.spillBytes (x : Eng) : List Nat := x.spillSlots.flatMap (fun k => leBytes 16 (x.recAt k))

theorem Eng.spillBytes_length (x : Eng) : x.spillBytes.length = 256 := by
  rw [Eng.spillBytes, words_length, Eng.spillSlots, List.length_map, List.length_range]

theorem Eng.spillBytes_getElem? (x : Eng) {k i : Nat} (hk : k < 16) (hi : i < 16) :
    x.spillBytes[16 * k + i]? = some (x.recAt ((x.fbHead + k) % 2048) / 256 ^ i % 256) := by
  have hlen : k < x.spillSlots.length := by simpa [Eng.spillSlots] using hk
  refine (words_getElem? x.recAt hi x.spillSlots hlen).trans ?_
  simp [Eng.spillSlots]

/-- One record read through the decoder and put behind those read before: the bytes, the marks, the block. -/
def Eng.readRecord (x : Eng) (e : Nat) (a : List Nat × List Bool × Dev) (k : Nat) : List Nat × List Bool × Dev :=
  let r := a.2.2.readWord (fbImage e k (x.recAt k)) 0x04 (fbAddr e k)
  (a.1 ++ leBytes 16 (r.1.getD (x.recAt k)), a.2.1 ++ [r.1.isNone], r.2)

/-- A record without error and mark is read as it stands in the buffer (R23, R154). -/
theorem Eng.readRecord_clean (x : Eng) (he : d.errs = []) (hp : d.poison = []) (e k : Nat) (l : List Nat) (bad : List Bool) :
    x.readRecord e (l, bad, d) k = (l ++ leBytes 16 (x.recAt k), bad ++ [false], d) := by
  have haddr : fbAddr e k % 16 = 0 := by unfold fbAddr; omega
  have hbytes : leBytes 16 (wordAt (fbImage e k (x.recAt k)) (fbAddr e k)) = leBytes 16 (x.recAt k) := by
    have hread := memRead_memWrite (m := []) rfl (fbAddr e k) (leBytes_lt (n := 16) (v := x.recAt k))
    rw [leBytes_length] at hread
    exact (leBytes_wordAt haddr).trans hread
  unfold Eng.readRecord
  simp only [Dev.readWord_clean he hp _ _ haddr, Option.getD_some, hbytes, Option.isNone_some]

theorem Eng.readRecords_clean (x : Eng) (he : d.errs = []) (hp : d.poison = []) (e : Nat) : ∀ (ks : List Nat) (l : List Nat)
    (bad : List Bool), ks.foldl (x.readRecord e) (l, bad, d) =
      (l ++ ks.flatMap (fun k => leBytes 16 (x.recAt k)), bad ++ List.replicate ks.length false, d)
  | [], l, bad => by simp
  | k :: ks, l, bad => by
    rw [List.foldl_cons, Eng.readRecord_clean x he hp, Eng.readRecords_clean x he hp e ks]
    simp [List.replicate_succ]

theorem Dev.fbLost_of_none (h : (d.eng e).lost = none) (room : Nat) : d.fbLost e room = d := by
  unfold Dev.fbLost
  simp [h]

/-! ## The spill -/

/-- The line of the ring that the engine fills next (R157). -/
def Dev.ringLine (d : Dev) (e : Nat) : Nat := d.rg .ENG_FLOG_BASE_LINE e + d.rg .ENG_FLOG_WPTR_LINE e

/-- The block once the turn is taken and the words of the line are stored clean (R158). -/
def Dev.lineOut (d : Dev) (e : Nat) : Dev :=
  ({ d with flTurn := d.flTurn.put (e / 16) (e % 16) } : Dev).markWords (dramBase + d.ringLine e * 256)
    (List.replicate 16 false)

theorem Dev.lineOut_facts (d : Dev) (e : Nat) : (∀ f u, (d.lineOut e).rg f u = d.rg f u) ∧
    (d.lineOut e).eng e = d.eng e ∧ (d.lineOut e).flTurn.get? (e / 16) = some (e % 16) := by
  obtain ⟨p, q, h⟩ := Dev.markWords_rest (dramBase + d.ringLine e * 256) (List.replicate 16 false)
    { d with flTurn := d.flTurn.put (e / 16) (e % 16) }
  rw [Dev.lineOut, h]
  exact ⟨fun _ _ => rfl, rfl, AMap.get?_put_self ..⟩

/-- The next line of the ring is WPTR's, and the places in `slots` are free (R157). -/
def Dev.lineTaken (d : Dev) (e : Nat) (slots : List Nat) : Dev :=
  (d.st .ENG_FLOG_WPTR_LINE e ((d.rg .ENG_FLOG_WPTR_LINE e + 1) % d.rg .ENG_FLOG_SIZE_LINES e)).modEng e (fun x =>
    { x with fbHead := (x.fbHead + 16) % 2048, fbCnt := x.fbCnt - 16, fbOld := x.fbOld - 16,
             recs := x.recs.filter (fun r => !slots.contains r.1) })

theorem Dev.lineTaken_facts (d : Dev) (e : Nat) (slots : List Nat) :
    ((d.lineTaken e slots).eng e).lost = (d.eng e).lost ∧ ((d.lineTaken e slots).eng e).fbCnt = (d.eng e).fbCnt - 16 ∧
    ((d.lineTaken e slots).eng e).fbHead = ((d.eng e).fbHead + 16) % 2048 ∧
    (d.lineTaken e slots).flTurn = d.flTurn ∧ (d.lineTaken e slots).rg .ENG_FLOG_WPTR_LINE e =
      (d.rg .ENG_FLOG_WPTR_LINE e + 1) % d.rg .ENG_FLOG_SIZE_LINES e % 2 ^ 32 :=
  ⟨Dev.modEng_proj _ e _ (·.lost), Dev.modEng_proj _ e _ (·.fbCnt), Dev.modEng_proj _ e _ (·.fbHead), rfl,
    Dev.rg_st_self ..⟩

/-- What a spill does with the records it has read: their bytes, their marks, and the block after their reports. -/
def State.spillRead (s : State) (e : Nat) (r : List Nat × List Bool × Dev) : State :=
  let d := if r.2.1.any id then r.2.2.st .ENG_RES_STAT_LOGINC e 1 else r.2.2
  (State.dramStore { s with dev := { d with flTurn := d.flTurn.put (e / 16) (e % 16) } } 0x04 (s.dev.ringLine e * 256) r.1
    r.2.1).onDev (fun d => (d.lineTaken e (s.dev.eng e).spillSlots).fbLost e 2046)

theorem State.failSpill_eq (s : State) (e : Nat) : s.failSpill e =
    if s.dev.spillTurn (e / 16) == some e && s.dev.writePath (s.dev.ringLine e) != .waits then
      s.spillRead e ((s.dev.eng e).spillSlots.foldl ((s.dev.eng e).readRecord e) ([], [], s.dev))
    else s := rfl

theorem State.failSpill_of_no_turn (h : s.dev.spillTurn (e / 16) ≠ some e) : s.failSpill e = s := by
  simp [State.failSpill_eq, h]

/-- Where no record carries an error or a mark and no loss is due, the line goes to DRAM as the buffer holds it. -/
theorem State.failSpill_of_turn (ht : s.dev.spillTurn (e / 16) = some e) (hw : s.dev.writePath (s.dev.ringLine e) = .served)
    (hg : s.dev.awgGuard (s.dev.ringLine e) = none) (hz : s.dev.unzeroed (s.dev.ringLine e) = false)
    (he : s.dev.errs = []) (hp : s.dev.poison = []) (hl : (s.dev.eng e).lost = none) : s.failSpill e =
      { s with mem := memWrite s.mem (dramBase + s.dev.ringLine e * 256) (s.dev.eng e).spillBytes,
               dev := (s.dev.lineOut e).lineTaken e (s.dev.eng e).spillSlots } := by
  have hturn : (s.dev.spillTurn (e / 16) == some e && s.dev.writePath (s.dev.ringLine e) != .waits) = true := by simp [ht, hw]
  have hread : (s.dev.eng e).spillSlots.foldl ((s.dev.eng e).readRecord e) ([], [], s.dev) =
      ((s.dev.eng e).spillBytes, List.replicate 16 false, s.dev) :=
    Eng.readRecords_clean (s.dev.eng e) he hp e (s.dev.eng e).spillSlots [] []
  have hstore : State.dramStore { s with dev := { s.dev with flTurn := s.dev.flTurn.put (e / 16) (e % 16) } } 0x04
      (s.dev.ringLine e * 256) (s.dev.eng e).spillBytes (List.replicate 16 false) =
        { s with mem := memWrite s.mem (dramBase + s.dev.ringLine e * 256) (s.dev.eng e).spillBytes,
                 dev := s.dev.lineOut e } :=
    State.dramStore_line (s := { s with dev := { s.dev with flTurn := s.dev.flTurn.put (e / 16) (e % 16) } })
      (Dev.dramPath_of_writePath hw) hg hz (s.dev.eng e).spillBytes_length 0x04 (List.replicate 16 false)
  have hlost : (((s.dev.lineOut e).lineTaken e (s.dev.eng e).spillSlots).eng e).lost = none := by
    rw [(Dev.lineTaken_facts ..).1, (Dev.lineOut_facts s.dev e).2.1, hl]
  have hmarks : ¬(List.replicate 16 false).any id = true := by decide
  rw [State.failSpill_eq, if_pos hturn, hread, State.spillRead]
  simp only [if_neg hmarks]
  rw [hstore, State.onDev, Dev.fbLost_of_none hlost]

/-- On its turn the engine's sixteen oldest records go to the line at WPTR, which moves on round the ring (R157, R158). -/
theorem completes_failSpill {e : EngId} (hwf : s.wf) (ht : s.dev.spillTurn (e / 16) = some e.val)
    (hn : s.dev.rg .ENG_FLOG_SIZE_LINES e < 2 ^ 32) (hw : s.dev.writePath (s.dev.ringLine e) = .served)
    (hg : s.dev.awgGuard (s.dev.ringLine e) = none) (hz : s.dev.unzeroed (s.dev.ringLine e) = false)
    (he : s.dev.errs = []) (hp : s.dev.poison = []) (hl : (s.dev.eng e).lost = none) :
    Completes (.failSpillLine e) s (fun t =>
      t.dev.rg .ENG_FLOG_WPTR_LINE e = (s.dev.rg .ENG_FLOG_WPTR_LINE e + 1) % s.dev.rg .ENG_FLOG_SIZE_LINES e ∧
      (t.dev.eng e).fbCnt = (s.dev.eng e).fbCnt - 16 ∧ (t.dev.eng e).fbHead = ((s.dev.eng e).fbHead + 16) % 2048 ∧
      t.dev.flTurn.get? (e / 16) = some (e.val % 16) ∧
      (∀ k < 16, ∀ i < 16, memGet t.mem (dramBase + s.dev.ringLine e * 256 + 16 * k + i) =
        (s.dev.eng e).recAt (((s.dev.eng e).fbHead + k) % 2048) / 256 ^ i % 256) ∧
      ∀ a, (a < dramBase + s.dev.ringLine e * 256 ∨ dramBase + s.dev.ringLine e * 256 + 256 ≤ a) →
        memGet t.mem a = memGet s.mem a) := by
  obtain ⟨-, -, -, hlines, -⟩ := Dev.spillReady_iff.1 (Dev.spillReady_of_spillTurn ht)
  obtain ⟨hrg, heng, hturn⟩ := Dev.lineOut_facts s.dev e
  obtain ⟨-, hcnt, hhead, hlast, hwptr⟩ := Dev.lineTaken_facts (s.dev.lineOut e) e (s.dev.eng e).spillSlots
  rw [heng] at hcnt hhead
  rw [hrg, hrg, Nat.mod_eq_of_lt ((Nat.mod_lt _ (by omega)).trans hn)] at hwptr
  have hwrote := memWrite_wrote hwf (dramBase + s.dev.ringLine e * 256) (s.dev.eng e).spillBytes
  have hlen := (s.dev.eng e).spillBytes_length
  refine ⟨_, congrArg Host.Outcome.next (State.failSpill_of_turn ht hw hg hz he hp hl), hwptr, hcnt, hhead, ?_,
    fun k hk i hi => ?_, fun a ha => ?_⟩
  · rwa [← hlast] at hturn
  · have hin : 16 * k + i < (s.dev.eng e).spillBytes.length := by omega
    have hbyte := (List.getElem_eq_iff hin).2 ((s.dev.eng e).spillBytes_getElem? hk hi)
    rw [Nat.add_assoc, hwrote.inside hin, hbyte, Nat.mod_mod]
  · dsimp only
    exact hwrote.outside (by rwa [hlen])

/-- An engine that does not spill, holds fewer than sixteen records or has its ring full has no turn (R157, R158). -/
theorem Dev.spillTurn_ne_of_not_ready {c : Nat} (h : d.on .ENG_FLOG_CTRL_SPILL e = false ∨ (d.eng e).fbCnt < 16 ∨
    d.rg .ENG_FLOG_SIZE_LINES e < 16 ∨ d.ringFull e = true) : d.spillTurn c ≠ some e := by
  intro ht
  obtain ⟨hspill, -, hcnt, hlines, hfull⟩ := Dev.spillReady_iff.1 (Dev.spillReady_of_spillTurn ht)
  obtain h | h | h | h := h
  · simp [hspill] at h
  · omega
  · omega
  · simp [hfull] at h

/-- Settles O27: the engine on its turn by the bytes that its line leaves in memory, any other by the order of turns, which
passes over an engine that has no line to spill. -/
theorem failSpill : Obligations.FailSpill := by
  unfold Obligations.FailSpill
  intro s e
  refine ⟨?turn, ?noTurn, ?notReady⟩
  case turn => exact fun hwf ht hn hw hg hz he hp hl => completes_failSpill hwf ht hn hw hg hz he hp hl
  case noTurn => exact fun h => congrArg Host.Outcome.next (State.failSpill_of_no_turn h)
  case notReady => exact fun h => Dev.spillTurn_ne_of_not_ready h

end Sys2Proof.Machine
end

section
/-!
Delayed branches, the end of an MWAIT, and a fail that becomes visible to branches (R141, R179, R212).
-/

namespace Sys2Proof.Machine

variable {s : State} {d t u : Dev} {e w : Nat}

/-! ## The row that an instruction consumes -/

/-- The registers of the stream's position, its loop window and its misses, and those of a report. -/
def streamFields : List Field :=
  [.ENG_VP, .ENG_STR_PPOS_REP, .ENG_STR_PPOS_ROW, .ENG_BOB_LREM_ACTIVE, .ENG_BOB_LREM_HELD, .ENG_BOB_LREM_REM,
    .ENG_BOB_MISS_COUNT] ++ reportFields

/-- Engine `e` has moved along its stream: the registers of the stream may have changed, a delay region has not. -/
structure Dev.StreamMove (e : Nat) (d t : Dev) : Prop where
  writes : Dev.WritesOnly streamFields d t
  br     : (t.eng e).br = (d.eng e).br

namespace Dev.StreamMove

theorem refl (e : Nat) (d : Dev) : Dev.StreamMove e d d := ⟨.refl _ d, rfl⟩

theorem trans (h : Dev.StreamMove e d t) (h' : Dev.StreamMove e t u) : Dev.StreamMove e d u :=
  ⟨h.writes.trans h'.writes, h'.br.trans h.br⟩

theorem st {f : Field} (h : Dev.StreamMove e d t) (x v : Nat) (hf : f ∈ streamFields) : Dev.StreamMove e d (t.st f x v) :=
  h.trans ⟨.st t x v hf, rfl⟩

theorem setEng {x : Eng} (h : Dev.StreamMove e d t) (hx : x.br = (t.eng e).br) : Dev.StreamMove e d (t.setEng e x) :=
  h.trans ⟨.of_eqs rfl rfl, (congrArg Eng.br (Dev.eng_setEng_self t e x)).trans hx⟩

theorem modEng {g : Eng → Eng} (h : Dev.StreamMove e d t) (hg : ∀ x, (g x).br = x.br) :
    Dev.StreamMove e d (t.modEng e g) := h.setEng (hg _)

theorem ite {c : Prop} [Decidable c] (ht : Dev.StreamMove e d t) (hu : Dev.StreamMove e d u) :
    Dev.StreamMove e d (if c then t else u) := by
  split
  · exact ht
  · exact hu

theorem of_reports (h : Reports d t) (e : Nat) : Dev.StreamMove e d t :=
  ⟨⟨fun j hj => h.key j fun hr => hj (List.mem_append_right _ hr), h.tick⟩, congrArg Eng.br (h.eng e)⟩

end Dev.StreamMove

theorem Dev.endWindow_move (d : Dev) (e : Nat) : Dev.StreamMove e d (d.endWindow e) :=
  ⟨(Dev.endWindow_writes d e).mono (by decide), rfl⟩

theorem Dev.release_move (d : Dev) (e : Nat) : Dev.StreamMove e d (d.release e) := by
  unfold Dev.release
  exact .ite (.refl e d) ((Dev.StreamMove.refl e d).modEng fun _ => rfl)

/-- VP passes on (R125). -/
theorem Dev.vpPass_move (d : Dev) (e vp : Nat) : Dev.StreamMove e d (d.vpPass e vp) := by
  have hvp : Dev.StreamMove e d (d.st .ENG_VP e vp) := (Dev.StreamMove.refl e d).st e vp (by decide)
  unfold Dev.vpPass
  refine Dev.StreamMove.trans ?_ (Dev.release_move _ e)
  exact .ite hvp (.ite (hvp.trans (Dev.endWindow_move _ e)) (.ite (hvp.st e 1 (by decide)) hvp))

theorem Dev.missAt_move (d : Dev) (e line : Nat) : Dev.StreamMove e d (d.missAt e line) := by
  obtain ⟨⟨_, _, _, _, _, _, heng⟩, hkey⟩ := Dev.missAt_keeps d e line
  have hne : ∀ {j : RegKey} {f : Field}, j.f ∉ streamFields → f ∈ streamFields → j ≠ ⟨f, e, 0⟩ :=
    fun hj hf h => hj (h ▸ hf)
  exact ⟨⟨fun j hj => hkey j (hne hj (by decide)) (hne hj (by decide)), rfl⟩, by rw [heng]⟩

/-- A line that is absent is a miss, or awaited (R124). -/
theorem Dev.lineAbsent_move (d : Dev) (e line : Nat) : Dev.StreamMove e d (d.lineAbsent e line) := by
  unfold Dev.lineAbsent
  exact .ite (.refl e d) (.ite ((Dev.StreamMove.refl e d).setEng rfl) (Dev.missAt_move d e line))

theorem Dev.streamBytes_reports (d : Dev) (m : List Host.Cell) (e off n : Nat) : Reports d (d.streamBytes m e off n).2 := by
  unfold Dev.streamBytes
  dsimp only
  split
  · exact .refl d
  · exact .refl d
  · dsimp only
    split
    · exact Dev.readBytes_reports ..
    · exact (Dev.readBytes_reports ..).trans (Dev.readBytes_reports ..)

/-- A header read ahead ends no burst: it begins a pleat, meets an absent line, or leaves the error to the row that needs
it (R119). -/
theorem Dev.header_ahead_move (m : List Host.Cell) (e : Nat) : ∀ (n : Nat) (d : Dev),
    Dev.StreamMove e d (d.header m e true n).2 := by
  intro n
  induction n with
  | zero => exact fun d => .refl e d
  | succ n ih =>
    intro d
    have hread := Dev.StreamMove.of_reports (Dev.streamBytes_reports d m e (d.rg .ENG_VP e) 8) e
    unfold Dev.header
    rcases hr : d.streamBytes m e (d.rg .ENG_VP e) 8 with ⟨q, b⟩
    replace hread : Dev.StreamMove e d b := by rwa [hr] at hread
    simp only [hr, Bool.not_true, Bool.and_false, Bool.false_eq_true, if_false, if_true]
    split
    · exact .refl e d
    · split
      · exact .refl e d
      · cases q with
        | absent l => exact hread.trans (Dev.lineAbsent_move b e l)
        | unreadable => exact hread
        | bytes l =>
          dsimp only
          split
          · exact hread
          · split
            · exact hread
            · split
              · exact (hread.trans (Dev.vpPass_move b e _)).trans (ih _)
              · dsimp only
                refine .modEng (.st (.st hread e _ ?_) e _ ?_) ?_
                · decide
                · decide
                · exact fun _ => rfl

/-- A consumed row moves the stream on and nothing else (R115, R119). -/
theorem Dev.consume_move (d : Dev) (m : List Host.Cell) (e : Nat) : Dev.StreamMove e d (d.consume m e) := by
  unfold Dev.consume
  split
  · exact Dev.vpPass_move ..
  · split
    · exact .refl e d
    · dsimp only
      split
      · exact (Dev.StreamMove.refl e d).st e _ (by decide)
      · have hrow : Dev.StreamMove e d (d.st .ENG_STR_PPOS_ROW e 0) := (Dev.StreamMove.refl e d).st e 0 (by decide)
        split
        · exact hrow.st e _ (by decide)
        · refine .trans (.trans ?_ (Dev.vpPass_move _ e _)) (Dev.header_ahead_move m e headerFuel _)
          exact (hrow.st e 0 (by decide)).modEng fun _ => rfl

/-! ## The judgement that ends an MWAIT -/

/-- An engine whose next issue cycle is still to come has issued all rows up to now. -/
theorem Dev.catchUp_of_lt_free {k : Nat} (h : k < (d.eng e).free) (m : List Host.Cell) : d.catchUp m e k = d := by
  unfold Dev.catchUp Dev.runUntil
  simp [Nat.not_le.2 h]

/-- Outside a recovery an instruction goes on only in a burst that runs. -/
theorem Dev.runs_of_goesOn (h : d.goesOn e = true) (hr : (d.eng e).recov = none) : d.runs e = true := by
  obtain ⟨hstate, -⟩ : (d.estate e = 1 ∨ d.estate e = 2) ∧ (d.eng e).miss = none := by simpa [Dev.goesOn, hr] using h
  unfold Dev.runs
  obtain h1 | h2 := hstate
  · rw [h1]; rfl
  · rw [h2]; rfl

/-- A counted judgement shown to an MWAIT ends it where it is a match, and otherwise where it is the last (R212). -/
theorem Dev.mwaitDecision_of_judged {v : Nat} {b : Bool} (hact : (d.eng e).act = some w) (hcls : iCls w = 3) (hop : iOp w = 4)
    (hmod : iMod w % 2 = 0) (hgo : d.goesOn e = true) (hrec : (d.eng e).recov = none) (hfree : d.tick < (d.eng e).free)
    (hj : (d.eng e).judged = [(v, b)]) (hlo : d.prog e 2 ≤ v) (hhi : v < d.prog e 2 + iImm w) (m : List Host.Cell) :
    d.mwaitDecision m e = if b then ((d.setProg e 1 v).st .ENG_FLAGS_ZERO e 0).mwaitOver m e
      else if v + 1 = d.prog e 2 + iImm w then ((d.st .ENG_FLAGS_ZERO e 1).raise e 1).mwaitOver m e else d := by
  have hwait : isMwait w = true := by simp [isMwait, hcls, hop]
  have hshown : d.rowsShown e w = [(v, b)] := by simp [Dev.rowsShown, bitOf, hmod, hj]
  unfold Dev.mwaitDecision
  cases b <;> simp [hact, hwait, hrec, hshown, hlo, hhi, Dev.catchUp_of_lt_free hfree, hgo]

theorem Dev.finish_act (d : Dev) (e : Nat) : ((d.finish e).eng e).act = none := by
  obtain ⟨_, _, _, heng⟩ := Dev.finish_eng d e
  rw [heng]

/-- An MWAIT that ends consumes its row and completes: registers of neither the stream nor the program counter change. -/
theorem Dev.mwaitOver_facts (d : Dev) (m : List Host.Cell) (e : Nat) :
    (∀ f ∉ .ENG_PC_ADDR :: streamFields, ∀ i, (d.mwaitOver m e).rgi f e i = d.rgi f e i) ∧
    ((d.mwaitOver m e).eng e).act = none ∧ PcNext d (d.mwaitOver m e) e := by
  have hclear := (Dev.StreamMove.refl e d).modEng (g := fun y =>
    { y with free := max y.free (nextCycle d.tick), judged := [], gjudged := [] }) fun _ => rfl
  have hmove := hclear.trans (Dev.consume_move _ m e)
  unfold Dev.mwaitOver
  refine ⟨fun f hf i => ?_, ?_, PcNext.finish hmove.br (hmove.writes.rg _ _ (by decide))⟩
  · have hpc : Field.ENG_PC_ADDR ≠ f := fun h => hf (h ▸ List.mem_cons_self)
    exact (Dev.finish_key _ _ hpc).trans (hmove.writes.key ⟨f, e, i⟩ fun h => hf (List.mem_cons_of_mem _ h))
  · exact Dev.finish_act _ e

/-- What the flags and the events take before an MWAIT ends leaves where the engine goes on. -/
theorem PcNext.of_before (hb : (t.eng e).br = (d.eng e).br) (hp : t.rg .ENG_PC_ADDR e = d.rg .ENG_PC_ADDR e)
    (h : PcNext t u e) : PcNext d u e := fun hn => by rw [h (hb.trans hn), hp]

/-- An event that is raised changes, of what the engine holds beside its registers, only since when it can be taken. -/
theorem Dev.raiseOne_proj {α : Type} (d : Dev) (e k n : Nat) (p : Eng → α) (hp : ∀ x l, p { x with evFrom := l } = p x) :
    p ((d.raiseOne e k n).eng e) = p (d.eng e) := by
  unfold Dev.raiseOne
  split
  · exact (Dev.modEng_proj _ e _ p).trans (hp ..)
  · rfl

/-- An event raised in a burst that runs is pending (R183). -/
theorem Dev.raiseOne_pending (h : d.runs e = true) {k : Nat} (hk : k < 16) (n : Nat) :
    ((d.raiseOne e k n).rg .ENG_EV_PEND_PEND e).testBit k = true := by
  unfold Dev.raiseOne
  rw [if_pos h]
  refine (congrArg (Nat.testBit · k) (Dev.rg_st_self d ..)).trans ?_
  rw [show Field.ENG_EV_PEND_PEND.info.width = 16 from rfl, Nat.testBit_mod_two_pow]
  simp [hk]

section
variable {e : EngId} {v : Nat} (hact : (s.dev.eng e).act = some w) (hcls : iCls w = 3) (hop : iOp w = 4)
  (hmod : iMod w % 2 = 0) (hgo : s.dev.goesOn e = true) (hrec : (s.dev.eng e).recov = none)
  (hfree : s.dev.tick < (s.dev.eng e).free)
include hact hcls hop hmod hgo hrec hfree

/-- The first counted row that matches ends the MWAIT with its vector count in PROG1 (R212). -/
theorem completes_mwait_match (hj : (s.dev.eng e).judged = [(v, true)]) (hlo : s.dev.prog e 2 ≤ v)
    (hhi : v < s.dev.prog e 2 + iImm w) : Completes (.mwaitDecision e) s (fun t => t.dev.prog e 1 = v % 2 ^ 64 ∧
      t.dev.rg .ENG_FLAGS_ZERO e = 0 ∧ (t.dev.eng e).act = none ∧ PcNext s.dev t.dev e) := by
  refine Completes.onDev rfl ?_
  dsimp only
  rw [Dev.mwaitDecision_of_judged hact hcls hop hmod hgo hrec hfree hj hlo hhi, if_pos rfl]
  obtain ⟨hkey, hnone, hnext⟩ := Dev.mwaitOver_facts ((s.dev.setProg e 1 v).st .ENG_FLAGS_ZERO e 0) s.mem e
  refine ⟨(hkey .ENG_PROG (by decide) 1).trans ?_, (hkey .ENG_FLAGS_ZERO (by decide) 0).trans (Dev.rg_st_self ..), hnone,
    hnext.of_before ?_ ?_⟩
  · exact (Dev.key_st_ne (f := .ENG_FLAGS_ZERO) (j := ⟨.ENG_PROG, e, 1⟩) _ _ _ (by simp)).trans (Dev.key_setKey_self ..)
  · rfl
  · exact (Dev.rg_st_ne _ _ _ _ (by decide)).trans
      (Dev.key_sti_ne (f := .ENG_PROG) (j := ⟨.ENG_PC_ADDR, e, 0⟩) _ _ _ _ (by simp))

/-- The last counted row ends the MWAIT also without a match, and raises its event (R212). -/
theorem completes_mwait_last (hj : (s.dev.eng e).judged = [(v, false)]) (hlo : s.dev.prog e 2 ≤ v)
    (hlast : v + 1 = s.dev.prog e 2 + iImm w) : Completes (.mwaitDecision e) s (fun t =>
      t.dev.prog e 1 = s.dev.prog e 1 ∧ t.dev.rg .ENG_FLAGS_ZERO e = 1 ∧ (t.dev.rg .ENG_EV_PEND_PEND e).testBit 1 ∧
      (t.dev.eng e).act = none ∧ PcNext s.dev t.dev e) := by
  refine Completes.onDev rfl ?_
  dsimp only
  rw [Dev.mwaitDecision_of_judged hact hcls hop hmod hgo hrec hfree hj hlo (by omega), if_neg Bool.false_ne_true, if_pos hlast]
  obtain ⟨hkey, hnone, hnext⟩ := Dev.mwaitOver_facts ((s.dev.st .ENG_FLAGS_ZERO e 1).raise e 1) s.mem e
  have hraise := (Dev.raise_frame (s.dev.st .ENG_FLAGS_ZERO e 1) e 1).writes
  have hruns : (s.dev.st .ENG_FLAGS_ZERO e 1).runs e = true :=
    (Dev.runs_congr (Dev.rg_st_ne _ _ _ _ (by decide))).trans (Dev.runs_of_goesOn hgo hrec)
  refine ⟨(hkey .ENG_PROG (by decide) 1).trans ?_, (hkey .ENG_FLAGS_ZERO (by decide) 0).trans ?_, ?_, hnone,
    hnext.of_before ?_ ?_⟩
  · exact (hraise.key ⟨.ENG_PROG, e, 1⟩ (by simp)).trans (Dev.key_st_ne _ _ _ (by simp))
  · exact (hraise.rg .ENG_FLAGS_ZERO e (by decide)).trans (Dev.rg_st_self ..)
  · exact (congrArg (Nat.testBit · 1) (hkey .ENG_EV_PEND_PEND (by decide) 0)).trans
      (Dev.raiseOne_pending hruns (by decide) _)
  · exact Dev.raiseOne_proj _ e 1 _ (·.br) fun _ _ => rfl
  · exact (hraise.rg _ _ (by decide)).trans (Dev.rg_st_ne _ _ _ _ (by decide))

end

/-! ## The decision of a branch -/

/-- When a branch on the flags is decided: 40 cycles after its row resolves at `t0`, and the tie latency more on a combined
flag (R141, R179). -/
def Dev.decisionDue (d : Dev) (e : Nat) (b : Brn) (t0 : Nat) : Nat :=
  t0 + 40 * cyc + (if 5 ≤ b.cond then d.tieLat e * cyc else 0)

/-- The block at a branch's decision, with the flags that are visible by then. -/
def Dev.decides (d : Dev) (e : Nat) (b : Brn) (t0 : Nat) : Dev :=
  (d.advanceTo (d.decisionDue e b t0)).flagsUpTo e (d.decisionDue e b t0) flagFuel

section
variable {b : Brn} {t0 : Nat} (hbr : (d.eng e).br = some b) (hdec : b.decided = none) (htr : b.tr = some t0)
include hbr hdec htr

/-- After the last instruction of the delay region control transfers at the decision (R179, R202). -/
theorem Dev.branchDecision_at_end (hleft : b.left = 0) : d.branchDecision e =
    (((d.decides e b t0).modEng e (fun x =>
      { x with br := none, free := max x.free (nextCycle (d.decides e b t0).tick + cyc) })).setPc e
      (if (d.decides e b t0).cond e b.cond then b.target else b.after)) := by
  unfold Dev.branchDecision
  simp only [hbr, hdec, htr, hleft, if_true]
  rfl

/-- Inside the delay region the decision is kept for its end (R202). -/
theorem Dev.branchDecision_inside (hleft : b.left ≠ 0) : d.branchDecision e =
    (d.decides e b t0).modEng e (fun x => { x with br := some { b with decided := some ((d.decides e b t0).cond e b.cond) } }) := by
  unfold Dev.branchDecision
  simp only [hbr, hdec, htr, if_neg hleft]
  rfl

end

theorem Dev.setPc_br (d : Dev) (e a : Nat) : ((d.setPc e a).eng e).br = (d.eng e).br := Dev.modEng_proj _ e _ (·.br)

theorem completes_branch_at_end {e : EngId} {b : Brn} {t0 : Nat} (hbr : (s.dev.eng e).br = some b) (hdec : b.decided = none)
    (htr : b.tr = some t0) (hleft : b.left = 0) : Completes (.branchDecision e) s (fun t => (t.dev.eng e).br = none ∧
      t.dev.rg .ENG_PC_ADDR e = (if (s.dev.decides e b t0).cond e b.cond then b.target else b.after) % 2 ^ 16) := by
  refine Completes.onDev rfl ?_
  dsimp only
  rw [Dev.branchDecision_at_end hbr hdec htr hleft]
  refine ⟨?_, (Dev.setPc_key ..).trans (if_pos rfl)⟩
  exact (Dev.setPc_br ..).trans (Dev.modEng_proj _ e _ (·.br))

theorem completes_branch_inside {e : EngId} {b : Brn} {t0 : Nat} (hbr : (s.dev.eng e).br = some b) (hdec : b.decided = none)
    (htr : b.tr = some t0) (hleft : b.left ≠ 0) : Completes (.branchDecision e) s (fun t =>
      (t.dev.eng e).br = some { b with decided := some ((s.dev.decides e b t0).cond e b.cond) }) := by
  refine Completes.onDev rfl ?_
  dsimp only
  rw [Dev.branchDecision_inside hbr hdec htr hleft, Dev.modEng_eng_self]

/-! ## A fail that becomes visible -/

/-- The registers that a change of the flags writes: the flags and the events they raise. -/
def flagFields : List Field :=
  [.ENG_FLAGS_FAIL, .ENG_FLAGS_MATCH, .ENG_FLAGS_TFAIL, .ENG_FLAGS_TMATCH, .ENG_EV_PEND_PEND]

theorem Dev.raise_flags (d : Dev) (e k : Nat) : Dev.SewFrame flagFields d (d.raise e k) :=
  (Dev.raise_frame d e k).mono (by decide)

theorem Dev.ownFlags_frame (d : Dev) (e k : Nat) : Dev.SewFrame flagFields d (d.ownFlags e k) := by
  have hset : ∀ x, Dev.SewFrame flagFields d (d.setEng e x) := fun _ => .of_eqs rfl rfl rfl rfl
  unfold Dev.ownFlags
  refine .ite (.refl _ d) (.trans (.trans (.trans (hset _) (.st _ e _ ?_)) (.st _ e _ ?_)) (.ite (Dev.raise_flags ..) (.refl ..)))
  · decide
  · decide

theorem Dev.groupFlags_frame (d : Dev) (e k : Nat) : Dev.SewFrame flagFields d (d.groupFlags e k) := by
  unfold Dev.groupFlags
  dsimp only
  split
  · exact .refl _ d
  · exact .of_eqs rfl rfl rfl rfl

theorem Dev.setTied_frame (d : Dev) (e : Nat) : Dev.SewFrame flagFields d (d.setTied e) := by
  unfold Dev.setTied
  refine .trans (.trans (.st d e _ ?_) (.st _ e _ ?_)) (.ite (Dev.raise_flags ..) (.refl ..))
  · decide
  · decide

theorem Dev.SewFrame.tied (h : Dev.SewFrame flagFields d t) (e : Nat) : t.tied e = d.tied e :=
  Dev.tied_congr h.taken (h.writes.rg _ e (by decide))

/-- The engine's own FAIL set by a fail that is due at `k`, its group's share still to come (R142). -/
def Dev.failSet (d : Dev) (e k : Nat) : Dev :=
  ((d.setEng e { d.eng e with flagQ := [⟨k, true, .fail⟩] }).st .ENG_FLAGS_FAIL e 1).st .ENG_FLAGS_MATCH e
    (b2n (d.on .ENG_FLAGS_MATCH e))

/-- A fail that is due sets FAIL, and raises its event where FAIL rises (R141, R182). -/
theorem Dev.ownFlags_of_fail {k : Nat} (hq : (d.eng e).flagQ = [⟨k, false, .fail⟩, ⟨k, true, .fail⟩]) :
    d.ownFlags e k = if d.on .ENG_FLAGS_FAIL e then d.failSet e k else (d.failSet e k).raise e 4 := by
  cases hf : d.on .ENG_FLAGS_FAIL e <;>
    simp [Dev.ownFlags, hq, clearsFirst, applyRows, Dev.failSet, b2n, hf]

theorem Dev.raise_flagQ (d : Dev) (e : Nat) {k : Nat} (hk : ¬(k = 0 ∨ k = 2 ∨ k = 3)) :
    ((d.raise e k).eng e).flagQ = (d.eng e).flagQ := by
  unfold Dev.raise
  rw [if_neg hk]
  exact Dev.raiseOne_proj d e k _ (·.flagQ) fun _ _ => rfl

theorem Dev.ownFlags_of_fail_facts {k : Nat} (hq : (d.eng e).flagQ = [⟨k, false, .fail⟩, ⟨k, true, .fail⟩]) :
    (d.ownFlags e k).rg .ENG_FLAGS_FAIL e = 1 ∧ ((d.ownFlags e k).eng e).flagQ = [⟨k, true, .fail⟩] := by
  have hfail : (d.failSet e k).rg .ENG_FLAGS_FAIL e = 1 :=
    (Dev.rg_st_ne _ _ _ _ (by decide)).trans (Dev.rg_st_self ..)
  have hrest : ((d.failSet e k).eng e).flagQ = [⟨k, true, .fail⟩] := congrArg Eng.flagQ (Dev.eng_setEng_self d e _)
  rw [Dev.ownFlags_of_fail hq]
  split
  · exact ⟨hfail, hrest⟩
  · exact ⟨((Dev.raise_frame _ e 4).writes.rg _ e (by decide)).trans hfail, (Dev.raise_flagQ _ e (by decide)).trans hrest⟩

/-- The group's share of a fail that is due leaves nothing on its way (R67). -/
theorem Dev.groupFlags_of_fail {k : Nat} (hq : (d.eng e).flagQ = [⟨k, true, .fail⟩]) :
    ∃ g, d.groupFlags e k = d.setEng e { d.eng e with flagQ := [], gFail := true, gMatch := g } :=
  ⟨_, by simp [Dev.groupFlags, hq, clearsFirst, applyRows]; rfl⟩

/-- TFAIL set, and TMATCH as the engine's own MATCH (R67). -/
def Dev.tiedFailSet (d : Dev) (e : Nat) : Dev :=
  (d.st .ENG_FLAGS_TFAIL e 1).st .ENG_FLAGS_TMATCH e (b2n (d.on .ENG_FLAGS_MATCH e))

/-- Untied, TFAIL takes the engine's own FAIL, and raises its event where it rises (R67, R166, R182). -/
theorem Dev.setTied_of_fail (ht : d.tied e = false) (hf : d.rg .ENG_FLAGS_FAIL e = 1) :
    d.setTied e = if d.on .ENG_FLAGS_TFAIL e then d.tiedFailSet e else (d.tiedFailSet e).raise e 5 := by
  have hon : d.on .ENG_FLAGS_FAIL e = true := by simp [Dev.on, hf]
  cases hw : d.on .ENG_FLAGS_TFAIL e <;> simp [Dev.setTied, ht, hon, hw, Dev.tiedFailSet, b2n]

theorem Dev.setTied_of_fail_facts (ht : d.tied e = false) (hf : d.rg .ENG_FLAGS_FAIL e = 1) :
    (d.setTied e).rg .ENG_FLAGS_FAIL e = 1 ∧ (d.setTied e).rg .ENG_FLAGS_TFAIL e = 1 ∧
      ((d.setTied e).eng e).flagQ = (d.eng e).flagQ := by
  have hfail : (d.tiedFailSet e).rg .ENG_FLAGS_FAIL e = 1 :=
    ((Dev.rg_st_ne _ _ _ _ (by decide)).trans (Dev.rg_st_ne _ _ _ _ (by decide))).trans hf
  have htfail : (d.tiedFailSet e).rg .ENG_FLAGS_TFAIL e = 1 :=
    (Dev.rg_st_ne _ _ _ _ (by decide)).trans (Dev.rg_st_self ..)
  have hqueue : ((d.tiedFailSet e).eng e).flagQ = (d.eng e).flagQ := rfl
  have hraise := (Dev.raise_frame (d.tiedFailSet e) e 5).writes
  rw [Dev.setTied_of_fail ht hf]
  split
  · exact ⟨hfail, htfail, hqueue⟩
  · exact ⟨(hraise.rg _ e (by decide)).trans hfail, (hraise.rg _ e (by decide)).trans htfail,
      (Dev.raise_flagQ _ e (by decide)).trans hqueue⟩

/-- What a fail that becomes visible gives on an untied engine (R141). -/
structure Dev.FailShown (e : Nat) (d t : Dev) : Prop where
  fail   : t.rg .ENG_FLAGS_FAIL e = 1
  tfail  : t.rg .ENG_FLAGS_TFAIL e = 1
  flagQ  : (t.eng e).flagQ = []
  tick   : t.tick = d.tick
  untied : t.tied e = false

theorem Dev.flagsAt_of_fail {k : Nat} (ht : d.tied e = false)
    (hq : (d.eng e).flagQ = [⟨k, false, .fail⟩, ⟨k, true, .fail⟩]) : Dev.FailShown e d (d.flagsAt e k) := by
  obtain ⟨hfail, hshare⟩ := Dev.ownFlags_of_fail_facts hq
  obtain ⟨g, hgroup⟩ := Dev.groupFlags_of_fail hshare
  have hframe := (Dev.ownFlags_frame d e k).trans (Dev.groupFlags_frame _ e k)
  have hfail' : ((d.ownFlags e k).groupFlags e k).rg .ENG_FLAGS_FAIL e = 1 := by
    rw [hgroup]
    exact hfail
  have hempty : (((d.ownFlags e k).groupFlags e k).eng e).flagQ = [] := by rw [hgroup, Dev.eng_setEng_self]
  generalize hb : (d.ownFlags e k).groupFlags e k = b at hframe hfail' hempty
  have htied : b.tied e = false := (hframe.tied e).trans ht
  have hall := hframe.trans (Dev.setTied_frame b e)
  have heq : d.flagsAt e k = b.setTied e := by
    unfold Dev.flagsAt
    simp only [Dev.members_of_untied ht, List.foldl_cons, List.foldl_nil, hb, Dev.farFlags_of_untied htied]
  obtain ⟨hf, htf, hrest⟩ := Dev.setTied_of_fail_facts htied hfail'
  rw [heq]
  exact ⟨hf, htf, hrest.trans hempty, hall.writes.tick, (hall.tied e).trans ht⟩

/-- A fail on its way on an untied engine becomes visible at its instant (R141). -/
theorem Dev.flagVisible_of_fail {k : Nat} (ht : d.tied e = false)
    (hq : (d.eng e).flagQ = [⟨k, false, .fail⟩, ⟨k, true, .fail⟩]) : Dev.FailShown e (d.advanceTo k) (d.flagVisible e) := by
  have hdue : ∀ b : Dev, b.tied e = false → (b.eng e).flagQ = [⟨k, false, .fail⟩, ⟨k, true, .fail⟩] →
      b.groupDue e = some k := fun b hb hbq => by
    simp [Dev.groupDue, Dev.members_of_untied hb, hb, Eng.flagDue, hbq]
  have ht' : (d.advanceTo k).tied e = false := (Dev.advanceTo_tied ..).trans ht
  have hq' : ((d.advanceTo k).eng e).flagQ = [⟨k, false, .fail⟩, ⟨k, true, .fail⟩] := by rw [Dev.advanceTo_eng, hq]
  have hshown := Dev.flagsAt_of_fail ht' hq'
  have hstep : d.flagVisible e = (d.advanceTo k).flagsAt e k := by
    rw [Dev.flagVisible, hdue d ht hq]
    dsimp only
    rw [flagFuel, Dev.flagsUpTo, hdue _ ht' hq']
    simp only [Nat.le_refl, if_true]
    exact Dev.flagsUpTo_of_empty hshown.untied hshown.flagQ ..
  rw [hstep]
  exact hshown

theorem completes_flagVisible {e : EngId} {t0 : Nat} (ht : s.dev.tied e = false)
    (hq : (s.dev.eng e).flagQ = [⟨t0, false, .fail⟩, ⟨t0, true, .fail⟩]) : Completes (.flagVisible e) s (fun t =>
      t.dev.rg .ENG_FLAGS_FAIL e = 1 ∧ t.dev.rg .ENG_FLAGS_TFAIL e = 1 ∧ (t.dev.eng e).flagQ = [] ∧
      t.dev.tick = max s.dev.tick t0) := by
  have hshown := Dev.flagVisible_of_fail ht hq
  exact Completes.onDev rfl ⟨hshown.fail, hshown.tfail, hshown.flagQ, hshown.tick.trans (Dev.advanceTo_tick ..)⟩

/-- Settles O18: a branch by the flags visible at its decision, MWAIT by the judgement that is shown to it, and a fail by the
change of the flags at its instant. -/
theorem decisions : Obligations.Decisions := by
  unfold Obligations.Decisions
  intro s e w
  refine ⟨?branch, ?match_, ?last, ?flag⟩
  case branch =>
    intro b t0 hbr hdec htr
    exact ⟨completes_branch_at_end hbr hdec htr, completes_branch_inside hbr hdec htr⟩
  case match_ =>
    intro v hact hcls hop hmod hgo hrec hfree hj hlo hhi
    exact completes_mwait_match hact hcls hop hmod hgo hrec hfree hj hlo hhi
  case last =>
    intro v hact hcls hop hmod hgo hrec hfree hj hlo hlast
    exact completes_mwait_last hact hcls hop hmod hgo hrec hfree hj hlo hlast
  case flag =>
    intro t0 ht hq
    exact completes_flagVisible ht hq

end Sys2Proof.Machine
end

section
/-!
The results of the ALU instructions (R165, R217 to R219, R224), and what any instruction leaves that completes at its issue.
-/

namespace Sys2Proof.Machine

variable {s : State} {e w cls op : Nat} {d x t : Dev} {c : Instr} {P : State → Prop} {body : Body}

/-! ## Control stores that stay clean -/

/-- A clean control store stays clean where neither its wrong bits nor the count of its list change. -/
theorem Dev.storeClean.of_same (hc : d.storeClean e) (hs : (x.eng e).storeErr = (d.eng e).storeErr)
    (hk : x.rg .ENG_MC_STAT_LISTCNT e = d.rg .ENG_MC_STAT_LISTCNT e) : x.storeClean e :=
  ⟨hs.trans hc.1, hk.trans hc.2⟩

theorem Dev.storeClean.st (hc : d.storeClean e) {f : Field} (u v : Nat) (hf : f ≠ .ENG_MC_STAT_LISTCNT) :
    (d.st f u v).storeClean e := hc.of_same rfl (Dev.rg_st_ne d u v e hf)

theorem Dev.storeClean.setZC (hc : d.storeClean e) (z k : Nat) : (d.setZC e z k).storeClean e :=
  (hc.st e z (by decide)).st e k (by decide)

/-- No register that an instruction names is one of the control stores. -/
theorem listCount_not_mem_regKeys (e sp : Nat) : (⟨.ENG_MC_STAT_LISTCNT, e, 0⟩ : RegKey) ∉ regKeys e sp := by
  unfold regKeys
  repeat' split
  all_goals simp

theorem Dev.storeClean.setReg (hc : d.storeClean e) (sp v : Nat) : (d.setReg e sp v).storeClean e :=
  hc.of_same (Dev.setReg_proj d e sp v (·.storeErr) fun _ _ _ _ _ _ _ _ => rfl)
    (Dev.setReg_keeps d e sp v (listCount_not_mem_regKeys e sp))

/-! ## An instruction at its issue -/

/-- An instruction that issues, and whose effect leaves a clean control store clean, completes with that effect; only where
the engine stands has changed since. -/
theorem Issues.completes_settled (h : Issues s e cls op w d)
    (hx : exec c s = .next (s.onDev (fun d => d.issue s.mem e cls op body)))
    (hclean : d.storeClean e → (body s.mem d e w).storeClean e)
    (hP : ∀ t : State, t.mem = s.mem → Settles e (body s.mem d e w) t.dev → P t) : Completes c s P :=
  Completes.onDev hx (hP _ rfl (Dev.issue_of_issues body h fun _ => hclean))

/-- From its effect `x`, the instruction of engine `e` that issued at `d` is complete in `t`: the program counter has moved
on, and every other register is as in `x`. -/
structure Dev.Finished (e : Nat) (d x t : Dev) : Prop where
  key  : ∀ j : RegKey, Field.ENG_PC_ADDR ≠ j.f → t.key j = x.key j
  next : PcNext d t e

theorem Dev.Finished.rg (h : Dev.Finished e d x t) (f : Field) (hf : Field.ENG_PC_ADDR ≠ f) : t.rg f e = x.rg f e :=
  h.key ⟨f, e, 0⟩ hf

theorem Dev.Finished.takes (h : Dev.Finished e d x t) {rd v : Nat} (hrd : rd < 0x3E ∧ rd ≠ 0x34 ∧ rd ≠ 0x35)
    (hv : RdTakes x e rd v) : RdTakes t e rd v :=
  hv.of_keys hrd.2.1 hrd.2.2 fun j hj _ _ => h.key j hj

/-- An instruction that issues completes with its effect `x`, if that leaves the delay region, the program counter and a
clean control store alone. -/
theorem Issues.completes_finished (h : Issues s e cls op w d)
    (hx : exec c s = .next (s.onDev (fun d => d.issue s.mem e cls op body))) (hbody : body s.mem d e w = x.finish e)
    (hbr : (x.eng e).br = (d.eng e).br) (hpc : x.rg .ENG_PC_ADDR e = d.rg .ENG_PC_ADDR e)
    (hclean : d.storeClean e → x.storeClean e) (hP : ∀ t : State, Dev.Finished e d x t.dev → P t) : Completes c s P := by
  refine h.completes_settled hx (fun hc => hbody ▸ Dev.finish_clean (hclean hc)) fun t _ hsettles => hP t ?_
  rw [hbody] at hsettles
  exact ⟨fun j hj => (hsettles.key j).trans (Dev.finish_key x e hj),
    fun hb => (hsettles.rg _ e).trans (PcNext.finish hbr hpc hb)⟩

/-! ## The shapes of an ALU instruction's effect -/

/-- RD takes a result, and no flag changes. -/
theorem Issues.completes_setReg {v : Nat} (h : Issues s e cls op w d)
    (hx : exec c s = .next (s.onDev (fun d => d.issue s.mem e cls op body)))
    (hrd : iRd w < 0x3E ∧ iRd w ≠ 0x34 ∧ iRd w ≠ 0x35) (hbody : body s.mem d e w = (d.setReg e (iRd w) v).finish e) :
    Completes c s (fun t => RdTakes t.dev e (iRd w) v ∧ PcNext d t.dev e) :=
  h.completes_finished hx hbody (Dev.setReg_br d e (iRd w) v) (Dev.setReg_pc d e (iRd w) v) (·.setReg (iRd w) v)
    fun _ hf => ⟨hf.takes hrd (Dev.setReg_takes d e v hrd.1 hrd.2.1 hrd.2.2), hf.next⟩

theorem Dev.setReg_setZC_takes {rd : Nat} (v z k : Nat) (hrd : rd < 0x3E ∧ rd ≠ 0x34 ∧ rd ≠ 0x35) :
    RdTakes ((d.setReg e rd v).setZC e z k) e rd v :=
  (Dev.setReg_takes d e v hrd.1 hrd.2.1 hrd.2.2).of_keys hrd.2.1 hrd.2.2 fun _ _ hz hc => Dev.setZC_key _ e z k hz hc

theorem Dev.setZC_pc (z k : Nat) : (d.setZC e z k).rg .ENG_PC_ADDR e = d.rg .ENG_PC_ADDR e :=
  Dev.setZC_key d e z k (j := ⟨.ENG_PC_ADDR, e, 0⟩) (show Field.ENG_FLAGS_ZERO ≠ .ENG_PC_ADDR by decide)
    (show Field.ENG_FLAGS_CARRY ≠ .ENG_PC_ADDR by decide)

/-- RD takes a result, ZERO says whether RD is 0, and CARRY is set. -/
theorem Issues.completes_alu {v k : Nat} (h : Issues s e cls op w d)
    (hx : exec c s = .next (s.onDev (fun d => d.issue s.mem e cls op body)))
    (hrd : iRd w < 0x3E ∧ iRd w ≠ 0x34 ∧ iRd w ≠ 0x35) (hbody : body s.mem d e w = (d.alu e (iRd w) v k).finish e)
    (hP : ∀ t : State, RdTakes t.dev e (iRd w) v → t.dev.rg .ENG_FLAGS_ZERO e = b2n (v % 2 ^ regWidth (iRd w) == 0) →
      t.dev.rg .ENG_FLAGS_CARRY e = k % 2 → PcNext d t.dev e → P t) : Completes c s P := by
  refine h.completes_finished hx hbody (Dev.setReg_br d e (iRd w) v) ?_ (fun hc => (hc.setReg (iRd w) v).setZC _ k)
    fun t hf => hP t (hf.takes hrd (Dev.setReg_setZC_takes v _ k hrd)) ?_ ?_ hf.next
  · exact (Dev.setZC_pc ..).trans (Dev.setReg_pc d e (iRd w) v)
  · exact (hf.rg _ (by decide)).trans ((Dev.setZC_zero ..).trans (b2n_mod _))
  · exact (hf.rg _ (by decide)).trans (Dev.setZC_carry ..)

/-- A comparison sets the flags alone. -/
theorem Issues.completes_compare {v : Nat} {b : Bool} (h : Issues s e cls op w d)
    (hx : exec c s = .next (s.onDev (fun d => d.issue s.mem e cls op body)))
    (hbody : body s.mem d e w = (d.setZC e (b2n (v == 0)) (b2n b)).finish e) :
    Completes c s (fun t => t.dev.rg .ENG_FLAGS_ZERO e = b2n (v == 0) ∧ t.dev.rg .ENG_FLAGS_CARRY e = b2n b ∧
      PcNext d t.dev e) :=
  h.completes_finished hx hbody rfl (Dev.setZC_pc ..) (·.setZC _ _) fun _ hf =>
    ⟨(hf.rg _ (by decide)).trans ((Dev.setZC_zero ..).trans (b2n_mod _)),
      (hf.rg _ (by decide)).trans ((Dev.setZC_carry ..).trans (b2n_mod _)), hf.next⟩

/-- RD takes a CRC, and ZERO says whether RD is 0 (R219). -/
theorem Issues.completes_crcw {e : EngId} (h : Issues s e 5 16 w d) {v : Nat}
    (hv : v = crcBytes (iMod w % 4) (d.reg e (iRd w)) (leBytes (bitsOf (iMod w) 2 3 + 1) (d.reg e (iRs w)))) :
    Completes (.crcw e) s (fun t => RdTakes t.dev e (iRd w) v ∧
      t.dev.rg .ENG_FLAGS_ZERO e = b2n (v % 2 ^ regWidth (iRd w) == 0) ∧ PcNext d t.dev e) := by
  subst hv
  have hrd := h.rd _ (fun _ => rfl) (fun _ => rfl) rfl
  refine h.completes_finished rfl rfl (Dev.setReg_br d e ..) ?_ (fun hc => (hc.setReg ..).st e _ (by decide)) fun t hf =>
    ⟨hf.takes hrd ?_, ?_, hf.next⟩
  · exact (Dev.rg_st_ne _ _ _ _ (by decide)).trans (Dev.setReg_pc d e ..)
  · exact (Dev.setReg_takes d e _ hrd.1 hrd.2.1 hrd.2.2).of_keys hrd.2.1 hrd.2.2 fun _ _ hz _ => Dev.key_st_ne _ _ _ hz
  · exact (hf.rg _ (by decide)).trans ((Dev.rg_st_self ..).trans (b2n_mod _))

/-- The last bit that a shift moves out is one bit. -/
theorem shiftedOut_mod (n a : Nat) : (if n = 0 then 0 else a % 2) % 2 = if n = 0 then 0 else a % 2 := by
  split
  · rfl
  · exact Nat.mod_mod a 2

/-- Settles O9: RD and the flags of each ALU instruction, from the shape of its effect. -/
theorem aluResults : Obligations.AluResults := by
  unfold Obligations.AluResults
  intro s e w d
  refine ⟨?ldi, ?ldhi, ?cpy, ?trd, ?add, ?addi, ?sub, ?cmp, ?cmpi, ?and_, ?or_, ?xor, ?not_, ?shl, ?shr, ?crcw⟩
  case ldi | ldhi | cpy => exact fun h => h.completes_setReg rfl (h.rd _ (fun _ => rfl) (fun _ => rfl) rfl) rfl
  case trd => exact fun h => h.completes_setReg rfl (h.rd _ (fun _ => rfl) (fun _ => rfl) rfl) rfl
  case add | addi =>
    exact fun h => h.completes_alu rfl (h.rd _ (fun _ => rfl) (fun _ => rfl) rfl) rfl fun _ hv hz hc hn =>
      ⟨hv, hz, hc.trans (Nat.mod_mod _ 2), hn⟩
  case sub =>
    exact fun h => h.completes_alu rfl (h.rd _ (fun _ => rfl) (fun _ => rfl) rfl) rfl fun _ hv hz hc hn =>
      ⟨hv, hz, hc.trans (b2n_mod _), hn⟩
  case cmp | cmpi => exact fun h => h.completes_compare rfl rfl
  case and_ | or_ | xor | not_ =>
    exact fun h => h.completes_alu rfl (h.rd _ (fun _ => rfl) (fun _ => rfl) rfl) rfl fun _ hv hz hc hn =>
      ⟨⟨hv, hz, hn⟩, hc⟩
  case shl | shr =>
    exact fun h => h.completes_alu rfl (h.rd _ (fun _ => rfl) (fun _ => rfl) rfl) rfl fun _ hv hz hc hn =>
      ⟨⟨hv, hz, hn⟩, hc.trans (shiftedOut_mod _ _)⟩
  case crcw => exact fun h => h.completes_crcw rfl

end Sys2Proof.Machine
end

section
/-!
Where the flow instructions transfer control, and how END and a halt by the host end a burst's issue (R177, R179, R187, R201
to R203).
-/

namespace Sys2Proof.Machine

variable {s : State} {e w : Nat} {d x t : Dev}

/-! ## Transfers of control -/

theorem Dev.branch_key (d : Dev) (e cond target delay : Nat) (dec : Option Bool) {j : RegKey} (h : Field.ENG_PC_ADDR ≠ j.f) :
    (d.branch e cond target delay dec).key j = d.key j := by
  have hpc : ∀ (b : Dev) (a : Nat), (b.setPc e a).key j = b.key j := fun b a => by
    rw [Dev.setPc_key, if_neg fun hj => h (by rw [← hj])]
  unfold Dev.branch
  split
  · exact hpc ..
  · exact hpc ..

theorem Dev.setPc_pc (d : Dev) (e a : Nat) : (d.setPc e a).rg .ENG_PC_ADDR e = a % 2 ^ 16 :=
  (Dev.setPc_key d e a _).trans (if_pos rfl)

theorem Dev.setPc_proj {α : Type} (d : Dev) (e a : Nat) (p : Eng → α) (hp : ∀ y b, p { y with pcOver := b } = p y) :
    p ((d.setPc e a).eng e) = p (d.eng e) :=
  (Dev.modEng_proj _ e _ p).trans (hp _ _)

theorem Dev.branch_storeErr (d : Dev) (e cond target delay : Nat) (dec : Option Bool) :
    ((d.branch e cond target delay dec).eng e).storeErr = (d.eng e).storeErr := by
  have hpc : ∀ (b : Dev) (a : Nat), ((b.setPc e a).eng e).storeErr = (b.eng e).storeErr := fun b a =>
    Dev.setPc_proj b e a (·.storeErr) fun _ _ => rfl
  unfold Dev.branch
  split
  · exact hpc ..
  · exact (hpc ..).trans (Dev.modEng_proj d e _ (·.storeErr))

theorem Dev.storeClean.branch (hc : d.storeClean e) (cond target delay : Nat) (dec : Option Bool) :
    (d.branch e cond target delay dec).storeClean e :=
  hc.of_same (Dev.branch_storeErr ..) (Dev.branch_key _ _ _ _ _ _ (j := ⟨.ENG_MC_STAT_LISTCNT, e, 0⟩)
    (show Field.ENG_PC_ADDR ≠ .ENG_MC_STAT_LISTCNT by decide))

/-- A flow instruction transfers control at once where it is decided and has no delay; otherwise it opens a delay region at
the next address (R179, R202). -/
theorem Dev.branch_branches (hbr : (x.eng e).br = (d.eng e).br) (hpc : x.rg .ENG_PC_ADDR e = d.rg .ENG_PC_ADDR e)
    (cond target delay : Nat) (dec : Option Bool) : Branches d (x.branch e cond target delay dec) e target delay dec := by
  have hregion : ∀ b : Brn, (((x.modEng e (fun y => { y with br := some b })).setPc e (x.nextPc e)).eng e).br = some b :=
    fun b => (Dev.setPc_br ..).trans (Dev.modEng_proj x e _ (·.br))
  have hnext : ∀ b : Dev, (b.setPc e (x.nextPc e)).rg .ENG_PC_ADDR e = (d.rg .ENG_PC_ADDR e + 1) % 2 ^ 16 := fun b => by
    rw [Dev.setPc_pc, Dev.nextPc, hpc]
  have hafter : x.nextPc e + delay = d.rg .ENG_PC_ADDR e + 1 + delay := by rw [Dev.nextPc, hpc]
  cases dec with
  | none => exact ⟨hnext _, _, hregion _, rfl, hafter, rfl, rfl⟩
  | some c =>
    cases delay with
    | zero =>
      refine ⟨(Dev.setPc_pc x e _).trans ?_, (Dev.setPc_br ..).trans hbr⟩
      rw [hafter]
    | succ n => exact ⟨hnext _, _, hregion _, rfl, hafter, rfl, rfl⟩

theorem Branches.of_settles {target delay : Nat} {dec : Option Bool} (h : Branches d x e target delay dec)
    (hs : Settles e x t) : Branches d t e target delay dec := by
  have hbr : (t.eng e).br = (x.eng e).br := hs.proj (·.br) fun _ _ _ _ _ _ _ _ => rfl
  unfold Branches at h ⊢
  rw [hs.rg, hbr]
  exact h

/-- The decision of a branch at its issue (R169, R179). -/
theorem Dev.decideNow_decides (d : Dev) (e c : Nat) : Decides d e c (d.decideNow e c) := by
  have hres : isResult c = true ↔ 1 ≤ c ∧ c ≤ 8 := by simp [isResult]
  refine ⟨fun hc => ?_, fun hc hi => ?_, fun hc hi => ?_⟩
  · simp [Dev.decideNow, Bool.eq_false_iff.mpr (mt hres.mp hc)]
  · have hodd : (c == 2 || c == 4 || c == 6 || c == 8) = (c % 2 == 0) := by
      obtain ⟨hlo, hhi⟩ := hc
      interval_cases c <;> rfl
    simp [Dev.decideNow, hres.mpr hc, hi, hodd]
  · simp [Dev.decideNow, hres.mpr hc, hi]

/-- A flow instruction that issues, with effect `x` before it branches. -/
theorem Issues.completes_branch {c : Instr} {body : Body} {P : State → Prop} {op cond target : Nat} {dec : Option Bool}
    (h : Issues s e 0 op w d) (hx : exec c s = .next (s.onDev (fun d => d.issue s.mem e 0 op body)))
    (hbody : body s.mem d e w = x.branch e cond target (iDelay w) dec) (hbr : (x.eng e).br = (d.eng e).br)
    (hpc : x.rg .ENG_PC_ADDR e = d.rg .ENG_PC_ADDR e) (hclean : d.storeClean e → x.storeClean e)
    (hP : ∀ t : State, Branches d t.dev e target (iDelay w) dec →
      (∀ j : RegKey, Field.ENG_PC_ADDR ≠ j.f → t.dev.key j = x.key j) → P t) : Completes c s P := by
  refine h.completes_settled hx (fun hc => hbody ▸ (hclean hc).branch ..) fun t _ hs => ?_
  rw [hbody] at hs
  exact hP t ((Dev.branch_branches hbr hpc ..).of_settles hs) fun j hj => (hs.key j).trans (Dev.branch_key _ _ _ _ _ _ hj)

/-- A flow instruction that writes no register. -/
theorem Issues.completes_jump {c : Instr} {body : Body} {op cond target : Nat} {dec : Option Bool} (h : Issues s e 0 op w d)
    (hx : exec c s = .next (s.onDev (fun d => d.issue s.mem e 0 op body)))
    (hbody : body s.mem d e w = d.branch e cond target (iDelay w) dec) :
    Completes c s (fun t => Branches d t.dev e target (iDelay w) dec) :=
  h.completes_branch hx hbody rfl rfl id fun _ hb _ => hb

theorem bitsOf_zero (n k : Nat) : bitsOf n 0 k = n % 2 ^ k := by simp [bitsOf]

/-- CALL branches, and RD takes the address after the delay region (R201). -/
theorem Issues.completes_call {e : EngId} (h : Issues s e 0 2 w d) : Completes (.call e) s (fun t =>
    Branches d t.dev e (iTarget w) (iDelay w) (some true) ∧
      RdTakes t.dev e (iRd w) (d.rg .ENG_PC_ADDR e + 1 + iDelay w)) := by
  have hrd := h.rd _ (fun _ => rfl) (fun _ => rfl) rfl
  exact h.completes_branch rfl rfl (Dev.setReg_br ..) (Dev.setReg_pc ..) (·.setReg ..) fun t hb hkey =>
    ⟨hb, (Dev.setReg_takes d e _ hrd.1 hrd.2.1 hrd.2.2).of_keys hrd.2.1 hrd.2.2 fun j hj _ _ => hkey j hj⟩

/-- The counter of a LOOP that is not ILLEGAL is a local register (R203, R231). -/
theorem Issues.loop_rd {e : EngId} (h : Issues s e 0 5 w d) : 0x20 ≤ iRd w ∧ iRd w < 0x30 := by
  have hl := h.legal
  obtain ⟨-, hcls, hop, -⟩ := h
  simp only [wordIllegal, hcls, hop, opUse, Bool.or_eq_false_iff] at hl
  simpa using hl.1.2

/-- LOOP with its counter at 0 falls through, ZERO set (R203). -/
theorem Issues.completes_loop_zero {e : EngId} (h : Issues s e 0 5 w d) (hn : d.reg e (iRd w) = 0) :
    Completes (.loopI e) s (fun t => Branches d t.dev e (iTarget w) (iDelay w) (some false) ∧ t.dev.reg e (iRd w) = 0 ∧
      t.dev.rg .ENG_FLAGS_ZERO e = 1) := by
  obtain ⟨hlo, hhi⟩ := h.loop_rd
  have hlocal : ∀ b : Dev, b.reg e (iRd w) = b.rgi .ENG_L e (iRd w - 0x20) := fun b => by
    unfold Dev.reg
    rw [if_neg (by omega), if_pos hhi]
  refine h.completes_branch (x := d.st .ENG_FLAGS_ZERO e 1) (cond := 0) rfl (if_pos hn) rfl
    (Dev.rg_st_ne _ _ _ _ (by decide)) (·.st e 1 (by decide)) fun t hb hkey => ⟨hb, ?_, ?_⟩
  · rw [hlocal, Dev.rgi, hkey _ (show Field.ENG_PC_ADDR ≠ .ENG_L by decide),
      Dev.key_st_ne d _ _ (show Field.ENG_FLAGS_ZERO ≠ .ENG_L by decide), ← hn, hlocal]
    rfl
  · exact (hkey ⟨.ENG_FLAGS_ZERO, e, 0⟩ (show Field.ENG_PC_ADDR ≠ .ENG_FLAGS_ZERO by decide)).trans (Dev.rg_st_self ..)

/-- LOOP with its counter above 0 counts it down, and goes back while it was above 1 (R203). -/
theorem Issues.completes_loop_counts {e : EngId} (h : Issues s e 0 5 w d) (hn : d.reg e (iRd w) ≠ 0) :
    Completes (.loopI e) s (fun t => Branches d t.dev e (iTarget w) (iDelay w) (some (d.reg e (iRd w) != 1)) ∧
      RdTakes t.dev e (iRd w) (d.reg e (iRd w) - 1) ∧ t.dev.rg .ENG_FLAGS_ZERO e = b2n (d.reg e (iRd w) == 1)) := by
  have hrd := h.rd _ (fun _ => rfl) (fun _ => rfl) rfl
  refine h.completes_branch (x := (d.setReg e (iRd w) (d.reg e (iRd w) - 1)).st .ENG_FLAGS_ZERO e
    (b2n (d.reg e (iRd w) == 1))) (cond := 0) rfl (if_neg hn) (Dev.setReg_br ..) ?_
    (fun hc => (hc.setReg ..).st e _ (by decide)) fun t hb hkey => ⟨hb, ?_, ?_⟩
  · exact (Dev.rg_st_ne _ _ _ _ (by decide)).trans (Dev.setReg_pc ..)
  · exact (Dev.setReg_takes d e _ hrd.1 hrd.2.1 hrd.2.2).of_keys hrd.2.1 hrd.2.2 fun j hj hz _ =>
      (hkey j hj).trans (Dev.key_st_ne _ _ _ hz)
  · exact (hkey ⟨.ENG_FLAGS_ZERO, e, 0⟩ (show Field.ENG_PC_ADDR ≠ .ENG_FLAGS_ZERO by decide)).trans
      ((Dev.rg_st_self ..).trans (b2n_mod _))

/-- Settles O10: each flow instruction is a branch with its target, delay and decision. -/
theorem flowTransfers : Obligations.FlowTransfers := by
  unfold Obligations.FlowTransfers
  intro s e w d
  refine ⟨?nop, ?br, ?brr, ?call, ?ret, ?loop⟩
  case nop => exact fun h => h.completes_finished rfl rfl rfl rfl id fun _ hf => hf.next
  case br => exact fun h => ⟨_, Dev.decideNow_decides d e (iCond w), h.completes_jump rfl rfl⟩
  case brr =>
    refine fun h => ⟨_, Dev.decideNow_decides d e (iCond w), ?_⟩
    rw [← bitsOf_zero]
    exact h.completes_jump rfl rfl
  case call => exact fun h => h.completes_call
  case ret =>
    intro h
    rw [← bitsOf_zero]
    exact h.completes_jump rfl rfl
  case loop =>
    intro h
    by_cases hn : d.reg e (iRd w) = 0
    · simpa [hn] using h.completes_loop_zero hn
    · have hpos : (d.reg e (iRd w) != 0) = true := bne_iff_ne.mpr hn
      obtain ⟨t, hx, hbr, hcount⟩ := h.completes_loop_counts hn
      rw [hpos, Bool.true_and]
      exact ⟨t, hx, hbr, fun h0 => absurd h0 hn, fun _ => hcount⟩

/-! ## Ends of issue -/

/-- Issue on engine `e` has stopped: it is in ENDING with the end `o`. -/
structure Dev.IssueStopped (e : Nat) (o : Ending) (t : Dev) : Prop where
  state  : t.rg .ENG_STAT_STATE e = 3
  act    : (t.eng e).act = none
  br     : (t.eng e).br = none
  ending : (t.eng e).ending = some o

theorem Dev.stopIssue_act (o : Ending) (h : (d.eng e).act = none ∨ (d.eng e).recov = none) :
    ((d.stopIssue e o).eng e).act = none := by
  obtain ⟨m, b, a, heng⟩ := Dev.stopIssue_eng d e o
  rw [heng]
  obtain h | h := h <;> simp [h]

theorem Dev.stopIssue_stopped (o : Ending) (h : (d.eng e).act = none ∨ (d.eng e).recov = none) :
    Dev.IssueStopped e o (d.stopIssue e o) := by
  obtain ⟨m, b, a, heng⟩ := Dev.stopIssue_eng d e o
  exact ⟨Dev.stopIssue_state .., Dev.stopIssue_act o h, by rw [heng], Dev.stopIssue_ending ..⟩

theorem Dev.stopIssue_queue (d : Dev) (e : Nat) (o : Ending) :
    ((d.stopIssue e o).eng e).queue = if o.drain then (d.eng e).queue else [] := by
  obtain ⟨m, b, a, heng⟩ := Dev.stopIssue_eng d e o
  rw [heng]

theorem Dev.storeClean.stopIssue (hc : d.storeClean e) (o : Ending) : (d.stopIssue e o).storeClean e := by
  obtain ⟨m, b, a, heng⟩ := Dev.stopIssue_eng d e o
  exact hc.of_same (by rw [heng]) ((Dev.stopIssue_ends d o (List.mem_singleton_self e)).rg _ e (by decide))

/-- END stops issue, and queued rows run out (R177). -/
theorem Issues.completes_end {e : EngId} (h : Issues s e 0 6 w d) : Completes (.endI e) s (fun t =>
    Dev.IssueStopped e ⟨0, e, d.tick, true⟩ t.dev ∧ (t.dev.eng e).queue = (d.eng e).queue ∧
      (t.dev.eng e).mark = ((d.eng e).mark || iMod w % 2 == 1)) := by
  obtain ⟨-, hact, -⟩ := h.running
  set b := d.modEng e (fun x => { x with mark := x.mark || bitOf (iMod w) 0 }) with hb
  have heng : b.eng e = { d.eng e with mark := (d.eng e).mark || bitOf (iMod w) 0 } := Dev.modEng_eng_self ..
  have hclean : d.storeClean e → b.storeClean e := fun hc => hc.of_same (by rw [heng]) rfl
  have hstop := Dev.stopIssue_stopped (d := b) (e := e) ⟨0, e, d.tick, true⟩ (.inl (by rw [heng, hact]))
  refine h.completes_settled rfl (fun hc => (hclean hc).stopIssue _) fun t _ hs => ?_
  change Settles e (b.stopIssue e ⟨0, e, d.tick, true⟩) t.dev at hs
  obtain ⟨m, k, a, hstopped⟩ := Dev.stopIssue_eng b e ⟨0, e, d.tick, true⟩
  refine ⟨⟨(hs.rg _ _).trans hstop.state, ?_, ?_, ?_⟩, ?_, ?_⟩
  · exact (hs.proj (·.act) fun _ _ _ _ _ _ _ _ => rfl).trans hstop.act
  · exact (hs.proj (·.br) fun _ _ _ _ _ _ _ _ => rfl).trans hstop.br
  · exact (hs.proj (·.ending) fun _ _ _ _ _ _ _ _ => rfl).trans hstop.ending
  · rw [hs.proj (·.queue) fun _ _ _ _ _ _ _ _ => rfl, hstopped, heng]
    rfl
  · rw [hs.proj (·.mark) fun _ _ _ _ _ _ _ _ => rfl, hstopped, heng]
    simp [bitOf]

theorem Dev.runs_of_issuing_state (h : d.estate e = 1 ∨ d.estate e = 2) : d.runs e = true := by
  obtain h | h := h <;> simp [Dev.runs, h]

/-- A halt of a running burst on an engine without partners stops its issue (R187). -/
theorem Dev.halt_of_untied (hst : d.estate e = 1 ∨ d.estate e = 2) (hn : (d.eng e).ending = none) (ht : d.tied e = false) :
    d.halt e = (d.faultLog e rHALT (d.lastRow e false) d.tick).stopIssue e ⟨rHALT, e, d.tick, false⟩ := by
  rw [Dev.halt, if_pos hst, Dev.endFault, Dev.endFaultAt_of_untied (Dev.runs_of_issuing_state hst) hn ht]

theorem completes_halt {e : EngId} (hup : s.dev.domOn (3 + e / 16) = true) (hst : s.dev.estate e = 1 ∨ s.dev.estate e = 2)
    (hn : (s.dev.eng e).ending = none) (hr : (s.dev.eng e).recov = none) (ht : s.dev.tied e = false) :
    Completes (.engHalt e) s (fun t => Dev.IssueStopped e ⟨rHALT, e, s.dev.tick, false⟩ t.dev ∧
      (t.dev.eng e).queue = []) := by
  have hrecov : ((s.dev.faultLog e rHALT (s.dev.lastRow e false) s.dev.tick).eng e).recov = none := by
    rw [(Dev.faultLog_reports ..).eng, hr]
  refine Completes.onDev (exec_of_engWrite rfl hup) ?_
  dsimp only
  rw [Dev.halt_of_untied hst hn ht]
  exact ⟨Dev.stopIssue_stopped _ (.inr hrecov), Dev.stopIssue_queue ..⟩

/-- A command that writes a register of an engine and does nothing there leaves the state as it is. -/
theorem exec_engWrite_of_eq {c : Instr} {g : Dev → Dev} (hx : exec c s = .next (s.onDev (fun d => d.engWrite e g)))
    (hup : s.dev.domOn (3 + e / 16) = true) (h : g s.dev = s.dev) : exec c s = .next s :=
  exec_onDev_of_eq (exec_of_engWrite hx hup) h

/-- Settles O16: END and a halt stop issue with their own end. -/
theorem endsOfIssue : Obligations.EndsOfIssue := by
  unfold Obligations.EndsOfIssue
  intro s e w d
  refine ⟨?end_, ?halt, ?idle⟩
  case end_ =>
    intro h
    obtain ⟨t, hx, ⟨hstate, hact, hbr, hending⟩, hrest⟩ := h.completes_end
    exact ⟨t, hx, ⟨hstate, hact, hbr, hending⟩, hrest⟩
  case halt =>
    intro hup hst hn hr ht
    obtain ⟨t, hx, ⟨hstate, hact, hbr, hending⟩, hqueue⟩ := completes_halt hup hst hn hr ht
    exact ⟨t, hx, ⟨hstate, hact, hbr, hending⟩, hqueue⟩
  case idle =>
    intro hup h1 h2
    exact exec_engWrite_of_eq rfl hup (if_neg (by simp [h1, h2]))

end Sys2Proof.Machine
end

section
/-!
How an event is entered and returned from, and how HOST is raised (R182 to R185, R190, R230).
-/

namespace Sys2Proof.Machine

variable {s : State} {e w cls op k : Nat} {d t : Dev} {body : Body}

/-! ## What ERET leaves for the next instruction -/

theorem Dev.microNext_eng (d : Dev) (e w : Nat) : ∃ a b, (d.microNext e w).eng e = { d.eng e with uctr := a, upc := b } := by
  unfold Dev.microNext
  dsimp only
  rw [Dev.modEng_eng_self, Dev.eng_setEng_self]
  exact ⟨_, _, rfl⟩

theorem Dev.microNext_resumed (d : Dev) (e w : Nat) : ((d.microNext e w).eng e).resumed = (d.eng e).resumed := by
  obtain ⟨a, b, h⟩ := Dev.microNext_eng d e w
  rw [h]

theorem Dev.careWord_resumed (h : d.storeClean e) (w : Nat) (a b : Nat × Nat) :
    ((d.careWord e w [] [a, b]).2.eng e).resumed = (d.eng e).resumed := by
  have hm : ∀ (x : Dev) (i j k l m : Nat), x.mcRecords e [] i j k l m = x := fun _ _ _ _ _ _ => rfl
  unfold Dev.careWord
  simp only [List.foldl_cons, List.foldl_nil, List.contains_nil, Dev.careRead_clean h, Bool.or_false, Option.toList_none,
    List.append_nil, Bool.false_eq_true, if_false, hm, ite_self]
  exact (Dev.microNext_resumed ..).trans (Dev.modEng_proj _ e _ (·.resumed))

/-- With a clean control store a microword leaves open whether the next instruction goes on from PROG0 to PROG3. -/
theorem Dev.micro_resumed (h : d.storeClean e) (w n : Nat) : ((d.micro e w n).2.eng e).resumed = (d.eng e).resumed := by
  unfold Dev.micro
  simp only [Dev.listKind_clean h, Eng.wrongBits_nil h.1, parityFails_nil, List.filter_cons, List.filter_nil]
  simp only [Bool.false_eq_true, if_false, List.isEmpty_nil, Bool.not_true, List.any_cons, List.any_nil, Bool.or_false, ite_self,
    show ((none : Option Nat) == some 1) = false from rfl, show ((none : Option Nat) == some 0) = false from rfl]
  split
  · exact Dev.careWord_resumed h ..
  · rw [Dev.microNext_resumed, Dev.eng_setEng_self]

theorem Dev.micros_resumed (w : Nat) : ∀ (n k : Nat) {d : Dev}, d.storeClean e →
    ((d.micros e w n k).2.eng e).resumed = (d.eng e).resumed
  | _, 0, _, _ => rfl
  | n, k + 1, d, h => by
    have hword := Dev.micro_clean h w (k + 1 + n)
    unfold Dev.micros
    dsimp only
    rw [if_pos hword.1]
    exact (Dev.micros_resumed w n k (hword.2.clean h)).trans (Dev.micro_resumed h ..)

theorem Dev.started_resumed (d : Dev) (e : Nat) (hcls : iCls w = 0) (hop : iOp w = 7) :
    ((d.started e w).eng e).resumed = (d.eng e).resumed := by
  have hflag : ((d.modEng e (fun x => { x with resumed := x.resumed && (iCls w == 0 && iOp w == 7) })).eng e).resumed =
      (d.eng e).resumed := (Dev.modEng_proj _ e _ (·.resumed)).trans (by simp [hcls, hop])
  unfold Dev.started
  dsimp only
  split
  · exact hflag
  · exact (Dev.modEng_proj _ e _ (·.resumed)).trans hflag

/-- An instruction that issues is its body, the words after its entry word, and the point it then stands at. -/
theorem Issues.issue_eq (body : Body) (h : Issues s e cls op w d) (hb : d.storeClean e → (body s.mem d e w).storeClean e) :
    ∃ n k, s.dev.issue s.mem e cls op body = ((body s.mem d e w).micros e w n k).2.started e w ∧
      (k = 0 ∨ (body s.mem d e w).storeClean e) := by
  obtain ⟨h, hc, ho, hk⟩ := h
  unfold State.issuing at h
  unfold Dev.issue
  split at h
  next hi =>
    rw [hi]
    split at h
    next w' d' hf =>
      split at h
      next d1 hs =>
        split at h
        next => exact absurd h (by simp)
        next hl =>
          obtain ⟨rfl, rfl⟩ := Prod.mk.inj (Option.some.inj h)
          have hco : ¬(iCls w' ≠ cls ∨ iOp w' ≠ op) := by simp [hc, ho]
          rw [hf] at hk ⊢
          subst hc ho
          simp only [Bool.not_true, Bool.false_eq_true, if_false, hco, hs, hl]
          have hwords : d'.startWords e w' - 1 = 0 ∨ (body s.mem (d1.resumeHeld e w') e w').storeClean e :=
            hk.imp (fun h1 => by rw [h1]) hb
          refine ⟨_, _, if_pos ?_, hwords⟩
          obtain h0 | hclean := hwords
          · rw [h0]
            rfl
          · exact (Dev.micros_clean w' _ _ hclean).1
      next => exact absurd h (by simp)
    next => exact absurd h (by simp)
  next => exact absurd h (by simp)

/-- ERET decides itself whether the next instruction goes on from PROG0 to PROG3 (R190). -/
theorem Issues.eret_resumed (body : Body) (h : Issues s e 0 7 w d)
    (hb : d.storeClean e → (body s.mem d e w).storeClean e) :
    ((s.dev.issue s.mem e 0 7 body).eng e).resumed = ((body s.mem d e w).eng e).resumed := by
  obtain ⟨n, k, hissue, hwords⟩ := h.issue_eq body hb
  rw [hissue, Dev.started_resumed _ e h.2.1 h.2.2.1]
  obtain rfl | hclean := hwords
  · rfl
  · exact Dev.micros_resumed w n k hclean

/-- The return from a handler: the saved flags and program counter are back (R185). -/
structure Dev.Returned (d : Dev) (e : Nat) (t : Dev) : Prop where
  zero      : t.rg .ENG_FLAGS_ZERO e = d.rg .ENG_ESTAT_SZERO e % 2
  carry     : t.rg .ENG_FLAGS_CARRY e = d.rg .ENG_ESTAT_SCARRY e % 2
  inhandler : t.rg .ENG_ESTAT_INHANDLER e = 0
  ie        : t.rg .ENG_ESTAT_IE e = 1
  pc        : t.rg .ENG_PC_ADDR e = d.rg .ENG_EPC e % 2 ^ 16

theorem Dev.bodyEret_returned (m : List Host.Cell) (d : Dev) (e w : Nat) : Dev.Returned d e (Dev.bodyEret m d e w) := by
  constructor <;> simp [Dev.bodyEret, Dev.setZC, Dev.rg, Dev.setPc_key, Dev.modEng_key, Dev.key_st, Field.info]

theorem Dev.Returned.of_settles {x : Dev} (h : Dev.Returned d e x) (hs : Settles e x t) : Dev.Returned d e t where
  zero := (hs.rg ..).trans h.zero
  carry := (hs.rg ..).trans h.carry
  inhandler := (hs.rg ..).trans h.inhandler
  ie := (hs.rg ..).trans h.ie
  pc := (hs.rg ..).trans h.pc

theorem Issues.completes_eret {e : EngId} (h : Issues s e 0 7 w d) : Completes (.eret e) s (fun t =>
    Dev.Returned d e t.dev ∧ (t.dev.eng e).act = none ∧ (t.dev.eng e).resumed = d.on .ENG_ESTAT_RESUME e ∧
      t.mem = s.mem) := by
  obtain ⟨-, hact, -⟩ := h.running
  have heng : ((Dev.bodyEret s.mem d e w).eng e).storeErr = (d.eng e).storeErr ∧
      ((Dev.bodyEret s.mem d e w).eng e).act = (d.eng e).act ∧
      ((Dev.bodyEret s.mem d e w).eng e).resumed = d.on .ENG_ESTAT_RESUME e := by
    refine ⟨?_, ?_, ?_⟩
    · exact (Dev.modEng_proj _ _ _ (·.storeErr)).trans (Dev.setPc_proj _ _ _ (·.storeErr) fun _ _ => rfl)
    · exact (Dev.modEng_proj _ _ _ (·.act)).trans (Dev.setPc_proj _ _ _ (·.act) fun _ _ => rfl)
    · refine (Dev.modEng_proj _ _ _ (·.resumed)).trans ?_
      simp [Dev.setZC, Dev.on, Dev.rg, Dev.key_st]
  have hclean : d.storeClean e → (Dev.bodyEret s.mem d e w).storeClean e := fun hc =>
    hc.of_same heng.1 (by simp [Dev.bodyEret, Dev.setZC, Dev.rg, Dev.setPc_key, Dev.modEng_key, Dev.key_st])
  have hs := Dev.issue_of_issues Dev.bodyEret h fun _ => hclean
  refine Completes.onDev rfl ⟨(Dev.bodyEret_returned ..).of_settles hs, ?_, ?_, rfl⟩
  · exact (hs.proj (·.act) fun _ _ _ _ _ _ _ _ => rfl).trans (heng.2.1.trans hact)
  · exact (h.eret_resumed _ hclean).trans heng.2.2

/-! ## An event is entered -/

theorem bitOf_eq_testBit (n k : Nat) : bitOf n k = n.testBit k := by
  rw [Nat.testBit_eq_decide_div_mod_eq, bitOf, beq_eq_decide]

theorem bitOf_of_lt {n k : Nat} (h : n < 2 ^ k) : bitOf n k = false := by simp [bitOf, Nat.div_eq_of_lt h]

/-- Event `k` may be taken: it is pending, enabled and vectored, no wait keeps it, and its time has come (R184, R193). -/
theorem Dev.canTake_iff (d : Dev) (e k : Nat) : d.canTake e k = true ↔
    k ≠ 7 ∧ (d.rg .ENG_EV_PEND_PEND e).testBit k ∧ (d.rg .ENG_EV_EN_EN e).testBit k ∧ d.rgi .ENG_EV_VEC_VALID e k = 1 ∧
      d.waitsOn e k = false ∧ ∀ p, (d.eng e).evFrom.find? (·.k == k) = some p → p.from_ ≤ d.tick := by
  simp only [Dev.canTake, bitOf_eq_testBit, Bool.and_eq_true, bne_iff_ne, beq_iff_eq, Option.all_eq_true, decide_eq_true_eq,
    Bool.not_eq_true']
  tauto

/-- At a point of R240 the lowest event that may be taken is taken (R184). -/
theorem Dev.takeable_eq (hat : d.atEventPoint e = true) (hk : k < 11) (hcan : d.canTake e k = true)
    (hlow : ∀ j < k, ¬d.canTake e j = true) : d.takeable e = some k := by
  rw [Dev.takeable, if_pos hat, List.find?_range_eq_some]
  exact ⟨hcan, List.mem_range.mpr hk, fun j hj => by simpa using hlow j hj⟩

/-- The handler of event `k` is entered from `d`: its program counter and flags are saved, and the event and IE are
cleared (R184, R190). -/
structure Dev.Entered (d : Dev) (e k : Nat) (resume : Bool) (t : Dev) : Prop where
  epc       : t.rg .ENG_EPC e = d.rg .ENG_PC_ADDR e % 2 ^ 16
  pc        : t.rg .ENG_PC_ADDR e = d.rgi .ENG_EV_VEC_ADDR e k % 2 ^ 16
  inhandler : t.rg .ENG_ESTAT_INHANDLER e = 1
  ie        : t.rg .ENG_ESTAT_IE e = 0
  resume    : t.rg .ENG_ESTAT_RESUME e = b2n resume
  evnum     : t.rg .ENG_ESTAT_EVNUM e = k % 2 ^ 4
  zero      : t.rg .ENG_ESTAT_SZERO e = d.rg .ENG_FLAGS_ZERO e % 2
  carry     : t.rg .ENG_ESTAT_SCARRY e = d.rg .ENG_FLAGS_CARRY e % 2
  pend      : t.rg .ENG_EV_PEND_PEND e = setBits (d.rg .ENG_EV_PEND_PEND e) k 1 0 % 2 ^ 16
  act       : (t.eng e).act = none

theorem Dev.enter_entered (d : Dev) (e k n : Nat) (resume : Bool) : Dev.Entered d e k resume (d.enter e k n resume) := by
  constructor
  case resume =>
    cases resume <;> simp [Dev.enter, Dev.clearEv, Dev.rg, Dev.setPc_key, Dev.modEng_key, Dev.key_st, b2n, Field.info]
  case act => exact (Dev.setPc_proj _ e _ (·.act) fun _ _ => rfl).trans (Dev.modEng_proj _ e _ (·.act))
  all_goals simp [Dev.enter, Dev.clearEv, Dev.rg, Dev.rgi, Dev.setPc_key, Dev.modEng_key, Dev.key_st, Field.info]

/-- An EVENT_TAKEN of an engine that has neither fetched past 0xFFFF nor a word that no instruction spells before it, and
that emits no rows, takes the lowest event there is (R184). -/
theorem Dev.eventTaken_takes {m : List Host.Cell} (hpc : (d.eng e).pcOver = false) (hundef : d.undefNext m e = none)
    (hcatch : d.catchUp m e (d.tick - 1) = d) (htake : d.takeable e = some k) : d.eventTaken m e = d.takeEvent m e k := by
  unfold Dev.eventTaken
  simp only [hpc, hundef, hcatch, htake, Bool.false_and, Bool.false_eq_true, if_false]

theorem Dev.undefNext_of_act (h : (d.eng e).act = some w) (m : List Host.Cell) : d.undefNext m e = none := by
  simp [Dev.undefNext, Dev.canIssue, h]

theorem Dev.undefNext_of_spelled {m : List Host.Cell} {v : Nat} (hv : (d.fetch m e).1 = some v)
    (hop : (opUse (iCls v) (iOp v) (iMod v)).isSome) : d.undefNext m e = none := by
  simp [Dev.undefNext, hv, Option.isSome_iff_ne_none.mp hop]

/-- Only rows are emitted in every cycle, whatever commands come (log 34). -/
theorem Dev.catchUp_of_no_rows (h : (d.eng e).act = some w) (hemit : isEmit w = false) (hhold : isHoldEmit w = false)
    (m : List Host.Cell) (n : Nat) : d.catchUp m e n = d := by
  unfold Dev.catchUp Dev.runUntil
  simp [h, hemit, hhold]

/-- An engine with no instruction in progress enters the handler at its boundary. -/
theorem Dev.takeEvent_of_no_act (h : (d.eng e).act = none) (m : List Host.Cell) :
    d.takeEvent m e k = d.enter e k 1 (d.eng e).resumed := by
  simp [Dev.takeEvent, h]

/-- An instruction that is interrupted is resumed by ERET. -/
theorem Dev.takeEvent_of_act (h : (d.eng e).act = some w) (hw : ¬(iCls w = 10 ∧ iOp w = 4)) (m : List Host.Cell) :
    d.takeEvent m e k = d.enter e k 1 true := by
  simp [Dev.takeEvent, h, hw]

/-- An EVWAIT that consumes no row is complete when an event is taken (R230). -/
theorem Dev.takeEvent_of_evwait (h : (d.eng e).act = some w) (hc : iCls w = 10) (ho : iOp w = 4) (hm : iMod w < 0x20)
    (m : List Host.Cell) : d.takeEvent m e k = ((d.st .ENG_FLAGS_ZERO e 0).finish e).enter e k 1 false := by
  simp [Dev.takeEvent, h, hc, ho, bitOf_of_lt (k := 5) hm]

theorem Dev.Entered.all {resume : Bool} (h : Dev.Entered d e k resume t) (hk : k < 11) :
    t.rg .ENG_EPC e = d.rg .ENG_PC_ADDR e % 2 ^ 16 ∧ t.rg .ENG_PC_ADDR e = d.rgi .ENG_EV_VEC_ADDR e k % 2 ^ 16 ∧
      t.rg .ENG_ESTAT_INHANDLER e = 1 ∧ t.rg .ENG_ESTAT_IE e = 0 ∧ t.rg .ENG_ESTAT_RESUME e = b2n resume ∧
      t.rg .ENG_ESTAT_EVNUM e = k ∧ t.rg .ENG_ESTAT_SZERO e = d.rg .ENG_FLAGS_ZERO e % 2 ∧
      t.rg .ENG_ESTAT_SCARRY e = d.rg .ENG_FLAGS_CARRY e % 2 ∧
      t.rg .ENG_EV_PEND_PEND e = setBits (d.rg .ENG_EV_PEND_PEND e) k 1 0 % 2 ^ 16 ∧ (t.eng e).act = none :=
  ⟨h.epc, h.pc, h.inhandler, h.ie, h.resume, h.evnum.trans (Nat.mod_eq_of_lt (by omega)), h.zero, h.carry, h.pend, h.act⟩

theorem Dev.Entered.after_evwait (hbr : (d.eng e).br = none)
    (h : Dev.Entered ((d.st .ENG_FLAGS_ZERO e 0).finish e) e k false t) :
    t.rg .ENG_EPC e = (d.rg .ENG_PC_ADDR e + 1) % 2 ^ 16 ∧ t.rg .ENG_ESTAT_SZERO e = 0 ∧
      t.rg .ENG_PC_ADDR e = d.rgi .ENG_EV_VEC_ADDR e k % 2 ^ 16 ∧ t.rg .ENG_ESTAT_SCARRY e = d.rg .ENG_FLAGS_CARRY e % 2 ∧
      t.rg .ENG_EV_PEND_PEND e = setBits (d.rg .ENG_EV_PEND_PEND e) k 1 0 % 2 ^ 16 := by
  have hkept : ∀ (f : Field) (i : Nat), Field.ENG_PC_ADDR ≠ f → Field.ENG_FLAGS_ZERO ≠ f →
      ((d.st .ENG_FLAGS_ZERO e 0).finish e).rgi f e i = d.rgi f e i := fun f i hp hz =>
    (Dev.finish_key _ _ (j := ⟨f, e, i⟩) hp).trans (Dev.key_st_ne _ _ _ (j := ⟨f, e, i⟩) hz)
  refine ⟨?_, ?_, ?_, ?_, ?_⟩
  · rw [h.epc, Dev.finish_pc (d.st .ENG_FLAGS_ZERO e 0) e hbr, Nat.mod_mod, Dev.rg_st_ne _ _ _ _ (by decide)]
  · rw [h.zero, Dev.finish_rg _ _ _ (by decide), Dev.rg_st_self]
    rfl
  · rw [h.pc, hkept _ _ (by decide) (by decide)]
  · rw [h.carry]
    exact congrArg (· % 2) (hkept _ 0 (by decide) (by decide))
  · rw [h.pend]
    exact congrArg (setBits · k 1 0 % 2 ^ 16) (hkept _ 0 (by decide) (by decide))

/-- Word of an event to the group's other devices changes only what the Seam keeps. -/
theorem Dev.tieTell_rest (d : Dev) (e kind arg : Nat) : ∃ q n, d.tieTell e kind arg = { d with seamQ := q, seen := n } := by
  unfold Dev.tieTell
  dsimp only
  split
  · exact Dev.seamPost_rest ..
  · exact ⟨_, _, rfl⟩

/-- HOST is raised on an engine that runs a burst without partners (R183). -/
theorem completes_evSetHost {e : EngId} (hup : s.dev.domOn (3 + e / 16) = true) (htied : s.dev.tied e = false)
    (hruns : s.dev.runs e = true) : Completes (.evSetHost e) s (fun t =>
      t.dev.rg .ENG_EV_PEND_PEND e = (s.dev.rg .ENG_EV_PEND_PEND e ||| 1) % 2 ^ 16) := by
  refine Completes.onDev (exec_of_engWrite rfl hup) ?_
  simp only [Dev.raise, Dev.members_of_untied htied, true_or, if_true, List.foldl_cons, List.foldl_nil]
  obtain ⟨q, n, htell⟩ := Dev.tieTell_rest (s.dev.raiseOne e 0 (s.dev.tick + s.dev.tieLat e * cyc)) e 3 0
  rw [htell, Dev.raiseOne, if_pos hruns]
  exact Dev.rg_st_self ..

section
variable (hst : d.estate e = 2) (hbr : (d.eng e).br = none) (hmiss : (d.eng e).miss = none) (hrec : (d.eng e).recov = none)
  (hie : d.on .ENG_ESTAT_IE e = true)
include hst hbr hmiss hrec hie

theorem Dev.atEventPoint_of_boundary (hact : (d.eng e).act = none) : d.atEventPoint e = true := by
  simp [Dev.atEventPoint, hst, hbr, hmiss, hrec, hie, hact]

theorem Dev.atEventPoint_of_restart (hact : (d.eng e).act = some w) (hat : (d.eng e).atPoint = true) :
    d.atEventPoint e = true := by
  simp [Dev.atEventPoint, hst, hbr, hmiss, hrec, hie, hact, hat]

end

theorem completes_eventTaken {e : EngId} {P : State → Prop} (hpc : (s.dev.eng e).pcOver = false)
    (hundef : s.dev.undefNext s.mem e = none) (hcatch : s.dev.catchUp s.mem e (s.dev.tick - 1) = s.dev)
    (htake : s.dev.takeable e = some k) (hP : ∀ t : State, t.dev = s.dev.takeEvent s.mem e k → P t) :
    Completes (.eventTaken e) s P :=
  Completes.onDev rfl (hP _ (Dev.eventTaken_takes hpc hundef hcatch htake))

/-- An instruction in progress at its restart point leaves the event to be taken. -/
theorem completes_eventTaken_restart {e : EngId} {P : State → Prop} (hpc : (s.dev.eng e).pcOver = false)
    (hact : (s.dev.eng e).act = some w) (hemit : isEmit w = false) (hhold : isHoldEmit w = false)
    (htake : s.dev.takeable e = some k) (hP : ∀ t : State, t.dev = s.dev.takeEvent s.mem e k → P t) :
    Completes (.eventTaken e) s P :=
  completes_eventTaken hpc (Dev.undefNext_of_act hact _) (Dev.catchUp_of_no_rows hact hemit hhold _ _) htake hP

/-- Settles O17: ERET by the words after its entry word, an event by what its engine stands at. -/
theorem eventsAndReturn : Obligations.EventsAndReturn := by
  unfold Obligations.EventsAndReturn
  intro s e w d
  dsimp only
  refine ⟨?eret, ?boundary, ?restart, ?evwait, fun hup ht hr => completes_evSetHost hup ht hr⟩
  case eret =>
    intro h
    obtain ⟨t, hx, hret, hrest⟩ := h.completes_eret
    exact ⟨t, hx, hret.zero, hret.carry, hret.inhandler, hret.ie, hret.pc, hrest⟩
  case boundary =>
    rintro k hk ⟨hst, hbr, hmiss, hrec, hpc, hie⟩ hact ⟨v, hv, hop⟩ hcan hlow
    have htake := Dev.takeable_eq (Dev.atEventPoint_of_boundary hst hbr hmiss hrec hie hact) hk
      ((Dev.canTake_iff ..).mpr hcan) fun j hj => mt (Dev.canTake_iff ..).mp (hlow j hj)
    refine completes_eventTaken hpc (Dev.undefNext_of_spelled hv hop) (Dev.catchUp_of_no_act hact _ _) htake fun t ht => ?_
    rw [Dev.takeEvent_of_no_act hact] at ht
    exact (ht ▸ Dev.enter_entered s.dev e k 1 (s.dev.eng e).resumed).all hk
  case restart =>
    rintro k hk ⟨hst, hbr, hmiss, hrec, hpc, hie⟩ hact hat hemit hhold hw hcan hlow
    have htake := Dev.takeable_eq (Dev.atEventPoint_of_restart hst hbr hmiss hrec hie hact hat) hk
      ((Dev.canTake_iff ..).mpr hcan) fun j hj => mt (Dev.canTake_iff ..).mp (hlow j hj)
    refine completes_eventTaken_restart hpc hact hemit hhold htake fun t ht => ?_
    rw [Dev.takeEvent_of_act hact hw] at ht
    exact (ht ▸ Dev.enter_entered s.dev e k 1 true).all hk
  case evwait =>
    rintro k hk ⟨hst, hbr, hmiss, hrec, hpc, hie⟩ hact hat hcls hop hmod hcan hlow
    have htake := Dev.takeable_eq (Dev.atEventPoint_of_restart hst hbr hmiss hrec hie hact hat) hk
      ((Dev.canTake_iff ..).mpr hcan) fun j hj => mt (Dev.canTake_iff ..).mp (hlow j hj)
    have hrows : isEmit w = false ∧ isHoldEmit w = false := by
      simp [isEmit, isHoldEmit, isMwait, hcls, hop, bitOf_of_lt (k := 5) hmod]
    refine completes_eventTaken_restart hpc hact hrows.1 hrows.2 htake fun t ht => ?_
    rw [Dev.takeEvent_of_evwait hact hcls hop hmod] at ht
    have hent := ht ▸ Dev.enter_entered ((s.dev.st .ENG_FLAGS_ZERO e 0).finish e) e k 1 false
    obtain ⟨hepc, hz, hvec, hc, hpend⟩ := hent.after_evwait hbr
    have hnum : k % 2 ^ 4 = k := Nat.mod_eq_of_lt (by omega)
    exact ⟨hepc, hvec, hent.inhandler, hent.ie, hent.resume, hent.evnum.trans hnum, hz, hc, hpend, hent.act⟩

end Sys2Proof.Machine
end

section
/-!
How a burst starts, is refused or is ignored (R174 to R176).
-/

namespace Sys2Proof.Machine

variable {s : State} {e r : Nat} {d t u : Dev}

/-! ## The engine when a result posts -/

/-- Of what engine `e` holds beside its registers only its fail log has changed, and what that log owes. -/
def Dev.LogsOnly (e : Nat) (d t : Dev) : Prop := ∃ a b c n k, t.eng e =
  { d.eng e with recs := a, fbCnt := b, lost := c, urun := n, fbOld := k }

namespace Dev.LogsOnly

theorem of_eng (h : t.eng e = d.eng e) : Dev.LogsOnly e d t := ⟨_, _, _, _, _, h⟩

theorem trans (h : Dev.LogsOnly e d t) (h' : Dev.LogsOnly e t u) : Dev.LogsOnly e d u := by
  obtain ⟨_, _, _, _, _, h⟩ := h
  obtain ⟨_, _, _, _, _, h'⟩ := h'
  rw [h] at h'
  exact ⟨_, _, _, _, _, h'⟩

theorem setEng (d : Dev) (e : Nat) (a : List (Nat × Nat)) (b : Nat) (c : Option (Nat × Nat)) (n : Option Nat) (k : Nat) :
    Dev.LogsOnly e d (d.setEng e { d.eng e with recs := a, fbCnt := b, lost := c, urun := n, fbOld := k }) :=
  ⟨a, b, c, n, k, Dev.eng_setEng_self ..⟩

theorem foldl {α : Type} {g : Dev → α → Dev} (h : ∀ b x, Dev.LogsOnly e b (g b x)) (l : List α) (d : Dev) :
    Dev.LogsOnly e d (l.foldl g d) := by
  induction l generalizing d with
  | nil => exact of_eng rfl
  | cons x l ih => exact (h d x).trans (ih _)

theorem tieStart (h : Dev.LogsOnly e d t) : (t.eng e).tieStart = (d.eng e).tieStart := by
  obtain ⟨_, _, _, _, _, h⟩ := h
  rw [h]

end Dev.LogsOnly

theorem Dev.fbPut_logsOnly (d : Dev) (e n : Nat) : Dev.LogsOnly e d (d.fbPut e n) := Dev.LogsOnly.setEng ..

theorem Dev.fbLost_logsOnly (d : Dev) (e room : Nat) : Dev.LogsOnly e d (d.fbLost e room) := by
  unfold Dev.fbLost
  dsimp only
  split
  · split
    · exact (Dev.LogsOnly.setEng ..).trans (Dev.fbPut_logsOnly ..)
    · exact .of_eng rfl
  · exact .of_eng rfl

theorem Dev.fbTry_logsOnly (d : Dev) (e vcnt : Nat) (l : List Nat) : Dev.LogsOnly e d (d.fbTry e vcnt l).2 := by
  unfold Dev.fbTry
  dsimp only
  split
  · exact (Dev.fbLost_logsOnly d e 2046).trans (.foldl (fun b n => Dev.fbPut_logsOnly b e n) l _)
  · exact (Dev.fbLost_logsOnly d e 2046).trans (Dev.LogsOnly.setEng ..)

theorem Dev.fbPad_logsOnly (d : Dev) (e n : Nat) : Dev.LogsOnly e d (d.fbPad e n) := by
  induction n generalizing d with
  | zero => exact .of_eng rfl
  | succ n ih =>
    unfold Dev.fbPad
    split
    · exact .of_eng rfl
    · exact (Dev.fbPut_logsOnly d e 0).trans (ih _)

theorem Dev.logEnd_logsOnly (d : Dev) (e state reason vcnt : Nat) (spill : Bool) :
    Dev.LogsOnly e d (d.logEnd e state reason vcnt spill) := by
  have hurun : ∀ b : Dev, Dev.LogsOnly e b (match (b.eng e).urun with
      | some v => (b.modEng e (fun x => { x with urun := none })).fbUrun e v
      | none => b) := fun b => by
    split
    · exact (Dev.LogsOnly.setEng ..).trans (Dev.fbTry_logsOnly ..)
    · exact .of_eng rfl
  have hend : ∀ b : Dev, Dev.LogsOnly e b (if (b.eng e).fbCnt < 2048 then
      b.fbPut e (failRec vcnt e 0 reason state 0 0 7) else b.bump .ENG_FLOG_LOST_COUNT e 1) := fun b => by
    split
    · exact Dev.fbPut_logsOnly ..
    · exact .of_eng rfl
  have hall := ((hurun d).trans (Dev.fbLost_logsOnly _ e 2048)).trans (hend _)
  unfold Dev.logEnd
  dsimp only
  split
  · exact hall.trans (Dev.fbPad_logsOnly ..)
  · exact hall

theorem Dev.refuse_logsOnly (d : Dev) (e reason : Nat) : Dev.LogsOnly e d (d.refuse e reason) := by
  have hpost : ∀ k, Dev.LogsOnly e d (d.post e 3 reason 0 k) := fun k =>
    (Dev.logEnd_logsOnly d e 3 reason 0 k).trans (.of_eng (Dev.irq_eng ..))
  exact (hpost _).trans (Dev.LogsOnly.setEng ..)

/-! ## A start that is refused -/

/-- The start of engine `e` has been refused with a reason: NOT_RUN is posted (R146, R175). -/
structure Dev.Refused (d : Dev) (e reason : Nat) (t : Dev) : Prop where
  result : t.rg .ENG_RES_STAT_STATE e = 3
  reason : t.rg .ENG_RES_STAT_REASON e = reason % 2 ^ 8
  count  : t.rg .ENG_RES_BCNT_COUNT e = (d.rg .ENG_RES_BCNT_COUNT e + 1) % 2 ^ 32
  state  : t.rg .ENG_STAT_STATE e = d.rg .ENG_STAT_STATE e

theorem Dev.refuse_refused (d : Dev) (e reason : Nat) : Dev.Refused d e reason (d.refuse e reason) := by
  obtain ⟨hres, hreason, hcount⟩ := Dev.post_rg d e 3 reason 0 (d.on .ENG_FLOG_CTRL_SPILL e)
  exact ⟨hres, hreason, hcount, (Dev.post_writes d e 3 reason 0 _).rg _ _ (by decide)⟩

/-- A refusal of an engine alone posts there, and its group's other devices are told. -/
theorem Dev.startNow_refused (hup : d.domOn (3 + e / 16) = true) (hr : d.refusal [e] = some r) :
    Dev.Refused d e r (d.startNow [e]) ∧ ((d.startNow [e]).eng e).tieStart = (d.eng e).tieStart ∧
      (d.startNow [e]).tick = d.tick := by
  have hup' : d.domOn (domK (e / 16)) = true := hup
  have hstart : d.startNow [e] = (d.refuse e r).tieTell e 2 r := by
    simp [Dev.startNow, hr, hup']
  obtain ⟨q, n, htell⟩ := Dev.tieTell_rest (d.refuse e r) e 2 r
  obtain ⟨hres, hreason, hcount, hstate⟩ := Dev.refuse_refused d e r
  rw [hstart, htell]
  exact ⟨⟨hres, hreason, hcount, hstate⟩, (Dev.refuse_logsOnly d e r).tieStart,
    (Dev.post_writes d e 3 r 0 (d.on .ENG_FLOG_CTRL_SPILL e)).tick⟩

/-! ## A burst that begins -/

/-- The fields of an engine that a burst begins with at 0 (R176). -/
def zeroedFields : List Field :=
  [.ENG_FLAGS_FAIL, .ENG_FLAGS_MATCH, .ENG_FLAGS_ZERO, .ENG_FLAGS_CARRY, .ENG_FLAGS_TFAIL, .ENG_FLAGS_TMATCH, .ENG_VP,
    .ENG_TS, .ENG_TAG, .ENG_ESTAT_RESUME, .ENG_ESTAT_INHANDLER, .ENG_ESTAT_SZERO, .ENG_ESTAT_SCARRY, .ENG_ESTAT_EVNUM,
    .ENG_EV_PEND_PEND, .ENG_CMP_DMASK_DMASK, .ENG_STR_PPOS_REP, .ENG_STR_PPOS_ROW, .ENG_FLOG_CNT_COUNT]

/-- The registers of engine `e` as a burst begins that enters at address `a` of bank `k` (R176). -/
def Dev.beginRegs (d : Dev) (e a k : Nat) : Dev :=
  let d := zeroedFields.foldl (fun d f => d.st f e 0) ((d.st .ENG_PC_ADDR e a).st .ENG_PC_BANK e k)
  (((((List.range 4).foldl (fun d i => d.sti .ENG_PROG e i 0) d).st .ENG_ESTAT_IE e 1).st .ENG_STAT_STATE e 1).st
    .ENG_RES_STAT_RUNNING e 1)

theorem Dev.zeroed_rg {f : Field} (l : List Field) (h : f ∈ l ∨ d.rg f e = 0) :
    (l.foldl (fun d f => d.st f e 0) d).rg f e = 0 := by
  induction l generalizing d with
  | nil => simpa using h
  | cons g l ih =>
    refine ih ?_
    by_cases hg : g = f
    · subst hg
      exact .inr ((Dev.rg_st_self ..).trans (Nat.zero_mod _))
    · refine h.imp (fun hm => (List.mem_cons.mp hm).resolve_left (Ne.symm hg)) fun h0 => ?_
      rw [Dev.rg_st_ne _ _ _ _ hg, h0]

theorem Dev.zeroed_frame (d : Dev) (e : Nat) :
    Dev.SewFrame zeroedFields d (zeroedFields.foldl (fun d f => d.st f e 0) d) :=
  .foldl _ _ fun b _ hf => .st b e 0 hf

theorem Dev.progZeroed_frame (d : Dev) (e : Nat) :
    Dev.SewFrame [.ENG_PROG] d ((List.range 4).foldl (fun d i => d.sti .ENG_PROG e i 0) d) :=
  .foldl _ _ fun b i _ => .sti b e i 0 (by decide)

theorem Dev.beginRegs_zeroed (d : Dev) (e a k : Nat) {f : Field} (hf : f ∈ zeroedFields) :
    (d.beginRegs e a k).rg f e = 0 := by
  have hne : f ∉ [Field.ENG_PROG, .ENG_ESTAT_IE, .ENG_STAT_STATE, .ENG_RES_STAT_RUNNING] :=
    (show ∀ f ∈ zeroedFields, f ∉ [Field.ENG_PROG, .ENG_ESTAT_IE, .ENG_STAT_STATE, .ENG_RES_STAT_RUNNING] by decide) f hf
  simp only [List.mem_cons, List.not_mem_nil, or_false, not_or] at hne
  obtain ⟨hprog, hie, hstate, hrun⟩ := hne
  unfold Dev.beginRegs
  dsimp only
  rw [Dev.rg_st_ne _ _ _ _ (Ne.symm hrun), Dev.rg_st_ne _ _ _ _ (Ne.symm hstate), Dev.rg_st_ne _ _ _ _ (Ne.symm hie),
    (Dev.progZeroed_frame _ e).writes.rg f e (by simpa using hprog)]
  exact Dev.zeroed_rg _ (.inl hf)

theorem Dev.beginRegs_pc (d : Dev) (e a k : Nat) : (d.beginRegs e a k).rg .ENG_PC_ADDR e = a % 2 ^ 16 := by
  unfold Dev.beginRegs
  dsimp only
  rw [Dev.rg_st_ne _ _ _ _ (by decide), Dev.rg_st_ne _ _ _ _ (by decide), Dev.rg_st_ne _ _ _ _ (by decide),
    (Dev.progZeroed_frame _ e).writes.rg _ e (by decide), (Dev.zeroed_frame _ e).writes.rg _ e (by decide),
    Dev.rg_st_ne _ _ _ _ (by decide)]
  exact Dev.rg_st_self ..

theorem Dev.beginRegs_state (d : Dev) (e a k : Nat) : (d.beginRegs e a k).rg .ENG_STAT_STATE e = 1 ∧
    (d.beginRegs e a k).rg .ENG_RES_STAT_RUNNING e = 1 ∧ (d.beginRegs e a k).rg .ENG_ESTAT_IE e = 1 := by
  unfold Dev.beginRegs
  refine ⟨?_, Dev.rg_st_self .., ?_⟩
  · rw [Dev.rg_st_ne _ _ _ _ (by decide)]
    exact Dev.rg_st_self ..
  · rw [Dev.rg_st_ne _ _ _ _ (by decide), Dev.rg_st_ne _ _ _ _ (by decide)]
    exact Dev.rg_st_self ..

theorem Dev.st_foldl_engs (l : List Field) (d : Dev) (e : Nat) : (l.foldl (fun d f => d.st f e 0) d).engs = d.engs := by
  induction l generalizing d with
  | nil => rfl
  | cons f l ih => exact ih (d.st f e 0)

theorem Dev.beginRegs_eng (d : Dev) (e a k : Nat) : (d.beginRegs e a k).eng e = d.eng e := by
  have hzero := Dev.st_foldl_engs zeroedFields ((d.st .ENG_PC_ADDR e a).st .ENG_PC_BANK e k) e
  exact congrArg (fun m => (m.get? e).getD {}) hzero

theorem Dev.latchPin_engs (d : Dev) (c : Nat) : (d.latchPin c).engs = d.engs := by
  unfold Dev.latchPin
  dsimp only
  split
  · rfl
  · rfl

theorem Dev.latchPins_engs (l : List Nat) (d : Dev) : (l.foldl (fun d c => d.latchPin c) d).engs = d.engs := by
  induction l generalizing d with
  | nil => rfl
  | cons c l ih => exact (ih _).trans (Dev.latchPin_engs d c)

/-- A burst begins by its engine's settings, its registers and then the channels of its site (R176). -/
theorem Dev.beginBurst_eq (d : Dev) (e : Nat) : ∃ (b : Dev) (k : Nat) (l : List Nat),
    Dev.SewFrame [.ENG_FLOG_STAT_CFGERR] d b ∧ (b.eng e).queue = [] ∧ (b.eng e).ending = none ∧ (b.eng e).tieStart = none ∧
      d.beginBurst e = l.foldl (fun d c => d.latchPin c) (b.beginRegs e (b.eff .ENG_ENTRY_ADDR e) k) := by
  have hset : ∀ (c : Prop) [Decidable c] (y : Eng) (l m : List FarFlag), Dev.SewFrame [.ENG_FLOG_STAT_CFGERR] d
      { (if c then d.st .ENG_FLOG_STAT_CFGERR e 1 else d).setEng e y with far := l, farQ := m } := fun c _ y l m =>
    Dev.SewFrame.trans (.ite (.st d e 1 (by decide)) (.refl _ d)) (.of_eqs rfl rfl rfl rfl)
  have heng : ∀ (c : Prop) [Decidable c] (x : Dev) (y : Eng) (l m : List FarFlag),
      (if c then { x.setEng e y with far := l, farQ := m } else x.setEng e y).eng e = y := fun c _ x y l m => by
    split
    · exact Dev.eng_setEng_self x e y
    · exact Dev.eng_setEng_self x e y
  unfold Dev.beginBurst
  refine ⟨_, _, _, .ite (hset _ _ _ _) (hset _ _ _ _), ?_, ?_, ?_, rfl⟩
  · exact congrArg Eng.queue (heng ..)
  · exact congrArg Eng.ending (heng ..)
  · exact congrArg Eng.tieStart (heng ..)

/-- A burst of engine `e` has begun that enters at address `a` (R176). -/
structure Dev.Started (e a : Nat) (t : Dev) : Prop where
  state    : t.rg .ENG_STAT_STATE e = 1
  running  : t.rg .ENG_RES_STAT_RUNNING e = 1
  pc       : t.rg .ENG_PC_ADDR e = a % 2 ^ 16
  zeroed   : ∀ f ∈ zeroedFields, t.rg f e = 0
  ie       : t.rg .ENG_ESTAT_IE e = 1
  queue    : (t.eng e).queue = []
  ending   : (t.eng e).ending = none
  tieStart : (t.eng e).tieStart = none

theorem Dev.Started.all {a : Nat} (h : Dev.Started e a t) : t.rg .ENG_STAT_STATE e = 1 ∧ t.rg .ENG_RES_STAT_RUNNING e = 1 ∧
    t.rg .ENG_PC_ADDR e = a % 2 ^ 16 ∧ t.rg .ENG_FLAGS_FAIL e = 0 ∧ t.rg .ENG_FLAGS_MATCH e = 0 ∧
    t.rg .ENG_FLAGS_ZERO e = 0 ∧ t.rg .ENG_FLAGS_CARRY e = 0 ∧ t.rg .ENG_VP e = 0 ∧ t.rg .ENG_TS e = 0 ∧
    t.rg .ENG_TAG e = 0 ∧ t.rg .ENG_EV_PEND_PEND e = 0 ∧ t.rg .ENG_ESTAT_IE e = 1 ∧ t.rg .ENG_ESTAT_INHANDLER e = 0 ∧
    (t.eng e).queue = [] ∧ (t.eng e).ending = none :=
  have hz := h.zeroed
  ⟨h.state, h.running, h.pc, hz _ (by decide), hz _ (by decide), hz _ (by decide), hz _ (by decide), hz _ (by decide),
    hz _ (by decide), hz _ (by decide), hz _ (by decide), h.ie, hz _ (by decide), h.queue, h.ending⟩

theorem Dev.beginBurst_started (d : Dev) (e : Nat) : Dev.Started e (d.eff .ENG_ENTRY_ADDR e) (d.beginBurst e) := by
  obtain ⟨b, k, l, hframe, hqueue, hending, htie, hbegin⟩ := Dev.beginBurst_eq d e
  have hpins : Dev.SewFrame emFields (b.beginRegs e (b.eff .ENG_ENTRY_ADDR e) k) (d.beginBurst e) :=
    hbegin ▸ .foldl l _ fun x c _ => Dev.latchPin_frame x c
  have heng : (d.beginBurst e).eng e = b.eng e := by
    rw [hbegin]
    exact (congrArg (fun m => (m.get? e).getD {}) (Dev.latchPins_engs l _)).trans (Dev.beginRegs_eng ..)
  have hentry : b.eff .ENG_ENTRY_ADDR e = d.eff .ENG_ENTRY_ADDR e :=
    Dev.eff_congr hframe.taken (hframe.writes.rg _ _ (by decide))
  obtain ⟨hstate, hrun, hie⟩ := Dev.beginRegs_state b e (b.eff .ENG_ENTRY_ADDR e) k
  refine ⟨?_, ?_, ?_, fun f hf => ?_, ?_, heng ▸ hqueue, heng ▸ hending, heng ▸ htie⟩
  · exact (hpins.writes.rg _ _ (by decide)).trans hstate
  · exact (hpins.writes.rg _ _ (by decide)).trans hrun
  · rw [hpins.writes.rg _ _ (by decide), Dev.beginRegs_pc, hentry]
  · rw [hpins.writes.rg f e ((by decide : ∀ f ∈ zeroedFields, f ∉ emFields) f hf), Dev.beginRegs_zeroed b e _ k hf]
  · exact (hpins.writes.rg _ _ (by decide)).trans hie

/-- A start of an engine alone that nothing refuses begins the burst, after its quads took the newest calibration values
(R176, R428). -/
theorem Dev.startNow_started (hr : d.refusal [e] = none) :
    Dev.Started e (d.eff .ENG_ENTRY_ADDR e) (d.startNow [e]) ∧ (d.startNow [e]).tick = d.tick := by
  set b := (d.quads e).foldl (fun d q => d.calTake q) d with hb
  have hcal : Dev.SewFrame calFields d b := .foldl _ _ fun x q _ => (x.calTake_frame q).1
  have hentry : b.eff .ENG_ENTRY_ADDR e = d.eff .ENG_ENTRY_ADDR e :=
    Dev.eff_congr hcal.taken (hcal.writes.rg _ _ (by decide))
  have hstart : d.startNow [e] = b.beginBurst e := by simp [Dev.startNow, hr, hb]
  rw [hstart, ← hentry]
  exact ⟨Dev.beginBurst_started b e, (b.beginBurst_frame e).1.writes.tick.trans hcal.writes.tick⟩

/-! ## The orders -/

theorem Dev.startOrder_eq (hi : d.startIgnored e = false) (hs : (d.eng e).tieStart = none) (ht : d.tied e = false) :
    d.startOrder e = d.startNow [e] := by
  simp [Dev.startOrder, hi, hs, ht]

/-- Engine `e` as its group's start, due at `t0`, reaches it. -/
def Dev.atTieStart (d : Dev) (e t0 : Nat) : Dev := (d.modEng e (fun y => { y with tieStart := none })).advanceTo t0

/-- What decides a start is the same when it arrives. -/
theorem Dev.atTieStart_same (d : Dev) (e t0 : Nat) : (d.atTieStart e t0).startIgnored e = d.startIgnored e ∧
    (d.atTieStart e t0).refusal [e] = d.refusal [e] ∧ (d.atTieStart e t0).eff .ENG_ENTRY_ADDR e = d.eff .ENG_ENTRY_ADDR e ∧
    (d.atTieStart e t0).tick = max d.tick t0 ∧ ((d.atTieStart e t0).eng e).tieStart = none ∧
    (∀ f, (d.atTieStart e t0).rg f e = d.rg f e) ∧ ∀ k, (d.atTieStart e t0).domOn k = d.domOn k := by
  refine ⟨?_, ?_, Dev.advanceTo_eff .., Dev.advanceTo_tick .., ?_, fun f => Dev.advanceTo_rg _ _ f e, fun k => ?_⟩
  · obtain ⟨n, c, h⟩ := Dev.advanceTo_clock (d := d.modEng e (fun y => { y with tieStart := none })) t0
    rw [Dev.atTieStart, h]
    rfl
  · obtain ⟨n, c, h⟩ := Dev.advanceTo_clock (d := d.modEng e (fun y => { y with tieStart := none })) t0
    rw [Dev.atTieStart, h]
    rfl
  · rw [Dev.atTieStart, Dev.advanceTo_eng]
    exact Dev.modEng_proj _ e _ (·.tieStart)
  · obtain ⟨n, c, h⟩ := Dev.advanceTo_clock (d := d.modEng e (fun y => { y with tieStart := none })) t0
    rw [Dev.atTieStart, h]
    rfl

theorem Dev.tieStartArrival_eq {t0 : Nat} (hs : (d.eng e).tieStart = some t0)
    (hl : (List.range 128).filter (fun x => (d.eng x).tieStart == some t0 && d.grp x == d.grp e) = [e])
    (hi : d.startIgnored e = false) : d.tieStartArrival e = (d.atTieStart e t0).startNow [e] := by
  have hign : (d.atTieStart e t0).startIgnored e = false := (d.atTieStart_same e t0).1.trans hi
  unfold Dev.tieStartArrival
  simp only [hs, hl, List.foldl_cons, List.foldl_nil]
  exact if_neg (by simpa [Dev.atTieStart] using hign)

/-- A start outside IDLE is counted (R175). -/
theorem completes_start_ignored {e : EngId} (hup : s.dev.domOn (3 + e / 16) = true) (hi : s.dev.startIgnored e = true) :
    Completes (.engStart e) s (fun t => t.dev.engs = s.dev.engs ∧
      t.dev.rg .ENG_SREJ_COUNT e = min (s.dev.rg .ENG_SREJ_COUNT e + 1) (2 ^ 16 - 1) ∧
      ∀ j, j ≠ ⟨.ENG_SREJ_COUNT, e, 0⟩ → t.dev.key j = s.dev.key j) := by
  have hcount : s.dev.startOrder e = s.dev.bump .ENG_SREJ_COUNT e 1 := by simp [Dev.startOrder, hi]
  refine Completes.onDev (exec_of_engWrite rfl hup) ?_
  dsimp only
  rw [hcount]
  refine ⟨rfl, (Dev.rg_st_self ..).trans (Nat.mod_eq_of_lt ?_), fun j hj => ?_⟩
  · exact Nat.lt_of_le_of_lt (Nat.min_le_right ..) (by decide)
  · rw [Dev.bump, Dev.key_st, if_neg (Ne.symm hj)]

/-- Settles O22: an order and a group's start are the same start, of an engine alone. -/
theorem burstStart : Obligations.BurstStart := by
  unfold Obligations.BurstStart
  intro s e r t0
  refine ⟨?begins, ?refused, ?ignored, ?arrivalRefused, ?arrival⟩
  case begins =>
    intro hup ht hi hs hr
    refine Completes.onDev (exec_of_engWrite rfl hup) ?_
    dsimp only
    rw [Dev.startOrder_eq hi hs ht]
    exact (Dev.startNow_started hr).1.all
  case refused =>
    intro hup ht hi hs hr
    obtain ⟨hres, hreason, hcount, hstate⟩ := (Dev.startNow_refused hup hr).1
    refine Completes.onDev (exec_of_engWrite rfl hup) ?_
    dsimp only
    rw [Dev.startOrder_eq hi hs ht]
    exact ⟨hres, hreason, hcount, hstate⟩
  case ignored => exact fun hup hi => completes_start_ignored hup hi
  case arrivalRefused =>
    intro hs hl hi hr hup
    obtain ⟨-, hrefusal, -, htick, htie, hrg, hdom⟩ := s.dev.atTieStart_same e t0
    obtain ⟨⟨hres, hreason, hcount, hstate⟩, htie', htick'⟩ :=
      Dev.startNow_refused ((hdom _).trans hup) (hrefusal.trans hr)
    refine Completes.onDev rfl ?_
    dsimp only
    rw [Dev.tieStartArrival_eq hs hl hi]
    exact ⟨⟨hres, hreason, hrg .ENG_RES_BCNT_COUNT ▸ hcount, hstate.trans (hrg _)⟩, htie'.trans htie, htick'.trans htick⟩
  case arrival =>
    intro hs hl hi hr
    obtain ⟨-, hrefusal, hentry, htick, -⟩ := s.dev.atTieStart_same e t0
    obtain ⟨hstart, htick'⟩ := Dev.startNow_started (hrefusal.trans hr)
    refine Completes.onDev rfl ?_
    dsimp only
    rw [Dev.tieStartArrival_eq hs hl hi]
    exact ⟨(hentry ▸ hstart).all, hstart.tieStart, htick'.trans htick⟩

end Sys2Proof.Machine
end

section
/-!
The reset of an engine and the end of its recovery, with what else they write (R189, R245, R252, R327).
-/

namespace Sys2Proof.Machine

variable {e : Nat} {d t u : Dev}

/-! ## Stores over an index -/

/-- A loop whose step for an index leaves that index's register at 0, and no other above 0, leaves all of them at 0. -/
theorem Dev.foldl_zero {g : Dev → Nat → Dev} {k : Nat → RegKey} (hself : ∀ b i, (g b i).key (k i) = 0)
    (hkeep : ∀ b i j, b.key (k j) = 0 → (g b i).key (k j) = 0) {i : Nat} (l : List Nat) (d : Dev)
    (h : i ∈ l ∨ d.key (k i) = 0) : (l.foldl g d).key (k i) = 0 := by
  induction l generalizing d with
  | nil => simpa using h
  | cons j l ih =>
    refine ih _ ?_
    by_cases hj : i = j
    · exact .inr (hj ▸ hself d i)
    · exact h.imp (fun hm => (List.mem_cons.mp hm).resolve_left hj) (hkeep d j i)

/-- A store of 0 leaves a register that reads 0. -/
theorem Dev.key_sti_zero (d : Dev) (f : Field) (u i : Nat) {j : RegKey} (h : d.key j = 0) : (d.sti f u i 0).key j = 0 := by
  rw [Dev.key_sti]
  split
  · exact Nat.zero_mod _
  · exact h

theorem Dev.key_sti_self (d : Dev) (f : Field) (u i : Nat) : (d.sti f u i 0).key ⟨f, u, i⟩ = 0 := by
  rw [Dev.key_sti, if_pos rfl]
  exact Nat.zero_mod _

/-- From `d` to `t` registers of the fields `fs` alone may have changed: the others stay, as do engines, what sews have taken
and the clock. -/
structure Dev.RegsOnly (fs : List Field) (d t : Dev) : Prop where
  writes : Dev.WritesOnly fs d t
  engs   : t.engs = d.engs
  taken  : t.taken = d.taken

namespace Dev.RegsOnly

variable {fs gs : List Field}

theorem refl (fs : List Field) (d : Dev) : Dev.RegsOnly fs d d := ⟨.refl fs d, rfl, rfl⟩

theorem trans (h : Dev.RegsOnly fs d t) (h' : Dev.RegsOnly fs t u) : Dev.RegsOnly fs d u :=
  ⟨h.writes.trans h'.writes, h'.engs.trans h.engs, h'.taken.trans h.taken⟩

theorem mono (hs : fs ⊆ gs) (h : Dev.RegsOnly fs d t) : Dev.RegsOnly gs d t := ⟨h.writes.mono hs, h.engs, h.taken⟩

theorem sti {f : Field} (d : Dev) (u i v : Nat) (hf : f ∈ fs) : Dev.RegsOnly fs d (d.sti f u i v) :=
  ⟨(Dev.SewFrame.sti d u i v hf).writes, rfl, rfl⟩

theorem st {f : Field} (d : Dev) (u v : Nat) (hf : f ∈ fs) : Dev.RegsOnly fs d (d.st f u v) := sti d u 0 v hf

theorem of_reports (hs : reportFields ⊆ fs) (h : Reports d t) : Dev.RegsOnly fs d t :=
  ⟨⟨fun j hj => h.key j fun hr => hj (hs hr), h.tick⟩, h.engs, h.taken⟩

theorem ite {c : Prop} [Decidable c] (ht : Dev.RegsOnly fs d t) (hu : Dev.RegsOnly fs d u) :
    Dev.RegsOnly fs d (if c then t else u) := by
  split
  · exact ht
  · exact hu

theorem foldl {α : Type} {g : Dev → α → Dev} (l : List α) (d : Dev) (hg : ∀ b, ∀ x ∈ l, Dev.RegsOnly fs b (g b x)) :
    Dev.RegsOnly fs d (l.foldl g d) := by
  induction l generalizing d with
  | nil => exact refl fs d
  | cons x l ih =>
    exact (hg d x (List.mem_cons_self ..)).trans (ih _ fun b y hy => hg b y (List.mem_cons_of_mem x hy))

theorem eng (h : Dev.RegsOnly fs d t) (x : Nat) : t.eng x = d.eng x := by rw [Dev.eng, Dev.eng, h.engs]

theorem rg (h : Dev.RegsOnly fs d t) (f : Field) (x : Nat) (hf : f ∉ fs) : t.rg f x = d.rg f x := h.writes.rg f x hf

end Dev.RegsOnly

/-! ## Settling sews of which nothing is taken -/

/-- Fields that the end of a sew without fields writes: its own, the mode's and a report's. -/
def settleFields : List Field :=
  sewFields ++ [.SEW_MODE_MODE, .HOST_MODE_MODE, .SEW_MODE_PENDING, .HOST_MODE_PENDING] ++ reportFields

theorem Dev.sewState_regsOnly (d : Dev) (g v : Nat) : Dev.RegsOnly settleFields d (d.sewState g v) := by
  have hrec : ∀ (c : Prop) [Decidable c] (b : Dev) (f : Field) (n : Nat), f ∈ settleFields →
      Dev.RegsOnly settleFields b (if c then b.st f g n else b) := fun c _ b f n hf => .ite (.st b g n hf) (.refl _ b)
  unfold Dev.sewState
  dsimp only
  have hstate : Dev.RegsOnly settleFields d (d.st .SEW_STATUS_STATE g v) := .st d g v (by decide)
  refine Dev.RegsOnly.ite (Dev.RegsOnly.trans ?_ (.of_reports (by decide) (Dev.irq_reports ..))) ?_
  · exact (hstate.trans (hrec _ _ _ _ (by decide))).trans (hrec _ _ _ _ (by decide))
  · exact (hstate.trans (hrec _ _ _ _ (by decide))).trans (hrec _ _ _ _ (by decide))

theorem Dev.modeDone_regsOnly (d : Dev) (g : Nat) : Dev.RegsOnly settleFields d (d.modeDone g) := by
  have hset : ∀ (b : Dev), ∀ f ∈ settleFields, ∀ v, Dev.RegsOnly settleFields b (b.st f 0 v) := fun b f hf v => .st b 0 v hf
  unfold Dev.modeDone Dev.setMode
  split
  · refine .ite ?_ (.refl _ d)
    have hmode : Dev.RegsOnly settleFields d { d with modeChg := none } := ⟨.of_eqs rfl rfl, rfl, rfl⟩
    exact (((hmode.trans (hset _ .SEW_MODE_MODE (by decide) _)).trans (hset _ .HOST_MODE_MODE (by decide) _)).trans
      (hset _ .SEW_MODE_PENDING (by decide) _)).trans (hset _ .HOST_MODE_PENDING (by decide) _)
  · exact .refl _ d

/-- A sew of which nothing is taken changes no engine as it settles. -/
theorem Dev.sewSettle_regsOnly (ht : d.taken = []) (g : Nat) : Dev.RegsOnly settleFields d (d.sewSettle g) := by
  have hcnt : ∀ n, Dev.RegsOnly settleFields d (d.st .SEW_STATUS_PENDCNT g n) := fun n => .st d g n (by decide)
  by_cases hp : d.sewPend g = 0
  · by_cases hs : d.rg .SEW_STATUS_STATE g = 2
    · rw [Dev.sewSettle_of_done hs hp, Dev.sewStored_of_none (by simp [Dev.st, Dev.setKey, ht])]
      exact ((hcnt 0).trans (Dev.modeDone_regsOnly ..)).trans (Dev.sewState_regsOnly ..)
    · have hset : d.sewSettle g = d.st .SEW_STATUS_PENDCNT g (d.sewPend g) :=
        if_neg fun hc => hs ((Dev.rg_st_ne _ _ _ _ (by decide)).symm.trans hc.1)
      exact hset ▸ hcnt _
  · exact Dev.sewSettle_of_left hp ▸ hcnt _

theorem Dev.sewSettleAll_regsOnly (ht : d.taken = []) : Dev.RegsOnly settleFields d d.sewSettleAll := by
  have hall : ∀ (l : List Nat) (b : Dev), b.taken = [] →
      Dev.RegsOnly settleFields b (l.foldl (fun d g => d.sewSettle g) b) := by
    intro l
    induction l with
    | nil => exact fun b _ => .refl _ b
    | cons g l ih =>
      intro b hb
      have hfirst := Dev.sewSettle_regsOnly hb g
      exact hfirst.trans (ih _ (hfirst.taken.trans hb))
  exact hall _ d ht

/-! ## The reset of an engine -/

/-- The fields of an engine that a reset leaves at 0 (R189). -/
def clearedFields : List Field :=
  [.ENG_XA, .ENG_YA, .ENG_DG, .ENG_VP, .ENG_TS, .ENG_TAG, .ENG_EPC, .ENG_PC_ADDR, .ENG_PC_BANK,
    .ENG_FLAGS_FAIL, .ENG_FLAGS_MATCH, .ENG_FLAGS_ZERO, .ENG_FLAGS_CARRY, .ENG_FLAGS_TFAIL, .ENG_FLAGS_TMATCH,
    .ENG_ESTAT_IE, .ENG_ESTAT_RESUME, .ENG_ESTAT_INHANDLER, .ENG_ESTAT_SZERO, .ENG_ESTAT_SCARRY, .ENG_ESTAT_EVNUM,
    .ENG_EV_PEND_PEND, .ENG_SEWSTART_ARM, .ENG_ENTRY_ADDR, .ENG_ENTRY_BANK, .ENG_STAT_WREJ, .ENG_STAT_ILLSEEN,
    .ENG_SREJ_COUNT, .ENG_STAT_STATE]

/-- The registers of engine `e` after a reset, before those with an index (R189). -/
def Dev.clearFields (d : Dev) (e : Nat) : Dev :=
  ((clearedFields.foldl (fun d f => d.st f e 0) d).st .ENG_EV_EN_EN e 0x80).st .ENG_ENTRY_LEAD e 128

theorem Dev.clearFields_regsOnly (d : Dev) (e : Nat) :
    Dev.RegsOnly (clearedFields ++ [.ENG_EV_EN_EN, .ENG_ENTRY_LEAD]) d (d.clearFields e) :=
  ((Dev.RegsOnly.foldl _ d fun b _ hf => .st b e 0 (List.mem_append_left _ hf)).trans
    (.st _ e 0x80 (by decide))).trans (.st _ e 128 (by decide))

theorem Dev.clearFields_rg (d : Dev) (e : Nat) {f : Field} (hf : f ∈ clearedFields) : (d.clearFields e).rg f e = 0 := by
  have hne : Field.ENG_EV_EN_EN ≠ f ∧ Field.ENG_ENTRY_LEAD ≠ f :=
    (by decide : ∀ f ∈ clearedFields, Field.ENG_EV_EN_EN ≠ f ∧ Field.ENG_ENTRY_LEAD ≠ f) f hf
  rw [Dev.clearFields, Dev.rg_st_ne _ _ _ _ hne.2, Dev.rg_st_ne _ _ _ _ hne.1]
  exact Dev.zeroed_rg _ (.inl hf)

theorem Dev.clearFields_set (d : Dev) (e : Nat) :
    (d.clearFields e).rg .ENG_EV_EN_EN e = 0x80 ∧ (d.clearFields e).rg .ENG_ENTRY_LEAD e = 128 :=
  ⟨(Dev.rg_st_ne _ _ _ _ (by decide)).trans (Dev.rg_st_self ..), Dev.rg_st_self ..⟩

def Dev.clearGlobals (d : Dev) (e : Nat) : Dev := (List.range 32).foldl (fun d i => d.sti .ENG_G e i 0) d

def Dev.clearLocals (d : Dev) (e : Nat) : Dev :=
  (List.range 16).foldl (fun d i => ((d.sti .ENG_L e i 0).sti .ENG_EV_VEC_ADDR e i 0).sti .ENG_EV_VEC_VALID e i 0) d

def Dev.clearProgs (d : Dev) (e : Nat) : Dev := (List.range 4).foldl (fun d i => d.sti .ENG_PROG e i 0) d

/-- The registers with an index of engine `e` after a reset (R189). -/
def Dev.clearArrays (d : Dev) (e : Nat) : Dev := ((d.clearGlobals e).clearLocals e).clearProgs e

theorem Dev.clearGlobals_regsOnly (d : Dev) (e : Nat) : Dev.RegsOnly [.ENG_G] d (d.clearGlobals e) :=
  .foldl _ d fun b i _ => .sti b e i 0 (by decide)

theorem Dev.clearLocals_regsOnly (d : Dev) (e : Nat) :
    Dev.RegsOnly [.ENG_L, .ENG_EV_VEC_ADDR, .ENG_EV_VEC_VALID] d (d.clearLocals e) :=
  .foldl _ d fun b i _ => ((Dev.RegsOnly.sti (f := .ENG_L) b e i 0 (by decide)).trans
    (.sti (f := .ENG_EV_VEC_ADDR) _ e i 0 (by decide))).trans (.sti (f := .ENG_EV_VEC_VALID) _ e i 0 (by decide))

theorem Dev.clearProgs_regsOnly (d : Dev) (e : Nat) : Dev.RegsOnly [.ENG_PROG] d (d.clearProgs e) :=
  .foldl _ d fun b i _ => .sti b e i 0 (by decide)

theorem Dev.clearGlobals_zero (d : Dev) (e : Nat) {i : Nat} (hi : i < 32) : (d.clearGlobals e).rgi .ENG_G e i = 0 :=
  Dev.foldl_zero (k := fun i => ⟨.ENG_G, e, i⟩) (fun b i => b.key_sti_self .ENG_G e i)
    (fun b i _ h => b.key_sti_zero .ENG_G e i h) _ d (.inl (List.mem_range.mpr hi))

theorem Dev.clearLocals_zero (d : Dev) (e : Nat) {i : Nat} (hi : i < 16) : (d.clearLocals e).rgi .ENG_L e i = 0 :=
  Dev.foldl_zero (k := fun i => ⟨.ENG_L, e, i⟩)
    (fun b i => Dev.key_sti_zero _ _ e i (Dev.key_sti_zero _ _ e i (b.key_sti_self .ENG_L e i)))
    (fun _ i _ h => Dev.key_sti_zero _ _ e i (Dev.key_sti_zero _ _ e i (Dev.key_sti_zero _ _ e i h))) _ d
    (.inl (List.mem_range.mpr hi))

theorem Dev.clearProgs_zero (d : Dev) (e : Nat) {i : Nat} (hi : i < 4) : (d.clearProgs e).rgi .ENG_PROG e i = 0 :=
  Dev.foldl_zero (k := fun i => ⟨.ENG_PROG, e, i⟩) (fun b i => b.key_sti_self .ENG_PROG e i)
    (fun b i _ h => b.key_sti_zero .ENG_PROG e i h) _ d (.inl (List.mem_range.mpr hi))

theorem Dev.clearArrays_zero (d : Dev) (e : Nat) : (∀ i < 32, (d.clearArrays e).rgi .ENG_G e i = 0) ∧
    (∀ i < 16, (d.clearArrays e).rgi .ENG_L e i = 0) ∧ ∀ i < 4, (d.clearArrays e).rgi .ENG_PROG e i = 0 := by
  have hprogs := ((d.clearGlobals e).clearLocals e).clearProgs_regsOnly e
  refine ⟨fun i hi => ?_, fun i hi => ?_, fun i hi => Dev.clearProgs_zero _ e hi⟩
  · exact (hprogs.writes.key ⟨.ENG_G, e, i⟩ (by simp)).trans
      ((((d.clearGlobals e).clearLocals_regsOnly e).writes.key ⟨.ENG_G, e, i⟩ (by simp)).trans (d.clearGlobals_zero e hi))
  · exact (hprogs.writes.key ⟨.ENG_L, e, i⟩ (by simp)).trans (Dev.clearLocals_zero _ e hi)

/-- The fields with an index that a reset leaves at 0 (R189). -/
def clearedArrays : List Field := [.ENG_G] ++ [.ENG_L, .ENG_EV_VEC_ADDR, .ENG_EV_VEC_VALID] ++ [.ENG_PROG]

theorem Dev.clearArrays_regsOnly (d : Dev) (e : Nat) : Dev.RegsOnly clearedArrays d (d.clearArrays e) :=
  (((d.clearGlobals_regsOnly e).mono (by decide)).trans ((Dev.clearLocals_regsOnly _ e).mono (by decide))).trans
    ((Dev.clearProgs_regsOnly _ e).mono (by decide))

/-- Fields that a reset writes, where no sew has taken one of the engine's (R189). -/
def resetFields : List Field := clearedFields ++ [.ENG_EV_EN_EN, .ENG_ENTRY_LEAD] ++ clearedArrays ++ settleFields

theorem Dev.clearRegs_regsOnly (d : Dev) (e : Nat) : Dev.RegsOnly resetFields d ((d.clearFields e).clearArrays e) :=
  ((d.clearFields_regsOnly e).mono (by decide)).trans ((Dev.clearArrays_regsOnly _ e).mono (by decide))

/-- The reset of an engine of which no sew has taken a field: its registers, then what it holds (R189, R410). -/
theorem Dev.engClear_cleared (d : Dev) (e : Nat) (ht : d.taken = []) :
    Dev.WritesOnly resetFields d (d.engClear e) ∧ (∀ j : RegKey, j.f ∉ settleFields →
      (d.engClear e).key j = ((d.clearFields e).clearArrays e).key j) ∧ ((d.engClear e).eng e).act = none := by
  have hregs := Dev.clearRegs_regsOnly d e
  obtain ⟨b, hclear, hb, hbtick, htaken, hact⟩ : ∃ b : Dev, d.engClear e = b.sewSettleAll ∧
      b.regs = ((d.clearFields e).clearArrays e).regs ∧ b.tick = ((d.clearFields e).clearArrays e).tick ∧ b.taken = [] ∧
      (b.eng e).act = none := by
    refine ⟨_, rfl, rfl, rfl, ?_, Dev.modEng_proj _ e _ (·.act)⟩
    exact (congrArg (List.filter _) (hregs.taken.trans ht)).trans List.filter_nil
  have hsettle := Dev.sewSettleAll_regsOnly htaken
  have hb' : Dev.WritesOnly resetFields ((d.clearFields e).clearArrays e) b := .of_eqs hb hbtick
  have hkey : ∀ j, b.key j = ((d.clearFields e).clearArrays e).key j := fun j => by rw [Dev.key, Dev.key, hb]
  rw [hclear]
  exact ⟨(hregs.writes.trans hb').trans (hsettle.writes.mono (List.subset_append_right ..)),
    fun j hj => (hsettle.writes.key j hj).trans (hkey j), (congrArg Eng.act (hsettle.eng e)).trans hact⟩

section
variable (ht : d.taken = [])
include ht

theorem Dev.engClear_rg {f : Field} (hf : f ∈ clearedFields) : (d.engClear e).rg f e = 0 := by
  obtain ⟨hsettle, harray⟩ : f ∉ settleFields ∧ f ∉ clearedArrays :=
    (by decide : ∀ f ∈ clearedFields, f ∉ settleFields ∧ f ∉ clearedArrays) f hf
  exact ((d.engClear_cleared e ht).2.1 ⟨f, e, 0⟩ hsettle).trans
    (((Dev.clearArrays_regsOnly _ e).rg f e harray).trans (d.clearFields_rg e hf))

theorem Dev.engClear_set : (d.engClear e).rg .ENG_EV_EN_EN e = 0x80 ∧ (d.engClear e).rg .ENG_ENTRY_LEAD e = 128 := by
  have hkey := (d.engClear_cleared e ht).2.1
  have harrays := Dev.clearArrays_regsOnly (d.clearFields e) e
  obtain ⟨hen, hlead⟩ := d.clearFields_set e
  exact ⟨(hkey ⟨.ENG_EV_EN_EN, e, 0⟩ (show Field.ENG_EV_EN_EN ∉ settleFields by decide)).trans
      ((harrays.rg _ e (by decide)).trans hen),
    (hkey ⟨.ENG_ENTRY_LEAD, e, 0⟩ (show Field.ENG_ENTRY_LEAD ∉ settleFields by decide)).trans
      ((harrays.rg _ e (by decide)).trans hlead)⟩

theorem Dev.engClear_arrays : (∀ i < 32, (d.engClear e).rgi .ENG_G e i = 0) ∧
    (∀ i < 16, (d.engClear e).rgi .ENG_L e i = 0) ∧ ∀ i < 4, (d.engClear e).prog e i = 0 := by
  have hkey : ∀ f ∈ clearedArrays, ∀ i, (d.engClear e).rgi f e i = ((d.clearFields e).clearArrays e).rgi f e i := fun f hf i =>
    (d.engClear_cleared e ht).2.1 ⟨f, e, i⟩ ((by decide : ∀ f ∈ clearedArrays, f ∉ settleFields) f hf)
  obtain ⟨hg, hl, hp⟩ := Dev.clearArrays_zero (d.clearFields e) e
  exact ⟨fun i hi => (hkey _ (by decide) i).trans (hg i hi), fun i hi => (hkey _ (by decide) i).trans (hl i hi),
    fun i hi => (hkey _ (by decide) i).trans (hp i hi)⟩

end

/-- With the key an idle engine is reset at once (R189). -/
theorem Dev.engReset_of_idle (hst : d.estate e = 0) (hr : (d.eng e).recov = none) :
    d.engReset e 0xA5 = d.engClear e := by
  simp [Dev.engReset, Dev.abandon, hr, Dev.halt, hst, Dev.runs]

/-- With the key a running engine is halted first (R187, R189). -/
theorem Dev.engReset_of_running (hst : d.estate e = 2) (hr : (d.eng e).recov = none)
    (hn : (d.eng e).ending = none) : (d.engReset e 0xA5).rg .ENG_STAT_STATE e = 3 ∧
      ((d.engReset e 0xA5).eng e).rst = true ∧ ((d.engReset e 0xA5).eng e).ending = some ⟨rHALT, e, d.tick, false⟩ := by
  have habandon : d.abandon e = d := by simp [Dev.abandon, hr]
  have hhalt : d.halt e = d.endFault e rHALT false := if_pos (.inr hst)
  obtain ⟨hstate, hending⟩ := Dev.endFaultAt_ended (Dev.runs_of_issuing_state (.inr hst)) hn rHALT false d.tick
  have hruns : (d.endFaultAt e rHALT false d.tick).runs e = true := by simp [Dev.runs, Dev.estate, hstate]
  have hreset : d.engReset e 0xA5 = (d.endFaultAt e rHALT false d.tick).modEng e (fun x => { x with rst := true }) := by
    simp only [Dev.engReset, habandon, hhalt, Dev.endFault, hruns, ne_eq, not_true, if_false, if_true]
  rw [hreset]
  exact ⟨hstate, Dev.modEng_proj _ e _ (·.rst), (Dev.modEng_proj _ e _ (·.ending)).trans hending⟩

/-! ## Records of machine checks -/

/-- Fields that the records of machine checks write (R252). -/
def recordFields : List Field := .ENG_MC_REC_RECORD :: reportFields

theorem Dev.mcRecord_regsOnly (d : Dev) (u a b c f g h i j k l m : Nat) :
    Dev.RegsOnly recordFields d (d.mcRecord u a b c f g h i j k l m) := by
  unfold Dev.mcRecord
  exact ((Dev.RegsOnly.st (f := .ENG_MC_REC_RECORD) d u _ (by decide)).trans
    (.of_reports (by decide) (Dev.logStamped_reports ..))).trans (.of_reports (by decide) (Dev.irq_reports ..))

theorem Dev.mcRecords_regsOnly (d : Dev) (u : Nat) (l : List McRec) (a b c f g : Nat) :
    Dev.RegsOnly recordFields d (d.mcRecords u l a b c f g) :=
  .foldl l d fun x _ _ => Dev.mcRecord_regsOnly x ..

/-- The record of a machine check (R252). -/
theorem Dev.mcRecord_record (d : Dev) (u store addr kind bit listed outcome extra pc bank time w : Nat) :
    (d.mcRecord u store addr kind bit listed outcome extra pc bank time w).rg .ENG_MC_REC_RECORD u =
      addr % 2 ^ 12 + store % 2 * 2 ^ 12 + kind % 8 * 2 ^ 13 + bit % 512 * 2 ^ 16 + listed % 2 * 2 ^ 25
        + outcome % 8 * 2 ^ 26 + extra % 128 * 2 ^ 29 + pc % 2 ^ 16 * 2 ^ 36 + bank % 2 * 2 ^ 52 + time % 2 ^ 64 * 2 ^ 64 := by
  unfold Dev.mcRecord
  rw [(Dev.irq_reports ..).rg _ _ (by decide), (Dev.logStamped_reports ..).rg _ _ (by decide), Dev.rg_st_self]
  exact Nat.mod_eq_of_lt (by rw [show Field.ENG_MC_REC_RECORD.info.width = 128 from rfl]; omega)

/-! ## The end of a recovery -/

theorem Dev.advanceTo_rowDeadline (d : Dev) (k e : Nat) : (d.advanceTo k).rowDeadline e = d.rowDeadline e := by
  obtain ⟨n, c, h⟩ := Dev.advanceTo_clock (d := d) k
  rw [h]
  rfl

/-- No row was due before `t`. -/
theorem Dev.overdue_of_due {n : Nat} (h : ∀ v, d.rowDeadline e = some v → n ≤ v) : d.overdue e n = d := by
  unfold Dev.overdue
  split
  · exact if_neg (Nat.not_lt.2 (h _ ‹_›))
  · rfl

/-- A recovery that has not run to its end goes on. -/
theorem Dev.recoveryEnd_of_not_done {q : Recov} (hr : (d.eng e).recov = some q) (hd : q.done = false) :
    d.recoveryEnd e = d := by
  simp [Dev.recoveryEnd, hr, hd]

section
variable {q : Recov} {m : McRec} (hr : (d.eng e).recov = some q) (hd : q.done = true) (hm : q.recs = [m])
  (hrow : ∀ v, d.rowDeadline e = some v → (d.eng e).free ≤ v)
include hr hd hm hrow

/-- A recovery at its end with one record, and no row due before: the record is written, and the recovery is over (R245). -/
theorem Dev.recoveryEnd_of_done {a : Dev} (ha : d.advanceTo (d.eng e).free = a) : d.recoveryEnd e =
    ((a.mcRecord e m.store m.addr m.kind m.bit m.listed (b2n (q.stall || (d.eng e).ending.any (fun o => o.reason == rMCSTALL)))
      (min q.words 64) q.pc (d.eng e).bank q.ns a.tick).st .ENG_MC_STAT_RECOV e 0).modEng e
      (fun x => { x with recov := none, act := if a.estate e = 1 ∨ a.estate e = 2 then x.act else none }) := by
  have heng : a.eng e = d.eng e := ha ▸ Dev.advanceTo_eng ..
  have hdue : a.overdue e (d.eng e).free = a :=
    Dev.overdue_of_due fun v hv => hrow v ((Dev.advanceTo_rowDeadline ..).symm.trans (ha ▸ hv))
  simp only [Dev.recoveryEnd, hr, hd, ha, hdue, hm, Dev.mcRecords, List.foldl_cons, List.foldl_nil, Bool.not_true,
    Bool.false_eq_true, if_false, heng]

/-- Normal service resumes at the end of a recovery, and its record is written (R245, R252). -/
theorem Dev.recoveryEnd_resumes : (d.recoveryEnd e).rg .ENG_MC_STAT_RECOV e = 0 ∧ ((d.recoveryEnd e).eng e).recov = none ∧
    (d.recoveryEnd e).tick = max d.tick (d.eng e).free ∧
    ((d.recoveryEnd e).eng e).act = (if d.estate e = 1 ∨ d.estate e = 2 then (d.eng e).act else none) ∧
    (d.recoveryEnd e).rg .ENG_MC_REC_RECORD e = m.addr % 2 ^ 12 + m.store % 2 * 2 ^ 12 + m.kind % 8 * 2 ^ 13 +
      m.bit % 512 * 2 ^ 16 + m.listed % 2 * 2 ^ 25 + b2n (q.stall || (d.eng e).ending.any (fun o => o.reason == rMCSTALL)) * 2 ^ 26 +
      min q.words 64 * 2 ^ 29 + q.pc % 2 ^ 16 * 2 ^ 36 + (d.eng e).bank % 2 * 2 ^ 52 + q.ns % 2 ^ 64 * 2 ^ 64 := by
  set a := d.advanceTo (d.eng e).free with ha
  have hest : a.estate e = d.estate e := Dev.advanceTo_rg ..
  have hrec := Dev.mcRecord_regsOnly a e m.store m.addr m.kind m.bit m.listed
    (b2n (q.stall || (d.eng e).ending.any (fun o => o.reason == rMCSTALL))) (min q.words 64) q.pc (d.eng e).bank q.ns a.tick
  have hbool : ∀ c : Bool, b2n c % 8 = b2n c := fun c => by cases c <;> rfl
  have hwords : min q.words 64 % 128 = min q.words 64 := Nat.mod_eq_of_lt (by omega)
  rw [Dev.recoveryEnd_of_done hr hd hm hrow ha.symm]
  refine ⟨Dev.rg_st_self .., Dev.modEng_proj _ e _ (·.recov), ?_, ?_, ?_⟩
  · exact hrec.writes.tick.trans (Dev.advanceTo_tick ..)
  · refine (Dev.modEng_proj _ e _ (·.act)).trans ?_
    rw [hest]
    exact congrArg (fun y : Eng => if d.estate e = 1 ∨ d.estate e = 2 then y.act else none)
      ((hrec.eng e).trans (Dev.advanceTo_eng ..))
  · refine (Dev.rg_st_ne _ _ _ _ (show Field.ENG_MC_STAT_RECOV ≠ .ENG_MC_REC_RECORD by decide)).trans ?_
    rw [Dev.mcRecord_record, hbool, hwords]

end

end Sys2Proof.Machine
end

section
/-!
Control stores: words that fail, the scan, the list of words, errors of stored bits (R232, R242 to R249).
-/

namespace Sys2Proof.Machine

variable {s : State} {e w store addr bit : Nat} {d t : Dev}

/-! ## A word listed as uncorrectable -/

/-- An uncorrectable word of a burst that runs on an engine alone ends it with MC_UE (R246). -/
theorem Dev.mcUe_ended (hr : d.runs e = true) (hn : (d.eng e).ending = none) (ht : d.tied e = false) (n : Nat) :
    (d.mcUe e n).rg .ENG_MC_STAT_UE_SEEN e = 1 ∧ (d.mcUe e n).rg .ENG_STAT_STATE e = 3 ∧
      ((d.mcUe e n).eng e).ending = some ⟨rMCUE, e, n, true⟩ ∧ ((d.mcUe e n).eng e).ue = true := by
  set b := (d.st .ENG_MC_STAT_UE_SEEN e 1).st .ENG_MC_STAT_RECOV e 0 with hb
  set c := b.modEng e (fun x => { x with act := none, recov := none, ue := true }) with hc
  have hregs : Dev.RegsOnly [.ENG_MC_STAT_UE_SEEN, .ENG_MC_STAT_RECOV] d b :=
    (Dev.RegsOnly.st d e 1 (by decide)).trans (.st _ e 0 (by decide))
  have hruns : b.runs e = true := (Dev.runs_congr (hregs.rg _ e (by decide))).trans hr
  have hcruns : c.runs e = true := hruns
  have htied : c.tied e = false := by
    rw [← ht, Dev.tied, Dev.tied]
    exact congrArg (· == 1) (Dev.eff_congr (d := d) (t := c) rfl (hregs.rg .ENG_TIE_TIED e (by decide)))
  have hend : (c.eng e).ending = none := (Dev.modEng_proj b e _ (·.ending)).trans hn
  have hseen : c.rg .ENG_MC_STAT_UE_SEEN e = 1 := (Dev.rg_st_ne _ _ _ _ (by decide)).trans (Dev.rg_st_self ..)
  have hlog := Dev.faultLog_reports c e rMCUE (c.lastRow e true) n
  have hue : d.mcUe e n = (c.faultLog e rMCUE (c.lastRow e true) n).stopIssue e ⟨rMCUE, e, n, true⟩ :=
    (if_pos hruns).trans (Dev.endFaultAt_of_untied hcruns hend htied ..)
  obtain ⟨k, m, a, hstop⟩ := Dev.stopIssue_eng (c.faultLog e rMCUE (c.lastRow e true) n) e ⟨rMCUE, e, n, true⟩
  rw [hue]
  refine ⟨?_, Dev.stopIssue_state .., Dev.stopIssue_ending .., ?_⟩
  · rw [(Dev.stopIssue_ends _ _ (List.mem_singleton_self e)).rg _ e (by decide), hlog.rg _ _ (by decide), hseen]
  · rw [hstop, hlog.eng]
    exact Dev.modEng_proj b e _ (·.ue)

/-- A microword listed as uncorrectable does not execute (R242, R248). -/
theorem Dev.micro_of_listed_ue (h : d.listKind e (0, (d.eng e).upc) = some 1) (w n : Nat) :
    ∃ b, Dev.RegsOnly recordFields d b ∧ d.micro e w n = (false, b.mcUe e (d.eng e).free) := by
  unfold Dev.micro
  dsimp only
  rw [if_pos (by simp [h])]
  exact ⟨_, Dev.mcRecords_regsOnly .., rfl⟩

theorem Dev.micro_ended (h : d.listKind e (0, (d.eng e).upc) = some 1) (hr : d.runs e = true)
    (hn : (d.eng e).ending = none) (ht : d.tied e = false) (w n : Nat) : (d.micro e w n).1 = false ∧
      (d.micro e w n).2.rg .ENG_MC_STAT_UE_SEEN e = 1 ∧ (d.micro e w n).2.rg .ENG_STAT_STATE e = 3 ∧
      ((d.micro e w n).2.eng e).ending = some ⟨rMCUE, e, (d.eng e).free, true⟩ ∧ ((d.micro e w n).2.eng e).ue = true := by
  obtain ⟨b, hb, hmicro⟩ := Dev.micro_of_listed_ue h w n
  have htied : b.tied e = false := by
    rw [← ht, Dev.tied, Dev.tied, Dev.eff_congr hb.taken (hb.rg .ENG_TIE_TIED e (by decide))]
  rw [hmicro]
  exact ⟨rfl, Dev.mcUe_ended ((Dev.runs_congr (hb.rg _ e (by decide))).trans hr) (hb.eng e ▸ hn) htied _⟩

/-! ## The list of words -/

/-- Fields that the list of words writes (R248). -/
def listFields : List Field := [.ENG_MC_LIST_ADDR, .ENG_MC_LIST_STORE, .ENG_MC_LIST_VALID, .ENG_MC_LIST_KIND, .ENG_MC_LIST_BIT,
  .ENG_MC_STAT_LISTCNT, .ENG_MC_STAT_LISTFULL]

/-- The list of engine `e` has taken a corrected word as its entry `i` (R248). -/
structure Dev.Listed (e i store addr bit : Nat) (t : Dev) : Prop where
  count : t.rg .ENG_MC_STAT_LISTCNT e = (i + 1) % 2 ^ 6
  addr  : t.rgi .ENG_MC_LIST_ADDR e i = addr % 2 ^ 12
  store : t.rgi .ENG_MC_LIST_STORE e i = store % 2
  valid : t.rgi .ENG_MC_LIST_VALID e i = 1
  kind  : t.rgi .ENG_MC_LIST_KIND e i = 0
  bit   : t.rgi .ENG_MC_LIST_BIT e i = bit % 2 ^ 9

/-- A corrected word that is not in the list enters it while it has room (R248). -/
theorem Dev.listEnter_new (hnone : d.listAt e store addr = none) (hroom : d.rg .ENG_MC_STAT_LISTCNT e < 32) :
    (d.listEnter e store addr (some bit)).1 = true ∧
      Dev.Listed e (d.rg .ENG_MC_STAT_LISTCNT e) store addr bit (d.listEnter e store addr (some bit)).2 := by
  have hlist : d.listEnter e store addr (some bit) = (true,
      ((((((d.sti .ENG_MC_LIST_ADDR e (d.rg .ENG_MC_STAT_LISTCNT e) addr).sti .ENG_MC_LIST_STORE e
        (d.rg .ENG_MC_STAT_LISTCNT e) store).sti .ENG_MC_LIST_VALID e (d.rg .ENG_MC_STAT_LISTCNT e) 1).sti .ENG_MC_LIST_KIND e
        (d.rg .ENG_MC_STAT_LISTCNT e) 0).sti .ENG_MC_LIST_BIT e (d.rg .ENG_MC_STAT_LISTCNT e) bit).st .ENG_MC_STAT_LISTCNT e
        (d.rg .ENG_MC_STAT_LISTCNT e + 1)).st .ENG_MC_STAT_LISTFULL e (b2n (d.rg .ENG_MC_STAT_LISTCNT e + 1 == 32))) := by
    simp [Dev.listEnter, hnone, Nat.not_le.2 hroom, b2n]
  rw [hlist]
  refine ⟨rfl, ?_⟩
  generalize d.rg .ENG_MC_STAT_LISTCNT e = i
  constructor <;> simp [Dev.rg, Dev.rgi, Dev.key_st, Dev.key_sti, Field.info]

theorem Dev.Listed.of_regsOnly {i : Nat} {fs : List Field} (h : Dev.Listed e i store addr bit d) (ht : Dev.RegsOnly fs d t)
    (hfs : ∀ f ∈ listFields, f ∉ fs) : Dev.Listed e i store addr bit t := by
  have hkey : ∀ f ∈ listFields, ∀ i, t.rgi f e i = d.rgi f e i := fun f hf i => ht.writes.key ⟨f, e, i⟩ (hfs f hf)
  exact ⟨(hkey _ (by decide) 0).trans h.count, (hkey _ (by decide) i).trans h.addr, (hkey _ (by decide) i).trans h.store,
    (hkey _ (by decide) i).trans h.valid, (hkey _ (by decide) i).trans h.kind, (hkey _ (by decide) i).trans h.bit⟩

theorem Dev.listEnter_regsOnly (d : Dev) (u store addr : Nat) (b : Option Nat) :
    Dev.RegsOnly listFields d (d.listEnter u store addr b).2 := by
  have hs : ∀ (x : Dev), ∀ f ∈ listFields, ∀ i v, Dev.RegsOnly listFields x (x.sti f u i v) := fun x f hf i v => .sti x u i v hf
  unfold Dev.listEnter
  dsimp only
  split
  · split
    · exact (hs _ .ENG_MC_LIST_KIND (by decide) _ _).trans (hs _ .ENG_MC_LIST_BIT (by decide) _ _)
    · exact .refl _ d
  · split
    · exact .refl _ d
    · exact ((((((hs _ .ENG_MC_LIST_ADDR (by decide) _ _).trans (hs _ .ENG_MC_LIST_STORE (by decide) _ _)).trans
        (hs _ .ENG_MC_LIST_VALID (by decide) _ _)).trans (hs _ .ENG_MC_LIST_KIND (by decide) _ _)).trans
        (hs _ .ENG_MC_LIST_BIT (by decide) _ _)).trans (hs _ .ENG_MC_STAT_LISTCNT (by decide) 0 _)).trans
        (hs _ .ENG_MC_STAT_LISTFULL (by decide) 0 _)

/-- The fields of an entry of the list (R248). -/
def listEntryFields : List Field :=
  [.ENG_MC_LIST_ADDR, .ENG_MC_LIST_STORE, .ENG_MC_LIST_KIND, .ENG_MC_LIST_VALID, .ENG_MC_LIST_BIT]

/-- Entry `i` of the list of engine `e` is empty. -/
def Dev.clearEntry (d : Dev) (e i : Nat) : Dev :=
  ((((d.sti .ENG_MC_LIST_ADDR e i 0).sti .ENG_MC_LIST_STORE e i 0).sti .ENG_MC_LIST_KIND e i 0).sti .ENG_MC_LIST_VALID e i 0).sti
    .ENG_MC_LIST_BIT e i 0

theorem Dev.clearEntry_keeps_zero (d : Dev) (e i : Nat) {j : RegKey} (h : d.key j = 0) : (d.clearEntry e i).key j = 0 :=
  Dev.key_sti_zero _ _ e i (Dev.key_sti_zero _ _ e i (Dev.key_sti_zero _ _ e i (Dev.key_sti_zero _ _ e i
    (Dev.key_sti_zero _ _ e i h))))

theorem Dev.clearEntry_zero (d : Dev) (e i : Nat) {f : Field} (hf : f ∈ listEntryFields) : (d.clearEntry e i).key ⟨f, e, i⟩ = 0 := by
  simp only [listEntryFields, List.mem_cons, List.not_mem_nil, or_false] at hf
  obtain rfl | rfl | rfl | rfl | rfl := hf <;> simp [Dev.clearEntry, Dev.key_sti]

/-- CLRLIST empties the list (R248). -/
theorem Dev.listClear_cleared (d : Dev) (e : Nat) : (d.listClear e).rg .ENG_MC_STAT_LISTCNT e = 0 ∧
    (d.listClear e).rg .ENG_MC_STAT_LISTFULL e = 0 ∧ (∀ f ∈ listEntryFields, ∀ i < 32, (d.listClear e).rgi f e i = 0) ∧
    (d.listClear e).engs = d.engs := by
  set b := (List.range 32).foldl (fun d i => d.clearEntry e i) d with hb
  have hentries : Dev.RegsOnly listEntryFields d b := .foldl _ d fun x i _ => by
    have hs : ∀ (y : Dev), ∀ f ∈ listEntryFields, Dev.RegsOnly listEntryFields y (y.sti f e i 0) := fun y f hf => .sti y e i 0 hf
    exact ((((hs _ .ENG_MC_LIST_ADDR (by decide)).trans (hs _ .ENG_MC_LIST_STORE (by decide))).trans
      (hs _ .ENG_MC_LIST_KIND (by decide))).trans (hs _ .ENG_MC_LIST_VALID (by decide))).trans
      (hs _ .ENG_MC_LIST_BIT (by decide))
  have hlist : d.listClear e = (b.st .ENG_MC_STAT_LISTCNT e 0).st .ENG_MC_STAT_LISTFULL e 0 := rfl
  rw [hlist]
  refine ⟨(Dev.rg_st_ne _ _ _ _ (by decide)).trans (Dev.rg_st_self ..), Dev.rg_st_self .., fun f hf i hi => ?_, hentries.engs⟩
  have hne : Field.ENG_MC_STAT_LISTFULL ≠ f ∧ Field.ENG_MC_STAT_LISTCNT ≠ f :=
    (by decide : ∀ f ∈ listEntryFields, Field.ENG_MC_STAT_LISTFULL ≠ f ∧ Field.ENG_MC_STAT_LISTCNT ≠ f) f hf
  refine (Dev.key_st_ne _ _ _ (j := ⟨f, e, i⟩) hne.1).trans ((Dev.key_st_ne _ _ _ (j := ⟨f, e, i⟩) hne.2).trans ?_)
  exact Dev.foldl_zero (k := fun i => ⟨f, e, i⟩) (fun x i => x.clearEntry_zero e i hf)
    (fun x i _ h => x.clearEntry_keeps_zero e i h) _ d (.inl (List.mem_range.mpr hi))

/-! ## The scan -/

/-- The store word that the background scan of an engine reads next (R249). -/
def Eng.scanned (x : Eng) : Nat × Nat :=
  if x.scan % 6144 < 4096 then (0, x.scan % 6144) else (1, x.scan % 6144 - 4096)

/-- Engine `e` after the scan has passed on, before its word is judged (R249). -/
def Dev.scanStep (d : Dev) (e : Nat) : Dev :=
  let n := (d.eng e).scan % 6144
  let b := d.setEng e { d.eng e with scan := (n + 1) % 6144 }
  if n + 1 = 6144 then b.st .ENG_MC_SCAN_PASSES e (b.rg .ENG_MC_SCAN_PASSES e + 1) else b

theorem Dev.scanStep_eng (d : Dev) (e : Nat) :
    (d.scanStep e).eng e = { d.eng e with scan := ((d.eng e).scan % 6144 + 1) % 6144 } := by
  unfold Dev.scanStep
  dsimp only
  split
  · exact Dev.eng_setEng_self ..
  · exact Dev.eng_setEng_self ..

theorem Dev.scanStep_writes (d : Dev) (e : Nat) : (∀ j, j ≠ ⟨.ENG_MC_SCAN_PASSES, e, 0⟩ → (d.scanStep e).key j = d.key j) ∧
    (d.scanStep e).rg .ENG_MC_SCAN_PASSES e = (if (d.eng e).scan % 6144 = 6143 then
      (d.rg .ENG_MC_SCAN_PASSES e + 1) % 2 ^ 32 else d.rg .ENG_MC_SCAN_PASSES e) := by
  unfold Dev.scanStep
  dsimp only
  by_cases h : (d.eng e).scan % 6144 = 6143
  · rw [if_pos (by omega), if_pos h]
    exact ⟨fun j hj => (Dev.key_st ..).trans (if_neg (Ne.symm hj)), Dev.rg_st_self ..⟩
  · rw [if_neg (by omega), if_neg h]
    exact ⟨fun _ _ => rfl, rfl⟩

theorem Eng.scanned_eq (x : Eng) : x.scanned.1 = (if x.scan % 6144 < 4096 then 0 else 1) ∧
    x.scanned.2 = (if x.scan % 6144 < 4096 then x.scan % 6144 else x.scan % 6144 - 4096) := by
  unfold Eng.scanned
  split
  · exact ⟨rfl, rfl⟩
  · exact ⟨rfl, rfl⟩

theorem Eng.scanned_lt (x : Eng) : x.scanned.1 < 2 ∧ x.scanned.2 < 2 ^ 12 := by
  unfold Eng.scanned
  split
  · exact ⟨Nat.zero_lt_two, ‹_›⟩
  · exact ⟨Nat.one_lt_two, by dsimp only; omega⟩

/-- What the careful read of the next word finds (R249). -/
def Eng.scanFinds (x : Eng) : Judge := judge x.scanned.1 x.scanned.2 (x.wrongBits x.scanned.1 x.scanned.2)

theorem Dev.listAt_congr (h : ∀ j, j ≠ ⟨.ENG_MC_SCAN_PASSES, e, 0⟩ → t.key j = d.key j) (store addr : Nat) :
    t.listAt e store addr = d.listAt e store addr := by
  have hkey : ∀ (f : Field) (i : Nat), Field.ENG_MC_SCAN_PASSES ≠ f → t.key ⟨f, e, i⟩ = d.key ⟨f, e, i⟩ := fun f i hf =>
    h _ fun hj => hf (RegKey.mk.inj hj).1.symm
  simp only [Dev.listAt, Dev.rg, Dev.rgi, hkey .ENG_MC_STAT_LISTCNT 0 (by decide), hkey .ENG_MC_LIST_ADDR _ (by decide),
    hkey .ENG_MC_LIST_STORE _ (by decide)]

section
variable (hup : d.domOn (3 + e / 16) = true)
include hup

/-- A clean word leaves only the scan's place and its passes (R249). -/
theorem Dev.scanWord_of_clean (h : (d.eng e).scanFinds = .clean) : d.scanWord e = d.scanStep e := by
  have hon : d.domOn (domK (e / 16)) = true := hup
  obtain ⟨hstore, haddr⟩ := (d.eng e).scanned_eq
  rw [Eng.scanFinds, hstore, haddr] at h
  unfold Dev.scanWord
  simp only [hon, h, Bool.not_true, Bool.false_eq_true, if_false]
  rfl

/-- A word with one wrong bit enters the list and is recorded (R248, R249). -/
theorem Dev.scanWord_of_ce (h : (d.eng e).scanFinds = .ce bit) : Dev.RegsOnly recordFields
    ((d.scanStep e).listEnter e (d.eng e).scanned.1 (d.eng e).scanned.2 (some bit)).2 (d.scanWord e) := by
  have hon : d.domOn (domK (e / 16)) = true := hup
  obtain ⟨hstore, haddr⟩ := (d.eng e).scanned_eq
  rw [Eng.scanFinds, hstore, haddr] at h
  rw [hstore, haddr]
  unfold Dev.scanWord
  simp only [hon, h, Bool.not_true, Bool.false_eq_true, if_false]
  exact Dev.mcRecord_regsOnly ..

theorem Dev.scanWord_listed (h : (d.eng e).scanFinds = .ce bit)
    (hnone : d.listAt e (d.eng e).scanned.1 (d.eng e).scanned.2 = none) (hroom : d.rg .ENG_MC_STAT_LISTCNT e < 32) :
    Dev.Listed e (d.rg .ENG_MC_STAT_LISTCNT e) (d.eng e).scanned.1 (d.eng e).scanned.2 bit (d.scanWord e) ∧
      ((d.scanWord e).eng e).scan = ((d.eng e).scan % 6144 + 1) % 6144 := by
  have hkey := (d.scanStep_writes e).1
  have hcnt : (d.scanStep e).rg .ENG_MC_STAT_LISTCNT e = d.rg .ENG_MC_STAT_LISTCNT e := hkey _ (by simp)
  have hword := Dev.scanWord_of_ce hup h
  obtain ⟨-, hlisted⟩ := Dev.listEnter_new (bit := bit) ((Dev.listAt_congr hkey ..).trans hnone) (hcnt ▸ hroom)
  refine ⟨hcnt ▸ hlisted.of_regsOnly hword (by decide), ?_⟩
  rw [hword.eng, (Dev.listEnter_regsOnly ..).eng, Dev.scanStep_eng]

end

/-! ## A microword that fails parity -/

/-- Changes of other engines alone. -/
theorem Dev.modOthers_foldl (g : Dev → Eng → Eng) (l : List Nat) (d : Dev) :
    (l.foldl (fun d x => if x = e then d else d.modEng x (g d)) d).regs = d.regs ∧
      (l.foldl (fun d x => if x = e then d else d.modEng x (g d)) d).eng e = d.eng e := by
  induction l generalizing d with
  | nil => exact ⟨rfl, rfl⟩
  | cons x l ih =>
    obtain ⟨hregs, heng⟩ := ih (if x = e then d else d.modEng x (g d))
    rw [List.foldl_cons, hregs, heng]
    split
    · exact ⟨rfl, rfl⟩
    · exact ⟨rfl, Dev.eng_setEng_ne _ _ ‹_›⟩

/-- The partners of an engine hold their issue; the engine itself and all registers stay (R38). -/
theorem Dev.stallPartners_rest (d : Dev) (e n k : Nat) :
    (d.stallPartners e n k).regs = d.regs ∧ (d.stallPartners e n k).eng e = d.eng e := by
  have htell : ∀ b : Dev, (b.tieTell e 1 n).regs = b.regs ∧ (b.tieTell e 1 n).eng e = b.eng e := fun b => by
    obtain ⟨q, m, h⟩ := Dev.tieTell_rest b e 1 n
    rw [h]
    exact ⟨rfl, rfl⟩
  unfold Dev.stallPartners
  split
  · exact ⟨rfl, rfl⟩
  · obtain ⟨hregs, heng⟩ := Dev.modOthers_foldl (e := e)
      (fun d y => { y with tieStall := y.tieStall ++ [(k + d.tieLat e * cyc, n)] }) (d.members e) d
    exact ⟨(htell _).1.trans hregs, (htell _).2.trans heng⟩

/-- A recovery as it begins (R245). -/
def Dev.newRecov (d : Dev) (e : Nat) : Recov := ⟨d.nsAt (d.eng e).free, 0, [], false, (d.eng e).ipc, false⟩

theorem Dev.machineCheck_begins (d : Dev) (e rest : Nat) :
    (d.machineCheck e rest).regs = ((d.bump .ENG_MC_STAT_PCNT e 1).st .ENG_MC_STAT_RECOV e 1).regs ∧
      (d.machineCheck e rest).eng e = { d.eng e with recov := some (d.newRecov e) } := by
  obtain ⟨hregs, heng⟩ := Dev.stallPartners_rest (((d.bump .ENG_MC_STAT_PCNT e 1).st .ENG_MC_STAT_RECOV e 1).modEng e
    (fun x => { x with recov := some ⟨((d.bump .ENG_MC_STAT_PCNT e 1).st .ENG_MC_STAT_RECOV e 1).nsAt x.free, 0, [], false, x.ipc, false⟩ }))
    e rest _
  exact ⟨hregs, heng.trans (Dev.modEng_eng_self ..)⟩

theorem Dev.listKind_of_empty (h : d.rg .ENG_MC_STAT_LISTCNT e = 0) (v : Nat × Nat) : d.listKind e v = none := by
  simp [Dev.listKind, Dev.listAt, h]

theorem Dev.listAt_of_empty (h : d.rg .ENG_MC_STAT_LISTCNT e = 0) (store addr : Nat) : d.listAt e store addr = none := by
  simp [Dev.listAt, h]

/-- An engine after a careful read that began its recovery, with the records of that read (R243, R245). -/
def Eng.reread (x : Eng) (l : List McRec) : Eng := { x with
  free := x.free + 2 * cyc, ceTo := x.free + 2 * cyc, atPoint := false
  recov := x.recov.map (fun q => { q with words := 1, recs := l }) }

/-- The first words of a recovery, of which the microword has one wrong bit and the nano-word none, are read with care: the
corrected one enters the list, and its record waits (R243, R245, R248). -/
theorem Dev.careWord_corrects {q : Recov} {a n : Nat} (hq : (d.eng e).recov = some q) (h0 : q.words = 0)
    (hl : d.rg .ENG_MC_STAT_LISTCNT e = 0) (hj : judge 0 a ((d.eng e).wrongBits 0 a) = .ce bit)
    (hn : (d.eng e).wrongBits 1 n = []) : ∃ b, Dev.RegsOnly listFields d b ∧ Dev.Listed e 0 0 a bit b ∧
      d.careWord e w [(0, a)] [(0, a), (1, n)] =
        (true, (b.setEng e ((d.eng e).reread [⟨0, a, 1, bit, 1⟩])).microNext e w) := by
  have hroom : d.rg .ENG_MC_STAT_LISTCNT e < 32 := by omega
  obtain ⟨htrue, hlisted⟩ := Dev.listEnter_new (bit := bit) (Dev.listAt_of_empty hl 0 a) hroom
  have hregs := Dev.listEnter_regsOnly d e 0 a (some bit)
  have hfirst : d.careRead e true (0, a) = (false, some ⟨0, a, 1, bit, 1⟩, (d.listEnter e 0 a (some bit)).2) := by
    simp [Dev.careRead, hj, Dev.listKind_of_empty hl, htrue, b2n]
  have hclean : ∀ b : Dev, b.eng e = d.eng e → b.careRead e false (1, n) = (false, none, b) := fun b hb => by
    simp [Dev.careRead, hb, hn, judge]
  refine ⟨(d.listEnter e 0 a (some bit)).2, hregs, hl ▸ hlisted, ?_⟩
  unfold Dev.careWord
  simp [hfirst, hclean _ (hregs.eng e), Dev.modEng, Eng.reread, hregs.eng e, hq, h0]

section
variable (hrec : (d.eng e).recov = none) (hcare : (d.eng e).careful = false) (hl : d.rg .ENG_MC_STAT_LISTCNT e = 0)
  (hpar : parityFails 0 ((d.eng e).wrongBits 0 (d.eng e).upc) = true)
  (hj : judge 0 (d.eng e).upc ((d.eng e).wrongBits 0 (d.eng e).upc) = .ce bit)
  (hn : (d.eng e).wrongBits 1 (uNano (Config.rom (d.eng e).upc)) = [])
include hrec hcare hl hpar hn

/-- A microword that fails parity in normal service begins a recovery with its careful read (R242). -/
theorem Dev.micro_of_parity (rest : Nat) : d.micro e w rest = (d.machineCheck e rest).careWord e w [(0, (d.eng e).upc)]
    [(0, (d.eng e).upc), (1, uNano (Config.rom (d.eng e).upc))] := by
  have hclean : parityFails 1 ((d.eng e).wrongBits 1 (uNano (Config.rom (d.eng e).upc))) = false := hn ▸ parityFails_nil 1
  unfold Dev.micro
  simp [Dev.listKind_of_empty hl, hrec, hcare, hpar, hclean]

include hj

/-- The microword is counted, corrected and executed, two cycles later (R242 to R245, R248). -/
theorem Dev.micro_recovers (rest : Nat) : (d.micro e w rest).1 = true ∧
    (d.micro e w rest).2.rg .ENG_MC_STAT_PCNT e = min (d.rg .ENG_MC_STAT_PCNT e + 1) (2 ^ 16 - 1) ∧
    (d.micro e w rest).2.rg .ENG_MC_STAT_RECOV e = 1 ∧ ((d.micro e w rest).2.eng e).free = (d.eng e).free + 8000 ∧
    ((d.micro e w rest).2.eng e).recov = some { d.newRecov e with words := 1, recs := [⟨0, (d.eng e).upc, 1, bit, 1⟩] } ∧
    (d.micro e w rest).2.rgi .ENG_MC_LIST_ADDR e 0 = (d.eng e).upc % 2 ^ 12 := by
  obtain ⟨hcregs, hceng⟩ := Dev.machineCheck_begins d e rest
  rw [Dev.micro_of_parity hrec hcare hl hpar hn]
  set c := d.machineCheck e rest with hc
  have hkey : ∀ j, c.key j = ((d.bump .ENG_MC_STAT_PCNT e 1).st .ENG_MC_STAT_RECOV e 1).key j := fun j => by
    rw [Dev.key, Dev.key, hcregs]
  have hwrong : ∀ i a, (c.eng e).wrongBits i a = (d.eng e).wrongBits i a := fun i a => by rw [hceng]; rfl
  have hcl : c.rg .ENG_MC_STAT_LISTCNT e = 0 :=
    (hkey _).trans ((Dev.rg_st_ne _ _ _ _ (by decide)).trans ((Dev.rg_st_ne _ _ _ _ (by decide)).trans hl))
  obtain ⟨b, hb, hlisted, hword⟩ := Dev.careWord_corrects (w := w) (congrArg Eng.recov hceng) rfl hcl
    ((hwrong 0 _).symm ▸ hj) ((hwrong 1 _).trans hn)
  rw [hword]
  obtain ⟨m, v, hnext⟩ := Dev.microNext_eng (b.setEng e ((c.eng e).reread [⟨0, (d.eng e).upc, 1, bit, 1⟩])) e w
  rw [Dev.eng_setEng_self] at hnext
  have hsame := (Dev.microNext_settles (b.setEng e ((c.eng e).reread [⟨0, (d.eng e).upc, 1, bit, 1⟩])) e w).key
  refine ⟨rfl, ?_, ?_, ?_, ?_, (hsame _).trans hlisted.addr⟩
  · refine (hsame _).trans ((hb.rg _ e (by decide)).trans ((hkey _).trans ((Dev.rg_st_ne _ _ _ _ (by decide)).trans ?_)))
    exact (Dev.rg_st_self ..).trans (Nat.mod_eq_of_lt (Nat.lt_of_le_of_lt (Nat.min_le_right ..) (by decide)))
  · exact (hsame _).trans ((hb.rg _ e (by decide)).trans ((hkey _).trans (Dev.rg_st_self ..)))
  · rw [hnext, hceng]
    rfl
  · rw [hnext, hceng]
    rfl

end

/-! ## Errors of stored bits -/

/-- One bit of a stored word changes (R232). -/
def Dev.flipBit (d : Dev) (e store addr b : Nat) : Dev := d.modEng e (fun x => { x with
  storeErr := if x.storeErr.contains (store, addr, b) then x.storeErr.erase (store, addr, b)
    else (store, addr, b) :: x.storeErr })

theorem Dev.flipBit_storeErr (d : Dev) (e store addr b : Nat) (hn : (d.eng e).storeErr.Nodup) :
    ((d.flipBit e store addr b).eng e).storeErr.Nodup ∧ ∀ z, z ∈ ((d.flipBit e store addr b).eng e).storeErr ↔
      if z = (store, addr, b) then z ∉ (d.eng e).storeErr else z ∈ (d.eng e).storeErr := by
  have hflip : ((d.flipBit e store addr b).eng e).storeErr = if (d.eng e).storeErr.contains (store, addr, b) then
      (d.eng e).storeErr.erase (store, addr, b) else (store, addr, b) :: (d.eng e).storeErr :=
    Dev.modEng_proj d e _ (·.storeErr)
  rw [hflip]
  by_cases hw : (store, addr, b) ∈ (d.eng e).storeErr
  · rw [if_pos (by simpa using hw)]
    refine ⟨hn.erase _, fun z => ?_⟩
    rw [hn.mem_erase_iff]
    by_cases hz : z = (store, addr, b)
    · simp [hz, hw]
    · simp [hz]
  · rw [if_neg (by simpa using hw)]
    refine ⟨List.nodup_cons.mpr ⟨hw, hn⟩, fun z => ?_⟩
    by_cases hz : z = (store, addr, b)
    · simp [hz, hw]
    · simp [hz]

/-- Bits that change of themselves, each named once: the wrong ones among them are right again, the others wrong (R232). -/
theorem Dev.flipBits_storeErr (e store addr : Nat) (bits : List Nat) (hb : bits.Nodup) (d : Dev)
    (hn : (d.eng e).storeErr.Nodup) (z : Nat × Nat × Nat) :
    z ∈ ((bits.foldl (fun d b => d.flipBit e store addr b) d).eng e).storeErr ↔
      (z ∈ (d.eng e).storeErr ∧ ¬(z.1 = store ∧ z.2.1 = addr ∧ z.2.2 ∈ bits)) ∨
        (z ∉ (d.eng e).storeErr ∧ z.1 = store ∧ z.2.1 = addr ∧ z.2.2 ∈ bits) := by
  induction bits generalizing d with
  | nil => simp
  | cons b bits ih =>
    obtain ⟨hb, hbits⟩ := List.nodup_cons.mp hb
    obtain ⟨hnodup, hmem⟩ := Dev.flipBit_storeErr d e store addr b hn
    rw [List.foldl_cons, ih hbits _ hnodup, hmem]
    by_cases hz : z = (store, addr, b)
    · subst hz
      simp [hb]
    · have hne : z.1 = store ∧ z.2.1 = addr ∧ z.2.2 ∈ b :: bits ↔ z.1 = store ∧ z.2.1 = addr ∧ z.2.2 ∈ bits := by
        simp only [List.mem_cons]
        exact ⟨fun ⟨h1, h2, h3⟩ => ⟨h1, h2, h3.resolve_left fun h => hz (by rw [← h1, ← h2, ← h])⟩,
          fun ⟨h1, h2, h3⟩ => ⟨h1, h2, .inr h3⟩⟩
      rw [if_neg hz, hne]

theorem Dev.flipBits_regs (e store addr : Nat) (bits : List Nat) (d : Dev) :
    (bits.foldl (fun d b => d.flipBit e store addr b) d).regs = d.regs := by
  induction bits generalizing d with
  | nil => rfl
  | cons b bits ih => exact ih (d.flipBit e store addr b)

/-- Bits of a word that the store has change (R232). -/
theorem Dev.storeError_eq {a : Nat} {bits : List Nat} (hw : store = 0 ∧ a < 4096 ∨ store = 1 ∧ a < 2048)
    (hb : ∀ b ∈ bits, b < (if store = 0 then 45 else 257)) :
    d.storeError e store a bits = bits.foldl (fun d b => d.flipBit e store a b) d := by
  have hok : (store < 2 && a < (if store = 0 then 4096 else 2048)) = true := by
    obtain ⟨rfl, ha⟩ | ⟨rfl, ha⟩ := hw <;> simpa using ha
  have hall : bits.filter (fun b => (store < 2 && a < (if store = 0 then 4096 else 2048)) &&
      b < (if store = 0 then 45 else 257)) = bits :=
    List.filter_eq_self.mpr fun b hm => by rw [hok, Bool.true_and]; exact decide_eq_true (hb b hm)
  unfold Dev.storeError
  dsimp only
  rw [hall]
  rfl

/-! ## The commands -/

/-- Settles O24: the reset by its two cases, each read of a stored word by what it finds, the list and the stored bits by
their loops. -/
theorem controlStores : Obligations.ControlStores := by
  unfold Obligations.ControlStores
  intro s e store a bits
  refine ⟨?resetIdle, ?resetRunning, ?wrongKey, ?notDone, ?done, ?ue, ?parity, ?scanClean, ?scanCe, ?clear, ?error⟩
  case resetIdle =>
    intro hup hst hr ht
    obtain ⟨hwrites, -, hact⟩ := Dev.engClear_cleared s.dev e ht
    obtain ⟨hg, hl, hp⟩ := Dev.engClear_arrays (e := e) ht
    obtain ⟨hen, hlead⟩ := Dev.engClear_set (e := e) ht
    have hzero : ∀ f ∈ clearedFields, (s.dev.engClear e).rg f e = 0 := fun f hf => Dev.engClear_rg ht hf
    have hx : exec (.engReset e 0xA5) s = .next (s.onDev (fun d => d.engWrite e (·.engReset e 0xA5))) := rfl
    refine Completes.onDev (exec_of_engWrite hx hup) ?_
    dsimp only
    rw [Dev.engReset_of_idle hst hr]
    exact ⟨hzero _ (by decide), hg, hl, hp, hzero _ (by decide), hen, hzero _ (by decide), hzero _ (by decide),
      hzero _ (by decide), hlead, hact, hwrites.rg _ e (by decide)⟩
  case resetRunning =>
    intro hup ht hst hr hn
    exact Completes.onDev (exec_of_engWrite rfl hup) (Dev.engReset_of_running hst hr hn)
  case wrongKey =>
    intro key hup hkey
    exact exec_engWrite_of_eq rfl hup (if_pos fun h => hkey (BitVec.eq_of_toNat_eq h))
  case notDone => exact fun r hr hd => exec_onDev_of_eq rfl (Dev.recoveryEnd_of_not_done hr hd)
  case done => exact fun r m hr hd hm hrow => Completes.onDev rfl (Dev.recoveryEnd_resumes hr hd hm hrow)
  case ue => exact fun w rest hr hl hrun hn ht => Dev.micro_ended hl hrun hn ht w rest
  case parity => exact fun w rest b hr hc hl hpar hj hn => Dev.micro_recovers hr hc hl hpar hj hn rest
  case scanClean =>
    intro hup h
    obtain ⟨hkey, hpasses⟩ := s.dev.scanStep_writes e
    refine Completes.onDev rfl ?_
    dsimp only
    rw [Dev.scanWord_of_clean hup h]
    exact ⟨s.dev.scanStep_eng e, hpasses, hkey⟩
  case scanCe =>
    intro b hup h hnone hroom
    obtain ⟨⟨hcnt, haddr, hstore, hvalid, hkind, hbit⟩, hscan⟩ := Dev.scanWord_listed hup h hnone hroom
    obtain ⟨hlt, hlt'⟩ := (s.dev.eng e).scanned_lt
    refine Completes.onDev rfl ⟨hcnt.trans (Nat.mod_eq_of_lt (by omega)), haddr.trans (Nat.mod_eq_of_lt hlt'),
      hstore.trans (Nat.mod_eq_of_lt hlt), hvalid, hkind, hbit, hscan⟩
  case clear =>
    intro hup
    obtain ⟨hcnt, hfull, hentries, hengs⟩ := s.dev.listClear_cleared e
    refine Completes.onDev (exec_of_engWrite rfl hup) ⟨hcnt, hfull, fun i hi => ?_, hengs⟩
    exact ⟨hentries _ (by decide) i hi, hentries _ (by decide) i hi, hentries _ (by decide) i hi, hentries _ (by decide) i hi⟩
  case error =>
    intro hn hb hw hbits
    refine Completes.onDev rfl ?_
    dsimp only
    rw [Dev.storeError_eq hw hbits]
    exact ⟨Dev.flipBits_regs .., Dev.flipBits_storeErr e store a bits hb s.dev hn⟩

end Sys2Proof.Machine
end

section
/-!
What tacks, pulses and grants do at issue, and the oldest pin-aligned action at its anchor row (R198, R226 to R228).
-/

namespace Sys2Proof.Machine

variable {s : State} {e w : Nat} {d x t : Dev}

/-! ## What reaches the acquisition units leaves the engines alone -/

theorem Dev.RegsOnly.setAcq {fs : List Field} (d : Dev) (u : Nat) (a : Acq) : Dev.RegsOnly fs d (d.setAcq u a) :=
  ⟨.of_eqs rfl rfl, rfl, rfl⟩

theorem Dev.RegsOnly.acqMiss (d : Dev) (u n : Nat) (tk : Rat) : Dev.RegsOnly missFields d (d.acqMiss u n tk) := by
  unfold Dev.acqMiss
  dsimp only
  refine .trans (.ite (.st d u _ (by decide)) (.refl _ d)) (.trans (.st _ u _ (by decide)) (.setAcq _ u _))

theorem Dev.RegsOnly.acqCond (d : Dev) (u k n : Nat) (tk : Rat) : Dev.RegsOnly missFields d (d.acqCond u k n tk) := by
  unfold Dev.acqCond
  dsimp only
  exact .ite (.refl _ d) (.ite (.ite (.acqMiss d u n tk) (.refl _ d)) (.setAcq d u _))

theorem Dev.RegsOnly.acqMet (d : Dev) (ty : Nat) (p : Nat → Bool) (tk : Nat) :
    Dev.RegsOnly missFields d (d.acqMet ty p tk) :=
  .foldl _ d fun b u _ => .ite (.refl _ b) (.foldl _ b fun a k _ => .ite (.acqCond a u k _ _) (.refl _ a))

theorem Dev.RegsOnly.acqFresh (d : Dev) (u o n : Nat) : Dev.RegsOnly missFields d (d.acqFresh u o n) :=
  .foldl _ d fun _ _ _ => ⟨.of_eqs rfl rfl, rfl, rfl⟩

theorem Dev.RegsOnly.acqSample (d : Dev) (u : Nat) (a : AcqSample) : Dev.RegsOnly missFields d (d.acqSample u a) := by
  unfold Dev.acqSample
  dsimp only
  split
  · exact .setAcq d u _
  · exact .ite (.refl _ d) (.trans (.acqFresh ..) (.setAcq _ u _))
  · exact .refl _ d

/-- A record of an engine's event reaches the units: of the registers only the counts of misses may change. -/
theorem Dev.RegsOnly.acqEvent (d : Dev) (e r tk : Nat) : Dev.RegsOnly missFields d (d.acqEvent e r tk) :=
  .foldl _ d fun b _ _ => .ite (.acqSample ..) (.refl _ b)

theorem Dev.RegsOnly.pulse (d : Dev) (e k tk : Nat) : Dev.RegsOnly missFields d (d.pulse e k tk) :=
  .trans (.acqMet d 3 _ tk) (.acqEvent ..)

/-- Fields that an arm writes. -/
def armFields : List Field := [.ACQ_STAT_CFGERR, .ACQ_STAT_STATE]

theorem Dev.RegsOnly.acqArm (d : Dev) (u : Nat) (by_ : Option Nat) : Dev.RegsOnly armFields d (d.acqArm u by_) := by
  unfold Dev.acqArm
  dsimp only
  refine .ite (.refl _ d) (.ite (.st d u 1 (by decide)) (.trans (.setAcq d u _) (.ite ?_ (.st _ u 4 (by decide)))))
  exact .trans (.setAcq _ u _) (.st _ u 1 (by decide))

/-! ## Tack records -/

/-- The record of a tack of engine `e` at tick `n` (R226). -/
def Dev.tackRecord (d : Dev) (e v n : Nat) (norow issue : Bool) : Nat :=
  d.stampAt n (e % 128 + v % 2 ^ 16 * 2 ^ 7 + b2n norow * 2 ^ 23 + b2n issue * 2 ^ 24)

/-- With room in the queue a tack enters it, and of the engine nothing else changes. -/
theorem Dev.tack_eng (d : Dev) {e : Nat} (v n : Nat) (norow issue : Bool) (hroom : (d.eng e).tacks.length < 16) :
    (d.tack e v n norow issue).eng e =
      { d.eng e with tacks := (d.eng e).tacks ++ [(d.tackRecord e v n norow issue, n)] } := by
  unfold Dev.tack
  dsimp only
  rw [if_pos hroom, (Dev.RegsOnly.acqEvent ..).eng, Dev.eng_setEng_self]
  rfl

theorem Dev.tack_rg (d : Dev) {e : Nat} (v n : Nat) (norow issue : Bool) (hroom : (d.eng e).tacks.length < 16)
    {f : Field} (hf : f ∉ missFields) (u : Nat) : (d.tack e v n norow issue).rg f u = d.rg f u := by
  unfold Dev.tack
  dsimp only
  rw [if_pos hroom]
  exact (Dev.RegsOnly.acqEvent ..).rg f u hf

/-! ## An instruction completes with what it did to the units -/

/-- Completing an instruction writes registers and what its engine holds. -/
theorem Dev.finish_acqs (d : Dev) (e : Nat) : (d.finish e).acqs = d.acqs := by
  have hregion : ∀ y : Dev, (y.region e).acqs = y.acqs := fun y => by
    unfold Dev.region
    repeat' split
    all_goals rfl
  exact hregion _

theorem Settles.acqs (h : Settles e d t) : t.acqs = d.acqs := by rw [h.rest]

/-- An instruction without words after its entry word completes with its effect `x` on the acquisition units and on what
its engine holds. -/
theorem Issues.completes_acq {c : Instr} {body : Body} {cls op : Nat} {P : State → Prop} (h : Issues s e cls op w d)
    (hx : exec c s = .next (s.onDev (fun d => d.issue s.mem e cls op body))) (hone : ∀ y : Dev, y.startWords e w = 1)
    (hbody : body s.mem d e w = x.finish e) (hbr : (x.eng e).br = (d.eng e).br)
    (hpc : x.rg .ENG_PC_ADDR e = d.rg .ENG_PC_ADDR e)
    (hP : ∀ t : State, Settles e (x.finish e) t.dev → t.dev.acqs = x.acqs → PcNext d t.dev e → P t) : Completes c s P := by
  have hissue := Dev.issue_of_issues body h fun hne => absurd (hone _) hne
  rw [hbody] at hissue
  exact Completes.onDev hx (hP _ hissue (hissue.acqs.trans (Dev.finish_acqs x e)) (hissue.completed hbr hpc).next)

theorem Settles.tacks (h : Settles e (x.finish e) t) : (t.eng e).tacks = (x.eng e).tacks :=
  (h.proj (·.tacks) fun _ _ _ _ _ _ _ _ => rfl).trans (Dev.finish_proj x e (·.tacks) fun _ _ _ _ => rfl)

theorem Settles.anch (h : Settles e (x.finish e) t) : (t.eng e).anch = (x.eng e).anch :=
  (h.proj (·.anch) fun _ _ _ _ _ _ _ _ => rfl).trans (Dev.finish_proj x e (·.anch) fun _ _ _ _ => rfl)

/-! ## The clauses -/

theorem Issues.completes_tack {e : EngId} (h : Issues s e 7 3 w d) (hm : iMod w % 2 = 1)
    (hroom : (d.eng e).tacks.length < 16) : Completes (.tack e) s (fun t =>
      (t.dev.eng e).tacks = (d.eng e).tacks ++
        [(d.stampAt (d.execCycle e) (e + iImm w % 2 ^ 16 * 2 ^ 7 + 2 ^ 24), d.execCycle e)] ∧ PcNext d t.dev e) := by
  have hone : ∀ y : Dev, y.startWords e w = 1 := fun y => Dev.startWords_of_oneWord y e (by rw [h.2.1, h.2.2.1]; rfl)
  have hbody : Dev.bodyTack s.mem d e w = (d.tack e (iImm w % 2 ^ 16) (d.execCycle e) false true).finish e := by
    simp [Dev.bodyTack, bitOf, hm, bitsOf_zero]
  have heng := Dev.tack_eng d (iImm w % 2 ^ 16) (d.execCycle e) false true hroom
  have hpc := Dev.tack_rg d (iImm w % 2 ^ 16) (d.execCycle e) false true hroom (f := .ENG_PC_ADDR) (by decide) e
  refine h.completes_acq rfl hone hbody (by rw [heng]) hpc fun t hs _ hnext => ⟨?_, hnext⟩
  rw [hs.tacks, heng]
  simp [Dev.tackRecord, Nat.mod_eq_of_lt e.isLt, b2n]

theorem Issues.completes_trig {e : EngId} (h : Issues s e 8 0 w d) (hm : iMod w / 16 % 2 = 1) :
    Completes (.trig e) s (fun t => t.dev.acqs = (d.pulse e (iMod w % 16) (d.execCycle e)).acqs ∧
      (t.dev.eng e).anch = (d.eng e).anch ∧ PcNext d t.dev e) := by
  have hone : ∀ y : Dev, y.startWords e w = 1 := fun y => Dev.startWords_of_oneWord y e (by rw [h.2.1, h.2.2.1]; rfl)
  have hbody : Dev.bodyTrig s.mem d e w = (d.pulse e (iMod w % 16) (d.execCycle e)).finish e := by
    simp [Dev.bodyTrig, bitOf, hm, bitsOf_zero]
  have hpulse := Dev.RegsOnly.pulse d e (iMod w % 16) (d.execCycle e)
  exact h.completes_acq rfl hone hbody (congrArg Eng.br (hpulse.eng e)) (hpulse.rg .ENG_PC_ADDR e (by decide))
    fun t hs hacqs hnext => ⟨hacqs, hs.anch.trans (congrArg Eng.anch (hpulse.eng e)), hnext⟩

theorem Issues.completes_acqarm {e : EngId} (h : Issues s e 8 2 w d) : Completes (.acqarm e) s (fun t =>
    t.dev.acqs = (d.acqArm (iMod w) (some e)).acqs ∧
      t.dev.rg .ACQ_STAT_STATE (iMod w) = (d.acqArm (iMod w) (some e)).rg .ACQ_STAT_STATE (iMod w) ∧
      PcNext d t.dev e) := by
  have hone : ∀ y : Dev, y.startWords e w = 1 := fun y => by
    obtain ⟨-, hc, ho, -⟩ := h
    simp [Dev.startWords, isMarch, isMwait, isBlock, isWait, Dev.flowTaken, hc, ho]
  have harm := Dev.RegsOnly.acqArm d (iMod w) (some e)
  exact h.completes_acq rfl hone rfl (congrArg Eng.br (harm.eng e)) (harm.rg .ENG_PC_ADDR e (by decide))
    fun t hs hacqs hnext => ⟨hacqs, (hs.rg ..).trans (Dev.finish_rg _ e _ (by decide)), hnext⟩

/-- At its anchor row a front-end frame enters the bus's queue (R198). -/
theorem completes_levelDue {e : EngId} {pd f n : Nat} {norow : Bool} {rest : List (Pal × Nat × Bool)}
    (h : (s.dev.eng e).palDue = (.lvl pd f, n, norow) :: rest) : Completes (.pinAlignedAction e) s (fun t =>
      (t.dev.eng e).palDue = rest ∧ t.dev.febs = (s.dev.febPush pd (.engine e) f).febs) := by
  refine Completes.onDev rfl ?_
  unfold Dev.palNext
  rw [h]
  refine ⟨?_, rfl⟩
  dsimp only [Dev.palAct]
  rw [Dev.febPush_eng, Dev.modEng_eng_self]

/-- At its anchor row a tack's record enters the engine's queue (R226). -/
theorem completes_tackDue {e : EngId} {v n : Nat} {norow : Bool} {rest : List (Pal × Nat × Bool)}
    (h : (s.dev.eng e).palDue = (.tack v, n, norow) :: rest) (hroom : (s.dev.eng e).tacks.length < 16) :
    Completes (.pinAlignedAction e) s (fun t => (t.dev.eng e).palDue = rest ∧ (t.dev.eng e).tacks =
      (s.dev.eng e).tacks ++ [(s.dev.stampAt n (e + v % 2 ^ 16 * 2 ^ 7 + b2n norow * 2 ^ 23), n)]) := by
  refine Completes.onDev rfl ?_
  unfold Dev.palNext
  rw [h]
  dsimp only [Dev.palAct]
  rw [Dev.tack_eng _ v n norow false (by rw [Dev.modEng_eng_self]; exact hroom), Dev.modEng_eng_self]
  refine ⟨rfl, ?_⟩
  simp [Dev.tackRecord, Nat.mod_eq_of_lt e.isLt, b2n]
  rfl

/-- Settles O19: an instruction at issue by what its effect leaves of its engine, an action due by its kind. -/
theorem issueActions : Obligations.IssueActions := by
  unfold Obligations.IssueActions
  intro s e w d
  refine ⟨?tack, ?trig, ?acqarm, ?levelDue, ?tackDue⟩
  case tack => exact fun h hm hroom => h.completes_tack hm hroom
  case trig => exact fun h hm => h.completes_trig hm
  case acqarm => exact fun h => h.completes_acqarm
  case levelDue => exact fun pd f n norow rest h => completes_levelDue h
  case tackDue => exact fun v n norow rest h hroom => completes_tackDue h hroom

end Sys2Proof.Machine
end

section
/-!
Instructions that go on after their issue: those that end at once, those that begin, and those that hold (R199, R204,
R224).
-/

namespace Sys2Proof.Machine

variable {s : State} {e w cls op k : Nat} {b d t x : Dev} {m : List Host.Cell} {body : Body}

/-! ## An engine that holds -/

/-- From `b` to `t` engine `e` has only held: no register has changed, nor the instruction in progress, the tick from which
it counts and the emission queue. -/
structure Dev.Holds (e : Nat) (b t : Dev) : Prop where
  key   : ∀ j, t.key j = b.key j
  act   : (t.eng e).act = (b.eng e).act
  queue : (t.eng e).queue = (b.eng e).queue
  from_ : (t.eng e).waitFrom = (b.eng e).waitFrom

namespace Dev.Holds

theorem refl (e : Nat) (d : Dev) : Dev.Holds e d d := ⟨fun _ => rfl, rfl, rfl, rfl⟩

theorem trans (h : Dev.Holds e b d) (h' : Dev.Holds e d t) : Dev.Holds e b t :=
  ⟨fun j => (h'.key j).trans (h.key j), h'.act.trans h.act, h'.queue.trans h.queue, h'.from_.trans h.from_⟩

theorem of_settles (h : Settles e b t) : Dev.Holds e b t :=
  ⟨h.key, h.proj (·.act) fun _ _ _ _ _ _ _ _ => rfl, h.proj (·.queue) fun _ _ _ _ _ _ _ _ => rfl,
    h.proj (·.waitFrom) fun _ _ _ _ _ _ _ _ => rfl⟩

theorem advanceTo (e : Nat) (d : Dev) (k : Nat) : Dev.Holds e d (d.advanceTo k) := by
  have heng := Dev.advanceTo_eng d k e
  exact ⟨Dev.advanceTo_key d k, congrArg Eng.act heng, congrArg Eng.queue heng, congrArg Eng.waitFrom heng⟩

theorem rg (h : Dev.Holds e b t) (f : Field) (u : Nat) : t.rg f u = b.rg f u := h.key _

theorem prog (h : Dev.Holds e b t) (i : Nat) : t.prog e i = b.prog e i := h.key _

end Dev.Holds

/-- An emission that has rows left is not complete. -/
theorem Dev.settleEmit_of_rows (hact : (d.eng e).act = some w) (hrows : isEmit w = true → d.prog e 0 ≠ 0)
    (m : List Host.Cell) : d.settleEmit m e = d := by
  unfold Dev.settleEmit
  rw [hact]
  refine if_neg fun h => ?_
  simp only [Bool.and_eq_true, beq_iff_eq] at h
  exact hrows h.1.1 h.1.2

/-- Without room for two rows an issue cycle is a hold (R236). -/
theorem Dev.issueCycle_of_full (hfull : 255 ≤ (d.eng e).queue.length) (m : List Host.Cell) (w : Nat) :
    (d.issueCycle m e w).1 = false ∧ Dev.Holds e d (d.issueCycle m e w).2 := by
  have hroom : (d.advanceTo (d.eng e).free).roomForTwo e = false := by
    simpa [Dev.roomForTwo, Dev.advanceTo_eng] using hfull
  unfold Dev.issueCycle Dev.cycleEnds
  simp only [hroom, Bool.not_false, Bool.true_or, if_true]
  refine ⟨trivial, (Dev.Holds.advanceTo e d (d.eng e).free).trans ?_⟩
  split
  · exact .refl e _
  · exact .of_settles (Dev.point_settles ..)

/-- Without room for two rows an emission in progress holds, whatever cycles a command covers (R204, R236). -/
theorem Dev.run_of_full (hact : (d.eng e).act = some w) (hfull : 255 ≤ (d.eng e).queue.length)
    (hrows : isEmit w = true → d.prog e 0 ≠ 0) (m : List Host.Cell) (n : Nat) : Dev.Holds e d (d.run m e n) := by
  cases n with
  | zero => exact .refl e d
  | succ n =>
    obtain ⟨hstop, hholds⟩ := Dev.issueCycle_of_full hfull m w
    unfold Dev.run
    simp only [hact, hstop]
    split
    · exact .refl e d
    · rw [Dev.settleEmit_of_rows (hholds.act.trans hact) fun h => (hholds.prog 0).symm ▸ hrows h]
      exact hholds

/-- A wait without r emits no row (R224). -/
theorem Dev.run_of_quiet (hact : (d.eng e).act = some w) (hquiet : (isEmit w || isHoldEmit w) = false)
    (m : List Host.Cell) (n : Nat) : d.run m e n = d := by
  cases n with
  | zero => rfl
  | succ n =>
    unfold Dev.run
    simp [hact, hquiet]

/-! ## The commands of such an instruction -/

/-- An engine that issues has no instruction in progress. -/
theorem Issues.idle (h : Issues s e cls op w d) : (s.dev.eng e).act = none := by
  have h := h.1
  unfold State.issuing at h
  split at h
  next hc =>
    unfold Dev.canIssue at hc
    simp only [Bool.and_eq_true, Option.isNone_iff_eq_none] at hc
    exact hc.1.1.1.1.1.2
  next => exact absurd h (by simp)

/-- The command of an instruction in progress runs it on. -/
theorem Dev.issueRun_of_act (hact : (d.eng e).act = some w) (hcls : iCls w = cls) (hop : iOp w = op) (m : List Host.Cell)
    (k : Nat) (body : Body) : d.issueRun m e cls op k body = d.run m e k := by
  unfold Dev.issueRun
  simp [hact, hcls, hop]

/-- The command of an instruction that ends at its issue. -/
theorem Dev.issueRun_of_over (hidle : (d.eng e).act = none) (hover : ((d.issue m e cls op body).eng e).act = none)
    (k : Nat) : d.issueRun m e cls op k body = d.issue m e cls op body := by
  unfold Dev.issueRun
  simp [hidle, hover]

/-- The command of an instruction that begins at its issue: it then runs on. -/
theorem Dev.issueRun_of_begun (hidle : (d.eng e).act = none) (hact : ((d.issue m e cls op body).eng e).act = some w)
    (hcls : iCls w = cls) (hop : iOp w = op) (k : Nat) :
    d.issueRun m e cls op k body = (d.issue m e cls op body).run m e k := by
  unfold Dev.issueRun
  simp [hidle, hact, hcls, hop]

/-- An instruction that ends at its issue completes with its effect `x`, whatever cycles its command covers. -/
theorem Issues.completes_over {c : Instr} {P : State → Prop} (h : Issues s e cls op w d)
    (hx : exec c s = .next (s.onDev (fun d => d.issueRun s.mem e cls op k body))) (hbody : body s.mem d e w = x.finish e)
    (hbr : (x.eng e).br = (d.eng e).br) (hpc : x.rg .ENG_PC_ADDR e = d.rg .ENG_PC_ADDR e)
    (hclean : d.storeClean e → x.storeClean e) (hP : ∀ t : State, Dev.Finished e d x t.dev → P t) : Completes c s P := by
  have hsettles := Dev.issue_of_issues body h fun _ hc => by rw [hbody]; exact Dev.finish_clean (hclean hc)
  rw [hbody] at hsettles
  have hover : ((s.dev.issue s.mem e cls op body).eng e).act = none :=
    (hsettles.proj (·.act) fun _ _ _ _ _ _ _ _ => rfl).trans (Dev.finish_act x e)
  refine Completes.onDev hx ?_
  rw [Dev.issueRun_of_over h.idle hover]
  exact hP _ ⟨fun j hj => (hsettles.key j).trans (Dev.finish_key x e hj),
    fun hb => (hsettles.rg _ e).trans (PcNext.finish hbr hpc hb)⟩

section
variable {c : Nat → Instr} {P : State → Prop} (h : Issues s e cls op w d)
  (hx : ∀ k (a : State), exec (c k) a = .next (a.onDev (fun d => d.issueRun a.mem e cls op k body)))
  (hclean : d.storeClean e → (body s.mem d e w).storeClean e) (hact : ((body s.mem d e w).eng e).act = some w)
  (hP : ∀ t : State, t.mem = s.mem → Dev.Holds e (body s.mem d e w) t.dev → P t)
include h hx hclean hact hP

/-- An instruction that begins: a command that covers no cycle issues it alone, and what a command does is what it does
after that one. -/
theorem Issues.completes_begins : Completes (c 0) s (fun t => P t ∧ ∀ k, exec (c k) s = exec (c k) t) := by
  have hholds := Dev.Holds.of_settles (Dev.issue_of_issues body h fun _ => hclean)
  obtain ⟨-, hcls, hop, -⟩ := id h
  have hrun := fun k => Dev.issueRun_of_begun h.idle (hholds.act.trans hact) hcls hop k
  refine ⟨_, hx 0 s, hP _ rfl ?_, fun k => ?_⟩
  · change Dev.Holds e (body s.mem d e w) (s.dev.issueRun s.mem e cls op 0 body)
    exact (hrun 0).symm ▸ hholds
  · rw [hx, hx]
    refine congrArg Host.Outcome.next (congrArg (State.mk s.pending s.mem) ?_)
    change s.dev.issueRun s.mem e cls op k body = (s.dev.issueRun s.mem e cls op 0 body).issueRun s.mem e cls op k body
    rw [hrun 0, hrun k]
    exact (Dev.issueRun_of_act (hholds.act.trans hact) hcls hop s.mem k body).symm

/-- An instruction that begins and whose cycles are holds: it stands as it began. -/
theorem Issues.completes_holds (k : Nat)
    (hrun : ∀ y : Dev, Dev.Holds e (body s.mem d e w) y → Dev.Holds e y (y.run s.mem e k)) : Completes (c k) s P := by
  have hholds := Dev.Holds.of_settles (Dev.issue_of_issues body h fun _ => hclean)
  obtain ⟨-, hcls, hop, -⟩ := id h
  refine ⟨_, hx k s, hP _ rfl ?_⟩
  change Dev.Holds e (body s.mem d e w) (s.dev.issueRun s.mem e cls op k body)
  rw [Dev.issueRun_of_begun h.idle (hholds.act.trans hact) hcls hop k]
  exact hholds.trans (hrun _ hholds)

end

/-! ## PROG0 to PROG3 -/

@[simp] theorem Dev.setProg_prog (d : Dev) (e i v : Nat) : (d.setProg e i v).prog e i = v % 2 ^ 64 :=
  Dev.key_setKey_self d ⟨.ENG_PROG, e, i⟩ v

theorem Dev.setProg_prog_ne (d : Dev) (e v : Nat) {i j : Nat} (h : i ≠ j) : (d.setProg e i v).prog e j = d.prog e j :=
  Dev.key_setKey_ne d v (k := ⟨.ENG_PROG, e, i⟩) (j := ⟨.ENG_PROG, e, j⟩) fun hk => h (congrArg RegKey.i hk)

theorem Dev.setProg_key (d : Dev) (e i v : Nat) {j : RegKey} (h : Field.ENG_PROG ≠ j.f) :
    (d.setProg e i v).key j = d.key j := Dev.key_sti_ne d e i v h

theorem Dev.setProg_rg (d : Dev) (e i v u : Nat) {f : Field} (h : Field.ENG_PROG ≠ f) :
    (d.setProg e i v).rg f u = d.rg f u := Dev.setProg_key d e i v h

theorem Dev.st_prog (d : Dev) (u v e i : Nat) {f : Field} (h : f ≠ .ENG_PROG) : (d.st f u v).prog e i = d.prog e i :=
  Dev.key_st_ne d u v (j := ⟨.ENG_PROG, e, i⟩) h

theorem Dev.storeClean.setProg (hc : d.storeClean e) (i v : Nat) : (d.setProg e i v).storeClean e :=
  hc.of_same rfl (Dev.setProg_rg d e i v e (by decide))

/-! ## An instruction takes over -/

/-- From the progress set in `x`, instruction `w` of engine `e` is in progress in `b`: nothing else has changed but its
position, the micro-counter and the tick from which it counts. -/
structure Dev.Begins (e w : Nat) (x b : Dev) : Prop where
  rest : b = { x with engs := b.engs }
  eng  : ∃ p c, b.eng e = { x.eng e with
    act := some w, pos := p, uctr := c, waitFrom := if (x.eng e).resumed then (x.eng e).waitFrom else x.tick }

theorem Dev.begin_begins (x : Dev) (e w : Nat) : Dev.Begins e w x (x.begin e w) := ⟨rfl, _, _, Dev.modEng_eng_self ..⟩

namespace Dev.Begins

/-- The micro-counter takes the cycles to come. -/
theorem uctr (h : Dev.Begins e w x b) (n : Nat) : Dev.Begins e w x (b.modEng e (fun y => { y with uctr := n })) := by
  obtain ⟨_, _, heng⟩ := h.eng
  refine ⟨?_, _, n, (Dev.modEng_eng_self ..).trans (by rw [heng])⟩
  conv_lhs => rw [Dev.modEng, Dev.setEng, h.rest]
  rfl

theorem key (h : Dev.Begins e w x b) (j : RegKey) : b.key j = x.key j := by rw [h.rest]; rfl

/-- What an instruction that takes over does not set is as before. -/
theorem proj {α : Type} (h : Dev.Begins e w x b) (f : Eng → α)
    (hf : ∀ (y : Eng) a p c n, f { y with act := a, pos := p, uctr := c, waitFrom := n } = f y) :
    f (b.eng e) = f (x.eng e) := by
  obtain ⟨_, _, heng⟩ := h.eng
  rw [heng, hf]

theorem act (h : Dev.Begins e w x b) : (b.eng e).act = some w := by
  obtain ⟨_, _, heng⟩ := h.eng
  rw [heng]

theorem from_ (h : Dev.Begins e w x b) :
    (b.eng e).waitFrom = if (x.eng e).resumed then (x.eng e).waitFrom else x.tick := by
  obtain ⟨_, _, heng⟩ := h.eng
  rw [heng]

theorem queue (h : Dev.Begins e w x b) : (b.eng e).queue = (x.eng e).queue := h.proj (·.queue) fun _ _ _ _ _ => rfl

theorem br (h : Dev.Begins e w x b) : (b.eng e).br = (x.eng e).br := h.proj (·.br) fun _ _ _ _ _ => rfl

theorem store (h : Dev.Begins e w x b) : (b.eng e).storeErr = (x.eng e).storeErr :=
  h.proj (·.storeErr) fun _ _ _ _ _ => rfl

theorem clean (h : Dev.Begins e w x b) (hc : x.storeClean e) : b.storeClean e := hc.of_same h.store (h.key _)

theorem prog (h : Dev.Begins e w x b) (i : Nat) : b.prog e i = x.prog e i := h.key _

end Dev.Begins

end Sys2Proof.Machine
end

section
/-!
What a move along the stream leaves of an engine (R115, R119, R124, R125).
-/

namespace Sys2Proof.Machine

variable {d t u : Dev} {e : Nat}

/-- Engine `e` has moved along its stream: of the registers those of the stream may have changed, and of what the engine
holds beside them the pleat, its bobbin's lines and the line it awaits. -/
structure Dev.Moves (e : Nat) (d t : Dev) : Prop where
  writes : Dev.WritesOnly streamFields d t
  eng    : ∃ a b c f g h i, t.eng e =
    { d.eng e with pleat := a, miss := b, missed := c, missFrom := f, lines := g, reqs := h, fetch := i }

namespace Dev.Moves

theorem refl (e : Nat) (d : Dev) : Dev.Moves e d d := ⟨.refl _ d, _, _, _, _, _, _, _, rfl⟩

theorem trans (h : Dev.Moves e d t) (h' : Dev.Moves e t u) : Dev.Moves e d u := by
  obtain ⟨_, _, _, _, _, _, _, heng⟩ := h.eng
  obtain ⟨_, _, _, _, _, _, _, heng'⟩ := h'.eng
  exact ⟨h.writes.trans h'.writes, by rw [heng', heng]; exact ⟨_, _, _, _, _, _, _, rfl⟩⟩

theorem st {f : Field} (h : Dev.Moves e d t) (x v : Nat) (hf : f ∈ streamFields) : Dev.Moves e d (t.st f x v) :=
  h.trans ⟨.st t x v hf, _, _, _, _, _, _, _, rfl⟩

theorem setEng {x : Eng} (h : Dev.Moves e d t) (hx : ∃ a b c f g k i, x =
    { t.eng e with pleat := a, miss := b, missed := c, missFrom := f, lines := g, reqs := k, fetch := i }) :
    Dev.Moves e d (t.setEng e x) :=
  h.trans ⟨.of_eqs rfl rfl, by rw [Dev.eng_setEng_self]; exact hx⟩

theorem ite {c : Prop} [Decidable c] (ht : Dev.Moves e d t) (hu : Dev.Moves e d u) :
    Dev.Moves e d (if c then t else u) := by
  split
  · exact ht
  · exact hu

theorem of_reports (h : Reports d t) (e : Nat) : Dev.Moves e d t :=
  ⟨(Dev.StreamMove.of_reports h e).writes, by rw [h.eng]; exact ⟨_, _, _, _, _, _, _, rfl⟩⟩

/-- What looks neither at the pleat nor at the bobbin is as before. -/
theorem proj {α : Type} (h : Dev.Moves e d t) (p : Eng → α) (hp : ∀ (x : Eng) a b c f g k i,
    p { x with pleat := a, miss := b, missed := c, missFrom := f, lines := g, reqs := k, fetch := i } = p x) :
    p (t.eng e) = p (d.eng e) := by
  obtain ⟨_, _, _, _, _, _, _, heng⟩ := h.eng
  rw [heng, hp]

theorem prog (h : Dev.Moves e d t) (i : Nat) : t.prog e i = d.prog e i :=
  h.writes.key ⟨.ENG_PROG, e, i⟩ (show Field.ENG_PROG ∉ streamFields by decide)

theorem clean (h : Dev.Moves e d t) (hc : d.storeClean e) : t.storeClean e :=
  hc.of_same (h.proj (·.storeErr) fun _ _ _ _ _ _ _ _ => rfl) (h.writes.rg _ e (by decide))

end Dev.Moves

theorem Dev.release_moves (d : Dev) (e : Nat) : Dev.Moves e d (d.release e) := by
  unfold Dev.release
  exact .ite (.refl e d) ((Dev.Moves.refl e d).setEng ⟨_, _, _, _, _, _, _, rfl⟩)

theorem Dev.vpPass_moves (d : Dev) (e vp : Nat) : Dev.Moves e d (d.vpPass e vp) := by
  have hvp : Dev.Moves e d (d.st .ENG_VP e vp) := (Dev.Moves.refl e d).st e vp (by decide)
  have hend : ∀ b : Dev, Dev.Moves e b (b.endWindow e) := fun b =>
    ⟨(Dev.endWindow_move b e).writes, _, _, _, _, _, _, _, rfl⟩
  unfold Dev.vpPass
  refine Dev.Moves.trans ?_ (Dev.release_moves _ e)
  exact .ite hvp (.ite (hvp.trans (hend _)) (.ite (hvp.st e 1 (by decide)) hvp))

theorem Dev.lineAbsent_moves (d : Dev) (e line : Nat) : Dev.Moves e d (d.lineAbsent e line) := by
  have hmiss : Dev.Moves e d (d.missAt e line) := by
    obtain ⟨⟨_, _, _, _, _, _, heng⟩, -⟩ := Dev.missAt_keeps d e line
    exact ⟨(Dev.missAt_move d e line).writes, by rw [heng]; exact ⟨_, _, _, _, _, _, _, rfl⟩⟩
  unfold Dev.lineAbsent
  exact .ite (.refl e d) (.ite ((Dev.Moves.refl e d).setEng ⟨_, _, _, _, _, _, _, rfl⟩) hmiss)

/-- A header that begins its pleat, or that is read ahead, ends no burst (R117, R119). -/
theorem Dev.header_moves (m : List Host.Cell) (e : Nat) (ahead : Bool) : ∀ (n : Nat) (d : Dev),
    ahead = true ∨ (d.header m e ahead n).1 = true → Dev.Moves e d (d.header m e ahead n).2 := by
  intro n
  induction n with
  | zero => exact fun d _ => .refl e d
  | succ n ih =>
    intro d
    have hread := Dev.Moves.of_reports (Dev.streamBytes_reports d m e (d.rg .ENG_VP e) 8) e
    have herr : ∀ (b : Dev) (r : Nat), (ahead = true → Dev.Moves e d b) → ahead = true ∨ false = true →
        Dev.Moves e d (if ahead = true then b else b.endIssue e r) := fun b r hb h => by
      have ha := h.resolve_right Bool.false_ne_true
      rw [if_pos ha]
      exact hb ha
    unfold Dev.header
    rcases hr : d.streamBytes m e (d.rg .ENG_VP e) 8 with ⟨q, b⟩
    replace hread : Dev.Moves e d b := by rwa [hr] at hread
    simp only [hr]
    split
    · exact herr _ _ fun ha => by rw [ha]; simpa using Dev.Moves.refl e d
    · split
      · exact herr _ _ fun _ => .refl e d
      · cases q with
        | absent l => exact fun _ => hread.trans (Dev.lineAbsent_moves b e l)
        | unreadable => exact herr _ _ fun _ => hread
        | bytes l =>
          dsimp only
          split
          · exact herr _ _ fun _ => hread
          · split
            · exact herr _ _ fun _ => hread
            · split
              · exact fun h => (hread.trans (Dev.vpPass_moves b e _)).trans (ih _ h)
              · exact fun _ => ((hread.st e _ (by decide)).st e _ (by decide)).setEng ⟨_, _, _, _, _, _, _, rfl⟩

/-- A consumed row moves the stream on and nothing else (R115, R119). -/
theorem Dev.consume_moves (d : Dev) (m : List Host.Cell) (e : Nat) : Dev.Moves e d (d.consume m e) := by
  unfold Dev.consume
  split
  · exact Dev.vpPass_moves ..
  · split
    · exact .refl e d
    · dsimp only
      split
      · exact (Dev.Moves.refl e d).st e _ (by decide)
      · have hrow : Dev.Moves e d (d.st .ENG_STR_PPOS_ROW e 0) := (Dev.Moves.refl e d).st e 0 (by decide)
        split
        · exact hrow.st e _ (by decide)
        · refine .trans (.trans ?_ (Dev.vpPass_moves _ e _)) (Dev.header_moves m e true headerFuel _ (.inl rfl))
          exact (hrow.st e 0 (by decide)).setEng ⟨_, _, _, _, _, _, _, rfl⟩

/-- A row that is read begins at most a pleat (R115, R119). -/
theorem Dev.rowAt_moves {m : List Host.Cell} {off row : Nat} {skew : Bool}
    (h : d.rowAt m e off skew = (some row, t)) : Dev.Moves e d t := by
  have hread := Dev.Moves.of_reports (Dev.streamBytes_reports d m e off (d.rowBytes e)) e
  unfold Dev.rowAt at h
  dsimp only at h
  split at h
  · simp at h
  · split at h
    next b hb =>
      obtain ⟨-, rfl⟩ := Prod.mk.inj h
      rwa [hb] at hread
    next => simp at h
    next => simp at h

/-- The current row, where it is read (R115, R119). -/
theorem Dev.curRow_moves {m : List Host.Cell} {row : Nat} (h : d.curRow m e = (some row, t)) : Dev.Moves e d t := by
  unfold Dev.curRow at h
  split at h
  · exact Dev.rowAt_moves h
  · dsimp only at h
    split at h
    next hp =>
      refine Dev.Moves.trans ?_ (Dev.rowAt_moves h)
      unfold Dev.inPleat at hp ⊢
      split
      · exact .refl e d
      next hnone =>
        rw [if_neg hnone] at hp
        exact Dev.header_moves m e false headerFuel d (.inr hp)
    next => simp at h

end Sys2Proof.Machine
end

section
/-!
The instructions that emit rows: what they begin with, and a row that issues (R78, R197 to R199, R204, R205, R212, R215,
R216).
-/

namespace Sys2Proof.Machine

variable {s : State} {e w cls op : Nat} {b d t x y : Dev} {m : List Host.Cell} {body : Body}

/-! ## The instruction is in progress -/

/-- The instruction `w` that issued at `d` is in progress in `t`, with the queue and the program counter of its issue. -/
def InProgress (e w : Nat) (d : Dev) (t : State) : Prop :=
  (t.dev.eng e).act = some w ∧ (t.dev.eng e).queue = (d.eng e).queue ∧ t.dev.rg .ENG_PC_ADDR e = d.rg .ENG_PC_ADDR e

/-- An instruction begins with `P`: its command without cycles issues it alone, and where the emission queue has no room the
cycles of its command are holds. -/
def Starts (s : State) (e w : Nat) (d : Dev) (c : Nat → Instr) (P : State → Prop) : Prop :=
  Completes (c 0) s (fun t => InProgress e w d t ∧ P t ∧ ∀ k, exec (c k) s = exec (c k) t) ∧
  (255 ≤ (d.eng e).queue.length → ∀ k, Completes (c k) s (fun t => InProgress e w d t ∧ P t))

theorem Issues.starts {c : Nat → Instr} {P : State → Prop} (h : Issues s e cls op w d)
    (hx : ∀ k (a : State), exec (c k) a = .next (a.onDev (fun d => d.issueRun a.mem e cls op k body)))
    (hb : Dev.Begins e w x (body s.mem d e w)) (heng : x.eng e = d.eng e)
    (hpc : x.rg .ENG_PC_ADDR e = d.rg .ENG_PC_ADDR e) (hclean : d.storeClean e → x.storeClean e)
    (hrows : isEmit w = true → x.prog e 0 ≠ 0) (hP : ∀ t : State, (∀ j, t.dev.key j = x.key j) → P t) :
    Starts s e w d c P := by
  have hcl : d.storeClean e → (body s.mem d e w).storeClean e := fun hc => hb.clean (hclean hc)
  have hqueue : ((body s.mem d e w).eng e).queue = (d.eng e).queue := hb.queue.trans (congrArg Eng.queue heng)
  have hpost : ∀ t : State, t.mem = s.mem → Dev.Holds e (body s.mem d e w) t.dev → InProgress e w d t ∧ P t :=
    fun t _ ht => ⟨⟨ht.act.trans hb.act, ht.queue.trans hqueue, (ht.rg ..).trans ((hb.key _).trans hpc)⟩,
      hP t fun j => (ht.key j).trans (hb.key j)⟩
  constructor
  · obtain ⟨t, hexec, ⟨hin, hp⟩, hsame⟩ := h.completes_begins hx hcl hb.act hpost
    exact ⟨t, hexec, hin, hp, hsame⟩
  · intro hfull k
    refine h.completes_holds hx hcl hb.act hpost k fun y hy => Dev.run_of_full (hy.act.trans hb.act) ?_ ?_ s.mem k
    · rw [hy.queue, hqueue]
      exact hfull
    · rw [hy.prog, hb.prog]
      exact hrows

/-! ## A given number of rows -/

/-- The rows to emit are set in PROG0, or those left kept (R199). -/
def Dev.rowsSet (d : Dev) (e w : Nat) : Dev := if (d.eng e).resumed then d else d.setProg e 0 (d.opCount e w)

theorem Dev.rowsSet_key (d : Dev) (e w : Nat) {j : RegKey} (h : Field.ENG_PROG ≠ j.f) :
    (d.rowsSet e w).key j = d.key j := by
  unfold Dev.rowsSet
  split
  · rfl
  · exact Dev.setProg_key d e 0 _ h

theorem Dev.rowsSet_eng (d : Dev) (e w : Nat) : (d.rowsSet e w).eng e = d.eng e := by
  unfold Dev.rowsSet
  split <;> rfl

theorem Dev.rowsSet_prog (d : Dev) (e w : Nat) :
    (d.rowsSet e w).prog e 0 = if (d.eng e).resumed then d.prog e 0 else d.opCount e w % 2 ^ 64 := by
  unfold Dev.rowsSet
  split
  · rfl
  · exact Dev.setProg_prog ..

theorem Dev.storeClean.rowsSet (hc : d.storeClean e) (w : Nat) : (d.rowsSet e w).storeClean e :=
  hc.of_same (congrArg Eng.storeErr (Dev.rowsSet_eng d e w))
    (Dev.rowsSet_key d e w (j := ⟨.ENG_MC_STAT_LISTCNT, e, 0⟩) (by simp))

theorem Dev.emitRows_of_none (h : (d.rowsSet e w).prog e 0 = 0) : d.emitRows e w = (d.rowsSet e w).finish e := if_pos h

theorem Dev.emitRows_of_some (h : (d.rowsSet e w).prog e 0 ≠ 0) :
    Dev.Begins e w (d.rowsSet e w) (d.emitRows e w) := by
  have hemit : d.emitRows e w = ((d.rowsSet e w).begin e w).modEng e
      (fun z => { z with uctr := ceilDiv ((d.rowsSet e w).prog e 0) 2 }) := if_neg h
  rw [hemit]
  exact (Dev.begin_begins ..).uctr _

theorem iImm_lt (w : Nat) : iImm w < 2 ^ 64 := (Nat.mod_lt _ (by decide)).trans (by decide)

/-- The rows that VEC and VRPT emit (R204, R205). -/
theorem Dev.opCount_vec (d : Dev) (e : Nat) (hcls : iCls w = 1) (hop : iOp w ≤ 1) :
    d.opCount e w = if iMod w % 2 = 1 then d.reg e (iRs w) % 2 ^ 32 else iImm w := by
  simp [Dev.opCount, hcls, hop, bitOf, bitsOf_zero]

/-- The instruction emits `n` rows, or, resumed, those left in PROG0: with none it ends at once. -/
def EmitsRows (s : State) (e w : Nat) (d : Dev) (c : Nat → Instr) (n : Nat) : Prop :=
  let r := if (d.eng e).resumed then d.prog e 0 else n
  (r = 0 → ∀ k, Completes (c k) s (fun t => t.dev.prog e 0 = 0 ∧ PcNext d t.dev e)) ∧
  (r ≠ 0 → Starts s e w d c (fun t => t.dev.prog e 0 = r))

section
variable {c : Nat → Instr} (h : Issues s e cls op w d)
  (hx : ∀ k (a : State), exec (c k) a = .next (a.onDev (fun d => d.issueRun a.mem e cls op k body)))
  (hbody : body s.mem d e w = y.emitRows e w) (heng : y.eng e = d.eng e)
  (hpc : y.rg .ENG_PC_ADDR e = d.rg .ENG_PC_ADDR e) (hclean : d.storeClean e → y.storeClean e)
include h hx hbody heng hpc hclean

theorem Issues.completes_no_rows {P : State → Prop} (hr : (y.rowsSet e w).prog e 0 = 0) (k : Nat)
    (hP : ∀ t : State, Dev.Finished e d (y.rowsSet e w) t.dev → P t) : Completes (c k) s P :=
  h.completes_over (hx k s) (hbody.trans (Dev.emitRows_of_none hr)) (congrArg Eng.br ((Dev.rowsSet_eng ..).trans heng))
    ((Dev.rowsSet_key y e w (j := ⟨.ENG_PC_ADDR, e, 0⟩) (by simp)).trans hpc) (fun hc => (hclean hc).rowsSet w) hP

theorem Issues.starts_rows {P : State → Prop} (hr : (y.rowsSet e w).prog e 0 ≠ 0)
    (hP : ∀ t : State, (∀ j, t.dev.key j = (y.rowsSet e w).key j) → P t) : Starts s e w d c P :=
  h.starts hx (hbody ▸ Dev.emitRows_of_some hr) ((Dev.rowsSet_eng ..).trans heng)
    ((Dev.rowsSet_key y e w (j := ⟨.ENG_PC_ADDR, e, 0⟩) (by simp)).trans hpc) (fun hc => (hclean hc).rowsSet w)
    (fun _ => hr) hP

theorem Issues.emitsRows {n : Nat} (hcount : y.opCount e w = n) (hn : n < 2 ^ 64) (hprog : y.prog e 0 = d.prog e 0) :
    EmitsRows s e w d c n := by
  have hrows : (y.rowsSet e w).prog e 0 = if (d.eng e).resumed then d.prog e 0 else n := by
    rw [Dev.rowsSet_prog, heng, hprog, hcount, Nat.mod_eq_of_lt hn]
  constructor
  · intro hr k
    exact h.completes_no_rows hx hbody heng hpc hclean (hrows.trans hr) k fun t ht =>
      ⟨(ht.key ⟨.ENG_PROG, e, 0⟩ (by simp)).trans (hrows.trans hr), ht.next⟩
  · intro hr
    exact h.starts_rows hx hbody heng hpc hclean (hrows ▸ hr) fun t ht => (ht _).trans hrows

end

/-! ## AVEC -/

/-- CARRY starts at 0; one that is resumed keeps it (R215). -/
def Dev.avecStart (d : Dev) (e : Nat) : Dev := if (d.eng e).resumed then d else d.st .ENG_FLAGS_CARRY e 0

theorem Dev.avecStart_key (d : Dev) (e : Nat) {j : RegKey} (h : Field.ENG_FLAGS_CARRY ≠ j.f) :
    (d.avecStart e).key j = d.key j := by
  unfold Dev.avecStart
  split
  · rfl
  · exact Dev.key_st_ne d e 0 h

theorem Dev.avecStart_carry (d : Dev) (e : Nat) :
    (d.avecStart e).rg .ENG_FLAGS_CARRY e = if (d.eng e).resumed then d.rg .ENG_FLAGS_CARRY e else 0 := by
  unfold Dev.avecStart
  split
  · rfl
  · exact Dev.rg_st_self ..

theorem Dev.avecStart_eng (d : Dev) (e : Nat) : (d.avecStart e).eng e = d.eng e := by
  unfold Dev.avecStart
  split <;> rfl

theorem Dev.storeClean.avecStart (hc : d.storeClean e) : (d.avecStart e).storeClean e :=
  hc.of_same (congrArg Eng.storeErr (Dev.avecStart_eng d e))
    (Dev.avecStart_key d e (j := ⟨.ENG_MC_STAT_LISTCNT, e, 0⟩) (by simp))

section
variable {e : EngId} (h : Issues s e 4 0 w d)
include h

theorem Issues.emitsRows_avec : EmitsRows s e w d (.avec e ·) (iImm w) := by
  have hcount : (d.avecStart e).opCount e w = iImm w := by simp [Dev.opCount, h.2.1, h.2.2.1]
  exact h.emitsRows (body := Dev.bodyAvec) (y := d.avecStart e) (fun _ _ => rfl) rfl (Dev.avecStart_eng d e)
    (Dev.avecStart_key d e (j := ⟨.ENG_PC_ADDR, e, 0⟩) (by simp)) (·.avecStart) hcount (iImm_lt w)
    (Dev.avecStart_key d e (j := ⟨.ENG_PROG, e, 0⟩) (by simp))

theorem Issues.completes_avec_carry : Completes (.avec e 0) s (fun t => t.dev.rg .ENG_FLAGS_CARRY e =
    if (d.eng e).resumed then d.rg .ENG_FLAGS_CARRY e else 0) := by
  have hcarry := (Dev.rowsSet_key (d.avecStart e) e w (j := ⟨.ENG_FLAGS_CARRY, e, 0⟩) (by simp)).trans
    (Dev.avecStart_carry d e)
  have hpc := Dev.avecStart_key d e (j := ⟨.ENG_PC_ADDR, e, 0⟩) (by simp)
  by_cases hr : ((d.avecStart e).rowsSet e w).prog e 0 = 0
  · exact h.completes_no_rows (c := (.avec e ·)) (body := Dev.bodyAvec) (fun _ _ => rfl) rfl (Dev.avecStart_eng d e) hpc
      (·.avecStart) hr 0 fun t ht => (ht.rg _ (by decide)).trans hcarry
  · obtain ⟨⟨t, hexec, -, ht, -⟩, -⟩ := h.starts_rows (c := (.avec e ·)) (body := Dev.bodyAvec) (fun _ _ => rfl) rfl
      (Dev.avecStart_eng d e) hpc (·.avecStart) hr fun t ht => (ht ⟨.ENG_FLAGS_CARRY, e, 0⟩).trans hcarry
    exact ⟨t, hexec, ht⟩

end

/-! ## MARCH -/

/-- The start of the element, unless it is resumed (R216). -/
def Dev.marchSet (d : Dev) (e w : Nat) : Dev := if (d.eng e).resumed then d else d.marchStart e w

theorem Dev.marchSet_of_fresh (hf : (d.eng e).resumed = false) (w : Nat) : d.marchSet e w = d.marchStart e w := by
  simp [Dev.marchSet, hf]

/-- What the start of an element sets (R216). -/
structure Dev.MarchStarted (e w : Nat) (d t : Dev) : Prop where
  xa    : t.rg .ENG_XA e = (if iMod w % 2 = 1 then d.rg .ENG_APG_XMAX_XMAX e else 0) % 2 ^ 32
  ya    : t.rg .ENG_YA e = (if iMod w % 2 = 1 then d.rg .ENG_APG_YMAX_YMAX e else 0) % 2 ^ 32
  left  : t.prog e 0 = (d.rg .ENG_APG_XMAX_XMAX e + 1) * (d.rg .ENG_APG_YMAX_YMAX e + 1) % 2 ^ 64
  done  : t.prog e 1 = 0
  carry : t.rg .ENG_FLAGS_CARRY e = 0

theorem Dev.marchStart_started (d : Dev) (e w : Nat) : Dev.MarchStarted e w d (d.marchStart e w) := by
  constructor <;>
    simp [Dev.marchStart, Dev.rg, Dev.prog, Dev.rgi, Dev.setProg, Dev.key_st, Dev.key_sti, bitOf, Field.info]

theorem Dev.MarchStarted.congr (h : Dev.MarchStarted e w d x) (hkey : ∀ j, Field.ENG_PC_ADDR ≠ j.f →
    Field.ENG_FLAGS_ZERO ≠ j.f → t.key j = x.key j) : Dev.MarchStarted e w d t where
  xa := (hkey _ (by simp) (by simp)).trans h.xa
  ya := (hkey _ (by simp) (by simp)).trans h.ya
  left := (hkey _ (by simp) (by simp)).trans h.left
  done := (hkey _ (by simp) (by simp)).trans h.done
  carry := (hkey _ (by simp) (by simp)).trans h.carry

/-- Fields that the start of an element writes. -/
def marchFields : List Field := [.ENG_XA, .ENG_YA, .ENG_PROG, .ENG_FLAGS_CARRY]

theorem Dev.marchStart_stores (d : Dev) (e w : Nat) : Dev.RegsOnly marchFields d (d.marchStart e w) :=
  .trans (.st d e _ (by decide)) (.trans (.st _ e _ (by decide)) (.trans (.sti _ e 0 _ (by decide))
    (.trans (.sti _ e 1 0 (by decide)) (.st _ e 0 (by decide)))))

theorem Dev.marchSet_stores (d : Dev) (e w : Nat) : Dev.RegsOnly marchFields d (d.marchSet e w) :=
  .ite (.refl _ d) (Dev.marchStart_stores d e w)

theorem Dev.storeClean.marchSet (hc : d.storeClean e) (w : Nat) : (d.marchSet e w).storeClean e :=
  have h := Dev.marchSet_stores d e w
  hc.of_same (congrArg Eng.storeErr (h.eng e)) (h.rg _ e (by decide))

/-- A MARCH under way: its element is set, and the micro-counter takes the cycles of an address. -/
def Dev.marchBegun (d : Dev) (e w : Nat) : Dev :=
  ((d.marchSet e w).begin e w).modEng e (fun x => { x with uctr := ceilDiv ((d.marchSet e w).marchRows e w) 2 })

theorem Dev.marchBegun_begins (d : Dev) (e w : Nat) : Dev.Begins e w (d.marchSet e w) (d.marchBegun e w) :=
  (Dev.begin_begins ..).uctr _

theorem Dev.bodyMarch_of_rows (hrows : (d.marchSet e w).prog e 0 ≠ 0) (m : List Host.Cell) :
    Dev.bodyMarch m d e w = d.marchBegun e w :=
  have hb := Dev.marchBegun_begins d e w
  Dev.settleEmit_of_rows hb.act (fun _ => (hb.prog 0).symm ▸ hrows) m

/-- An array of 2^64 addresses ends the element at once (log 75). -/
theorem Dev.bodyMarch_of_none (hcls : iCls w = 4) (hop : iOp w = 1) (hst : d.estate e = 1 ∨ d.estate e = 2)
    (hnone : (d.marchSet e w).prog e 0 = 0) (m : List Host.Cell) :
    Dev.bodyMarch m d e w = ((d.marchBegun e w).st .ENG_FLAGS_ZERO e 1).finish e := by
  have hb := Dev.marchBegun_begins d e w
  have hstate : (d.marchBegun e w).estate e = d.estate e :=
    (hb.key _).trans ((Dev.marchSet_stores d e w).rg .ENG_STAT_STATE e (by decide))
  change (d.marchBegun e w).settleEmit m e = _
  unfold Dev.settleEmit
  rw [hb.act, hb.prog, hstate, hnone]
  simp [isEmit, isMarch, Dev.emitDone, hcls, hop, hst]

section
variable {e : EngId} (h : Issues s e 4 1 w d)
include h

theorem Issues.starts_march {P : State → Prop} (hrows : (d.marchSet e w).prog e 0 ≠ 0)
    (hP : ∀ t : State, (∀ j, t.dev.key j = (d.marchSet e w).key j) → P t) : Starts s e w d (.march e ·) P :=
  have hstores := Dev.marchSet_stores d e w
  h.starts (body := Dev.bodyMarch) (fun _ _ => rfl) (Dev.bodyMarch_of_rows hrows s.mem ▸ Dev.marchBegun_begins d e w)
    (hstores.eng e) (hstores.rg _ e (by decide)) (·.marchSet w) (fun _ => hrows) hP

theorem Issues.completes_march_none {k : Nat} {P : State → Prop} (hnone : (d.marchSet e w).prog e 0 = 0)
    (hP : ∀ t : State, Dev.Finished e d ((d.marchBegun e w).st .ENG_FLAGS_ZERO e 1) t.dev → P t) :
    Completes (.march e k) s P := by
  have hstores := Dev.marchSet_stores d e w
  have hb := Dev.marchBegun_begins d e w
  refine h.completes_over (body := Dev.bodyMarch) rfl (Dev.bodyMarch_of_none h.2.1 h.2.2.1 h.running.1 hnone s.mem)
    (hb.br.trans (congrArg Eng.br (hstores.eng e))) ?_ (fun hc => ?_) hP
  · exact (Dev.rg_st_ne _ _ _ _ (by decide)).trans ((hb.key _).trans (hstores.rg _ e (by decide)))
  · exact (hb.clean (hc.marchSet w)).st e 1 (by decide)

/-- A fresh element begins at its corner with all its addresses to come; one without addresses ends with ZERO (R216). -/
theorem Issues.completes_march_fresh (hf : (d.eng e).resumed = false) : Completes (.march e 0) s (fun t =>
    Dev.MarchStarted e w d t.dev ∧
      ((d.rg .ENG_APG_XMAX_XMAX e + 1) * (d.rg .ENG_APG_YMAX_YMAX e + 1) % 2 ^ 64 = 0 →
        t.dev.rg .ENG_FLAGS_ZERO e = 1 ∧ PcNext d t.dev e)) := by
  have hstart : Dev.MarchStarted e w d (d.marchSet e w) := Dev.marchSet_of_fresh hf w ▸ Dev.marchStart_started d e w
  by_cases hnone : (d.marchSet e w).prog e 0 = 0
  · refine h.completes_march_none hnone fun t ht => ⟨hstart.congr fun j hpc hz => ?_, fun _ => ⟨?_, ht.next⟩⟩
    · exact (ht.key j hpc).trans ((Dev.key_st_ne _ _ _ hz).trans ((Dev.marchBegun_begins d e w).key j))
    · exact (ht.rg _ (by decide)).trans (Dev.rg_st_self ..)
  · obtain ⟨⟨t, hexec, -, ht, -⟩, -⟩ := h.starts_march hnone fun t ht => hstart.congr fun j _ _ => ht j
    exact ⟨t, hexec, ht, fun hz => absurd (hstart.left.trans hz) hnone⟩

end

/-! ## MWAIT -/

/-- The rows to judge, no row found yet and the first row that counts, unless it is resumed (R212). -/
def Dev.mwaitSet (d : Dev) (e w : Nat) : Dev :=
  if (d.eng e).resumed then d
  else ((d.setProg e 0 (iImm w)).setProg e 1 (2 ^ 64 - 1)).setProg e 2 (d.eng e).issued

theorem Dev.mwaitSet_stores (d : Dev) (e w : Nat) : Dev.RegsOnly [.ENG_PROG] d (d.mwaitSet e w) :=
  .ite (.refl _ d) (.trans (.sti d e 0 _ (by decide)) (.trans (.sti _ e 1 _ (by decide)) (.sti _ e 2 _ (by decide))))

theorem Dev.storeClean.mwaitSet (hc : d.storeClean e) (w : Nat) : (d.mwaitSet e w).storeClean e :=
  have h := Dev.mwaitSet_stores d e w
  hc.of_same (congrArg Eng.storeErr (h.eng e)) (h.rg _ e (by decide))

/-- An MWAIT of no rows has timed out: ZERO and the event (R212). -/
def Dev.mwaitNone (d : Dev) (e w : Nat) : Dev := ((d.mwaitSet e w).st .ENG_FLAGS_ZERO e 1).raise e 1

section
variable {e : EngId} (h : Issues s e 3 4 w d)
include h

theorem Issues.completes_mwait_none (hn : iImm w = 0) (k : Nat) : Completes (.mwait e k) s (fun t =>
    t.dev.rg .ENG_FLAGS_ZERO e = 1 ∧ PcNext d t.dev e ∧ (t.dev.rg .ENG_EV_PEND_PEND e).testBit 1) := by
  have hstores := Dev.mwaitSet_stores d e w
  have hraise := (Dev.raise_frame ((d.mwaitSet e w).st .ENG_FLAGS_ZERO e 1) e 1).writes
  have hruns : ((d.mwaitSet e w).st .ENG_FLAGS_ZERO e 1).runs e = true := by
    have hst : ((d.mwaitSet e w).st .ENG_FLAGS_ZERO e 1).estate e = d.estate e :=
      (Dev.rg_st_ne _ _ _ _ (by decide)).trans (hstores.rg .ENG_STAT_STATE e (by decide))
    unfold Dev.runs
    rw [hst]
    obtain hs | hs := h.running.1 <;> rw [hs] <;> rfl
  have hproj : ∀ {α : Type} (p : Eng → α), (∀ y l, p { y with evFrom := l } = p y) →
      p ((d.mwaitNone e w).eng e) = p (d.eng e) := fun p hp =>
    (Dev.raiseOne_proj _ e 1 _ p hp).trans (congrArg p (hstores.eng e))
  have hkey : ∀ f ∉ [Field.ENG_PROG, .ENG_FLAGS_ZERO, .ENG_EV_PEND_PEND], (d.mwaitNone e w).rg f e = d.rg f e := by
    intro f hf
    simp only [List.mem_cons, List.not_mem_nil, or_false, not_or] at hf
    exact (hraise.rg f e (by simpa using hf.2.2)).trans ((Dev.rg_st_ne _ _ _ _ (Ne.symm hf.2.1)).trans
      (hstores.rg f e (by simpa using hf.1)))
  refine h.completes_over (body := Dev.bodyMwait) (x := d.mwaitNone e w) rfl (if_pos hn) (hproj (·.br) fun _ _ => rfl)
    (hkey _ (by decide)) (fun hc => hc.of_same (hproj (·.storeErr) fun _ _ => rfl) (hkey _ (by decide)))
    fun t ht => ⟨?_, ht.next, ?_⟩
  · exact (ht.rg _ (by decide)).trans ((hraise.rg .ENG_FLAGS_ZERO e (by decide)).trans (Dev.rg_st_self ..))
  · rw [ht.rg _ (by decide)]
    exact Dev.raiseOne_pending hruns (by decide) _

theorem Issues.starts_mwait {P : State → Prop} (hn : iImm w ≠ 0)
    (hP : ∀ t : State, (∀ j, t.dev.key j = (d.mwaitSet e w).key j) → P t) : Starts s e w d (.mwait e ·) P := by
  have hstores := Dev.mwaitSet_stores d e w
  have hbody : Dev.bodyMwait s.mem d e w = (d.mwaitSet e w).begin e w := if_neg hn
  refine h.starts (body := Dev.bodyMwait) (fun _ _ => rfl) (hbody ▸ Dev.begin_begins ..) (hstores.eng e)
    (hstores.rg _ e (by decide)) (·.mwaitSet w) (fun hemit => ?_) hP
  simp [isEmit, h.2.1] at hemit

end

/-! ## A row that issues -/

/-- Fields that a row's issue writes: the summary's and the state with the burst's first row, the dynamic mask, and those of
a report. -/
def rowFields : List Field :=
  [.ENG_RES_STAT_LFAIL, .ENG_RES_STAT_LOGINC, .ENG_RES_STAT_DRIFT, .ENG_RES_VCNT_VCNT, .ENG_RES_FFV_VCNT,
    .ENG_RES_FFV_VALID, .ENG_RES_FFV_TSET, .ENG_RES_FFTAG_TAG, .ENG_RES_FFPINS_PINS, .ENG_RES_PF_FAILED,
    .ENG_RES_FCNT_COUNT, .ENG_EV_PEND_PEND, .ENG_STAT_STATE, .ENG_CMP_DMASK_DMASK] ++ reportFields

theorem Dev.clearSummary_writes (d : Dev) (e : Nat) : Dev.WritesOnly rowFields d (d.clearSummary e) := by
  have hfields : Dev.RegsOnly rowFields d _ := .foldl [Field.ENG_RES_STAT_LFAIL, .ENG_RES_STAT_LOGINC, .ENG_RES_STAT_DRIFT,
    .ENG_RES_VCNT_VCNT, .ENG_RES_FFV_VCNT, .ENG_RES_FFV_VALID, .ENG_RES_FFV_TSET, .ENG_RES_FFTAG_TAG, .ENG_RES_FFPINS_PINS,
    .ENG_RES_PF_FAILED] d fun b f hf => Dev.RegsOnly.st b e 0 (List.mem_append_left _ (List.mem_append_left _ hf))
  have hcounts := hfields.trans (.foldl (List.range 64) _ fun b p _ => Dev.RegsOnly.sti b e p 0 (f := .ENG_RES_FCNT_COUNT)
    (by decide))
  unfold Dev.clearSummary
  dsimp only
  split
  · exact (hcounts.writes.trans (.st _ e 1 (by decide))).trans ((Dev.raiseOne_writes _ e 8 _).mono (by decide))
  · exact hcounts.writes

/-- From `d`, engine `e` has issued `row`, which is last in its queue (R197, R198). -/
structure Dev.RowIssued (e : Nat) (d t : Dev) (row : Row) : Prop where
  writes : Dev.WritesOnly rowFields d t
  state  : t.estate e = 2 ∨ t.estate e = d.estate e
  eng    : ∃ a b c f g h, t.eng e = { d.eng e with
    queue := (d.eng e).queue ++ [row], issued := (d.eng e).issued + 1, anch := [], prev := a, tb := b, fbKept := c, held := f
    next := g, beatPer := h }
  dmask  : t.rg .ENG_CMP_DMASK_DMASK e = (d.eng e).dmask % 2 ^ 64

/-- What `row` carries of the engine that issues it at `d` (R78, R197, R198). -/
structure Row.IssuedAt (e word : Nat) (d : Dev) (row : Row) : Prop where
  vcnt  : row.vcnt = (d.eng e).issued
  tset  : row.tset = d.rg .ENG_TS e
  tag   : row.tag = d.rg .ENG_TAG e
  word  : row.word = word
  dmask : row.dmask = (d.eng e).dmask
  flog  : row.flog = !(d.eng e).susp
  acts  : row.acts = (d.eng e).anch

/-- The edge entries of a row are read with reports alone. -/
theorem Dev.edges_reports (m : List Host.Cell) (ts : Nat) (ps : List Nat) : ∀ a : List Nat × Bool × Dev,
    Reports a.2.2 (ps.foldl (fun (a : List Nat × Bool × Dev) c =>
      let r := a.2.2.readBytes m 0x03 (edgeMem c ts) 16
      (a.1 ++ [leNat r.1], a.2.1 || r.2.1, r.2.2)) a).2.2 := by
  induction ps with
  | nil => exact fun a => .refl a.2.2
  | cons c ps ih =>
    intro a
    let r := a.2.2.readBytes m 0x03 (edgeMem c ts) 16
    exact (Dev.readBytes_reports a.2.2 m 0x03 (edgeMem c ts) 16).trans (ih (a.1 ++ [leNat r.1], a.2.1 || r.2.1, r.2.2))

/-- The block as a row enters the queue: with the burst's first row the summary is cleared and the burst runs (R146). -/
def Dev.rowBase (d : Dev) (e : Nat) (first : Bool) : Dev :=
  if first then (d.clearSummary e).st .ENG_STAT_STATE e 2 else d

theorem Dev.rowBase_writes (d : Dev) (e : Nat) (first : Bool) : Dev.WritesOnly rowFields d (d.rowBase e first) := by
  unfold Dev.rowBase
  split
  · exact (Dev.clearSummary_writes d e).trans (.st _ e 2 (by decide))
  · exact .refl _ d

theorem Dev.rowBase_state (d : Dev) (e : Nat) (first : Bool) :
    (d.rowBase e first).estate e = 2 ∨ (d.rowBase e first).estate e = d.estate e := by
  unfold Dev.rowBase
  split
  · exact .inl (Dev.rg_st_self ..)
  · exact .inr rfl

theorem Dev.emitRow_issues {word pinw n : Nat} (h : d.emitRow m e word pinw n = (true, t)) :
    ∃ row, Dev.RowIssued e d t row ∧ row.IssuedAt e word d := by
  unfold Dev.emitRow at h
  dsimp only at h
  have hreads := (Dev.readBytes_reports d m 0x03 (perMem e (d.rg .ENG_TS e)) 8).trans
    (Dev.edges_reports m (d.rg .ENG_TS e) (d.pins e) ([], false, (d.readBytes m 0x03 (perMem e (d.rg .ENG_TS e)) 8).2.2))
  generalize List.foldl _ _ (d.pins e) = edges at h hreads
  generalize Option.getD (edges.2.2.tailStart e) _ = start at h
  have heng := hreads.eng e
  simp only [heng] at h
  split at h
  · simp at h
  · split at h
    · simp at h
    · split at h
      · simp at h
      · split at h
        · simp at h
        · obtain ⟨-, rfl⟩ := Prod.mk.inj h
          have hreport : Dev.WritesOnly rowFields d edges.2.2 :=
            ⟨fun j hj => hreads.key j fun hr => hj (List.mem_append_right _ hr), hreads.tick⟩
          have hbase := hreport.trans (edges.2.2.rowBase_writes e ((d.eng e).issued == 0))
          have hstate := edges.2.2.rowBase_state e ((d.eng e).issued == 0)
          refine ⟨_, ⟨?writes, ?state, ⟨_, _, _, _, _, _, Dev.eng_setEng_self ..⟩, ?dmask⟩,
            ⟨rfl, rfl, hreads.rg .ENG_TAG e (by decide), rfl, rfl, rfl, rfl⟩⟩
          case writes =>
            exact .trans (.trans (.trans hbase (.of_eqs rfl rfl)) (.st _ e _ (by decide))) (.of_eqs rfl rfl)
          case state =>
            rw [← show edges.2.2.estate e = d.estate e from hreads.rg .ENG_STAT_STATE e (by decide)]
            have hrest : ∀ b : Dev, (b.st .ENG_CMP_DMASK_DMASK e (d.eng e).dmask).estate e = b.estate e := fun b =>
              Dev.rg_st_ne b _ _ _ (by decide)
            exact hstate.imp (hrest _).trans (hrest _).trans
          case dmask => exact Dev.rg_st_self _ .ENG_CMP_DMASK_DMASK e _

/-! ## The last row of a VEC -/

/-- From `d` to `t` the instruction in progress on engine `e` and where it stands are the same; a burst that runs still
runs. -/
structure Dev.SameInstr (e : Nat) (d t : Dev) : Prop where
  act   : (t.eng e).act = (d.eng e).act
  br    : (t.eng e).br = (d.eng e).br
  pc    : t.rg .ENG_PC_ADDR e = d.rg .ENG_PC_ADDR e
  prog  : t.prog e 0 = d.prog e 0
  state : t.estate e = 2 ∨ t.estate e = d.estate e

namespace Dev.SameInstr

theorem trans (h : Dev.SameInstr e d x) (h' : Dev.SameInstr e x t) : Dev.SameInstr e d t :=
  ⟨h'.act.trans h.act, h'.br.trans h.br, h'.pc.trans h.pc, h'.prog.trans h.prog,
    h'.state.elim .inl fun hx => h.state.imp hx.trans hx.trans⟩

theorem of_settles (h : Settles e d t) : Dev.SameInstr e d t :=
  ⟨h.proj (·.act) fun _ _ _ _ _ _ _ _ => rfl, h.proj (·.br) fun _ _ _ _ _ _ _ _ => rfl, h.rg .., h.key _,
    .inr (h.rg ..)⟩

theorem of_moves (h : Dev.Moves e d t) : Dev.SameInstr e d t :=
  ⟨h.proj (·.act) fun _ _ _ _ _ _ _ _ => rfl, h.proj (·.br) fun _ _ _ _ _ _ _ _ => rfl,
    h.writes.rg _ e (by decide), h.prog 0, .inr (h.writes.rg _ e (by decide))⟩

theorem of_row {row : Row} (h : Dev.RowIssued e d t row) : Dev.SameInstr e d t := by
  obtain ⟨_, _, _, _, _, _, heng⟩ := h.eng
  have hprog : Field.ENG_PROG ∉ rowFields := by decide
  exact ⟨by rw [heng], by rw [heng], h.writes.rg _ e (by decide), h.writes.key ⟨.ENG_PROG, e, 0⟩ hprog, h.state⟩

theorem advanceTo (d : Dev) (e k : Nat) : Dev.SameInstr e d (d.advanceTo k) := by
  have heng := Dev.advanceTo_eng d k e
  exact ⟨congrArg Eng.act heng, congrArg Eng.br heng, Dev.advanceTo_rg .., Dev.advanceTo_key .., .inr (Dev.advanceTo_rg ..)⟩

theorem running (h : Dev.SameInstr e d t) (hst : d.estate e = 1 ∨ d.estate e = 2) : t.estate e = 1 ∨ t.estate e = 2 :=
  h.state.elim .inr fun ht => hst.imp ht.trans ht.trans

end Dev.SameInstr

/-- A VEC that has no row left is complete (R204). -/
theorem Dev.settleEmit_vec (hact : (d.eng e).act = some w) (hcls : iCls w = 1) (hop : iOp w = 0) (hnone : d.prog e 0 = 0)
    (hst : d.estate e = 1 ∨ d.estate e = 2) (m : List Host.Cell) : d.settleEmit m e = d.finish e := by
  unfold Dev.settleEmit
  rw [hact]
  simp [isEmit, isMarch, Dev.emitDone, hcls, hop, hnone, hst]

section
variable {row : Nat} {z : Dev} (hcls : iCls w = 1) (hop : iOp w = 0) (hst : x.estate e = 1 ∨ x.estate e = 2)
  (hcur : x.curRow m e = (some row, y)) (hrow : y.emitRow m e row 0 (y.execCycle e) = (true, z))
include hcls hop hst hcur hrow

/-- The row of a VEC's issue cycle (R204). -/
theorem Dev.rowStep_vec : x.rowStep m e w = (true, (z.consume m e).countDown e) := by
  unfold Dev.rowStep
  rw [if_pos hst]
  simp [Dev.emitOne, Dev.emitCur, hcls, hop, hcur, hrow]

/-- The issue cycle of a VEC's last row (R204, R236). -/
theorem Dev.issueCycle_vec_last (hclean : d.storeClean e) (hroom : d.roomForTwo e = true)
    (hx : x = ((d.advanceTo (d.eng e).free).micro e w 1).2) (hlast : ((z.consume m e).countDown e).prog e 0 = 0) :
    d.issueCycle m e w = (true, ((z.consume m e).countDown e).point e) := by
  have hmarch : isMarch w = false := by simp [isMarch, hcls]
  have hclean' : (d.advanceTo (d.eng e).free).storeClean e :=
    hclean.of_same (congrArg Eng.storeErr (Dev.advanceTo_eng ..)) (Dev.advanceTo_rg ..)
  have hroom' : (d.advanceTo (d.eng e).free).roomForTwo e = true := by
    unfold Dev.roomForTwo at hroom ⊢
    rwa [Dev.advanceTo_eng]
  have hword := (Dev.micro_clean hclean' w 1).1
  have hwords : (d.advanceTo (d.eng e).free).wordsLeft e w = 1 := by simp [Dev.wordsLeft, hmarch]
  have hwait : (d.advanceTo (d.eng e).free).waitOut e w = false := by simp [Dev.waitOut, isWait, hcls]
  have hpairs : ((z.consume m e).countDown e).pairs e w = false := by simp [Dev.pairs, hmarch, hlast]
  have hpoint : ((z.consume m e).countDown e).cycleEnds e w = ((z.consume m e).countDown e).point e := by
    simp [Dev.cycleEnds, hmarch]
  unfold Dev.issueCycle
  simp only [hroom', hwait, hwords, hword, ← hx, Dev.rowStep_vec hcls hop hst hcur hrow, hpairs, hpoint, Bool.not_true,
    Bool.not_false, Bool.or_true, Bool.or_false, Bool.false_eq_true, if_false, if_true]

/-- The last row of a VEC completes it (R204). -/
theorem Dev.run_vec_last (hact : (d.eng e).act = some w) (hgo : d.goesOn e = true) (hclean : d.storeClean e)
    (hroom : d.roomForTwo e = true) (hx : x = ((d.advanceTo (d.eng e).free).micro e w 1).2)
    (hlast : ((z.consume m e).countDown e).prog e 0 = 0) (hactz : (z.eng e).act = some w)
    (hstz : z.estate e = 1 ∨ z.estate e = 2) (k : Nat) :
    d.run m e (k + 1) = (((z.consume m e).countDown e).point e).finish e := by
  have hmove := Dev.consume_moves z m e
  have hpoint := Dev.Holds.of_settles (Dev.point_settles ((z.consume m e).countDown e) e)
  have hactp : ((((z.consume m e).countDown e).point e).eng e).act = some w :=
    hpoint.act.trans ((hmove.proj (·.act) fun _ _ _ _ _ _ _ _ => rfl).trans hactz)
  have hstp : (((z.consume m e).countDown e).point e).estate e = z.estate e :=
    (hpoint.rg ..).trans ((Dev.setProg_rg _ e 0 _ e (by decide)).trans (hmove.writes.rg .ENG_STAT_STATE e (by decide)))
  have hdone : (((z.consume m e).countDown e).point e).settleEmit m e = (((z.consume m e).countDown e).point e).finish e :=
    Dev.settleEmit_vec hactp hcls hop ((hpoint.prog 0).trans hlast) (hstp ▸ hstz) m
  have hover : ∀ n, ((((z.consume m e).countDown e).point e).finish e).run m e n =
      (((z.consume m e).countDown e).point e).finish e := fun n => by
    cases n with
    | zero => rfl
    | succ n =>
      unfold Dev.run
      rw [Dev.finish_act]
  have hemit : isEmit w = true := by simp [isEmit, hcls, hop]
  unfold Dev.run
  simp only [hact, hgo, hemit, Dev.issueCycle_vec_last hcls hop hst hcur hrow hclean hroom hx hlast, hdone, hover,
    Bool.not_true, Bool.true_or, Bool.or_self, Bool.false_eq_true, if_false, if_true]

end

/-- The command that covers the last row of a VEC (R204). -/
theorem completes_vec_last {e : EngId} {row k : Nat} {z : Dev} (hact : (s.dev.eng e).act = some w) (hcls : iCls w = 1)
    (hop : iOp w = 0) (hgo : s.dev.goesOn e = true) (hclean : s.dev.storeClean e) (hroom : s.dev.roomForTwo e = true)
    (hleft : s.dev.prog e 0 = 1) (hst : s.dev.estate e = 1 ∨ s.dev.estate e = 2)
    (hx : x = ((s.dev.advanceTo (s.dev.eng e).free).micro e w 1).2) (hcur : x.curRow s.mem e = (some row, y))
    (hrow : y.emitRow s.mem e row 0 (y.execCycle e) = (true, z)) : Completes (.vec e (k + 1)) s (fun t =>
      t.dev.prog e 0 = 0 ∧ (t.dev.eng e).act = none ∧ (t.dev.eng e).queue = (z.eng e).queue ∧ PcNext s.dev t.dev e) := by
  have hclean' : (s.dev.advanceTo (s.dev.eng e).free).storeClean e :=
    hclean.of_same (congrArg Eng.storeErr (Dev.advanceTo_eng ..)) (Dev.advanceTo_rg ..)
  have hsamex : Dev.SameInstr e s.dev x :=
    hx ▸ (Dev.SameInstr.advanceTo s.dev e _).trans (.of_settles (Dev.micro_clean hclean' w 1).2)
  obtain ⟨r, hissued, -⟩ := Dev.emitRow_issues hrow
  have hsamez := (hsamex.trans (.of_moves (Dev.curRow_moves hcur))).trans (.of_row hissued)
  have hmove := Dev.consume_moves z s.mem e
  have hsame := hsamez.trans (.of_moves hmove)
  have hlast : ((z.consume s.mem e).countDown e).prog e 0 = 0 := by
    unfold Dev.countDown
    rw [Dev.setProg_prog, hsame.prog, hleft]
    rfl
  have hpoint := Dev.Holds.of_settles (Dev.point_settles ((z.consume s.mem e).countDown e) e)
  refine Completes.onDev rfl ?_
  rw [Dev.issueRun_of_act hact hcls hop, Dev.run_vec_last hcls hop (hsamex.running hst) hcur hrow hact hgo hclean hroom hx
    hlast (hsamez.act.trans hact) (hsamez.running hst)]
  refine ⟨?_, Dev.finish_act .., ?_, PcNext.finish ?_ ?_⟩
  · exact (Dev.finish_key _ _ (show Field.ENG_PC_ADDR ≠ .ENG_PROG by decide)).trans ((hpoint.prog 0).trans hlast)
  · exact (Dev.finish_proj _ e (·.queue) fun _ _ _ _ => rfl).trans (hpoint.queue.trans
      (hmove.proj (·.queue) fun _ _ _ _ _ _ _ _ => rfl))
  · exact ((Dev.point_settles _ e).proj (·.br) fun _ _ _ _ _ _ _ _ => rfl).trans hsame.br
  · exact (hpoint.rg ..).trans ((Dev.setProg_rg _ e 0 _ e (by decide)).trans hsame.pc)

/-! ## The clauses -/

/-- Settles O13: an instruction that begins by what it sets before its first row, one without rows by its end at once, and a
row by what it takes along from its engine. -/
theorem rowsIssue : Obligations.RowsIssue := by
  unfold Obligations.RowsIssue
  refine ⟨fun s e w d => ⟨?vec, ?vrpt, ?vpad, ?avec, ?carry, ?march, ?marchRows, ?marchResumed, ?mwaitNone, ?mwait,
    ?mwaitResumed⟩, ?last, ?row⟩
  case vec =>
    exact fun h => h.emitsRows (body := Dev.bodyVec) (fun _ _ => rfl) rfl rfl rfl id
      (Dev.opCount_vec d e h.2.1 (by simp [h.2.2.1])) (by split <;> [omega; exact iImm_lt w]) rfl
  case vrpt =>
    exact fun h => h.emitsRows (body := Dev.bodyVrpt) (fun _ _ => rfl) rfl rfl rfl id
      (Dev.opCount_vec d e h.2.1 (by simp [h.2.2.1])) (by split <;> [omega; exact iImm_lt w]) rfl
  case vpad =>
    exact fun h => h.emitsRows (body := Dev.bodyVpad) (fun _ _ => rfl) rfl rfl rfl id
      (by simp [Dev.opCount, h.2.1, h.2.2.1]) (iImm_lt w) rfl
  case avec => exact fun h => h.emitsRows_avec
  case carry => exact fun h => h.completes_avec_carry
  case march =>
    intro h hf
    obtain ⟨t, hexec, ht, hnone⟩ := h.completes_march_fresh hf
    exact ⟨t, hexec, ht.xa, ht.ya, ht.left, ht.done, ht.carry, hnone⟩
  case marchRows =>
    intro h hf hn
    have hset : (d.marchSet e w).prog e 0 = (d.rg .ENG_APG_XMAX_XMAX e + 1) * (d.rg .ENG_APG_YMAX_YMAX e + 1) % 2 ^ 64 :=
      Dev.marchSet_of_fresh hf w ▸ (Dev.marchStart_started d e w).left
    exact h.starts_march (hset ▸ hn) fun t ht => (ht _).trans hset
  case marchResumed =>
    intro h hf hn
    have hset : d.marchSet e w = d := by simp [Dev.marchSet, hf]
    exact h.starts_march (hset.symm ▸ hn) fun t ht => by
      rw [hset] at ht
      exact ⟨ht _, ht _, ht _, ht _⟩
  case mwaitNone => exact fun h hn k => h.completes_mwait_none hn k
  case mwait =>
    intro h hn hf
    have hset : d.mwaitSet e w = ((d.setProg e 0 (iImm w)).setProg e 1 (2 ^ 64 - 1)).setProg e 2 (d.eng e).issued := by
      simp [Dev.mwaitSet, hf]
    refine h.starts_mwait hn fun t ht => ⟨(ht ⟨.ENG_PROG, e, 0⟩).trans ?_, (ht ⟨.ENG_PROG, e, 1⟩).trans ?_,
      (ht ⟨.ENG_PROG, e, 2⟩).trans ?_⟩
    · rw [hset]
      exact (Dev.setProg_prog_ne _ _ _ (by decide)).trans ((Dev.setProg_prog_ne _ _ _ (by decide)).trans
        ((Dev.setProg_prog ..).trans (Nat.mod_eq_of_lt (iImm_lt w))))
    · rw [hset]
      exact (Dev.setProg_prog_ne _ _ _ (by decide)).trans (Dev.setProg_prog ..)
    · rw [hset]
      exact Dev.setProg_prog ..
  case mwaitResumed =>
    intro h hn hf
    have hset : d.mwaitSet e w = d := by simp [Dev.mwaitSet, hf]
    exact h.starts_mwait hn fun t ht i => (ht _).trans (by rw [hset]; rfl)
  case last =>
    exact fun s e w row k x y z hact hcls hop hgo hclean hroom hleft hst hx hcur hrow =>
      completes_vec_last hact hcls hop hgo hclean hroom hleft hst hx hcur hrow
  case row =>
    intro d t m e word pinw n h
    obtain ⟨row, hissued, hrow⟩ := Dev.emitRow_issues h
    obtain ⟨_, _, _, _, _, _, heng⟩ := hissued.eng
    exact ⟨row, by rw [heng], hrow.vcnt, by rw [heng], hrow.tset, hrow.tag, hrow.word, hrow.dmask, hrow.flog, hrow.acts,
      by rw [heng], hissued.dmask⟩

end Sys2Proof.Machine
end

section
/-!
The waits of an engine: how they begin, hold and end (R199, R223 to R225, R228, R230).
-/

namespace Sys2Proof.Machine

variable {s : State} {e w cls op k : Nat} {b d t x y : Dev} {m : List Host.Cell} {body : Body}

/-! ## A wait begins and holds -/

theorem isEmit_of_isWait (h : isWait w = true) : isEmit w = false := by
  simp only [isWait, Bool.or_eq_true, Bool.and_eq_true, beq_iff_eq] at h
  obtain (⟨h, -⟩ | ⟨h, -⟩) | ⟨h, -⟩ := h <;> simp [isEmit, h]

theorem isMwait_of_isWait (h : isWait w = true) : isMwait w = false := by
  simp only [isWait, Bool.or_eq_true, Bool.and_eq_true, beq_iff_eq] at h
  obtain (⟨h, -⟩ | ⟨h, -⟩) | ⟨h, -⟩ := h <;> simp [isMwait, h]

/-- A wait without r emits no row (R224). -/
theorem isHoldEmit_of_quiet (h : isWait w = true) (hq : iMod w < 0x20) : isHoldEmit w = false := by
  simp [isHoldEmit, isMwait_of_isWait h, bitOf_of_lt (k := 5) hq]

/-- The deadline is set in PROG0, or kept (R199, R224). -/
def Dev.waitSet (d : Dev) (e w : Nat) : Dev := if (d.eng e).resumed then d else d.setProg e 0 (d.deadline (iImm w))

theorem Dev.startWait_begins (d : Dev) (e w : Nat) : Dev.Begins e w (d.waitSet e w) (d.startWait e w) :=
  Dev.begin_begins ..

theorem Dev.waitSet_stores (d : Dev) (e w : Nat) : Dev.RegsOnly [.ENG_PROG] d (d.waitSet e w) :=
  .ite (.refl _ d) (.sti d e 0 _ (by decide))

theorem Dev.waitSet_prog (d : Dev) (e w : Nat) :
    (d.waitSet e w).prog e 0 = if (d.eng e).resumed then d.prog e 0 else d.deadline (iImm w) := by
  unfold Dev.waitSet
  split
  · rfl
  · refine (Dev.setProg_prog ..).trans (Nat.mod_eq_of_lt ?_)
    unfold Dev.deadline
    split
    · exact Nat.two_pow_pos 64
    · exact Nat.mod_lt _ (Nat.two_pow_pos 64)

/-- What an instruction that issued at `d` leaves as it was: the registers outside PROG0 to PROG3, what its engine holds
beside them, the clock and device time. -/
structure Dev.ProgOnly (e : Nat) (d y : Dev) : Prop where
  writes : Dev.RegsOnly [.ENG_PROG] d y
  time   : y.time = d.time

theorem Dev.ProgOnly.clean (h : Dev.ProgOnly e d y) (hc : d.storeClean e) : y.storeClean e :=
  hc.of_same (congrArg Eng.storeErr (h.writes.eng e)) (h.writes.rg _ e (by decide))

theorem Dev.ProgOnly.deadline (h : Dev.ProgOnly e d y) (n : Nat) : y.deadline n = d.deadline n := by
  simp only [Dev.deadline, Dev.nowNs, Dev.nowFrac, h.time, h.writes.writes.tick]

/-- A wait holds: PROG0 keeps its deadline or what an interruption left, and no row has issued (R199, R224). -/
def WaitHolds (s : State) (e w : Nat) (d : Dev) (c : Nat → Instr) : Prop :=
  ∀ k, (k = 0 ∨ iMod w < 0x20) → Completes (c k) s (fun t =>
    t.dev.prog e 0 = (if (d.eng e).resumed then d.prog e 0 else d.deadline (iImm w)) ∧ (t.dev.eng e).act = some w ∧
    ((d.eng e).resumed = false → (t.dev.eng e).waitFrom = d.tick) ∧ (t.dev.eng e).queue = (d.eng e).queue ∧
    t.dev.rg .ENG_PC_ADDR e = d.rg .ENG_PC_ADDR e ∧ t.mem = s.mem)

section
variable {c : Nat → Instr} (h : Issues s e cls op w d)
  (hx : ∀ k (a : State), exec (c k) a = .next (a.onDev (fun d => d.issueRun a.mem e cls op k body)))
  (hwait : isWait w = true) (hbody : body s.mem d e w = y.startWait e w) (hy : Dev.ProgOnly e d y)
include h hx hwait hbody hy

/-- A wait that begins, at whatever registers its progress is set in. -/
theorem Issues.completes_wait {P : State → Prop} (hk : k = 0 ∨ iMod w < 0x20)
    (hP : ∀ t : State, t.mem = s.mem → Dev.Holds e (y.startWait e w) t.dev → P t) : Completes (c k) s P := by
  have hb := Dev.startWait_begins y e w
  have hset := Dev.waitSet_stores y e w
  have hclean : d.storeClean e → (y.waitSet e w).storeClean e := fun hc =>
    (hy.clean hc).of_same (congrArg Eng.storeErr (hset.eng e)) (hset.rg _ e (by decide))
  refine h.completes_holds hx (fun hc => hbody ▸ hb.clean (hclean hc)) (hbody ▸ hb.act) (fun t hm ht => hP t hm (hbody ▸ ht))
    k fun a ha => ?_
  have hact : (a.eng e).act = some w := ha.act.trans (hbody ▸ hb.act)
  obtain rfl | hq := hk
  · exact .refl e a
  · rw [Dev.run_of_quiet hact (by rw [isEmit_of_isWait hwait, isHoldEmit_of_quiet hwait hq]; rfl)]
    exact .refl e a

theorem Issues.waitHolds (hprog : (d.eng e).resumed = true → y.prog e 0 = d.prog e 0) : WaitHolds s e w d c := by
  intro k hk
  have hb := Dev.startWait_begins y e w
  have hset := Dev.waitSet_stores y e w
  have heng := (hset.eng e).trans (hy.writes.eng e)
  refine h.completes_wait hx hwait hbody hy hk fun t hm ht => ⟨?_, ht.act.trans hb.act, fun hf => ?_, ?_, ?_, hm⟩
  · rw [ht.prog, hb.prog, Dev.waitSet_prog, hy.writes.eng, hy.deadline]
    split
    next hr => exact hprog hr
    next => rfl
  · rw [ht.from_, hb.from_, heng, hf, hset.writes.tick, hy.writes.writes.tick]
    rfl
  · rw [ht.queue, hb.queue, heng]
  · rw [ht.rg]
    exact (hb.key _).trans ((hset.rg .ENG_PC_ADDR e (by decide)).trans (hy.writes.rg .ENG_PC_ADDR e (by decide)))

end

/-! ## TWAIT -/

/-- The target of a TWAIT and its generation, unless it is resumed (R225). -/
def Dev.twaitSet (d : Dev) (e w : Nat) : Dev :=
  if !(d.eng e).resumed then (d.setProg e 1 (d.reg e (iRs w))).setProg e 2 d.time.gen else d

theorem Dev.twaitSet_progOnly (d : Dev) (e w : Nat) : Dev.ProgOnly e d (d.twaitSet e w) := by
  refine ⟨.ite (.trans (.sti d e 1 _ (by decide)) (.sti _ e 2 _ (by decide))) (.refl _ d), ?_⟩
  unfold Dev.twaitSet
  split <;> rfl

/-- A fresh TWAIT keeps its target in PROG1 and its generation in PROG2 (R225). -/
theorem Dev.twait_target (hf : (d.eng e).resumed = false) (w : Nat) :
    ((d.twaitSet e w).startWait e w).prog e 1 = d.reg e (iRs w) % 2 ^ 64 ∧
    ((d.twaitSet e w).startWait e w).prog e 2 = d.time.gen % 2 ^ 64 := by
  have hb := Dev.startWait_begins (d.twaitSet e w) e w
  have hset : d.twaitSet e w = (d.setProg e 1 (d.reg e (iRs w))).setProg e 2 d.time.gen := by simp [Dev.twaitSet, hf]
  have hkeep : ∀ i, 0 ≠ i → ((d.twaitSet e w).waitSet e w).prog e i = (d.twaitSet e w).prog e i := fun i hi => by
    unfold Dev.waitSet
    split
    · rfl
    · exact Dev.setProg_prog_ne _ _ _ hi
  rw [hb.prog, hb.prog, hkeep 1 (by decide), hkeep 2 (by decide), hset]
  exact ⟨(Dev.setProg_prog_ne _ _ _ (by decide)).trans (Dev.setProg_prog ..), Dev.setProg_prog ..⟩

theorem Dev.startWait_nowNs (hy : Dev.ProgOnly e d y) (w : Nat) : (y.startWait e w).nowNs = d.nowNs := by
  have hset := Dev.waitSet_stores y e w
  have htime : (y.startWait e w).time = y.time := by
    unfold Dev.startWait Dev.begin
    split <;> rfl
  have htick : (y.startWait e w).tick = y.tick := hset.writes.tick
  simp only [Dev.nowNs, Dev.nowFrac, htime, htick, hy.time, hy.writes.writes.tick]

theorem Dev.bodyTwait_eq (m : List Host.Cell) (d : Dev) (e w : Nat) : Dev.bodyTwait m d e w =
    if (!(d.eng e).resumed && decide (((d.twaitSet e w).startWait e w).prog e 1 ≤
        ((d.twaitSet e w).startWait e w).nowNs)) = true
    then (((d.twaitSet e w).startWait e w).setZC e 0 1).waitOver m e w else (d.twaitSet e w).startWait e w := rfl

/-- A TWAIT whose target is to come, or that is resumed, holds (R225). -/
theorem Dev.bodyTwait_of_later (h : (d.eng e).resumed = true ∨ d.nowNs < d.reg e (iRs w) % 2 ^ 64) (m : List Host.Cell) :
    Dev.bodyTwait m d e w = (d.twaitSet e w).startWait e w := by
  rw [Dev.bodyTwait_eq, Dev.startWait_nowNs (Dev.twaitSet_progOnly d e w)]
  refine if_neg fun hnow => ?_
  simp only [Bool.and_eq_true, Bool.not_eq_true', decide_eq_true_eq] at hnow
  obtain ⟨hf, hle⟩ := hnow
  rw [(Dev.twait_target hf w).1] at hle
  exact h.elim (fun hr => absurd (hf.symm.trans hr) (by simp)) fun hlt => Nat.not_lt.2 hle hlt

/-- A fresh TWAIT whose target is reached ends at once (R225). -/
theorem Dev.bodyTwait_of_reached (hf : (d.eng e).resumed = false) (hle : d.reg e (iRs w) % 2 ^ 64 ≤ d.nowNs)
    (m : List Host.Cell) :
    Dev.bodyTwait m d e w = (((d.twaitSet e w).startWait e w).setZC e 0 1).waitOver m e w := by
  rw [Dev.bodyTwait_eq, Dev.startWait_nowNs (Dev.twaitSet_progOnly d e w), (Dev.twait_target hf w).1]
  exact if_pos (by simpa [hf] using hle)

/-! ## The end of a wait -/

/-- A wait that needs no header for the row it consumes ends at once (R224). -/
theorem Dev.waitOver_eq (h : iMod w < 0x20 ∨ d.on .ENG_STR_CTRL_FORM e = false) (m : List Host.Cell) :
    ∃ b, Dev.Moves e d b ∧ d.waitOver m e w = (b.resumeIssue e).finish e := by
  unfold Dev.waitOver Dev.consumeRow Dev.pleated
  by_cases hq : bitOf (iMod w) 5 = true
  · have hform := h.resolve_left fun hlt => absurd (bitOf_of_lt (k := 5) hlt) (by simp [hq])
    exact ⟨d.consume m e, Dev.consume_moves d m e, by simp [hq, hform]⟩
  · exact ⟨d, .refl e d, by simp [hq]⟩

theorem Dev.resumeIssue_settles (d : Dev) (e : Nat) : Settles e d (d.resumeIssue e) :=
  Dev.modEng_settles fun _ => ⟨_, _, _, _, _, _, _, rfl⟩

theorem Issues.completes_twait_reached {e : EngId} (h : Issues s e 7 1 w d) (hf : (d.eng e).resumed = false)
    (hrow : iMod w < 0x20 ∨ d.on .ENG_STR_CTRL_FORM e = false) (hle : d.reg e (iRs w) % 2 ^ 64 ≤ d.nowNs) (k : Nat) :
    Completes (.twait e k) s (fun t => t.dev.rg .ENG_FLAGS_CARRY e = 1 ∧ t.dev.rg .ENG_FLAGS_ZERO e = 0 ∧
      PcNext d t.dev e) := by
  set a := (d.twaitSet e w).startWait e w with ha
  have hb := Dev.startWait_begins (d.twaitSet e w) e w
  have hset := Dev.waitSet_stores (d.twaitSet e w) e w
  have hprog := Dev.twaitSet_progOnly d e w
  have hkey : ∀ f ∉ [Field.ENG_PROG], a.rg f e = d.rg f e := fun f hf =>
    (hb.key _).trans ((hset.rg f e hf).trans (hprog.writes.rg f e hf))
  have heng := (hset.eng e).trans (hprog.writes.eng e)
  have hform : (a.setZC e 0 1).on .ENG_STR_CTRL_FORM e = d.on .ENG_STR_CTRL_FORM e :=
    congrArg (· == 1) ((Dev.setZC_key a e 0 1 (j := ⟨.ENG_STR_CTRL_FORM, e, 0⟩) (by simp) (by simp)).trans
      (hkey .ENG_STR_CTRL_FORM (by decide)))
  obtain ⟨b, hmove, hover⟩ := Dev.waitOver_eq (w := w) (hform.symm ▸ hrow) s.mem
  have hresume := Dev.resumeIssue_settles b e
  refine h.completes_over (body := Dev.bodyTwait) (x := b.resumeIssue e) rfl
    ((Dev.bodyTwait_of_reached hf hle s.mem).trans hover) ?_ ?_ (fun hc => ?_) fun t ht => ⟨?_, ?_, ht.next⟩
  · exact (hresume.proj (·.br) fun _ _ _ _ _ _ _ _ => rfl).trans ((hmove.proj (·.br) fun _ _ _ _ _ _ _ _ => rfl).trans
      (hb.br.trans (congrArg Eng.br heng)))
  · exact (hresume.rg ..).trans ((hmove.writes.rg .ENG_PC_ADDR e (by decide)).trans
      ((Dev.setZC_pc ..).trans (hkey .ENG_PC_ADDR (by decide))))
  · exact hresume.clean (hmove.clean (Dev.storeClean.setZC (hc.of_same (hb.store.trans (congrArg Eng.storeErr heng))
      (hkey .ENG_MC_STAT_LISTCNT (by decide))) 0 1))
  · exact (ht.rg _ (by decide)).trans ((hresume.rg ..).trans ((hmove.writes.rg .ENG_FLAGS_CARRY e (by decide)).trans
      (Dev.setZC_carry ..)))
  · exact (ht.rg _ (by decide)).trans ((hresume.rg ..).trans ((hmove.writes.rg .ENG_FLAGS_ZERO e (by decide)).trans
      (Dev.setZC_zero ..)))

/-- From `x` the instruction in progress has ended in `t`, which issued at `d`: only where the engine stands has changed. -/
structure Dev.Ended (e : Nat) (d x t : Dev) : Prop where
  act  : (t.eng e).act = none
  next : PcNext d t e
  rg   : ∀ f, Field.ENG_PC_ADDR ≠ f → t.rg f e = x.rg f e
  tick : t.tick = x.tick

theorem Dev.resumed_ended (hbr : (x.eng e).br = (d.eng e).br) (hpc : x.rg .ENG_PC_ADDR e = d.rg .ENG_PC_ADDR e) :
    Dev.Ended e d x ((x.resumeIssue e).finish e) where
  act := Dev.finish_act ..
  next := PcNext.finish ((Dev.modEng_proj x e _ (·.br)).trans hbr) hpc
  rg _ hf := Dev.finish_rg _ e e hf
  tick := Dev.finish_tick ..

theorem Dev.waitOver_ended (hq : iMod w < 0x20) (m : List Host.Cell) (hbr : (x.eng e).br = (d.eng e).br)
    (hpc : x.rg .ENG_PC_ADDR e = d.rg .ENG_PC_ADDR e) : Dev.Ended e d x (x.waitOver m e w) := by
  unfold Dev.waitOver
  simp only [bitOf_of_lt (k := 5) hq, Bool.false_eq_true, if_false, if_true]
  exact Dev.resumed_ended hbr hpc

section
variable (hact : (d.eng e).act = some w) (hgo : d.goesOn e = true) (hrec : (d.eng e).recov = none) (hwait : isWait w = true)
  (hq : iMod w < 0x20)
include hact hgo hrec hwait hq

/-- A wait whose condition is met ends now (R224). -/
theorem Dev.waitEnd_of_met {ev : Option Nat} (hmet : d.waitMet e w = some (true, ev)) (m : List Host.Cell) :
    d.waitEnd m e = d.waitDone m e w ev false := by
  have hcatch := Dev.catchUp_of_no_rows hact (isEmit_of_isWait hwait) (isHoldEmit_of_quiet hwait hq) m d.tick
  unfold Dev.waitEnd
  simp [hact, hrec, hmet, hcatch, hgo]

/-- An EVWAIT without its event ends at its limit (R224). -/
theorem Dev.waitEnd_of_limit (hcls : iCls w = 10) (hop : iOp w = 4) (hev : d.eventFlag e = false) (hlim : d.prog e 0 ≠ 0)
    (m : List Host.Cell) :
    d.waitEnd m e = (d.advanceTo (d.tickOfNs (d.prog e 0))).waitDone m e w none true := by
  have hcatch := Dev.catchUp_of_no_rows hact (isEmit_of_isWait hwait) (isHoldEmit_of_quiet hwait hq) m
    (d.tickOfNs (d.prog e 0))
  have hmet : d.waitMet e w = some (false, none) := by simp [Dev.waitMet, hcls, hop, hev]
  have htime : d.waitTime e w = some (d.prog e 0) := by simp [Dev.waitTime, hcls, hlim]
  have hev' : (d.advanceTo (d.tickOfNs (d.prog e 0))).eventFlag e = false := by
    simpa [Dev.eventFlag, Dev.advanceTo_rg] using hev
  have hmet' : (d.advanceTo (d.tickOfNs (d.prog e 0))).waitMet e w = some (false, none) := by
    simp [Dev.waitMet, hcls, hop, hev']
  have hgo' : (d.advanceTo (d.tickOfNs (d.prog e 0))).goesOn e = true := by
    simpa [Dev.goesOn, Dev.estate, Dev.advanceTo_rg, Dev.advanceTo_eng] using hgo
  unfold Dev.waitEnd
  simp [hact, hrec, hmet, htime, hcatch, hgo', hmet']

end

section
variable {e : EngId} (hact : (s.dev.eng e).act = some w) (hgo : s.dev.goesOn e = true) (hrec : (s.dev.eng e).recov = none)
  (hq : iMod w < 0x20)
include hact hgo hrec hq

/-- TWAIT ends as device time reaches its target (R225). -/
theorem completes_twait_end (hcls : iCls w = 7) (hop : iOp w = 1) (hmet : s.dev.prog e 1 ≤ s.dev.nowNs) :
    Completes (.waitEnd e) s (fun t => ((t.dev.eng e).act = none ∧ PcNext s.dev t.dev e) ∧
      t.dev.rg .ENG_FLAGS_ZERO e = 0 ∧ t.dev.rg .ENG_FLAGS_CARRY e = 0) := by
  have hmet' : s.dev.waitMet e w = some (true, none) := by simp [Dev.waitMet, hcls, hop, hmet]
  have hdone : s.dev.waitDone s.mem e w none false = (s.dev.setZC e 0 0).waitOver s.mem e w := by
    simp [Dev.waitDone, hcls, hop, Dev.setZC, b2n]
  have hended := Dev.waitOver_ended (d := s.dev) (x := s.dev.setZC e 0 0) (e := e) hq s.mem rfl (Dev.setZC_pc ..)
  refine Completes.onDev rfl ?_
  rw [Dev.waitEnd_of_met hact hgo hrec (by simp [isWait, hcls, hop]) hq hmet', hdone]
  exact ⟨⟨hended.act, hended.next⟩, (hended.rg _ (by decide)).trans (Dev.setZC_zero ..),
    (hended.rg _ (by decide)).trans (Dev.setZC_carry ..)⟩

/-- A wait for an event that it consumes ends with ZERO 0 (R225, R228). -/
theorem completes_event_end {k : Nat} (hwait : isWait w = true) (hcls : iCls w ≠ 7 ∨ iOp w ≠ 1)
    (hmet : s.dev.waitMet e w = some (true, some k)) :
    Completes (.waitEnd e) s (fun t => ((t.dev.eng e).act = none ∧ PcNext s.dev t.dev e) ∧
      t.dev.rg .ENG_FLAGS_ZERO e = 0 ∧
      t.dev.rg .ENG_EV_PEND_PEND e = setBits (s.dev.rg .ENG_EV_PEND_PEND e) k 1 0 % 2 ^ 16) := by
  have hdone : s.dev.waitDone s.mem e w (some k) false =
      ((s.dev.clearEv e k).st .ENG_FLAGS_ZERO e 0).waitOver s.mem e w := by
    have hno : ¬(iCls w = 7 ∧ iOp w = 1) := fun h => hcls.elim (· h.1) (· h.2)
    simp [Dev.waitDone, hno, b2n]
  have hended := Dev.waitOver_ended (d := s.dev) (x := (s.dev.clearEv e k).st .ENG_FLAGS_ZERO e 0) (e := e) hq s.mem rfl
    ((Dev.rg_st_ne _ _ _ _ (by decide)).trans (Dev.rg_st_ne _ _ _ _ (by decide)))
  refine Completes.onDev rfl ?_
  rw [Dev.waitEnd_of_met hact hgo hrec hwait hq hmet, hdone]
  exact ⟨⟨hended.act, hended.next⟩, (hended.rg _ (by decide)).trans (Dev.rg_st_self ..),
    (hended.rg _ (by decide)).trans ((Dev.rg_st_ne _ _ _ _ (by decide)).trans (Dev.rg_st_self ..))⟩

/-- EVWAIT ends on an enabled event that is pending, and leaves it (R230). -/
theorem completes_evwait_end (hcls : iCls w = 10) (hop : iOp w = 4) (hev : s.dev.eventFlag e = true) :
    Completes (.waitEnd e) s (fun t => ((t.dev.eng e).act = none ∧ PcNext s.dev t.dev e) ∧
      t.dev.rg .ENG_FLAGS_ZERO e = 0 ∧ t.dev.rg .ENG_EV_PEND_PEND e = s.dev.rg .ENG_EV_PEND_PEND e) := by
  have hmet : s.dev.waitMet e w = some (true, none) := by simp [Dev.waitMet, hcls, hop, hev]
  have hdone : s.dev.waitDone s.mem e w none false = (s.dev.st .ENG_FLAGS_ZERO e 0).waitOver s.mem e w := by
    simp [Dev.waitDone, hcls, b2n]
  have hended := Dev.waitOver_ended (d := s.dev) (x := s.dev.st .ENG_FLAGS_ZERO e 0) (e := e) hq s.mem rfl
    (Dev.rg_st_ne _ _ _ _ (by decide))
  refine Completes.onDev rfl ?_
  rw [Dev.waitEnd_of_met hact hgo hrec (by simp [isWait, hcls, hop]) hq hmet, hdone]
  exact ⟨⟨hended.act, hended.next⟩, (hended.rg _ (by decide)).trans (Dev.rg_st_self ..),
    (hended.rg _ (by decide)).trans (Dev.rg_st_ne _ _ _ _ (by decide))⟩

/-- EVWAIT meets its limit: it ends then with ZERO and TIMEOUT (R224). -/
theorem completes_evwait_limit (hcls : iCls w = 10) (hop : iOp w = 4) (hev : s.dev.eventFlag e = false)
    (hlim : s.dev.prog e 0 ≠ 0) : Completes (.waitEnd e) s (fun t =>
      ((t.dev.eng e).act = none ∧ PcNext s.dev t.dev e) ∧ t.dev.rg .ENG_FLAGS_ZERO e = 1 ∧
      (t.dev.rg .ENG_EV_PEND_PEND e).testBit 1 ∧ t.dev.tick = max s.dev.tick (s.dev.tickOfNs (s.dev.prog e 0))) := by
  set a := s.dev.advanceTo (s.dev.tickOfNs (s.dev.prog e 0)) with ha
  have hdone : a.waitDone s.mem e w none true = ((a.st .ENG_FLAGS_ZERO e 1).raise e 1).waitOver s.mem e w := by
    simp [Dev.waitDone, hcls, b2n]
  have hraise := (Dev.raise_frame (a.st .ENG_FLAGS_ZERO e 1) e 1).writes
  have hruns : (a.st .ENG_FLAGS_ZERO e 1).runs e = true :=
    (Dev.runs_congr ((Dev.rg_st_ne _ _ _ _ (by decide)).trans (Dev.advanceTo_rg ..))).trans (Dev.runs_of_goesOn hgo hrec)
  have hbr : (((a.st .ENG_FLAGS_ZERO e 1).raise e 1).eng e).br = (s.dev.eng e).br :=
    (Dev.raiseOne_proj _ e 1 _ (·.br) fun _ _ => rfl).trans (congrArg Eng.br (Dev.advanceTo_eng ..))
  have hpc : ((a.st .ENG_FLAGS_ZERO e 1).raise e 1).rg .ENG_PC_ADDR e = s.dev.rg .ENG_PC_ADDR e :=
    (hraise.rg .ENG_PC_ADDR e (by decide)).trans ((Dev.rg_st_ne _ _ _ _ (by decide)).trans (Dev.advanceTo_rg ..))
  have hended := Dev.waitOver_ended hq s.mem hbr hpc
  refine Completes.onDev rfl ?_
  rw [Dev.waitEnd_of_limit hact hgo hrec (by simp [isWait, hcls, hop]) hq hcls hop hev hlim, hdone]
  refine ⟨⟨hended.act, hended.next⟩, ?_, ?_, hended.tick.trans (hraise.tick.trans (Dev.advanceTo_tick ..))⟩
  · exact (hended.rg _ (by decide)).trans ((hraise.rg .ENG_FLAGS_ZERO e (by decide)).trans (Dev.rg_st_self ..))
  · rw [hended.rg _ (by decide)]
    exact Dev.raiseOne_pending hruns (by decide) _

end

/-! ## FENCE -/

theorem Issues.completes_fence {e : EngId} (h : Issues s e 6 3 w d) : Completes (.fence e) s (fun t =>
    (t.dev.eng e).act = some w ∧ ((d.eng e).resumed = false → (t.dev.eng e).waitFrom = d.tick) ∧
      t.dev.rg .ENG_PC_ADDR e = d.rg .ENG_PC_ADDR e) := by
  have hb := Dev.begin_begins d e w
  refine h.completes_settled (body := Dev.bodyFence) rfl hb.clean fun t _ hs => ?_
  have hholds := Dev.Holds.of_settles hs
  refine ⟨hholds.act.trans hb.act, fun hf => hholds.from_.trans (hb.from_.trans ?_), (hs.rg ..).trans (hb.key _)⟩
  simp [hf]

/-- FENCE ends when its engine's writes are complete (R223). -/
theorem completes_fence_end {e : EngId} (hact : (s.dev.eng e).act = some w) (hcls : iCls w = 6) (hop : iOp w = 3) :
    Completes (.fenceComplete e) s (fun t => (t.dev.eng e).act = none ∧ PcNext s.dev t.dev e) := by
  have hended := Dev.resumed_ended (d := s.dev) (x := s.dev) (e := e) rfl rfl
  refine Completes.onDev rfl ?_
  unfold Dev.fenceComplete
  rw [hact]
  dsimp only
  rw [if_pos ⟨hcls, hop⟩]
  exact ⟨hended.act, hended.next⟩

/-! ## The clauses -/

/-- Settles O14: a wait that begins by what it sets and keeps, one that ends by what meets it. -/
theorem waits : Obligations.Waits := by
  unfold Obligations.Waits
  intro s e w d
  refine ⟨?reached, ?later, ?target, ?resumed, ?swait, ?trgw, ?evwait, ?fence, ?twaitEnd, ?swaitEnd, ?trgwEnd, ?evwaitEnd,
    ?evwaitLimit, ?fenceEnd⟩
  case reached => exact fun h hf hrow hle k => h.completes_twait_reached hf hrow hle k
  case later =>
    exact fun h hf hlt => h.waitHolds (c := (.twait e ·)) (body := Dev.bodyTwait) (fun _ _ => rfl)
      (by simp [isWait, h.2.1, h.2.2.1]) (Dev.bodyTwait_of_later (.inr hlt) s.mem) (Dev.twaitSet_progOnly d e w)
      fun hr => absurd (hf.symm.trans hr) (by simp)
  case target =>
    intro h hf hlt
    obtain ⟨htarget, hgen⟩ := Dev.twait_target hf w
    exact h.completes_wait (c := (.twait e ·)) (body := Dev.bodyTwait) (fun _ _ => rfl)
      (by simp [isWait, h.2.1, h.2.2.1]) (Dev.bodyTwait_of_later (.inr hlt) s.mem) (Dev.twaitSet_progOnly d e w) (.inl rfl)
      fun t _ ht => ⟨(ht.prog 1).trans htarget, (ht.prog 2).trans hgen⟩
  case resumed =>
    intro h hf
    have hr : (d.eng e).resumed = true := by simpa using hf
    have hset : d.twaitSet e w = d := by simp [Dev.twaitSet, hr]
    exact h.waitHolds (c := (.twait e ·)) (body := Dev.bodyTwait) (fun _ _ => rfl)
      (by simp [isWait, h.2.1, h.2.2.1]) (Dev.bodyTwait_of_later (.inl hr) s.mem) (Dev.twaitSet_progOnly d e w)
      fun _ => by rw [hset]
  case swait =>
    exact fun h => h.waitHolds (c := (.swait e ·)) (body := Dev.bodySwait) (fun _ _ => rfl)
      (by simp [isWait, h.2.1, h.2.2.1]) rfl ⟨.refl _ d, rfl⟩ fun _ => rfl
  case trgw =>
    exact fun h => h.waitHolds (c := (.trgw e ·)) (body := Dev.bodyTrgw) (fun _ _ => rfl)
      (by simp [isWait, h.2.1, h.2.2.1]) rfl ⟨.refl _ d, rfl⟩ fun _ => rfl
  case evwait =>
    exact fun h => h.waitHolds (c := (.evwait e ·)) (body := Dev.bodyEvwait) (fun _ _ => rfl)
      (by simp [isWait, h.2.1, h.2.2.1]) rfl ⟨.refl _ d, rfl⟩ fun _ => rfl
  case fence => exact fun h => h.completes_fence
  case twaitEnd =>
    exact fun ⟨hact, hgo, hrec, hq⟩ hcls hop hmet => completes_twait_end hact hgo hrec hq hcls hop hmet
  case swaitEnd =>
    intro ⟨hact, hgo, hrec, hq⟩ hcls hop hmet
    exact completes_event_end hact hgo hrec hq (by simp [isWait, hcls, hop]) (.inr (by simp [hop]))
      (by simp [Dev.waitMet, hcls, hop, hmet])
  case trgwEnd =>
    intro ⟨hact, hgo, hrec, hq⟩ hcls hop hmet
    exact completes_event_end hact hgo hrec hq (by simp [isWait, hcls, hop]) (.inl (by simp [hcls]))
      (by simp [Dev.waitMet, hcls, hop, hmet])
  case evwaitEnd =>
    exact fun ⟨hact, hgo, hrec, hq⟩ hcls hop hev => completes_evwait_end hact hgo hrec hq hcls hop hev
  case evwaitLimit =>
    exact fun ⟨hact, hgo, hrec, hq⟩ hcls hop hev hlim => completes_evwait_limit hact hgo hrec hq hcls hop hev hlim
  case fenceEnd => exact completes_fence_end

end Sys2Proof.Machine
end

section
/-!
An instruction of more words that issues with a clean control store: no recovery stands, and its operands are those that
were judged (R231, R242, R245).
-/

namespace Sys2Proof.Machine

variable {s : State} {e w cls op : Nat} {d t : Dev} {body : Body}

/-! ## Stored words without errors begin no recovery -/

theorem Dev.careRead_of_no_errs (h : (d.eng e).storeErr = []) (w : Nat × Nat) :
    d.careRead e false w = (false, none, d) := by
  simp [Dev.careRead, Eng.wrongBits_nil h, judge]

theorem Dev.microNext_recov (d : Dev) (e w : Nat) : ((d.microNext e w).eng e).recov = (d.eng e).recov := by
  obtain ⟨a, b, h⟩ := Dev.microNext_eng d e w
  rw [h]

theorem Dev.careWord_recov (h : (d.eng e).storeErr = []) (hr : (d.eng e).recov = none) (w : Nat) (a b : Nat × Nat) :
    ((d.careWord e w [] [a, b]).2.eng e).recov = none := by
  have hm : ∀ (x : Dev) (i j k l m : Nat), x.mcRecords e [] i j k l m = x := fun _ _ _ _ _ _ => rfl
  unfold Dev.careWord
  simp only [List.foldl_cons, List.foldl_nil, List.contains_nil, Dev.careRead_of_no_errs h, Bool.or_false,
    Option.toList_none, List.append_nil, Bool.false_eq_true, if_false, hm, ite_self]
  refine (Dev.microNext_recov ..).trans ((Dev.modEng_proj _ e _ (·.recov)).trans ?_)
  dsimp only
  rw [hr]
  rfl

/-- A microword whose stored bits are right begins no recovery (R242). -/
theorem Dev.micro_recov {n : Nat} (h : (d.eng e).storeErr = []) (hr : (d.eng e).recov = none)
    (hword : (d.micro e w n).1 = true) : ((d.micro e w n).2.eng e).recov = none := by
  revert hword
  unfold Dev.micro
  simp only [Eng.wrongBits_nil h, parityFails_nil]
  split
  · exact fun hword => absurd hword Bool.false_ne_true
  · rw [if_neg (by simp)]
    split
    · exact fun _ => Dev.careWord_recov h hr ..
    · exact fun _ => (Dev.microNext_recov ..).trans ((congrArg Eng.recov (Dev.eng_setEng_self ..)).trans hr)

theorem Dev.micros_recov (w : Nat) : ∀ (n k : Nat) {d : Dev}, d.storeClean e → (d.eng e).recov = none →
    ((d.micros e w n k).2.eng e).recov = none
  | _, 0, _, _, hr => hr
  | n, k + 1, d, hc, hr => by
    have hword := Dev.micro_clean hc w (k + 1 + n)
    unfold Dev.micros
    dsimp only
    rw [if_pos hword.1]
    exact Dev.micros_recov w n k (hword.2.clean hc) (Dev.micro_recov hc.1 hr hword.1)

theorem Dev.started_recov (hr : (d.eng e).recov = none) (w : Nat) : ((d.started e w).eng e).recov = none := by
  have hflag : ((d.modEng e (fun x => { x with resumed := x.resumed && (iCls w == 0 && iOp w == 7) })).eng e).recov = none :=
    (Dev.modEng_proj _ e _ (·.recov)).trans hr
  unfold Dev.started
  dsimp only
  split
  · exact hflag
  · refine (Dev.modEng_proj _ e _ (·.recov)).trans ?_
    rw [hflag]
    rfl

/-! ## The block at the issue -/

theorem Dev.issueTime_recov (d : Dev) (e w : Nat) : ((d.issueTime e w).eng e).recov = (d.eng e).recov ∧
    ((d.issueTime e w).eng e).storeErr = (d.eng e).storeErr := by
  have heng := Dev.advanceTo_eng d (max (nextCycle d.tick) (d.eng e).free) e
  have hrecov := congrArg Eng.recov heng
  have hstore := congrArg Eng.storeErr heng
  exact ⟨(Dev.modEng_proj _ e _ (·.recov)).trans hrecov, (Dev.modEng_proj _ e _ (·.storeErr)).trans hstore⟩

/-- What an issue has judged: the block before what an interruption kept is taken up; it was not ILLEGAL, and with the
stored words right no recovery stands. -/
theorem Issues.judged (h : Issues s e cls op w d) : ∃ b : Dev, d = b.resumeHeld e w ∧ b.illegal e w = false ∧
    ((b.eng e).storeErr = [] → (b.eng e).recov = none) := by
  have h := h.1
  unfold State.issuing at h
  split at h
  next hi =>
    have hr : (s.dev.eng e).recov = none := by
      unfold Dev.canIssue at hi
      simp only [Bool.and_eq_true, Option.isNone_iff_eq_none] at hi
      exact hi.1.1.2
    split at h
    next w' d' hf =>
      split at h
      next d1 hs =>
        split at h
        next => exact absurd h (by simp)
        next hl =>
          obtain ⟨rfl, rfl⟩ := Prod.mk.inj (Option.some.inj h)
          refine ⟨d1, rfl, by simpa using hl, fun hstore => ?_⟩
          have hfetch : d'.eng e = s.dev.eng e := by
            rw [show d' = (s.dev.fetch s.mem e).2 by rw [hf]]
            exact (Dev.readBytes_reports ..).eng e
          obtain ⟨hrecov, -⟩ := Dev.issueTime_recov d' e w'
          have hword : ((d'.issueTime e w').micro e w' (d'.startWords e w' - 1 + b2n (d'.emitsNext e w') + 1)).1 = true := by
            rw [hs]
          have hchecks := Dev.micro_checks hword
          have hnone := fun hb => Dev.micro_recov hb (hrecov.trans ((congrArg Eng.recov hfetch).trans hr)) hword
          rw [hs] at hchecks hnone
          exact hnone ((hchecks.proj (·.storeErr) fun _ _ _ _ _ _ _ _ => rfl).symm.trans hstore)
      next => exact absurd h (by simp)
    next => exact absurd h (by simp)
  next => exact absurd h (by simp)

/-- An instruction that issues with a clean control store finds no recovery. -/
theorem Issues.recov (h : Issues s e cls op w d) (hc : d.storeClean e) : (d.eng e).recov = none := by
  obtain ⟨b, rfl, -, hnone⟩ := h.judged
  obtain ⟨-, _, _, _, heng⟩ := Dev.resumeHeld_keeps b e w
  have hstore := hc.1
  rw [heng] at hstore ⊢
  exact hnone hstore

/-- An instruction that issues fresh is not ILLEGAL at its operands (R231). -/
theorem Issues.operands (h : Issues s e cls op w d) (hf : (d.eng e).resumed = false) : d.stateIllegal e w = false := by
  obtain ⟨b, rfl, hlegal, -⟩ := h.judged
  obtain ⟨-, _, _, _, heng⟩ := Dev.resumeHeld_keeps b e w
  have hfresh : (b.eng e).resumed = false := by
    rw [heng] at hf
    exact hf
  have hsame : b.resumeHeld e w = b := by simp [Dev.resumeHeld, hfresh]
  rw [hsame]
  unfold Dev.illegal at hlegal
  exact (Bool.or_eq_false_iff.1 hlegal).2

/-- An instruction of more words issues with a clean control store. -/
theorem Issues.clean (h : Issues s e cls op w d) (hwords : ∀ b : Dev, b.startWords e w ≠ 1) : d.storeClean e :=
  h.2.2.2.resolve_left (hwords _)

/-- No recovery begins where the body leaves none and a clean control store. -/
theorem Issues.issue_recov (h : Issues s e cls op w d) (hc : (body s.mem d e w).storeClean e)
    (hr : ((body s.mem d e w).eng e).recov = none) : ((s.dev.issue s.mem e cls op body).eng e).recov = none := by
  obtain ⟨n, k, hissue, -⟩ := h.issue_eq body fun _ => hc
  rw [hissue]
  exact Dev.started_recov (Dev.micros_recov w n k hc hr) w

end Sys2Proof.Machine
end

section
/-!
What a block operation meets in the DRAM: lines, words and their marks, as other registers change (R220, R221, R365, R446).
-/

namespace Sys2Proof.Machine

variable {d t b : Dev} {e x n : Nat} {m : List Host.Cell}

/-! ## The DRAM as before -/

/-- Fields that a block operation writes before its data move: its progress, its flags, and those of a report. -/
def blockFields : List Field := [.ENG_PROG, .ENG_FLAGS_ZERO, .ENG_FLAGS_CARRY, .ENG_PC_ADDR] ++ reportFields

/-- What a request to the DRAM meets is as before: the words and their marks, the blocks written ahead, the active AWG lines,
and every register but those of `blockFields`. -/
structure Dev.SameDram (d t : Dev) : Prop where
  words : Dev.SameWords d t
  ahead : t.ahead = d.ahead
  awgs  : t.awgs = d.awgs
  key   : ∀ j : RegKey, j.f ∉ blockFields → t.key j = d.key j

namespace Dev.SameDram

theorem refl (d : Dev) : Dev.SameDram d d := ⟨.refl d, rfl, rfl, fun _ _ => rfl⟩

theorem trans (h : Dev.SameDram d t) (h' : Dev.SameDram t b) : Dev.SameDram d b :=
  ⟨h.words.trans h'.words, h'.ahead.trans h.ahead, h'.awgs.trans h.awgs, fun j hj => (h'.key j hj).trans (h.key j hj)⟩

theorem of_settles (h : Settles e d t) : Dev.SameDram d t := by
  have hrest := h.rest
  refine ⟨⟨?_, ?_, ?_⟩, ?_, ?_, fun j _ => h.key j⟩ <;> rw [hrest]

theorem advanceTo (d : Dev) (k : Nat) : Dev.SameDram d (d.advanceTo k) :=
  ⟨.advanceTo d k, Dev.advanceTo_ahead .., Dev.advanceTo_awgs .., fun j _ => Dev.advanceTo_key d k j⟩

theorem sti {f : Field} (d : Dev) (u i v : Nat) (hf : f ∈ blockFields) : Dev.SameDram d (d.sti f u i v) :=
  ⟨⟨rfl, rfl, rfl⟩, rfl, rfl, fun _ hj => Dev.key_sti_ne d u i v fun h => hj (h ▸ hf)⟩

theorem modEng (d : Dev) (u : Nat) (g : Eng → Eng) : Dev.SameDram d (d.modEng u g) :=
  ⟨⟨rfl, rfl, rfl⟩, rfl, rfl, fun _ _ => rfl⟩

theorem rg (h : Dev.SameDram d t) (f : Field) (u : Nat) (hf : f ∉ blockFields) : t.rg f u = d.rg f u := h.key ⟨f, u, 0⟩ hf

theorem rgi (h : Dev.SameDram d t) (f : Field) (u i : Nat) (hf : f ∉ blockFields) : t.rgi f u i = d.rgi f u i :=
  h.key ⟨f, u, i⟩ hf

theorem on (h : Dev.SameDram d t) (f : Field) (u : Nat) (hf : f ∉ blockFields) : t.on f u = d.on f u :=
  congrArg (· == 1) (h.rg f u hf)

theorem portLines (h : Dev.SameDram d t) (p : Nat) : t.portLines p = d.portLines p := by
  simp only [Dev.portLines, Dev.rankLines, h.on .DRC_CFG_POP p (by decide), h.rg .DRC_CFG_DENS p (by decide),
    h.rg .DRC_CFG_RANKS p (by decide)]

theorem lineAt (h : Dev.SameDram d t) (l : Nat) : t.lineAt l = d.lineAt l := by
  simp only [Dev.lineAt, h.on .DRC_CFG_INTLV 0 (by decide), h.portLines]

theorem dramPath (h : Dev.SameDram d t) (l : Nat) : t.dramPath l = d.dramPath l := by
  simp only [Dev.dramPath, h.lineAt, fun p => h.rg .DRC_STAT_STATE p (by decide), h.rg .HOST_READY_THIMBLE 0 (by decide)]

theorem writePath (h : Dev.SameDram d t) (l : Nat) : t.writePath l = d.writePath l := by
  simp only [Dev.writePath, h.lineAt, h.dramPath, fun p => h.on .DRC_ZERO_ACTIVE p (by decide),
    fun p => h.rg .DRC_ZERO_WM p (by decide), h.ahead]

theorem sealed (h : Dev.SameDram d t) (l : Nat) : t.sealed l = d.sealed l := by
  simp only [Dev.sealed, fun i => h.rgi .SEC_REG_CTRL_ACTIVE 0 i (by decide),
    fun i => h.rgi .SEC_REG_BASE_LINE 0 i (by decide), fun i => h.rgi .SEC_REG_CTRL_LINES 0 i (by decide)]

theorem unzeroed (h : Dev.SameDram d t) (l : Nat) : t.unzeroed l = d.unzeroed l := by
  simp only [Dev.unzeroed, h.lineAt, fun p => h.on .DRC_ZERO_ACTIVE p (by decide),
    fun p => h.rg .DRC_ZERO_WM p (by decide), h.ahead]

theorem awgGuard (h : Dev.SameDram d t) (l : Nat) : t.awgGuard l = d.awgGuard l := by
  simp only [Dev.awgGuard, Dev.awg, h.awgs, fun g => h.on .AWG_CTRL_COMPLEX g (by decide)]

theorem blkPath (h : Dev.SameDram d t) (x : Nat) : t.blkPath x = d.blkPath x := by
  simp only [Dev.blkPath, h.sealed, h.dramPath]

theorem blkInto (h : Dev.SameDram d t) (x : Nat) : t.blkInto x = d.blkInto x := by
  simp only [Dev.blkInto, h.sealed, h.writePath]

/-- A register below the special ones is none that a block operation writes. -/
theorem reg (h : Dev.SameDram d t) {sp : Nat} (hsp : sp < 0x34) : t.reg e sp = d.reg e sp := by
  unfold Dev.reg
  split
  · exact h.rgi .ENG_G e sp (by decide)
  · split
    · exact h.rgi .ENG_L e _ (by decide)
    · split
      · exact h.rg .ENG_XA e (by decide)
      · exact h.rg .ENG_YA e (by decide)
      · exact h.rg .ENG_DG e (by decide)
      · exact h.rg .ENG_VP e (by decide)
      all_goals omega

end Dev.SameDram

/-! ## Reports leave it -/

theorem Dev.report_ahead_awgs (d : Dev) (k : ErrKind) (a cons : Nat) (l : List Nat) :
    (d.report k a cons l).ahead = d.ahead ∧ (d.report k a cons l).awgs = d.awgs := by
  have hfold : ∀ (g : Dev → Nat → Dev), (∀ b n, (g b n).ahead = b.ahead ∧ (g b n).awgs = b.awgs) → ∀ (l : List Nat) (b : Dev),
      (l.foldl g b).ahead = b.ahead ∧ (l.foldl g b).awgs = b.awgs := by
    intro g hg l
    induction l with
    | nil => exact fun _ => ⟨rfl, rfl⟩
    | cons n l ih => exact fun b => ⟨(ih _).1.trans (hg b n).1, (ih _).2.trans (hg b n).2⟩
  have hlog : ∀ (b : Dev) (x c u p : Nat), (b.logEv x c u p).ahead = b.ahead ∧ (b.logEv x c u p).awgs = b.awgs :=
    fun b x c u p => ⟨Dev.logEv_ahead .., Dev.logEv_awgs ..⟩
  unfold Dev.report
  dsimp only
  split
  · cases k with
    | ce =>
      obtain ⟨hahead, hawgs⟩ := hlog d (d.place a).1 1 (d.place a).2.1
        ((d.place a).2.2 % 2 ^ 38 + symMask l * 2 ^ 38 + cons * 2 ^ 74)
      refine (hfold _ (fun b n => ?_) l _).imp (·.trans hahead) (·.trans hawgs)
      generalize 36 * _ + n = i
      split
      · exact (hlog ..).imp (·.trans (Dev.irq_ahead ..)) (·.trans (Dev.irq_awgs ..))
      · exact ⟨rfl, rfl⟩
    | ue => exact hlog ..
    | poisonSeen => exact hlog ..
    | dupMismatch => exact hlog ..
  · exact hlog ..

theorem Dev.report_sameDram (d : Dev) (k : ErrKind) (a cons : Nat) (l : List Nat) :
    Dev.SameDram d (d.report k a cons l) := by
  have hkey := (Dev.report_reports d k a cons l).key
  obtain ⟨hahead, hawgs⟩ := Dev.report_ahead_awgs d k a cons l
  exact ⟨.report d k a cons l, hahead, hawgs, fun j hj => hkey j fun hr => hj (List.mem_append_right _ hr)⟩

/-! ## The code word that holds a byte -/

/-- A word of the DRAM that is readable is read with reports alone: a corrected word stays there as it is (R32). -/
theorem Dev.readWord_sameDram {w cons : Nat} (hw : inDram (w / 16 * 16) = true)
    (hread : (d.readWord m cons w).1.isNone = false) : Dev.SameDram d (d.readWord m cons w).2 := by
  revert hread
  unfold Dev.readWord
  dsimp only
  cases d.decode m (w / 16 * 16) with
  | clean => exact fun _ => .refl d
  | fixed l =>
    intro _
    have hback : d.wroteBack (w / 16 * 16) = d := by simp [Dev.wroteBack, hw]
    dsimp only
    rw [hback]
    exact Dev.report_sameDram ..
  | wrong v l =>
    intro _
    dsimp only
    split
    · exact .refl d
    · exact Dev.report_sameDram ..
  | bad => exact fun h => absurd h (by simp)
  | poisoned => exact fun h => absurd h (by simp)

/-- Bytes inside one code word are a part of that word. -/
theorem Dev.readBytes_inWord {a cons : Nat} (hn : 0 < n) (hn' : n ≤ 16 - a % 16) (d : Dev) (m : List Host.Cell) :
    d.readBytes m cons a n = (((leBytes 16 ((d.readWord m cons (a / 16 * 16)).1.getD (wordAt m (a / 16 * 16)))).drop
      (a % 16)).take n, (d.readWord m cons (a / 16 * 16)).1.isNone, (d.readWord m cons (a / 16 * 16)).2) := by
  have hcount : (a + n - 1) / 16 - a / 16 + 1 = 1 := by omega
  have hoff : a - a / 16 * 16 = a % 16 := by omega
  unfold Dev.readBytes
  simp only [if_neg hn.ne', hcount, Dev.readWords, hoff, List.append_nil, Bool.or_false]

/-- What a port gives of bytes inside one code word (R382). -/
theorem Dev.portRead_inWord {cons : Nat} (hn : 0 < n) (hn' : n ≤ 16 - x % 16) (hx : x < 2 ^ 38) (d : Dev)
    (m : List Host.Cell) : (d.portRead m cons x n).1.length = n ∧ Reports d (d.portRead m cons x n).2.2 ∧
      ((d.portRead m cons x n).2.1 = false → Dev.SameDram d (d.portRead m cons x n).2.2) := by
  have hoff : (dramBase + x) % 16 = x % 16 := by
    unfold dramBase
    omega
  unfold Dev.portRead
  split
  · exact ⟨List.length_replicate, .refl d, fun _ => .refl d⟩
  · have hdram : inDram ((dramBase + x) / 16 * 16 / 16 * 16) = true := by
      unfold inDram dramBase
      simp only [Bool.and_eq_true, decide_eq_true_eq]
      omega
    rw [Dev.readBytes_inWord hn (by omega)]
    refine ⟨?_, Dev.readWord_reports .., fun hread => Dev.readWord_sameDram hdram hread⟩
    rw [List.length_take, List.length_drop, leBytes_length]
    omega

/-- The port gives the same bytes of a code word while the DRAM is as before. -/
theorem Dev.SameDram.portRead {cons : Nat} (h : Dev.SameDram d t) (hn : 0 < n) (hn' : n ≤ 16 - x % 16) :
    (t.portRead m cons x n).1 = (d.portRead m cons x n).1 ∧ (t.portRead m cons x n).2.1 = (d.portRead m cons x n).2.1 := by
  have hoff : (dramBase + x) % 16 = x % 16 := by
    unfold dramBase
    omega
  unfold Dev.portRead
  rw [h.unzeroed]
  split
  · exact ⟨rfl, rfl⟩
  · obtain ⟨hword, -⟩ := h.words.readWord m cons ((dramBase + x) / 16 * 16)
    rw [Dev.readBytes_inWord hn (by omega), Dev.readBytes_inWord hn (by omega), hword]
    exact ⟨rfl, rfl⟩

end Sys2Proof.Machine
end

section
/-!
The block operations over DRAM bytes: how they begin, hold and stop, and what an iteration does (R199, R220 to R222).
-/

namespace Sys2Proof.Machine

variable {s : State} {e w cls op k n : Nat} {b d t u x : Dev} {m : List Host.Cell} {body : Body} {two : Option Nat}

/-! ## The instruction begins -/

theorem startWords_of_isBlock (h : isBlock w = true) (d : Dev) (e : Nat) : d.startWords e w ≠ 1 := by
  simp [Dev.startWords, h]

/-- The addresses and the length of a block operation in PROG0 to PROG2 (R199, R220). -/
def Dev.blockProg (d : Dev) (e w : Nat) : Option Nat → Dev
  | none => (d.setProg e 0 (d.pairAddr e w)).setProg e 1 (d.pairLen e w)
  | some a => ((d.setProg e 0 (d.pairAddr e w)).setProg e 1 (d.pairLen e w)).setProg e 2 (a % 2 ^ 38)

theorem Dev.blockProg_stores (d : Dev) (e w : Nat) (two : Option Nat) :
    Dev.SameDram d (d.blockProg e w two) ∧ (d.blockProg e w two).rg .ENG_PC_ADDR e = d.rg .ENG_PC_ADDR e ∧
      (d.blockProg e w two).eng e = d.eng e := by
  have hprog : ∀ (y : Dev) (i v : Nat), Dev.SameDram y (y.setProg e i v) := fun y i v => .sti y e i v (by decide)
  have hpc : ∀ (y : Dev) (i v : Nat), (y.setProg e i v).rg .ENG_PC_ADDR e = y.rg .ENG_PC_ADDR e := fun y i v =>
    Dev.setProg_rg y e i v e (by decide)
  cases two with
  | none => exact ⟨(hprog d 0 _).trans (hprog _ 1 _), (hpc ..).trans (hpc ..), rfl⟩
  | some a =>
    exact ⟨((hprog d 0 _).trans (hprog _ 1 _)).trans (hprog _ 2 _), (hpc ..).trans ((hpc ..).trans (hpc ..)), rfl⟩

theorem Dev.blockProg_prog (d : Dev) (e w : Nat) (two : Option Nat) :
    (d.blockProg e w two).prog e 0 = d.reg e (iRs w) % 2 ^ 38 ∧
      (d.blockProg e w two).prog e 1 = d.reg e (iRs w + 1) % 2 ^ 64 := by
  have haddr : d.reg e (iRs w) % 2 ^ 38 % 2 ^ 64 = d.reg e (iRs w) % 2 ^ 38 := Nat.mod_eq_of_lt (by omega)
  have h0 : ((d.setProg e 0 (d.pairAddr e w)).setProg e 1 (d.pairLen e w)).prog e 0 = d.reg e (iRs w) % 2 ^ 38 :=
    (Dev.setProg_prog_ne _ _ _ (by decide)).trans ((Dev.setProg_prog ..).trans haddr)
  have h1 : ((d.setProg e 0 (d.pairAddr e w)).setProg e 1 (d.pairLen e w)).prog e 1 = d.reg e (iRs w + 1) % 2 ^ 64 :=
    Dev.setProg_prog ..
  cases two with
  | none => exact ⟨h0, h1⟩
  | some a => exact ⟨(Dev.setProg_prog_ne _ _ _ (by decide)).trans h0, (Dev.setProg_prog_ne _ _ _ (by decide)).trans h1⟩

/-- The progress of a block operation is set, or kept where it is resumed (R199, R220). -/
def Dev.blockSet (d : Dev) (e w : Nat) (two : Option Nat) : Dev :=
  if (d.eng e).resumed then d
  else ((d.blockProg e w two).st .ENG_FLAGS_CARRY e 0).modEng e (fun x => { x with blkBad := false })

/-- What an operation finds of its block as it begins: the DRAM, the program counter, and its engine but for the mark of
words that a MOV has seen. -/
structure Dev.BlockSet (e : Nat) (d x : Dev) : Prop where
  dram : Dev.SameDram d x
  pc   : x.rg .ENG_PC_ADDR e = d.rg .ENG_PC_ADDR e
  eng  : ∃ f, x.eng e = { d.eng e with blkBad := f }

theorem Dev.blockSet_set (d : Dev) (e w : Nat) (two : Option Nat) : Dev.BlockSet e d (d.blockSet e w two) := by
  obtain ⟨hdram, hpc, heng⟩ := Dev.blockProg_stores d e w two
  unfold Dev.blockSet
  split
  · exact ⟨.refl d, rfl, (d.eng e).blkBad, rfl⟩
  · refine ⟨(hdram.trans (.sti _ e 0 0 (by decide))).trans (.modEng _ e _), ?_, false, ?_⟩
    · exact (Dev.rg_st_ne _ _ _ _ (by decide)).trans hpc
    · rw [Dev.modEng_eng_self, ← heng]
      rfl

namespace Dev.BlockSet

theorem proj {α : Type} (h : Dev.BlockSet e d x) (f : Eng → α) (hf : ∀ y v, f { y with blkBad := v } = f y) :
    f (x.eng e) = f (d.eng e) := by
  obtain ⟨_, heng⟩ := h.eng
  rw [heng, hf]

theorem clean (h : Dev.BlockSet e d x) (hc : d.storeClean e) : x.storeClean e :=
  hc.of_same (h.proj (·.storeErr) fun _ _ => rfl) (h.dram.rg .ENG_MC_STAT_LISTCNT e (by decide))

end Dev.BlockSet

/-- A fresh operation starts at its addresses and length, with CARRY 0 (R220). -/
structure Dev.FreshBlock (e w : Nat) (d x : Dev) : Prop where
  addr  : x.prog e 0 = d.reg e (iRs w) % 2 ^ 38
  len   : x.prog e 1 = d.reg e (iRs w + 1) % 2 ^ 64
  carry : x.rg .ENG_FLAGS_CARRY e = 0
  bad   : (x.eng e).blkBad = false

theorem Dev.blockSet_fresh (hf : (d.eng e).resumed = false) (w : Nat) (two : Option Nat) :
    Dev.FreshBlock e w d (d.blockSet e w two) := by
  obtain ⟨haddr, hlen⟩ := Dev.blockProg_prog d e w two
  unfold Dev.blockSet
  rw [hf, if_neg Bool.false_ne_true]
  exact ⟨(Dev.st_prog _ e 0 e 0 (by decide)).trans haddr, (Dev.st_prog _ e 0 e 1 (by decide)).trans hlen,
    Dev.rg_st_self _ .ENG_FLAGS_CARRY e 0, Dev.modEng_proj _ e _ (·.blkBad)⟩

/-- The second address of a fresh operation (R220). -/
theorem Dev.blockSet_second (hf : (d.eng e).resumed = false) (w a : Nat) :
    (d.blockSet e w (some a)).prog e 2 = a % 2 ^ 38 := by
  unfold Dev.blockSet
  rw [hf]
  exact (Dev.st_prog _ e 0 e 2 (by decide)).trans ((Dev.setProg_prog ..).trans (Nat.mod_eq_of_lt (by omega)))

theorem Dev.blockSet_resumed (hr : (d.eng e).resumed = true) (w : Nat) (two : Option Nat) : d.blockSet e w two = d :=
  if_pos hr

/-- A fresh operation begins, or, of length 0, ends at once (R220). -/
theorem Dev.beginBlock_fresh (hf : (d.eng e).resumed = false) (w : Nat) (two : Option Nat) : d.beginBlock e w two =
    if d.reg e (iRs w + 1) = 0 then ((d.blockSet e w two).st .ENG_FLAGS_ZERO e 1).finish e
    else (d.blockSet e w two).begin e w := by
  unfold Dev.beginBlock Dev.blockSet
  rw [hf, if_neg Bool.false_ne_true, if_neg Bool.false_ne_true]
  cases two with
  | none => rfl
  | some a => rfl

theorem Dev.beginBlock_begins (h : ¬((d.eng e).resumed = false ∧ d.reg e (iRs w + 1) = 0)) (two : Option Nat) :
    Dev.Begins e w (d.blockSet e w two) (d.beginBlock e w two) := by
  have hbegin : d.beginBlock e w two = (d.blockSet e w two).begin e w := by
    by_cases hf : (d.eng e).resumed = false
    · rw [Dev.beginBlock_fresh hf, if_neg fun hz => h ⟨hf, hz⟩]
    · have hr : (d.eng e).resumed = true := by simpa using hf
      rw [Dev.blockSet_resumed hr]
      exact if_pos hr
  rw [hbegin]
  exact Dev.begin_begins ..

/-! ## The commands of a block operation -/

theorem State.issueBlock_of_idle (hidle : (s.dev.eng e).act = none) (cls op n : Nat) (body : Body) :
    s.issueBlock e cls op n body =
      if (((s.onDev (fun d => d.issue s.mem e cls op body)).dev.eng e).act.any (fun w => iCls w == cls && iOp w == op)) = true
      then (s.onDev (fun d => d.issue s.mem e cls op body)).runBlock e n
      else s.onDev (fun d => d.issue s.mem e cls op body) := by
  unfold State.issueBlock
  rw [hidle]
  rfl

/-- What flags and progress an operation of length 0 leaves (R220). -/
theorem Issues.completes_block_none {c : Instr} (h : Issues s e cls op w d)
    (hx : exec c s = .next (s.issueBlock e cls op k body)) (hbody : body s.mem d e w = d.beginBlock e w two)
    (hf : (d.eng e).resumed = false) (hn : d.reg e (iRs w + 1) = 0) : Completes c s (fun t =>
      (t.dev.rg .ENG_FLAGS_ZERO e = 1 ∧ t.dev.rg .ENG_FLAGS_CARRY e = 0 ∧ PcNext d t.dev e) ∧
      t.dev.prog e 0 = d.reg e (iRs w) % 2 ^ 38 ∧ t.dev.prog e 1 = 0 ∧ t.mem = s.mem) := by
  have hset := Dev.blockSet_set d e w two
  have hfresh := Dev.blockSet_fresh hf w two
  have hbody' := hbody.trans ((Dev.beginBlock_fresh hf w two).trans (if_pos hn))
  have hsettles := Dev.issue_of_issues body h fun _ hc => by
    rw [hbody']
    exact Dev.finish_clean ((hset.clean hc).st e 1 (by decide))
  rw [hbody'] at hsettles
  have hover : ((s.dev.issue s.mem e cls op body).eng e).act = none :=
    (hsettles.proj (·.act) fun _ _ _ _ _ _ _ _ => rfl).trans (Dev.finish_act ..)
  have hkey : ∀ j : RegKey, Field.ENG_PC_ADDR ≠ j.f → (s.dev.issue s.mem e cls op body).key j =
      ((d.blockSet e w two).st .ENG_FLAGS_ZERO e 1).key j := fun j hj => (hsettles.key j).trans (Dev.finish_key _ e hj)
  refine ⟨_, hx, ?_⟩
  rw [State.issueBlock_of_idle h.idle, if_neg (by simp [State.onDev, hover])]
  refine ⟨⟨?_, ?_, fun hb => ?_⟩, ?_, ?_, rfl⟩
  · exact (hkey ⟨.ENG_FLAGS_ZERO, e, 0⟩ (by simp)).trans (Dev.rg_st_self ..)
  · exact (hkey ⟨.ENG_FLAGS_CARRY, e, 0⟩ (by simp)).trans ((Dev.rg_st_ne _ _ _ _ (by decide)).trans hfresh.carry)
  · exact (hsettles.rg ..).trans (PcNext.finish (hset.proj (·.br) fun _ _ => rfl)
      ((Dev.rg_st_ne _ _ _ _ (by decide)).trans hset.pc) hb)
  · exact (hkey ⟨.ENG_PROG, e, 0⟩ (by simp)).trans ((Dev.st_prog _ e 1 e 0 (by decide)).trans hfresh.addr)
  · refine (hkey ⟨.ENG_PROG, e, 1⟩ (by simp)).trans ((Dev.st_prog _ e 1 e 1 (by decide)).trans (hfresh.len.trans ?_))
    rw [hn]
    rfl

/-! ## The operation is in progress -/

/-- From the progress set in `x`, the block operation `w` of engine `e` is in progress in `u`: the DRAM, the registers and
what the operation looks at in its engine are the same. -/
structure Dev.AtBlock (e w : Nat) (x u : Dev) : Prop where
  dram : Dev.SameDram x u
  key  : ∀ j, u.key j = x.key j
  act  : (u.eng e).act = some w
  br   : (u.eng e).br = (x.eng e).br
  bad  : (u.eng e).blkBad = (x.eng e).blkBad

namespace Dev.AtBlock

theorem of_begins (h : Dev.Begins e w x b) : Dev.AtBlock e w x b := by
  have hrest := h.rest
  refine ⟨⟨⟨?_, ?_, ?_⟩, ?_, ?_, fun j _ => h.key j⟩, h.key, h.act, h.br, h.proj (·.blkBad) fun _ _ _ _ _ => rfl⟩ <;>
    rw [hrest]

theorem settles (h : Dev.AtBlock e w x b) (hs : Settles e b u) : Dev.AtBlock e w x u where
  dram := h.dram.trans (.of_settles hs)
  key j := (hs.key j).trans (h.key j)
  act := (hs.proj (·.act) fun _ _ _ _ _ _ _ _ => rfl).trans h.act
  br := (hs.proj (·.br) fun _ _ _ _ _ _ _ _ => rfl).trans h.br
  bad := (hs.proj (·.blkBad) fun _ _ _ _ _ _ _ _ => rfl).trans h.bad

theorem advanceTo (h : Dev.AtBlock e w x b) (k : Nat) : Dev.AtBlock e w x (b.advanceTo k) := by
  have heng := Dev.advanceTo_eng b k e
  exact ⟨h.dram.trans (.advanceTo b k), fun j => (Dev.advanceTo_key b k j).trans (h.key j),
    (congrArg Eng.act heng).trans h.act, (congrArg Eng.br heng).trans h.br, (congrArg Eng.blkBad heng).trans h.bad⟩

theorem rg (h : Dev.AtBlock e w x u) (f : Field) (v : Nat) : u.rg f v = x.rg f v := h.key _

theorem prog (h : Dev.AtBlock e w x u) (i : Nat) : u.prog e i = x.prog e i := h.key _

theorem blkA (h : Dev.AtBlock e w x u) : u.blkA e = x.blkA e := by rw [Dev.blkA, Dev.blkA, h.prog]

theorem blkB (h : Dev.AtBlock e w x u) : u.blkB e = x.blkB e := by rw [Dev.blkB, Dev.blkB, h.prog]

theorem blkLen (h : Dev.AtBlock e w x u) : u.blkLen e = x.blkLen e := by rw [Dev.blkLen, Dev.blkLen, h.prog, h.blkA]

theorem blkWaits (h : Dev.AtBlock e w x u) : u.blkWaits e w = x.blkWaits e w := by
  simp only [Dev.blkWaits, h.blkA, h.blkB, h.blkLen, h.dram.blkPath, h.dram.blkInto]

end Dev.AtBlock

section
variable (h : Issues s e cls op w d) (hblock : isBlock w = true) (hbody : body s.mem d e w = d.beginBlock e w two)
  (hb : ¬((d.eng e).resumed = false ∧ d.reg e (iRs w + 1) = 0))
include h hblock hbody hb

/-- The operation has issued: it is in progress, and no recovery stands in its way. -/
theorem Issues.block_issued : Dev.AtBlock e w (d.blockSet e w two) (s.dev.issue s.mem e cls op body) ∧
    (s.dev.issue s.mem e cls op body).goesOn e = true ∧ (s.dev.issue s.mem e cls op body).storeClean e := by
  have hc := h.clean fun y => startWords_of_isBlock hblock y e
  have hset := Dev.blockSet_set d e w two
  have hbegin : Dev.Begins e w (d.blockSet e w two) (body s.mem d e w) := hbody ▸ Dev.beginBlock_begins hb two
  have hclean := hbegin.clean (hset.clean hc)
  have hsettles := Dev.issue_of_issues body h fun _ _ => hclean
  have hat := (Dev.AtBlock.of_begins hbegin).settles hsettles
  obtain ⟨hstate, -, hmiss⟩ := h.running
  have hrecov : ((s.dev.issue s.mem e cls op body).eng e).recov = none :=
    h.issue_recov hclean ((hbegin.proj (·.recov) fun _ _ _ _ _ => rfl).trans
      ((hset.proj (·.recov) fun _ _ => rfl).trans (h.recov hc)))
  have hmiss' : ((s.dev.issue s.mem e cls op body).eng e).miss = none :=
    (hsettles.proj (·.miss) fun _ _ _ _ _ _ _ _ => rfl).trans ((hbegin.proj (·.miss) fun _ _ _ _ _ => rfl).trans
      ((hset.proj (·.miss) fun _ _ => rfl).trans hmiss))
  have hstate' : (s.dev.issue s.mem e cls op body).estate e = d.estate e :=
    (hat.rg ..).trans (hset.dram.rg .ENG_STAT_STATE e (by decide))
  refine ⟨hat, ?_, hsettles.clean hclean⟩
  unfold Dev.goesOn
  rw [hstate', hrecov, hmiss']
  obtain hs | hs := hstate <;> rw [hs] <;> rfl

theorem Issues.issueBlock_runs (k : Nat) :
    s.issueBlock e cls op k body = (s.onDev (fun d => d.issue s.mem e cls op body)).runBlock e k := by
  obtain ⟨hat, -, -⟩ := h.block_issued hblock hbody hb
  have hact : ((s.onDev (fun d => d.issue s.mem e cls op body)).dev.eng e).act = some w := hat.act
  rw [State.issueBlock_of_idle h.idle, hact, if_pos (by simp [h.2.1, h.2.2.1])]

/-- An operation without an iteration yet, or that waits for a line, stands as it began (R199, R220). -/
theorem Issues.completes_block_holds {c : Instr} (hx : exec c s = .next (s.issueBlock e cls op k body))
    (hk : k = 0 ∨ (d.blockSet e w two).blkWaits e w = true) : Completes c s (fun t =>
      (t.dev.eng e).act = some w ∧ t.mem = s.mem ∧ t.dev.rg .ENG_PC_ADDR e = d.rg .ENG_PC_ADDR e ∧
      t.dev.prog e 0 = (if (d.eng e).resumed then d.prog e 0 else d.reg e (iRs w) % 2 ^ 38) ∧
      t.dev.prog e 1 = (if (d.eng e).resumed then d.prog e 1 else d.reg e (iRs w + 1) % 2 ^ 64)) := by
  obtain ⟨hat, -, -⟩ := h.block_issued hblock hbody hb
  have hstays : (s.onDev (fun d => d.issue s.mem e cls op body)).runBlock e k =
      s.onDev (fun d => d.issue s.mem e cls op body) := by
    cases k with
    | zero => rfl
    | succ k =>
      have hw : (s.onDev (fun d => d.issue s.mem e cls op body)).dev.blkWaits e w = true :=
        hat.blkWaits.trans (hk.resolve_left (Nat.succ_ne_zero k))
      have hact : ((s.onDev (fun d => d.issue s.mem e cls op body)).dev.eng e).act = some w := hat.act
      unfold State.runBlock
      simp only [hact, State.blkCycle, hw, if_true, Bool.false_eq_true, if_false, ite_self]
  have hprog : (d.blockSet e w two).prog e 0 = (if (d.eng e).resumed then d.prog e 0 else d.reg e (iRs w) % 2 ^ 38) ∧
      (d.blockSet e w two).prog e 1 = (if (d.eng e).resumed then d.prog e 1 else d.reg e (iRs w + 1) % 2 ^ 64) := by
    by_cases hf : (d.eng e).resumed = false
    · have hfresh := Dev.blockSet_fresh hf w two
      rw [hf]
      exact ⟨hfresh.addr, hfresh.len⟩
    · have hr : (d.eng e).resumed = true := by simpa using hf
      rw [Dev.blockSet_resumed hr, hr]
      exact ⟨rfl, rfl⟩
  refine ⟨_, hx, ?_⟩
  rw [h.issueBlock_runs hblock hbody hb, hstays]
  exact ⟨hat.act, rfl, (hat.rg ..).trans (Dev.blockSet_set d e w two).pc, (hat.prog 0).trans hprog.1,
    (hat.prog 1).trans hprog.2⟩

end

end Sys2Proof.Machine
end

section
/-!
One iteration of a block operation that has issued fresh: its microwords, its data move, and the end of the range (R220 to
R222, R241).
-/

namespace Sys2Proof.Machine

variable {s : State} {e w cls op k n : Nat} {d t u x y : Dev} {m : List Host.Cell} {body : Body} {two : Option Nat}

/-! ## A fresh operation in progress -/

theorem Reports.prog (h : Reports d t) (e i : Nat) : t.prog e i = d.prog e i :=
  h.key ⟨.ENG_PROG, e, i⟩ (show Field.ENG_PROG ∉ reportFields by decide)

/-- The block operation `w` that issued fresh at `d` is in progress in `u`, and no byte of its range is done. -/
structure Dev.FreshRun (e w : Nat) (two : Option Nat) (d u : Dev) : Prop where
  dram   : Dev.SameDram d u
  addr   : u.prog e 0 = d.reg e (iRs w) % 2 ^ 38
  len    : u.prog e 1 = d.reg e (iRs w + 1) % 2 ^ 64
  second : ∀ a, two = some a → u.prog e 2 = a % 2 ^ 38
  carry  : u.rg .ENG_FLAGS_CARRY e = 0
  bad    : (u.eng e).blkBad = false
  pc     : u.rg .ENG_PC_ADDR e = d.rg .ENG_PC_ADDR e
  br     : (u.eng e).br = (d.eng e).br

theorem Dev.blockSet_freshRun (hf : (d.eng e).resumed = false) (w : Nat) (two : Option Nat) :
    Dev.FreshRun e w two d (d.blockSet e w two) := by
  have hset := Dev.blockSet_set d e w two
  obtain ⟨haddr, hlen, hcarry, hbad⟩ := Dev.blockSet_fresh hf w two
  refine ⟨hset.dram, haddr, hlen, fun a ha => ?_, hcarry, hbad, hset.pc, hset.proj (·.br) fun _ _ => rfl⟩
  subst ha
  exact Dev.blockSet_second hf w a

namespace Dev.FreshRun

theorem at_ (h : Dev.FreshRun e w two d x) (hat : Dev.AtBlock e w x u) : Dev.FreshRun e w two d u where
  dram := h.dram.trans hat.dram
  addr := (hat.prog 0).trans h.addr
  len := (hat.prog 1).trans h.len
  second a ha := (hat.prog 2).trans (h.second a ha)
  carry := (hat.rg ..).trans h.carry
  bad := hat.bad.trans h.bad
  pc := (hat.rg ..).trans h.pc
  br := hat.br.trans h.br

/-- What the operation reads without a fault leaves it as it is. -/
theorem reads (h : Dev.FreshRun e w two d u) (hs : Dev.SameDram u y) (hr : Reports u y) : Dev.FreshRun e w two d y where
  dram := h.dram.trans hs
  addr := (hr.prog e 0).trans h.addr
  len := (hr.prog e 1).trans h.len
  second a ha := (hr.prog e 2).trans (h.second a ha)
  carry := (hr.rg .ENG_FLAGS_CARRY e (by decide)).trans h.carry
  bad := (congrArg Eng.blkBad (hr.eng e)).trans h.bad
  pc := (hr.rg .ENG_PC_ADDR e (by decide)).trans h.pc
  br := (congrArg Eng.br (hr.eng e)).trans h.br

theorem blkA (h : Dev.FreshRun e w two d u) : u.blkA e = d.reg e (iRs w) % 2 ^ 38 := by
  rw [Dev.blkA, h.addr, Nat.mod_mod]

theorem blkB {a : Nat} (h : Dev.FreshRun e w (some a) d u) : u.blkB e = a % 2 ^ 38 := by
  rw [Dev.blkB, h.second a rfl, Nat.mod_mod]

/-- A range that ends in the line of its start is one iteration (R220). -/
theorem blkLen (h : Dev.FreshRun e w two d u) (hn : d.reg e (iRs w + 1) < 2 ^ 64) :
    u.blkLen e = min (d.reg e (iRs w + 1)) (256 - d.reg e (iRs w) % 2 ^ 38 % 256) := by
  rw [Dev.blkLen, h.len, h.blkA, Nat.mod_eq_of_lt hn]

/-! What the operation waits for (R220). -/

theorem blkWaits_crc (h : Dev.FreshRun e w two d u) (hcls : iCls w = 5) :
    u.blkWaits e w = (d.blkPath (d.reg e (iRs w) % 2 ^ 38) == .waits) := by
  simp [Dev.blkWaits, hcls, h.blkA, h.dram.blkPath]

theorem blkWaits_fill (h : Dev.FreshRun e w two d u) (hcls : iCls w = 6) (hop : iOp w = 0) :
    u.blkWaits e w = (d.blkInto (d.reg e (iRs w) % 2 ^ 38) == .waits) := by
  simp [Dev.blkWaits, hcls, hop, h.blkA, h.dram.blkInto]

section
variable {a : Nat} (h : Dev.FreshRun e w (some a) d u)
include h

theorem blkWaits_mov (hcls : iCls w = 6) (hop : iOp w = 1) : u.blkWaits e w =
    (d.blkPath (d.reg e (iRs w) % 2 ^ 38) == .waits || d.blkInto (a % 2 ^ 38) == .waits ||
      d.blkInto ((a % 2 ^ 38 + u.blkLen e - 1) % 2 ^ 38) == .waits) := by
  simp [Dev.blkWaits, hcls, hop, h.blkA, h.blkB, h.dram.blkPath, h.dram.blkInto]

theorem blkWaits_cmp (hcls : iCls w = 6) (hop : iOp w = 2) : u.blkWaits e w =
    (d.blkPath (d.reg e (iRs w) % 2 ^ 38) == .waits || d.blkPath (a % 2 ^ 38) == .waits ||
      d.blkPath ((a % 2 ^ 38 + u.blkLen e - 1) % 2 ^ 38) == .waits) := by
  simp [Dev.blkWaits, hcls, hop, h.blkA, h.blkB, h.dram.blkPath]

end

end Dev.FreshRun

/-! ## The iteration -/

/-- The data move of an iteration of `n` bytes: whether it went through. -/
def State.blkData (s : State) (e w n : Nat) : Bool × State :=
  match iCls w, iOp w with
  | 5, _ => let t := s.dev.crcLine s.mem e w n 17; (t.1, { s with dev := t.2 })
  | 6, 0 => s.fillLine e w n
  | 6, 1 => s.movLine e n
  | _, _ => let t := s.dev.cmpLine s.mem e n [] [] 34; (t.1, { s with dev := t.2 })

/-- What follows a data move: an operation that it stopped stands there, a range that is done ends, and after another line
a restart point follows. -/
def State.blkAfter (e w : Nat) (r : Bool × State) : Bool × State :=
  if !r.1 then r
  else if r.2.dev.prog e 1 = 0 then (false, r.2.onDev (·.blkDone e w))
  else (true, r.2.onDev (·.point e))

/-- With a clean control store the microwords of an iteration leave the operation in progress (R220, R241). -/
theorem State.blkCycle_eq (hat : Dev.AtBlock e w x s.dev) (hw : s.dev.blkWaits e w = false) (hc : s.dev.storeClean e) :
    ∃ u, Dev.AtBlock e w x u ∧ s.blkCycle e w = State.blkAfter e w (State.blkData { s with dev := u } e w (u.blkLen e)) := by
  have hresume := Dev.resumeIssue_settles s.dev e
  have hclean : ((s.dev.resumeIssue e).advanceTo ((s.dev.resumeIssue e).eng e).free).storeClean e :=
    (hresume.clean hc).of_same (congrArg Eng.storeErr (Dev.advanceTo_eng ..)) (Dev.advanceTo_rg ..)
  obtain ⟨hword, hsettles⟩ := Dev.micros_clean w 0 (blkWords w) hclean
  have hu := ((hat.settles hresume).advanceTo _).settles hsettles
  refine ⟨_, hu, ?_⟩
  rw [hu.blkLen, ← hat.blkLen]
  unfold State.blkCycle
  dsimp only
  rw [if_neg (by rw [hw]; exact Bool.false_ne_true), hword]
  rfl

/-- A fresh operation whose lines are served or fault: its data move stops it, or completes its range. -/
theorem Issues.completes_block {c : Instr} {P : State → Prop} (h : Issues s e cls op w d) (hblock : isBlock w = true)
    (hbody : body s.mem d e w = d.beginBlock e w two) (hx : exec c s = .next (s.issueBlock e cls op (k + 1) body))
    (hf : (d.eng e).resumed = false) (hn : 0 < d.reg e (iRs w + 1))
    (hw : (d.blockSet e w two).blkWaits e w = false)
    (hdata : ∀ u, Dev.FreshRun e w two d u →
      ∃ t, State.blkAfter e w (State.blkData { s with dev := u } e w (u.blkLen e)) = (false, t) ∧ P t) :
    Completes c s P := by
  have hb : ¬((d.eng e).resumed = false ∧ d.reg e (iRs w + 1) = 0) := fun hb => hn.ne' hb.2
  obtain ⟨hat, hgo, hclean⟩ := h.block_issued hblock hbody hb
  obtain ⟨u, hu, hcycle⟩ := State.blkCycle_eq (s := s.onDev (fun d => d.issue s.mem e cls op body)) hat
    (hat.blkWaits.trans hw) hclean
  obtain ⟨t, ht, hP⟩ := hdata u ((Dev.blockSet_freshRun hf w two).at_ hu)
  refine ⟨t, ?_, hP⟩
  have hact : ((s.onDev (fun d => d.issue s.mem e cls op body)).dev.eng e).act = some w := hat.act
  have hgo' : (s.onDev (fun d => d.issue s.mem e cls op body)).dev.goesOn e = true := hgo
  have hcycle' : (s.onDev (fun d => d.issue s.mem e cls op body)).blkCycle e w = (false, t) := hcycle.trans ht
  rw [hx, h.issueBlock_runs hblock hbody hb]
  unfold State.runBlock
  rw [hact]
  dsimp only
  rw [if_neg (by rw [hblock, hgo']; decide), hcycle']
  rfl

end Sys2Proof.Machine
end

section
/-!
How the data of an iteration go: read, folded, compared and written, or stopped by a memory fault (R220 to R222).
-/

namespace Sys2Proof.Machine

variable {s : State} {e w n : Nat} {d t u y z : Dev} {m : List Host.Cell} {two : Option Nat}

/-! ## A memory fault -/

theorem unsigned_sub {a k : Nat} (hk : k ≤ a) (ha : a < 2 ^ 64) : unsigned 64 ((a : Int) - k) = a - k := by
  unfold unsigned
  omega

/-- The flags and the progress where a memory fault stops an operation (R221). -/
theorem Dev.blkStop_leaves (d : Dev) (e back : Nat) (both : Bool) :
    (d.blkStop e back both).rg .ENG_FLAGS_ZERO e = 0 ∧ (d.blkStop e back both).rg .ENG_FLAGS_CARRY e = 1 ∧
      PcNext d (d.blkStop e back both) e ∧ (d.blkStop e back both).prog e 0 = unsigned 64 ((d.prog e 0 : Int) - back) ∧
      (d.blkStop e back both).prog e 1 = d.prog e 1 := by
  obtain ⟨z, hz, hpc, heng, h0, h1⟩ : ∃ z : Dev,
      d.blkStop e back both = ((z.setZC e 0 1).modEng e (fun x => { x with blkBad := true })).finish e ∧
      z.rg .ENG_PC_ADDR e = d.rg .ENG_PC_ADDR e ∧ z.eng e = d.eng e ∧
      z.prog e 0 = unsigned 64 ((d.prog e 0 : Int) - back) ∧ z.prog e 1 = d.prog e 1 := by
    have hfst : (d.setProg e 0 (unsigned 64 ((d.prog e 0 : Int) - back))).prog e 0 = unsigned 64 ((d.prog e 0 : Int) - back) :=
      (Dev.setProg_prog ..).trans (unsigned_mod ..)
    have hsnd : (d.setProg e 0 (unsigned 64 ((d.prog e 0 : Int) - back))).prog e 1 = d.prog e 1 :=
      Dev.setProg_prog_ne _ _ _ (by decide)
    have hpc : ∀ (y : Dev) (i v : Nat), (y.setProg e i v).rg .ENG_PC_ADDR e = y.rg .ENG_PC_ADDR e := fun y i v =>
      Dev.setProg_rg y e i v e (by decide)
    cases both with
    | false => exact ⟨_, rfl, hpc .., rfl, hfst, hsnd⟩
    | true =>
      exact ⟨_, rfl, (hpc ..).trans (hpc ..), rfl, (Dev.setProg_prog_ne _ _ _ (by decide)).trans hfst,
        (Dev.setProg_prog_ne _ _ _ (by decide)).trans hsnd⟩
  have hprog : ∀ i, (d.blkStop e back both).prog e i = z.prog e i := fun i => by
    rw [hz]
    exact (Dev.finish_key (j := ⟨.ENG_PROG, e, i⟩) _ _ (by simp)).trans (Dev.setZC_key _ _ _ _ (by simp) (by simp))
  rw [hprog, hprog, hz]
  refine ⟨(Dev.finish_rg _ _ _ (by decide)).trans (Dev.setZC_zero ..),
    (Dev.finish_rg _ _ _ (by decide)).trans (Dev.setZC_carry ..), PcNext.finish ?_ ((Dev.setZC_pc ..).trans hpc), h0, h1⟩
  have hbr : (z.eng e).br = (d.eng e).br := congrArg Eng.br heng
  exact (Dev.modEng_proj _ e _ (·.br)).trans hbr

theorem Dev.FreshRun.reported (h : Dev.FreshRun e w two d u) (x : Nat) : Dev.FreshRun e w two d (u.blkReport x) :=
  h.reads (Dev.report_sameDram ..) (Dev.report_reports ..)

/-- A word that cannot be read or written is reported, and stops the operation before it (R221). -/
theorem Dev.FreshRun.stops (h : Dev.FreshRun e w two d u) (hn : d.reg e (iRs w + 1) < 2 ^ 64) {p back : Nat}
    (hback : back ≤ d.reg e (iRs w) % 2 ^ 38) (hp : p = d.reg e (iRs w) % 2 ^ 38 - back) (x : Nat) (both : Bool) :
    (((u.blkReport x).blkStop e back both).rg .ENG_FLAGS_ZERO e = 0 ∧
      ((u.blkReport x).blkStop e back both).rg .ENG_FLAGS_CARRY e = 1 ∧
      PcNext d ((u.blkReport x).blkStop e back both) e) ∧
    ((u.blkReport x).blkStop e back both).prog e 0 = p ∧
    ((u.blkReport x).blkStop e back both).prog e 1 = d.reg e (iRs w + 1) := by
  have hy := h.reported x
  obtain ⟨hzero, hcarry, hpc, haddr, hlen⟩ := Dev.blkStop_leaves (u.blkReport x) e back both
  refine ⟨⟨hzero, hcarry, hpc.of_before hy.br hy.pc⟩, ?_, hlen.trans (hy.len.trans (Nat.mod_eq_of_lt hn))⟩
  rw [haddr, hy.addr, unsigned_sub hback (by omega), hp]

/-! ## What is left of an operation -/

/-- The operation that issued at `d` has `n` bytes left in `y`, and has copied no poisoned word. -/
structure Dev.BlockLeft (e n : Nat) (d y : Dev) : Prop where
  left  : y.prog e 1 = n
  carry : y.rg .ENG_FLAGS_CARRY e = 0
  pc    : y.rg .ENG_PC_ADDR e = d.rg .ENG_PC_ADDR e
  bad   : (y.eng e).blkBad = false
  br    : (y.eng e).br = (d.eng e).br

/-- A register below the special ones is of none of the fields that tell of a block operation. -/
theorem regKeys_blockFields {rd : Nat} (hrd : rd < 0x34) (e : Nat) : ∀ j ∈ regKeys e rd, j.f ∉ blockFields := by
  by_cases hg : rd < 0x20
  · simp [regKeys, hg, blockFields, reportFields]
  · by_cases hl : rd < 0x30
    · simp [regKeys, hg, hl, blockFields, reportFields]
    · obtain rfl | rfl | rfl | rfl : rd = 0x30 ∨ rd = 0x31 ∨ rd = 0x32 ∨ rd = 0x33 := by omega
      all_goals simp [regKeys, blockFields, reportFields]

namespace Dev.BlockLeft

theorem of_fresh (h : Dev.FreshRun e w two d u) (hn : d.reg e (iRs w + 1) < 2 ^ 64) :
    Dev.BlockLeft e (d.reg e (iRs w + 1)) d u :=
  ⟨h.len.trans (Nat.mod_eq_of_lt hn), h.carry, h.pc, h.bad, h.br⟩

theorem reports (h : Dev.BlockLeft e n d y) (hr : Reports y z) : Dev.BlockLeft e n d z where
  left := (hr.prog e 1).trans h.left
  carry := (hr.rg .ENG_FLAGS_CARRY e (by decide)).trans h.carry
  pc := (hr.rg .ENG_PC_ADDR e (by decide)).trans h.pc
  bad := (congrArg Eng.blkBad (hr.eng e)).trans h.bad
  br := (congrArg Eng.br (hr.eng e)).trans h.br

theorem setReg (h : Dev.BlockLeft e n d y) {rd : Nat} (hrd : rd < 0x34) (v : Nat) :
    Dev.BlockLeft e n d (y.setReg e rd v) := by
  have hkey : ∀ (f : Field) (i : Nat), f ∈ blockFields → (y.setReg e rd v).rgi f e i = y.rgi f e i := fun f i hf =>
    Dev.setReg_keeps y e rd v fun hj => regKeys_blockFields hrd e _ hj hf
  exact ⟨(hkey .ENG_PROG 1 (by decide)).trans h.left, (hkey .ENG_FLAGS_CARRY 0 (by decide)).trans h.carry,
    (Dev.setReg_pc ..).trans h.pc, (Dev.setReg_proj y e rd v (·.blkBad) fun _ _ _ _ _ _ _ _ => rfl).trans h.bad,
    (Dev.setReg_br ..).trans h.br⟩

theorem zero (h : Dev.BlockLeft e n d y) (v : Nat) : Dev.BlockLeft e n d (y.st .ENG_FLAGS_ZERO e v) where
  left := (Dev.st_prog _ e v e 1 (by decide)).trans h.left
  carry := (Dev.rg_st_ne _ _ _ _ (by decide)).trans h.carry
  pc := (Dev.rg_st_ne _ _ _ _ (by decide)).trans h.pc
  bad := h.bad
  br := h.br

theorem step (h : Dev.BlockLeft e n d y) (hn : n < 2 ^ 64) (k : Nat) (both : Bool) :
    Dev.BlockLeft e (n - k) d (y.blkStep e k both) := by
  have hfst : ((y.setProg e 0 (y.prog e 0 + k)).setProg e 1 (y.prog e 1 - k)).prog e 1 = n - k := by
    rw [Dev.setProg_prog, h.left]
    exact Nat.mod_eq_of_lt (by omega)
  have hrg : ∀ (x : Dev) (i v : Nat) {f : Field}, Field.ENG_PROG ≠ f → (x.setProg e i v).rg f e = x.rg f e := fun x i v _ hf =>
    Dev.setProg_rg x e i v e hf
  cases both with
  | false =>
    exact ⟨hfst, (hrg _ _ _ (by decide)).trans ((hrg _ _ _ (by decide)).trans h.carry),
      (hrg _ _ _ (by decide)).trans ((hrg _ _ _ (by decide)).trans h.pc), h.bad, h.br⟩
  | true =>
    exact ⟨(Dev.setProg_prog_ne _ _ _ (by decide)).trans hfst,
      (hrg _ _ _ (by decide)).trans ((hrg _ _ _ (by decide)).trans ((hrg _ _ _ (by decide)).trans h.carry)),
      (hrg _ _ _ (by decide)).trans ((hrg _ _ _ (by decide)).trans ((hrg _ _ _ (by decide)).trans h.pc)), h.bad, h.br⟩

theorem ends (h : Dev.BlockLeft e n d y) : (y.finish e).rg .ENG_FLAGS_CARRY e = 0 ∧ PcNext d (y.finish e) e ∧
    (y.finish e).prog e 1 = n :=
  ⟨(Dev.finish_rg _ _ _ (by decide)).trans h.carry, PcNext.finish h.br h.pc,
    (Dev.finish_key (j := ⟨.ENG_PROG, e, 1⟩) _ _ (by simp)).trans h.left⟩

end Dev.BlockLeft

/-- A range that is done ends the operation: CRC tells a zero state, BLKCMP equal bytes, and MOV no poisoned word (R217,
R221, R222). -/
theorem Dev.blkDone_crc (hcls : iCls w = 5) (hop : iOp w = 17) (d : Dev) (e : Nat) :
    d.blkDone e w = (d.st .ENG_FLAGS_ZERO e (b2n (d.reg e (iRd w) == 0))).finish e := by
  unfold Dev.blkDone
  rw [hcls, hop]
  rfl

theorem Dev.blkDone_cmp (hcls : iCls w = 6) (hop : iOp w = 2) (d : Dev) (e : Nat) :
    d.blkDone e w = (d.st .ENG_FLAGS_ZERO e 1).finish e := by
  unfold Dev.blkDone
  rw [hcls, hop]
  rfl

theorem Dev.blkDone_fill (hcls : iCls w = 6) (hop : iOp w = 0) (d : Dev) (e : Nat) : d.blkDone e w = d.finish e := by
  unfold Dev.blkDone
  rw [hcls, hop]
  rfl

theorem Dev.blkDone_mov (hcls : iCls w = 6) (hop : iOp w = 1) (h : (d.eng e).blkBad = false) : d.blkDone e w = d.finish e := by
  unfold Dev.blkDone
  rw [hcls, hop, h]
  rfl

/-- A data move that leaves no byte ends the operation. -/
theorem State.blkAfter_of_done {t : State} (h : Dev.BlockLeft e 0 d t.dev) (w : Nat) :
    State.blkAfter e w (true, t) = (false, t.onDev (·.blkDone e w)) :=
  (if_neg Bool.false_ne_true).trans (if_pos h.left)

/-! ## Words that are read -/

theorem firstDiff_self : ∀ l : List Nat, firstDiff l l = none
  | [] => rfl
  | a :: l => by simp [firstDiff, firstDiff_self l]

section
variable {x : Nat} (hx : x < 2 ^ 38) (hn : 0 < n) (hn' : n ≤ 16 - x % 16)

theorem Dev.blkWord_of_faults (h : Dev.SameDram d u) (hp : d.blkPath x = .faults) (m : List Host.Cell) (n : Nat) :
    u.blkWord m x n = (none, u.blkReport x) := by
  unfold Dev.blkWord
  rw [h.blkPath, hp]
  rfl

include hx hn hn'

/-- Bytes inside one code word that its port serves are read, as they were at the issue (R221). -/
theorem Dev.blkWord_of_served (h : Dev.SameDram d u) (hp : d.blkPath x = .served)
    (hread : (d.portRead m 0x0B x n).2.1 = false) :
    ∃ y, u.blkWord m x n = (some (d.portRead m 0x0B x n).1, y) ∧ Dev.SameDram u y ∧ Reports u y := by
  obtain ⟨hbytes, hbad⟩ := h.portRead (m := m) (cons := 0x0B) hn hn'
  obtain ⟨-, hreports, hsame⟩ := Dev.portRead_inWord (cons := 0x0B) hn hn' hx u m
  refine ⟨(u.portRead m 0x0B x n).2.2, ?_, hsame (hbad.trans hread), hreports⟩
  unfold Dev.blkWord
  rw [h.blkPath, hp, if_pos rfl, Nat.min_eq_left hn']
  simp [hbytes, hbad, hread]

end

section
variable (h : Dev.FreshRun e w two d u) (hn : 0 < n)
include h hn

theorem Dev.FreshRun.crc_faults (hp : d.blkPath (d.reg e (iRs w) % 2 ^ 38) = .faults) (m : List Host.Cell) (f : Nat) :
    u.crcLine m e w n (f + 1) = (false, (u.blkReport (d.reg e (iRs w) % 2 ^ 38)).blkStop e
      (d.reg e (iRs w) % 2 ^ 38 % 16) false) := by
  unfold Dev.crcLine
  rw [if_neg hn.ne', h.blkA, Dev.blkWord_of_faults h.dram hp]
  dsimp only
  rw [(h.reported _).blkA]

/-- CRC folds the bytes of a code word into RD (R222). -/
theorem Dev.FreshRun.crc_word (hrd : iRd w < 0x34) (hn' : n ≤ 16 - d.reg e (iRs w) % 2 ^ 38 % 16)
    (hp : d.blkPath (d.reg e (iRs w) % 2 ^ 38) = .served)
    (hread : (d.portRead m 0x0B (d.reg e (iRs w) % 2 ^ 38) n).2.1 = false) (f : Nat) :
    ∃ y, Dev.FreshRun e w two d y ∧ u.crcLine m e w n (f + 1) = (true, (y.setReg e (iRd w)
      (crcBytes (iMod w % 4) (d.reg e (iRd w)) (d.portRead m 0x0B (d.reg e (iRs w) % 2 ^ 38) n).1)).blkStep e n false) := by
  have hx : d.reg e (iRs w) % 2 ^ 38 < 2 ^ 38 := Nat.mod_lt _ (by decide)
  obtain ⟨y, hword, hsame, hreports⟩ := Dev.blkWord_of_served hx hn hn' h.dram hp hread
  obtain ⟨hlen, -, -⟩ := Dev.portRead_inWord (cons := 0x0B) hn hn' hx d m
  refine ⟨y, h.reads hsame hreports, ?_⟩
  unfold Dev.crcLine
  rw [if_neg hn.ne', h.blkA, hword]
  dsimp only
  rw [hlen, Nat.sub_self, hsame.reg hrd, h.dram.reg hrd]
  cases f <;> rfl

end

section
variable {b : Nat} (h : Dev.FreshRun e w (some b) d u) (hn : 0 < n)
include h hn

theorem Dev.FreshRun.cmp_faults (hp : d.blkPath (d.reg e (iRs w) % 2 ^ 38) = .faults) (m : List Host.Cell) (f : Nat) :
    u.cmpLine m e n [] [] (f + 1) = (false, (u.blkReport (d.reg e (iRs w) % 2 ^ 38)).blkStop e
      (d.reg e (iRs w) % 2 ^ 38 % 16) true) := by
  unfold Dev.cmpLine
  rw [if_neg hn.ne', h.blkA]
  dsimp only
  rw [List.isEmpty_nil, if_pos rfl, Dev.blkWord_of_faults h.dram hp]
  dsimp only
  rw [(h.reported _).blkA]

/-- BLKCMP of two code words with equal bytes compares them all (R222). -/
theorem Dev.FreshRun.cmp_word (hn1 : n ≤ 16 - d.reg e (iRs w) % 2 ^ 38 % 16) (hn2 : n ≤ 16 - b % 2 ^ 38 % 16)
    (hpa : d.blkPath (d.reg e (iRs w) % 2 ^ 38) = .served) (hpb : d.blkPath (b % 2 ^ 38) = .served)
    (hreada : (d.portRead m 0x0B (d.reg e (iRs w) % 2 ^ 38) n).2.1 = false)
    (hreadb : (d.portRead m 0x0B (b % 2 ^ 38) n).2.1 = false)
    (heq : (d.portRead m 0x0B (d.reg e (iRs w) % 2 ^ 38) n).1 = (d.portRead m 0x0B (b % 2 ^ 38) n).1) (f : Nat) :
    ∃ y, Dev.FreshRun e w (some b) d y ∧ u.cmpLine m e n [] [] (f + 1) = (true, y.blkStep e n true) := by
  have hxa : d.reg e (iRs w) % 2 ^ 38 < 2 ^ 38 := Nat.mod_lt _ (by decide)
  have hxb : b % 2 ^ 38 < 2 ^ 38 := Nat.mod_lt _ (by decide)
  obtain ⟨y, hword, hsame, hreports⟩ := Dev.blkWord_of_served hxa hn hn1 h.dram hpa hreada
  have hy := h.reads hsame hreports
  obtain ⟨z, hword', hsame', hreports'⟩ := Dev.blkWord_of_served hxb hn hn2 hy.dram hpb hreadb
  obtain ⟨hlen, -, -⟩ := Dev.portRead_inWord (cons := 0x0B) hn hn2 hxb d m
  refine ⟨z, hy.reads hsame' hreports', ?_⟩
  unfold Dev.cmpLine
  rw [if_neg hn.ne', h.blkA]
  dsimp only
  rw [List.isEmpty_nil, if_pos rfl, hword]
  dsimp only
  rw [if_pos rfl, hy.blkB, hword']
  dsimp only
  rw [heq, firstDiff_self]
  dsimp only
  rw [Nat.min_self, hlen, Nat.sub_self]
  cases f <;> rfl

end

/-! ## Words that are written -/

theorem Dev.dramPath_of_blkInto {x : Nat} (h : d.blkInto x = .served) : d.dramPath (x / 256) = .served := by
  unfold Dev.blkInto at h
  split at h
  · exact absurd h (by decide)
  · exact Dev.dramPath_of_writePath h

theorem Dev.markWord_reports (d : Dev) (x : Nat) (bad : Bool) : Reports d (d.markWord x bad) :=
  ⟨fun _ _ => rfl, rfl, rfl, rfl, rfl, rfl, rfl⟩

theorem State.rewriteWord_reports {a : Nat} (ha : a % 16 = 0) (he : s.dev.errs = []) (cons : Nat) :
    Reports s.dev (s.rewriteWord cons a).dev := by
  by_cases hp : a ∈ s.dev.poison
  · rw [State.rewriteWord_of_poisoned ha hp]
    exact Dev.report_reports ..
  · have hstay : s.rewriteWord cons a = s := by simp [State.rewriteWord, he, hp, AMap.get?]
    rw [hstay]
    exact .refl _

/-- Without errors the merge of a line makes reports alone (R375). -/
theorem State.lineMerge_reports {a : Nat} (ha : a % 16 = 0) (he : s.dev.errs = []) (o n : Nat) :
    Reports s.dev (s.lineMerge a o n).dev := by
  unfold State.lineMerge
  generalize List.range 16 = ks
  induction ks generalizing s with
  | nil => exact .refl _
  | cons k ks ih =>
    rw [List.foldl_cons]
    split
    · exact ih he
    · obtain ⟨-, hkept⟩ := State.rewriteWord_of_no_errs (s := s) (a := a + 16 * k) (by omega) he 0x0C
      exact (State.rewriteWord_reports (by omega) he 0x0C).trans (ih (hkept.errs.trans he))

/-- What a write of a word to DRAM byte address `x` needs: its line is served and open, and no stored word has errors. -/
structure Dev.TakesWord (d : Dev) (x : Nat) : Prop where
  into : d.blkInto x = .served
  awg  : d.awgGuard (x / 256) = none
  old  : d.unzeroed (x / 256) = false
  errs : d.errs = []
  word : x % 16 = 0

theorem Dev.SameDram.takesWord {x : Nat} (h : Dev.SameDram d u) (ht : d.TakesWord x) : u.TakesWord x :=
  ⟨(h.blkInto x).trans ht.into, (h.awgGuard _).trans ht.awg, (h.unzeroed _).trans ht.old, h.words.errs.trans ht.errs, ht.word⟩

section
variable {x : Nat} {l : List Nat} (h : s.dev.TakesWord x)
include h

/-- The words of the line beside the one that is written are as before (R375). -/
theorem State.merged (n : Nat) : ((s.zeroAhead (x / 256)).lineMerge (dramBase + x / 256 * 256) (x % 256) n).mem = s.mem ∧
    Reports s.dev ((s.zeroAhead (x / 256)).lineMerge (dramBase + x / 256 * 256) (x % 256) n).dev := by
  have hzero : s.zeroAhead (x / 256) = s := by simp [State.zeroAhead, h.old]
  have ha : (dramBase + x / 256 * 256) % 16 = 0 := by
    unfold dramBase
    omega
  rw [hzero]
  exact ⟨(State.lineMerge_of_no_errs ha h.errs _ n).1, State.lineMerge_reports ha h.errs _ n⟩

theorem State.dramWrite_takes (hl : l.length = 16) (cons : Nat) :
    (s.dramWrite cons x l {}).mem = memWrite s.mem (dramBase + x) l ∧
    Reports s.dev (s.dramWrite cons x l {}).dev := by
  obtain ⟨hmem, hreports⟩ := State.merged h l.length
  have hword : (dramBase + x) % 16 = 0 := by
    have := h.word
    unfold dramBase
    omega
  unfold State.dramWrite
  dsimp only
  rw [if_neg (by simp [Dev.dramPath_of_blkInto h.into]), h.awg]
  dsimp only
  rw [State.writeBytes_word hword hl]
  exact ⟨congrArg (memWrite · _ l) hmem, hreports.trans (Dev.markWord_reports ..)⟩

theorem State.dramStore_takes (l : List Nat) (cons : Nat) :
    (s.dramStore cons x l [false]).mem = memWrite s.mem (dramBase + x) l ∧
    Reports s.dev (s.dramStore cons x l [false]).dev := by
  obtain ⟨hmem, hreports⟩ := State.merged h l.length
  unfold State.dramStore
  dsimp only
  rw [if_neg (by simp [Dev.dramPath_of_blkInto h.into]), h.awg]
  exact ⟨congrArg (memWrite · _ l) hmem, hreports.trans (Dev.markWord_reports ..)⟩

end

end Sys2Proof.Machine
end

section
/-!
O15: CRC, FILL, MOV and BLKCMP over DRAM bytes (R199, R220 to R222).
-/

namespace Sys2Proof.Machine

variable {s : State} {e : EngId} {w n : Nat} {d u : Dev}

/-! ## The data moves of FILL and MOV -/

/-- A word without a mark and errors is read as it is stored (R23). -/
theorem Dev.readWord_of_clean {a : Nat} (ha : a % 16 = 0) (hp : a ∉ d.poison) (he : d.errs = []) (m : List Host.Cell)
    (cons : Nat) : d.readWord m cons a = (some (wordAt m a), d) := by
  have hword : a / 16 * 16 = a := by omega
  simp [Dev.readWord, Dev.decode, hword, hp, he, AMap.get?]

section
variable (h : Dev.FreshRun e w none d u)
include h

theorem Dev.FreshRun.fill_faults (hp : d.blkInto (d.reg e (iRs w) % 2 ^ 38) = .faults) (s : State) (n : Nat) :
    State.fillLine { s with dev := u } e w n =
      (false, { s with dev := (u.blkReport (d.reg e (iRs w) % 2 ^ 38)).blkStop e 0 false }) := by
  unfold State.fillLine
  dsimp only
  rw [h.blkA, h.dram.blkInto, hp]
  rfl

/-- FILL of one code word writes RD twice (R222). -/
theorem Dev.FreshRun.fill_word (hrd : iRd w < 0x34) (ht : d.TakesWord (d.reg e (iRs w) % 2 ^ 38)) (s : State) :
    ∃ t : State, State.fillLine { s with dev := u } e w 16 = (true, t.onDev (·.blkStep e 16 false)) ∧ Reports u t.dev ∧
      t.mem = memWrite s.mem (dramBase + d.reg e (iRs w) % 2 ^ 38)
        (leBytes 8 (d.reg e (iRd w)) ++ leBytes 8 (d.reg e (iRd w))) := by
  have hflat : (List.replicate (16 / 8) (leBytes 8 (d.reg e (iRd w)))).flatten =
      leBytes 8 (d.reg e (iRd w)) ++ leBytes 8 (d.reg e (iRd w)) := by simp [List.replicate]
  obtain ⟨hmem, hreports⟩ := State.dramWrite_takes (s := { s with dev := u })
    (l := leBytes 8 (d.reg e (iRd w)) ++ leBytes 8 (d.reg e (iRd w))) (h.dram.takesWord ht) (by simp [leBytes_length]) 0x0B
  refine ⟨_, ?_, hreports, hmem⟩
  unfold State.fillLine
  dsimp only
  rw [h.blkA, h.dram.blkInto, ht.into, if_pos rfl, h.dram.reg hrd, hflat]

end

theorem fill_byte (v : Nat) {k : Nat} (hk : k < 16) :
    (leBytes 8 v ++ leBytes 8 v)[k]? = some (v / 256 ^ (k % 8) % 256) := by
  by_cases hlow : k < 8
  · rw [List.getElem?_append_left (by rwa [leBytes_length]), leBytes_getElem? v hlow, Nat.mod_eq_of_lt hlow]
  · rw [List.getElem?_append_right (by rw [leBytes_length]; omega), leBytes_length, leBytes_getElem? v (by omega),
      show k % 8 = k - 8 by omega]

/-- The word at DRAM byte address `x` reads as it is stored: it is zeroed, has no mark, and no stored word has errors. -/
structure Dev.PlainWord (d : Dev) (x : Nat) : Prop where
  old   : d.unzeroed (x / 256) = false
  clean : dramBase + x ∉ d.poison
  errs  : d.errs = []
  word  : x % 16 = 0

section
variable {b : Nat} (h : Dev.FreshRun e w (some b) d u)
include h

theorem Dev.FreshRun.mov_faults (hp : d.blkPath (d.reg e (iRs w) % 2 ^ 38) = .faults) (s : State) (n : Nat) :
    State.movLine { s with dev := u } e n =
      (false, { s with dev := (u.blkReport (d.reg e (iRs w) % 2 ^ 38)).blkStop e 0 true }) := by
  unfold State.movLine
  dsimp only
  rw [h.blkA, h.dram.blkPath, hp]
  rfl

theorem Dev.FreshRun.mov_reads (hplain : d.PlainWord (d.reg e (iRs w) % 2 ^ 38)) (m : List Host.Cell) :
    u.portWords m 0x0B (d.reg e (iRs w) % 2 ^ 38) 1 = (memRead m (dramBase + d.reg e (iRs w) % 2 ^ 38) 16, [false], u) := by
  have ha : (dramBase + d.reg e (iRs w) % 2 ^ 38) % 16 = 0 := by
    have := hplain.word
    unfold dramBase
    omega
  have hread := Dev.readWord_of_clean ha (h.dram.words.poison ▸ hplain.clean) (h.dram.words.errs.trans hplain.errs) m 0x0B
  unfold Dev.portWords
  rw [h.dram.unzeroed, hplain.old, if_neg Bool.false_ne_true, Dev.readPoison, hread]
  dsimp only
  rw [Option.getD_some, leBytes_wordAt ha]
  simp [Dev.readPoison]

theorem Dev.FreshRun.mov_writes (ht : d.TakesWord (b % 2 ^ 38)) {l : List Nat} (hl : l.length = 16) (s : State) :
    ∃ t : State, State.movInto { s with dev := u } e l [false] = (true, t.onDev (fun y =>
        (y.modEng e (fun x => { x with blkBad := x.blkBad || [false].any id })).blkStep e 16 true)) ∧ Reports u t.dev ∧
      t.mem = memWrite s.mem (dramBase + b % 2 ^ 38) l := by
  obtain ⟨hmem, hreports⟩ := State.dramStore_takes (s := { s with dev := u }) (h.dram.takesWord ht) l 0x0B
  refine ⟨_, ?_, hreports, hmem⟩
  unfold State.movInto
  dsimp only
  rw [h.blkB, h.dram.blkInto, ht.into, if_pos rfl, hl]

/-- MOV of one code word copies it (R222). -/
theorem Dev.FreshRun.mov_word (hpath : d.blkPath (d.reg e (iRs w) % 2 ^ 38) = .served)
    (hplain : d.PlainWord (d.reg e (iRs w) % 2 ^ 38)) (ht : d.TakesWord (b % 2 ^ 38)) (s : State) :
    ∃ t : State, State.movLine { s with dev := u } e 16 = (true, t.onDev (fun y =>
        (y.modEng e (fun x => { x with blkBad := x.blkBad || [false].any id })).blkStep e 16 true)) ∧ Reports u t.dev ∧
      t.mem = memWrite s.mem (dramBase + b % 2 ^ 38) (memRead s.mem (dramBase + d.reg e (iRs w) % 2 ^ 38) 16) := by
  have hroom : min 16 (256 - b % 2 ^ 38 % 256) = 16 := by
    have := ht.word
    omega
  have hlen := memRead_length s.mem (dramBase + d.reg e (iRs w) % 2 ^ 38) 16
  obtain ⟨t, hmov, hrest⟩ := h.mov_writes ht hlen s
  refine ⟨t, ?_, hrest⟩
  unfold State.movLine
  dsimp only
  rw [h.blkA, h.dram.blkPath, hpath, if_pos rfl, h.mov_reads hplain, h.blkB, hroom]
  dsimp only
  rw [List.take_of_length_le hlen.le, List.take_of_length_le (by decide), hmov]
  rfl

end

/-! ## How a range ends -/

theorem State.blkData_crc (hcls : iCls w = 5) (s : State) (e n : Nat) : s.blkData e w n =
    ((s.dev.crcLine s.mem e w n 17).1, { s with dev := (s.dev.crcLine s.mem e w n 17).2 }) := by
  unfold State.blkData
  rw [hcls]
  rfl

theorem State.blkData_fill (hcls : iCls w = 6) (hop : iOp w = 0) (s : State) (e n : Nat) :
    s.blkData e w n = s.fillLine e w n := by
  unfold State.blkData
  rw [hcls, hop]
  rfl

theorem State.blkData_mov (hcls : iCls w = 6) (hop : iOp w = 1) (s : State) (e n : Nat) :
    s.blkData e w n = s.movLine e n := by
  unfold State.blkData
  rw [hcls, hop]
  rfl

theorem State.blkData_cmp (hcls : iCls w = 6) (hop : iOp w = 2) (s : State) (e n : Nat) : s.blkData e w n =
    ((s.dev.cmpLine s.mem e n [] [] 34).1, { s with dev := (s.dev.cmpLine s.mem e n [] [] 34).2 }) := by
  unfold State.blkData
  rw [hcls, hop]
  rfl

/-- A memory fault has stopped the operation that issued at `d`: PROG0 stands at `p`, and memory is as it was. -/
def State.Faulted (s : State) (e w p : Nat) (d : Dev) (t : State) : Prop :=
  (t.dev.rg .ENG_FLAGS_ZERO e = 0 ∧ t.dev.rg .ENG_FLAGS_CARRY e = 1 ∧ PcNext d t.dev e) ∧ t.dev.prog e 0 = p ∧
    t.dev.prog e 1 = d.reg e (iRs w + 1) ∧ t.mem = s.mem

/-- A data move that reports a fault and stops ends the iteration. -/
theorem Dev.FreshRun.after_faults {two : Option Nat} {p back x : Nat} {both : Bool} (h : Dev.FreshRun e w two d u)
    (hn : d.reg e (iRs w + 1) < 2 ^ 64) (hback : back ≤ d.reg e (iRs w) % 2 ^ 38) (hp : p = d.reg e (iRs w) % 2 ^ 38 - back)
    {r : Bool × State} (hr : r = (false, { s with dev := (u.blkReport x).blkStop e back both })) :
    ∃ t, State.blkAfter e w r = (false, t) ∧ s.Faulted e w p d t := by
  obtain ⟨hflags, haddr, hlen⟩ := h.stops hn hback hp x both
  exact ⟨{ s with dev := (u.blkReport x).blkStop e back both }, by rw [hr]; rfl, hflags, haddr, hlen, rfl⟩

/-- What is left of an operation of `n` bytes that has moved them all. -/
theorem Dev.BlockLeft.done {y : Dev} (h : Dev.BlockLeft e n d y) (hn : n < 2 ^ 64) (both : Bool) :
    Dev.BlockLeft e 0 d (y.blkStep e n both) := by
  have hstep := h.step hn n both
  rwa [Nat.sub_self] at hstep

theorem Dev.blkStep_sameDram (d : Dev) (e n : Nat) (both : Bool) : Dev.SameDram d (d.blkStep e n both) := by
  have hprog : ∀ (y : Dev) (i v : Nat), Dev.SameDram y (y.setProg e i v) := fun y i v => .sti y e i v (by decide)
  cases both with
  | false => exact (hprog d 0 _).trans (hprog _ 1 _)
  | true => exact ((hprog d 0 _).trans (hprog _ 1 _)).trans (hprog _ 2 _)

/-- The progress and the end of an operation leave a register below the special ones. -/
theorem Dev.ended_reg {y : Dev} {rd : Nat} (hrd : rd < 0x34) (z : Nat) :
    ((y.st .ENG_FLAGS_ZERO e z).finish e).reg e rd = y.reg e rd :=
  (Dev.reg_congr (by omega) fun _ hj => Dev.finish_key _ _ hj).trans ((Dev.SameDram.sti y e 0 z (by decide)).reg hrd)

theorem RdTakes.of_reg {t : Dev} {rd v : Nat} (hrd : rd < 0x34) (h : t.reg e rd = d.reg e rd) (ht : RdTakes d e rd v) :
    RdTakes t e rd v := by
  unfold RdTakes at ht ⊢
  rw [if_neg (by omega)] at ht ⊢
  rw [h, ht]

/-! ## The clauses -/

/-- A fresh operation of some bytes whose length fits PROG1 (R220). -/
structure Dev.SomeBytes (d : Dev) (e w : Nat) : Prop where
  fresh : (d.eng e).resumed = false
  pos   : 0 < d.reg e (iRs w + 1)
  fits  : d.reg e (iRs w + 1) < 2 ^ 64

theorem Dev.FreshRun.blkLen_pos {two : Option Nat} (hu : Dev.FreshRun e w two d u) (hs : d.SomeBytes e w) :
    0 < u.blkLen e := by
  have hpos := hs.pos
  rw [hu.blkLen hs.fits]
  omega

/-- A range that ends in the code word of its start is one iteration. -/
theorem Dev.FreshRun.blkLen_word {two : Option Nat} (hu : Dev.FreshRun e w two d u) (hs : d.SomeBytes e w)
    (hn : d.reg e (iRs w + 1) ≤ 16 - d.reg e (iRs w) % 2 ^ 38 % 16) : u.blkLen e = d.reg e (iRs w + 1) := by
  rw [hu.blkLen hs.fits]
  omega

section
variable (h : Issues s e 5 17 w d)
include h

theorem Issues.isBlock_crc : isBlock w = true := by simp [isBlock, h.2.1, h.2.2.1]

theorem completes_crc_faults (hs : d.SomeBytes e w) (hp : d.blkPath (d.reg e (iRs w) % 2 ^ 38) = .faults) (k : Nat) :
    Completes (.crc e (k + 1)) s (s.Faulted e w (d.reg e (iRs w) % 2 ^ 38 / 16 * 16) d) := by
  refine h.completes_block h.isBlock_crc rfl rfl hs.fresh hs.pos ?_ fun u hu => ?_
  · rw [(Dev.blockSet_freshRun hs.fresh w none).blkWaits_crc h.2.1, hp]
    rfl
  · refine hu.after_faults (x := d.reg e (iRs w) % 2 ^ 38) (back := d.reg e (iRs w) % 2 ^ 38 % 16) (both := false) hs.fits
      (Nat.mod_le ..) (by omega) ?_
    rw [State.blkData_crc h.2.1, hu.crc_faults (hu.blkLen_pos hs) hp]

theorem completes_crc_word (hs : d.SomeBytes e w) (hn : d.reg e (iRs w + 1) ≤ 16 - d.reg e (iRs w) % 2 ^ 38 % 16)
    (hrd : iRd w < 0x34) (hp : d.blkPath (d.reg e (iRs w) % 2 ^ 38) = .served)
    (hread : (d.portRead s.mem 0x0B (d.reg e (iRs w) % 2 ^ 38) (d.reg e (iRs w + 1))).2.1 = false) (k : Nat) :
    Completes (.crc e (k + 1)) s (fun t => (RdTakes t.dev e (iRd w) (crcBytes (iMod w % 4) (d.reg e (iRd w))
        (d.portRead s.mem 0x0B (d.reg e (iRs w) % 2 ^ 38) (d.reg e (iRs w + 1))).1) ∧
      (t.dev.rg .ENG_FLAGS_ZERO e = b2n (t.dev.reg e (iRd w) == 0) ∧ t.dev.rg .ENG_FLAGS_CARRY e = 0 ∧
        PcNext d t.dev e) ∧ t.mem = s.mem) ∧ t.dev.prog e 1 = 0) := by
  refine h.completes_block h.isBlock_crc rfl rfl hs.fresh hs.pos ?_ fun u hu => ?_
  · rw [(Dev.blockSet_freshRun hs.fresh w none).blkWaits_crc h.2.1, hp]
    rfl
  · obtain ⟨y, hy, hline⟩ := hu.crc_word hs.pos hrd hn hp hread 16
    have hleft := ((Dev.BlockLeft.of_fresh hy hs.fits).setReg hrd (crcBytes (iMod w % 4) (d.reg e (iRd w))
      (d.portRead s.mem 0x0B (d.reg e (iRs w) % 2 ^ 38) (d.reg e (iRs w + 1))).1)).done hs.fits false
    rw [hu.blkLen_word hs hn, State.blkData_crc h.2.1, hline]
    refine ⟨_, State.blkAfter_of_done hleft w, ?_⟩
    unfold State.onDev
    dsimp only
    rw [Dev.blkDone_crc h.2.1 h.2.2.1, Dev.ended_reg hrd]
    obtain ⟨hcarry, hpc, hdone⟩ := (hleft.zero _).ends
    refine ⟨⟨?_, ⟨?_, hcarry, hpc⟩, rfl⟩, hdone⟩
    · exact RdTakes.of_reg hrd ((Dev.ended_reg hrd _).trans ((Dev.blkStep_sameDram ..).reg hrd))
        (Dev.setReg_takes _ _ _ (by omega) (by omega) (by omega))
    · exact (Dev.finish_rg _ _ _ (by decide)).trans ((Dev.rg_st_self ..).trans (b2n_mod _))

end

section
variable (h : Issues s e 6 0 w d)
include h

theorem Issues.isBlock_fill : isBlock w = true := by simp [isBlock, h.2.1, h.2.2.1]

/-- FILL issues with a 16-byte aligned address (R231). -/
theorem Issues.fill_aligned (hf : (d.eng e).resumed = false) : d.reg e (iRs w) % 2 ^ 38 % 16 = 0 := by
  have hlegal := h.operands hf
  unfold Dev.stateIllegal at hlegal
  have hrs : d.reg e (iRs w) % 16 = 0 := by
    by_contra hne
    simp [h.2.1, h.2.2.1, hne] at hlegal
  omega

theorem completes_fill_faults (hs : d.SomeBytes e w) (hp : d.blkInto (d.reg e (iRs w) % 2 ^ 38) = .faults) (k : Nat) :
    Completes (.fill e (k + 1)) s (s.Faulted e w (d.reg e (iRs w) % 2 ^ 38) d) := by
  refine h.completes_block h.isBlock_fill rfl rfl hs.fresh hs.pos ?_ fun u hu => ?_
  · rw [(Dev.blockSet_freshRun hs.fresh w none).blkWaits_fill h.2.1 h.2.2.1, hp]
    rfl
  · refine hu.after_faults (x := d.reg e (iRs w) % 2 ^ 38) (back := 0) (both := false) hs.fits (Nat.zero_le _) rfl ?_
    rw [State.blkData_fill h.2.1 h.2.2.1, hu.fill_faults hp]

theorem completes_fill_word (hwf : s.wf) (hs : d.SomeBytes e w) (hn : d.reg e (iRs w + 1) = 16) (hrd : iRd w < 0x34)
    (ht : d.TakesWord (d.reg e (iRs w) % 2 ^ 38)) (k : Nat) : Completes (.fill e (k + 1)) s (fun t =>
      ((∀ k < 16, memGet t.mem (dramBase + d.reg e (iRs w) % 2 ^ 38 + k) = d.reg e (iRd w) / 256 ^ (k % 8) % 256) ∧
        (∀ y, (y < dramBase + d.reg e (iRs w) % 2 ^ 38 ∨ dramBase + d.reg e (iRs w) % 2 ^ 38 + 16 ≤ y) →
          memGet t.mem y = memGet s.mem y) ∧
        t.dev.rg .ENG_FLAGS_CARRY e = 0 ∧ PcNext d t.dev e) ∧ t.dev.prog e 1 = 0) := by
  refine h.completes_block h.isBlock_fill rfl rfl hs.fresh hs.pos ?_ fun u hu => ?_
  · rw [(Dev.blockSet_freshRun hs.fresh w none).blkWaits_fill h.2.1 h.2.2.1, ht.into]
    rfl
  · obtain ⟨t, hline, hreports, hmem⟩ := hu.fill_word hrd ht s
    have hleft := ((Dev.BlockLeft.of_fresh hu hs.fits).reports hreports).done hs.fits false
    have hlen : d.reg e (iRs w + 1) ≤ 16 - d.reg e (iRs w) % 2 ^ 38 % 16 := by
      have := ht.word
      omega
    rw [hn] at hleft
    rw [hu.blkLen_word hs hlen, hn, State.blkData_fill h.2.1 h.2.2.1, hline]
    refine ⟨_, State.blkAfter_of_done hleft w, ?_⟩
    obtain ⟨hcarry, hpc, hdone⟩ := hleft.ends
    have hwrote := memWrite_wrote hwf (dramBase + d.reg e (iRs w) % 2 ^ 38)
      (leBytes 8 (d.reg e (iRd w)) ++ leBytes 8 (d.reg e (iRd w)))
    rw [← hmem] at hwrote
    have hbytes : (leBytes 8 (d.reg e (iRd w)) ++ leBytes 8 (d.reg e (iRd w))).length = 16 := by simp [leBytes_length]
    unfold State.onDev
    dsimp only
    rw [Dev.blkDone_fill h.2.1 h.2.2.1]
    refine ⟨⟨fun i hi => ?_, fun y hy => hwrote.outside (by rwa [hbytes]), hcarry, hpc⟩, hdone⟩
    have hbyte := fill_byte (d.reg e (iRd w)) hi
    rw [hwrote.inside (hbytes.symm ▸ hi), (List.getElem_eq_iff _).2 hbyte, Nat.mod_mod]

end

section
variable (h : Issues s e 6 1 w d)
include h

theorem Issues.isBlock_mov : isBlock w = true := by simp [isBlock, h.2.1, h.2.2.1]

/-- MOV issues with 16-byte aligned addresses (R231). -/
theorem Issues.mov_aligned (hf : (d.eng e).resumed = false) :
    d.reg e (iRs w) % 2 ^ 38 % 16 = 0 ∧ d.reg e (iRd w) % 2 ^ 38 % 16 = 0 := by
  have hlegal := h.operands hf
  unfold Dev.stateIllegal at hlegal
  have hrs : d.reg e (iRs w) % 16 = 0 := by
    by_contra hne
    simp [h.2.1, h.2.2.1, hne] at hlegal
  have hrd : d.reg e (iRd w) % 16 = 0 := by
    by_contra hne
    simp [h.2.1, h.2.2.1, hne] at hlegal
  omega

theorem completes_mov_faults (hs : d.SomeBytes e w) (hline : d.reg e (iRs w + 1) ≤ 256 - d.reg e (iRs w) % 2 ^ 38 % 256)
    (hp : d.blkPath (d.reg e (iRs w) % 2 ^ 38) = .faults) (hb : d.blkInto (d.reg e (iRd w) % 2 ^ 38) ≠ .waits)
    (hlast : d.blkInto ((d.reg e (iRd w) % 2 ^ 38 + d.reg e (iRs w + 1) - 1) % 2 ^ 38) ≠ .waits) (k : Nat) :
    Completes (.movI e (k + 1)) s (s.Faulted e w (d.reg e (iRs w) % 2 ^ 38) d) := by
  refine h.completes_block (two := some (d.reg e (iRd w))) h.isBlock_mov rfl rfl hs.fresh hs.pos ?_ fun u hu => ?_
  · have hset := Dev.blockSet_freshRun hs.fresh w (some (d.reg e (iRd w)))
    rw [hset.blkWaits_mov h.2.1 h.2.2.1, hset.blkLen hs.fits, Nat.min_eq_left hline, hp]
    rw [beq_eq_false_iff_ne.2 hb, beq_eq_false_iff_ne.2 hlast]
    rfl
  · refine hu.after_faults (x := d.reg e (iRs w) % 2 ^ 38) (back := 0) (both := true) hs.fits (Nat.zero_le _) rfl ?_
    rw [State.blkData_mov h.2.1 h.2.2.1, hu.mov_faults hp]

theorem completes_mov_word (hwf : s.wf) (hs : d.SomeBytes e w) (hn : d.reg e (iRs w + 1) = 16)
    (hp : d.blkPath (d.reg e (iRs w) % 2 ^ 38) = .served) (hplain : d.PlainWord (d.reg e (iRs w) % 2 ^ 38))
    (ht : d.TakesWord (d.reg e (iRd w) % 2 ^ 38)) (k : Nat) :
    Completes (.movI e (k + 1)) s (fun t =>
      ((∀ k < 16, memGet t.mem (dramBase + d.reg e (iRd w) % 2 ^ 38 + k) =
          memGet s.mem (dramBase + d.reg e (iRs w) % 2 ^ 38 + k)) ∧
        (∀ y, (y < dramBase + d.reg e (iRd w) % 2 ^ 38 ∨ dramBase + d.reg e (iRd w) % 2 ^ 38 + 16 ≤ y) →
          memGet t.mem y = memGet s.mem y) ∧
        t.dev.rg .ENG_FLAGS_CARRY e = 0 ∧ PcNext d t.dev e) ∧ t.dev.prog e 1 = 0) := by
  have hlen : d.reg e (iRs w + 1) ≤ 16 - d.reg e (iRs w) % 2 ^ 38 % 16 := by
    have := hplain.word
    omega
  refine h.completes_block (two := some (d.reg e (iRd w))) h.isBlock_mov rfl rfl hs.fresh hs.pos ?_ fun u hu => ?_
  · have hset := Dev.blockSet_freshRun hs.fresh w (some (d.reg e (iRd w)))
    have hlast : (d.reg e (iRd w) % 2 ^ 38 + 16 - 1) % 2 ^ 38 / 256 = d.reg e (iRd w) % 2 ^ 38 / 256 := by
      have := ht.word
      omega
    have hinto : d.blkInto ((d.reg e (iRd w) % 2 ^ 38 + 16 - 1) % 2 ^ 38) = .served := by
      have := ht.into
      unfold Dev.blkInto at this ⊢
      rwa [hlast]
    rw [hset.blkWaits_mov h.2.1 h.2.2.1, hset.blkLen_word hs hlen, hn, hp, ht.into, hinto]
    rfl
  · obtain ⟨t, hline, hreports, hmem⟩ := hu.mov_word hp hplain ht s
    have hmoved := (Dev.BlockLeft.of_fresh hu hs.fits).reports hreports
    have hmarked : Dev.BlockLeft e (d.reg e (iRs w + 1)) d
        (t.dev.modEng e (fun x => { x with blkBad := x.blkBad || [false].any id })) :=
      ⟨hmoved.left, hmoved.carry, hmoved.pc, (Dev.modEng_proj _ e _ (·.blkBad)).trans (by simp [hmoved.bad]),
        (Dev.modEng_proj _ e _ (·.br)).trans hmoved.br⟩
    have hleft := hmarked.done hs.fits true
    rw [hn] at hleft
    rw [hu.blkLen_word hs hlen, hn, State.blkData_mov h.2.1 h.2.2.1, hline]
    refine ⟨_, State.blkAfter_of_done hleft w, ?_⟩
    obtain ⟨hcarry, hpc, hdone⟩ := hleft.ends
    have hwrote := memWrite_wrote hwf (dramBase + d.reg e (iRd w) % 2 ^ 38)
      (memRead s.mem (dramBase + d.reg e (iRs w) % 2 ^ 38) 16)
    rw [← hmem] at hwrote
    have hbytes := memRead_length s.mem (dramBase + d.reg e (iRs w) % 2 ^ 38) 16
    unfold State.onDev
    dsimp only
    rw [Dev.blkDone_mov h.2.1 h.2.2.1 hleft.bad]
    refine ⟨⟨fun i hi => ?_, fun y hy => hwrote.outside (by rwa [hbytes]), hcarry, hpc⟩, hdone⟩
    rw [hwrote.inside (hbytes.symm ▸ hi), memRead_getElem, Nat.mod_eq_of_lt (memGet_lt _ _)]

end

section
variable (h : Issues s e 6 2 w d)
include h

theorem Issues.isBlock_cmp : isBlock w = true := by simp [isBlock, h.2.1, h.2.2.1]

theorem completes_cmp_faults (hs : d.SomeBytes e w) (hline : d.reg e (iRs w + 1) ≤ 256 - d.reg e (iRs w) % 2 ^ 38 % 256)
    (hp : d.blkPath (d.reg e (iRs w) % 2 ^ 38) = .faults) (hb : d.blkPath (d.reg e (iRd w) % 2 ^ 38) ≠ .waits)
    (hlast : d.blkPath ((d.reg e (iRd w) % 2 ^ 38 + d.reg e (iRs w + 1) - 1) % 2 ^ 38) ≠ .waits) (k : Nat) :
    Completes (.blkcmp e (k + 1)) s (s.Faulted e w (d.reg e (iRs w) % 2 ^ 38 / 16 * 16) d) := by
  refine h.completes_block (two := some (d.reg e (iRd w))) h.isBlock_cmp rfl rfl hs.fresh hs.pos ?_ fun u hu => ?_
  · have hset := Dev.blockSet_freshRun hs.fresh w (some (d.reg e (iRd w)))
    rw [hset.blkWaits_cmp h.2.1 h.2.2.1, hset.blkLen hs.fits, Nat.min_eq_left hline, hp]
    rw [beq_eq_false_iff_ne.2 hb, beq_eq_false_iff_ne.2 hlast]
    rfl
  · refine hu.after_faults (x := d.reg e (iRs w) % 2 ^ 38) (back := d.reg e (iRs w) % 2 ^ 38 % 16) (both := true) hs.fits
      (Nat.mod_le ..) (by omega) ?_
    rw [State.blkData_cmp h.2.1 h.2.2.1, hu.cmp_faults (hu.blkLen_pos hs) hp]

theorem completes_cmp_word (hs : d.SomeBytes e w) (hn : d.reg e (iRs w + 1) ≤ 16 - d.reg e (iRs w) % 2 ^ 38 % 16)
    (hn' : d.reg e (iRs w + 1) ≤ 16 - d.reg e (iRd w) % 2 ^ 38 % 16)
    (hpa : d.blkPath (d.reg e (iRs w) % 2 ^ 38) = .served) (hpb : d.blkPath (d.reg e (iRd w) % 2 ^ 38) = .served)
    (hreada : (d.portRead s.mem 0x0B (d.reg e (iRs w) % 2 ^ 38) (d.reg e (iRs w + 1))).2.1 = false)
    (hreadb : (d.portRead s.mem 0x0B (d.reg e (iRd w) % 2 ^ 38) (d.reg e (iRs w + 1))).2.1 = false)
    (heq : (d.portRead s.mem 0x0B (d.reg e (iRs w) % 2 ^ 38) (d.reg e (iRs w + 1))).1 =
      (d.portRead s.mem 0x0B (d.reg e (iRd w) % 2 ^ 38) (d.reg e (iRs w + 1))).1) (k : Nat) :
    Completes (.blkcmp e (k + 1)) s (fun t => ((t.dev.rg .ENG_FLAGS_ZERO e = 1 ∧ t.dev.rg .ENG_FLAGS_CARRY e = 0 ∧
      PcNext d t.dev e) ∧ t.mem = s.mem) ∧ t.dev.prog e 1 = 0) := by
  refine h.completes_block (two := some (d.reg e (iRd w))) h.isBlock_cmp rfl rfl hs.fresh hs.pos ?_ fun u hu => ?_
  · have hset := Dev.blockSet_freshRun hs.fresh w (some (d.reg e (iRd w)))
    have hlast : (d.reg e (iRd w) % 2 ^ 38 + d.reg e (iRs w + 1) - 1) % 2 ^ 38 / 256 = d.reg e (iRd w) % 2 ^ 38 / 256 := by
      have := hs.pos
      omega
    have hpath : d.blkPath ((d.reg e (iRd w) % 2 ^ 38 + d.reg e (iRs w + 1) - 1) % 2 ^ 38) = .served := by
      have := hpb
      unfold Dev.blkPath at this ⊢
      rwa [hlast]
    rw [hset.blkWaits_cmp h.2.1 h.2.2.1, hset.blkLen_word hs hn, hpa, hpb, hpath]
    rfl
  · obtain ⟨y, hy, hline⟩ := hu.cmp_word hs.pos hn hn' hpa hpb hreada hreadb heq 33
    have hleft := (Dev.BlockLeft.of_fresh hy hs.fits).done hs.fits true
    rw [hu.blkLen_word hs hn, State.blkData_cmp h.2.1 h.2.2.1, hline]
    refine ⟨_, State.blkAfter_of_done hleft w, ?_⟩
    unfold State.onDev
    dsimp only
    rw [Dev.blkDone_cmp h.2.1 h.2.2.1]
    obtain ⟨hcarry, hpc, hdone⟩ := (hleft.zero 1).ends
    exact ⟨⟨⟨(Dev.finish_rg _ _ _ (by decide)).trans (Dev.rg_st_self ..), hcarry, hpc⟩, rfl⟩, hdone⟩

end

/-! ## The obligation -/

/-- Settles O15: a block operation that begins sets its progress, and an iteration inside one code word moves its data or is
stopped by the fault that it reports. -/
theorem blockOperations : Obligations.BlockOperations := by
  unfold Obligations.BlockOperations
  intro s e w d fresh a n b some_ flags empty holds faulted near open_ same one bytes other
  have hset : ∀ two, fresh → Dev.FreshRun e w two d (d.blockSet e w two) := fun two hf => Dev.blockSet_freshRun hf w two
  have hsome : some_ → d.SomeBytes e w := fun h => ⟨h.1, h.2.1, h.2.2⟩
  have hword : fresh → n = 16 → d.SomeBytes e w := fun hf hn => ⟨hf, by omega, by omega⟩
  have hbegins : some_ → ¬(fresh ∧ n = 0) := fun h hb => h.2.1.ne' hb.2
  refine ⟨?crcNone, ?fillNone, ?movNone, ?cmpNone, ?crcHolds, ?fillHolds, ?movHolds, ?cmpHolds, ?crcWaits, ?fillWaits,
    ?movWaits, ?cmpWaits, ?crcFaults, ?fillFaults, ?movFaults, ?cmpFaults, ?crcWord, ?fillWord, ?movWord, ?cmpWord⟩
  case crcNone => exact fun h hf hn k => h.completes_block_none (two := none) rfl rfl hf hn
  case fillNone => exact fun h hf hn k => h.completes_block_none (two := none) rfl rfl hf hn
  case movNone => exact fun h hf hn k => h.completes_block_none (two := some (d.reg e (iRd w))) rfl rfl hf hn
  case cmpNone => exact fun h hf hn k => h.completes_block_none (two := some (d.reg e (iRd w))) rfl rfl hf hn
  case crcHolds =>
    exact fun h hb => h.completes_block_holds (two := none) h.isBlock_crc rfl hb rfl (.inl rfl)
  case fillHolds =>
    exact fun h hb => h.completes_block_holds (two := none) h.isBlock_fill rfl hb rfl (.inl rfl)
  case movHolds =>
    exact fun h hb => h.completes_block_holds (two := some (d.reg e (iRd w))) h.isBlock_mov rfl hb rfl (.inl rfl)
  case cmpHolds =>
    exact fun h hb => h.completes_block_holds (two := some (d.reg e (iRd w))) h.isBlock_cmp rfl hb rfl (.inl rfl)
  case crcWaits =>
    intro k h hs hp
    refine h.completes_block_holds (two := none) h.isBlock_crc rfl (hbegins hs) rfl (.inr ?_)
    rw [(hset none hs.1).blkWaits_crc h.2.1]
    exact beq_iff_eq.2 hp
  case fillWaits =>
    intro k h hs hp
    refine h.completes_block_holds (two := none) h.isBlock_fill rfl (hbegins hs) rfl (.inr ?_)
    rw [(hset none hs.1).blkWaits_fill h.2.1 h.2.2.1]
    exact beq_iff_eq.2 hp
  case movWaits =>
    intro k h hs hp
    refine h.completes_block_holds (two := some (d.reg e (iRd w))) h.isBlock_mov rfl (hbegins hs) rfl (.inr ?_)
    rw [(hset _ hs.1).blkWaits_mov h.2.1 h.2.2.1, Bool.or_eq_true, Bool.or_eq_true, beq_iff_eq, beq_iff_eq]
    exact .inl hp
  case cmpWaits =>
    intro k h hs hp
    refine h.completes_block_holds (two := some (d.reg e (iRd w))) h.isBlock_cmp rfl (hbegins hs) rfl (.inr ?_)
    rw [(hset _ hs.1).blkWaits_cmp h.2.1 h.2.2.1, Bool.or_eq_true, Bool.or_eq_true, beq_iff_eq, beq_iff_eq]
    exact .inl hp
  case crcFaults => exact fun h hs hp k => completes_crc_faults h (hsome hs) hp k
  case fillFaults => exact fun h hs hp k => completes_fill_faults h (hsome hs) hp k
  case movFaults => exact fun h hs hn hp hb hlast k => completes_mov_faults h (hsome hs) hn hp hb hlast k
  case cmpFaults => exact fun h hs hn hp hb hlast k => completes_cmp_faults h (hsome hs) hn hp hb hlast k
  case crcWord => exact fun h hs hn hrd hp hread k => completes_crc_word h (hsome hs) hn hrd hp hread k
  case fillWord =>
    rintro hwf h hf hn hrd hinto ⟨hawg, hold, herrs⟩ k
    exact completes_fill_word h hwf (hword hf hn) hn hrd ⟨hinto, hawg, hold, herrs, h.fill_aligned hf⟩ k
  case movWord =>
    rintro hwf h hf hn hp hinto ⟨-, hold, herrs⟩ ⟨hawg, hold', -⟩ hclean k
    obtain ⟨ha, hb⟩ := h.mov_aligned hf
    exact completes_mov_word h hwf (hword hf hn) hn hp ⟨hold, hclean, herrs, ha⟩ ⟨hinto, hawg, hold', herrs, hb⟩ k
  case cmpWord =>
    exact fun h hs hn hn' hpa hpb hreada hreadb heq k =>
      completes_cmp_word h (hsome hs) hn hn' hpa hpb hreada hreadb heq k

end Sys2Proof.Machine
end
